-- ==== Sys2Proof/Word.lean ====
section
/-!
DEFINITION. The word types of the block: bytes, 32-bit register words and 64-bit Lambiop words.
-/

namespace Sys2Proof

/-- A byte of memory, of a chunk or of a tile payload. -/
abbrev Byte := BitVec 8

/-- A 32-bit word of the register window (R467, R517). -/
abbrev Word32 := BitVec 32

/-- A 64-bit Lambiop word (R60, R66). -/
abbrev Word := BitVec 64

end Sys2Proof
end

