-- ==== Sys2Proof/Machine/Bits.lean ====
section
/-!
DEFINITION. Bit fields, byte order and CRC-32C: the helpers every format of the spec is written with.
Multi-byte quantities are little-endian (00_scope.md, Conventions).
-/

namespace Sys2Proof.Machine

/-- Field of `w` bits of `v` from bit `lo` upward. -/
def bits (v lo w : Nat) : Nat := v / 2 ^ lo % 2 ^ w

/-- Bit `i` of `v`. -/
def bit (v i : Nat) : Bool := v.testBit i

/-- A Boolean as a field of one bit. -/
def flag (b : Bool) : Nat := if b then 1 else 0

/-- `v` with its field of `w` bits from bit `lo` replaced by `x`. -/
def setBits (v lo w x : Nat) : Nat :=
  v - bits v lo w * 2 ^ lo + x % 2 ^ w * 2 ^ lo

/-- Quotient rounded up. -/
def ceilDiv (a b : Nat) : Nat := (a + b - 1) / b

/-- The least `k` with `2 ^ k` at or above `n`, searched up to `fuel`. -/
def log2Up (fuel n : Nat) : Nat :=
  match fuel with
  | 0 => 0
  | f + 1 => if n ≤ 1 then 0 else log2Up f ((n + 1) / 2) + 1

/-- The low `n` bytes of `v`, lowest first. -/
def toLE : Nat → Nat → List Byte
  | 0, _ => []
  | n + 1, v => BitVec.ofNat 8 v :: toLE n (v / 256)

/-- The number a list of bytes spells, lowest byte first. -/
def ofLE : List Byte → Nat
  | [] => 0
  | b :: bs => b.toNat + 256 * ofLE bs

/-- `n` bytes of `xs` from offset `o`, as a number. -/
def leAt (xs : List Byte) (o n : Nat) : Nat := ofLE ((xs.drop o).take n)

/-- `xs` cut into groups of `n`; `fuel` bounds their number. -/
def chunksOf {α : Type} (fuel n : Nat) (xs : List α) : List (List α) :=
  match fuel with
  | 0 => []
  | f + 1 => if xs.isEmpty then [] else xs.take n :: chunksOf f n (xs.drop n)

/-- The 64-bit words of a run of bytes. -/
def words64 (xs : List Byte) : List Nat := (chunksOf (xs.length + 1) 8 xs).map ofLE

/-- The 32-bit words of a run of bytes. -/
def words32 (xs : List Byte) : List Nat := (chunksOf (xs.length + 1) 4 xs).map ofLE

/-- A run of bytes padded with 0 to `n` bytes. -/
def padTo (n : Nat) (xs : List Byte) : List Byte := xs ++ List.replicate (n - xs.length) 0

/-- A run of bytes padded with 0 to a multiple of `n` bytes. -/
def padUp (n : Nat) (xs : List Byte) : List Byte := padTo (ceilDiv xs.length n * n) xs

/-- Sign extension of the low `n` bits of `v`, as an integer. -/
def sextInt (v n : Nat) : Int :=
  let x := v % 2 ^ n
  if x < 2 ^ (n - 1) then (x : Int) else (x : Int) - (2 ^ n : Nat)

/-- One bit of the reflected CRC-32C division by 0x1EDC6F41 (R19). -/
def crcBit (c : Nat) : Nat :=
  if c % 2 = 1 then c / 2 ^^^ 0x82F63B78 else c / 2

/-- One byte of the CRC-32C. -/
def crcByte (c : Nat) (b : Byte) : Nat :=
  crcBit (crcBit (crcBit (crcBit (crcBit (crcBit (crcBit (crcBit (c ^^^ b.toNat))))))))

/-- CRC-32C with a given initial value and the final XOR of R19. -/
def crc32cFrom (init : Nat) (xs : List Byte) : Nat := xs.foldl crcByte init ^^^ 0xFFFFFFFF

/-- The CRC-32C of R19. -/
def crc32c (xs : List Byte) : Nat := crc32cFrom 0xFFFFFFFF xs

/-- Counters saturate at their greatest value. -/
def satAdd (w a b : Nat) : Nat := min (a + b) (2 ^ w - 1)

/-- The parity of the bits of `v`, over its low `fuel` bits. -/
def parity : Nat → Nat → Bool
  | 0, _ => false
  | f + 1, v => xor (v % 2 == 1) (parity f (v / 2))

/-! ### Settlement positions -/

/-- The position STEP:LAYER:PHASE that bits [43:0] of a tile header's word 2 hold (Table 1.3): step, layer and phase from
the lowest bit up. -/
def headerPos (w : Nat) : Nat := bits w 0 32 * 4096 + bits w 32 8 * 16 + bits w 40 4

/-- Bits [43:0] of a tile header's word 2 for a position. -/
def posHeader (p : Nat) : Nat := bits p 12 32 + bits p 4 8 * 2 ^ 32 + bits p 0 4 * 2 ^ 40

/-- A member put into a list in front of the first one that comes after it. -/
def insertBy {α : Type} (before : α → α → Bool) (x : α) : List α → List α
  | [] => [x]
  | y :: ys => if before x y then x :: y :: ys else y :: insertBy before x ys

/-- A list in the order of a test; members that neither precedes keep their order. -/
def sortBy {α : Type} (before : α → α → Bool) (xs : List α) : List α :=
  xs.foldl (fun acc x => insertBy before x acc) []

end Sys2Proof.Machine
end

