-- ==== Sys2Proof/Images.lean ====
section
/-!
DEFINITION. The images the block loads, as the chapters of MINT and VAULT, SORTER, ASSAY, NOTARY and the
memory stacks describe their contents. The spec gives the tables an image carries and what they mean; it
does not give the byte format of an image file (log entry 12), so the reader of a file is an uninterpreted
constant of Config.
-/

namespace Sys2Proof

/-- Invalid-byte policy (Table 4.6). -/
inductive Policy where
  | byte | replace | strict
  deriving DecidableEq, Repr

/-- Normal form of an image (Table 4.5). -/
inductive NormForm where
  | none | nfc | nfkc
  deriving DecidableEq, Repr

/-- What a state of an alternative's automaton says of the alternative, seen from the bytes consumed so
far (R176): still open, with the most bytes by which a match may end before the current point
and whether a match is certain; matched, ending `back` bytes before the current point; or not matching. -/
inductive Verdict where
  | pending (back : Nat) (sure : Bool)
  | hit (back : Nat)
  | miss
  deriving DecidableEq, Repr

/-- One alternative of the pre-token pattern (R172): its match address, its rows, and its automaton over
bytes 0 to 255, the start symbol 256 and the end symbol 257; state 0 is the state before the first symbol;
an absent transition leads to a state that never matches. -/
structure Alt where
  addr : Nat
  rows : Nat
  verdicts : List Verdict
  trans : List (Nat × Nat × Nat)
  deriving DecidableEq, Repr

/-- MINT families (Table 6.13). -/
inductive Family where
  | bytePair | unigram | wordPiece
  deriving DecidableEq, Repr

/-- A merge-table entry (Table 6.5, PAIR). -/
structure Merge where
  left : Nat
  right : Nat
  merged : Nat
  rank : Nat
  deriving DecidableEq, Repr

/-- An SMAP entry (Table 6.5): the string, whether it stands for a continuation, whether a longer entry begins with it,
and TOKEN, which HASTOK says is the string's own token; of a prefix-only entry it is one whose string begins with it. -/
structure SmapEntry where
  key : List Byte
  cont : Bool
  ext : Bool
  hasTok : Bool
  tok : Nat
  score : Int
  deriving DecidableEq, Repr

/-- A tokeniser image. `fallback` is that it allows byte fallback. -/
structure TokImage where
  fingerprint : Nat
  vocab : Nat
  policy : Policy
  norm : NormForm
  fold : Bool
  uniMajor : Nat
  uniMinor : Nat
  uniUpdate : Nat
  prot : List (List Byte)
  foldTab : List (Nat × List Nat)
  decompTab : List (Nat × List Nat)
  compTab : List (Nat × Nat × Nat)
  cccTab : List (Nat × Nat)
  qcNotYes : List Nat
  gang : Nat
  look : Nat
  rows : Nat
  alts : List Alt
  family : Family
  baseChar : Bool
  nonmono : Bool
  byteTab : Option (List Nat)
  fallback : Bool
  spec : List Nat
  unk : Option Nat
  unkScore : Int
  maxChars : Nat
  merges : List Merge
  smap : List SmapEntry
  cache : Option (List (List Byte × List Nat))
  seed : Nat
  shares : Nat × Nat × Nat
  toks : List (List Byte × Nat)
  outReplace : Bool
  deriving DecidableEq, Repr

/-- A residual record (Table 7.2). -/
structure Residual where
  token : Nat
  next : Nat
  pop : Nat
  push : List Nat
  need : List Nat
  deriving DecidableEq, Repr

/-- A state entry with its residual list (Table 7.2). -/
structure StateEntry where
  maskIndex : Nat
  minClen : Nat
  residuals : List Residual
  deriving DecidableEq, Repr

/-- A transition record (Table 7.2) whose VALID is set. -/
structure Trans where
  token : Nat
  state : Nat
  cls : Nat
  next : Nat
  pop : Bool
  push : List Nat
  deriving DecidableEq, Repr

/-- Dead-state policies (Table 7.5). -/
inductive DeadPolicy where
  | endTok | fallback | halt
  deriving DecidableEq, Repr

/-- A grammar image: what its header gives, and its bytes, which hold the records of Table 7.2. `maskSet` is the mask-set
slot it names (R510, log entry 192); `seed` and `buckets` are those of the transition table; `entryAt` and `transAt` are where the state
entries and the transition table begin, in bytes from the image start. -/
structure GrammarImage where
  fingerprint : Nat
  states : Nat
  classes : Nat
  classOf : List (Nat × Nat)
  start : Nat
  endToken : Nat
  policy : DeadPolicy
  fallback : Nat
  maskSet : Nat
  pushdown : Bool
  seed : Nat
  buckets : Nat
  entryAt : Nat
  transAt : Nat
  data : List Byte
  deriving DecidableEq, Repr

/-- A mask set: the masks as bit sets over token numbers (R233), its element width code of Table 10.3. -/
structure MaskSetImage where
  fingerprint : Nat
  vocab : Nat
  width : Nat
  masks : List Nat
  lenMasks : List Nat
  longList : List (Nat × Nat)
  deriving DecidableEq, Repr

end Sys2Proof
end

