-- ==== Sys2Proof/Config.lean ====
section
/-!
DEFINITION. What a build fixes (Table 0.4, Table 13.24, PWR_INTEG) and the values the spec leaves open, which
are constants without a body: nothing can be proved of them but what holds of every value.
-/

namespace Sys2Proof

/-- The four configurations (R8). -/
inductive Size where
  | full | half | quarter | edge
  deriving DecidableEq, Repr

/-- The constants of one build: its configuration, the value wired to cel_inst_id, and PWR_INTEG. -/
structure Build where
  size : Size
  instId : Word
  integ : Word32
  deriving DecidableEq, Repr

namespace Config

/-- The value the integrator drives on cel_inst_id (R6). -/
opaque instId : Word

/-- How many thermal inputs are connected, less one: NTHERM is 1 to 8 (Table 15.8). -/
opaque thermInputs : Fin 8

/-- Which of the masks within NTHERM, of those that are not 0, THERM_SORTER is (Table 15.8). -/
opaque thermSorter : Nat

/-- Whether current telemetry is connected (Table 15.8). -/
opaque itel : Bool

/-- PWR_INTEG of the build: NTHERM, THERM_SORTER, ITEL, and 0 in the reserved bits (R496, Table 15.22). -/
def integ : Word32 :=
  let n := thermInputs.val + 1
  BitVec.ofNat 32 (n + (1 + thermSorter % (2 ^ n - 1)) * 2 ^ 4 + (if itel then 2 ^ 12 else 0))

/-- A value the spec leaves open, fresh at every use: applied to the counter `State.free`. -/
opaque freeValue : Nat → Nat

/-- Which of a CLERK's five macros of family 6 holds its program memory (Table 14.2 names them together). -/
opaque programMacro : Nat

/-- Which of them holds the registers of its threads, likewise. -/
opaque registerMacro : Nat

/-- Entries a station's input queue holds (R46 names the queue and gives no depth). -/
opaque queueDepth : Nat

/-- The tokens MINT emits for a protected run that no special-token row holds (R535 leaves them unspecified), as the first
and the rest: applied to the image's fingerprint and the run's bytes. -/
opaque unknownRun : Nat → List Byte → Nat × List Nat

/-- The line of a bank's golden copy that holds a line of an image: applied to the image's generation, the sub-bank and the
line within the image's part of that sub-bank (the spec does not give the places of units in a bank). -/
opaque goldenPlace : Nat → Nat → Nat → Nat

/-- The reader of a tokeniser image's bytes; none where they break the image format. -/
opaque parseTokeniser : List Byte → Option TokImage

/-- The vocabulary fingerprint and the element width an image's bytes carry; none where these are not among the bytes. -/
opaque imageHead : List Byte → Option (Nat × Nat)

/-- The reader of a grammar image's header; none where it breaks the image format. -/
opaque parseGrammar : List Byte → Option GrammarImage

/-- The reader of a mask-set image's bytes. -/
opaque parseMaskSet : List Byte → Option MaskSetImage

/-- The order in which the automaton states of an image's gang tile are numbered (Table 11.23 names them "as the image's rows
number it" and gives no numbering): the exchanges that lead from the order of `statesCode` to it, for the image's fingerprint
and the gang tile. -/
opaque searchOrder : Nat → Nat → List (Nat × Nat)

/-- The layout of a checkpoint's 64-byte header (R253 names its contents and gives no places): the bytes stand in the
order of these keys. -/
opaque checkpointKey : Nat → Nat

/-- The line of the GRAM region at which the loader puts a grammar image, applied to its ID (the spec gives no place). -/
opaque gramPlace : Nat → Nat

/-- The line of the GRAM region at which the loader keeps the page checks of a mask set, applied to its slot. -/
opaque checkPlace : Nat → Nat

end Config

/-- CLERKS built (Table 0.4). -/
def Size.clerks : Size → Nat
  | .full => 8 | .half => 4 | .quarter => 2 | .edge => 1

/-- Ingress lanes built. -/
def Size.lanes : Size → Nat
  | .full => 8 | .half => 4 | .quarter => 2 | .edge => 1

/-- SORTER tiles, without the spares. -/
def Size.sorterTiles : Size → Nat
  | .full => 64 | .half => 32 | .quarter => 16 | .edge => 4

/-- Spare SORTER tiles. -/
def Size.sorterSpares : Size → Nat
  | .full => 2 | .half => 2 | .quarter => 1 | .edge => 1

/-- MINT lanes, without the spares. -/
def Size.mintLanes : Size → Nat
  | .full => 32 | .half => 16 | .quarter => 8 | .edge => 2

/-- Spare MINT lanes. -/
def Size.mintSpares : Size → Nat
  | .full => 2 | .half => 2 | .quarter => 1 | .edge => 1

/-- VAULT banks, without the spare. -/
def Size.vaultBanks : Size → Nat
  | .full => 16 | .half => 8 | .quarter => 4 | .edge => 2

/-- VAULT units (Table 6.3 and the sentence after it: 64 KiB per bank, 16 KiB in an Edge block). -/
def Size.vaultUnits : Size → Nat
  | .full => 96 | .half => 96 | .quarter => 96 | .edge => 64

/-- Bytes of one bank that one VAULT unit takes (Table 6.3). -/
def Size.unitBytes : Size → Nat
  | .full => 65536 | .half => 65536 | .quarter => 65536 | .edge => 16384

/-- NOTARY units. -/
def Size.notaryUnits : Size → Nat
  | .full => 8 | .half => 4 | .quarter => 2 | .edge => 1

/-- CLEARING lanes, without the spares. -/
def Size.clearLanes : Size → Nat
  | .full => 1024 | .half => 512 | .quarter => 256 | .edge => 32

/-- Spare CLEARING lanes. -/
def Size.clearSpares : Size → Nat
  | .full => 32 | .half => 16 | .quarter => 8 | .edge => 2

/-- Pages of the mask store. -/
def Size.maskPages : Size → Nat
  | .full => 8192 | .half => 4096 | .quarter => 2048 | .edge => 256

/-- EXCHANGE units. -/
def Size.exchUnits : Size → Nat
  | .full => 4 | .half => 2 | .quarter => 1 | .edge => 1

/-- Stream contexts. -/
def Size.contexts : Size → Nat
  | .full => 4096 | .half => 2048 | .quarter => 1024 | .edge => 64

/-- The largest vocabulary accepted. -/
def Size.maxVocab : Size → Nat
  | .full => 1048576 | .half => 1048576 | .quarter => 1048576 | .edge => 131072

/-- GBL_CEL_ID (Table 0.1). -/
def Size.celId : Size → Nat
  | .full => 0x01001201 | .half => 0x01001211 | .quarter => 0x01001221 | .edge => 0x01001231

/-- GBL_SHAPE (Table 0.2). -/
def Size.shape : Size → Nat
  | .full => 0x014C8488 | .half => 0x014B4244 | .quarter => 0x014A2122 | .edge => 0x01161111

/-- Reset allowance and ceiling, coins per microsecond (Table 13.24). -/
def Size.allowReset : Size → Nat
  | .full => 30000 | .half => 15000 | .quarter => 8000 | .edge => 100

/-- Greatest ceiling (Table 13.24). -/
def Size.ceilMax : Size → Nat
  | .full => 40000 | .half => 20000 | .quarter => 10600 | .edge => 135

/-- Floor (Table 13.24). -/
def Size.floor : Size → Nat
  | .full => 1000 | .half => 500 | .quarter => 250 | .edge => 4

/-- PUR_LEAK_MIN at reset (Table 13.24). -/
def Size.leakMin : Size → Nat
  | .full => 4000 | .half => 2000 | .quarter => 1000 | .edge => 15

/-- Least size of GOLD0 and GOLD1, bytes (Table 10.2). -/
def Size.goldMin : Size → Nat
  | .full => 100663296 | .half => 50331648 | .quarter => 25165824 | .edge => 2097152

end Sys2Proof
end

