-- ==== Sys2Proof/Machine/Tab.lean ====
section
/-!
DEFINITION. Sparse tables: lists of key and value pairs in one canonical form, keys strictly rising and no
entry equal to what an unlisted key reads as. Registers, scratch, program memory, thread and stream
contexts are held in them, so that equal contents are equal data.
-/

namespace Sys2Proof.Machine

/-- A sparse table; `d` in the operations below is what an unlisted key reads as. -/
abbrev Tab (α : Type) := List (Nat × α)

/-- The value at a key. -/
def Tab.get {α : Type} (d : α) : Tab α → Nat → α
  | [], _ => d
  | (k, v) :: t, n => if n = k then v else Tab.get d t n

/-- The table without a key. -/
def Tab.erase {α : Type} : Tab α → Nat → Tab α
  | [], _ => []
  | (k, v) :: t, n => if n = k then Tab.erase t n else (k, v) :: Tab.erase t n

/-- The table with a key listed at a value, whatever the value. -/
def Tab.insert {α : Type} : Tab α → Nat → α → Tab α
  | [], n, x => [(n, x)]
  | (k, v) :: t, n, x =>
    if n = k then (n, x) :: t
    else if n < k then (n, x) :: (k, v) :: t
    else (k, v) :: Tab.insert t n x

/-- The table with a key set to a value; setting what an unlisted key reads as removes the entry. -/
def Tab.set {α : Type} [DecidableEq α] (d : α) (t : Tab α) (n : Nat) (x : α) : Tab α :=
  if x = d then Tab.erase t n else Tab.insert t n x

/-- Whether every key of a table is above a bound and the keys rise strictly. -/
def Tab.sortedFrom {α : Type} : Option Nat → Tab α → Bool
  | _, [] => true
  | none, (k, _) :: t => Tab.sortedFrom (some k) t
  | some b, (k, _) :: t => decide (b < k) && Tab.sortedFrom (some k) t

/-- The canonical form; `d` gives what each unlisted key reads as. -/
def Tab.wf {α : Type} [DecidableEq α] (d : Nat → α) (t : Tab α) : Bool :=
  Tab.sortedFrom none t && t.all (fun p => decide (p.2 ≠ d p.1))

/-- The keys listed. -/
def Tab.keys {α : Type} (t : Tab α) : List Nat := t.map Prod.fst

end Sys2Proof.Machine
end

