-- ==== Sys2Proof/Syntax.lean ====
section
/-!
DEFINITION. The commands of the block: one constructor of `Instr` per row of spec/opcode_table.json, with
the row's operands. The 48 Lambiop rows carry the thread that issues them and the instruction's fields
(Table 2.4); the other rows are the events the block takes from its ports, its register window and its
own engines.
-/

namespace Sys2Proof

/-- A thread of a CLERK (Table 2.1). -/
structure Who where
  clerk : BitVec 3
  thread : BitVec 4
  deriving DecidableEq, Repr

/-- The fields of a Lambiop instruction below its opcode (Table 2.4). -/
structure Fields where
  d : BitVec 4
  a : BitVec 4
  b : BitVec 4
  pred : BitVec 4
  imm : BitVec 40
  deriving DecidableEq, Repr

/-- What the silicon meets while a station takes a tile: nothing, or one of the physical events whose
effect the spec gives (R391, R196, R223, R392). -/
inductive HwEvent where
  /-- nothing out of the ordinary -/
  | none
  /-- the check received with the tile does not match (R391) -/
  | checkFail
  /-- a SORTER row's parity fails on a tile (R196) -/
  | rowParity (tile : BitVec 7) (mac : BitVec 6) (row : BitVec 10)
  /-- a VAULT lookup of the tile meets a single-bit error (R223) -/
  | corrected (bank : BitVec 4)
  /-- a VAULT lookup of the tile meets an uncorrectable error (R392) -/
  | poison (bank : BitVec 4) (mac : BitVec 7) (row : BitVec 10)
  deriving DecidableEq, Repr

/-- One advance of NOTARY: the stream it advances, and what its lookups meet (R223, R250). -/
structure AdvanceEvent where
  stream : BitVec 12
  hw : HwEvent
  deriving DecidableEq, Repr

/-- An egress port's ready rises: the port, and how many more payload beats of a paused record pass before the receiver
lowers it again (R326). -/
structure ReadyEvent where
  port : BitVec 1
  beats : BitVec 10
  deriving DecidableEq, Repr

/-- How a memory port answers an access (R349, R350, R468). -/
inductive Answer where
  /-- a read's data, or the completion of a write -/
  | done
  /-- the bank's near-bank unit is busy (R349) -/
  | deferred
  /-- an uncorrectable-error report (R350) -/
  | error
  deriving DecidableEq, Repr

/-- What an IEEE 1687 access asks for (R495). -/
inductive TestAccess where
  /-- a read of the register window, under debug scope bit 2; `lost` when the register port takes the window in the
  same cycle (R492) -/
  | regRead (offset : BitVec 16) (lost : Bool)
  /-- a write of the register window, under debug scope bit 2 -/
  | regWrite (offset : BitVec 16) (value : Word32) (lost : Bool)
  /-- a readout of a canary, numbered as RSV_CSEL does -/
  | canary (index : BitVec 7)
  /-- a scan-chain or memory-BIST access -/
  | scan
  deriving DecidableEq, Repr

/-- One canary measurement of a SLACK_SWEEP: the slack of one canary, signed, in the unit of R452. -/
abbrev Slack := BitVec 10

/-- A finding of one PATROL_SCRUB visit, or of the scrub of a macro outside VAULT (R449): macro family, macro
index within it, and row (Table 14.2). -/
inductive ScrubFinding where
  /-- a word read back with a single-bit error -/
  | corrected (family : BitVec 3) (mac : BitVec 13) (row : BitVec 10)
  /-- an uncorrectable word; outside VAULT, the streams whose work lay there -/
  | dead (family : BitVec 3) (mac : BitVec 13) (row : BitVec 10) (streams : List (BitVec 12))
  deriving DecidableEq, Repr

/-- A unit of Table 14.1 by class and index. -/
structure UnitId where
  cls : BitVec 4
  idx : BitVec 12
  deriving DecidableEq, Repr

/-- The commands of the block, in the order of spec/opcode_table.json. -/
inductive Instr where
  | add (w : Who) (f : Fields)
  | sub (w : Who) (f : Fields)
  | mul (w : Who) (f : Fields)
  | and (w : Who) (f : Fields)
  | or (w : Who) (f : Fields)
  | xor (w : Who) (f : Fields)
  | shl (w : Who) (f : Fields)
  | shr (w : Who) (f : Fields)
  | sar (w : Who) (f : Fields)
  | addi (w : Who) (f : Fields)
  | andi (w : Who) (f : Fields)
  | lui (w : Who) (f : Fields)
  | cmp (w : Who) (f : Fields)
  | cmpi (w : Who) (f : Fields)
  | sel (w : Who) (f : Fields)
  | pset (w : Who) (f : Fields)
  | crc (w : Who) (f : Fields)
  | b (w : Who) (f : Fields)
  | bp (w : Who) (f : Fields)
  | call (w : Who) (f : Fields)
  | ret (w : Who) (f : Fields)
  | yield (w : Who) (f : Fields)
  | halt (w : Who) (f : Fields)
  | brk (w : Who) (f : Fields)
  | nop (w : Who) (f : Fields)
  | rds (w : Who) (f : Fields)
  | wrs (w : Who) (f : Fields)
  | ld (w : Who) (f : Fields)
  | st (w : Who) (f : Fields)
  | ldx (w : Who) (f : Fields)
  | stx (w : Who) (f : Fields)
  | sopen (w : Who) (f : Fields)
  | sfeed (w : Who) (f : Fields)
  | sclose (w : Who) (f : Fields)
  | flow (w : Who) (f : Fields)
  | dnext (w : Who) (f : Fields)
  | waitt (w : Who) (f : Fields)
  | waitb (w : Who) (f : Fields)
  | tpoll (w : Who) (f : Fields)
  | post (w : Who) (f : Fields)
  | pay (w : Who) (f : Fields)
  | settle (w : Who) (f : Fields)
  | mask (w : Who) (f : Fields)
  | next (w : Who) (f : Fields)
  | draft (w : Who) (f : Fields)
  | pick (w : Who) (f : Fields)
  | emit (w : Who) (f : Fields)
  | price (w : Who) (f : Fields)
  /-- every output of a ticket's tile has reached its sink or is held as carry (R42) -/
  | ticketComplete (clerk : BitVec 3) (ticket : BitVec 12)
  /-- PURSE serves the purchase at the head of the class order (R426, R427) -/
  | purchaseServed
  /-- the input queue of a first station has room for what waits for it (R46) -/
  | inputQueueRoom (hop : BitVec 4)
  /-- CLK_CTRL.START written with these bits (R64) -/
  | clerkStart (clerks : BitVec 8)
  /-- CLK_CTRL.HALT written with these bits (R96) -/
  | clerkHalt (clerks : BitVec 8)
  /-- CLK_TRST written with GO (R95) -/
  | threadRestart (w : Who)
  /-- the sequencer presents a position and the block takes it (R98 to R101) -/
  | beatPositionTaken (pos : BitVec 44)
  /-- the oldest waiting page fetch of a CLERK looks for room again (R129) -/
  | daybookFetchResume (clerk : BitVec 3)
  /-- the grace of a stream's dense-path tile ends (R112) -/
  | graceEnd (stream : BitVec 12)
  /-- the grace of a stream's thin-path row ends (R113) -/
  | thinGraceEnd (stream : BitVec 12)
  /-- BEAT_CTRL.ARM written with 1 (R104) -/
  | beatArm
  /-- BEAT_CTRL.FREEZE written with 1 (R103) -/
  | beatFreeze
  /-- BEAT_CFG written (R107, R108) -/
  | beatCfgWrite (value : Word32)
  /-- DAY_BASE_LO, DAY_BASE_HI or DAY_CFG written (R120) -/
  | daybookConfigWrite (offset : BitVec 16) (value : Word32)
  /-- a whole chunk of an ingress lane up to eop: header word and data words (R137) -/
  | laneChunk (lane : BitVec 3) (header : Word) (words : List Word)
  /-- TELLER takes the next chunk of its input queue (R139) -/
  | tellerChunk
  /-- TEL_REISSUE written with GO (R143) -/
  | telReissue (stream : BitVec 12)
  /-- ASSAY takes the stream's next text tile (R152) -/
  | assayTile (stream : BitVec 12) (hw : HwEvent)
  /-- SORTER takes the stream's next text tile (R184) -/
  | sorterTile (stream : BitVec 12) (hw : HwEvent)
  /-- the stripe slots of a tenant's replaced image become free (R192) -/
  | stripeSlotsFreed (tenant : BitVec 4)
  /-- SORTER samples its thermal inputs, in degrees Celsius (R198) -/
  | sorterThermalSample (samples : List (BitVec 9))
  /-- MINT takes the stream's next SORTER tile (R203) -/
  | mintTile (stream : BitVec 12) (hw : HwEvent)
  /-- the reload of a poisoned VAULT bank ends (R392) -/
  | vaultReloadDone (bank : BitVec 4)
  /-- the VAULT units of a tenant's replaced image become free (R224) -/
  | vaultUnitsFreed (tenant : BitVec 4)
  /-- NOTARY takes the stream's next tile, a decision tile (R248) -/
  | notaryDecisionTile (stream : BitVec 12) (hw : HwEvent)
  /-- NOTARY takes the stream's next tile, a token tile (R260) -/
  | notaryTokenTile (stream : BitVec 12) (hw : HwEvent)
  /-- NOTARY makes the stream's next committed advance (R250) -/
  | notaryAdvance (stream : AdvanceEvent)
  /-- NOTARY resolves an offered candidate ahead of the commit (R262) -/
  | runaheadResolve (stream : BitVec 12) (token : BitVec 20)
  /-- a decision tile reaches CLEARING (R278) -/
  | clearingDescriptor (stream : BitVec 12) (hw : HwEvent)
  /-- mask-store pages are free for a waiting tile (R279) -/
  | maskPagesFreed (stream : BitVec 12)
  /-- a row arrives on the logit ports: header, data bytes, beats (R272) -/
  | logitRow (header : Word) (data : List Byte) (beats : BitVec 13)
  /-- a near-bank unit's list arrives on a port's command channel (R346) -/
  | nearBankList (port : BitVec 3) (data : List Byte)
  /-- EXCHANGE takes the stream's next tile (R311) -/
  | exchangeTile (stream : BitVec 12) (hw : HwEvent)
  /-- NOTARY reports the outcome EXCHANGE waits for (R318) -/
  | escrowHoldResolve (stream : BitVec 12)
  /-- a tile reaching an egress sink starts to leave as a record; this many payload beats pass before
  the receiver lowers ready (R324, R326) -/
  | egressRecord (port : BitVec 1) (beats : BitVec 10)
  /-- a memory port answers the access with this tag (R468) -/
  | memoryResponse (port : BitVec 3) (tag : BitVec 10) (kind : Answer) (data : List Byte)
  /-- the back-off of a deferred access ends (R349) -/
  | deferredRetry (port : BitVec 3) (tag : BitVec 10)
  /-- every access to the quiescing channel has been answered (R355) -/
  | channelQuiesceDrained
  /-- a geometry, hash or region register written (R335) -/
  | stkConfigWrite (offset : BitVec 16) (value : Word32)
  /-- the LEDGER hop takes the stream's next tile (R368) -/
  | ledgerHop (stream : BitVec 12) (hw : HwEvent)
  /-- queue 0 has room for the next completion packet (R371) -/
  | completionPacket
  /-- LDG_SETTLED_HI written (R372) -/
  | settlePush (hi : Word32)
  /-- the block takes a number from queue 1 (R372) -/
  | settlementTaken
  /-- LDG_CTRL written (R378) -/
  | journalEnable (value : Word32)
  /-- the replay ends (R378) -/
  | replayDone
  /-- a ring has fewer than one eighth of its space free (R374) -/
  | carryForward
  /-- LDG_QPOP_LO read (R389) -/
  | queuePop
  /-- LDG_QCFG written (R386, R387) -/
  | queueFlush (value : Word32)
  /-- KCW_CTRL.GO written with the named command in the window (R404, Table 12.1) -/
  | loadImage
  /-- the loader has read the image: its bytes, and the status the reads ended with (R409, R531) -/
  | imageLoadDone (data : List Byte) (status : Byte)
  | setCeiling
  | remapRow
  | retire
  | restore
  | margin
  | setHash
  | zeroise
  | debugUnlock
  /-- KCW_CTRL.DLOCK written (R417) -/
  | dlock
  /-- the key port delivers the boot epoch (R401) -/
  | keyEpoch (epoch : Word)
  /-- the key port delivers a key to a slot (R403) -/
  | keyDelivery (slot : BitVec 3) (key : BitVec 128)
  /-- the key port empties a slot (R400) -/
  | keyClear (slot : BitVec 3)
  /-- the back-off of R405 ends for a slot -/
  | tagBackoffEnd (slot : BitVec 3)
  /-- one tick of R422: thermal samples, current-telemetry sample in mA, and whether it is valid -/
  | purseTick (therm : List (BitVec 9)) (itel : BitVec 16) (valid : Bool)
  /-- PERIOD ticks have passed (R437) -/
  | purseTelemetryPacket
  /-- PUR_ALLOW written (R419) -/
  | purAllowWrite (value : Word32)
  /-- one visit of the scrub and what it found (R449) -/
  | patrolScrub (findings : List ScrubFinding)
  /-- the sweep interval of a domain expires (R452) -/
  | slackSweep (domain : Fin 25)
  /-- the sweep under way ends with these slacks, one per canary of the domain (R453) -/
  | sweepEnd (slacks : List Slack)
  /-- the spare under swap is filled (R439) -/
  | spareSwapDone
  /-- the tile under reload is filled (R195) -/
  | tileReloadDone (tile : BitVec 7)
  /-- RSV_MCTRL.START with ACT 1 (R461) -/
  | scrubPassStart
  /-- RSV_MCTRL.START with ACT 2 (R452): the value written -/
  | sweepRequest (value : Word32)
  /-- RSV_MCTRL.START with ACT 7 (R355) -/
  | channelQuiesce
  /-- RSV_MCTRL.END (R355) -/
  | quiesceEnd
  /-- RSV_PEND_CTL.POP written (R456) -/
  | pendingPop
  /-- the power controller acknowledges the rail request (R471) -/
  | vreqAck
  /-- the power controller refuses the rail request (R471) -/
  | vreqNak
  /-- a register write without a row of its own (R25) -/
  | registerWrite (offset : BitVec 16) (value : Word32)
  /-- a read of the register window; of a latched pair's _LO it also latches the _HI (R520) -/
  | pairLoRead (offset : BitVec 16)
  /-- a write of a 64-bit counter's _LO (R521) -/
  | counterLoWrite (offset : BitVec 16) (value : Word32)
  /-- cel_rst_n falls, or PD_BASE power-good falls (R480) -/
  | blockReset
  /-- the interface reset of a clock domain is asserted (R480) -/
  | domainReset (domain : Fin 25)
  /-- PWR_RST written (R482) -/
  | pwrRst (value : Word32)
  /-- the 64-cycle reset of a domain ends (R482) -/
  | resetRelease (domain : Fin 25)
  /-- a clock shows no edge for 2 microseconds (R474) -/
  | clockLost (domain : Fin 25)
  /-- a lost clock has run for 1 microsecond again (R474) -/
  | clockRestored (domain : Fin 25)
  /-- cel_pd_pg rises for a power domain (R485) -/
  | powerGood (pd : Fin 30)
  /-- isolation and reset of a power domain are released (R485) -/
  | pdRelease (pd : Fin 30)
  /-- power-good has not come within 100 microseconds (R488) -/
  | pgTimeout (pd : Fin 30)
  /-- power-good falls unrequested (R489) -/
  | pgFault (pd : Fin 30)
  /-- PWR_PDRETRY written (R490) -/
  | pdRetry (value : Word32)
  /-- PWR_PDCTRL written (R491) -/
  | pdSwitch (value : Word32)
  /-- the stack controller reports a link error of a memory port (R394) -/
  | memoryLinkError (port : BitVec 3)
  /-- the watchdog count reaches 0 (R493) -/
  | wdogExpire
  /-- PWR_WDOG_KICK written (R493) -/
  | wdogKick (value : Word32)
  /-- cel_test_mode rises (R494) -/
  | testMode
  /-- GBL_BOOT.GO written in IDLE (R499) -/
  | bootGo
  /-- the next power-up group is switched on (R500) -/
  | powerGroupStart
  /-- a bring-up phase ends on its condition or time (R499); the sweep of phase BASELINE measured these
  slacks, one list per domain -/
  | bootPhaseEnd (baseline : List (List Slack))
  /-- a unit has not posted (R504) -/
  | unitMissing (u : UnitId)
  /-- SRQ_FORCE written (R513) -/
  | srqForce (value : Word32)
  /-- an entry has waited 10 microseconds in queue 0 (R512) -/
  | srqQueueAge
  /-- DBG_RESUME.GO written (R417) -/
  | debugResume (w : Who)
  /-- DBG_RESUME.GO written with STEP (R417) -/
  | debugStep (w : Who)
  /-- a CLERK issues a word whose opcode is undefined or whose reserved bits are not 0 (R67) -/
  | undefinedOpcode (w : Who) (word : Word)
  /-- KCW_CTRL.GO written with an opcode not in Table 12.1 or a REPAIR action outside 0x1 to 0x4 (R404) -/
  | malformedKeyedCommand
  /-- the on-chip zeroing of ZEROISE is finished (R416) -/
  | zeroiseDone
  /-- PD_BASE leaves reset with this value on cel_inst_id (R7) -/
  | pdBaseLeavesReset (instId : Word)
  /-- an interface reset input is released (R477) -/
  | interfaceResetRelease (domain : Fin 25)
  /-- cel_egr<p>_ready rises (R326) -/
  | egressReady (port : ReadyEvent)
  /-- the sender takes response words of a port (R149) -/
  | ingressResponseTaken (port : BitVec 2) (words : BitVec 8)
  /-- an IEEE 1687 access arrives (R495) -/
  | ieee1687Access (op : TestAccess)
  /-- the trace port takes an entry of queue 3 (R514) -/
  | tracePortDrain
  deriving DecidableEq, Repr

end Sys2Proof
end

