-- ==== Sys2Proof/Machine/Data.lean ====
section
/-!
DEFINITION. The records the block moves and keeps: tiles, chunks, stream contexts, journal entries, items,
memory accesses and the work that waits for them. Plain data throughout.
-/

namespace Sys2Proof.Machine

/-- Payload kinds (Table 1.4). -/
inductive Kind where
  | text | token | decision
  deriving DecidableEq, Repr

/-- A piece entry (Table 5.4); `gen` is the generation of the image whose rows made it, which the block keeps beside the
entry (R225). -/
structure Piece where
  len : Nat
  special : Bool
  bytefb : Bool
  trunc : Bool
  norow : Bool
  row : Nat
  gen : Nat
  deriving DecidableEq, Repr

/-- A protected run within a tile (R178): offset, bytes, and whether it goes on in the next tile. -/
structure Run where
  off : Nat
  len : Nat
  more : Bool
  deriving DecidableEq, Repr

/-- A tile (Tables 1.3 and 1.4). `marks` is the fallback map of R159, empty when absent; `pieces` the
piece map SORTER adds; `status` and `flags` the status of the item's work so far and its output flags. -/
structure Tile where
  kind : Kind
  stream : Nat
  tenant : Nat
  payload : List Byte
  marks : List Bool
  runs : List Run
  pieces : List Piece
  last : Bool
  textEnd : Bool
  eos : Bool
  replay : Bool
  tseq : Nat
  ledger : Nat
  settle : Nat
  origin : Nat
  ticket : Nat
  route : Nat
  check : Nat
  status : Nat
  flags : Nat
  deriving DecidableEq, Repr

/-- Where a chunk's or a flow block's payload lies. -/
inductive Place where
  | bytes (data : List Byte)
  | stack (addr : Nat)
  deriving DecidableEq, Repr

/-- A tile of an accepted item that TELLER has still to send to its first station (R147, R151): whether its payload is read
from the text log, the tile, and its number within the item. -/
structure Cut where
  log : Bool
  tile : Tile
  k : Nat
  deriving DecidableEq, Repr

/-- A chunk that TELLER takes (Table 4.1). `lane` 0 to 7, or 8 for a TEXT entry, 9 for SFEED and FLOW
(Table 4.15); `badHeader` a reserved header field not 0, `badWords` data words up to eop that differ from
the length, `words` how many of them TELLER's lane buffer holds; `own` the ledger number of a replayed item; `no` the
place in the order in which chunks reach TELLER and instructions issue (R144, R533); `paid` that its coins are bought; `whileHeld` that it reached TELLER as no re-issue while its stream was HELD
(R168). -/
structure Chunk where
  source : Nat
  stream : Nat
  len : Nat
  textEnd : Bool
  eos : Bool
  reissue : Bool
  badHeader : Bool
  badWords : Bool
  tag : Nat
  clerk : Nat
  place : Place
  settle : Nat
  route : Option Nat
  step : Nat
  slot : Nat
  own : Option Nat
  read : Option (List Byte)
  words : Nat
  no : Nat
  paid : Bool
  whileHeld : Bool
  deriving DecidableEq, Repr

/-- Stream states (Table 1.2). -/
inductive StreamState where
  | free | opened | held | dead | closing
  deriving DecidableEq, Repr

/-- The text ASSAY holds (R155, R162): carry, open segment as folded characters, partial protected
match; `teller` is the copy of the carry of R158, and `follow` says that a replay has set it back, so that it follows ASSAY's
carry until a chunk is accepted again. -/
structure AssayCtx where
  carry : List Byte
  seg : List Nat
  partMatch : List Byte
  teller : List Byte
  follow : Bool
  deriving DecidableEq, Repr

/-- The open search of a stream in SORTER (R176): bytes not yet emitted, how many bytes of the open piece
were emitted as segments, the state of each alternative after all bytes, whether the piece began after a
start symbol, a protected run not yet ended, and the image generation searched. -/
structure SorterCtx where
  buf : List Byte
  cut : Nat
  states : List (Option Nat)
  startSym : Bool
  run : List Byte
  gen : Nat
  deriving DecidableEq, Repr

/-- The mask fields of Table 7.3. -/
structure MaskFields where
  maskIndex : Nat
  lclass : Nat
  lchk : Bool
  force : Bool
  pslot : Nat
  remain : Nat
  grammar : Nat
  forceToken : Nat
  adds : Nat
  removes : Nat
  accepted : Nat
  deriving DecidableEq, Repr

/-- A configuration of the grammar with the mask fields it gives (R232, R243); the stack's top first. -/
structure Cfg where
  state : Nat
  stack : List Nat
  grammar : Nat
  remain : Nat
  fields : MaskFields
  patch : List Nat
  finished : Bool
  fallen : Bool
  stopped : Bool
  deriving DecidableEq, Repr

/-- A checkpoint slot (R254): the item that owns it and the configuration after its latest advance. -/
structure Ckpt where
  slot : Nat
  ledger : Nat
  commit : Nat
  cfg : Cfg
  deriving DecidableEq, Repr

/-- A token CLEARING has committed and NOTARY has not yet advanced over, with the ticket of the tile it was
selected for. -/
structure Commit where
  ledger : Nat
  origin : Nat
  ticket : Nat
  token : Nat
  deriving DecidableEq, Repr

/-- A stream's NOTARY context. `pending` is the item whose decision tile has passed NOTARY and has not
committed; `ended` the item whose commit
finished or stopped the grammar (R318); `cands` the candidates resolved for the latest row; `draftAt` and `draftCnt` the DRAFT tokens
taken at one beat position (R231). -/
structure NotaryCtx where
  gen : Bool
  allow : Bool
  gid : Nat
  cfg : Cfg
  onChip : Nat
  pending : Option Nat
  commits : List Commit
  advItems : List Nat
  count : Nat
  commitNo : Nat
  ckpts : List Ckpt
  base : Option Cfg
  ended : Option Nat
  offered : List Nat
  cands : List Nat
  draftAt : Nat
  draftCnt : Nat
  deriving DecidableEq, Repr

/-- A stream's ESCROW context (R309). `await` is the last tile of an item that waits for NOTARY's report
(R318); `stopLedger` the item in which a stop string completed. -/
structure EscrowCtx where
  stops : List (List Byte)
  carry : List Byte
  hold : List Byte
  stopped : Bool
  stopIdx : Nat
  stopLedger : Nat
  await : List Tile
  deriving DecidableEq, Repr

/-- Per-stream state carried past an item (Table 11.4). -/
structure Carry where
  assay : AssayCtx
  sorter : SorterCtx
  escrow : EscrowCtx
  deriving DecidableEq, Repr

/-- A stream context (Table 1.1). `heldAt` is the hop that refused a tile (1 is TELLER) and `heldItem`
the refused item; `closeReason` Table 11.2; `closeAfter` the reason of a close
that begins once replayed items finish (R378); `paidBusy` whether a PAID write is in progress (R369);
`building` the tile a station is still filling for an item, by hop (R166, R184, R207, R321). -/
structure Stream where
  st : StreamState
  tenant : Nat
  outPtr : Nat
  outLog2 : Nat
  intake : Nat
  seed : Nat
  promptBytes : Nat
  heldAt : Nat
  heldItem : Nat
  armed : Bool
  assay : AssayCtx
  sorter : SorterCtx
  notary : NotaryCtx
  escrow : EscrowCtx
  lastLedger : Nat
  paidL : Nat
  paidS : Nat
  paidNext : Option (Nat × Nat)
  paidBusy : Bool
  wptr : Nat
  base : Option Carry
  closeReason : Nat
  closing1 : Bool
  closeAfter : Option Nat
  muted : Bool
  building : List (Nat × Tile)
  deriving DecidableEq, Repr

/-- A journal entry (Table 11.1). -/
structure JEntry where
  etype : Nat
  stream : Nat
  status : Nat
  carried : Bool
  replay : Bool
  param : Nat
  ledger : Nat
  jseq : Nat
  a : Nat
  b : Nat
  c : Nat
  d : Nat
  deriving DecidableEq, Repr

/-- An output record of an item as its OUTPUT entry journals it (Table 11.2), and the bytes of its payload. -/
structure OutRec where
  rseq : Nat
  count : Nat
  last : Bool
  textEnd : Bool
  eos : Bool
  sink : Nat
  addr : Nat
  bytes : Nat
  check : Nat
  delivered : Bool
  deriving DecidableEq, Repr

/-- An accepted item (Table 11.3). `entry` is a posted item's DAYBOOK entry; `text` the payload the text
log holds; `owner` the thread that holds a posted item; `ended` a status with which the item completes
when its tickets have; `poison` that a poisoned bank replayed it (R392); `dropped` that a
record of it could not be placed (R532); `deep` that an advance of it found the stack full (R251); `banks` R393; `emitted` the tiles each hop has emitted for it, which number the next
(R43); `asReplay` that it completed as replayed work (R385); `after` the per-stream state it leaves; `reposts` the deliveries of its entry again that no POST has answered yet
(R379). -/
structure Item where
  ledger : Nat
  stream : Nat
  source : Nat
  tenant : Nat
  textEnd : Bool
  eos : Bool
  settle : Nat
  place : Place
  len : Nat
  route : Option Nat
  entry : List Byte
  logOff : Nat
  jseq : Nat
  outs : List OutRec
  status : Nat
  flags : Nat
  owner : Option Who
  ended : Option Nat
  completing : Bool
  complete : Bool
  settled : Bool
  replaying : Bool
  asReplay : Bool
  replays : Nat
  reposts : Nat
  poison : Bool
  dropped : Bool
  deep : Bool
  banks : List Nat
  emitted : Tab Nat
  after : Option Carry
  deriving DecidableEq, Repr

/-- A ticket: outstanding, or completed with the result word's parts (R82). `tiles` counts what was
delivered, `result` is the scratch address of a CLERK sink plus one, or 0; `lost` says that a reset or fault
discarded a tile of it, so that the item's replay ends it; `old` that it was issued before its CLERK was last
started; `no` the issue number of the instruction that took it. -/
structure Ticket where
  no : Nat
  done : Bool
  lost : Bool
  old : Bool
  stream : Nat
  ledger : Nat
  status : Nat
  flags : Nat
  tiles : Nat
  result : Nat
  deriving DecidableEq, Repr

/-- What a thread waits for, when it waits: a condition that its instruction, already paid for, tries
again; coins; or an access or journal entry that finishes the instruction. -/
inductive Wait where
  | ready
  | retry (i : Instr)
  | coins
  | busy
  deriving DecidableEq, Repr

/-- Thread states (Table 16.18). -/
inductive Run16 where
  | running | halted | faulted | debug
  deriving DecidableEq, Repr

/-- A thread (Table 2.1). `stepping` returns it to DEBUG after one instruction; `stopAfter` halts it after
the journal write it waits for (R85); `no` numbers its latest instruction in issue order (R96). -/
structure Thread where
  no : Nat
  st : Run16
  pc : Nat
  g : Tab Word
  p : BitVec 8
  stream : Nat
  ledger : Nat
  ticket : Nat
  stack : List Nat
  wait : Wait
  yielded : Bool
  stepping : Bool
  stopAfter : Bool
  deriving DecidableEq, Repr

/-- A work-page entry in a CLERK's entry queue (R129): its step, whether a replay put it there, the item
it replays, and its 64 bytes. -/
structure DayEntry where
  step : Nat
  replay : Bool
  own : Nat
  data : List Byte
  deriving DecidableEq, Repr

/-- A page fetch under way (R124): its number, the next entry to read, an entry read that waits for room, whether a
read is outstanding and whether the fetch has waited (R129). -/
structure PageFetch where
  no : Nat
  clerk : Nat
  step : Nat
  slot : Nat
  entry : Option (List Byte)
  reading : Bool
  waited : Bool
  deriving DecidableEq, Repr

/-- What follows the writing of a journal entry. -/
inductive After where
  | nothing
  | accepted (c : Chunk) (n : Nat)
  | posted (w : Who) (d : Nat) (n : Nat)
  | paid (w : Who) (d : Nat) (v : Nat) (flags : Nat)
  | settledBy (w : Who) (d : Nat) (n : Nat)
  | opened (w : Who) (d : Nat) (status : Nat)
  | closed0 (w : Option (Who × Nat)) (stream : Nat)
  | closed1 (stream : Nat)
  | output (t : Tile)
  | mark (stream : Nat) (l r : Nat)
  | hwm (slot counter : Nat)
  | started
  deriving DecidableEq, Repr

/-- A mask set in its slot with its extent (R340): log2 of the extent's bytes, the stacks that hold
copies, the offset of the extent, and the page checks of its masks and then of its length classes (R342). -/
structure MaskSlot where
  image : MaskSetImage
  extLog2 : Nat
  copies : Nat
  offset : Nat
  checks : List (List Nat)
  deriving DecidableEq, Repr

/-- Where an entry of a hashed table lies (R224): in its h1 or h2 bucket of VAULT, or in the overflow table at
h1 or h2. -/
inductive Lies where
  | h1 | h2 | ovf1 | ovf2
  deriving DecidableEq, Repr

/-- A placed entry: table code, key, where it lies, and its bucket there: bank, sub-bank and index, or in the
overflow table its bucket number as the index. -/
structure Placed where
  code : Nat
  key : List Byte
  lies : Lies
  bucket : Nat × Nat × Nat
  deriving DecidableEq, Repr

/-- A tokeniser image in force or on its way out of a tenant slot, with its placement: units, overflow
buckets, the buckets of PAIR, SMAP and CACHE per sub-bank, the banks absent when it was placed (R447), and
its entries; `tag` and `key` are those of its load, which a reload checks again; `ovfBase` is the line of the tenant's overflow space
at which its overflow table begins. -/
structure Resident where
  gen : Nat
  image : TokImage
  units : Nat
  tag : List Byte
  key : BitVec 128
  addr : Nat
  len : Nat
  ovf : Nat
  ovfBase : Nat
  buckets : Nat × Nat × Nat
  absent : List Nat
  placed : List Placed
  deriving DecidableEq, Repr

/-- The work an access belongs to: what its end does. A payload lies `off` bytes into the first line read; an
abandoned access waits for nothing but the answers to what it has sent, a message with its row's tag and its location. -/
inductive Job where
  | ldx (w : Who) (d dst n : Nat)
  | stx (w : Who) (d n : Nat)
  | journal (e : JEntry) (next : After)
  | logged (e : JEntry) (next : After)
  | preRead (c : Chunk)
  | payload (t : Tile) (off len : Nat)
  | flowPayload (t : Tile) (off len : Nat)
  | logPayload (t : Tile) (off len mirror : Nat)
  | logEntry (ledger off mirror : Nat)
  | page (fetch slot : Nat)
  | overflow (t : Tile) (parked : Nat)
  | record (stream ledger : Nat)
  | patch (stream ledger : Nat)
  | refill (stream ledger slot : Nat) (patch : List Nat)
  | advanceRead (stream ledger : Nat)
  | ahead (stream token : Nat)
  | ckptBack (stream ledger : Nat)
  | detok (stream ledger : Nat)
  | draftBlock (stream ledger : Nat)
  | maskRead (stream ledger pos : Nat) (again : Bool)
  | topk (t : Tile) (pages : Nat)
  | sink (t : Tile)
  | message (mtag loc : Nat)
  | mapRead (copy : Nat)
  | mapWrite (copy : Nat) (other : Bool)
  | golden (bank : Nat) (copy : Nat)
  | reload (tenant : Nat)
  | placed (tenant : Nat) (image : Resident)
  | replacedTables (tenant : Nat)
  | placedGrammar (gid : Nat) (image : GrammarImage)
  | placedSet (slot : Nat) (set : MaskSlot)
  | replayRing (mirror : Nat)
  | replayRec (mirror off : Nat)
  | replayCkpt (stream : Nat)
  | abandoned (message : Option (Nat × Nat))
  deriving DecidableEq, Repr

/-- The state of one line of an access. -/
inductive LineState where
  | unsent | out | backoff | gone (st : Nat)
  deriving DecidableEq, Repr

/-- One 64-byte line of an access (R333), or one message. -/
structure Line where
  addr : Nat
  loc : Nat
  port : Nat
  tag : Nat
  data : List Byte
  retries : Nat
  st : LineState
  deriving DecidableEq, Repr

/-- Request kinds of a memory port (Table 15.1). -/
inductive ReqKind where
  | read | write | message
  deriving DecidableEq, Repr

/-- An access (R333, R528). `paid` is false while its lines wait for coins; `req` is the requester code
of Table 10.24. -/
structure Access where
  ident : Nat
  kind : ReqKind
  req : Nat
  lines : List Line
  paid : Bool
  job : Job
  deriving DecidableEq, Repr

/-- What a purchase pays for: a command of the block that then takes effect, a run-ahead command, or an
access. -/
inductive Paid where
  | command (i : Instr)
  | access (ident : Nat)
  deriving DecidableEq, Repr

/-- A waiting purchase (R426): class, the units still to be bought as base price in cents and count, and
what it pays for. -/
structure Purchase where
  cls : Nat
  bill : List (Nat × Nat)
  what : Paid
  deriving DecidableEq, Repr

/-- A logit row (R272): header fields, whether a reserved header field is not 0, data, beats, how many of them the hold
buffer holds, and whether it holds the whole row. -/
structure Row where
  stream : Nat
  step : Nat
  pos : Nat
  bad : Bool
  data : List Byte
  beats : Nat
  inBuf : Nat
  held : Bool
  deriving DecidableEq, Repr

/-- A partial list's entry (Table 10.6). -/
structure ListEntry where
  index : Nat
  value : Nat
  rankv : Nat
  deriving DecidableEq, Repr

/-- What CLEARING keeps of a step of a stream once its tile or its row is gone: the tile of an item completed; the tile was
refused; the row was discarded before its tile; a draft row came before its tile. -/
inductive StepMark where
  | finished (ledger : Nat)
  | refused | lost
  | early (pos : Nat)
  deriving DecidableEq, Repr

/-- A decision tile at CLEARING. `before` the grammar's configuration when it arrived; `masks` the masks that are ready, by position (R299); `pages` its pages of the mask
store; `pageWait` that it waits for pages; `draft` the draft tokens and `words` the position words of R298; `done` the
tokens committed and `tie` TIE_AT_K of the last one. The thin path keeps whether its messages have left, the row's tag and attempt, the banks whose
lists are outstanding, the banks that have answered, the merged entries in order of arrival, the NaN count, and the
mask set in force when its messages left. -/
structure ClearTile where
  tile : Tile
  before : Cfg
  masks : List (Nat × Nat)
  pages : Nat
  pageWait : Bool
  draft : List Nat
  words : List Nat
  done : List Nat
  tie : Nat
  sent : Bool
  mtag : Nat
  attempt : Nat
  awaited : List Nat
  heard : List Nat
  entries : List ListEntry
  nans : Nat
  set : Option MaskSlot
  deriving DecidableEq, Repr

/-- What VAULT has looked up ahead for a tile queued at MINT (R222): the tile, and the pair keys whose entries it holds. -/
structure Prefetch where
  stream : Nat
  ledger : Nat
  tseq : Nat
  keys : List (List Byte)
  deriving DecidableEq, Repr

/-- A tenant slot: the resident image and the replaced ones whose stripe slots or units are still held. -/
structure Tenant where
  now : Option Resident
  oldRows : List Resident
  oldUnits : List Resident
  deriving DecidableEq, Repr

/-- An egress record under way on a port (R324): its tile, the beats it has, and the beats passed. -/
structure Record where
  tile : Tile
  beats : Nat
  passed : Nat
  deriving DecidableEq, Repr

/-- A LEDGER queue (Table 11.7): entries with their SOP bit, oldest first, and how many at its end belong to a packet
that the reader sees and that is not yet wholly written (R388). -/
structure Queue where
  entries : List (Bool × Nat)
  unwritten : Nat
  deriving DecidableEq, Repr

/-- A pending or committed repair (Table 14.5). -/
structure Repair where
  action : Nat
  cls : Nat
  idx : Nat
  row : Nat
  deriving DecidableEq, Repr

/-- A maintenance activity that runs, or a start of the block that waits (Table 14.7): its code, what it
holds, and for a SPARE_SWAP the class concerned. -/
structure Activity where
  code : Nat
  res : Nat
  cls : Nat
  deriving DecidableEq, Repr

/-- A store to scratch (R96): the CLERK, the first byte, how many, and the issue number of its instruction. -/
structure StoreNote where
  clerk : Nat
  addr : Nat
  len : Nat
  no : Nat
  deriving DecidableEq, Repr

/-- What the conformance fingerprint takes from a tile (R18): the section, the item, the record's number in the section
within the item, and the bytes. -/
structure Emission where
  part : Nat
  ledger : Nat
  no : Nat
  data : List Byte
  deriving DecidableEq, Repr

/-- Power-domain states (R485, R486, R489); `waiting` is to be switched on once fewer than six domains switch (R487). -/
inductive PdState where
  | off | waiting | requested | powered | released | failed
  deriving DecidableEq, Repr

end Sys2Proof.Machine
end

