-- ==== Sys2Proof/Machine/State.lean ====
section
/-!
DEFINITION. The state of the block, the reasons a step can stop, and the state after reset. Memory stacks lie
outside the block (R334); what the block keeps of them is its accesses under way and its own record of
what it wrote there.
-/

namespace Sys2Proof.Machine

/-- Why the machine stops with a fault. -/
inductive Fault where
  /-- never raised: the block has no condition that stops it with an effect undefined (safe) -/
  | none
  deriving DecidableEq, Repr

/-- Why a command has no meaning. -/
inductive Refusal where
  /-- raised by an arm of `exec` whose command has no meaning yet (safe) -/
  | notModelled (mnemonic : String)
  deriving DecidableEq, Repr

/-- The beat port (R97 to R104). `taken` holds the positions taken, newest first, as R112 asks the block to keep them,
each with whether it adds to a grace count (one that a re-arm made current does not); `ack` is cel_beat_ack. -/
structure BeatState where
  ack : Bool
  pos : Nat
  frozen : Bool
  cause : Nat
  taken : List (Nat × Bool)
  deriving DecidableEq, Repr

/-- The DAYBOOK (R118 to R130): DAY_NEXTc, the entry queues, the page fetches and how many have begun, whether the
region exists (R530). -/
structure DayState where
  next : Tab Nat
  queues : Tab (List DayEntry)
  fetches : List PageFetch
  opened : Nat
  placed : Bool
  deriving DecidableEq, Repr

/-- TELLER (R135 to R151): input queue, chunks waiting in the lane buffers, response queues of the ports,
tags whose chunks a CORE reset cut, tiles of accepted items that still wait for room at their station (R151). -/
structure TellerState where
  queue : List Chunk
  lanes : Tab (List Chunk)
  resp : Tab (List Word)
  cut : Tab (List (Nat × Nat))
  cuts : List Cut
  deriving DecidableEq, Repr

/-- CLEARING (R271 to R306): tiles, rows in the hold buffer and on the lanes, the row at the ports, the rows selected,
what is kept of decode steps, the next tag of a thin-path row. -/
structure ClearState where
  tiles : List ClearTile
  rows : List Row
  port : Option Row
  seen : List (Nat × Nat × Nat)
  marks : List (Nat × Nat × StepMark)
  nextTag : Nat
  deriving DecidableEq, Repr

/-- An egress port (R324 to R327). -/
structure EgressState where
  ready : Bool
  cur : Option Record
  last : List Byte
  deriving DecidableEq, Repr

/-- The reading of the mirrors before a replay (R377, R378): whether it is under way, the copies present with the mirror
they lie in, the slots whose copy is damaged, the text log records read by offset, and the NOTARY records read by
stream. -/
structure ReplayState where
  reading : Bool
  present : List (Nat × JEntry)
  damaged : List (Nat × Nat)
  recs : Tab (List Byte)
  ckpts : Tab (List Byte)
  deriving DecidableEq, Repr

/-- The LEDGER (R358 to R389). `ring` the entries from tail to head; `text` the text log records as offset,
length and contents, tail first; `waiting` entries that wait for room (R375); `openWait` the commands that
wait for the journal to open, in the order in which they arose (R533); `packets` the completion packets not yet in
queue 0, as header and ledger number; `aged` how many of queue 0's oldest entries
have been there for 10 microseconds (R512); `freshEn` that EN was written with FRESH while the LEDGER was down. -/
structure LedgerState where
  ready : Bool
  replaying : Bool
  lost0 : Bool
  lost1 : Bool
  placed0 : Bool
  placed1 : Bool
  next : Nat
  jseq : Nat
  jtail : Nat
  ring : List JEntry
  thead : Nat
  text : List (Nat × Nat × List Byte)
  items : List Item
  waiting : List (JEntry × List Byte × After)
  jfull : Bool
  tfull : Bool
  openWait : List Instr
  packets : List (Nat × Nat)
  aged : Nat
  freshEn : Bool
  replay : ReplayState
  deriving DecidableEq, Repr

/-- What a keyed command waits for. -/
inductive KcwStage where
  | ready | backoff | journal | coins | image | placing | mapping | zeroing
  deriving DecidableEq, Repr

/-- The keyed command under way (R404): opcode, slot, counter, operand bytes, the tag and KCW_CMD as
submitted, stage, the status it ends with once its map write is done, and the key of its slot as it was checked; and for a
load the fingerprint, and for a mask set the width, that its image must have because its target is in use (R510). -/
structure KcwRun where
  opcode : Nat
  slot : Nat
  counter : Nat
  olen : Nat
  ops : List Byte
  tag : List Byte
  cmdWord : Nat
  stage : KcwStage
  status : Nat
  key : BitVec 128
  bound : Option (Nat × Option Nat)
  deriving DecidableEq, Repr

/-- The keyed command window (R396 to R418). -/
structure KcwState where
  keys : Tab (Option (BitVec 128))
  marks : Tab Nat
  epoch : Option Word
  fails : Tab Nat
  backoff : Tab Bool
  run : Option KcwRun
  scopes : Nat
  hashLock : Bool
  hwmPend : Bool
  deriving DecidableEq, Repr

/-- PURSE (R419 to R437): balance in cents, the estimate E in cents, thermal step, grant and reserve of the latest
tick in cents, SCALE and the one to take effect at the next tick, the latest temperature, cents bought since the tick and
in the telemetry period, its ticks and those in which a purchase waited, ticks since power-good, ticks without a valid
thermal sample, the waiting purchases. -/
structure PurseState where
  balance : Nat
  est : Nat
  step : Nat
  grant : Nat
  reserve : Nat
  scale : Nat
  nextScale : Option Nat
  temp : Nat
  sinceTick : Nat
  period : Nat
  periodTicks : Nat
  periodWait : Nat
  ticks : Nat
  dead : Nat
  queue : List Purchase
  deriving DecidableEq, Repr

/-- RESERVE (R438 to R463): units out of service; the units spares stand in for, as class, unit, spare;
missing units of the roll call; remapped rows as family, macro, row, spare row; spare rows dead; activities
that run and that wait; the rail requests, the outstanding one first, each with the domain it was made for (4: none);
clock steps; canary
slacks and baselines; the repair map in force; pending entries; rows with one correctable error in the
latest pass and in the pass under way; poisoned and absent banks; visits of the pass under way. -/
structure ReserveState where
  out : List (Nat × Nat)
  stand : List (Nat × Nat × Nat)
  rowmap : List (Nat × Nat × Nat × Nat)
  dead : List (Nat × Nat × Nat)
  acts : List Activity
  waits : List Activity
  vreq : Nat
  vask : List (Nat × Nat)
  steps : Tab Nat
  slack : Tab Nat
  base : Tab Nat
  map : List Repair
  mapGen : Nat
  copy0 : Bool
  copy1 : Bool
  copies : Tab (List Byte)
  pending : List Repair
  weakOld : List (Nat × Nat)
  weakNew : List (Nat × Nat)
  poisoned : List Nat
  absent : List Nat
  suspect : List (Nat × Nat)
  visits : Nat
  dirty : List Nat
  left : List Nat
  torn : Bool
  queued : List Nat
  quiesce : Nat
  deriving DecidableEq, Repr

/-- Clocks, resets and power domains (R472 to R496). `held` the clock domains held in reset, `byReg` those whose PWR_RST
reset runs, `byPin` those whose reset input is asserted, `lostClk` those whose clock is lost; `pds` a power domain's state
when it is not off; `gone` the units that are out of service because their power domain is; `silent` the units of a domain
being switched on again that have not posted (R490, R504). -/
structure PowerState where
  held : List Nat
  byReg : List Nat
  byPin : List Nat
  lostClk : List Nat
  pds : Tab PdState
  testMode : Bool
  wdog : Nat
  linkDown : List Nat
  gone : List (Nat × Nat)
  silent : List UnitId
  deriving DecidableEq, Repr

/-- Bring-up (R498 to R507): phase, ticks at GO, the next group, missing units and ports (class 11 the LEDGER station), the power domains to which the
entries of the repair map have been applied (R502). -/
structure BootState where
  phase : Nat
  goTick : Nat
  group : Nat
  missing : List UnitId
  applied : List Nat
  deriving DecidableEq, Repr

/-- The block. `pending` is the queue of waiting commands, first in first out; `free` counts the uses of
values the spec leaves open; `emitted` what the fingerprint of R18 takes from the run so far; `issueNo` the instructions
issued so far, and `stores` the stores to scratch that a write of an instruction issued earlier may still meet
(R96). -/
structure State where
  pending : List Instr
  build : Build
  free : Nat
  emitted : List Emission
  issueNo : Nat
  stores : List StoreNote
  instId : Word
  regs : Tab Word32
  latch : Tab Word32
  heldLo : Tab Word32
  regOut : Word32
  threads : Tab Thread
  prog : Tab Word
  scratch : List Host.Cell
  tickets : Tab Ticket
  ticketNext : Tab Nat
  lastIssued : Tab Nat
  clerkFatal : Nat
  streams : Tab Stream
  beat : BeatState
  day : DayState
  teller : TellerState
  hops : Tab (List Tile)
  tenants : Tab Tenant
  genNext : Nat
  prefetch : List Prefetch
  grammars : Tab (Option GrammarImage)
  maskSets : Tab (Option MaskSlot)
  sortStep : Nat
  sortTemp : Nat
  sortDead : Nat
  clear : ClearState
  egress0 : EgressState
  egress1 : EgressState
  accesses : List Access
  nextAccess : Nat
  ledger : LedgerState
  queue0 : Queue
  queue1 : Queue
  queue2 : Queue
  queue3 : Queue
  kcw : KcwState
  purse : PurseState
  reserve : ReserveState
  power : PowerState
  boot : BootState
  trcOut : Word
  testOut : Word
  deriving DecidableEq, Repr

/-- A thread of a CLERK that has not been started: every register 0 (log entry 6). -/
def Thread.initial : Thread :=
  { no := 0, st := .halted, pc := 0, g := [], p := 0, stream := 0, ledger := 0, ticket := 0xFFF, stack := [],
    wait := .ready, yielded := false, stepping := false, stopAfter := false }

/-- An empty queue. -/
def Queue.empty : Queue := { entries := [], unwritten := 0 }

/-- Empty ASSAY context. -/
def AssayCtx.empty : AssayCtx := { carry := [], seg := [], partMatch := [], teller := [], follow := false }

/-- Empty SORTER context: the next byte begins a text. -/
def SorterCtx.empty : SorterCtx :=
  { buf := [], cut := 0, states := [], startSym := true, run := [], gen := 0 }

/-- Mask fields of a stream with no grammar (R247). -/
def MaskFields.open : MaskFields :=
  { maskIndex := 0xFFFFF, lclass := 0, lchk := false, force := false, pslot := 0, remain := 0,
    grammar := 0, forceToken := 0, adds := 0, removes := 0, accepted := 0 }

/-- A configuration of no grammar. -/
def Cfg.empty : Cfg :=
  { state := 0, stack := [], grammar := 0, remain := 0, fields := MaskFields.open, patch := [],
    finished := false, fallen := false, stopped := false }

/-- Empty NOTARY context. -/
def NotaryCtx.empty : NotaryCtx :=
  { gen := false, allow := false, gid := 0, cfg := Cfg.empty, onChip := 0, pending := none, commits := [],
    advItems := [], count := 0, commitNo := 0, ckpts := [], base := none, ended := none, offered := [], cands := [],
    draftAt := 0, draftCnt := 0 }

/-- Empty ESCROW context. -/
def EscrowCtx.empty : EscrowCtx :=
  { stops := [], carry := [], hold := [], stopped := false, stopIdx := 0, stopLedger := 0, await := [] }

/-- A FREE stream context (R30). -/
def Stream.initial : Stream :=
  { st := .free, tenant := 0, outPtr := 0, outLog2 := 0, intake := 0, seed := 0, promptBytes := 0,
    heldAt := 0, heldItem := 0, armed := false, assay := AssayCtx.empty, sorter := SorterCtx.empty,
    notary := NotaryCtx.empty, escrow := EscrowCtx.empty, lastLedger := 0, paidL := 0, paidS := 0,
    paidNext := none, paidBusy := false, wptr := 0, base := none, closeReason := 0, closing1 := false,
    closeAfter := none, muted := false, building := [] }

/-- An empty tenant slot. -/
def Tenant.empty : Tenant := { now := none, oldRows := [], oldUnits := [] }

/-- A ticket never issued. -/
def Ticket.none : Ticket :=
  { no := 0, done := false, lost := false, old := false, stream := 0, ledger := 0, status := 0, flags := 0, tiles := 0, result := 0 }

/-- An idle egress port; ready is the receiver's and low at reset (log entry 8). -/
def EgressState.idle : EgressState := { ready := false, cur := none, last := [] }

/-- No replay. -/
def ReplayState.none : ReplayState :=
  { reading := false, present := [], damaged := [], recs := [], ckpts := [] }

/-- The LEDGER after a CORE reset: the journal is not open. -/
def LedgerState.closed : LedgerState :=
  { ready := false, replaying := false, lost0 := false, lost1 := false, placed0 := false,
    placed1 := false, next := 0, jseq := 1, jtail := 1, ring := [], thead := 0, text := [], items := [],
    waiting := [], jfull := false, tfull := false, openWait := [], packets := [], aged := 0, freshEn := false,
    replay := ReplayState.none }

/-- RESERVE after reset: nothing retired, nominal clocks, 750 mV (Table 14.18). -/
def ReserveState.initial : ReserveState :=
  { out := [], stand := [], rowmap := [], dead := [], acts := [], waits := [], vreq := 750, vask := [],
    steps := [], slack := [], base := [], map := [], mapGen := 0, copy0 := false, copy1 := false,
    copies := [], pending := [], weakOld := [], weakNew := [], poisoned := [], absent := [], visits := 0,
    dirty := [], left := [], torn := false, queued := [], suspect := [], quiesce := 0 }

/-- PURSE after reset for a configuration (Table 13.24): the estimate starts at PUR_LEAK_MIN (R424). -/
def PurseState.initial (z : Size) : PurseState :=
  { balance := 0, est := z.leakMin * 100, step := 0, grant := 0, reserve := 0,
    scale := 1024, nextScale := none, temp := 0, sinceTick := 0, period := 0,
    periodTicks := 0, periodWait := 0, ticks := 0, dead := 0, queue := [] }

/-- Power control after reset: only PD_BASE is on (Table 15.11). -/
def PowerState.initial : PowerState :=
  { held := [], byReg := [], byPin := [], lostClk := [], pds := [(0, PdState.released)],
    testMode := false, wdog := 0, linkDown := [], gone := [], silent := [] }

/-- The block of a build right after PD_BASE leaves reset. -/
def State.start (b : Build) : State :=
  { pending := [], build := b, free := 0, emitted := [], issueNo := 0, stores := [], instId := b.instId, regs := [], latch := [], heldLo := [],
    regOut := 0, threads := [], prog := [], scratch := [], tickets := [], ticketNext := [],
    lastIssued := [], clerkFatal := 0, streams := [],
    beat := { ack := false, pos := 0, frozen := true, cause := 0, taken := [] },
    day := { next := [], queues := [], fetches := [], opened := 0, placed := false },
    teller := { queue := [], lanes := [], resp := [], cut := [], cuts := [] },
    hops := [], tenants := [], genNext := 1, prefetch := [], grammars := [], maskSets := [], sortStep := 0,
    sortTemp := 0, sortDead := 0,
    clear := { tiles := [], rows := [], port := none, seen := [], marks := [],
               nextTag := 0 },
    egress0 := EgressState.idle, egress1 := EgressState.idle, accesses := [], nextAccess := 0,
    ledger := LedgerState.closed, queue0 := Queue.empty, queue1 := Queue.empty,
    queue2 := Queue.empty, queue3 := Queue.empty,
    kcw := { keys := [], marks := [], epoch := none, fails := [], backoff := [], run := none, scopes := 0,
             hashLock := false, hwmPend := false },
    purse := PurseState.initial b.size, reserve := ReserveState.initial, power := PowerState.initial,
    boot := { phase := 0, goTick := 0, group := 0, missing := [], applied := [] },
    trcOut := 0, testOut := 0 }

/-- The block right after reset: a Full block, the configuration the spec documents throughout, with the
values its integrator fixed. -/
def State.reset : State :=
  State.start { size := .full, instId := Config.instId, integ := Config.integ }

end Sys2Proof.Machine
end

