-- ==== Sys2Proof/Machine/RegMap.lean ====
section
/-!
DEFINITION. The register window (17_register_and_address_map.md): the offsets of Table 17.2 under the names the
spec uses, and for each register its reset value, the bits a write stores (RW and RWH fields) and the bits
a written 1 clears (W1C fields), from the field tables of the chapters.
-/

namespace Sys2Proof.Machine

namespace R

abbrev GBL_CEL_ID : Nat := 0x0000
abbrev GBL_SHAPE : Nat := 0x0004
abbrev GBL_INST_ID_LO : Nat := 0x0008
abbrev GBL_INST_ID_HI : Nat := 0x000C
abbrev GBL_BOOT : Nat := 0x0010
abbrev GBL_BSTAT : Nat := 0x0014
abbrev GBL_RMAP0_LO : Nat := 0x0018
abbrev GBL_RMAP0_HI : Nat := 0x001C
abbrev GBL_RMAP1_LO : Nat := 0x0020
abbrev GBL_RMAP1_HI : Nat := 0x0024
abbrev GBL_BTIME : Nat := 0x0028
abbrev CLK_CTRL : Nat := 0x0400
abbrev CLK_ENTRY : Nat := 0x0404
abbrev CLK_STATE : Nat := 0x0408
abbrev CLK_TRST : Nat := 0x040C
abbrev CLK_FAULT0 : Nat := 0x0420
abbrev CLK_FAULT1 : Nat := 0x0424
abbrev CLK_FAULT2 : Nat := 0x0428
abbrev CLK_FAULT3 : Nat := 0x042C
abbrev CLK_FAULT4 : Nat := 0x0430
abbrev CLK_FAULT5 : Nat := 0x0434
abbrev CLK_FAULT6 : Nat := 0x0438
abbrev CLK_FAULT7 : Nat := 0x043C
abbrev BEAT_CFG : Nat := 0x0800
abbrev BEAT_GRACE : Nat := 0x0804
abbrev BEAT_CTRL : Nat := 0x0808
abbrev BEAT_STAT : Nat := 0x080C
abbrev BEAT_POS_LO : Nat := 0x0810
abbrev BEAT_POS_HI : Nat := 0x0814
abbrev BEAT_REARM_LO : Nat := 0x0818
abbrev BEAT_REARM_HI : Nat := 0x081C
abbrev BEAT_BAD_LO : Nat := 0x0820
abbrev BEAT_BAD_HI : Nat := 0x0824
abbrev BEAT_LATE : Nat := 0x0828
abbrev BEAT_LATE_WORK : Nat := 0x082C
abbrev BEAT_HELD : Nat := 0x0830
abbrev DAY_BASE_LO : Nat := 0x0840
abbrev DAY_BASE_HI : Nat := 0x0844
abbrev DAY_CFG : Nat := 0x0848
abbrev DAY_STAT : Nat := 0x084C
abbrev DAY_STALE : Nat := 0x0850
abbrev DAY_DEFER : Nat := 0x0854
abbrev DAY_SKIP : Nat := 0x0858
abbrev DAY_ERRCNT : Nat := 0x085C
abbrev DAY_ERR_LO : Nat := 0x0860
abbrev DAY_ERR_HI : Nat := 0x0864
abbrev DAY_NEXT0 : Nat := 0x0880
abbrev DAY_NEXT1 : Nat := 0x0884
abbrev DAY_NEXT2 : Nat := 0x0888
abbrev DAY_NEXT3 : Nat := 0x088C
abbrev DAY_NEXT4 : Nat := 0x0890
abbrev DAY_NEXT5 : Nat := 0x0894
abbrev DAY_NEXT6 : Nat := 0x0898
abbrev DAY_NEXT7 : Nat := 0x089C
abbrev TEL_CTRL : Nat := 0x0C00
abbrev TEL_STAT : Nat := 0x0C04
abbrev TEL_REISSUE : Nat := 0x0C08
abbrev TEL_ACCEPT : Nat := 0x0C10
abbrev TEL_REFUSE : Nat := 0x0C14
abbrev TEL_PEER : Nat := 0x0C18
abbrev TEL_ERR_LO : Nat := 0x0C20
abbrev TEL_ERR_HI : Nat := 0x0C24
abbrev ASY_SEL : Nat := 0x0D00
abbrev ASY_IMG : Nat := 0x0D04
abbrev ASY_INVALID : Nat := 0x0D10
abbrev ASY_FFFD : Nat := 0x0D14
abbrev ASY_SAFE_CUT : Nat := 0x0D18
abbrev ASY_DISCARD : Nat := 0x0D1C
abbrev SRT_CTRL : Nat := 0x1000
abbrev SRT_STAT : Nat := 0x1004
abbrev SRT_TEMP : Nat := 0x1008
abbrev SRT_ROWS : Nat := 0x100C
abbrev SRT_SEL : Nat := 0x1010
abbrev SRT_IMG : Nat := 0x1014
abbrev SRT_PIECES : Nat := 0x1020
abbrev SRT_CUTS : Nat := 0x1024
abbrev SRT_SLOTS_LOST : Nat := 0x1028
abbrev SRT_THROT : Nat := 0x102C
abbrev SRT_ROWERR : Nat := 0x1030
abbrev SRT_DISCARD : Nat := 0x1034
abbrev MNT_CTRL : Nat := 0x1400
abbrev MNT_STAT : Nat := 0x1404
abbrev MNT_SEL : Nat := 0x1410
abbrev MNT_IMG : Nat := 0x1414
abbrev MNT_VOCAB : Nat := 0x1418
abbrev MNT_UNK : Nat := 0x141C
abbrev MNT_PIECES : Nat := 0x1420
abbrev MNT_TOKENS : Nat := 0x1424
abbrev MNT_CACHE_HIT : Nat := 0x1428
abbrev MNT_STEPS : Nat := 0x142C
abbrev MNT_UNKS : Nat := 0x1430
abbrev MNT_BYTEFB : Nat := 0x1434
abbrev MNT_PARKS : Nat := 0x1438
abbrev VLT_CTRL : Nat := 0x1500
abbrev VLT_STAT : Nat := 0x1504
abbrev VLT_SEL : Nat := 0x1508
abbrev VLT_TEN : Nat := 0x150C
abbrev VLT_LOOKUPS_LO : Nat := 0x1510
abbrev VLT_LOOKUPS_HI : Nat := 0x1514
abbrev VLT_OVF_LO : Nat := 0x1518
abbrev VLT_OVF_HI : Nat := 0x151C
abbrev VLT_PF_USED : Nat := 0x1520
abbrev VLT_PF_DROP : Nat := 0x1524
abbrev VLT_CORR : Nat := 0x1528
abbrev VLT_STALL : Nat := 0x152C
abbrev NOT_CTRL : Nat := 0x1800
abbrev NOT_STAT : Nat := 0x1804
abbrev NOT_GSEL : Nat := 0x1810
abbrev NOT_GRAM : Nat := 0x1814
abbrev NOT_GEND : Nat := 0x1818
abbrev NOT_GSTATES : Nat := 0x181C
abbrev NOT_SSEL : Nat := 0x1820
abbrev NOT_SVIEW0 : Nat := 0x1824
abbrev NOT_SVIEW1 : Nat := 0x1828
abbrev NOT_SVIEW2 : Nat := 0x182C
abbrev NOT_STEPS : Nat := 0x1840
abbrev NOT_RA_HIT : Nat := 0x1844
abbrev NOT_RA_MISS : Nat := 0x1848
abbrev NOT_RES_CHECK : Nat := 0x184C
abbrev NOT_TC_MISS : Nat := 0x1850
abbrev NOT_SPILL : Nat := 0x1854
abbrev NOT_EMPTY_END : Nat := 0x1858
abbrev NOT_EMPTY_FB : Nat := 0x185C
abbrev NOT_EMPTY_HALT : Nat := 0x1860
abbrev NOT_DRAFT_TOK : Nat := 0x1864
abbrev NOT_DRAFT_ACC : Nat := 0x1868
abbrev CLG_CTRL : Nat := 0x1C00
abbrev CLG_STAT : Nat := 0x1C04
abbrev CLG_MSTORE : Nat := 0x1C08
abbrev CLG_HOLD : Nat := 0x1C0C
abbrev CLG_SSEL : Nat := 0x1C10
abbrev CLG_SEED_LO : Nat := 0x1C14
abbrev CLG_SEED_HI : Nat := 0x1C18
abbrev CLG_ROWS : Nat := 0x1C20
abbrev CLG_COMMITS : Nat := 0x1C24
abbrev CLG_SHORT : Nat := 0x1C28
abbrev CLG_TIE : Nat := 0x1C2C
abbrev CLG_NAN : Nat := 0x1C30
abbrev CLG_PARTIAL : Nat := 0x1C34
abbrev CLG_PFAULT : Nat := 0x1C38
abbrev CLG_LOST : Nat := 0x1C3C
abbrev CLG_ORPHAN : Nat := 0x1C40
abbrev CLG_DUPROW : Nat := 0x1C44
abbrev CLG_DRAFT_ROWS : Nat := 0x1C48
abbrev CLG_DRAFT_ACC : Nat := 0x1C4C
abbrev CLG_RESOURCE : Nat := 0x1C50
abbrev CLG_ERR_LO : Nat := 0x1C60
abbrev CLG_ERR_HI : Nat := 0x1C64
abbrev EXC_CTRL : Nat := 0x2000
abbrev EXC_STAT : Nat := 0x2004
abbrev EXC_SEL : Nat := 0x2010
abbrev EXC_IMG : Nat := 0x2014
abbrev EXC_SSEL : Nat := 0x2018
abbrev EXC_SVIEW : Nat := 0x201C
abbrev EXC_TOKENS : Nat := 0x2020
abbrev EXC_RELEASED : Nat := 0x2024
abbrev EXC_STOPS : Nat := 0x2028
abbrev EXC_WITHHELD : Nat := 0x202C
abbrev EXC_DISCARD : Nat := 0x2030
abbrev EXC_INVALID : Nat := 0x2034
abbrev EXC_FFFD : Nat := 0x2038
abbrev EXC_REC0 : Nat := 0x203C
abbrev EXC_REC1 : Nat := 0x2040
abbrev EXC_ERR_LO : Nat := 0x2060
abbrev EXC_ERR_HI : Nat := 0x2064
abbrev STK_GEOM : Nat := 0x2400
abbrev STK_STAT : Nat := 0x2404
abbrev STK_HSEL : Nat := 0x2408
abbrev STK_HASH_LO : Nat := 0x240C
abbrev STK_HASH_HI : Nat := 0x2410
abbrev STK_RSEL : Nat := 0x2414
abbrev STK_RBASE_LO : Nat := 0x2418
abbrev STK_RBASE_HI : Nat := 0x241C
abbrev STK_RSIZE : Nat := 0x2420
abbrev STK_RETRY : Nat := 0x2424
abbrev STK_REPLAY : Nat := 0x2428
abbrev STK_QCHAN : Nat := 0x242C
abbrev STK_QSTAT : Nat := 0x2430
abbrev STK_MSSEL : Nat := 0x2434
abbrev STK_MSINFO : Nat := 0x2438
abbrev STK_DEFER : Nat := 0x2440
abbrev STK_BUSY : Nat := 0x2444
abbrev STK_UE : Nat := 0x2448
abbrev STK_MSG : Nat := 0x244C
abbrev STK_LISTS : Nat := 0x2450
abbrev STK_BADRSP : Nat := 0x2454
abbrev STK_REPLAYS : Nat := 0x2458
abbrev STK_GIVEUP : Nat := 0x245C
abbrev STK_ERR_LO : Nat := 0x2460
abbrev STK_ERR_HI : Nat := 0x2464
abbrev LDG_CTRL : Nat := 0x2800
abbrev LDG_STAT : Nat := 0x2804
abbrev LDG_M0BASE_LO : Nat := 0x2808
abbrev LDG_M0BASE_HI : Nat := 0x280C
abbrev LDG_M1BASE_LO : Nat := 0x2810
abbrev LDG_M1BASE_HI : Nat := 0x2814
abbrev LDG_SIZE : Nat := 0x2818
abbrev LDG_NEXT_LO : Nat := 0x2820
abbrev LDG_NEXT_HI : Nat := 0x2824
abbrev LDG_SETTLED_LO : Nat := 0x2828
abbrev LDG_SETTLED_HI : Nat := 0x282C
abbrev LDG_QSEL : Nat := 0x2830
abbrev LDG_QCFG : Nat := 0x2834
abbrev LDG_QSTAT : Nat := 0x2838
abbrev LDG_QPOP_LO : Nat := 0x2840
abbrev LDG_QPOP_HI : Nat := 0x2844
abbrev LDG_QLOST : Nat := 0x2848
abbrev LDG_ACCEPTS : Nat := 0x2850
abbrev LDG_REPLAYED : Nat := 0x2854
abbrev LDG_SUPPRESS : Nat := 0x2858
abbrev LDG_CARRY : Nat := 0x285C
abbrev LDG_SETTLES : Nat := 0x2860
abbrev LDG_ERR_LO : Nat := 0x2870
abbrev LDG_ERR_HI : Nat := 0x2874
abbrev AUD_CHK0 : Nat := 0x2C00
abbrev AUD_CHK1 : Nat := 0x2C04
abbrev AUD_CHK2 : Nat := 0x2C08
abbrev AUD_CHK3 : Nat := 0x2C0C
abbrev AUD_CHK4 : Nat := 0x2C10
abbrev AUD_CHK5 : Nat := 0x2C14
abbrev AUD_MISMATCH : Nat := 0x2C18
abbrev AUD_POISON : Nat := 0x2C1C
abbrev AUD_GOLDFAIL : Nat := 0x2C20
abbrev AUD_FAULT_LO : Nat := 0x2C30
abbrev AUD_FAULT_HI : Nat := 0x2C34
abbrev KCW_CMD : Nat := 0x3000
abbrev KCW_CTR_LO : Nat := 0x3004
abbrev KCW_CTR_HI : Nat := 0x3008
abbrev KCW_OPND0 : Nat := 0x3010
abbrev KCW_OPND1 : Nat := 0x3014
abbrev KCW_OPND2 : Nat := 0x3018
abbrev KCW_OPND3 : Nat := 0x301C
abbrev KCW_OPND4 : Nat := 0x3020
abbrev KCW_OPND5 : Nat := 0x3024
abbrev KCW_OPND6 : Nat := 0x3028
abbrev KCW_OPND7 : Nat := 0x302C
abbrev KCW_OPND8 : Nat := 0x3030
abbrev KCW_OPND9 : Nat := 0x3034
abbrev KCW_OPND10 : Nat := 0x3038
abbrev KCW_OPND11 : Nat := 0x303C
abbrev KCW_OPND12 : Nat := 0x3040
abbrev KCW_OPND13 : Nat := 0x3044
abbrev KCW_OPND14 : Nat := 0x3048
abbrev KCW_OPND15 : Nat := 0x304C
abbrev KCW_TAG_LO : Nat := 0x3050
abbrev KCW_TAG_HI : Nat := 0x3054
abbrev KCW_CTRL : Nat := 0x3060
abbrev KCW_STAT : Nat := 0x3064
abbrev KCW_EPOCH_LO : Nat := 0x3068
abbrev KCW_EPOCH_HI : Nat := 0x306C
abbrev KCW_HSEL : Nat := 0x3070
abbrev KCW_HWM_LO : Nat := 0x3074
abbrev KCW_HWM_HI : Nat := 0x3078
abbrev KCW_DONE : Nat := 0x3080
abbrev KCW_TAGFAIL : Nat := 0x3084
abbrev KCW_CTRFAIL : Nat := 0x3088
abbrev PUR_CTRL : Nat := 0x3400
abbrev PUR_ALLOW : Nat := 0x3404
abbrev PUR_CEIL : Nat := 0x3408
abbrev PUR_STAT : Nat := 0x340C
abbrev PUR_GRANT : Nat := 0x3410
abbrev PUR_LEAK : Nat := 0x3414
abbrev PUR_LEAK_MIN : Nat := 0x3418
abbrev PUR_TEMP : Nat := 0x341C
abbrev PUR_VSCALE : Nat := 0x3420
abbrev PUR_TEL : Nat := 0x3424
abbrev PUR_BAL : Nat := 0x3428
abbrev PUR_SPENT_LO : Nat := 0x3430
abbrev PUR_SPENT_HI : Nat := 0x3434
abbrev PUR_WAIT : Nat := 0x3438
abbrev PUR_RA_SKIP : Nat := 0x343C
abbrev PUR_PSEL : Nat := 0x3440
abbrev PUR_PRICE : Nat := 0x3444
abbrev RSV_STAT : Nat := 0x3800
abbrev RSV_MCTRL : Nat := 0x3804
abbrev RSV_MSTAT : Nat := 0x3808
abbrev RSV_BUSY : Nat := 0x380C
abbrev RSV_SCRUB : Nat := 0x3810
abbrev RSV_AGE : Nat := 0x3814
abbrev RSV_VOLT : Nat := 0x3818
abbrev RSV_CLKSTEP : Nat := 0x381C
abbrev RSV_CSEL : Nat := 0x3820
abbrev RSV_CANARY : Nat := 0x3824
abbrev RSV_SPARE : Nat := 0x3828
abbrev RSV_USEL : Nat := 0x382C
abbrev RSV_UMAP : Nat := 0x3830
abbrev RSV_PEND_LO : Nat := 0x3834
abbrev RSV_PEND_HI : Nat := 0x3838
abbrev RSV_PEND_CTL : Nat := 0x383C
abbrev RSV_MAP : Nat := 0x3840
abbrev RSV_EVT_LO : Nat := 0x3844
abbrev RSV_EVT_HI : Nat := 0x3848
abbrev RSV_ROWMAP : Nat := 0x3850
abbrev RSV_DEADROW : Nat := 0x3854
abbrev RSV_RETIRED : Nat := 0x3858
abbrev RSV_VSTEPS : Nat := 0x385C
abbrev RSV_CSTEPS : Nat := 0x3860
abbrev RSV_SWEEPS : Nat := 0x3864
abbrev RSV_SCRUB_PASS : Nat := 0x3868
abbrev RSV_REFUSED : Nat := 0x386C
abbrev PWR_STAT : Nat := 0x3C00
abbrev PWR_PDGOOD : Nat := 0x3C04
abbrev PWR_PDCTRL : Nat := 0x3C08
abbrev PWR_PDERR : Nat := 0x3C0C
abbrev PWR_PDRETRY : Nat := 0x3C10
abbrev PWR_RST : Nat := 0x3C14
abbrev PWR_RSTSEEN : Nat := 0x3C18
abbrev PWR_CLKOK : Nat := 0x3C1C
abbrev PWR_RES : Nat := 0x3C20
abbrev PWR_RESLOG : Nat := 0x3C24
abbrev PWR_WDOG : Nat := 0x3C28
abbrev PWR_WDOG_KICK : Nat := 0x3C2C
abbrev PWR_WDOG_CNT : Nat := 0x3C30
abbrev PWR_INTEG : Nat := 0x3C34
abbrev PWR_PGFAULT : Nat := 0x3C40
abbrev PWR_CLKLOSS : Nat := 0x3C44
abbrev PWR_RESCNT : Nat := 0x3C48
abbrev SRQ_STAT : Nat := 0x4000
abbrev SRQ_EN : Nat := 0x4004
abbrev SRQ_EVT : Nat := 0x4008
abbrev SRQ_FORCE : Nat := 0x400C
abbrev SRQ_QTHR : Nat := 0x4010
abbrev DBG_CTRL : Nat := 0x4400
abbrev DBG_FILTER : Nat := 0x4404
abbrev DBG_TSEL : Nat := 0x4408
abbrev DBG_TSTAT : Nat := 0x440C
abbrev DBG_RESUME : Nat := 0x4410
abbrev DBG_STOPPED : Nat := 0x4414
abbrev DBG_TRDROP : Nat := 0x4418

end R

/-- One register of Table 17.2. -/
structure RegSpec where
  off : Nat
  reset : Nat
  store : Nat
  clear : Nat
  deriving DecidableEq, Repr

/-- Registers of the window, from offset 0x0000. -/
def regSpecs0 : List RegSpec := [
  ⟨R.GBL_CEL_ID, 0x1001201, 0x0, 0x0⟩,
  ⟨R.GBL_SHAPE, 0x14C8488, 0x0, 0x0⟩,
  ⟨R.GBL_INST_ID_LO, 0x0, 0x0, 0x0⟩,
  ⟨R.GBL_INST_ID_HI, 0x0, 0x0, 0x0⟩,
  ⟨R.GBL_BOOT, 0x0, 0x0, 0x0⟩,
  ⟨R.GBL_BSTAT, 0x0, 0x0, 0x0⟩,
  ⟨R.GBL_RMAP0_LO, 0x0, 0xFFFF8000, 0x0⟩,
  ⟨R.GBL_RMAP0_HI, 0x0, 0xFFFF, 0x0⟩,
  ⟨R.GBL_RMAP1_LO, 0x0, 0xFFFF8000, 0x0⟩,
  ⟨R.GBL_RMAP1_HI, 0x0, 0xFFFF, 0x0⟩,
  ⟨R.GBL_BTIME, 0x0, 0x0, 0x0⟩,
  ⟨R.CLK_CTRL, 0x0, 0x0, 0x0⟩,
  ⟨R.CLK_ENTRY, 0x0, 0x1FFF, 0x0⟩,
  ⟨R.CLK_STATE, 0x0, 0x0, 0x0⟩,
  ⟨R.CLK_TRST, 0x0, 0x0, 0x0⟩,
  ⟨R.CLK_FAULT0, 0x0, 0x0, 0x80000000⟩,
  ⟨R.CLK_FAULT1, 0x0, 0x0, 0x80000000⟩,
  ⟨R.CLK_FAULT2, 0x0, 0x0, 0x80000000⟩,
  ⟨R.CLK_FAULT3, 0x0, 0x0, 0x80000000⟩,
  ⟨R.CLK_FAULT4, 0x0, 0x0, 0x80000000⟩,
  ⟨R.CLK_FAULT5, 0x0, 0x0, 0x80000000⟩,
  ⟨R.CLK_FAULT6, 0x0, 0x0, 0x80000000⟩,
  ⟨R.CLK_FAULT7, 0x0, 0x0, 0x80000000⟩,
  ⟨R.BEAT_CFG, 0x21, 0xFFFF, 0x0⟩,
  ⟨R.BEAT_GRACE, 0x8, 0xFF, 0x0⟩,
  ⟨R.BEAT_CTRL, 0x0, 0x0, 0x0⟩,
  ⟨R.BEAT_STAT, 0x1, 0x0, 0x8⟩,
  ⟨R.BEAT_POS_LO, 0x0, 0x0, 0x0⟩]

/-- Registers of the window, from offset 0x0814. -/
def regSpecs1 : List RegSpec := [
  ⟨R.BEAT_POS_HI, 0x0, 0x0, 0x0⟩,
  ⟨R.BEAT_REARM_LO, 0x0, 0xFFFFFFFF, 0x0⟩,
  ⟨R.BEAT_REARM_HI, 0x0, 0xFFF, 0x0⟩,
  ⟨R.BEAT_BAD_LO, 0x0, 0x0, 0x0⟩,
  ⟨R.BEAT_BAD_HI, 0x0, 0x0, 0x0⟩,
  ⟨R.BEAT_LATE, 0x0, 0xFFFFFFFF, 0x0⟩,
  ⟨R.BEAT_LATE_WORK, 0x0, 0xFFFFFFFF, 0x0⟩,
  ⟨R.BEAT_HELD, 0x0, 0x0, 0x0⟩,
  ⟨R.DAY_BASE_LO, 0x0, 0xFFFFC000, 0x0⟩,
  ⟨R.DAY_BASE_HI, 0x0, 0xFFFF, 0x0⟩,
  ⟨R.DAY_CFG, 0x604, 0xFFFFF, 0x0⟩,
  ⟨R.DAY_STAT, 0x0, 0x0, 0x1⟩,
  ⟨R.DAY_STALE, 0x0, 0xFFFFFFFF, 0x0⟩,
  ⟨R.DAY_DEFER, 0x0, 0xFFFFFFFF, 0x0⟩,
  ⟨R.DAY_SKIP, 0x0, 0xFFFFFFFF, 0x0⟩,
  ⟨R.DAY_ERRCNT, 0x0, 0xFFFFFFFF, 0x0⟩,
  ⟨R.DAY_ERR_LO, 0x0, 0x0, 0x80000000⟩,
  ⟨R.DAY_ERR_HI, 0x0, 0x0, 0x0⟩,
  ⟨R.DAY_NEXT0, 0x0, 0x0, 0x0⟩,
  ⟨R.DAY_NEXT1, 0x0, 0x0, 0x0⟩,
  ⟨R.DAY_NEXT2, 0x0, 0x0, 0x0⟩,
  ⟨R.DAY_NEXT3, 0x0, 0x0, 0x0⟩,
  ⟨R.DAY_NEXT4, 0x0, 0x0, 0x0⟩,
  ⟨R.DAY_NEXT5, 0x0, 0x0, 0x0⟩,
  ⟨R.DAY_NEXT6, 0x0, 0x0, 0x0⟩,
  ⟨R.DAY_NEXT7, 0x0, 0x0, 0x0⟩,
  ⟨R.TEL_CTRL, 0x0, 0xFF, 0x0⟩,
  ⟨R.TEL_STAT, 0x0, 0x0, 0x0⟩]

/-- Registers of the window, from offset 0x0C08. -/
def regSpecs2 : List RegSpec := [
  ⟨R.TEL_REISSUE, 0x0, 0x0, 0x0⟩,
  ⟨R.TEL_ACCEPT, 0x0, 0xFFFFFFFF, 0x0⟩,
  ⟨R.TEL_REFUSE, 0x0, 0xFFFFFFFF, 0x0⟩,
  ⟨R.TEL_PEER, 0x0, 0xFFFFFFFF, 0x0⟩,
  ⟨R.TEL_ERR_LO, 0x0, 0x0, 0x80000000⟩,
  ⟨R.TEL_ERR_HI, 0x0, 0x0, 0x0⟩,
  ⟨R.ASY_SEL, 0x0, 0xF, 0x0⟩,
  ⟨R.ASY_IMG, 0x0, 0x0, 0x0⟩,
  ⟨R.ASY_INVALID, 0x0, 0xFFFFFFFF, 0x0⟩,
  ⟨R.ASY_FFFD, 0x0, 0xFFFFFFFF, 0x0⟩,
  ⟨R.ASY_SAFE_CUT, 0x0, 0xFFFFFFFF, 0x0⟩,
  ⟨R.ASY_DISCARD, 0x0, 0xFFFFFFFF, 0x0⟩,
  ⟨R.SRT_CTRL, 0x10, 0x31, 0x0⟩,
  ⟨R.SRT_STAT, 0x0, 0x0, 0x0⟩,
  ⟨R.SRT_TEMP, 0x0, 0x0, 0x0⟩,
  ⟨R.SRT_ROWS, 0x20, 0x0, 0x0⟩,
  ⟨R.SRT_SEL, 0x0, 0xF, 0x0⟩,
  ⟨R.SRT_IMG, 0x0, 0x0, 0x0⟩,
  ⟨R.SRT_PIECES, 0x0, 0xFFFFFFFF, 0x0⟩,
  ⟨R.SRT_CUTS, 0x0, 0xFFFFFFFF, 0x0⟩,
  ⟨R.SRT_SLOTS_LOST, 0x0, 0xFFFFFFFF, 0x0⟩,
  ⟨R.SRT_THROT, 0x0, 0xFFFFFFFF, 0x0⟩,
  ⟨R.SRT_ROWERR, 0x0, 0xFFFFFFFF, 0x0⟩,
  ⟨R.SRT_DISCARD, 0x0, 0xFFFFFFFF, 0x0⟩,
  ⟨R.MNT_CTRL, 0x0, 0x1, 0x0⟩,
  ⟨R.MNT_STAT, 0x0, 0x0, 0x0⟩,
  ⟨R.MNT_SEL, 0x0, 0xF, 0x0⟩,
  ⟨R.MNT_IMG, 0x0, 0x0, 0x0⟩]

/-- Registers of the window, from offset 0x1418. -/
def regSpecs3 : List RegSpec := [
  ⟨R.MNT_VOCAB, 0x0, 0x0, 0x0⟩,
  ⟨R.MNT_UNK, 0x0, 0x0, 0x0⟩,
  ⟨R.MNT_PIECES, 0x0, 0xFFFFFFFF, 0x0⟩,
  ⟨R.MNT_TOKENS, 0x0, 0xFFFFFFFF, 0x0⟩,
  ⟨R.MNT_CACHE_HIT, 0x0, 0xFFFFFFFF, 0x0⟩,
  ⟨R.MNT_STEPS, 0x0, 0xFFFFFFFF, 0x0⟩,
  ⟨R.MNT_UNKS, 0x0, 0xFFFFFFFF, 0x0⟩,
  ⟨R.MNT_BYTEFB, 0x0, 0xFFFFFFFF, 0x0⟩,
  ⟨R.MNT_PARKS, 0x0, 0xFFFFFFFF, 0x0⟩,
  ⟨R.VLT_CTRL, 0x1, 0x1, 0x0⟩,
  ⟨R.VLT_STAT, 0x0, 0x0, 0x0⟩,
  ⟨R.VLT_SEL, 0x0, 0xF, 0x0⟩,
  ⟨R.VLT_TEN, 0x0, 0x0, 0x0⟩,
  ⟨R.VLT_LOOKUPS_LO, 0x0, 0xFFFFFFFF, 0x0⟩,
  ⟨R.VLT_LOOKUPS_HI, 0x0, 0xFFFFFFFF, 0x0⟩,
  ⟨R.VLT_OVF_LO, 0x0, 0xFFFFFFFF, 0x0⟩,
  ⟨R.VLT_OVF_HI, 0x0, 0xFFFFFFFF, 0x0⟩,
  ⟨R.VLT_PF_USED, 0x0, 0xFFFFFFFF, 0x0⟩,
  ⟨R.VLT_PF_DROP, 0x0, 0xFFFFFFFF, 0x0⟩,
  ⟨R.VLT_CORR, 0x0, 0xFFFFFFFF, 0x0⟩,
  ⟨R.VLT_STALL, 0x0, 0xFFFFFFFF, 0x0⟩,
  ⟨R.NOT_CTRL, 0x1, 0x1, 0x0⟩,
  ⟨R.NOT_STAT, 0x0, 0x0, 0x0⟩,
  ⟨R.NOT_GSEL, 0x0, 0xFFF, 0x0⟩,
  ⟨R.NOT_GRAM, 0x0, 0x0, 0x0⟩,
  ⟨R.NOT_GEND, 0x0, 0x0, 0x0⟩,
  ⟨R.NOT_GSTATES, 0x0, 0x0, 0x0⟩,
  ⟨R.NOT_SSEL, 0x0, 0xFFF, 0x0⟩]

/-- Registers of the window, from offset 0x1824. -/
def regSpecs4 : List RegSpec := [
  ⟨R.NOT_SVIEW0, 0x0, 0x0, 0x0⟩,
  ⟨R.NOT_SVIEW1, 0x0, 0x0, 0x0⟩,
  ⟨R.NOT_SVIEW2, 0x0, 0x0, 0x0⟩,
  ⟨R.NOT_STEPS, 0x0, 0xFFFFFFFF, 0x0⟩,
  ⟨R.NOT_RA_HIT, 0x0, 0xFFFFFFFF, 0x0⟩,
  ⟨R.NOT_RA_MISS, 0x0, 0xFFFFFFFF, 0x0⟩,
  ⟨R.NOT_RES_CHECK, 0x0, 0xFFFFFFFF, 0x0⟩,
  ⟨R.NOT_TC_MISS, 0x0, 0xFFFFFFFF, 0x0⟩,
  ⟨R.NOT_SPILL, 0x0, 0xFFFFFFFF, 0x0⟩,
  ⟨R.NOT_EMPTY_END, 0x0, 0xFFFFFFFF, 0x0⟩,
  ⟨R.NOT_EMPTY_FB, 0x0, 0xFFFFFFFF, 0x0⟩,
  ⟨R.NOT_EMPTY_HALT, 0x0, 0xFFFFFFFF, 0x0⟩,
  ⟨R.NOT_DRAFT_TOK, 0x0, 0xFFFFFFFF, 0x0⟩,
  ⟨R.NOT_DRAFT_ACC, 0x0, 0xFFFFFFFF, 0x0⟩,
  ⟨R.CLG_CTRL, 0x1, 0x1, 0x0⟩,
  ⟨R.CLG_STAT, 0x0, 0x0, 0x1000⟩,
  ⟨R.CLG_MSTORE, 0x0, 0x0, 0x0⟩,
  ⟨R.CLG_HOLD, 0x800, 0x0, 0x0⟩,
  ⟨R.CLG_SSEL, 0x0, 0xFFF, 0x0⟩,
  ⟨R.CLG_SEED_LO, 0x0, 0x0, 0x0⟩,
  ⟨R.CLG_SEED_HI, 0x0, 0x0, 0x0⟩,
  ⟨R.CLG_ROWS, 0x0, 0xFFFFFFFF, 0x0⟩,
  ⟨R.CLG_COMMITS, 0x0, 0xFFFFFFFF, 0x0⟩,
  ⟨R.CLG_SHORT, 0x0, 0xFFFFFFFF, 0x0⟩,
  ⟨R.CLG_TIE, 0x0, 0xFFFFFFFF, 0x0⟩,
  ⟨R.CLG_NAN, 0x0, 0xFFFFFFFF, 0x0⟩,
  ⟨R.CLG_PARTIAL, 0x0, 0xFFFFFFFF, 0x0⟩,
  ⟨R.CLG_PFAULT, 0x0, 0xFFFFFFFF, 0x0⟩]

/-- Registers of the window, from offset 0x1C3C. -/
def regSpecs5 : List RegSpec := [
  ⟨R.CLG_LOST, 0x0, 0xFFFFFFFF, 0x0⟩,
  ⟨R.CLG_ORPHAN, 0x0, 0xFFFFFFFF, 0x0⟩,
  ⟨R.CLG_DUPROW, 0x0, 0xFFFFFFFF, 0x0⟩,
  ⟨R.CLG_DRAFT_ROWS, 0x0, 0xFFFFFFFF, 0x0⟩,
  ⟨R.CLG_DRAFT_ACC, 0x0, 0xFFFFFFFF, 0x0⟩,
  ⟨R.CLG_RESOURCE, 0x0, 0xFFFFFFFF, 0x0⟩,
  ⟨R.CLG_ERR_LO, 0x0, 0x0, 0x80000000⟩,
  ⟨R.CLG_ERR_HI, 0x0, 0x0, 0x0⟩,
  ⟨R.EXC_CTRL, 0x0, 0x3, 0x0⟩,
  ⟨R.EXC_STAT, 0x0, 0x0, 0x0⟩,
  ⟨R.EXC_SEL, 0x0, 0xF, 0x0⟩,
  ⟨R.EXC_IMG, 0x0, 0x0, 0x0⟩,
  ⟨R.EXC_SSEL, 0x0, 0xFFF, 0x0⟩,
  ⟨R.EXC_SVIEW, 0x0, 0x0, 0x0⟩,
  ⟨R.EXC_TOKENS, 0x0, 0xFFFFFFFF, 0x0⟩,
  ⟨R.EXC_RELEASED, 0x0, 0xFFFFFFFF, 0x0⟩,
  ⟨R.EXC_STOPS, 0x0, 0xFFFFFFFF, 0x0⟩,
  ⟨R.EXC_WITHHELD, 0x0, 0xFFFFFFFF, 0x0⟩,
  ⟨R.EXC_DISCARD, 0x0, 0xFFFFFFFF, 0x0⟩,
  ⟨R.EXC_INVALID, 0x0, 0xFFFFFFFF, 0x0⟩,
  ⟨R.EXC_FFFD, 0x0, 0xFFFFFFFF, 0x0⟩,
  ⟨R.EXC_REC0, 0x0, 0xFFFFFFFF, 0x0⟩,
  ⟨R.EXC_REC1, 0x0, 0xFFFFFFFF, 0x0⟩,
  ⟨R.EXC_ERR_LO, 0x0, 0x0, 0x80000000⟩,
  ⟨R.EXC_ERR_HI, 0x0, 0x0, 0x0⟩,
  ⟨R.STK_GEOM, 0x425, 0xFFFF07FF, 0x0⟩,
  ⟨R.STK_STAT, 0x0, 0x0, 0x1⟩,
  ⟨R.STK_HSEL, 0x0, 0xF, 0x0⟩]

/-- Registers of the window, from offset 0x240C. -/
def regSpecs6 : List RegSpec := [
  ⟨R.STK_HASH_LO, 0x0, 0xFFFFFFFF, 0x0⟩,
  ⟨R.STK_HASH_HI, 0x0, 0x3FF, 0x0⟩,
  ⟨R.STK_RSEL, 0x0, 0x7, 0x0⟩,
  ⟨R.STK_RBASE_LO, 0x0, 0xFFFF0000, 0x0⟩,
  ⟨R.STK_RBASE_HI, 0x0, 0xFFFF, 0x0⟩,
  ⟨R.STK_RSIZE, 0x0, 0xFFFFFFFF, 0x0⟩,
  ⟨R.STK_RETRY, 0x200410, 0xFFFF1F, 0x0⟩,
  ⟨R.STK_REPLAY, 0x3, 0x7, 0x0⟩,
  ⟨R.STK_QCHAN, 0x0, 0xFF, 0x0⟩,
  ⟨R.STK_QSTAT, 0x0, 0x0, 0x0⟩,
  ⟨R.STK_MSSEL, 0x0, 0xF, 0x0⟩,
  ⟨R.STK_MSINFO, 0x0, 0x0, 0x0⟩,
  ⟨R.STK_DEFER, 0x0, 0xFFFFFFFF, 0x0⟩,
  ⟨R.STK_BUSY, 0x0, 0xFFFFFFFF, 0x0⟩,
  ⟨R.STK_UE, 0x0, 0xFFFFFFFF, 0x0⟩,
  ⟨R.STK_MSG, 0x0, 0xFFFFFFFF, 0x0⟩,
  ⟨R.STK_LISTS, 0x0, 0xFFFFFFFF, 0x0⟩,
  ⟨R.STK_BADRSP, 0x0, 0xFFFFFFFF, 0x0⟩,
  ⟨R.STK_REPLAYS, 0x0, 0xFFFFFFFF, 0x0⟩,
  ⟨R.STK_GIVEUP, 0x0, 0xFFFFFFFF, 0x0⟩,
  ⟨R.STK_ERR_LO, 0x0, 0x0, 0x80000000⟩,
  ⟨R.STK_ERR_HI, 0x0, 0x0, 0x0⟩,
  ⟨R.LDG_CTRL, 0x0, 0x3, 0x0⟩,
  ⟨R.LDG_STAT, 0x0, 0x0, 0x1⟩,
  ⟨R.LDG_M0BASE_LO, 0x0, 0xFFFF0000, 0x0⟩,
  ⟨R.LDG_M0BASE_HI, 0x0, 0xFFFF, 0x0⟩,
  ⟨R.LDG_M1BASE_LO, 0x0, 0xFFFF0000, 0x0⟩,
  ⟨R.LDG_M1BASE_HI, 0x0, 0xFFFF, 0x0⟩]

/-- Registers of the window, from offset 0x2818. -/
def regSpecs7 : List RegSpec := [
  ⟨R.LDG_SIZE, 0x1410, 0x3F1F, 0x0⟩,
  ⟨R.LDG_NEXT_LO, 0x0, 0x0, 0x0⟩,
  ⟨R.LDG_NEXT_HI, 0x0, 0x0, 0x0⟩,
  ⟨R.LDG_SETTLED_LO, 0x0, 0x0, 0x0⟩,
  ⟨R.LDG_SETTLED_HI, 0x0, 0x0, 0x0⟩,
  ⟨R.LDG_QSEL, 0x0, 0x3, 0x0⟩,
  ⟨R.LDG_QCFG, 0x0, 0x7F, 0x0⟩,
  ⟨R.LDG_QSTAT, 0x0, 0x0, 0x10000⟩,
  ⟨R.LDG_QPOP_LO, 0x0, 0x0, 0x0⟩,
  ⟨R.LDG_QPOP_HI, 0x0, 0x0, 0x0⟩,
  ⟨R.LDG_QLOST, 0x0, 0xFFFFFFFF, 0x0⟩,
  ⟨R.LDG_ACCEPTS, 0x0, 0xFFFFFFFF, 0x0⟩,
  ⟨R.LDG_REPLAYED, 0x0, 0xFFFFFFFF, 0x0⟩,
  ⟨R.LDG_SUPPRESS, 0x0, 0xFFFFFFFF, 0x0⟩,
  ⟨R.LDG_CARRY, 0x0, 0xFFFFFFFF, 0x0⟩,
  ⟨R.LDG_SETTLES, 0x0, 0xFFFFFFFF, 0x0⟩,
  ⟨R.LDG_ERR_LO, 0x0, 0x0, 0x80000000⟩,
  ⟨R.LDG_ERR_HI, 0x0, 0x0, 0x0⟩,
  ⟨R.AUD_CHK0, 0x0, 0xFFFFFFFF, 0x0⟩,
  ⟨R.AUD_CHK1, 0x0, 0xFFFFFFFF, 0x0⟩,
  ⟨R.AUD_CHK2, 0x0, 0xFFFFFFFF, 0x0⟩,
  ⟨R.AUD_CHK3, 0x0, 0xFFFFFFFF, 0x0⟩,
  ⟨R.AUD_CHK4, 0x0, 0xFFFFFFFF, 0x0⟩,
  ⟨R.AUD_CHK5, 0x0, 0xFFFFFFFF, 0x0⟩,
  ⟨R.AUD_MISMATCH, 0x0, 0xFFFFFFFF, 0x0⟩,
  ⟨R.AUD_POISON, 0x0, 0xFFFFFFFF, 0x0⟩,
  ⟨R.AUD_GOLDFAIL, 0x0, 0xFFFFFFFF, 0x0⟩,
  ⟨R.AUD_FAULT_LO, 0x0, 0x0, 0x80000000⟩]

/-- Registers of the window, from offset 0x2C34. -/
def regSpecs8 : List RegSpec := [
  ⟨R.AUD_FAULT_HI, 0x0, 0x0, 0x0⟩,
  ⟨R.KCW_CMD, 0x0, 0x7F03FF, 0x0⟩,
  ⟨R.KCW_CTR_LO, 0x0, 0xFFFFFFFF, 0x0⟩,
  ⟨R.KCW_CTR_HI, 0x0, 0xFFFFFFFF, 0x0⟩,
  ⟨R.KCW_OPND0, 0x0, 0xFFFFFFFF, 0x0⟩,
  ⟨R.KCW_OPND1, 0x0, 0xFFFFFFFF, 0x0⟩,
  ⟨R.KCW_OPND2, 0x0, 0xFFFFFFFF, 0x0⟩,
  ⟨R.KCW_OPND3, 0x0, 0xFFFFFFFF, 0x0⟩,
  ⟨R.KCW_OPND4, 0x0, 0xFFFFFFFF, 0x0⟩,
  ⟨R.KCW_OPND5, 0x0, 0xFFFFFFFF, 0x0⟩,
  ⟨R.KCW_OPND6, 0x0, 0xFFFFFFFF, 0x0⟩,
  ⟨R.KCW_OPND7, 0x0, 0xFFFFFFFF, 0x0⟩,
  ⟨R.KCW_OPND8, 0x0, 0xFFFFFFFF, 0x0⟩,
  ⟨R.KCW_OPND9, 0x0, 0xFFFFFFFF, 0x0⟩,
  ⟨R.KCW_OPND10, 0x0, 0xFFFFFFFF, 0x0⟩,
  ⟨R.KCW_OPND11, 0x0, 0xFFFFFFFF, 0x0⟩,
  ⟨R.KCW_OPND12, 0x0, 0xFFFFFFFF, 0x0⟩,
  ⟨R.KCW_OPND13, 0x0, 0xFFFFFFFF, 0x0⟩,
  ⟨R.KCW_OPND14, 0x0, 0xFFFFFFFF, 0x0⟩,
  ⟨R.KCW_OPND15, 0x0, 0xFFFFFFFF, 0x0⟩,
  ⟨R.KCW_TAG_LO, 0x0, 0x0, 0x0⟩,
  ⟨R.KCW_TAG_HI, 0x0, 0x0, 0x0⟩,
  ⟨R.KCW_CTRL, 0x0, 0x0, 0x0⟩,
  ⟨R.KCW_STAT, 0x0, 0x0, 0x802⟩,
  ⟨R.KCW_EPOCH_LO, 0x0, 0x0, 0x0⟩,
  ⟨R.KCW_EPOCH_HI, 0x0, 0x0, 0x0⟩,
  ⟨R.KCW_HSEL, 0x0, 0x3, 0x0⟩,
  ⟨R.KCW_HWM_LO, 0x0, 0x0, 0x0⟩]

/-- Registers of the window, from offset 0x3078. -/
def regSpecs9 : List RegSpec := [
  ⟨R.KCW_HWM_HI, 0x0, 0x0, 0x0⟩,
  ⟨R.KCW_DONE, 0x0, 0xFFFFFFFF, 0x0⟩,
  ⟨R.KCW_TAGFAIL, 0x0, 0xFFFFFFFF, 0x0⟩,
  ⟨R.KCW_CTRFAIL, 0x0, 0xFFFFFFFF, 0x0⟩,
  ⟨R.PUR_CTRL, 0xA, 0x1F, 0x0⟩,
  ⟨R.PUR_ALLOW, 0x7530, 0xFFFF, 0x0⟩,
  ⟨R.PUR_CEIL, 0x7530, 0x0, 0x0⟩,
  ⟨R.PUR_STAT, 0x0, 0x0, 0x21⟩,
  ⟨R.PUR_GRANT, 0x0, 0x0, 0x0⟩,
  ⟨R.PUR_LEAK, 0x0, 0x0, 0x0⟩,
  ⟨R.PUR_LEAK_MIN, 0xFA0, 0xFFFF, 0x0⟩,
  ⟨R.PUR_TEMP, 0x0, 0x0, 0x0⟩,
  ⟨R.PUR_VSCALE, 0x400, 0x0, 0x0⟩,
  ⟨R.PUR_TEL, 0x0, 0xFFFF, 0x0⟩,
  ⟨R.PUR_BAL, 0x0, 0x0, 0x0⟩,
  ⟨R.PUR_SPENT_LO, 0x0, 0xFFFFFFFF, 0x0⟩,
  ⟨R.PUR_SPENT_HI, 0x0, 0xFFFFFFFF, 0x0⟩,
  ⟨R.PUR_WAIT, 0x0, 0xFFFFFFFF, 0x0⟩,
  ⟨R.PUR_RA_SKIP, 0x0, 0xFFFFFFFF, 0x0⟩,
  ⟨R.PUR_PSEL, 0x0, 0x1FF, 0x0⟩,
  ⟨R.PUR_PRICE, 0x0, 0x0, 0x0⟩,
  ⟨R.RSV_STAT, 0x0, 0x0, 0x71⟩,
  ⟨R.RSV_MCTRL, 0x0, 0x3F, 0x0⟩,
  ⟨R.RSV_MSTAT, 0x0, 0x0, 0x0⟩,
  ⟨R.RSV_BUSY, 0x0, 0x0, 0x80000000⟩,
  ⟨R.RSV_SCRUB, 0x1FA, 0x1FF, 0x0⟩,
  ⟨R.RSV_AGE, 0x1E0F0101, 0xFFFF01FF, 0x0⟩,
  ⟨R.RSV_VOLT, 0x32002EE, 0x3FF0000, 0x0⟩]

/-- Registers of the window, from offset 0x381C. -/
def regSpecs10 : List RegSpec := [
  ⟨R.RSV_CLKSTEP, 0x0, 0x0, 0x0⟩,
  ⟨R.RSV_CSEL, 0x0, 0x7F, 0x0⟩,
  ⟨R.RSV_CANARY, 0x0, 0x0, 0x0⟩,
  ⟨R.RSV_SPARE, 0x0, 0x0, 0x0⟩,
  ⟨R.RSV_USEL, 0x0, 0x1FF, 0x0⟩,
  ⟨R.RSV_UMAP, 0x0, 0x0, 0x0⟩,
  ⟨R.RSV_PEND_LO, 0x0, 0x0, 0x0⟩,
  ⟨R.RSV_PEND_HI, 0x0, 0x0, 0x0⟩,
  ⟨R.RSV_PEND_CTL, 0x0, 0x0, 0x0⟩,
  ⟨R.RSV_MAP, 0x0, 0x0, 0x0⟩,
  ⟨R.RSV_EVT_LO, 0x0, 0x0, 0x80000000⟩,
  ⟨R.RSV_EVT_HI, 0x0, 0x0, 0x0⟩,
  ⟨R.RSV_ROWMAP, 0x0, 0xFFFFFFFF, 0x0⟩,
  ⟨R.RSV_DEADROW, 0x0, 0xFFFFFFFF, 0x0⟩,
  ⟨R.RSV_RETIRED, 0x0, 0xFFFFFFFF, 0x0⟩,
  ⟨R.RSV_VSTEPS, 0x0, 0xFFFFFFFF, 0x0⟩,
  ⟨R.RSV_CSTEPS, 0x0, 0xFFFFFFFF, 0x0⟩,
  ⟨R.RSV_SWEEPS, 0x0, 0xFFFFFFFF, 0x0⟩,
  ⟨R.RSV_SCRUB_PASS, 0x0, 0xFFFFFFFF, 0x0⟩,
  ⟨R.RSV_REFUSED, 0x0, 0xFFFFFFFF, 0x0⟩,
  ⟨R.PWR_STAT, 0x0, 0x0, 0x3D⟩,
  ⟨R.PWR_PDGOOD, 0x1, 0x0, 0x0⟩,
  ⟨R.PWR_PDCTRL, 0x0, 0x7, 0x0⟩,
  ⟨R.PWR_PDERR, 0x0, 0x0, 0x80000000⟩,
  ⟨R.PWR_PDRETRY, 0x0, 0x0, 0x0⟩,
  ⟨R.PWR_RST, 0x0, 0x0, 0x0⟩,
  ⟨R.PWR_RSTSEEN, 0x1FFFFFF, 0x0, 0x1FFFFFF⟩,
  ⟨R.PWR_CLKOK, 0x0, 0x0, 0x0⟩]

/-- Registers of the window, from offset 0x3C20. -/
def regSpecs11 : List RegSpec := [
  ⟨R.PWR_RES, 0x0, 0x0, 0x1E⟩,
  ⟨R.PWR_RESLOG, 0x0, 0x0, 0x80000000⟩,
  ⟨R.PWR_WDOG, 0x0, 0x1FFFF, 0x0⟩,
  ⟨R.PWR_WDOG_KICK, 0x0, 0x0, 0x0⟩,
  ⟨R.PWR_WDOG_CNT, 0x0, 0x0, 0x0⟩,
  ⟨R.PWR_INTEG, 0x0, 0x0, 0x0⟩,
  ⟨R.PWR_PGFAULT, 0x0, 0xFFFFFFFF, 0x0⟩,
  ⟨R.PWR_CLKLOSS, 0x0, 0xFFFFFFFF, 0x0⟩,
  ⟨R.PWR_RESCNT, 0x0, 0xFFFFFFFF, 0x0⟩,
  ⟨R.SRQ_STAT, 0x0, 0x0, 0x0⟩,
  ⟨R.SRQ_EN, 0x0, 0xFFFF, 0x0⟩,
  ⟨R.SRQ_EVT, 0x0, 0x0, 0xFFFF⟩,
  ⟨R.SRQ_FORCE, 0x0, 0x0, 0x0⟩,
  ⟨R.SRQ_QTHR, 0x404001, 0xFFFFFF, 0x0⟩,
  ⟨R.DBG_CTRL, 0x0, 0x7F, 0x0⟩,
  ⟨R.DBG_FILTER, 0x0, 0xFFF, 0x0⟩,
  ⟨R.DBG_TSEL, 0x0, 0x7F, 0x0⟩,
  ⟨R.DBG_TSTAT, 0x0, 0x0, 0x0⟩,
  ⟨R.DBG_RESUME, 0x0, 0x0, 0x0⟩,
  ⟨R.DBG_STOPPED, 0x0, 0x0, 0x0⟩,
  ⟨R.DBG_TRDROP, 0x0, 0xFFFFFFFF, 0x0⟩]

/-- Every register of Table 17.2, in ascending offset. -/
def regSpecs : List RegSpec :=
  regSpecs0 ++ regSpecs1 ++ regSpecs2 ++ regSpecs3 ++ regSpecs4 ++ regSpecs5 ++ regSpecs6 ++ regSpecs7 ++ regSpecs8 ++ regSpecs9 ++ regSpecs10 ++ regSpecs11

/-- The entry of a register, none at a reserved offset (R516). -/
def regSpec (off : Nat) : Option RegSpec := regSpecs.find? (fun r => r.off == off)

end Sys2Proof.Machine
end

