-- ==== Sys2Proof/Machine/Ops.lean ====
section
/-!
DEFINITION. The named operations over the state that every family of commands shares: registers and counters,
the first-event logs, scratch memory, threads and their registers, tickets, stream contexts, station
queues, and what is in flight.
-/

namespace Sys2Proof.Machine

/-! ### Status codes (Table 2.12) -/

namespace St
abbrev OK : Nat := 0x00
abbrev SHORT : Nat := 0x01
abbrev TRUNC : Nat := 0x08
abbrev LATE : Nat := 0x10
abbrev DEAD : Nat := 0x11
abbrev BEAT_BACK : Nat := 0x12
abbrev FALLBACK : Nat := 0x13
abbrev LEN : Nat := 0x20
abbrev BOUNDS : Nat := 0x21
abbrev UTF8 : Nat := 0x22
abbrev OVERRUN : Nat := 0x23
abbrev PEER_RESET : Nat := 0x24
abbrev TAG : Nat := 0x30
abbrev COUNTER : Nat := 0x31
abbrev KEY_EMPTY : Nat := 0x32
abbrev BUSY_MAINT : Nat := 0x40
abbrev RESOURCE : Nat := 0x41
abbrev POISON : Nat := 0x50
abbrev PARTIAL : Nat := 0x51
abbrev STACK_BUSY : Nat := 0x52
abbrev STACK_ERR : Nat := 0x53
abbrev SPARE_OUT : Nat := 0x60
abbrev CAPACITY : Nat := 0x61
abbrev BAD_OP : Nat := 0x70
abbrev IMAGE : Nat := 0x71
abbrev FATAL : Nat := 0xFF
end St

/-! ### Registers held as data -/

/-- Reset value of a register of a build (R517, Table 13.24, R496). Keys above 0xFFFF hold the registers a
selector shows (hash rows, regions, queue settings) and reset to 0. -/
def regReset (b : Build) (off : Nat) : Word32 :=
  if off = R.GBL_CEL_ID then BitVec.ofNat 32 b.size.celId
  else if off = R.GBL_SHAPE then BitVec.ofNat 32 b.size.shape
  else if off = R.PUR_ALLOW ∨ off = R.PUR_CEIL then BitVec.ofNat 32 b.size.allowReset
  else if off = R.PUR_LEAK_MIN then BitVec.ofNat 32 b.size.leakMin
  else if off = R.PWR_INTEG then b.integ
  else match regSpec off with
    | some r => BitVec.ofNat 32 r.reset
    | none => 0

/-- The contents of a register held as data. -/
def reg (s : State) (off : Nat) : Nat := (Tab.get (regReset s.build off) s.regs off).toNat

/-- The state with a register held as data set. -/
def setReg (off v : Nat) (s : State) : State :=
  { s with regs := Tab.set (regReset s.build off) s.regs off (BitVec.ofNat 32 v) }

/-- The state with bit `i` of a register set. -/
def setRegBit (off i : Nat) (s : State) : State := setReg off (reg s off ||| 2 ^ i) s

/-- The state with bit `i` of a register clear. -/
def clearRegBit (off i : Nat) (s : State) : State := setReg off (setBits (reg s off) i 1 0) s

/-- A 32-bit counter advanced by `n`, saturating. -/
def bump (off n : Nat) (s : State) : State := if n = 0 then s else setReg off (satAdd 32 (reg s off) n) s

/-- A 64-bit counter, held at its _LO offset and the next, advanced by `n`, saturating. -/
def bump64 (off n : Nat) (s : State) : State :=
  let v := satAdd 64 (reg s off + 2 ^ 32 * reg s (off + 4)) n
  if n = 0 then s else setReg (off + 4) (v / 2 ^ 32) (setReg off (v % 2 ^ 32) s)

/-- A first-event log: while VALID of its low register is set, later events change nothing. -/
def logFirst (lo vlo hi vhi : Nat) (s : State) : State :=
  if bit (reg s lo) 31 then s else setReg hi vhi (setReg lo (vlo % 2 ^ 31 + 2 ^ 31) s)

/-- The next free value: a value the spec leaves open, fresh at each use (log entry 2). -/
def takeFree (s : State) : Nat × State := (Config.freeValue s.free, { s with free := s.free + 1 })

/-- A counter whose advance the spec leaves to timing: it advances by a free amount (log entry 17). -/
def bumpFree (off : Nat) (s : State) : State :=
  let (v, s') := takeFree s
  bump off v s'

/-- Field of a register. -/
def regField (s : State) (off lo w : Nat) : Nat := bits (reg s off) lo w

/-! ### Scratch: the addressed RAM of the CLERKS -/

/-- Bytes of one CLERK's scratch (Table 2.1). -/
abbrev scratchSize : Nat := 0x40000

/-- What a byte of scratch that nothing has written reads as: 0, as the ZERO phase of bring-up leaves it. -/
abbrev scratchDefault : Byte := 0

/-- A byte of CLERK `c`'s scratch. -/
def scratchByte (s : State) (c x : Nat) : Byte := Tab.get scratchDefault s.scratch (c * scratchSize + x)

/-- `n` bytes of CLERK `c`'s scratch from `x`. -/
def scratchRead (s : State) (c x : Nat) : Nat → List Byte
  | 0 => []
  | n + 1 => scratchByte s c x :: scratchRead s c (x + 1) n

/-- A run of bytes placed in a memory from an address. -/
def placeBytes (m : List Host.Cell) (a : Nat) : List Byte → List Host.Cell
  | [] => m
  | b :: bs => placeBytes (Tab.set scratchDefault m a b) (a + 1) bs

/-- The state with bytes written to CLERK `c`'s scratch; bytes past its end are not written. -/
def scratchWrite (c x : Nat) (bs : List Byte) (s : State) : State :=
  { s with scratch := placeBytes s.scratch (c * scratchSize + x) (bs.take (scratchSize - x)) }

/-! ### Threads -/

/-- Key of a thread. -/
def Who.key (w : Who) : Nat := 16 * w.clerk.toNat + w.thread.toNat

/-- A thread. -/
def thread (s : State) (w : Who) : Thread := Tab.get Thread.initial s.threads (Who.key w)

/-- The state with a thread replaced. -/
def setThread (w : Who) (t : Thread) (s : State) : State :=
  { s with threads := Tab.set Thread.initial s.threads (Who.key w) t }

/-- A change of one thread. -/
def onThread (w : Who) (f : Thread → Thread) (s : State) : State := setThread w (f (thread s w)) s

/-- A g register; g0 reads as 0 (R60). -/
def Thread.reg (t : Thread) (r : BitVec 4) : Word := if r = 0 then 0 else Tab.get 0 t.g r.toNat

/-- A write of a g register; a write of g0 is discarded (R60). -/
def Thread.setG (r : BitVec 4) (v : Word) (t : Thread) : Thread :=
  if r = 0 then t else { t with g := Tab.set 0 t.g r.toNat v }

/-- A p register; p0 reads as true (R60). -/
def Thread.pred (t : Thread) (r : Nat) : Bool := if r % 8 = 0 then true else t.p.toNat.testBit (r % 8)

/-- A write of a p register; a write of p0 is discarded (R60). -/
def Thread.setP (r : Nat) (v : Bool) (t : Thread) : Thread :=
  if r % 8 = 0 then t else { t with p := BitVec.ofNat 8 (setBits t.p.toNat (r % 8) 1 (flag v)) }

/-- Whether a thread may issue: running and not waiting (R57). -/
def Thread.canIssue (t : Thread) : Bool := decide (t.st = .running) && decide (t.wait = .ready)

/-- The end of an instruction: the thread goes on at `pc`; a single step returns to DEBUG, and a halt that
waited for a journal write takes effect (R85, R417). -/
def Thread.goOn (pc : Nat) (t : Thread) : Thread :=
  { t with
    pc := pc, wait := .ready, stepping := false, stopAfter := false,
    st := if t.stopAfter then .halted else if t.stepping ∧ t.st = .running then .debug else t.st }

/-- The start values of R64 for thread `w`, at a program index. -/
def Thread.start (w : Who) (entry : Nat) : Thread :=
  { Thread.initial with
    st := .running, pc := entry,
    g := Tab.set 0 [] 1 (BitVec.ofNat 64 (Who.key w)), stream := 512 * w.clerk.toNat }

/-- Every thread of a CLERK. -/
def whos (c : Nat) : List Who :=
  (List.range 16).map (fun t => { clerk := BitVec.ofNat 3 c, thread := BitVec.ofNat 4 t })

/-- Whether an instruction of a CLERK issued before number `no` has still to write to scratch: its thread waits, or its
tile is on its way to the CLERK sink. -/
def writesLater (s : State) (c no : Nat) : Bool :=
  (whos c).any (fun w => decide ((thread s w).wait ≠ .ready) && decide ((thread s w).no < no))
    || s.tickets.any (fun p => decide (p.1 / 4096 = c) && !p.2.done && decide (p.2.result ≠ 0) && decide (p.2.no < no))

/-- The stores of a CLERK that a write of an instruction issued earlier may still meet, and those of the others. -/
def keptStores (s : State) (c : Nat) : List StoreNote :=
  s.stores.filter (fun e => decide (e.clerk ≠ c) || writesLater s c e.no)

/-- A store to scratch is kept in mind while a write of an instruction issued earlier may still meet it (R96). Its
instruction is never numbered above the last one issued. -/
def noteStore (c x n no : Nat) (s : State) : State :=
  { s with stores :=
      if writesLater s c no then { clerk := c, addr := x, len := n, no := min no s.issueNo } :: keptStores s c
      else keptStores s c }

/-- Whether an instruction issued after number `no` has stored to a byte of scratch. -/
def storedLater (s : State) (c no a : Nat) : Bool :=
  s.stores.any (fun e => decide (e.clerk = c) && decide (no < e.no) && decide (e.addr ≤ a) && decide (a < e.addr + e.len))

/-- A write to scratch of the instruction of number `no`: where an instruction issued later has stored, its bytes stand
(R96). -/
def storeScratch (no c x : Nat) (bs : List Byte) (s : State) : State :=
  noteStore c x bs.length no
    (scratchWrite c x (bs.mapIdx (fun i b => if storedLater s c no (x + i) then scratchByte s c (x + i) else b)) s)

/-- Whether any thread of a CLERK runs or waits in POST, PAY or SETTLE (Table 2.15). -/
def clerkRunning (s : State) (c : Nat) : Bool :=
  (whos c).any (fun w =>
    let t := thread s w
    decide (t.st = .running) || decide (t.st = .debug) || t.stopAfter)

/-- Whether any CLERK runs (R335). -/
def anyClerkRuns (s : State) : Bool := (List.range 8).any (clerkRunning s)

/-! ### Streams -/

/-- The context of a stream. -/
def stream (s : State) (n : Nat) : Stream := Tab.get Stream.initial s.streams n

/-- The state with a stream context replaced. -/
def setStream (n : Nat) (x : Stream) (s : State) : State :=
  { s with streams := Tab.set Stream.initial s.streams n x }

/-- A change of one stream context. -/
def onStream (n : Nat) (f : Stream → Stream) (s : State) : State := setStream n (f (stream s n)) s

/-- Home CLERK of a stream (R28). -/
def home (n : Nat) : Nat := n / 512

/-- Whether every stream is FREE. -/
def allFree (s : State) : Bool := s.streams.all (fun p => decide (p.2.st = .free))

/-! ### Result words (Table 2.5) -/

/-- The result word of a status, flags and a value. -/
def resultWord (status flags value : Nat) : Word :=
  BitVec.ofNat 64 (status % 256 + 256 * (flags % 32) + 65536 * (value % 2 ^ 47))

/-- The result word with NV set. -/
def nvWord : Word := BitVec.ofNat 64 (2 ^ 63)

/-! ### Image slots -/

/-- A tenant slot. -/
def tenant (s : State) (k : Nat) : Tenant := Tab.get Tenant.empty s.tenants k

/-- The state with a tenant slot replaced. -/
def setTenant (k : Nat) (t : Tenant) (s : State) : State :=
  { s with tenants := Tab.set Tenant.empty s.tenants k t }

/-- The image resident in a tenant slot. -/
def imageOf (s : State) (k : Nat) : Option TokImage := (tenant s k).now.map Resident.image

/-- The image of a generation: resident, or replaced and still used by pieces (R192, R225). -/
def imageGen (s : State) (k gen : Nat) : Option TokImage :=
  let t := tenant s k
  match (t.now.toList ++ t.oldRows ++ t.oldUnits).find? (fun r => r.gen == gen) with
  | some r => some r.image
  | none => t.now.map Resident.image

/-- A resident grammar image. -/
def grammar (s : State) (g : Nat) : Option GrammarImage := Tab.get none s.grammars g

/-- A mask-set slot. -/
def maskSlot (s : State) (m : Nat) : Option MaskSlot := Tab.get none s.maskSets m

/-! ### Station queues -/

namespace Hop
abbrev TELLER : Nat := 1
abbrev ASSAY : Nat := 2
abbrev SORTER : Nat := 3
abbrev MINT : Nat := 4
abbrev NOTARY : Nat := 5
abbrev CLEARING : Nat := 6
abbrev EXCHANGE : Nat := 7
abbrev LEDGER : Nat := 8
abbrev EGR0 : Nat := 9
abbrev EGR1 : Nat := 10
abbrev STACK : Nat := 11
abbrev CLERK : Nat := 12
end Hop

/-- The input queue of a hop. -/
def queueAt (s : State) (h : Nat) : List Tile := Tab.get [] s.hops h

/-- The state with the input queue of a hop replaced. -/
def setQueueAt (h : Nat) (q : List Tile) (s : State) : State := { s with hops := Tab.set [] s.hops h q }

/-- A tile joins the input queue of a hop. -/
def enqueue (h : Nat) (t : Tile) (s : State) : State := setQueueAt h (queueAt s h ++ [t]) s

/-- The first tile of a stream in a queue, with the queue without it. -/
def takeFirst (n : Nat) : List Tile → Option (Tile × List Tile)
  | [] => none
  | t :: ts =>
    if t.stream = n then some (t, ts)
    else match takeFirst n ts with
      | some (x, r) => some (x, t :: r)
      | none => none

/-- Hop code `i` of a route word (R37). -/
def routeHop (route i : Nat) : Nat := if i < 7 then bits route (4 * i) 4 else 0

/-- HOP of a route word. -/
def routeIdx (route : Nat) : Nat := bits route 28 3

/-- The hop a tile is moving to. -/
def Tile.nextHop (t : Tile) : Nat := routeHop t.route (routeIdx t.route)

/-- The hop after the one a tile is at. -/
def Tile.hopAfter (t : Tile) : Nat := routeHop t.route (routeIdx t.route + 1)

/-- The hop before the one a tile is at. -/
def Tile.hopBefore (t : Tile) : Nat :=
  if routeIdx t.route = 0 then 0 else routeHop t.route (routeIdx t.route - 1)

/-- A tile with HOP advanced (R41). -/
def Tile.advance (t : Tile) : Tile := { t with route := setBits t.route 28 3 (routeIdx t.route + 1) }

/-- COUNT of a tile (Table 1.4). -/
def Tile.count (t : Tile) : Nat :=
  match t.kind with
  | .text => t.payload.length
  | .token => t.payload.length / 4
  | .decision => 64

/-- Bytes of a fallback map (R159). -/
def markMap (ms : List Bool) : List Byte :=
  (chunksOf (ms.length + 1) 8 ms).map (fun c => BitVec.ofNat 8 ((c.mapIdx (fun i b => flag b * 2 ^ i)).sum))

/-- A tile's text with its fallback map (R159). -/
def Tile.mapped (t : Tile) : List Byte := t.payload ++ markMap t.marks

/-- A piece entry (Table 5.4). -/
def pieceWord (p : Piece) : Nat :=
  p.len + flag p.special * 2 ^ 9 + flag p.bytefb * 2 ^ 10 + flag p.trunc * 2 ^ 11 + flag p.norow * 2 ^ 12
    + (if p.norow then 0 else p.row * 2 ^ 16)

/-- The payload of a SORTER tile (Table 5.2). -/
def Tile.pieced (t : Tile) : List Byte :=
  padUp 4 t.mapped ++ toLE 4 t.pieces.length ++ (t.pieces.map (fun p => toLE 4 (pieceWord p))).flatten

/-- Whether a tile has passed a hop. -/
def passed (t : Tile) (hop : Nat) : Bool := (List.range (routeIdx t.route)).any (fun i => routeHop t.route i == hop)

/-- The whole payload of a tile (Table 1.4): text has its fallback map behind it, and after SORTER its piece map. -/
def Tile.wire (t : Tile) : List Byte :=
  match t.kind with
  | .text => if passed t Hop.SORTER then (if passed t Hop.MINT then t.payload else t.pieced) else t.mapped
  | _ => t.payload

/-! ### Trace packets of queue 3 (R514) -/

/-- Entries of queue `q`. -/
def queueN (s : State) (q : Nat) : List (Bool × Nat) :=
  match q with
  | 0 => s.queue0.entries
  | 1 => s.queue1.entries
  | 2 => s.queue2.entries
  | _ => s.queue3.entries

/-- The state with the entries of queue `q` replaced. -/
def setQueueN (q : Nat) (es : List (Bool × Nat)) (s : State) : State :=
  match q with
  | 0 => { s with queue0 := { s.queue0 with entries := es } }
  | 1 => { s with queue1 := { s.queue1 with entries := es } }
  | 2 => { s with queue2 := { s.queue2 with entries := es } }
  | _ => { s with queue3 := { s.queue3 with entries := es } }

/-- Entries at the end of queue `q` that are not written yet. -/
def unwrittenOf (s : State) (q : Nat) : Nat :=
  match q with
  | 0 => s.queue0.unwritten
  | 1 => s.queue1.unwritten
  | 2 => s.queue2.unwritten
  | _ => s.queue3.unwritten

/-- The state with that number of queue `q` replaced. -/
def setUnwritten (q n : Nat) (s : State) : State :=
  match q with
  | 0 => { s with queue0 := { s.queue0 with unwritten := n } }
  | 1 => { s with queue1 := { s.queue1 with unwritten := n } }
  | 2 => { s with queue2 := { s.queue2 with unwritten := n } }
  | _ => { s with queue3 := { s.queue3 with unwritten := n } }

/-- Whether the front entry of queue `q` is not written yet. -/
def frontUnwritten (s : State) (q : Nat) : Bool :=
  !(queueN s q).isEmpty && decide ((queueN s q).length ≤ unwrittenOf s q)

/-- Entries a queue holds (Table 11.7). -/
def queueCap (q : Nat) : Nat :=
  match q with
  | 0 => 8192
  | 1 => 1024
  | 2 => 4096
  | _ => 16384

/-- Keys of the settings of queue `q`: LDG_QCFG, the OVERRUN bit of LDG_QSTAT, LDG_QLOST. -/
def qcfgKey (q : Nat) : Nat := 0x12000 + q
def qovrKey (q : Nat) : Nat := 0x12010 + q
def qlostKey (q : Nat) : Nat := 0x12020 + q

/-- The entries after the oldest whole packet. -/
def dropPacket : List (Bool × Nat) → List (Bool × Nat)
  | [] => []
  | _ :: es => es.dropWhile (fun e => !e.1)

/-- Oldest whole packets dropped until `n` entries fit; the number dropped comes with them. -/
def makeRoom (fuel cap n lost : Nat) (es : List (Bool × Nat)) : List (Bool × Nat) × Nat :=
  match fuel with
  | 0 => (es, lost)
  | f + 1 =>
    if es.length + n ≤ cap ∨ es = [] then (es, lost) else makeRoom f cap n (lost + 1) (dropPacket es)

/-- Whether a power domain is released. -/
def pdUp (s : State) (d : Nat) : Bool := decide (Tab.get PdState.off s.power.pds d = .released)

/-- Whether a clock domain of Table 15.2 is out of reset and its clock runs. -/
def clkUp (s : State) (n : Nat) : Bool := !(s.power.held.contains n) && !(s.power.lostClk.contains n)

/-- Whether a clock domain of Table 15.2 is built: a configuration has fewer memory ports and ingress ports (R519). -/
def builtDomain (z : Size) (d : Nat) : Bool :=
  if 5 ≤ d ∧ d ≤ 12 then decide (d - 5 < z.clerks)
  else if 13 ≤ d ∧ d ≤ 16 then decide (d - 13 < ceilDiv z.lanes 2)
  else decide (1 ≤ d) && decide (d ≤ 25)

/-- Whether the domains that hold queues 2 and 3 take writes (Table 15.4, PD_DBG). -/
def dbgUp (s : State) : Bool := pdUp s 29 && clkUp s 23

/-- A packet of `m` entries has joined queue `q`: the reader sees it once CUT of them are written, and how many of the
others are is a free value (R388, log entry 148). -/
def cutThrough (q m : Nat) (s : State) : State :=
  let c := regField s (qcfgKey q) 1 6
  if c = 0 ∨ m ≤ c then setUnwritten q 0 s
  else
    let (v, s) := takeFree s
    setUnwritten q (v % (m - c + 1)) s

/-- A packet written to queue 2 or 3 (Table 11.8): refused with OVERRUN when full, or older packets dropped
under OVERWRITE. -/
def writePacket (q : Nat) (es : List Nat) (s : State) : State :=
  if !dbgUp s then s
  else
    let p := es.mapIdx (fun i v => (decide (i = 0), v % 2 ^ 62))
    let cur := queueN s q
    if cur.length + p.length ≤ queueCap q then cutThrough q p.length (setQueueN q (cur ++ p) s)
    else if bit (reg s (qcfgKey q)) 0 then
      let (rest, lost) := makeRoom (cur.length + 1) (queueCap q) p.length 0 cur
      bump (qlostKey q) lost (cutThrough q p.length (setQueueN q (rest ++ p) s))
    else setReg (qovrKey q) 1 s

/-- A loss of a resource of Table 15.6 counted and recorded (R492). -/
def noteLoss (i : Nat) (s : State) : State :=
  let s := bump R.PWR_RESCNT 1 s
  if bit (reg s R.PWR_RESLOG) 31 then s else setReg R.PWR_RESLOG (i + St.RESOURCE * 2 ^ 4 + 2 ^ 31) s

/-- A trace packet written to queue 3. While telemetry runs it may want the DBG buffer's port in the same cycle, which is a
free value: the packet is then dropped whole (R492, log entry 189). -/
def writeTrace (es : List Nat) (s : State) : State :=
  if regField s R.PUR_TEL 0 16 = 0 ∨ !dbgUp s then writePacket 3 es s
  else
    let (v, s) := takeFree s
    if v % 2 = 0 then writePacket 3 es s else noteLoss 1 (bump R.DBG_TRDROP 1 (setRegBit R.PWR_RES 1 s))

/-- A trace packet of type 0x20 + k for a stream, when tracing takes it (Table 16.6). -/
def trace (k n : Nat) (head : Nat) (es : List Nat) (s : State) : State :=
  let c := reg s R.DBG_CTRL
  if bit c 0 && bit c (2 + k) && (!bit c 6 || decide (reg s R.DBG_FILTER = n)) then
    writeTrace (((0x20 + k) * 2 ^ 54 + es.length * 2 ^ 48 + head) :: es) s
  else s

/-- The trace of a tile leaving a station: TILE, STATUS when it is not ST_OK, PAYLOAD under scope bit 1. -/
def traceTile (hop : Nat) (t : Tile) (s : State) : State :=
  let s := trace 0 t.stream (hop * 2 ^ 44 + t.stream)
    [t.ledger, t.tseq + t.count * 2 ^ 24 + t.status * 2 ^ 37] s
  let s := if t.status = St.OK then s
    else trace 1 t.stream (t.status * 2 ^ 40 + t.stream) [t.ledger] s
  if bit s.kcw.scopes 1 && !t.wire.isEmpty then
    trace 3 t.stream t.stream ((chunksOf 32 7 t.wire).map ofLE) s
  else s

/-- A tile that a station or the block sends on to the hop at its new HOP (R41). -/
def passOn (hop : Nat) (t : Tile) (s : State) : State :=
  let t := t.advance
  enqueue t.nextHop t (traceTile hop t s)

/-! ### What is in flight -/

/-- Tiles of an access's work. -/
def Job.tiles : Job → List Tile
  | .payload t _ _ => [t]
  | .flowPayload t _ _ => [t]
  | .logPayload t _ _ _ => [t]
  | .overflow t _ => [t]
  | .sink t => [t]
  | .topk t _ => [t]
  | .journal _ (.output t) => [t]
  | _ => []

/-- Tiles of what follows a journal entry. -/
def After.tiles : After → List Tile
  | .output t => [t]
  | _ => []

/-- Every tile in the block: in the station queues, at TELLER, at CLEARING, waiting in ESCROW, being filled by a station,
in egress records and
behind memory accesses and journal entries. -/
def allTiles (s : State) : List Tile :=
  (s.hops.map Prod.snd).flatten
    ++ s.teller.cuts.map Cut.tile
    ++ s.clear.tiles.map ClearTile.tile
    ++ (s.streams.map (fun p => p.2.escrow.await ++ p.2.building.map Prod.snd)).flatten
    ++ (s.egress0.cur.toList ++ s.egress1.cur.toList).map Record.tile
    ++ (s.accesses.map (fun a => a.job.tiles)).flatten
    ++ (s.ledger.waiting.map (fun w => w.2.2.tiles)).flatten

/-- Whether an access holds work of a stream's item. -/
def Job.ofItem (n : Nat) : Job → Bool
  | .overflow t _ => t.ledger == n
  | .logEntry l _ _ => l == n
  | .record _ l => l == n
  | .patch _ l => l == n
  | .refill _ l _ _ => l == n
  | .advanceRead _ l => l == n
  | .detok _ l => l == n
  | .draftBlock _ l => l == n
  | .maskRead _ l _ _ => l == n
  | .journal e _ => e.etype == 1 && e.ledger == n
  | _ => false

/-- Whether anything of an item is still in flight. -/
def inFlight (s : State) (n : Nat) : Bool :=
  (allTiles s).any (fun t => t.ledger == n)
    || s.accesses.any (fun a => a.job.ofItem n)
    || s.streams.any (fun p => p.2.notary.commits.any (fun c => c.ledger == n))
    || s.ledger.waiting.any (fun w => w.1.ledger == n && w.1.etype != 4)

/-- An item of the LEDGER. -/
def item? (s : State) (n : Nat) : Option Item := s.ledger.items.find? (fun i => i.ledger == n)

/-- A change of one item. -/
def onItem (n : Nat) (f : Item → Item) (s : State) : State :=
  { s with ledger := { s.ledger with
      items := s.ledger.items.map (fun i => if i.ledger = n then f i else i) } }

/-! ### What the fingerprint takes (R18) -/

/-- The state with a record of the fingerprint's section `part` kept for an item's tile; one that a replay produces again
counts once. `Item.emitted` numbers the records of a section above the hops. -/
def noteEmission (part ledger : Nat) (data : List Byte) (s : State) : State :=
  let k := ((item? s ledger).map (fun i => Tab.get 0 i.emitted (16 + part))).getD 0
  let s := onItem ledger (fun i => { i with emitted := Tab.set 0 i.emitted (16 + part) (k + 1) }) s
  if s.emitted.any (fun e => e.part == part && e.ledger == ledger && e.no == k) then s
  else { s with emitted := s.emitted ++ [{ part := part, ledger := ledger, no := k, data := data }] }

/-- An item joins the LEDGER's, which stand in ascending ledger number. -/
def addItem (i : Item) (s : State) : State :=
  { s with ledger := { s.ledger with items := insertBy (fun a b => decide (a.ledger < b.ledger)) i s.ledger.items } }

/-- Whether the replay of an item still runs: its work is in flight, its entry is delivered again and not yet posted or
still held by a thread, or it is not complete (R378, R379). -/
def replayRuns (s : State) (i : Item) : Bool :=
  i.replaying && (decide (i.reposts ≠ 0) || i.owner.isSome || inFlight s i.ledger || !(i.complete || i.completing))

/-- Whether the host has not yet settled an item of a stream. -/
def unsettled (s : State) (n : Nat) : List Item :=
  s.ledger.items.filter (fun i => i.stream == n && !i.settled)

/-! ### Tickets (R80 to R82) -/

/-- Key of a ticket. -/
def ticketKey (c t : Nat) : Nat := 4096 * c + t

/-- Tickets a CLERK has outstanding. -/
def outstanding (s : State) (c : Nat) : Nat :=
  (s.tickets.filter (fun p => decide (p.1 / 4096 = c) && !p.2.done)).length

/-- Whether a ticket number is outstanding. -/
def isOutstanding (s : State) (c t : Nat) : Bool :=
  s.tickets.any (fun p => decide (p.1 = ticketKey c t) && !p.2.done)

/-- The next ticket number in turn that is not outstanding, from `t` (R80). -/
def nextTicket (fuel : Nat) (s : State) (c t : Nat) : Nat :=
  match fuel with
  | 0 => t
  | f + 1 => if isOutstanding s c t then nextTicket f s c ((t + 1) % 0xFFF) else t

/-- A ticket taken for an item of a stream; none while 256 are outstanding (R81). -/
def takeTicket (c n ledger : Nat) (s : State) : Option (Nat × State) :=
  if 256 ≤ outstanding s c then none
  else
    let t := nextTicket 0xFFF s c (Tab.get 0 s.ticketNext c)
    some (t, { s with
      ticketNext := Tab.set 0 s.ticketNext c ((t + 1) % 0xFFF),
      tickets := Tab.insert s.tickets (ticketKey c t)
        { Ticket.none with stream := n, ledger := ledger } })

/-- A ticket, none when it has not been issued since the CLERK started. -/
def ticket? (s : State) (c t : Nat) : Option Ticket :=
  (s.tickets.find? (fun p => p.1 == ticketKey c t)).map Prod.snd

/-- A change of one ticket. -/
def onTicket (c t : Nat) (f : Ticket → Ticket) (s : State) : State :=
  { s with tickets := s.tickets.map (fun p => if p.1 = ticketKey c t then (p.1, f p.2) else p) }

/-- A status reported on a tile's ticket: the first one stands, and ST_TRUNC gives way (R183). -/
def firstStatus (old new : Nat) : Nat :=
  if old = St.OK then new else if old = St.TRUNC ∧ new ≠ St.OK then new else old

/-- A status and flags reported on a ticket (0xFFF: none). -/
def reportTicket (c t status flags : Nat) (s : State) : State :=
  if t = 0xFFF then s
  else onTicket c t (fun k => { k with status := firstStatus k.status status, flags := k.flags ||| flags }) s

/-- A status and flags reported for an item, unless it has completed (R370). -/
def reportItem (n status flags : Nat) (s : State) : State :=
  onItem n (fun i =>
    if i.complete || i.completing then i
    else { i with status := firstStatus i.status status, flags := i.flags ||| flags }) s

/-- A status and flags reported for a tile's work: on its item and on its ticket. -/
def report (t : Tile) (status flags : Nat) (s : State) : State :=
  reportTicket t.origin t.ticket status flags (reportItem t.ledger status flags s)

/-! ### Service requests -/

/-- An event latched in SRQ_EVT (Table 16.5). -/
def raise (line : Nat) (s : State) : State := setRegBit R.SRQ_EVT line s

/-! ### Domains -/

/-- A read through the register port: nothing takes it while the REG domain is in reset. -/
def viaRead (s : State) (o : Host.Outcome State Fault Refusal) : Host.Outcome State Fault Refusal :=
  if clkUp s 20 then o else .next s

/-- A write through the register port: nothing takes it while the REG domain is in reset, and its read data is 0
(Table 15.1). -/
def viaPort (s : State) (f : State → Host.Outcome State Fault Refusal) : Host.Outcome State Fault Refusal :=
  if clkUp s 20 then f { s with regOut := 0 } else .next s

/-- Whether a unit of Table 14.1 is out of service. -/
def unitOut (s : State) (cls i : Nat) : Bool := s.reserve.out.contains (cls, i)

/-- Whether a port is missing at roll call: class 7 a memory port, 8 an ingress port, 9 an egress port, 10 the logit
ports (R504). -/
def portMissing (s : State) (cls i : Nat) : Bool :=
  s.boot.missing.any (fun u => decide (u.cls.toNat = cls) && decide (u.idx.toNat = i))

/-- Units of a class built, without spares (Table 14.1). -/
def builtUnits (z : Size) (cls : Nat) : Nat :=
  match cls with
  | 0 => z.vaultBanks
  | 1 => z.sorterTiles
  | 2 => z.mintLanes
  | 3 => z.clearLanes
  | 4 => z.notaryUnits
  | 5 => z.exchUnits
  | 6 => z.clerks
  | _ => 0

/-- Spares of a class built. -/
def builtSpares (z : Size) (cls : Nat) : Nat :=
  match cls with
  | 0 => 1
  | 1 => z.sorterSpares
  | 2 => z.mintSpares
  | 3 => z.clearSpares
  | _ => 0

/-- Spares of a class that stand in for no unit and are in service. -/
def freeSpares (s : State) (cls : Nat) : List Nat :=
  let n := builtUnits s.build.size cls
  (List.range (builtSpares s.build.size cls)).map (fun i => n + i)
    |>.filter (fun i => !(s.reserve.stand.any (fun x => x.1 == cls && x.2.2 == i)) && !unitOut s cls i)

/-- Units of a class in service: those built, less those out of service with no spare standing in. -/
def unitsUp (s : State) (cls : Nat) : Nat :=
  ((List.range (builtUnits s.build.size cls)).filter (fun i =>
    !unitOut s cls i || s.reserve.stand.any (fun x => x.1 == cls && x.2.1 == i))).length

/-- A unit a stream uses: its own, or the next in service in ascending order modulo the number built
(R232, R310). -/
def servingUnit (s : State) (cls u : Nat) : Nat :=
  let n := builtUnits s.build.size cls
  match (List.range n).find? (fun k => !unitOut s cls ((u + k) % n)) with
  | some k => (u + k) % n
  | none => u

end Sys2Proof.Machine
end

