-- ==== Sys2Proof/Machine/Utf8.lean ====
section
/-!
DEFINITION. UTF-8 as R154 to R157 define it: well-formed sequences, the incomplete prefix at the end of a run
of bytes, and maximal subparts.
-/

namespace Sys2Proof.Machine

/-- What the bytes at a position spell. -/
inductive Utf8 where
  /-- a character of `n` bytes -/
  | char (cp n : Nat)
  /-- a maximal subpart of `n` bytes (R156) -/
  | bad (n : Nat)
  /-- a well-formed prefix that the bytes end inside (R155) -/
  | more
  deriving DecidableEq, Repr

/-- Length of the sequence a lead byte begins and the range of its second byte (Table 3-7 of the Unicode
Standard); length 0 for a byte that begins none. -/
def utf8Lead (b : Nat) : Nat × Nat × Nat :=
  if b < 0x80 then (1, 0, 0)
  else if b < 0xC2 then (0, 0, 0)
  else if b < 0xE0 then (2, 0x80, 0xBF)
  else if b = 0xE0 then (3, 0xA0, 0xBF)
  else if b = 0xED then (3, 0x80, 0x9F)
  else if b < 0xF0 then (3, 0x80, 0xBF)
  else if b = 0xF0 then (4, 0x90, 0xBF)
  else if b < 0xF4 then (4, 0x80, 0xBF)
  else if b = 0xF4 then (4, 0x80, 0x8F)
  else (0, 0, 0)

/-- Whether a byte continues a sequence. -/
def isCont (b : Nat) : Bool := decide (0x80 ≤ b) && decide (b ≤ 0xBF)

/-- Decodes the first character of a run of bytes. -/
def utf8Next : List Byte → Utf8
  | [] => .more
  | b0 :: bs =>
    let (n, lo, hi) := utf8Lead b0.toNat
    if n = 0 then .bad 1
    else if n = 1 then .char b0.toNat 1
    else match bs with
      | [] => .more
      | b1 :: bs =>
        if b1.toNat < lo ∨ hi < b1.toNat then .bad 1
        else if n = 2 then .char (bits b0.toNat 0 5 * 64 + bits b1.toNat 0 6) 2
        else match bs with
          | [] => .more
          | b2 :: bs =>
            if !isCont b2.toNat then .bad 2
            else if n = 3 then
              .char (bits b0.toNat 0 4 * 4096 + bits b1.toNat 0 6 * 64 + bits b2.toNat 0 6) 3
            else match bs with
              | [] => .more
              | b3 :: _ =>
                if !isCont b3.toNat then .bad 3
                else .char (bits b0.toNat 0 3 * 262144 + bits b1.toNat 0 6 * 4096
                  + bits b2.toNat 0 6 * 64 + bits b3.toNat 0 6) 4

/-- A run of bytes as characters and maximal subparts, with the bytes each takes, and the prefix left at the
end. -/
def utf8Scan (fuel : Nat) (bs : List Byte) : List (Utf8 × List Byte) × List Byte :=
  match fuel with
  | 0 => ([], bs)
  | f + 1 =>
    if bs.isEmpty then ([], [])
    else match utf8Next bs with
      | .more => ([], bs)
      | .char cp n =>
        let (r, rest) := utf8Scan f (bs.drop n)
        ((.char cp n, bs.take n) :: r, rest)
      | .bad n =>
        let (r, rest) := utf8Scan f (bs.drop n)
        ((.bad n, bs.take n) :: r, rest)

/-- The UTF-8 bytes of a character. -/
def utf8Enc (c : Nat) : List Byte :=
  if c < 0x80 then [BitVec.ofNat 8 c]
  else if c < 0x800 then [BitVec.ofNat 8 (0xC0 + c / 64), BitVec.ofNat 8 (0x80 + c % 64)]
  else if c < 0x10000 then
    [BitVec.ofNat 8 (0xE0 + c / 4096), BitVec.ofNat 8 (0x80 + c / 64 % 64), BitVec.ofNat 8 (0x80 + c % 64)]
  else
    [BitVec.ofNat 8 (0xF0 + c / 262144), BitVec.ofNat 8 (0x80 + c / 4096 % 64),
      BitVec.ofNat 8 (0x80 + c / 64 % 64), BitVec.ofNat 8 (0x80 + c % 64)]

/-- The UTF-8 bytes of a run of characters. -/
def utf8EncAll (cs : List Nat) : List Byte := (cs.map utf8Enc).flatten

/-- The characters of well-formed bytes. -/
def utf8Chars (bs : List Byte) : List Nat :=
  (utf8Scan (bs.length + 1) bs).1.filterMap (fun x =>
    match x.1 with
    | .char cp _ => some cp
    | _ => none)

/-- Whether a byte begins a character (R180). -/
def isBoundary (b : Byte) : Bool := !isCont b.toNat

end Sys2Proof.Machine
end

