-- ==== Sys2Proof/Machine/Carry.lean ====
section
/-!
DEFINITION. Carry records (R370, Tables 11.4 and 11.23): the per-stream state of ASSAY, SORTER and ESCROW as
the journal keeps it, and its reading back.
-/

namespace Sys2Proof.Machine

/-- A carry record that holds nothing. -/
def Carry.empty : Carry := { assay := AssayCtx.empty, sorter := SorterCtx.empty, escrow := EscrowCtx.empty }

/-- A section of a carry record: header and content, padded so that the next begins at a multiple of 4. -/
def carrySection (part : Nat) (body : List Byte) : List Byte :=
  padUp 4 (toLE 2 part ++ toLE 2 body.length ++ body)

/-- ASSAY's section; none when it holds nothing. -/
def assaySection (a : AssayCtx) : List Byte :=
  if a.carry.isEmpty && a.seg.isEmpty && a.partMatch.isEmpty then []
  else
    let seg := utf8EncAll a.seg
    carrySection 1 (toLE 1 a.carry.length ++ a.carry ++ toLE 2 seg.length ++ seg
      ++ toLE 1 a.partMatch.length ++ a.partMatch)

/-- What an alternative's automaton says after the bytes seen; an absent state never matches. -/
def altVerdict (a : Alt) (st : Option Nat) : Verdict :=
  match st with
  | none => .miss
  | some k => (a.verdicts[k]?).getD .miss

/-- The alternatives of one stripe with their states. -/
def stripeAlts (im : TokImage) (c : SorterCtx) (g : Nat) : List (Alt × Option Nat) :=
  (im.alts.zip c.states).filter (fun p => decide (p.1.addr / 1024 = g))

/-- The lowest-addressed match a list of alternatives has found: its end and its row. -/
def bestMatch (n : Nat) : List (Alt × Option Nat) → Option (Nat × Nat)
  | [] => none
  | (a, st) :: rest =>
    match altVerdict a st with
    | .hit back => if back < n then some (n - back, a.addr % 1024) else bestMatch n rest
    | .pending back true => some (n - back, a.addr % 1024)
    | _ => bestMatch n rest

/-- Where the piece ends as far as the search has gone: by the lowest-addressed alternative that can still be or
has become a match. -/
def pieceEnd (n : Nat) : List (Alt × Option Nat) → Option Nat
  | [] => none
  | (a, st) :: rest =>
    match altVerdict a st with
    | .hit back => if back < n then some (n - back) else pieceEnd n rest
    | .pending back _ => some (n - back)
    | .miss => pieceEnd n rest

/-- Whether no alternative can still change a stripe's result: the lowest-addressed one that has not missed has matched. -/
def searchFixed (n : Nat) : List (Alt × Option Nat) → Bool
  | [] => true
  | (a, st) :: rest =>
    match altVerdict a st with
    | .hit back => if back < n then true else searchFixed n rest
    | .pending _ _ => false
    | .miss => searchFixed n rest

/-- A list of numbers as one number, each list as another. -/
def natsCode : List Nat → Nat
  | [] => 0
  | a :: l => 2 ^ a * (2 * natsCode l + 1)

/-- The list that a number stands for, with `a` counted of its first element. -/
def natsOf : Nat → Nat → Nat → List Nat
  | 0, _, _ => []
  | f + 1, a, n => if n = 0 then [] else if n % 2 = 1 then a :: natsOf f 0 (n / 2) else natsOf f (a + 1) (n / 2)

/-- The state of a stripe's automaton as a number: how many bytes of the open piece went out as segments, and the state of
each alternative. -/
def statesCode (x : Nat × List (Option Nat)) : Nat :=
  natsCode (x.1 :: x.2.map (fun st => match st with | none => 0 | some k => k + 1))

/-- The state that a number stands for. -/
def statesOf (n : Nat) : Nat × List (Option Nat) :=
  match natsOf (n.log2 + 1) 0 n with
  | [] => (0, [])
  | k :: l => (k, l.map (fun j => match j with | 0 => none | m + 1 => some m))

/-- Two numbers exchanged. -/
def exchangeNo (p : Nat × Nat) (n : Nat) : Nat := if n = p.1 then p.2 else if n = p.2 then p.1 else n

/-- The number of an automaton state as an image's rows number it. -/
def searchState (fp g : Nat) (x : Nat × List (Option Nat)) : Nat :=
  (Config.searchOrder fp g).foldl (fun n p => exchangeNo p n) (statesCode x)

/-- The automaton state of a number. -/
def searchRead (fp g n : Nat) : Nat × List (Option Nat) :=
  statesOf ((Config.searchOrder fp g).foldr exchangeNo n)

/-- The search state of one gang tile (Table 11.23). -/
def searchWord (im : TokImage) (c : SorterCtx) (g : Nat) : Nat :=
  let alts := stripeAlts im c g
  let n := c.cut + c.buf.length
  let (e, r) := (bestMatch n alts).getD (0, 0)
  searchState im.fingerprint g (c.cut, alts.map Prod.snd) % 2 ^ 32 + min e 256 * 2 ^ 32
    + (if e = 0 then 0 else r) * 2 ^ 41 + flag (searchFixed n alts) * 2 ^ 51

/-- How many of the held bytes belong to the open piece; the rest is look-ahead (log entry 20). -/
def openPieceLen (im : TokImage) (c : SorterCtx) : Nat :=
  match pieceEnd (c.cut + c.buf.length) (im.alts.zip c.states) with
  | some e => if e ≤ c.cut then c.buf.length else min (e - c.cut) c.buf.length
  | none => c.buf.length

/-- SORTER's section; none when it holds nothing: no byte of a piece, and the next byte begins a text (R175, R370). -/
def sorterSection (im : Option TokImage) (c : SorterCtx) : List Byte :=
  if c.buf.isEmpty && c.run.isEmpty && c.startSym && decide (c.cut = 0) then []
  else
    let held := c.buf ++ c.run
    let k := match im with
      | some i => if c.run.isEmpty then openPieceLen i c else held.length
      | none => held.length
    let words := match im with
      | some i => ((List.range i.gang).map (fun g => toLE 8 (searchWord i c g))).flatten
      | none => []
    carrySection 2 (toLE 1 (flag c.startSym) ++ toLE 2 k ++ held.take k
      ++ toLE 1 (held.length - k) ++ held.drop k ++ words)

/-- ESCROW's section; none when it holds nothing. -/
def escrowSection (c : EscrowCtx) : List Byte :=
  if c.carry.isEmpty && c.hold.isEmpty then []
  else carrySection 3 (toLE 1 c.carry.length ++ c.carry ++ c.hold)

/-- The carry record of a stream's state; empty when nothing is carried. -/
def carryRecord (im : Option TokImage) (c : Carry) : List Byte :=
  assaySection c.assay ++ sorterSection im c.sorter ++ escrowSection c.escrow

/-- The sections of a carry record read back. -/
def carrySections (fuel : Nat) (bs : List Byte) : List (Nat × List Byte) :=
  match fuel with
  | 0 => []
  | f + 1 =>
    let part := leAt bs 0 1
    let len := leAt bs 2 2
    if part = 0 then []
    else (part, (bs.drop 4).take len) :: carrySections f (bs.drop (ceilDiv (4 + len) 4 * 4))

/-- ASSAY's state from its section. -/
def readAssay (b : List Byte) : AssayCtx :=
  let c := leAt b 0 1
  let n := leAt b (1 + c) 2
  let m := leAt b (3 + c + n) 1
  { carry := (b.drop 1).take c, seg := utf8Chars ((b.drop (3 + c)).take n),
    partMatch := (b.drop (4 + c + n)).take m, teller := (b.drop 1).take c, follow := false }

/-- SORTER's state from its section, over the image its stream uses and that image's generation. -/
def readSorter (im : Option (TokImage × Nat)) (b : List Byte) : SorterCtx :=
  let n := leAt b 1 2
  let m := leAt b (3 + n) 1
  let back := match im with
    | some (i, _) => (List.range i.gang).map (fun g =>
        searchRead i.fingerprint g (leAt b (4 + n + m + 8 * g) 4))
    | none => []
  { SorterCtx.empty with
    startSym := decide (leAt b 0 1 % 2 = 1),
    buf := (b.drop 3).take n ++ (b.drop (4 + n)).take m,
    cut := (back.map Prod.fst).foldl max 0,
    states := (back.map Prod.snd).flatten,
    gen := match im with
      | some (_, g) => g
      | none => 0 }

/-- The per-stream state a carry record holds, over the image and the stop strings of the stream. -/
def readCarry (im : Option (TokImage × Nat)) (stops : List (List Byte)) (bs : List Byte) : Carry :=
  (carrySections 4 bs).foldl (fun c p =>
    if p.1 = 1 then { c with assay := readAssay p.2 }
    else if p.1 = 2 then { c with sorter := readSorter im p.2 }
    else if p.1 = 3 then
      { c with escrow := { c.escrow with
          carry := (p.2.drop 1).take (leAt p.2 0 1), hold := p.2.drop (1 + leAt p.2 0 1) } }
    else c) { Carry.empty with escrow := { EscrowCtx.empty with stops := stops } }

end Sys2Proof.Machine
end

