-- ==== Sys2Proof/Machine/Coins.lean ====
section
/-!
DEFINITION. Buying coins (R426 to R433): the price in force, the classes, and the one operation by which a
command buys what it costs and takes effect, or waits.
-/

namespace Sys2Proof.Machine

/-- The price in force of a base price in cents (R430). -/
def priceNow (s : State) (base : Nat) : Nat := ceilDiv (base * s.purse.scale) 1024

/-- The price in force of one unit of a bill: that of its base price, and of a second one bought in the same purchase,
which stands above bit 16 (R432). -/
def unitPrice (s : State) (b : Nat) : Nat := priceNow s (b % 65536) + priceNow s (b / 65536)

/-- Cents taken from the balance and counted as spent. -/
def spend (c : Nat) (s : State) : State :=
  bump64 R.PUR_SPENT_LO c { s with purse := { s.purse with
    balance := s.purse.balance - c, sinceTick := s.purse.sinceTick + c, period := s.purse.period + c } }

/-- As many units of a bill bought as the balance covers, and the bill left; none while REF is lost (R474). -/
def payBill : List (Nat × Nat) → State → State × List (Nat × Nat)
  | [], s => (s, [])
  | (b, n) :: rest, s =>
    let p := unitPrice s b
    let k := if p = 0 then n else if clkUp s 22 then min n (s.purse.balance / p) else 0
    let s := spend (k * p) s
    if k = n then payBill rest s else (s, (b, n - k) :: rest)

/-- Rank of a class: with DECODE_FIRST clear, classes 0 and 1 form one class (R427). -/
def classRank (s : State) (cls : Nat) : Nat :=
  if cls = 2 then 2 else if bit (reg s R.PUR_CTRL) 1 then cls else 0

/-- Whether a purchase of the class must wait behind one that waits already (R427). -/
def mustWait (s : State) (cls : Nat) : Bool :=
  s.purse.queue.any (fun p => decide (classRank s p.cls ≤ classRank s cls))

/-- A purchase joins the queue. -/
def joinPurse (p : Purchase) (s : State) : State :=
  { s with purse := { s.purse with queue := s.purse.queue ++ [p] } }

/-- A command buys its bill and takes effect, or waits for coins; a run-ahead purchase that is not served
at once is dropped (R428). A command that waits already is not bought twice. -/
def buy (cls : Nat) (bill : List (Nat × Nat)) (cmd : Instr) (onWait body : State → State) (s : State) : State :=
  if s.purse.queue.any (fun p => decide (p.what = Paid.command cmd)) then s
  else if bill.all (fun x => x.1 * x.2 == 0) then body s
  else if mustWait s cls then
    if cls = 2 then bump R.PUR_RA_SKIP 1 s
    else onWait (joinPurse { cls := cls, bill := bill, what := .command cmd } s)
  else if cls = 2 then
    match payBill bill s with
    | (s', []) => body s'
    | _ => bump R.PUR_RA_SKIP 1 s
  else
    match payBill bill s with
    | (s', []) => body s'
    | (s', rest) => onWait (joinPurse { cls := cls, bill := rest, what := .command cmd } s')

/-- Base prices of the Lambiop opcodes in cents (Table 2.6): the fixed part. -/
def opPrice (op : Nat) : Option Nat :=
  if op = 0x03 then some 4
  else if 0x01 ≤ op ∧ op ≤ 0x10 then some 2
  else if op = 0x11 then some 3
  else if 0x18 ≤ op ∧ op ≤ 0x21 then some 2
  else if op = 0x22 ∨ op = 0x23 then some 3
  else if op = 0x24 ∨ op = 0x25 then some 5
  else if op = 0x30 then some 120
  else if op = 0x31 then some 20
  else if op = 0x32 then some 50
  else if op = 0x40 then some 10
  else if op = 0x41 then some 5
  else if op = 0x44 ∨ op = 0x45 ∨ op = 0x46 then some 2
  else if op = 0x50 ∨ op = 0x51 ∨ op = 0x52 then some 250
  else if op = 0x60 then some 5
  else if op = 0x61 then some 24
  else if op = 0x62 then some 0
  else if op = 0x63 then some 3
  else if op = 0x70 then some 10
  else if op = 0x78 then some 2
  else none

/-- Base prices of the station operations in cents (Table 13.3). -/
def stationPrice (code : Nat) : Option Nat :=
  match code with
  | 0x01 => some 250
  | 0x02 => some 10
  | 0x03 => some 100
  | 0x04 => some 40
  | 0x05 => some 1
  | 0x06 => some 64
  | 0x07 => some 1
  | 0x08 => some 2
  | 0x09 => some 24
  | 0x0A => some 40
  | 0x0B => some 3
  | 0x0C => some 328
  | 0x0D => some 341
  | 0x0E => some 314
  | 0x0F => some 423
  | 0x10 => some 669
  | 0x11 => some 710
  | 0x12 => some 232
  | 0x13 => some 5
  | 0x14 => some 2
  | 0x15 => some 6
  | 0x16 => some 1
  | _ => none

/-- The base price of a code as PRICE and PUR_PSEL name it: bit 8 set for a station operation. -/
def codePrice (code : Nat) : Option Nat :=
  if bit code 8 then stationPrice (bits code 0 8) else opPrice (bits code 0 8)

end Sys2Proof.Machine
end

