-- ==== Sys2Proof/Machine/Stack.lean ====
section
/-!
DEFINITION. The stack interface (R330 to R356): regions, the interleave hash, locations and ports, and the
starting and sending of accesses. What the end of an access does stands in Finish.lean.
-/

namespace Sys2Proof.Machine

/-- Key of hash row `j`'s low half; the high half follows. -/
def hashKey (j : Nat) : Nat := 0x10000 + 2 * j

/-- Row `j` of STK_HASH, a mask over address bits [47:6] (R337). -/
def hashRow (s : State) (j : Nat) : Nat := reg s (hashKey j) + 2 ^ 32 * reg s (hashKey j + 1)

/-- Keys of region `r`'s base halves and size. -/
def regionKey (r : Nat) : Nat := 0x11000 + 4 * r

/-- Base of region `r` (Table 10.2). -/
def regionBase (s : State) (r : Nat) : Nat := reg s (regionKey r) + 2 ^ 32 * reg s (regionKey r + 1)

/-- Size of region `r` in bytes; 0 while it is not set. -/
def regionSize (s : State) (r : Nat) : Nat := reg s (regionKey r + 2) * 65536

/-- Whether a span lies wholly in a region that is set. -/
def inRegion (s : State) (r a n : Nat) : Bool :=
  decide (regionSize s r ≠ 0) && decide (regionBase s r ≤ a)
    && decide (a + n ≤ regionBase s r + regionSize s r)

/-- Whether two spans of bytes overlap. -/
def overlaps (a n b m : Nat) : Bool := decide (0 < n) && decide (0 < m) && decide (a < b + m) && decide (b < a + n)

/-- Stack of an address (R330). -/
def stackOf (s : State) (a : Nat) : Nat := a / 2 ^ regField s R.STK_GEOM 0 6 % 16

/-- Bank location of an address within its stack (R337). -/
def bankLoc (s : State) (a : Nat) : Nat :=
  ((List.range 9).map (fun j => flag (parity 42 (bits a 6 42 &&& hashRow s j)) * 2 ^ j)).sum

/-- Location of the line of an address (Table 10.1). -/
def location (s : State) (a : Nat) : Nat := bankLoc s a + 512 * stackOf s a

/-- Memory ports built: in proportion to Table 0.4 (the sentence after Table 15.1). -/
def memPorts (z : Size) : Nat := z.clerks

/-- Whether a memory port is in service: its power domain and clock domain are up, no link error stands. -/
def portUp (s : State) (p : Nat) : Bool :=
  decide (p < memPorts s.build.size) && pdUp s (26 + p % 2) && !(s.power.linkDown.contains p) && !portMissing s 7 p

/-- CRIPPLED (Table 16.3): PD_LEDGER missed roll call, or both memory ports of a pair did. -/
def crippledNow (s : State) : Bool :=
  let n := memPorts s.build.size
  portMissing s 11 0
    || (List.range n).any (fun p => portMissing s 7 p && (decide (n ≤ p ^^^ 1) || portMissing s 7 (p ^^^ 1)))

/-- The port that carries a location: its own, or its partner when it is out of service (R332, Table 11.10). -/
def portFor (s : State) (loc : Nat) : Nat :=
  let p := bits loc 0 4 % memPorts s.build.size
  if portUp s p then p else p ^^^ 1

/-- Whether a location lies on the channel that is draining or quiesced (R355). -/
def quiescing (s : State) (loc : Nat) : Bool :=
  decide (s.reserve.quiesce ≠ 0) && decide (bits loc 0 4 = regField s R.STK_QCHAN 0 4)
    && decide (bits loc 9 4 = regField s R.STK_QCHAN 4 4)

/-- Tags in use, as port and tag. -/
def tagsUsed (s : State) : List (Nat × Nat) :=
  ((s.accesses.map Access.lines).flatten.filter (fun l => l.st = .out ∨ l.st = .backoff)).map
    (fun l => (l.port, l.tag))

/-- The lowest free tag of a port, none when all 1,024 are in use (R468). -/
def freeTag (used : List (Nat × Nat)) (p : Nat) : Option Nat :=
  (List.range 1024).find? (fun t => !used.contains (p, t))

/-- Whether an earlier access still writes a line (R333). -/
def writing (before : List Access) (addr : Nat) : Bool :=
  before.any (fun a => decide (a.kind = .write) && a.lines.any (fun l =>
    decide (l.addr = addr) && (match l.st with | .gone _ => false | _ => true)))

/-- Messages outstanding in a list of accesses (R348). -/
def messagesOut (xs : List Access) : Nat :=
  ((xs.filter (fun a => decide (a.kind = .message))).map
    (fun a => (a.lines.filter (fun l => decide (l.st = .out) || decide (l.st = .backoff))).length)).sum

/-- Whether an unsent line of an access must wait, `before` being the accesses that arose earlier and `after` the later
ones: for its port or channel, for the block's own write of the line that a read follows (R333), or for a message while
1,024 are outstanding (R348). -/
def lineHeld (s : State) (before after : List Access) (a : Access) (l : Line) : Bool :=
  let p := portFor s l.loc
  !portUp s p || !clkUp s (5 + p) || quiescing s l.loc
    || (decide (a.kind = .read) && writing before l.addr)
    || (decide (a.kind = .message) && decide (1024 ≤ messagesOut before + messagesOut after))

/-- The lines of one access with every unsent line sent that can be. -/
def sendLines (s : State) (before after : List Access) (a : Access) :
    List Line → List (Nat × Nat) → List Line × List (Nat × Nat)
  | [], used => ([], used)
  | l :: ls, used =>
    if l.st ≠ .unsent then
      let (r, u) := sendLines s before after a ls used
      (l :: r, u)
    else
      let p := portFor s l.loc
      if lineHeld s before after a l then
        let (r, u) := sendLines s before after a ls used
        (l :: r, u)
      else match freeTag used p with
        | none =>
          let (r, u) := sendLines s before after a ls used
          (l :: r, u)
        | some t =>
          let (r, u) := sendLines s before after a ls ((p, t) :: used)
          ({ l with port := p, tag := t, st := .out } :: r, u)

/-- Whether an access is run-ahead work (R52, R262). -/
def Job.runAhead : Job → Bool
  | .ahead _ _ => true
  | _ => false

/-- The accesses of demand work, or those of run-ahead work, with their lines sent that can be, in the order in which they
arose. -/
def sendFrom (s : State) (ahead : Bool) : List Access → List Access → List (Nat × Nat) → List Access
  | done, [], _ => done
  | done, a :: as, used =>
    if a.paid && (a.job.runAhead == ahead) then
      let (ls, u) := sendLines s done as a a.lines used
      sendFrom s ahead (done ++ [{ a with lines := ls }]) as u
    else sendFrom s ahead (done ++ [a]) as used

/-- The state with the lines sent of demand work, or of run-ahead work. -/
def sendPart (ahead : Bool) (s : State) : State :=
  { s with accesses := sendFrom s ahead [] s.accesses (tagsUsed s) }

/-- Sends every line that can be sent, those of demand work first (R53). -/
def sendAll (s : State) : State := sendPart true (sendPart false s)

/-- A line not yet sent. -/
def newLine (s : State) (a : Nat) (d : List Byte) : Line :=
  { addr := a / 64 * 64, loc := location s a, port := 0, tag := 0, data := d, retries := 0, st := .unsent }

/-- The regions of Table 10.2 that an access's lines lie in; none named where its requester has checked them, or where they
lie in the mirrors, the DAYBOOK, an output region, the repair map or an image. -/
def Job.regions : Job → List Nat
  | .draftBlock _ _ => [1]
  | .overflow _ _ => [2]
  | .detok _ _ => [2]
  | .advanceRead _ _ => [2, 4]
  | .record _ _ => [2, 3]
  | .patch _ _ => [3]
  | .refill _ _ _ _ => [3]
  | .ckptBack _ _ => [3]
  | .replayCkpt _ => [3]
  | .maskRead _ _ _ _ => [3, 5]
  | .ahead _ _ => [4]
  | .placedGrammar _ _ => [4]
  | .placedSet _ _ => [5]
  | .golden _ _ => [6, 7]
  | .placed _ _ => [2, 6, 7]
  | .replacedTables _ => [2, 6, 7]
  | _ => []

/-- Whether a line lies outside the regions of its access. -/
def outsideLine (s : State) (job : Job) (l : Line) : Bool :=
  !job.regions.isEmpty && !job.regions.any (fun r => inRegion s r l.addr 64)

/-- The lines of an access: one that lies outside its regions is not issued (R334). What work that needs it then has is not
stated, and a free value (log entry 186). -/
def issuedLines (job : Job) (lines : List Line) (s : State) : List Line × State :=
  if lines.any (outsideLine s job) then
    let (v, s') := takeFree s
    (lines.map (fun l => if outsideLine s job l then { l with data := padTo 64 (toLE 64 v), st := .gone St.OK } else l), s')
  else (lines, s)

/-- Starts an access: its lines leave at once when its bill is paid (an empty bill: covered by the price of
what asked for it, R433), else when PURSE serves its purchase. -/
def startAccess (cls : Nat) (bill : List (Nat × Nat)) (kind : ReqKind) (req : Nat) (lines : List Line) (job : Job)
    (s : State) : State :=
  let n := s.nextAccess
  let (lines, s) := issuedLines job lines s
  let (s, paid) :=
    if bill.all (fun x => x.1 * x.2 == 0) then (s, true)
    else if mustWait s cls then
      (joinPurse { cls := cls, bill := bill, what := .access n } s, false)
    else match payBill bill s with
      | (s', []) => (s', true)
      | (s', rest) => (joinPurse { cls := cls, bill := rest, what := .access n } s', false)
  sendAll { s with
    nextAccess := n + 1,
    accesses := s.accesses ++ [{ ident := n, kind := kind, req := req, lines := lines, paid := paid,
                                 job := job }] }

/-- The bill of `n` lines read or written at code 0x02 (Table 13.3). -/
def lineBill (n : Nat) : List (Nat × Nat) := [(10, n)]

/-- The lines of a span of bytes to be read. -/
def readSpan (s : State) (a n : Nat) : List Line :=
  let first := a / 64 * 64
  (List.range ((a + n - first + 63) / 64)).map (fun i => newLine s (first + 64 * i) [])

/-- The lines of a run of bytes to be written from a 64-byte boundary, the last padded with 0. -/
def writeSpan (s : State) (a : Nat) (bs : List Byte) : List Line :=
  (chunksOf (bs.length + 1) 64 bs).mapIdx (fun i c => newLine s (a + 64 * i) (padTo 64 c))

/-- The row's tag and the location of a message. -/
def Job.message? : Job → Option (Nat × Nat)
  | .message g l => some (g, l)
  | .abandoned m => m
  | _ => none

/-- An access whose work is over: what it has sent is still to be answered, and nothing more leaves. -/
def Access.abandon (a : Access) : Access :=
  { a with
    job := .abandoned a.job.message?,
    lines := a.lines.map (fun l => if l.st = .out then l else { l with st := .gone 0 }) }

/-- Gives up every access whose work satisfies a test, with its purchase; lines on their way keep their tags until they
are answered (R355). -/
def dropAccesses (p : Access → Bool) (s : State) : State :=
  let gone := (s.accesses.filter p).map Access.ident
  { s with
    accesses := (s.accesses.filter (fun a => !p a || a.lines.any (fun l => decide (l.st = .out)))).map
      (fun a => if p a then a.abandon else a),
    purse := { s.purse with queue := s.purse.queue.filter (fun q =>
      match q.what with
      | .access n => !gone.contains n
      | _ => true) } }

/-- A failed access of requester `req`: the counter, the log and the status (Tables 10.23 and 10.24). -/
def logFailure (req status : Nat) (l : Line) (s : State) : State :=
  let s := bump (if status = St.STACK_ERR then R.STK_UE else R.STK_BUSY) 1 s
  logFirst R.STK_ERR_LO (l.loc + req * 2 ^ 13 + status * 2 ^ 17) R.STK_ERR_HI (l.addr / 65536) s

end Sys2Proof.Machine
end

