-- ==== Sys2Proof/Machine/Journal.lean ====
section
/-!
DEFINITION. The journal (R362 to R376): entries and their layout, the two rings, the writing of an entry with
its text log record to both mirrors, and the completion of items.
-/

namespace Sys2Proof.Machine

/-- Whether the journal is open (R533) and the block still takes work (R444). -/
def journalOpen (s : State) : Bool := s.ledger.ready && !bit (reg s R.RSV_STAT) 7

/-- log2 of the journal's entries. -/
def jlog2 (s : State) : Nat := regField s R.LDG_SIZE 0 5

/-- log2 of the text log's bytes. -/
def tlog2 (s : State) : Nat := regField s R.LDG_SIZE 8 6

/-- Base of a mirror. -/
def mirrorBase (s : State) (m : Nat) : Nat :=
  if m = 0 then reg s R.LDG_M0BASE_LO + 2 ^ 32 * reg s R.LDG_M0BASE_HI
  else reg s R.LDG_M1BASE_LO + 2 ^ 32 * reg s R.LDG_M1BASE_HI

/-- Bytes of a mirror (R362). -/
def mirrorLen (s : State) : Nat := 64 * 2 ^ jlog2 s + 2 ^ tlog2 s

/-- The mirrors not lost. -/
def liveMirrors (s : State) : List Nat :=
  (if s.ledger.lost0 then [] else [0]) ++ (if s.ledger.lost1 then [] else [1])

/-- Slot `j` of a mirror's ring (R365). -/
def slotAddr (s : State) (m j : Nat) : Nat := mirrorBase s m + 64 * (j % 2 ^ jlog2 s)

/-- Byte `off` of a mirror's text log (R362). -/
def textAddr (s : State) (m off : Nat) : Nat := mirrorBase s m + 64 * 2 ^ jlog2 s + off % 2 ^ tlog2 s

/-- The mirror an address lies in. -/
def mirrorOf (s : State) (a : Nat) : Nat :=
  if mirrorBase s 0 ≤ a ∧ a < mirrorBase s 0 + mirrorLen s then 0 else 1

/-- An entry of a type and stream, not carried, with the fields of Table 11.1. -/
def entry (etype stream status param ledger a b c : Nat) (replay : Bool) : JEntry :=
  { etype := etype, stream := stream, status := status, carried := false, replay := replay, param := param,
    ledger := ledger, jseq := 0, a := a, b := b, c := c, d := 0 }

/-- Bytes 0 to 59 of an entry (Table 11.1). -/
def entryBody (e : JEntry) : List Byte :=
  toLE 8 (e.etype % 256 + e.stream % 4096 * 2 ^ 8 + e.status % 256 * 2 ^ 20 + flag e.carried * 2 ^ 28
      + flag e.replay * 2 ^ 29 + e.param % 2 ^ 32 * 2 ^ 32)
    ++ toLE 8 e.ledger ++ toLE 8 e.jseq ++ toLE 8 e.a ++ toLE 8 e.b ++ toLE 8 e.c ++ toLE 8 e.d ++ toLE 4 0

/-- The 64 bytes of an entry with its check. -/
def encodeEntry (e : JEntry) : List Byte := entryBody e ++ toLE 4 (crc32c (entryBody e))

/-- An entry read back; none when its check fails. -/
def decodeEntry (bs : List Byte) : Option JEntry :=
  if leAt bs 60 4 = crc32c (bs.take 60) then
    let w := leAt bs 0 8
    some { etype := bits w 0 8, stream := bits w 8 12, status := bits w 20 8, carried := bit w 28,
           replay := bit w 29, param := bits w 32 32, ledger := leAt bs 8 8, jseq := leAt bs 16 8,
           a := leAt bs 24 8, b := leAt bs 32 8, c := leAt bs 40 8, d := leAt bs 48 8 }
  else none

/-- Whether an entry names a text log record (Table 11.2). -/
def JEntry.inLog (e : JEntry) : Bool :=
  (decide (e.etype = 1) && bit e.b 63) || (decide (e.etype = 4) && bit e.a 24) || decide (e.etype = 6)

/-- The text log offset an entry names. -/
def JEntry.logOff (e : JEntry) : Nat := e.b % 2 ^ 63

/-- The entry with the offset of its record: IN_LOG for an ACCEPT, CARRY for a COMPLETE (Table 11.2). -/
def JEntry.withLog (e : JEntry) (off : Nat) : JEntry :=
  if e.etype = 1 then { e with b := off + 2 ^ 63 }
  else if e.etype = 4 then { e with a := setBits e.a 24 1 1, b := off }
  else { e with b := off }

/-- Bytes the text log records take. -/
def textUsed (s : State) : Nat := (s.ledger.text.map (fun t => ceilDiv t.2.1 64 * 64)).sum

/-- Slots of the ring that entries will take whose text log record is being written. -/
def slotsReserved (s : State) : Nat :=
  (s.accesses.filter (fun a => match a.job with
    | .logged e _ => decide (e.jseq = 0)
    | _ => false)).length

/-- Whether the journal ring has a free slot that no entry is to take (R375). -/
def ringRoom (s : State) : Bool := decide (s.ledger.ring.length + slotsReserved s < 2 ^ jlog2 s)

/-- Whether the text log has room for a record. -/
def textRoom (s : State) (n : Nat) : Bool := decide (textUsed s + ceilDiv n 64 * 64 ≤ 2 ^ tlog2 s)

/-- Whether the text log record of an earlier event of an entry's stream is still being written: its entry comes first
(R366). -/
def loggingBefore (s : State) (e : JEntry) : Bool :=
  decide (e.etype < 9) && s.accesses.any (fun a => match a.job with
    | .logged d _ => !d.carried && decide (d.stream = e.stream)
    | _ => false)

/-- Whether the next entry can be written now: the LEDGER is up, a mirror is left, the ring has a slot, the text log has room,
the entries of the stream's earlier events have their places, and an acceptance finds a ledger number below 2^62 (R366,
R368, R375, R376). -/
def canWrite (s : State) (e : JEntry) (n : Nat) : Bool :=
  pdUp s 25 && clkUp s 1 && !(liveMirrors s).isEmpty && (ringRoom s || decide (e.jseq ≠ 0)) && textRoom s n
    && !loggingBefore s e && (decide (e.etype ≠ 1) || decide (s.ledger.next < 2 ^ 62))

/-- The number of an acceptance put into what follows it. -/
def After.number (n : Nat) : After → After
  | .accepted c _ => .accepted c n
  | .posted w d _ => .posted w d n
  | x => x

/-- Whether the price of POST, PAY, SETTLE or a TELLER acceptance covers an entry (R433). -/
def priceCovers (e : JEntry) (next : After) : Bool :=
  match next with
  | .paid _ _ _ _ => true
  | .settledBy _ _ _ => true
  | _ => decide (e.etype = 1)

/-- What the text log record of an entry costs: its lines, but for a record of POST, PAY or SETTLE (R433, Table 13.5). -/
def recordBill (e : JEntry) (next : After) (n : Nat) : List (Nat × Nat) :=
  match next with
  | .accepted _ _ => lineBill n
  | _ => if priceCovers e next && !e.carried then [] else lineBill n

/-- What an entry costs beyond the price of the command that writes it (code 0x03, R433): the entries of a stream's work,
which the stations write. -/
def entryBill (e : JEntry) (next : After) : List (Nat × Nat) :=
  if priceCovers e next || e.carried then [] else if 2 ≤ e.etype ∧ e.etype ≤ 8 then [(100, 1)] else []

/-- An entry takes the next place of the ring, unless it has one. -/
def placeEntry (e : JEntry) (s : State) : JEntry × State :=
  if e.jseq ≠ 0 then (e, s)
  else
    let e := { e with jseq := s.ledger.jseq }
    (e, { s with ledger := { s.ledger with jseq := s.ledger.jseq + 1, ring := s.ledger.ring ++ [e] } })

/-- Writes an entry to its slot of every mirror left; an acceptance takes its ledger number here. -/
def writeEntry (e : JEntry) (next : After) (s : State) : State :=
  let n := s.ledger.next
  let takes := decide (e.etype = 1) && decide (e.ledger = 0)
  let next := if takes then next.number n else next
  let s := { s with ledger := { s.ledger with next := if takes then n + 1 else n } }
  let (e, s) := placeEntry { e with ledger := if takes then n else e.ledger } s
  startAccess 0 (entryBill e next) .write 8
    ((liveMirrors s).map (fun m => newLine s (slotAddr s m e.jseq) (encodeEntry e))) (.journal e next) s

/-- The lines of a text log record in one mirror, wrapping at the end of the ring (log entry 21). -/
def textLines (s : State) (m off : Nat) (bs : List Byte) : List Line :=
  (chunksOf (bs.length + 1) 64 bs).mapIdx (fun i c => newLine s (textAddr s m (off + 64 * i)) (padTo 64 c))

/-- Writes a text log record to every mirror left, and then its entry. A copy carried forward takes its place in the ring at
once, so that new entries follow it (Table 11.11). -/
def writeRecord (e : JEntry) (log : List Byte) (next : After) (s : State) : State :=
  let off := s.ledger.thead
  let s := { s with ledger := { s.ledger with
    thead := (off + ceilDiv log.length 64 * 64) % 2 ^ tlog2 s,
    text := s.ledger.text ++ [(off, log.length, log)] } }
  let lines := ((liveMirrors s).map (fun m => textLines s m off log)).flatten
  let (e, s) := if e.carried then placeEntry (e.withLog off) s else (e.withLog off, s)
  let intake := e.carried || (match next with | .accepted _ _ => true | _ => false)
  startAccess (flag intake) (recordBill e next lines.length) .write 8 lines (.logged e next) s

/-- Writes an entry with its text log record, which may be empty. -/
def writeNow (e : JEntry) (log : List Byte) (next : After) (s : State) : State :=
  if log.isEmpty then writeEntry e next s else writeRecord e log next s

/-- An entry of the block: written, or waiting for room behind what waits already (R375). -/
def journal (e : JEntry) (log : List Byte) (next : After) (s : State) : State :=
  if s.ledger.waiting.isEmpty && canWrite s e log.length then writeNow e log next s
  else { s with ledger := { s.ledger with
    waiting := s.ledger.waiting ++ [(e, log, next)],
    jfull := s.ledger.jfull || !ringRoom s,
    tfull := s.ledger.tfull || !textRoom s log.length } }

/-- Writes what waits, in order, as far as there is room. -/
def drainWaiting (fuel : Nat) (s : State) : State :=
  match fuel, s.ledger.waiting with
  | 0, _ => s
  | _, [] => { s with ledger := { s.ledger with jfull := false, tfull := false } }
  | f + 1, (e, log, next) :: rest =>
    if canWrite s e log.length then
      drainWaiting f (writeNow e log next { s with ledger := { s.ledger with waiting := rest } })
    else { s with ledger := { s.ledger with
      jfull := !ringRoom s, tfull := !textRoom s log.length } }

/-! ### Live entries and carry-forward (R374) -/

/-- Whether a later entry of the ring satisfies a test. -/
def laterIn (p : JEntry → Bool) (e : JEntry) (ring : List JEntry) : Bool :=
  ring.any (fun x => decide (e.jseq < x.jseq) && p x)

/-- Whether an item's number is unsettled, or its acceptance is being written. -/
def unsettledNo (s : State) (n : Nat) : Bool :=
  s.ledger.items.any (fun i => i.ledger == n && !i.settled)
    || s.accesses.any (fun a => match a.job with
      | .journal e _ => decide (e.etype = 1) && e.ledger == n
      | _ => false)

/-- Whether one entry is a copy of another, carried forward: it differs in its sequence number and, where it names a
text log record, in the record's offset. -/
def JEntry.copyOf (x e : JEntry) : Bool :=
  x.carried && decide ({ x with jseq := e.jseq, carried := e.carried, b := if e.inLog then e.b else x.b } = e)

/-- Whether one PAID entry gives a later mark than another of its stream: a higher one (R369), or the same one placed
later. -/
def JEntry.marksAfter (x e : JEntry) : Bool :=
  decide (e.ledger < x.ledger) || (decide (e.ledger = x.ledger) && decide (e.a % 2 ^ 24 < x.a % 2 ^ 24))
    || (decide (e.ledger = x.ledger) && decide (e.a % 2 ^ 24 = x.a % 2 ^ 24) && decide (e.jseq < x.jseq))

/-- Whether an entry is live (R374). -/
def entryLive (s : State) (e : JEntry) : Bool :=
  let ring := s.ledger.ring
  let same (x : JEntry) : Bool := decide (x.stream = e.stream)
  if laterIn (fun x => x.copyOf e) e ring then false
  else if e.etype = 3 ∧ !ring.any (fun x => decide (x.etype = 3) && same x && x.marksAfter e) then true
  else if e.etype = 6 then !laterIn (fun x => decide (x.etype = 7) && same x && decide (x.param % 2 = 1)) e ring
  else if e.etype = 7 then
    decide (e.param % 2 = 0) && !laterIn (fun x => decide (x.etype = 7) && same x && decide (x.param % 2 = 1)) e ring
  else if e.etype = 8 then
    decide ((stream s e.stream).st = .held)
      && !laterIn (fun x => (decide (x.etype = 8) || decide (x.etype = 1)) && same x && !x.carried) e ring
  else if e.etype = 9 then !laterIn (fun x => decide (x.etype = 9) && decide (x.param % 4 = e.param % 4)) e ring
  else if e.etype = 10 then true
  else decide (e.ledger ≠ 0) && unsettledNo s e.ledger

/-- The oldest entry of the ring: copied to the head when it is live, and its slot freed. -/
def carryEntry (s : State) : State :=
  match s.ledger.ring with
  | [] => s
  | e :: rest =>
    let live := entryLive s e
    let s := { s with ledger := { s.ledger with ring := rest, jtail := s.ledger.jtail + 1 } }
    if live then bump R.LDG_CARRY 1 (writeEntry { e with carried := true, jseq := 0 } .nothing s) else s

/-- The latest entry of the ring that names a text log record, when it is live. -/
def namingEntry (s : State) (off : Nat) : Option JEntry :=
  (s.ledger.ring.filter (fun e => e.inLog && decide (e.logOff = off) && entryLive s e)).getLast?

/-- Whether the oldest text log record is one whose entry is still to be written (Table 11.11). -/
def tailBusy (s : State) : Bool :=
  match s.ledger.text with
  | [] => false
  | (off, _, _) :: _ => s.accesses.any (fun a => match a.job with
    | .logged e _ => decide (e.logOff = off)
    | _ => false)

/-- The oldest text log record: copied to the head with a copy of its entry when it is live, and its bytes
freed. -/
def carryText (s : State) : State :=
  match s.ledger.text with
  | [] => s
  | (off, _, bs) :: rest =>
    let named := namingEntry s off
    let s := { s with ledger := { s.ledger with text := rest } }
    match named with
    | none => s
    | some e =>
      let head := s.ledger.thead
      let s := if e.etype = 1 then onItem e.ledger (fun i => { i with logOff := head }) s else s
      bump R.LDG_CARRY 2 (writeRecord { e with carried := true, jseq := 0 } bs .nothing s)

/-- Whether fewer than one eighth of the ring's slots are free. -/
def ringLow (s : State) : Bool := decide (8 * (2 ^ jlog2 s - s.ledger.ring.length) < 2 ^ jlog2 s)

/-- Whether fewer than one eighth of the text log's bytes are free. -/
def textLow (s : State) : Bool := decide (8 * (2 ^ tlog2 s - textUsed s) < 2 ^ tlog2 s)

/-- The latest ACCEPT entry of an item in the ring. -/
def acceptOf (s : State) (n : Nat) : Option JEntry :=
  (s.ledger.ring.filter (fun e => decide (e.etype = 1) && decide (e.ledger = n))).getLast?

/-- The contents of a text log record. -/
def textAt (s : State) (off : Nat) : List Byte :=
  ((s.ledger.text.filter (fun t => t.1 == off)).getLast?.map (fun t => t.2.2)).getD []

/-! ### Completion of items (R370) -/

/-- The per-stream state an item finds: what the latest earlier item of its stream leaves. -/
def carryBefore (s : State) (n ledger : Nat) : Carry :=
  match ((s.ledger.items.filter (fun i => decide (i.stream = n) && decide (i.ledger < ledger))).filterMap
      Item.after).getLast? with
  | some c => c
  | none => (stream s n).base.getD Carry.empty

/-- Records the state a station keeps for an item's stream as the state the item leaves (R370). -/
def noteCarry (ledger : Nat) (f : Stream → Carry → Carry) (s : State) : State :=
  match item? s ledger with
  | none => s
  | some i =>
    if i.complete || i.completing then s
    else
    let c := i.after.getD (carryBefore s i.stream ledger)
    onItem ledger (fun i => { i with after := some (f (stream s i.stream) c) }) s

/-- Completes an item with a status: its COMPLETE entry, with the carry record of what it leaves. The first
completion stands (R370). Work replayed after an uncorrectable VAULT error reports ST_POISON unless another status
applies; ST_TRUNC is none that does (R183, R392). An item whose advance found the stack full completes with ST_DEAD
(R251). -/
def completeAs (n status : Nat) (next : After) (s : State) : State :=
  match item? s n with
  | none => s
  | some i =>
    if i.completing || i.complete then s
    else
      let st := if i.deep then St.DEAD else if i.poison ∧ (status = St.OK ∨ status = St.TRUNC) then St.POISON else status
      let c := i.after.getD (carryBefore s i.stream n)
      let log := carryRecord (imageGen s i.tenant c.sorter.gen) c
      let s := onItem n (fun i => { i with completing := true, status := st, after := some c, asReplay := i.replaying }) s
      journal (entry 4 i.stream st 0 n (i.outs.length % 2 ^ 24) 0 (i.flags % 256) i.replaying) log next s

/-- Completes an item whose work has ended: with the status given, or with what its work reported. -/
def completeItem (n status : Nat) (next : After) (s : State) : State :=
  match item? s n with
  | none => s
  | some i => completeAs n (if status = St.OK then i.status else status) next s

end Sys2Proof.Machine
end

