-- ==== Sys2Proof/Machine/Flow.lean ====
section
/-!
DEFINITION. How tiles move and end (R32, R41 to R47, R109, R369, R370): taking a stream's next tile, refusing one,
delivering one, closing a stream, cutting an accepted item into tiles, and replaying a stream (R384).
-/

namespace Sys2Proof.Machine

/-! ### Stations and the order of tiles -/

/-- Whether a station's power and clock domains are up (Tables 15.2 and 15.4). -/
def stationUp (s : State) (h : Nat) : Bool :=
  clkUp s 1 &&
    (if h = Hop.TELLER then pdUp s 5
     else if h = Hop.ASSAY then pdUp s 6
     else if h = Hop.SORTER then pdUp s 6 && clkUp s 2
     else if h = Hop.MINT then pdUp s 6 && clkUp s 3
     else if h = Hop.NOTARY then pdUp s 20 || pdUp s 21
     else if h = Hop.CLEARING then (pdUp s 22 || pdUp s 23) && clkUp s 4
     else if h = Hop.EXCHANGE then pdUp s 24
     else pdUp s 25)

/-- Whether a tile has a hop still before it, or is at it. -/
def visits (t : Tile) (h : Nat) : Bool :=
  (List.range 7).any (fun i => decide (routeIdx t.route ≤ i) && decide (routeHop t.route i = h))

/-- Tiles whose payload is still being read. -/
def unread (s : State) : List Tile :=
  (s.accesses.map (fun a => match a.job with
    | .payload t _ _ => [t]
    | .flowPayload t _ _ => [t]
    | .logPayload t _ _ _ => [t]
    | _ => [])).flatten

/-- The issue number of the instruction whose ticket a tile carries; none for a tile without one. -/
def issuedAs (s : State) (t : Tile) : Option Nat :=
  if t.ticket = 0xFFF then none else (ticket? s t.origin t.ticket).map Ticket.no

/-- Whether two tiles of one item were issued by two instructions, the first one earlier (R47). -/
def issuedBefore (s : State) (u t : Tile) : Bool :=
  match issuedAs s u, issuedAs s t with
  | some a, some b => decide (u.ledger = t.ledger) && decide (a < b)
  | _, _ => false

/-- Whether a tile must wait at a hop for earlier work of its stream: items in ascending order, and within one item
the tiles of one FLOW behind those of the FLOW issued before (R44, R47). -/
def orderBlocked (s : State) (h : Nat) (t : Tile) : Bool :=
  (allTiles s).any (fun u => decide (u.stream = t.stream) && visits u h
      && (decide (u.ledger < t.ledger) || issuedBefore s u t))
    || (unread s).any (fun u => decide (u.ledger = t.ledger) && decide (u.ticket = t.ticket)
        && decide (u.tseq < t.tseq))
    || (decide (h = Hop.MINT) && s.accesses.any (fun a => match a.job with
        | .overflow u _ => decide (u.ledger = t.ledger)
        | _ => false))

/-- The tile of a stream that a hop would take next: the first one of the lowest ledger number. -/
def nextTile (s : State) (h n : Nat) : Option Tile :=
  (queueAt s h).foldl (fun best t =>
    if t.stream ≠ n then best
    else match best with
      | none => some t
      | some b => if t.ledger < b.ledger then some t else best) none

/-- Whether a stream is HELD at a hop (R32). -/
def heldHere (s : State) (h n : Nat) : Bool :=
  decide ((stream s n).st = .held) && decide ((stream s n).heldAt = h)

/-- Tiles on their way from the LEDGER hop to a sink behind their OUTPUT entries. -/
def outputsTo (s : State) (h : Nat) : Nat :=
  (s.accesses.filter (fun a => match a.job with
    | .journal _ (.output t) => decide (t.hopAfter = h)
    | _ => false)).length
    + (s.ledger.waiting.filter (fun w => match w.2.2 with
      | .output t => decide (t.hopAfter = h)
      | _ => false)).length

/-- Tiles that fill a hop's input queue: those in it, less those of a stream HELD there, which wait in front of it
(R32), and those that are to join it. -/
def queueFill (s : State) (h : Nat) : Nat :=
  ((queueAt s h).filter (fun t => !heldHere s h t.stream)).length + outputsTo s h

/-- Whether the input queue of a hop has room (R46); an empty queue always has. -/
def hopRoom (s : State) (h : Nat) : Bool :=
  if h = Hop.TELLER then s.teller.queue.isEmpty || decide (s.teller.queue.length < Config.queueDepth)
  else decide (queueFill s h = 0) || decide (queueFill s h < Config.queueDepth)

/-- Whether a tile can go on to a hop when the station it is at has finished it (R46, R151, R326): STACK and the CLERK
sink take every tile, and one that later tiles of its stream wait for there goes ahead of them. -/
def roomBehind (s : State) (h : Nat) (t : Tile) : Bool :=
  decide (Hop.STACK ≤ h) || hopRoom s h
    || (queueAt s h).any (fun u => decide (u.stream = t.stream)
        && (decide (t.ledger < u.ledger) || (decide (t.ledger = u.ledger) && decide (t.ticket ≠ u.ticket))))

/-- The tile a station may take now for a stream: none while the stream is held there, while earlier work is
on its way, while the next hop has no room, or while the station's domains are down. -/
def takeable (s : State) (h n : Nat) : Option Tile :=
  match nextTile s h n with
  | none => none
  | some t =>
    if stationUp s h && !heldHere s h n && !orderBlocked s h t && roomBehind s t.hopAfter t then some t else none

/-- The first copy of a tile removed from a list. -/
def removeTile (t : Tile) : List Tile → List Tile
  | [] => []
  | x :: xs => if x = t then xs else x :: removeTile t xs

/-- The state with a tile out of a hop's queue. -/
def unqueue (h : Nat) (t : Tile) (s : State) : State := setQueueAt h (removeTile t (queueAt s h)) s

/-- A tile as a hop emits it: numbered next for its item at that hop (R43). -/
def numberTile (h : Nat) (t : Tile) (s : State) : Tile × State :=
  match item? s t.ledger with
  | none => (t, s)
  | some i =>
    let k := Tab.get 0 i.emitted h
    ({ t with tseq := k }, onItem t.ledger (fun i => { i with emitted := Tab.set 0 i.emitted h (k + 1) }) s)

/-- A tile a hop emits: numbered, checked and passed to the next hop (R41, R43, R390). -/
def emitTile (h : Nat) (t : Tile) (s : State) : State :=
  let (t, s) := numberTile h t s
  passOn h t s

/-- Tiles emitted in order. -/
def emitTiles (h : Nat) (ts : List Tile) (s : State) : State := ts.foldl (fun s t => emitTile h t s) s

/-- The tile a station is filling for an item of a stream. -/
def buildingAt (s : State) (n h ledger : Nat) : Option Tile :=
  ((stream s n).building.find? (fun p => p.1 == h && p.2.ledger == ledger)).map Prod.snd

/-- The state with the tile a station is filling for an item replaced, or taken away. -/
def setBuilding (n h ledger : Nat) (t : Option Tile) (s : State) : State :=
  onStream n (fun x => { x with
    building := x.building.filter (fun p => p.1 != h || p.2.ledger != ledger) ++ (t.toList.map (fun t => (h, t))) }) s

/-- The piece check of an ASSAY tile: its text and fallback map (R166). -/
def assayCheck (t : Tile) : Nat := crc32c t.mapped

/-- The fallback map of a SORTER tile under POLICY BYTE: its BYTEFB pieces are its marked bytes. -/
def pieceMarks (ps : List Piece) : List Bool := (ps.map (fun p => List.replicate p.len p.bytefb)).flatten

/-- An output tile of SORTER with its piece check (R191). -/
def sorterTileOut (byMap last te eos : Bool) (t : Tile) : Tile :=
  let t := { t with last := last, textEnd := te, eos := eos, marks := if byMap then pieceMarks t.pieces else [],
                    runs := [] }
  { t with check := crc32c t.pieced }

/-- The last token word of a ledger number carries LAST. -/
def markLast (bs : List Byte) : List Byte :=
  if bs.isEmpty then bs
  else bs.take (bs.length - 4) ++ toLE 4 (leAt bs (bs.length - 4) 4 ||| 2 ^ 29)

/-- A token tile leaves MINT; its words stand in the fingerprint (R18). -/
def sendTokens (t : Tile) (s : State) : State :=
  let (t, s) := numberTile Hop.MINT t s
  passOn Hop.MINT t (noteEmission 1 t.ledger t.payload s)

/-- A text tile leaves EXCHANGE; the bytes it releases stand in the fingerprint (R18). -/
def sendText (t : Tile) (s : State) : State :=
  let (t, s) := numberTile Hop.EXCHANGE t s
  passOn Hop.EXCHANGE t (noteEmission 4 t.ledger t.payload s)

/-- Emits the last tile of an item at EXCHANGE; an item that releases nothing and ends nothing gives none (R322). A tile is
cut off only while more bytes are there, so an empty rest means that nothing has been emitted. -/
def emitLast (t : Tile) (s : State) : State :=
  if t.payload.isEmpty && !t.textEnd && !t.eos then s
  else sendText { t with check := crc32c t.payload, last := true } s

/-! ### Refusals, closes and faults -/

/-- The stream becomes HELD at a hop over an item; only an OPEN stream does (Table 1.2). -/
def holdStream (n h item : Nat) (s : State) : State :=
  onStream n (fun x => if x.st = .opened then { x with st := .held, heldAt := h, heldItem := item, armed := false }
    else x) s

/-- A station refuses a tile: the status is reported, the tile ends and the stream is HELD (R32). -/
def refuseTile (h : Nat) (t : Tile) (status : Nat) (s : State) : State :=
  holdStream t.stream h t.ledger (report t status 0 s)

/-- The first fault since AUD_FAULT was cleared (Table 11.22). -/
def audFault (cls idx status ledger : Nat) (s : State) : State :=
  logFirst R.AUD_FAULT_LO (cls + idx % 256 * 2 ^ 4 + status % 256 * 2 ^ 12) R.AUD_FAULT_HI (ledger % 2 ^ 32) s

/-- Tiles in flight without those that stations are filling. -/
def movingTiles (s : State) : List Tile :=
  (s.hops.map Prod.snd).flatten ++ s.teller.cuts.map Cut.tile ++ s.clear.tiles.map ClearTile.tile
    ++ (s.streams.map (fun p => p.2.escrow.await)).flatten ++ (s.accesses.map (fun a => a.job.tiles)).flatten
    ++ (s.ledger.waiting.map (fun w => w.2.2.tiles)).flatten

/-- What a close discards in ASSAY: hold and carry (R165). -/
def discardAssay (n : Nat) (s : State) : State :=
  let x := (stream s n).assay
  bump R.ASY_DISCARD (x.carry.length + x.partMatch.length + (utf8EncAll x.seg).length)
    (onStream n (fun x => { x with assay := AssayCtx.empty }) s)

/-- What a close discards in SORTER: open piece and look-ahead (R187). -/
def discardSorter (n : Nat) (s : State) : State :=
  let x := (stream s n).sorter
  bump R.SRT_DISCARD (x.buf.length + x.run.length) (onStream n (fun x => { x with sorter := SorterCtx.empty }) s)

/-- What the end of a close discards in ASSAY and SORTER. -/
def discardHolds (n : Nat) (s : State) : State := discardSorter n (discardAssay n s)

/-- Whether a tile of a stream has still to pass a hop. -/
def comesTo (s : State) (h n : Nat) : Bool := (movingTiles s).any (fun t => decide (t.stream = n) && visits t h)

/-- What SCLOSE discards at once (R165, R187): ASSAY's text where no tile of the stream comes to ASSAY, SORTER's where none
comes to SORTER. What tiles still on their way, which finish (Table 1.2), continue is discarded when the close ends: the text
released for a prompt depends on its bytes alone (R153; DEDUCED, log entry 120). -/
def discardIdle (n : Nat) (s : State) : State :=
  let s := if comesTo s Hop.ASSAY n then s else discardAssay n s
  if comesTo s Hop.SORTER n || (stream s n).building.any (fun b => decide (b.1 = Hop.ASSAY)) then s else discardSorter n s

/-- A stream begins to close for a reason of Table 11.2: its CLOSE entry of PHASE 0. -/
def closeStream (n reason : Nat) (next : After) (s : State) : State :=
  let s := onStream n (fun x => { x with st := .closing, closeReason := reason }) s
  journal (entry 7 n 0 (2 * reason) 0 0 0 0 false) [] next s

/-- NOTARY no longer waits for the commit of a decision tile that has ended (R248). -/
def clearPending (n ledger : Nat) (s : State) : State :=
  onStream n (fun x => { x with notary := { x.notary with
    pending := if x.notary.pending = some ledger then none else x.notary.pending } }) s

/-- A tile that ends with ST_DEAD in front of a hop (R32, Table 1.6); NOTARY does not wait for one that has passed it. -/
def endDead (h : Nat) (t : Tile) (s : State) : State :=
  let s := if Hop.NOTARY < h then clearPending t.stream t.ledger s else s
  report t St.DEAD 0 (unqueue h t s)

/-- After SCLOSE, the tiles that waited in front of the station that refused one end with ST_DEAD. -/
def dropWaiting (n : Nat) (s : State) : State :=
  let x := stream s n
  if x.st = .closing ∧ x.heldAt ≠ 0 then
    ((queueAt s x.heldAt).filter (fun t => t.stream == n)).foldl (fun s t => endDead x.heldAt t s) s
  else s

/-! ### Delivery and the paid-out mark (R369) -/

/-- Whether a settlement position has been taken. -/
def settleTaken (s : State) (p : Nat) : Bool := s.beat.taken.any (fun x => decide (p ≤ x.1))

/-- Whether a tile is a decision tile or derives from one: its route passes CLEARING. -/
def fromDecision (t : Tile) : Bool :=
  decide (t.kind = .decision) || (List.range 7).any (fun i => decide (routeHop t.route i = Hop.CLEARING))

/-- Whether an item is open-ended: lane text or an SFEED chunk (R148). -/
def openEnded (i : Item) : Bool := decide (i.source < 8) || (decide (i.source = 9) && i.route.isNone)

/-- Work that reaches its sink after its settlement counts (R109), but for decision tiles, open-ended work (R148) and
replays (R381). The spec does not say what one piece of work is; the model counts each tile that reaches its sink (log
entry 136). -/
def countLate (t : Tile) (s : State) : State :=
  if !t.replay && !fromDecision t && !((item? s t.ledger).map openEnded).getD false && settleTaken s t.settle then
    bump R.BEAT_LATE_WORK 1 s
  else s

/-- How far delivered records reach over a stream's items in ascending order. -/
def markWalk : List Item → Nat × Nat → Nat × Nat
  | [], m => m
  | i :: is, m =>
    let done := i.outs.takeWhile (fun o => o.delivered)
    let m := match done.getLast? with
      | some o => if m.1 < i.ledger ∨ (m.1 = i.ledger ∧ m.2 < o.rseq) then (i.ledger, o.rseq) else m
      | none => m
    if done.length = i.outs.length ∧ (i.complete || i.completing) then markWalk is m else m

/-- Starts the PAID write of a stream's mark, or leaves it to the write in progress. -/
def writePaid (n : Nat) (s : State) : State :=
  let x := stream s n
  if x.paidBusy then onStream n (fun x => { x with paidNext := some (x.paidL, x.paidS) }) s
  else
    journal (entry 3 n 0 0 x.paidL x.paidS 0 0 false) [] (.mark n x.paidL x.paidS)
      (onStream n (fun x => { x with paidBusy := true, paidNext := none }) s)

/-- Advances a stream's paid-out mark over what has been delivered. -/
def advanceMark (n : Nat) (s : State) : State :=
  let x := stream s n
  let is := s.ledger.items.filter (fun i => decide (i.stream = n) && decide (x.paidL ≤ i.ledger))
  let m := markWalk is (x.paidL, x.paidS)
  if m ≠ (x.paidL, x.paidS) then writePaid n (onStream n (fun x => { x with paidL := m.1, paidS := m.2 }) s)
  else s

/-- One more tile delivered for a ticket. -/
def countTile (t : Tile) (s : State) : State :=
  if t.ticket = 0xFFF then s else onTicket t.origin t.ticket (fun k => { k with tiles := k.tiles + 1 }) s

/-- A record has been delivered to its sink (R369). -/
def deliverRecord (t : Tile) (s : State) : State :=
  let s := onItem t.ledger (fun i => { i with
    outs := i.outs.map (fun o => if o.rseq = t.tseq then { o with delivered := true } else o) }) s
  advanceMark t.stream (countTile t (countLate t s))

/-! ### Cutting an accepted item into tiles (R147) -/

/-- The route of a chunk or item: its own, or the stream's intake route. -/
def itemRoute (s : State) (n : Nat) (r : Option Nat) : Nat := r.getD (stream s n).intake

/-- A text tile of an accepted item before its payload is there. -/
def itemTile (s : State) (i : Item) (clerk ticket k : Nat) (last : Bool) : Tile :=
  { kind := .text, stream := i.stream, tenant := i.tenant, payload := [], marks := [], runs := [], pieces := [],
    last := last, textEnd := last && i.textEnd, eos := last && i.eos, replay := i.replaying, tseq := k,
    ledger := i.ledger, settle := i.settle, origin := clerk, ticket := ticket,
    route := itemRoute s i.stream i.route, check := 0, status := St.OK, flags := if i.replaying then 8 else 0 }

/-- A tile leaves TELLER with its payload and chunk check. -/
def tellerEmit (t : Tile) (data : List Byte) (s : State) : State :=
  passOn Hop.TELLER { t with payload := data, check := crc32c data } s

/-- The mirror a record is read from first. -/
def firstMirror (s : State) : Nat := (liveMirrors s).headD 0

/-- Part of a text log record read from a mirror; `off` its offset in the log. -/
def readLog (m off len : Nat) (job : Job) (s : State) : State :=
  let lines := (List.range (ceilDiv len 64)).map (fun j => newLine s (textAddr s m (off + 64 * j)) [])
  startAccess 1 (lineBill lines.length) .read 8 lines job s

/-- One tile of an item: from bytes at hand, through a read of stack memory, or, for a stream's replay, of the text log
(R379). -/
def cutOne (log : Bool) (i : Item) (t : Tile) (k : Nat) (s : State) : State :=
  let n := min 4096 (i.len - 4096 * k)
  match i.place with
  | .bytes d =>
    if log && decide (n ≠ 0) then
      let off := i.logOff + 4096 * k
      readLog (firstMirror s) off n (.logPayload t off n (firstMirror s)) s
    else tellerEmit t ((d.drop (4096 * k)).take n) s
  | .stack a =>
    if n = 0 then tellerEmit t [] s
    else
      let lines := readSpan s (a + 4096 * k) n
      startAccess 1 (lineBill lines.length) .read 1 lines (.payload t ((a + 4096 * k) % 64) n) s

/-- Tiles that take room at a hop, those whose payload TELLER still reads among them. -/
def comingFill (s : State) (h : Nat) : Nat :=
  queueFill s h + ((unread s).filter (fun t => decide (t.hopAfter = h))).length

/-- Whether TELLER may send a tile to its next station now (R151): it has room, an empty queue always; a tile that later ones
of its stream wait for there goes ahead of them. -/
def cutRoom (s : State) (t : Tile) : Bool :=
  let h := t.hopAfter
  decide (comingFill s h = 0) || decide (comingFill s h < Config.queueDepth) || (!hopRoom s h && roomBehind s h t)

/-- TELLER sends the tiles of accepted items as their stations take them (R151), those of one stream in order. -/
def feedCuts (fuel : Nat) (s : State) : State :=
  match fuel with
  | 0 => s
  | f + 1 =>
    if !stationUp s Hop.TELLER then s
    else match s.teller.cuts.find? (fun c => cutRoom s c.tile) with
      | none => s
      | some c =>
        let s := { s with teller := { s.teller with cuts := s.teller.cuts.erase c } }
        feedCuts f (match item? s c.tile.ledger with
          | some i => cutOne c.log i c.tile c.k s
          | none => s)

/-- Every tile that TELLER can send. -/
def feedAll (s : State) : State := feedCuts s.teller.cuts.length s

/-- Cuts an accepted item into tiles of 4,096 bytes, an empty one into one tile (R147). -/
def cutItem (log : Bool) (i : Item) (clerk ticket : Nat) (s : State) : State :=
  let n := max 1 (ceilDiv i.len 4096)
  let cuts := (List.range n).map (fun k =>
    { log := log, tile := itemTile s i clerk ticket k (decide (k + 1 = n)), k := k : Cut })
  feedAll { s with teller := { s.teller with cuts := s.teller.cuts ++ cuts } }

/-! ### Replay of a stream (R352, R384) -/

/-- The stream an access's work belongs to, when a replay discards it: not a checkpoint of a settled item, from which the
replay begins (R256). -/
def Job.streamOf (s : State) : Job → Option Nat
  | .payload t _ _ => some t.stream
  | .flowPayload t _ _ => some t.stream
  | .logPayload t _ _ _ => some t.stream
  | .logEntry l _ _ => (item? s l).map Item.stream
  | .sink t => some t.stream
  | .overflow t _ => some t.stream
  | .record n l => if l = 0 || ((item? s l).map Item.settled).getD true then none else some n
  | .patch n _ => some n
  | .refill n _ _ _ => some n
  | .advanceRead n _ => some n
  | .ahead n _ => some n
  | .ckptBack n _ => some n
  | .detok n _ => some n
  | .draftBlock n _ => some n
  | .maskRead n _ _ _ => some n
  | .topk t _ => some t.stream
  | .message g _ => (s.clear.tiles.find? (fun c => c.mtag == g && c.sent)).map (fun c => c.tile.stream)
  | _ => none

/-- What follows an entry, once the tile it would pass on is discarded. -/
def After.discard (n : Nat) : After → After
  | .output t => if t.stream = n then .nothing else .output t
  | x => x

/-- Discards every tile of a stream in flight, and the accesses and waits that belong to them; a record
already leaving an egress port goes on. -/
def discardTiles (n : Nat) (s : State) : State :=
  let s := dropAccesses (fun a => a.job.streamOf s == some n) s
  let s := onStream n (fun x => { x with escrow := { x.escrow with await := [] }, building := [] }) s
  { s with
    hops := s.hops.filterMap (fun p =>
      let q := p.2.filter (fun t => t.stream != n)
      if q.isEmpty then none else some (p.1, q)),
    teller := { s.teller with cuts := s.teller.cuts.filter (fun c => c.tile.stream != n) },
    clear := { s.clear with
      tiles := s.clear.tiles.filter (fun c => c.tile.stream != n),
      rows := s.clear.rows.filter (fun r => r.stream != n),
      seen := s.clear.seen.filter (fun p => p.1 != n),
      marks := s.clear.marks.filter (fun p => p.1 != n) },
    accesses := s.accesses.map (fun a => match a.job with
      | .journal e next => { a with job := .journal e (next.discard n) }
      | _ => a),
    ledger := { s.ledger with
      waiting := s.ledger.waiting.map (fun w => (w.1, w.2.1, w.2.2.discard n)) },
    purse := { s.purse with queue := s.purse.queue.filter (fun p => match p.what with
      | .command i => Instr.streamOf s i != some n
      | _ => true) },
    tickets := s.tickets.map (fun p =>
      if p.2.stream = n ∧ !p.2.done then (p.1, { p.2 with lost := true }) else p) }
where
  /-- The stream a station command names. -/
  Instr.streamOf (s : State) : Instr → Option Nat
    | .assayTile n _ => some n.toNat
    | .sorterTile n _ => some n.toNat
    | .mintTile n _ => some n.toNat
    | .notaryDecisionTile n _ => some n.toNat
    | .notaryTokenTile n _ => some n.toNat
    | .notaryAdvance a => some a.stream.toNat
    | .nearBankList _ data =>
      (s.clear.tiles.find? (fun c => c.sent && c.mtag == bits (leAt data 0 8) 32 16)).map (fun c => c.tile.stream)
    | .clearingDescriptor n _ => some n.toNat
    | .exchangeTile n _ => some n.toNat
    | .ledgerHop n _ => some n.toNat
    | _ => none

/-- Whether a configuration's grammar has finished or stopped. -/
def Cfg.over (c : Cfg) : Bool := c.finished || c.stopped

/-- The NOTARY state after the latest settled commit (R256), as the block has it until the checkpoint has been read. -/
def restoreNotary (x : NotaryCtx) : NotaryCtx :=
  let c := x.base.getD x.cfg
  { x with
    cfg := c, onChip := min 64 c.stack.length, pending := none, commits := [],
    count := x.count - x.advItems.length, advItems := [], ended := none, offered := [], cands := [] }

/-- ASSAY's text as a replay restores it: TELLER's copy of the carry follows ASSAY's until the replayed tiles have passed
(R158). -/
def AssayCtx.restored (a : AssayCtx) : AssayCtx := { a with teller := a.carry, follow := true }

/-- A stream's state as the replay restores it (R378), from the block's own copy of the restore point. A stream that was
closing is OPEN again and closes once its replayed items have finished. Only a stream HELD at TELLER stays HELD; of every
other no hop keeps tiles back. -/
def restoreStream (n : Nat) (s : State) : State :=
  onStream n (fun x =>
    let c := x.base.getD Carry.empty
    let closes := decide (x.st = .closing) && !x.closing1
    let stays := decide (x.st = .held) && decide (x.heldAt = Hop.TELLER)
    { x with
      st := if closes then .opened
        else if x.st = .dead then (if (restoreNotary x.notary).cfg.over then .dead else .opened)
        else if x.st = .held ∧ !stays then .opened else x.st,
      closeAfter := if closes then some x.closeReason else x.closeAfter,
      heldAt := if stays then x.heldAt else 0,
      heldItem := if stays then x.heldItem else 0,
      assay := c.assay.restored, sorter := c.sorter,
      escrow := { c.escrow with stops := x.escrow.stops, await := [], stopped := false },
      notary := restoreNotary x.notary, wptr := x.wptr, muted := false }) s

/-- The outstanding ticket under which a FLOW or SFEED item was issued; 0xFFF when there is none. -/
def itemTicket (s : State) (i : Item) : Nat × Nat :=
  if i.source = 9 then
    match s.tickets.find? (fun p => p.2.ledger == i.ledger && !p.2.done) with
    | some p => (p.1 / 4096, p.1 % 4096)
    | none => (home i.stream, 0xFFF)
  else (home i.stream, 0xFFF)

/-- A replayed entry put among the replayed entries in front of a queue: in the order of the pages they came from, and
those of one page in the order in which they were accepted (R83, log entry 130). -/
def insertReplayed (e : DayEntry) : List DayEntry → List DayEntry
  | [] => [e]
  | x :: xs =>
    if !x.replay || decide (e.step < x.step) || (decide (e.step = x.step) && decide (e.own < x.own)) then e :: x :: xs
    else x :: insertReplayed e xs

/-- A posted item's entry goes to its home CLERK again, before new entries (R83, R379). -/
def deliverAgain (n : Nat) (bs : List Byte) (s : State) : State :=
  match item? s n with
  | none => s
  | some i =>
    let c := home i.stream
    let q := Tab.get [] s.day.queues c
    let waits := q.any (fun x => x.own == n)
    let e : DayEntry := { step := leAt bs 8 4, replay := true, own := n, data := bs }
    let s := onItem n (fun i => { i with reposts := if waits then i.reposts else i.reposts + 1 }) s
    { s with day := { s.day with
        queues := Tab.set [] s.day.queues c (insertReplayed e (q.filter (fun x => x.own != n))) } }

/-- Re-issues one unsettled item (R379): a TELLER item re-enters after acceptance, a posted item's entry is delivered
again; `log` says that payload and entry are read from the text log now, and not while the mirrors were read. -/
def reissue (log : Bool) (n : Nat) (s : State) : State :=
  match item? s n with
  | none => s
  | some i =>
    let s := bump R.LDG_REPLAYED 1 (onItem n (fun i => { i with
      replaying := true, emitted := [],
      after := if i.complete || i.completing then i.after else none,
      ended := if i.complete || i.completing then i.ended else none,
      status := if i.complete || i.completing then i.status else St.OK,
      flags := if i.complete || i.completing then i.flags else 8 }) s)
    if i.source = 10 then
      if log then readLog (firstMirror s) i.logOff 64 (.logEntry n i.logOff (firstMirror s)) s
      else deliverAgain n i.entry s
    else
      let (c, t) := itemTicket s i
      match item? s n with
      | some i => cutItem log i c t s
      | none => s

/-- Reads the checkpoint of a stream's latest settled commit: its header and its stack entries. NOTARY holds the stream
until they are there (R256). -/
def readCkpt (n : Nat) (s : State) : State :=
  let x := (stream s n).notary
  if !x.gen then s
  else
    let lines := readSpan s (regionBase s 3 + n * 131072 + 0x2000 + x.count % 4 * 8448) (64 + 2 * x.cfg.stack.length)
    let item := ((s.ledger.items.find? (fun i => i.stream == n && !i.settled)).map Item.ledger).getD 0
    startAccess 1 (lineBill lines.length) .read 4 lines (.ckptBack n item) s

/-- Replays a stream alone (R384): its tiles are discarded, its state restored and its unsettled items issued
again. -/
def replayStream (n : Nat) (s : State) : State :=
  let s := readCkpt n (restoreStream n (discardTiles n s))
  ((s.ledger.items.filter (fun i => i.stream == n && !i.settled)).map Item.ledger).foldl
    (fun s k => reissue true k s) s

/-- An item that needs one more replay: its stream is replayed, or at the bound of STK_REPLAY.MAX the item
completes with the status and the stream becomes HELD (R352, R391). -/
def replayItem (n status : Nat) (stack : Bool) (s : State) : State :=
  match item? s n with
  | none => s
  | some i =>
    if i.replays < regField s R.STK_REPLAY 0 3 then
      let s := onItem n (fun i => { i with replays := i.replays + 1 }) s
      replayStream i.stream (if stack then bump R.STK_REPLAYS 1 s else s)
    else
      let s := if stack then bump R.STK_GIVEUP 1 s else s
      let s := discardItem n s
      holdStream i.stream 15 n (completeItem n status .nothing (reportItem n status 0 s))
where
  /-- Discards the tiles of one item, and what NOTARY awaits of it. -/
  discardItem (n : Nat) (s : State) : State :=
    let s := dropAccesses (fun a => a.job.ofItem n || a.job.tiles.any (fun t => t.ledger == n)) s
    { s with
      hops := s.hops.filterMap (fun p =>
        let q := p.2.filter (fun t => t.ledger != n)
        if q.isEmpty then none else some (p.1, q)),
      teller := { s.teller with cuts := s.teller.cuts.filter (fun c => c.tile.ledger != n) },
      clear := { s.clear with tiles := s.clear.tiles.filter (fun c => c.tile.ledger != n) },
      streams := s.streams.map (fun p => (p.1, { p.2 with
        building := p.2.building.filter (fun b => b.2.ledger != n),
        notary := { p.2.notary with
          pending := if p.2.notary.pending = some n then none else p.2.notary.pending,
          commits := p.2.notary.commits.filter (fun c => c.ledger != n) } })),
      tickets := s.tickets.map (fun p =>
        if p.2.ledger = n ∧ !p.2.done then (p.1, { p.2 with lost := true }) else p) }

/-- A check that fails on a link of Table 11.9: counted, and the stream replayed (R391). -/
def checkFailed (link : Nat) (t : Tile) (s : State) : State :=
  replayItem t.ledger St.POISON false (bump (R.AUD_CHK0 + 4 * (link - 1)) 1 s)

/-! ### What ends by itself: items and closes -/

/-- Whether a ticket of an item still keeps it open (R94). -/
def ticketOpen (s : State) (n : Nat) : Bool :=
  s.tickets.any (fun p => p.2.ledger == n && !p.2.done && !p.2.lost)

/-- Whether an item's work has ended so that the block completes it (R370, R94). -/
def itemEnded (s : State) (i : Item) : Bool :=
  !i.completing && !i.complete && !inFlight s i.ledger &&
    (if i.source = 10 then i.ended.isSome && !ticketOpen s i.ledger else true)

/-- Completes every item whose work has ended. -/
def sweepItems (s : State) : State :=
  (s.ledger.items.filter (fun i => itemEnded s i)).foldl
    (fun s i => completeItem i.ledger (i.ended.getD St.OK) .nothing s) s

/-- A memory chunk enters TELLER's input queue (R144). The first one of a stream whose re-issue the driver has armed is
that re-issue (R143). -/
def reachTeller (c : Chunk) (s : State) : State :=
  let x := stream s c.stream
  let held := decide (x.st = .held)
  let again := held && x.armed
  let s := if again then onStream c.stream (fun x => { x with armed := false }) s else s
  { s with
    issueNo := s.issueNo + 1,
    teller := { s.teller with queue := s.teller.queue ++ [{ c with no := s.issueNo + 1, reissue := again, whileHeld := held && !again }] } }

/-- The chunks that wait in TELLER's input queue and in its lane buffers. -/
def waitingChunks (s : State) : List Chunk := s.teller.queue ++ (s.teller.lanes.map Prod.snd).flatten

/-- Whether no more work of an item can be issued: it is complete, its thread has left it, or its stream is closing. -/
def itemLeft (s : State) (n ledger : Nat) : Bool :=
  decide ((stream s n).st = .closing) || (match item? s ledger with
    | some i => i.complete || i.completing || i.ended.isSome
    | none => true)

/-- The tile that a station is filling for an item of a stream although no more of the item can come: no tile of the item
moves, and no earlier station is filling one. -/
def fillToEnd (s : State) (n : Nat) : Option (Nat × Tile) :=
  let xs := (stream s n).building
  xs.find? (fun p => itemLeft s n p.2.ledger && !(movingTiles s).any (fun t => t.ledger == p.2.ledger)
    && !xs.any (fun q => q.2.ledger == p.2.ledger && decide (q.1 < p.1)))

/-- A tile that a station was filling leaves it as the final one of its item, where no tile with LAST has come (R43). The
spec does not say when such a tile leaves; it leaves once no more of the item can come (DESIGN CHOICE, log entry 167). -/
def endFill (n h : Nat) (t : Tile) (s : State) : State :=
  let s := setBuilding n h t.ledger none s
  if h = Hop.EXCHANGE then emitLast t s
  else if h = Hop.SORTER then
    if t.pieces.isEmpty then s
    else emitTile h (sorterTileOut ((imageOf s t.tenant).any (fun im => decide (im.policy = .byte))) true false false t) s
  else if t.payload.isEmpty then s
  else if h = Hop.MINT then
    let bs := markLast t.payload
    sendTokens { t with payload := bs, check := crc32c bs, last := true } s
  else emitTile h { t with last := true, check := assayCheck t } s

/-- Every tile that no more work can fill leaves its station. -/
def endFills (s : State) : State :=
  (s.streams.map Prod.fst).foldl (fun s n => match fillToEnd s n with
    | some (h, t) => endFill n h t s
    | none => s) s

/-- Whether anything of a stream is in flight, or still waits at TELLER to be refused (Table 4.10). -/
def streamBusy (s : State) (n : Nat) : Bool :=
  (allTiles s).any (fun t => t.stream == n)
    || (waitingChunks s).any (fun c => c.stream == n)
    || s.accesses.any (fun a => a.job.streamOf s == some n || (match a.job with
        | .journal e _ => e.stream == n && (e.etype == 1 || e.etype == 7)
        | .logged e _ => e.stream == n && e.etype == 1
        | .preRead c => c.stream == n
        | _ => false))
    || !(stream s n).notary.commits.isEmpty
    || s.ledger.waiting.any (fun w => w.1.stream == n && (w.1.etype == 1 || w.1.etype == 7))

/-- The close of every drained CLOSING stream: its CLOSE entry of PHASE 1 (Table 1.2). -/
def sweepStreams (s : State) : State :=
  (s.streams.map Prod.fst).foldl (fun s n =>
    let s := dropWaiting n s
    let x := stream s n
    if x.st = .closing ∧ !x.closing1 ∧ !streamBusy s n then
      let s := onStream n (fun x => { x with closing1 := true }) (discardHolds n s)
      journal (entry 7 n 0 (1 + 2 * x.closeReason) 0 0 0 0 false) [] (.closed1 n) s
    else s) s

/-- A stream that was closing before a replay closes once its replayed items have finished (R378). -/
def closeReplayed (s : State) : State :=
  (s.streams.map Prod.fst).foldl (fun s n =>
    match (stream s n).closeAfter with
    | none => s
    | some r =>
      if s.ledger.items.any (fun i => i.stream == n && ((!i.settled && !i.complete) || replayRuns s i)) then s
      else closeStream n r .nothing (onStream n (fun x => { x with closeAfter := none }) s)) s

/-- A settled item whose replay has nothing left in flight leaves the LEDGER. -/
def dropSettled (s : State) : State :=
  { s with ledger := { s.ledger with
      items := s.ledger.items.filter (fun i => !(i.settled && !inFlight s i.ledger && !replayRuns s i)) } }

/-- LAST as an output flag (Table 2.5). -/
def lastFlag (t : Tile) : Nat := 4 * flag t.last

/-- A tile reaches the CLERK sink: the final tile's payload is written at RESULT, and its bytes are what the ticket
counts. -/
def clerkSink (t : Tile) (s : State) : State :=
  let s := report t St.OK (lastFlag t) (countLate t s)
  match ticket? s t.origin t.ticket with
  | none => s
  | some k =>
    if t.last && !k.done && decide (k.result ≠ 0) && decide (t.ticket ≠ 0xFFF) then
      let d := t.wire.take 4096
      onTicket t.origin t.ticket (fun k => { k with tiles := d.length }) (storeScratch k.no t.origin (k.result - 1) d s)
    else s

/-- The tile the CLERK sink takes next: one that no earlier work of its stream must precede (R44). -/
def nextSunk (s : State) : Option Tile :=
  (queueAt s Hop.CLERK).findSome? (fun t =>
    match nextTile s Hop.CLERK t.stream with
    | some u => if orderBlocked s Hop.CLERK u then none else some u
    | none => none)

/-- The tiles that have reached the CLERK sink, in the order of R44. -/
def sinkClerks (fuel : Nat) (s : State) : State :=
  match fuel with
  | 0 => s
  | f + 1 =>
    match nextSunk s with
    | none => s
    | some t => sinkClerks f (clerkSink t (unqueue Hop.CLERK t s))

/-- What follows from any command by itself: deliveries to the CLERK sink, completions, closes, tiles that TELLER can now
send, lines that can now be sent. -/
def sweep (s : State) : State := sendAll (feedAll (dropSettled (sweepStreams (closeReplayed (sweepItems (endFills
  (sinkClerks (queueAt s Hop.CLERK).length s)))))))

end Sys2Proof.Machine
end

