-- ==== Sys2Proof/Machine/Normal.lean ====
section
/-!
DEFINITION. Normalisation as UAX #15 defines it (R161), over the tables an image carries: decomposition,
canonical ordering and composition, with the arithmetic of Hangul syllables.
-/

namespace Sys2Proof.Machine

/-- A character's entry in a table of the image; the character itself where it has none. -/
def mapped (tab : List (Nat × List Nat)) (c : Nat) : List Nat :=
  match tab.find? (fun p => p.1 == c) with
  | some p => p.2
  | none => [c]

/-- Canonical combining class. -/
def ccc (im : TokImage) (c : Nat) : Nat :=
  match im.cccTab.find? (fun p => p.1 == c) with
  | some p => p.2
  | none => 0

/-- Whether a character is a Hangul syllable. -/
def isHangul (c : Nat) : Bool := decide (0xAC00 ≤ c) && decide (c < 0xAC00 + 11172)

/-- Decomposition of a Hangul syllable. -/
def hangulParts (c : Nat) : List Nat :=
  let i := c - 0xAC00
  [0x1100 + i / 588, 0x1161 + i % 588 / 28] ++ (if i % 28 = 0 then [] else [0x11A7 + i % 28])

/-- Full decomposition of a character, to a depth. -/
def decompose (depth : Nat) (im : TokImage) (c : Nat) : List Nat :=
  match depth with
  | 0 => [c]
  | d + 1 =>
    if isHangul c then hangulParts c
    else
      let m := mapped im.decompTab c
      if m = [c] then [c] else (m.map (decompose d im)).flatten

/-- A character put in canonical order behind characters kept in reverse. -/
def insertRev (im : TokImage) (c : Nat) : List Nat → List Nat
  | [] => [c]
  | p :: ps => if ccc im c ≠ 0 ∧ ccc im c < ccc im p then p :: insertRev im c ps else c :: p :: ps

/-- Canonical ordering. -/
def canonicalOrder (im : TokImage) (cs : List Nat) : List Nat :=
  (cs.foldl (fun acc c => insertRev im c acc) []).reverse

/-- The primary composite of two characters. -/
def composePair (im : TokImage) (a b : Nat) : Option Nat :=
  if 0x1100 ≤ a ∧ a < 0x1113 ∧ 0x1161 ≤ b ∧ b < 0x1176 then
    some (0xAC00 + (a - 0x1100) * 588 + (b - 0x1161) * 28)
  else if isHangul a && decide ((a - 0xAC00) % 28 = 0) && decide (0x11A7 < b) && decide (b < 0x11C3) then
    some (a + (b - 0x11A7))
  else (im.compTab.find? (fun p => p.1 == a && p.2.1 == b)).map (fun p => p.2.2)

/-- Canonical composition: `st` is the latest starter, `mid` what follows it. -/
def composeFrom (im : TokImage) : List Nat → Option Nat → List Nat → List Nat
  | [], none, mid => mid
  | [], some st, mid => st :: mid
  | c :: cs, none, mid =>
    if ccc im c = 0 then mid ++ composeFrom im cs (some c) [] else composeFrom im cs none (mid ++ [c])
  | c :: cs, some st, mid =>
    let blocked := match mid.getLast? with
      | some m => decide (ccc im c ≤ ccc im m)
      | none => false
    match (if blocked then none else composePair im st c) with
    | some p => composeFrom im cs (some p) mid
    | none =>
      if ccc im c = 0 then st :: (mid ++ composeFrom im cs (some c) [])
      else composeFrom im cs (some st) (mid ++ [c])

/-- The normal form of the image (R161): NFC or NFKC, or the text unchanged. -/
def normalise (im : TokImage) (cs : List Nat) : List Nat :=
  if im.norm = .none then cs
  else composeFrom im (canonicalOrder im ((cs.map (decompose 32 im)).flatten)) none []

/-- Full case folding of a character where the image sets FOLD (R161). -/
def foldChar (im : TokImage) (c : Nat) : List Nat := if im.fold then mapped im.foldTab c else [c]

/-- A stable starter: class 0 and quick-check value Yes; with NORM none, every character. -/
def stableStarter (im : TokImage) (c : Nat) : Bool :=
  decide (im.norm = .none) || (decide (ccc im c = 0) && !im.qcNotYes.contains c)

end Sys2Proof.Machine
end

