-- ==== Sys2Proof/Machine/Assay.lean ====
section
/-!
DEFINITION. ASSAY (R152 to R166): decoding with the carry, protected strings, folding, normalisation by open
segments, and the tiles it emits.
-/

namespace Sys2Proof.Machine

/-- ASSAY at work on a tile: the stream's state, what has been released so far with the fallback marks and
protected runs, and the counts of the tile. -/
structure AssayRun where
  ctx : AssayCtx
  out : List Byte
  marks : List Bool
  runs : List Run
  invalid : Nat
  fffd : Nat
  cuts : Nat
  deriving DecidableEq, Repr

/-- Releases bytes, marked or not. -/
def releaseBytes (bs : List Byte) (mark : Bool) (r : AssayRun) : AssayRun :=
  { r with out := r.out ++ bs, marks := r.marks ++ List.replicate bs.length mark }

/-- Releases a protected occurrence unchanged (R160). -/
def releaseRun (bs : List Byte) (r : AssayRun) : AssayRun :=
  let o := r.out.length
  let r := releaseBytes bs false r
  { r with runs := r.runs ++ [{ off := o, len := bs.length, more := false }] }

/-- Closes the open segment: normalised and released (R162). -/
def closeSegment (im : TokImage) (r : AssayRun) : AssayRun :=
  if r.ctx.seg.isEmpty then r
  else
    let bs := utf8EncAll (normalise im r.ctx.seg)
    releaseBytes bs false { r with ctx := { r.ctx with seg := [] } }

/-- One character, folded, joins the open segment; a stable starter closes it first, and a 33rd character
cuts it (R162, R163). -/
def segmentChar (im : TokImage) (c : Nat) (r : AssayRun) : AssayRun :=
  let r :=
    if r.ctx.seg.isEmpty then r
    else if stableStarter im c then closeSegment im r
    else if 32 ≤ r.ctx.seg.length then
      let r := closeSegment im r
      { r with cuts := r.cuts + 1 }
    else r
  { r with ctx := { r.ctx with seg := r.ctx.seg ++ [c] } }

/-- Ordinary text: a character folded and put into segments (R161 to R163). -/
def ordinaryChar (im : TokImage) (c : Nat) (r : AssayRun) : AssayRun :=
  (foldChar im c).foldl (fun r x => segmentChar im x r) r

/-- The longest protected string that a run of bytes begins with. -/
def longestProt (im : TokImage) (bs : List Byte) : Option (List Byte) :=
  im.prot.foldl (fun best p =>
    let longer := match best with
      | some b => decide (b.length < p.length)
      | none => true
    if p.isPrefixOf bs && longer then some p else best)
    none

/-- Whether a longer protected string may still begin here. -/
def mayGrow (im : TokImage) (bs : List Byte) : Bool :=
  im.prot.any (fun p => decide (bs.length < p.length) && bs.isPrefixOf p)

/-- Resolves the held text that may begin a protected string, as far as it can be resolved: from the left, the
earliest start and then the longest occurrence wins (R160); `final` when no later byte can join it. -/
def resolveHeld (fuel : Nat) (im : TokImage) (final : Bool) (r : AssayRun) : AssayRun :=
  match fuel with
  | 0 => r
  | f + 1 =>
    let held := r.ctx.partMatch
    if held.isEmpty then r
    else if !final && mayGrow im held then r
    else match longestProt im held with
      | some p =>
        let r := closeSegment im { r with ctx := { r.ctx with partMatch := held.drop p.length } }
        resolveHeld f im final (releaseRun p r)
      | none =>
        match utf8Next held with
        | .char c n =>
          resolveHeld f im final
            (ordinaryChar im c { r with ctx := { r.ctx with partMatch := held.drop n } })
        | _ => { r with ctx := { r.ctx with partMatch := [] } }

/-- One character of decoded text. -/
def textChar (im : TokImage) (bs : List Byte) (r : AssayRun) : AssayRun :=
  let held := r.ctx.partMatch ++ bs
  resolveHeld (held.length + 1) im false { r with ctx := { r.ctx with partMatch := held } }

/-- The held text taken as it stands: at TEXT_END and before a marked byte (R159, R164). -/
def settleHeld (im : TokImage) (r : AssayRun) : AssayRun :=
  closeSegment im (resolveHeld (r.ctx.partMatch.length + 1) im true r)

/-- The bytes of U+FFFD. -/
abbrev fffdBytes : List Byte := [0xEF, 0xBF, 0xBD]

/-- A maximal subpart under the image's policy (Table 4.6). -/
def invalidPart (im : TokImage) (bs : List Byte) (r : AssayRun) : AssayRun :=
  let r := { r with invalid := r.invalid + bs.length }
  if im.policy = .byte then releaseBytes bs true (settleHeld im r)
  else textChar im fffdBytes { r with fffd := r.fffd + 1 }

/-- One decoded unit. -/
def assayUnit (im : TokImage) (u : Utf8 × List Byte) (r : AssayRun) : AssayRun :=
  match u.1 with
  | .char _ _ => textChar im u.2 r
  | _ => invalidPart im u.2 r

/-- The remaining carry at TEXT_END, one maximal subpart (R157). -/
def endCarry (im : TokImage) (r : AssayRun) : AssayRun :=
  if r.ctx.carry.isEmpty then r
  else
    let c := r.ctx.carry
    settleHeld im (invalidPart im c { r with ctx := { r.ctx with carry := [] } })

/-- The work of ASSAY on the bytes of one tile (Table 4.5). -/
def assayText (im : TokImage) (ctx : AssayCtx) (bs : List Byte) (textEnd : Bool) : AssayRun :=
  let all := ctx.carry ++ bs
  let (us, rest) := utf8Scan (all.length + 1) all
  let r := us.foldl (fun r u => assayUnit im u r)
    { ctx := { ctx with carry := [] }, out := [], marks := [], runs := [], invalid := 0, fffd := 0, cuts := 0 }
  let r := { r with ctx := { r.ctx with carry := rest } }
  if textEnd then endCarry im (settleHeld im r) else r

/-- A tile with released text appended; runs move with it, and a run that continues joins its first part. -/
def appendText (t : Tile) (bs : List Byte) (ms : List Bool) (rs : List Run) : Tile :=
  let o := t.payload.length
  { t with payload := t.payload ++ bs, marks := t.marks ++ ms,
           runs := t.runs ++ rs.map (fun r => { r with off := r.off + o }) }

/-- Whether a tile may end before byte `i`: at a character boundary or beside a marked byte. -/
def cutHere (t : Tile) (i : Nat) : Bool :=
  match t.payload[i]? with
  | none => true
  | some b => isBoundary b || (t.marks[i]?).getD false

/-- The last place at or before `i` where a tile may end. -/
def cutBefore (t : Tile) : Nat → Nat
  | 0 => 0
  | i + 1 => if cutHere t (i + 1) then i + 1 else cutBefore t i

/-- The runs of the bytes before `k`, and of those from `k` on. -/
def splitRuns (k : Nat) (rs : List Run) : List Run × List Run :=
  (rs.filterMap (fun r =>
      if k ≤ r.off then none
      else if r.off + r.len ≤ k then some r
      else some { off := r.off, len := k - r.off, more := true }),
   rs.filterMap (fun r =>
      if r.off + r.len ≤ k then none
      else if k ≤ r.off then some { r with off := r.off - k }
      else some { off := 0, len := r.off + r.len - k, more := r.more }))

/-- A text tile cut into tiles of at most 4,096 bytes: the full ones, and what is left. -/
def cutText (fuel : Nat) (t : Tile) : List Tile × Tile :=
  match fuel with
  | 0 => ([], t)
  | f + 1 =>
    if t.payload.length ≤ 4096 then ([], t)
    else
      let k := cutBefore t 4096
      let (r1, r2) := splitRuns k t.runs
      let a := { t with payload := t.payload.take k, marks := t.marks.take k, runs := r1 }
      let b := { t with payload := t.payload.drop k, marks := t.marks.drop k, runs := r2 }
      let (ts, rest) := cutText f b
      (a :: ts, rest)

/-- The tiles ASSAY emits as its output for an item grows, the tile it goes on filling, and at the item's last
tile the rest; an item that releases nothing and ends nothing gives no tile (R166). -/
def assayEmit (t acc : Tile) (s : State) : State :=
  let (full, rest) := cutText (acc.payload.length + 1) acc
  let mid (x : Tile) : Tile := { x with last := false, textEnd := false, eos := false, check := assayCheck x }
  let s := emitTiles Hop.ASSAY (full.map mid) s
  if t.last then
    let s := setBuilding t.stream Hop.ASSAY t.ledger none s
    if rest.payload.isEmpty && full.isEmpty && !t.textEnd && !t.eos then s
    else emitTile Hop.ASSAY
      { rest with last := true, textEnd := t.textEnd, eos := t.eos, check := assayCheck rest } s
  else setBuilding t.stream Hop.ASSAY t.ledger (some rest) s

/-- ASSAY's work on a tile it has paid for. A tile whose tenant slot has been emptied is refused here as R448 has MINT
refuse it, since the spec does not say what ASSAY does with it (DESIGN CHOICE, log entry 155). -/
def assayWork (t : Tile) (s : State) : State :=
  match imageOf s t.tenant with
  | none => refuseTile Hop.ASSAY t St.IMAGE s
  | some im =>
    let r := assayText im (stream s t.stream).assay t.payload (t.textEnd || t.eos)
    let s := bump R.ASY_SAFE_CUT r.cuts (bump R.ASY_FFFD r.fffd (bump R.ASY_INVALID r.invalid s))
    let s := onStream t.stream (fun x => { x with assay := { r.ctx with teller := if x.assay.follow then r.ctx.carry else x.assay.teller } }) s
    let s := noteCarry t.ledger (fun x c => { c with assay := x.assay }) s
    let acc := (buildingAt s t.stream Hop.ASSAY t.ledger).getD { t with payload := [], marks := [], runs := [] }
    let marks := if im.policy = .byte then r.marks else []
    assayEmit t (appendText acc r.out marks r.runs) s

/-- The tile ASSAY takes for a stream, once it has been paid for. -/
def assayBody (n : Nat) (hw : HwEvent) (s : State) : State :=
  match takeable s Hop.ASSAY n with
  | none => s
  | some t =>
    let s := unqueue Hop.ASSAY t s
    if hw = .checkFail then checkFailed 1 t s else assayWork t s

/-- What ASSAY buys for a tile (code 0x04). -/
def assayBill (t : Tile) : List (Nat × Nat) := [(40, ceilDiv t.payload.length 64)]

/-- ASSAY_TILE (R152). -/
def execAssayTile (n : BitVec 12) (hw : HwEvent) (s : State) : Host.Outcome State Fault Refusal :=
  match takeable s Hop.ASSAY n.toNat with
  | none => .next s
  | some t => .next (sweep (buy 1 (assayBill t) (.assayTile n hw) id (assayBody n.toNat hw) s))

end Sys2Proof.Machine
end

