-- ==== Sys2Proof/Machine/Grace.lean ====
section
/-!
DEFINITION. Settlement positions and grace counts (R106, R112, R113, R282) over the positions taken.
-/

namespace Sys2Proof.Machine

/-- Phase codes and the last layer of BEAT_CFG. -/
def phaseLogits (s : State) : Nat := regField s R.BEAT_CFG 0 4
def phaseChoice (s : State) : Nat := regField s R.BEAT_CFG 4 4
def lastLayer (s : State) : Nat := regField s R.BEAT_CFG 8 8

/-- Step of a position. -/
def stepOf (p : Nat) : Nat := p / 4096

/-- The choice settlement of a decision tile (R106). -/
def choiceOf (s : State) (settle : Nat) : Nat := settle / 16 * 16 + phaseChoice s

/-- The position STEP:L:LOGITS. -/
def logitsOf (s : State) (step : Nat) : Nat := step * 4096 + lastLayer s * 16 + phaseLogits s

/-- The grace count of a settlement that has been taken: the positions taken after the one that took it, without those
that a re-arm made current (R104, R112). -/
def graceCount (s : State) (p : Nat) : Nat :=
  (((s.beat.taken.reverse.dropWhile (fun x => decide (x.1 < p))).drop 1).filter Prod.snd).length

/-- Whether a grace has ended: its count has reached BEAT_GRACE + 1. -/
def graceOver (s : State) (p : Nat) : Bool :=
  settleTaken s p && decide (regField s R.BEAT_GRACE 0 8 + 1 ≤ graceCount s p)

end Sys2Proof.Machine
end

