-- ==== Sys2Proof/Machine/Maint.lean ====
section
/-!
DEFINITION. Maintenance activities (R461 to R463): which may run together, starts by the block that wait, and the
reading of golden copies that fills a bank.
-/

namespace Sys2Proof.Machine

/-- Activity codes (Table 14.7). -/
abbrev Act.scrub : Nat := 1
abbrev Act.sweep : Nat := 2
abbrev Act.swap : Nat := 3
abbrev Act.tileReload : Nat := 4
abbrev Act.vaultReload : Nat := 5
abbrev Act.keyRotate : Nat := 6
abbrev Act.quiesce : Nat := 7
abbrev Act.load : Nat := 8

/-! ### What an activity holds (Table 14.7) -/

/-- The physical unit that serves a unit's function. -/
def physOf (s : State) (cls u : Nat) : Nat :=
  match s.reserve.stand.find? (fun x => x.1 == cls && x.2.1 == u) with
  | some x => x.2.2
  | none => u

/-- The function a physical unit serves: its own, or that of the unit it stands in for. -/
def functionOf (s : State) (cls p : Nat) : Nat :=
  match s.reserve.stand.find? (fun x => x.1 == cls && x.2.2 == p) with
  | some x => x.2.1
  | none => p

/-- The twin of a macro of family 7. -/
def twin (m : Nat) : Nat := m / 2 * 2 + (1 - m % 2)

/-- Whether a visit of the scrub is under way: its lookups wait for their coins. -/
def scrubReads (s : State) : Bool :=
  s.purse.queue.any (fun p => match p.what with
    | .command (.patrolScrub _) => true
    | _ => false)

/-- The units a SPARE_SWAP holds: the retired unit and the spare that takes over, a unit that comes back and the spare
that stood in for it, or a twin pair. -/
def swapUnits (s : State) (cls i : Nat) : List Nat :=
  if cls = 7 then [i, twin i]
  else if unitOut s cls i then
    i :: ((s.reserve.stand.filter (fun x => x.1 == cls && x.2.1 == i)).map (fun x => x.2.2))
  else i :: ((freeSpares s cls).filter (· != i)).take 1

/-- What an activity holds, as a kind and a number: kinds 0 to 7 are units of a class, a twin macro under 7; 8 is a clock
domain, 9 a key slot, 10 a channel. The scrub holds the banks it is reading, which are all of them while a visit is under
way (log entry 22); the rules for a load are in Table 14.8 itself. -/
def held (s : State) (a : Activity) : List (Nat × Nat) :=
  if a.code = Act.scrub then
    if scrubReads s then (List.range (s.build.size.vaultBanks + 1)).map (fun p => (0, p)) else []
  else if a.code = Act.swap then (swapUnits s a.cls a.res).map (fun u => (a.cls, u))
  else if a.code = Act.tileReload then [(1, a.res)]
  else if a.code = Act.vaultReload then [(0, physOf s 0 a.res)]
  else if a.code = Act.sweep then [(8, a.res)]
  else if a.code = Act.keyRotate then [(9, a.res)]
  else if a.code = Act.quiesce then [(10, a.res)]
  else []

/-- Whether two activities hold the same bank, tile, unit, domain, key slot or channel. -/
def sameResource (s : State) (a b : Activity) : Bool := (held s a).any (held s b).contains

/-- Whether a LOAD_IMAGE of a tokeniser conflicts with an activity marked T; `cls` of a load is 1 for a
tokeniser image. -/
def loadConflict (a l : Activity) : Bool :=
  decide (l.cls = 1) && (decide (a.code ≠ Act.swap) || decide (a.cls ≤ 1))

/-- Table 14.8 for an ordered pair of codes, the lower first. -/
def conflictsUp (s : State) (a b : Activity) : Bool :=
  match a.code, b.code with
  | 1, 1 => true
  | 1, 3 => sameResource s a b
  | 1, 5 => sameResource s a b
  | 1, 8 => loadConflict a b
  | 2, 2 => sameResource s a b
  | 3, 3 => true
  | 3, 4 => sameResource s a b
  | 3, 5 => sameResource s a b
  | 3, 7 => true
  | 3, 8 => loadConflict a b
  | 4, 4 => sameResource s a b
  | 4, 8 => loadConflict a b
  | 5, 5 => sameResource s a b
  | 5, 8 => loadConflict a b
  | 6, 6 => sameResource s a b
  | 7, 7 => true
  | 7, 8 => true
  | 8, 8 => true
  | _, _ => false

/-- Whether a start conflicts with a running activity. Between its visits the scrub holds nothing, so it keeps only another
pass from starting (log entry 22). VAULT_RELOAD does not wait for the scrub, which leaves the bank (Table 14.9). -/
def conflicts (s : State) (running new : Activity) : Bool :=
  if running.code = Act.scrub then
    if new.code = Act.scrub then true
    else scrubReads s && decide (new.code ≠ Act.vaultReload) && conflictsUp s running new
  else if running.code ≤ new.code then conflictsUp s running new else conflictsUp s new running

/-- The running activity a start conflicts with. -/
def holder (s : State) (a : Activity) : Option Activity := s.reserve.acts.find? (fun h => conflicts s h a)

/-- Whether a running activity keeps the scrub from reading: a SPARE_SWAP that holds a bank, or the load of a tokeniser
image. -/
def scrubBarred (s : State) : Bool :=
  s.reserve.acts.any (fun a => (decide (a.code = Act.swap) && decide (a.cls = 0))
    || (decide (a.code = Act.load) && decide (a.cls = 1)))

/-- Bytes of one bank (Table 6.3). -/
def bankBytes (s : State) : Nat := s.build.size.vaultUnits * s.build.size.unitBytes

/-- The lines of a bank's golden copy: GOLD0 or GOLD1, bank after bank (log entry 23). -/
def goldenLines (s : State) (bank copy : Nat) : List Line :=
  if regionSize s (6 + copy) = 0 then []
  else readSpan s (regionBase s (6 + copy) + bank * bankBytes s) (bankBytes s)

/-- Whether the lines of a golden copy lie on the channel being quiesced (Table 14.9). -/
def goldQuiesced (s : State) : Bool :=
  decide (s.reserve.quiesce ≠ 0) && decide (stackOf s (regionBase s 6) = regField s R.STK_QCHAN 4 4)

/-- Starts the reading of a bank's golden copy; nothing is read while no golden region is set. -/
def readGolden (bank : Nat) (s : State) : State :=
  let copy := if goldQuiesced s then 1 else 0
  let lines := goldenLines s bank copy
  if lines.isEmpty then s
  else startAccess 1 (lineBill lines.length) .read 9 lines (.golden bank copy) s

/-- Whether the golden copy of a bank is still being read. -/
def goldenBusy (s : State) (bank : Nat) : Bool :=
  s.accesses.any (fun a => match a.job with
    | .golden b _ => b == bank
    | _ => false)

/-- The logical bank an activity fills. -/
def bankFilled (s : State) (a : Activity) : Option Nat :=
  if a.code = Act.vaultReload then some a.res
  else if a.code = Act.swap ∧ a.cls = 0 then some (functionOf s 0 a.res)
  else none

/-- A power domain's state set. -/
def setPd (d : Nat) (x : PdState) (s : State) : State :=
  { s with power := { s.power with pds := Tab.set .off s.power.pds d x } }

/-- Whether a power domain is switching: requested, and power-good has not crossed (R485). -/
def switching (s : State) (d : Nat) : Bool := decide (Tab.get .off s.power.pds d = .requested)

/-- A power domain is to be switched on; at most six switch at once (R487). -/
def askPd (d : Nat) (s : State) : State :=
  setPd d (if ((List.range 30).filter (switching s)).length < 6 then .requested else .waiting) s

/-- Domains that waited are switched on, in the order of their numbers, while fewer than six switch. -/
def startPds (s : State) : State :=
  (List.range 30).foldl (fun s d => if Tab.get .off s.power.pds d = .waiting then askPd d s else s) s

/-- Whether a swap fills the spare bank: its unit is retired. -/
def fillsSpare (s : State) (a : Activity) : Bool :=
  decide (a.code = Act.swap) && decide (a.cls = 0) && !unitOut s 0 a.res

/-- PD_VSPARE is switched on when a swap needs it while VSPARE_OFF is set (R491). -/
def wakeSpare (s : State) : State :=
  if bit (reg s R.PWR_PDCTRL) 1 then
    let s := clearRegBit R.PWR_PDCTRL 1 s
    if Tab.get .off s.power.pds 19 = .off then askPd 19 s else s
  else s

/-- The filling of what an activity fills; the spare bank waits for its power domain. -/
def fillFor (a : Activity) (s : State) : State :=
  match bankFilled s a with
  | some b => if fillsSpare s a && !pdUp s 19 then wakeSpare s else readGolden b s
  | none => s

/-- The physical banks under VAULT_RELOAD: the scrub leaves them for the rest of its pass (Table 14.9). -/
def reloading (s : State) : List Nat :=
  (s.reserve.acts.filter (fun a => decide (a.code = Act.vaultReload))).map (fun a => physOf s 0 a.res)

/-- A pass that starts leaves the banks under VAULT_RELOAD, and a bank whose reload starts is left by the pass that
runs. -/
def leaveBanks (a : Activity) (s : State) : State :=
  if a.code = Act.scrub then { s with reserve := { s.reserve with left := reloading s } }
  else if a.code = Act.vaultReload then
    { s with reserve := { s.reserve with left := s.reserve.left.insert (physOf s 0 a.res) } }
  else s

/-- An activity begins to run. -/
def beginActivity (a : Activity) (s : State) : State :=
  fillFor a (leaveBanks a { s with reserve := { s.reserve with acts := s.reserve.acts ++ [a] } })

/-- A start by the block itself: at once, or waiting in the order in which starts arose (Table 14.9). -/
def startOrWait (a : Activity) (s : State) : State :=
  if (holder s a).isSome then { s with reserve := { s.reserve with waits := s.reserve.waits ++ [a] } }
  else beginActivity a s

/-- Starts that waited begin, in order, as far as nothing running conflicts with them. -/
def startWaiting (s : State) : State :=
  s.reserve.waits.foldl (fun s a =>
    if (holder s a).isSome then s
    else beginActivity a { s with reserve := { s.reserve with waits := s.reserve.waits.erase a } }) s

/-- An activity ends, and what waited for it begins. -/
def endActivity (a : Activity) (s : State) : State :=
  startWaiting { s with reserve := { s.reserve with acts := s.reserve.acts.erase a } }

/-! ### The patrol scrub begins (R449) -/

/-- Whether RESERVE works: bring-up has ended (R503). -/
def reserveUp (s : State) : Bool := decide (s.boot.phase = 6) && pdUp s 0

/-- The scrub as an activity. -/
abbrev scrubAct : Activity := { code := Act.scrub, res := 0, cls := 0 }

/-- Whether a pass runs. -/
def scrubRuns (s : State) : Bool := s.reserve.acts.any (fun a => decide (a.code = Act.scrub))

/-- Whether a pass runs or waits to. -/
def scrubAsked (s : State) : Bool := scrubRuns s || s.reserve.waits.any (fun a => decide (a.code = Act.scrub))

/-- A pass begins: nothing has been read, no bank has shown an uncorrectable error. -/
def beginPass (s : State) : State :=
  { s with reserve := { s.reserve with visits := 0, weakNew := [], dirty := [] } }

/-- The automatic pass that follows, while RSV_SCRUB.EN is set. -/
def automaticPass (s : State) : State :=
  if bit (reg s R.RSV_SCRUB) 8 && reserveUp s && !scrubAsked s then startOrWait scrubAct (beginPass s) else s

/-- A refused start: the holder and the resource in RSV_BUSY, and RSV_REFUSED (Table 14.9). -/
def refuseStart (h : Activity) (req : Nat) (s : State) : State :=
  let s := bump R.RSV_REFUSED 1 s
  if bit (reg s R.RSV_BUSY) 31 then s
  else setReg R.RSV_BUSY (h.code + h.res % 65536 * 2 ^ 4 + req * 2 ^ 20 + 2 ^ 31) s

/-- The first event since RSV_EVT was cleared (Table 14.26). -/
def rsvEvent (status cls idx macro_ row : Nat) (s : State) : State :=
  logFirst R.RSV_EVT_LO (status + cls * 2 ^ 8 + idx % 2048 * 2 ^ 11) R.RSV_EVT_HI
    (macro_ % 65536 + row % 1024 * 2 ^ 16) s

/-- A live repair joins the pending ring of 16 entries (R456). -/
def addPending (r : Repair) (s : State) : State :=
  if 16 ≤ s.reserve.pending.length then setRegBit R.RSV_STAT 5 s
  else { s with reserve := { s.reserve with pending := s.reserve.pending ++ [r] } }

end Sys2Proof.Machine
end

