-- ==== Sys2Proof/Machine/Vault.lean ====
section
/-!
DEFINITION. VAULT (R216 to R228, R446): the placement of an image's tables, the buckets a lookup reads, and what the
reads of a tile cost and count.
-/

namespace Sys2Proof.Machine

/-- Table codes (Table 6.4). -/
abbrev Code.pair : Nat := 1
abbrev Code.smap : Nat := 2
abbrev Code.cache : Nat := 3

/-! ### Keys and hashes -/

/-- The key of a PAIR entry (R219). -/
def pairKey (l r : Nat) : List Byte := toLE 5 (l % 2 ^ 20 + r % 2 ^ 20 * 2 ^ 20)

/-- The key of an SMAP entry (Table 6.4). -/
def smapKey (cont : Bool) (bs : List Byte) : List Byte := BitVec.ofNat 8 (flag cont) :: bs

/-- The two hashes of a key (R219). -/
def hash1 (im : TokImage) (code : Nat) (key : List Byte) : Nat :=
  crc32cFrom (bits im.seed 0 32) (BitVec.ofNat 8 code :: key)
def hash2 (im : TokImage) (code : Nat) (key : List Byte) : Nat :=
  crc32cFrom (bits im.seed 32 32) (BitVec.ofNat 8 code :: key)

/-- Bank, sub-bank and index of a hash in a table of `b` buckets per sub-bank (R219). -/
def bucketOf (z : Size) (b h : Nat) : Nat × Nat × Nat :=
  let nb := z.vaultBanks
  (bits h 0 4 % nb, bits h 4 3, (bits h 7 25 * (16 / nb) + bits h 0 4 / nb) % b)

/-- Entries a bucket of a table holds (Table 6.4). -/
def bucketCap (code : Nat) : Nat := if code = Code.pair then 3 else 1

/-- Buckets per sub-bank of a table of a placed image. -/
def tableSize (b : Nat × Nat × Nat) (code : Nat) : Nat :=
  if code = Code.pair then b.1 else if code = Code.smap then b.2.1 else b.2.2

/-! ### The image's bytes (R510) -/

/-- The fingerprint an image carries; `f` where the bytes show none. -/
def headPrint (data : List Byte) (f : Nat) : Nat := ((Config.imageHead data).map Prod.fst).getD f

/-- A tokeniser image as its bytes give it. -/
def tokImage (data : List Byte) : Option TokImage :=
  (Config.parseTokeniser data).map (fun im => { im with fingerprint := headPrint data im.fingerprint })

/-! ### Placement (R224) -/

/-- Buckets of the TOK table, and of TOK and HEAP together. -/
def tokBuckets (im : TokImage) : Nat := ceilDiv im.vocab 8
def directBuckets (im : TokImage) : Nat := tokBuckets im + ceilDiv ((im.toks.map (fun t => t.1.length)).sum) 64

/-- Buckets per sub-bank of an allocation. -/
def perSubBank (z : Size) (units : Nat) : Nat := units * z.unitBytes / 512

/-- Buckets of TOK and HEAP in each sub-bank. -/
def directRows (z : Size) (im : TokImage) : Nat := ceilDiv (directBuckets im) (8 * z.vaultBanks)

/-- The largest of three shares gives up what the raised ones take too much (log entry 153). -/
def giveUp (b : Nat × Nat × Nat) (n : Nat) : Nat × Nat × Nat :=
  if b.2.1 ≤ b.1 ∧ b.2.2 ≤ b.1 then (b.1 - n, b.2.1, b.2.2)
  else if b.2.2 ≤ b.2.1 then (b.1, b.2.1 - n, b.2.2)
  else (b.1, b.2.1, b.2.2 - n)

/-- Buckets per sub-bank of PAIR, SMAP and CACHE after TOK and HEAP; none when they do not fit. -/
def tableSizes (z : Size) (im : TokImage) (units : Nat) : Option (Nat × Nat × Nat) :=
  let rows := directRows z im
  let n := perSubBank z units
  let rem := n - rows
  let all := im.shares.1 + im.shares.2.1 + im.shares.2.2
  let part (x : Nat) : Nat := max 1 (rem * x / all)
  let b := (part im.shares.1, part im.shares.2.1, part im.shares.2.2)
  if rows + 3 ≤ n then some (giveUp b (b.1 + b.2.1 + b.2.2 - rem)) else none

/-- Whether a bucket has a free slot for an entry: never in an absent bank (R447). -/
def hasSlot (absent : List Nat) (ps : List Placed) (code : Nat) (k : Nat × Nat × Nat) : Bool :=
  !absent.contains k.1 &&
    decide ((ps.filter (fun p => p.code == code && p.bucket == k)).length < bucketCap code)

/-- Places one entry; an entry with no room stays for the overflow table. -/
def placeOne (z : Size) (absent : List Nat) (im : TokImage) (b : Nat × Nat × Nat) (code : Nat)
    (acc : List Placed × List (Nat × List Byte)) (key : List Byte) : List Placed × List (Nat × List Byte) :=
  let k1 := bucketOf z (tableSize b code) (hash1 im code key)
  let k2 := bucketOf z (tableSize b code) (hash2 im code key)
  if hasSlot absent acc.1 code k1 then
    (acc.1 ++ [{ code := code, key := key, lies := .h1, bucket := k1 }], acc.2)
  else if hasSlot absent acc.1 code k2 then
    (acc.1 ++ [{ code := code, key := key, lies := .h2, bucket := k2 }], acc.2)
  else (acc.1, acc.2 ++ [(code, key)])

/-- The keys of a table in the image's order. -/
def pairKeys (im : TokImage) : List (List Byte) := im.merges.map (fun m => pairKey m.left m.right)
def smapKeys (im : TokImage) : List (List Byte) := im.smap.map (fun e => smapKey e.cont e.key)
def cacheKeys (im : TokImage) : List (List Byte) := (im.cache.getD []).map Prod.fst

/-- Whether an overflow bucket takes an entry: it holds entries of one table, as its header names one. -/
def ovfSlot (ps : List Placed) (code k : Nat) : Bool :=
  let here := ps.filter (fun p => (p.lies == .ovf1 || p.lies == .ovf2) && p.bucket == (0, 0, k))
  here.all (fun p => p.code == code) && decide (here.length < bucketCap code)

/-- Places the overflow entries in a table of `no` buckets; none when one finds no bucket (R227). -/
def placeOvf (im : TokImage) (no : Nat) : List (Nat × List Byte) → List Placed → Option (List Placed)
  | [], ps => some ps
  | (code, key) :: rest, ps =>
    let k1 := hash1 im code key % no
    let k2 := hash2 im code key % no
    if ovfSlot ps code k1 then
      placeOvf im no rest (ps ++ [{ code := code, key := key, lies := .ovf1, bucket := (0, 0, k1) }])
    else if ovfSlot ps code k2 then
      placeOvf im no rest (ps ++ [{ code := code, key := key, lies := .ovf2, bucket := (0, 0, k2) }])
    else none

/-- Buckets of TOK and HEAP that would lie in absent banks (R447). -/
def directAbsent (z : Size) (absent : List Nat) (im : TokImage) : List Nat :=
  if absent.isEmpty then []
  else (List.range (directBuckets im)).filter (fun i => absent.contains (i % z.vaultBanks))

/-- The overflow table: the smallest power of two that takes every entry, within 64 MiB with the direct lines
of absent banks behind it; none when there is no such size. -/
def buildOvf (im : TokImage) (direct : Nat) (left : List (Nat × List Byte)) (ps : List Placed) :
    Option (Nat × List Placed) :=
  if left.isEmpty then (if direct ≤ 2 ^ 20 then some (0, ps) else none)
  else (List.range 21).findSome? (fun k =>
    match placeOvf im (2 ^ k) left ps with
    | some ps => if 2 ^ k + direct ≤ 2 ^ 20 then some (2 ^ k, ps) else none
    | none => none)

/-- The placement of an image in so many units: the bucket counts, NO and the entries; none is ST_CAPACITY
(R224). -/
def placeImage (z : Size) (absent : List Nat) (im : TokImage) (units : Nat) :
    Option ((Nat × Nat × Nat) × Nat × List Placed) :=
  match tableSizes z im units with
  | none => none
  | some b =>
    let acc := (pairKeys im).foldl (placeOne z absent im b Code.pair) ([], [])
    let acc := (smapKeys im).foldl (placeOne z absent im b Code.smap) acc
    let cached := (cacheKeys im).foldl (placeOne z absent im b Code.cache) (acc.1, [])
    match buildOvf im (directAbsent z absent im).length acc.2 cached.1 with
    | some (no, ps) => some (b, no, ps)
    | none => none

/-! ### Lookups (R220, R446) -/

/-- What lookups have read: logical banks in the order of the bucket reads, and overflow lines. -/
structure Reads where
  banks : List Nat
  ovf : List Nat
  deriving DecidableEq, Repr

/-- No read. -/
def Reads.none : Reads := { banks := [], ovf := [] }

/-- One set of reads after another. -/
def Reads.add (a b : Reads) : Reads := { banks := a.banks ++ b.banks, ovf := a.ovf ++ b.ovf }

/-- The read of one bucket: nothing from an absent bank. -/
def readBucket (r : Resident) (k : Nat × Nat × Nat) : Reads :=
  if r.absent.contains k.1 then Reads.none else { banks := [k.1], ovf := [] }

/-- Whether SPILL is set in a bucket, or goes as set in an absent bank. -/
def spillSet (z : Size) (r : Resident) (code : Nat) (k : Nat × Nat × Nat) : Bool :=
  r.absent.contains k.1 || r.placed.any (fun p => p.code == code && p.lies == .h2
    && bucketOf z (tableSize r.buckets code) (hash1 r.image code p.key) == k)

/-- Whether OVF is set in a bucket. -/
def ovfSet (z : Size) (r : Resident) (code : Nat) (k : Nat × Nat × Nat) : Bool :=
  r.absent.contains k.1 || r.placed.any (fun p => p.code == code && (p.lies == .ovf1 || p.lies == .ovf2)
    && bucketOf z (tableSize r.buckets code) (hash1 r.image code p.key) == k)

/-- Whether an entry lies in the overflow table. -/
def Placed.over (p : Placed) : Bool := decide (p.lies = .ovf1) || decide (p.lies = .ovf2)

/-- Whether SPILL is set in bucket `k` of the overflow table. -/
def ovfSpill (r : Resident) (k : Nat) : Bool :=
  r.placed.any (fun p => p.lies == .ovf2 && hash1 r.image p.code p.key % r.ovf == k)

/-- The buckets an overflow lookup reads (R227). -/
def ovfBuckets (r : Resident) (code : Nat) (key : List Byte) (found : Option Placed) : List Nat :=
  if r.ovf = 0 then []
  else
    let k1 := hash1 r.image code key % r.ovf
    if (found.map Placed.lies) = some .ovf1 then [k1]
    else if ovfSpill r k1 then [k1, hash2 r.image code key % r.ovf]
    else [k1]

/-- A lookup of a hashed table (R220): the placed entry, the buckets of VAULT it reads and those of the overflow table. -/
def lookupPath (z : Size) (r : Resident) (code : Nat) (key : List Byte) :
    Option Placed × List (Nat × Nat × Nat) × List Nat :=
  let b := tableSize r.buckets code
  let k1 := bucketOf z b (hash1 r.image code key)
  let k2 := bucketOf z b (hash2 r.image code key)
  let found := r.placed.find? (fun p => p.code == code && p.key == key)
  if (found.map Placed.lies) = some .h1 then (found, [k1], [])
  else
    let ks := if spillSet z r code k1 then [k1, k2] else [k1]
    if (found.map Placed.lies) = some .h2 then (found, ks, [])
    else (found, ks, if ovfSet z r code k1 then ovfBuckets r code key found else [])

/-- A lookup of a hashed table: the placed entry, and what it read. -/
def lookup (z : Size) (r : Resident) (code : Nat) (key : List Byte) : Option Placed × Reads :=
  let (found, ks, os) := lookupPath z r code key
  (found, ks.foldl (fun a k => a.add (readBucket r k)) { banks := [], ovf := os.map (r.ovfBase + ·) })

/-- The read of direct bucket `i` of TOK and HEAP: in its bank, or behind the overflow table (R220, R447). -/
def directRead (z : Size) (r : Resident) (i : Nat) : Reads :=
  let b := i % z.vaultBanks
  if r.absent.contains b then
    { banks := [], ovf := [r.ovfBase + r.ovf + ((directAbsent z r.absent r.image).takeWhile (· < i)).length] }
  else { banks := [b], ovf := [] }

/-- Offset of a token's string in HEAP: the strings are packed in ascending token number, an order the spec does not state
(DESIGN CHOICE, log entry 182). -/
def heapOffset (im : TokImage) (t : Nat) : Nat := ((im.toks.take t).map (fun x => x.1.length)).sum

/-- The read of a token's TOK entry. -/
def tokRead (z : Size) (r : Resident) (t : Nat) : Reads := directRead z r (t / 8)

/-- The reads of `n` bytes of HEAP from an offset. -/
def heapRead (z : Size) (r : Resident) (off n : Nat) : Reads :=
  if n = 0 then Reads.none
  else (List.range ((off % 64 + n + 63) / 64)).foldl
    (fun a i => a.add (directRead z r (tokBuckets r.image + off / 64 + i))) Reads.none

/-- The string of a token. -/
def tokBytes (im : TokImage) (t : Nat) : List Byte := ((im.toks[t]?).map Prod.fst).getD []

/-- The characters of a token (CLEN). -/
def tokClen (im : TokImage) (t : Nat) : Nat := ((im.toks[t]?).map Prod.snd).getD 0

/-! ### Buckets (R218, Table 6.5) -/

/-- The token an SMAP entry gives its string; none of a prefix-only entry. -/
def entryToken (e : SmapEntry) : Option Nat := if e.hasTok then some e.tok else none

/-- The header word of a bucket of a hashed table. -/
def bucketHeader (spill ovf : Bool) (code : Nat) : Nat := flag spill + flag ovf * 2 + code % 8 * 2 ^ 8

/-- The words of a PAIR entry. -/
def pairWords (m : Merge) : List Nat :=
  [m.left % 2 ^ 20 + m.right % 2 ^ 20 * 2 ^ 20 + m.merged % 2 ^ 20 * 2 ^ 40 + 2 ^ 63, m.rank % 2 ^ 20]

/-- The words of an SMAP entry. -/
def smapWords (e : SmapEntry) : List Nat :=
  (List.range 5).map (fun i => leAt (e.key.take 40) (8 * i) 8)
    ++ [e.key.length + flag e.ext * 2 ^ 9 + flag e.hasTok * 2 ^ 10 + e.tok % 2 ^ 20 * 2 ^ 11 + flag e.cont * 2 ^ 31 + 2 ^ 32,
      (BitVec.ofInt 32 e.score).toNat]

/-- The words of a CACHE entry. -/
def cacheWords (piece : List Byte) (ts : List Nat) : List Nat :=
  let t (i : Nat) : Nat := (ts[i]?).getD 0 % 2 ^ 20
  [leAt piece 0 8, leAt piece 8 8, piece.length + ts.length * 2 ^ 5 + 2 ^ 9]
    ++ (List.range 3).map (fun i => t (3 * i) + t (3 * i + 1) * 2 ^ 20 + t (3 * i + 2) * 2 ^ 40) ++ [0]

/-- The words of the entry of a hashed table under a key. -/
def entryWords (im : TokImage) (code : Nat) (key : List Byte) : List Nat :=
  if code = Code.pair then
    ((im.merges.find? (fun m => pairKey m.left m.right == key)).map pairWords).getD []
  else if code = Code.smap then
    ((im.smap.find? (fun e => smapKey e.cont e.key == key)).map smapWords).getD []
  else (((im.cache.getD []).find? (fun e => e.1 == key)).map (fun e => cacheWords e.1 e.2)).getD []

/-- The line of a bucket. -/
def bucketLine (header : Nat) (ws : List Nat) : List Byte := padTo 64 (((header :: ws).map (toLE 8)).flatten)

/-- Bucket `k` of a hashed table in VAULT. -/
def hashedBucket (z : Size) (r : Resident) (code : Nat) (k : Nat × Nat × Nat) : List Byte :=
  let ps := r.placed.filter (fun p => p.code == code && !p.over && p.bucket == k)
  bucketLine (bucketHeader (spillSet z r code k) (ovfSet z r code k) code)
    ((ps.map (fun p => entryWords r.image code p.key)).flatten)

/-- The word of a token's TOK entry. -/
def tokWord (im : TokImage) (t : Nat) : Nat :=
  match im.toks[t]? with
  | some x => heapOffset im t % 2 ^ 32 + x.1.length * 2 ^ 32 + x.2 * 2 ^ 41
  | none => 0

/-- Direct bucket `d` of TOK and HEAP. -/
def directBucket (im : TokImage) (d : Nat) : List Byte :=
  if d < tokBuckets im then padTo 64 (((List.range 8).map (fun j => toLE 8 (tokWord im (8 * d + j)))).flatten)
  else padTo 64 ((((im.toks.map Prod.fst).flatten).drop (64 * (d - tokBuckets im))).take 64)

/-- What an image puts into line `i` of its part of a sub-bank: TOK and HEAP, then PAIR, SMAP and CACHE. -/
def vaultLine (z : Size) (r : Resident) (bank sub i : Nat) : List Byte :=
  let rows := directRows z r.image
  let (b1, b2, _) := r.buckets
  if i < rows then directBucket r.image ((8 * i + sub) * z.vaultBanks + bank)
  else if i < rows + b1 then hashedBucket z r Code.pair (bank, sub, i - rows)
  else if i < rows + b1 + b2 then hashedBucket z r Code.smap (bank, sub, i - rows - b1)
  else hashedBucket z r Code.cache (bank, sub, i - rows - b1 - b2)

/-- Bucket `k` of the overflow table (R227). One without an entry has table code 0, which the spec does not state (DESIGN
CHOICE, log entry 183). -/
def ovfBucket (r : Resident) (k : Nat) : List Byte :=
  let ps := r.placed.filter (fun p => p.over && p.bucket == (0, 0, k))
  bucketLine (bucketHeader (ovfSpill r k) false (((ps.head?).map Placed.code).getD 0))
    ((ps.map (fun p => entryWords r.image p.code p.key)).flatten)

/-- The overflow table of an image, the direct lines of absent banks behind it (R227, R447). -/
def ovfTable (z : Size) (r : Resident) : List (List Byte) :=
  (List.range r.ovf).map (ovfBucket r) ++ (directAbsent z r.absent r.image).map (directBucket r.image)

/-- The PAIR entries of a line. -/
def readPairs (line : List Byte) : List Merge :=
  ((List.range 3).filter (fun k => bit (leAt line (8 + 16 * k) 8) 63)).map (fun k =>
    let w := leAt line (8 + 16 * k) 8
    { left := bits w 0 20, right := bits w 20 20, merged := bits w 40 20, rank := bits (leAt line (16 + 16 * k) 8) 0 20 })

/-- The SMAP entry of a line; of a key above 40 bytes the rest comes from HEAP. -/
def readSmap (im : TokImage) (line : List Byte) : List SmapEntry :=
  let w := leAt line 48 8
  if bit w 32 then
    let n := bits w 0 9
    let tok := bits w 11 20
    [{ key := ((line.drop 8).take (min n 40)) ++ ((tokBytes im tok).drop 40).take (n - 40), cont := bit w 31, ext := bit w 9,
       hasTok := bit w 10, tok := tok, score := (BitVec.ofNat 32 (leAt line 56 8)).toInt }]
  else []

/-- An image as its lookups see it once lines of its overflow table have been read, each with its place in the tenant's
overflow space: the entries of those buckets are what the lines hold. -/
def withOvf (r : Resident) (lines : List (Nat × List Byte)) : Resident :=
  let here := lines.filter (fun l => decide (r.ovfBase ≤ l.1) && decide (l.1 < r.ovfBase + r.ovf))
  let gone (code : Nat) (key : List Byte) : Bool := r.placed.any (fun p =>
    p.over && p.code == code && p.key == key && here.any (fun l => decide (l.1 = r.ovfBase + p.bucket.2.2)))
  let of (code : Nat) : List (List Byte) := (here.filter (fun l => decide (bits (leAt l.2 0 8) 8 3 = code))).map Prod.snd
  let im := r.image
  { r with image := { im with
      merges := im.merges.filter (fun m => !gone Code.pair (pairKey m.left m.right))
        ++ ((of Code.pair).map readPairs).flatten,
      smap := im.smap.filter (fun e => !gone Code.smap (smapKey e.cont e.key))
        ++ ((of Code.smap).map (readSmap im)).flatten } }

/-! ### What reads cost, count and wait for -/

/-- What reads are billed: lookups at code 0x07 and lines at code 0x02. -/
def readBill (r : Reads) : List (Nat × Nat) := [(1, r.banks.length), (10, r.ovf.length)]

/-- Whether reads must wait: for a poisoned bank (R392), or for a reload after a bank became absent (R447). -/
def readsStall (s : State) (r : Reads) : Bool :=
  r.banks.any (fun b => s.reserve.poisoned.contains b || s.reserve.absent.contains b)

/-- The banks that an item's work reads are noted (R393). -/
def noteBanks (ledger : Nat) (r : Reads) (s : State) : State :=
  onItem ledger (fun i => { i with
    banks := i.banks ++ ((r.banks.eraseDups).filter (fun b => !i.banks.contains b)) }) s

/-- Counts the reads of a tile's work and notes its banks. -/
def countReads (ledger : Nat) (r : Reads) (s : State) : State :=
  let s := bump64 R.VLT_OVF_LO r.ovf.length (bump64 R.VLT_LOOKUPS_LO r.banks.length s)
  let s := if r.banks.isEmpty then s else bumpFree R.VLT_STALL s
  noteBanks ledger r s

/-- The lines of overflow reads of a tenant slot (R226). -/
def ovfRead (s : State) (k : Nat) (lines : List Nat) : List Line :=
  lines.map (fun i => newLine s (regionBase s 2 + k * 67108864 + 64 * i) [])

/-- The lines an access has read, each with its place in a tenant slot's overflow space. -/
def ovfPlaces (s : State) (k : Nat) (lines : List Line) : List (Nat × List Byte) :=
  lines.map (fun l => ((l.addr - (regionBase s 2 + k * 67108864)) / 64, l.data))

/-- A resident image of a generation with its placement. -/
def residentGen (s : State) (k gen : Nat) : Option Resident :=
  let t := tenant s k
  match (t.now.toList ++ t.oldRows ++ t.oldUnits).find? (fun r => r.gen == gen) with
  | some r => some r
  | none => t.now

/-- VAULT units not allocated to any tenant. -/
def freeUnits (s : State) : Nat :=
  s.build.size.vaultUnits - (s.tenants.map (fun p =>
    ((p.2.now.toList ++ p.2.oldUnits).map Resident.units).sum)).sum

/-- Whether a piece in the block, or a tile before MINT, uses the tables of a generation. -/
def tablesInUse (s : State) (k gen : Nat) : Bool :=
  (allTiles s).any (fun t => decide (t.tenant = k) && visits t Hop.MINT && t.pieces.any (fun p => decide (p.gen = gen)))

/-- Whether a stream still searches on the rows of a generation, whose pieces will use its tables. -/
def rowsInUse (s : State) (k gen : Nat) : Bool :=
  s.streams.any (fun p => decide (p.2.tenant = k) && decide (p.2.sorter.gen = gen)
    && (!p.2.sorter.buf.isEmpty || decide (p.2.sorter.cut ≠ 0) || !p.2.sorter.run.isEmpty))

/-- VAULT_UNITS_FREED: the units of a replaced image that no piece uses become free (R224). -/
def execVaultUnitsFreed (k : BitVec 4) (s : State) : Host.Outcome State Fault Refusal :=
  let t := tenant s k.toNat
  .next (setTenant k.toNat { t with oldUnits := t.oldUnits.filter (fun r =>
    tablesInUse s k.toNat r.gen || rowsInUse s k.toNat r.gen) } s)

end Sys2Proof.Machine
end

