-- ==== Sys2Proof/Machine/Units.lean ====
section
/-!
DEFINITION. RESERVE at work (R438 to R448, R392): units taken out of service, spares that stand in, weak rows, absent
banks and the poisoning of a bank.
-/

namespace Sys2Proof.Machine

/-! ### Units and spares -/

/-- The spare `p` takes over a function. -/
def standIn (cls u p : Nat) (s : State) : State :=
  { s with reserve := { s.reserve with
    stand := s.reserve.stand.filter (fun x => !(x.1 == cls && x.2.1 == u)) ++ [(cls, u, p)] } }

/-- A unit is out of service. -/
def takeOut (cls i : Nat) (s : State) : State :=
  if unitOut s cls i then s else { s with reserve := { s.reserve with out := s.reserve.out ++ [(cls, i)] } }

/-- Out of service with no spare: a spare that stood in stands in no longer, and ST_SPARE_OUT is in the log; SPARE_OUT
of RSV_STAT shows the lost function (R440). -/
def spareOut (cls i : Nat) (s : State) : State :=
  rsvEvent St.SPARE_OUT cls i 0 0 { s with reserve := { s.reserve with
    stand := s.reserve.stand.filter (fun x => !(x.1 == cls && x.2.2 == i)) } }

/-- Whether the function of some unit of classes 0 to 3 is lost: RSV_STAT.SPARE_OUT. -/
def spareOutNow (s : State) : Bool :=
  s.reserve.out.any (fun x => decide (x.1 < 4) && decide (x.2 < builtUnits s.build.size x.1)
    && !(s.reserve.stand.any (fun y => y.1 == x.1 && y.2.1 == x.2)))

/-! ### Poisoned and absent banks -/

/-- The streams of some items, each once. -/
def streamsOf (is : List Item) : List Nat := (is.map Item.stream).eraseDups

/-- Items of unsettled work that read a bank since its last clean check (R392, R393). -/
def itemsOfBank (s : State) (b : Nat) : List Item :=
  s.ledger.items.filter (fun i => !i.settled && i.banks.contains b)

/-- A clean check of a bank: work that read it before is no longer suspect (R450). -/
def cleanCheck (b : Nat) (s : State) : State :=
  { s with ledger := { s.ledger with
    items := s.ledger.items.map (fun i => { i with banks := i.banks.filter (· != b) }) } }

/-- Steps 3 and 4 of R392: the affected items' streams are replayed, the poison cleared and counted. -/
def clearPoison (b : Nat) (s : State) : State :=
  let hit := itemsOfBank s b
  let nos := hit.map Item.ledger
  let s := { s with reserve := { s.reserve with poisoned := s.reserve.poisoned.filter (· != b) } }
  let s := cleanCheck b s
  let s := { s with ledger := { s.ledger with items := s.ledger.items.map (fun i =>
    if nos.contains i.ledger && !i.complete && !i.completing then { i with poison := true } else i) } }
  let s := (streamsOf hit).foldl (fun s n => replayStream n s) s
  bump R.AUD_POISON 1 (audFault 3 b St.POISON ((nos.head?).getD 0) s)

/-- Starts the reload of a tenant's image from its place in stack memory, with the absent banks marked (R447). -/
def startReload (k : Nat) (s : State) : State :=
  match (tenant s k).now with
  | none => s
  | some r =>
    let lines := readSpan s r.addr r.len
    startAccess 1 (lineBill lines.length) .read 10 lines (.reload k) s

/-- A logical bank is filled again: it is absent no longer. -/
def bankBack (b : Nat) (s : State) : State :=
  { s with reserve := { s.reserve with absent := s.reserve.absent.filter (· != b) } }

/-- A logical bank becomes absent: every resident image is loaded again (R446, R447). -/
def bankAbsent (b : Nat) (s : State) : State :=
  let s := { s with reserve := { s.reserve with absent := s.reserve.absent ++ [b] } }
  let s := if s.reserve.poisoned.contains b then clearPoison b s else s
  (List.range 16).foldl (fun s k => startReload k s) s

/-- Poisons a logical bank and starts its reload; a SPARE_SWAP that fills the bank's function becomes the
reload (R392, R464). -/
def poisonBank (b : Nat) (s : State) : State :=
  if s.reserve.poisoned.contains b || s.reserve.absent.contains b then s
  else
    let s := { s with reserve := { s.reserve with
      poisoned := s.reserve.poisoned ++ [b],
      dirty := if s.reserve.dirty.contains b then s.reserve.dirty else s.reserve.dirty ++ [b] } }
    if s.reserve.acts.any (fun a => decide (a.code = Act.swap) && decide (a.cls = 0) && decide (functionOf s 0 a.res = b))
    then s
    else startOrWait { code := Act.vaultReload, res := b, cls := 0 } s

/-! ### Retirement -/

/-- A CLERK out of service: its threads stop, FATAL stays set, and its streams' unsettled items complete with
ST_SPARE_OUT (R445). -/
def retireClerk (c : Nat) (s : State) : State :=
  let s := { s with clerkFatal := s.clerkFatal ||| 2 ^ c }
  let s := (whos c).foldl (fun s w => onThread w (fun t =>
    { t with st := if t.st = .faulted then .faulted else .halted, wait := .ready, stopAfter := false,
             stepping := false }) s) s
  let is := s.ledger.items.filter (fun i => decide (home i.stream = c) && !i.settled && !i.complete && !i.completing)
  let s := (streamsOf is).foldl (fun s n => discardTiles n s) s
  is.foldl (fun s i => completeItem i.ledger St.SPARE_OUT .nothing s) s

/-- The NOTARY or EXCHANGE unit that serves a stream (R232, R310). -/
def streamUnit (s : State) (cls n : Nat) : Nat := servingUnit s cls (if cls = 4 then home n else home n / 2)

/-- The streams whose NOTARY or EXCHANGE unit has changed are replayed (R232, R310, R384). -/
def moveStreams (cls : Nat) (old s : State) : State :=
  ((s.streams.filter (fun p => decide (p.2.st ≠ .free)
      && decide (streamUnit old cls p.1 ≠ streamUnit s cls p.1))).map Prod.fst).foldl (fun s n => replayStream n s) s

/-- Whether a spare takes over under SPARE_SWAP (R439): before READY nothing is loaded, and it takes over at once
(Table 16.3). -/
def fills (s : State) (cls : Nat) : Bool := decide (s.boot.phase = 6) && (decide (cls < 4) || decide (cls = 7))

/-- Whether a SPARE_SWAP of a unit runs or waits. -/
def swapAsked (s : State) (cls i : Nat) : Bool :=
  (s.reserve.acts ++ s.reserve.waits).any (fun a => decide (a.code = Act.swap) && decide (a.cls = cls) && decide (a.res = i))

/-- Whether a unit is out of service or on its way out. -/
def leaving (s : State) (cls i : Nat) : Bool := unitOut s cls i || swapAsked s cls i

/-- How many spares running or waiting SPARE_SWAPs are to fill for units they replace, other than one. -/
def sparesTaken (s : State) (cls i : Nat) : Nat :=
  ((s.reserve.acts ++ s.reserve.waits).filter (fun a =>
    decide (a.code = Act.swap) && decide (a.cls = cls) && decide (a.res ≠ i) && !unitOut s cls a.res)).length

/-- The spares of a class that another retirement can have: not those that SPARE_SWAP is to fill (R440). -/
def sparesLeft (s : State) (cls i : Nat) : List Nat :=
  ((freeSpares s cls).filter (· != i)).drop (sparesTaken s cls i)

/-- Whether a spare stands in for no unit. -/
def idleSpare (s : State) (cls i : Nat) : Bool :=
  decide (builtUnits s.build.size cls ≤ i) && decide (functionOf s cls i = i)

/-- Takes a unit out of service: a spare takes over under SPARE_SWAP, or at once before READY, or the unit's function is lost (Table 14.1). Gives the status of R458. -/
def retireUnit (cls i : Nat) (s : State) : State × Nat :=
  if leaving s cls i then (s, St.OK)
  else
    let s := bump R.RSV_RETIRED 1 s
    if cls < 4 ∧ idleSpare s cls i then (takeOut cls i s, St.OK)
    else if cls < 4 then
      match sparesLeft s cls i with
      | p :: _ =>
        if fills s cls then (startOrWait { code := Act.swap, res := i, cls := cls } s, St.OK)
        else (standIn cls (functionOf s cls i) p (takeOut cls i (if cls = 0 then wakeSpare s else s)), St.OK)
      | [] =>
        let u := functionOf s cls i
        let s := spareOut cls i (takeOut cls i s)
        (if cls = 0 then bankAbsent u s else s, St.SPARE_OUT)
    else if cls = 6 then (retireClerk i (takeOut 6 i s), St.OK)
    else (moveStreams cls s (takeOut cls i s), St.OK)

/-- A retirement the block makes by itself, with its pending entry (R456); a unit already out of service or on its way out
is retired no second time. -/
def retireLive (cls i : Nat) (s : State) : State :=
  if leaving s cls i then s else addPending { action := 2, cls := cls, idx := i, row := 0 } (retireUnit cls i s).1

/-! ### Station units whose checks fail (Table 11.10) -/

/-- The hop a tile has come from. -/
def prevHop (t : Tile) : Option Nat := if routeIdx t.route = 0 then none else some (routeHop t.route (routeIdx t.route - 1))

/-- One of the units of a class in service: which of them worked on a tile the spec does not say, so that is a free
value. -/
def someUnit (s : State) (cls : Nat) : Option (Nat × Nat) × State :=
  let us := (List.range (builtUnits s.build.size cls)).filter (fun u => !unitOut s cls (physOf s cls u))
  let (v, s) := takeFree s
  (us[v % us.length]?.map (fun u => (cls, physOf s cls u)), s)

/-- The unit that computed the check a tile has come with; none for TELLER, ASSAY and FLOW. -/
def checkedBy (t : Tile) (s : State) : Option (Nat × Nat) × State :=
  match prevHop t with
  | none => (none, s)
  | some h =>
    if h = Hop.SORTER then someUnit s 1
    else if h = Hop.MINT then someUnit s 2
    else if h = Hop.CLEARING then someUnit s 3
    else if h = Hop.NOTARY then (some (4, streamUnit s 4 t.stream), s)
    else if h = Hop.EXCHANGE then (some (5, streamUnit s 5 t.stream), s)
    else (none, s)

/-- A check failed on what a unit computed: the second time, the unit is mapped out, unless it is the last NOTARY or
EXCHANGE unit (Table 11.10, log entry 151). -/
def unitFailed (u : Nat × Nat) (ledger : Nat) (s : State) : State :=
  if !s.reserve.suspect.contains u then { s with reserve := { s.reserve with suspect := s.reserve.suspect ++ [u] } }
  else
    let s := { s with reserve := { s.reserve with suspect := s.reserve.suspect.filter (· != u) } }
    if 4 ≤ u.1 ∧ unitsUp s u.1 ≤ 1 then s else retireLive u.1 u.2 (audFault 1 u.2 0 ledger s)

/-- A check that fails at a station that takes a tile (R391, R394). -/
def checkFails (link : Nat) (t : Tile) (s : State) : State :=
  let (u, s) := checkedBy t s
  checkFailed link t (match u with
    | some u => unitFailed u t.ledger s
    | none => s)

/-! ### Weak rows (R441 to R444) -/

/-- Spare rows of a macro that a row uses or that are dead. -/
def spareRowsUsed (s : State) (f m : Nat) : List Nat :=
  (s.reserve.rowmap.filter (fun x => x.1 == f && x.2.1 == m)).map (fun x => x.2.2.2)
    ++ (s.reserve.dead.filter (fun x => x.1 == f && x.2.1 == m)).map (fun x => x.2.2)

/-- The lowest unused spare row of a macro. -/
def spareRow (s : State) (f m : Nat) : Option Nat :=
  (List.range 8).map (fun i => 512 + i) |>.find? (fun r => !(spareRowsUsed s f m).contains r)

/-- A row mapped to a spare row. -/
def mapRow (f m row spare : Nat) (s : State) : State :=
  { s with reserve := { s.reserve with rowmap := s.reserve.rowmap ++ [(f, m, row, spare)] } }

/-- The class of a macro that leaves use, in the list of what is out of service. -/
abbrev macroClass (f : Nat) : Nat := 16 + f

/-- The last column of Table 14.2: what happens when a macro's spare rows are spent. A twin whose own SPARE_SWAP runs or
waits has spent its spares (R444). -/
def spentMacro (f m row : Nat) (live : Bool) (s : State) : State × Nat :=
  let unit (cls i : Nat) : State × Nat := if live then (retireLive cls i s, St.OK) else retireUnit cls i s
  let note (s : State) : State :=
    if live then addPending { action := 1, cls := f, idx := m, row := row } s else s
  if f = 0 then unit 0 (m / 96)
  else if f = 1 then unit 1 (m / 64)
  else if f = 6 then unit 6 (m / 5)
  else if f = 7 then
    if swapAsked s 7 m then (s, St.OK)
    else if unitOut s (macroClass 7) (twin m) || swapAsked s 7 (twin m) then
      (note (rsvEvent St.FATAL 7 0 m row (setRegBit R.RSV_STAT 7 (takeOut (macroClass 7) m s))), St.OK)
    else
      let s := bump R.RSV_RETIRED 1 s
      (note (if fills s 7 then startOrWait { code := Act.swap, res := m, cls := 7 } s else takeOut (macroClass 7) m s), St.OK)
  else (note (takeOut (macroClass f) m s), St.OK)

/-- A row that becomes weak (R442, R443); `live` when the block itself found it. -/
def remapRow (f m row : Nat) (live : Bool) (s : State) : State × Nat :=
  if unitOut s (macroClass f) m || s.reserve.dead.contains (f, m, row) then (s, St.OK)
  else
    let note (s : State) : State :=
      if live then addPending { action := 1, cls := f, idx := m, row := row } s else s
    let kill (s : State) : State :=
      bump R.RSV_DEADROW 1 { s with reserve := { s.reserve with dead := s.reserve.dead ++ [(f, m, row)] } }
    match s.reserve.rowmap.find? (fun x => x.1 == f && x.2.1 == m && (x.2.2.2 == row || x.2.2.1 == row)) with
    | some x =>
      if x.2.2.1 = row then (s, St.OK)
      else
        let s := kill { s with reserve := { s.reserve with rowmap := s.reserve.rowmap.erase x } }
        match spareRow s f m with
        | some p => (note (mapRow f m x.2.2.1 p s), St.OK)
        | none => spentMacro f m row live s
    | none =>
      if 512 ≤ row then (note (kill s), St.OK)
      else match spareRow s f m with
        | some p => (note (bump R.RSV_ROWMAP 1 (mapRow f m row p s)), St.OK)
        | none => spentMacro f m row live s

/-- What a lookup that meets an error does: a corrected word is written back; an uncorrectable one poisons its
bank and makes its row weak (R223, R392, R442). -/
def vaultError (hw : HwEvent) (ledger : Nat) (s : State) : State :=
  match hw with
  | .corrected _ => bump R.VLT_CORR 1 s
  | .poison b mac row =>
    let s := onItem ledger (fun i => { i with
      banks := if i.banks.contains b.toNat then i.banks else i.banks ++ [b.toNat] }) s
    (remapRow 0 (physOf s 0 b.toNat * 96 + mac.toNat) row.toNat true (poisonBank b.toNat s)).1
  | _ => s

/-- An error that lookups meet where the command names none: whether they meet one, in which of the banks they read, and at
which row, are free values (R223, R392). -/
def readError (r : Reads) (ledger : Nat) (s : State) : State :=
  let (v, s) := takeFree s
  match r.banks[v / 4 % max 1 r.banks.length]? with
  | none => s
  | some b =>
    let (m, s) := takeFree s
    let (row, s) := takeFree s
    if v % 4 = 1 then vaultError (.corrected (BitVec.ofNat 4 b)) ledger s
    else if v % 4 = 2 then vaultError (.poison (BitVec.ofNat 4 b) (BitVec.ofNat 7 (m % 96)) (BitVec.ofNat 10 (row % 512))) ledger s
    else s

/-- Free pages of the mask store beyond those that tiles hold: 16 fewer for each macro out of use. -/
def maskPagesBuilt (s : State) : Nat :=
  s.build.size.maskPages - 16 * (s.reserve.out.filter (fun x => x.1 == macroClass 3 && x.2 < 512)).length

/-- KiB of the hold buffer in use: 64 fewer for each macro out of use. -/
def holdBuilt (s : State) : Nat :=
  2048 - 64 * (s.reserve.out.filter (fun x => x.1 == macroClass 3 && 512 ≤ x.2)).length

end Sys2Proof.Machine
end

