-- ==== Sys2Proof/Machine/Notary.lean ====
section
/-!
DEFINITION. NOTARY (R231 to R270): configurations of a grammar, the mask fields of the mask in force, advances with
the dead-state policies, checkpoints, and the tiles that pass.
-/

namespace Sys2Proof.Machine

/-! ### Configurations (R232 to R236) -/

/-- Class of a stack symbol. -/
def symbolClass (g : GrammarImage) (x : Nat) : Nat :=
  match g.classOf.find? (fun p => p.1 == x) with
  | some p => p.2
  | none => 0

/-- Top class of a stack (R232). -/
def topClass (g : GrammarImage) (stack : List Nat) : Nat :=
  match stack with
  | [] => 0
  | x :: _ => symbolClass g x

/-! ### The records of a grammar image (R234, Table 7.2) -/

/-- The 64-bit word at an offset of a grammar image. -/
def gramWord (g : GrammarImage) (off : Nat) : Nat := leAt g.data off 8

/-- The symbols a record pushes. -/
def pushesOf (n w : Nat) : List Nat := (List.range n).map (fun i => bits w (12 * i) 12)

/-- The residual record at unit `k` of 32 bytes. -/
def readResidual (g : GrammarImage) (k : Nat) : Residual :=
  let w := gramWord g (32 * k)
  { token := bits w 0 20, next := bits w 20 16, pop := bits w 36 5,
    push := pushesOf (bits w 41 2) (gramWord g (32 * k + 8)),
    need := (List.range 15).map (fun i => leAt g.data (32 * k + 16 + i) 1) }

/-- Where the state entry of a state and a class stands. -/
def entryOffset (g : GrammarImage) (q c : Nat) : Nat := g.entryAt + 16 * (q * g.classes + c)

/-- The state entry of a state and a class. -/
def readEntry (g : GrammarImage) (q c : Nat) : StateEntry :=
  let w0 := gramWord g (entryOffset g q c)
  let w1 := gramWord g (entryOffset g q c + 8)
  { maskIndex := bits w0 0 20, minClen := bits w0 20 9,
    residuals := (List.range (bits w0 29 13)).map (fun i => readResidual g (bits w1 0 32 + i)) }

/-- The bucket of a transition record. -/
def transBucket (g : GrammarImage) (t q c : Nat) : Nat :=
  crc32cFrom g.seed (toLE 3 t ++ toLE 2 q ++ toLE 1 c) % g.buckets

/-- Record `i` of the transition table, counted over its buckets of four; none where VALID is clear. -/
def readTrans (g : GrammarImage) (i : Nat) : Option Trans :=
  let w := gramWord g (g.transAt + 16 * i)
  if bit w 63 then
    some { token := bits w 0 20, state := bits w 20 16, cls := bits w 36 8, next := bits w 44 16, pop := bit w 60,
           push := pushesOf (bits w 61 2) (gramWord g (g.transAt + 16 * i + 8)) }
  else none

/-- The state entry of a configuration. -/
def stateEntry (g : GrammarImage) (q : Nat) (stack : List Nat) : StateEntry := readEntry g q (topClass g stack)

/-- The transition record of a token, in its bucket or the next. The bucket behind the last one is the 64 bytes behind the
table, since one read of 128 bytes finds the record (DEDUCED, log entry 184). -/
def transOf (g : GrammarImage) (q : Nat) (stack : List Nat) (t : Nat) : Option Trans :=
  let c := topClass g stack
  let b := transBucket g t q c
  (List.range 8).findSome? (fun j => (readTrans g (4 * b + j)).filter (fun r =>
    r.token == t && r.state == q && r.cls == c))

/-- Whether the check of a residual record passes (R235). -/
def residualPasses (g : GrammarImage) (stack : List Nat) (r : Residual) : Bool :=
  decide (r.pop ≤ stack.length) &&
    (List.range (r.pop - 1)).all (fun k =>
      decide ((stack[k + 1]?).map (symbolClass g) = some ((r.need[k]?).getD 0)))

/-- The residual record of a token whose check passes. -/
def residualOf (g : GrammarImage) (q : Nat) (stack : List Nat) (t : Nat) : Option Residual :=
  (stateEntry g q stack).residuals.find? (fun r => r.token == t && residualPasses g stack r)

/-- What a token does: entries removed, symbols pushed, next state (R233, R236). -/
structure Move where
  pop : Nat
  push : List Nat
  next : Nat
  deriving DecidableEq, Repr

/-- The move of a grammar-legal token. -/
def moveOf (g : GrammarImage) (c : Cfg) (t : Nat) : Option Move :=
  match transOf g c.state c.stack t with
  | some r => some { pop := flag r.pop, push := r.push, next := r.next }
  | none => (residualOf g c.state c.stack t).map (fun r => { pop := r.pop, push := r.push, next := r.next })

/-- The stack after a move: symbols pushed in order, the last one on top. -/
def moveStack (m : Move) (stack : List Nat) : List Nat := m.push.reverse ++ stack.drop m.pop

/-! ### Mask fields (R240 to R247) -/

/-- Long-list tokens with more characters than the remainder (R241, R243). -/
def removesOf (im : TokImage) (r : Nat) : Nat :=
  if r < 63 then 0 else (im.toks.filter (fun t => 64 ≤ t.2 && r < t.2)).length

/-- The residual tokens of a state entry that are in the mask in force, ascending (R244). -/
def patchOf (im : TokImage) (g : GrammarImage) (e : StateEntry) (stack : List Nat) (allow : Bool) (r : Nat) :
    List Nat :=
  ((((e.residuals.filter (residualPasses g stack)).map Residual.token).filter
    (fun t => !allow || decide (tokClen im t ≤ r))).eraseDups).mergeSort (fun a b => decide (a ≤ b))

/-- A configuration with the mask fields of its state entry (R243, R244). With RES_COUNT above 0 the patch is written, and
PSLOT changes, also where no residual record passes; the spec does not say so of an empty patch (DESIGN CHOICE, log
entry 27). -/
def withFields (im : TokImage) (g : GrammarImage) (allow : Bool) (c : Cfg) : Cfg :=
  let e := stateEntry g c.state c.stack
  let patch := patchOf im g e c.stack allow c.remain
  let f : MaskFields :=
    { maskIndex := e.maskIndex, lclass := if allow then min c.remain 63 else 0, lchk := allow, force := false,
      pslot := if e.residuals.isEmpty then c.fields.pslot else 1 - c.fields.pslot,
      remain := if allow then c.remain else 0, grammar := c.grammar, forceToken := 0, adds := patch.length,
      removes := if allow then removesOf im c.remain else 0, accepted := 0 }
  { c with fields := f, patch := patch }

/-- Whether the mask in force is empty (R245). -/
def maskEmpty (g : GrammarImage) (c : Cfg) : Bool :=
  let e := stateEntry g c.state c.stack
  !c.fields.force && decide (c.fields.adds = 0)
    && (decide (e.minClen = 0x1FF) || (c.fields.lchk && decide (c.fields.remain < e.minClen)))

/-- Whether a token is in the mask in force of a configuration, judged by the grammar's records and the allowance
(R233, R243, R244). -/
def tokenLegal (im : TokImage) (g : GrammarImage) (c : Cfg) (t : Nat) : Bool :=
  if c.fields.force then decide (t = c.fields.forceToken)
  else (moveOf g c t).isSome && (!c.fields.lchk || decide (tokClen im t ≤ c.fields.remain))

/-- Mask fields as bytes 48 to 63 of a descriptor (Table 7.3). -/
def maskWords (f : MaskFields) : List Byte :=
  toLE 8 (f.maskIndex % 2 ^ 20 + f.lclass % 64 * 2 ^ 20 + flag f.lchk * 2 ^ 26 + flag f.force * 2 ^ 27
      + flag (decide (0 < f.adds)) * 2 ^ 28 + f.pslot % 2 * 2 ^ 29 + f.remain % 2 ^ 16 * 2 ^ 32
      + f.grammar % 4096 * 2 ^ 48)
    ++ toLE 8 (f.forceToken % 2 ^ 20 + f.adds % 8192 * 2 ^ 20 + f.removes % 8192 * 2 ^ 33 + f.accepted % 2048 * 2 ^ 48)

/-- The mask fields a descriptor holds. -/
def readFields (d : List Byte) : MaskFields :=
  let a := leAt d 48 8
  let b := leAt d 56 8
  { maskIndex := bits a 0 20, lclass := bits a 20 6, lchk := bit a 26, force := bit a 27, pslot := bits a 29 1,
    remain := bits a 32 16, grammar := bits a 48 12, forceToken := bits b 0 20, adds := bits b 20 13,
    removes := bits b 33 13, accepted := bits b 48 11 }

/-! ### Advances (R249 to R259) -/

/-- What an advance or an opening gives: the configuration, the status of the item, what the counters of empty
masks count, and the residual records scanned. -/
structure Adv where
  cfg : Cfg
  status : Nat
  ends : Nat
  falls : Nat
  halts : Nat
  scans : List Nat
  clens : List Nat
  deriving DecidableEq, Repr

/-- The residual records of a configuration's state entry. -/
def scanOf (g : GrammarImage) (c : Cfg) : List Nat :=
  let n := (stateEntry g c.state c.stack).residuals.length
  if n = 0 then [] else [n]

/-- Tokens whose CLEN a computation of mask fields reads: those that pass their residual check. -/
def clenReads (g : GrammarImage) (allow : Bool) (c : Cfg) : List Nat :=
  if allow then
    ((stateEntry g c.state c.stack).residuals.filter (residualPasses g c.stack)).map Residual.token
  else []

/-- The fields that force the end token (Table 7.5, END). -/
def forceEnd (g : GrammarImage) (c : Cfg) : Cfg :=
  { c with fields := { c.fields with force := true, forceToken := g.endToken, maskIndex := 0xFFFFF, lchk := false } }

/-- The dead-state policy of a grammar that does not fall back: END or HALT. -/
def endOrHalt (g : GrammarImage) (a : Adv) : Adv :=
  if g.policy = .endTok then { a with cfg := forceEnd g a.cfg, ends := a.ends + 1 }
  else { a with cfg := { a.cfg with stopped := true }, status := St.DEAD, halts := a.halts + 1 }

/-- Mask fields of a configuration, and the dead-state policy when its mask in force is empty (R257). A fallback's patch
goes into the slot that the stream's previous mask fields did not name: those of the dead entry were never given out. -/
def settleCfg (s : State) (im : TokImage) (g : GrammarImage) (allow : Bool) (c : Cfg) : Adv :=
  let slot := c.fields.pslot
  let c := withFields im g allow c
  let a : Adv := { cfg := c, status := St.OK, ends := 0, falls := 0, halts := 0, scans := scanOf g c,
                   clens := clenReads g allow c }
  if !maskEmpty g c then a
  else if g.policy = .fallback ∧ !c.fallen then
    match grammar s g.fallback with
    | none => { a with cfg := { c with stopped := true }, status := St.DEAD, halts := 1 }
    | some h =>
      let d := withFields im h allow { c with
        state := h.start, stack := [], grammar := g.fallback, fallen := true, fields := { c.fields with pslot := slot } }
      let b : Adv := { a with cfg := d, status := St.FALLBACK, falls := 1, scans := a.scans ++ scanOf h d,
                              clens := a.clens ++ clenReads h allow d }
      if maskEmpty h d then endOrHalt h b else b
  else endOrHalt g a

/-- A configuration with a status, no counter counted. -/
def plainAdv (c : Cfg) (st : Nat) : Adv :=
  { cfg := c, status := st, ends := 0, falls := 0, halts := 0, scans := [], clens := [] }

/-- State and stack after a token. -/
def landing (g : GrammarImage) (c : Cfg) (t : Nat) : Nat × List Nat :=
  match moveOf g c t with
  | some m => (m.next, moveStack m c.stack)
  | none => (c.state, c.stack)

/-- Whether a move would make the stack deeper than 4,096 (R251). -/
def tooDeep (stack : List Nat) : Bool := decide (4096 < stack.length)

/-- An advance over a token in the mask in force (R250, R251, R259). -/
def advance (s : State) (im : TokImage) (allow : Bool) (c : Cfg) (t : Nat) : Adv :=
  match grammar s c.grammar with
  | none => plainAdv { c with stopped := true } St.DEAD
  | some g =>
    let (q, stack) := landing g c t
    if tooDeep stack then plainAdv { c with stopped := true } St.DEAD
    else
      let charged := c.fields.lchk && !c.fields.force
      let read := if charged then [t] else []
      let c := { c with state := q, stack := stack,
                        remain := if charged then c.remain - tokClen im t else c.remain }
      if t = g.endToken then
        let d := withFields im g allow { c with finished := true }
        { plainAdv d St.OK with scans := scanOf g d, clens := read ++ clenReads g allow d }
      else
        let a := settleCfg s im g allow c
        { a with clens := read ++ a.clens }

/-! ### Spill and refill (R252) -/

/-- Entries on chip after a pop: refilled by up to 32 below 16 while entries are spilled; the number of refills. -/
def popChip (pop depth chip : Nat) : Nat × Nat :=
  let chip := chip - pop
  let depth := depth - pop
  if chip < 16 ∧ chip < depth then (min depth (chip + 32), 1) else (min chip depth, 0)

/-- Entries on chip after pushes: the oldest 32 spilled when a push finds 64; the number of spills. -/
def pushChip : Nat → Nat → Nat × Nat
  | 0, chip => (chip, 0)
  | n + 1, chip =>
    let (c, k) := if 64 ≤ chip then (33, 1) else (chip + 1, 0)
    let (c, j) := pushChip n c
    (c, j + k)

/-- Base of a stream's NOTARY records (R253). -/
def notaryBase (s : State) (n : Nat) : Nat := regionBase s 3 + n * 131072

/-- The spill area of a stack: entry at depth d in bytes 2d and 2d + 1. -/
def spillBytes (stack : List Nat) : List Byte :=
  toLE 2 0 ++ ((stack.reverse).map (fun x => toLE 2 (x % 4096))).flatten

/-- The lines of the spill area that hold depths `lo` to `hi`. -/
def spillLines (s : State) (n : Nat) (stack : List Nat) (lo hi : Nat) : List Line :=
  (List.range (2 * hi / 64 - 2 * lo / 64 + 1)).map (fun i =>
    let k := 2 * lo / 64 + i
    newLine s (notaryBase s n + 64 * k) (padTo 64 (((spillBytes stack).drop (64 * k)).take 64)))

/-- Moves stack entries between chip and the spill area for a move; gives the lines a refill reads. -/
def moveChip (n ledger pop push : Nat) (before after : List Nat) (s : State) : State × List Line :=
  let x := (stream s n).notary
  let (c1, refills) := popChip pop before.length x.onChip
  let (c2, spills) := pushChip push c1
  let s := onStream n (fun x => { x with notary := { x.notary with onChip := c2 } }) s
  let s := bump R.NOT_SPILL (refills + spills) s
  let depth := before.length - pop
  let back := if refills = 0 then [] else spillLines s n before (depth - c1 + 1) (depth - (x.onChip - pop))
  if spills = 0 then (s, back)
  else
    let low := after.length - c2 - 32 * spills + 1
    let lines := spillLines s n after low (after.length - c2)
    (startAccess 0 (lineBill lines.length) .write 4 lines (.record n ledger) s, back)

/-! ### Checkpoints (R253 to R256) -/

/-- The order in which the 64 bytes of a checkpoint's header stand: the spec names what it holds and gives no places, so
that order is any (log entry 174). -/
def headerOrder : List Nat := sortBy (fun i j => decide (Config.checkpointKey i < Config.checkpointKey j)) (List.range 64)

/-- The bytes of a checkpoint: in its header the state, the grammar, the depth, REMAIN, the mask fields, FINISHED and
FALLEN, the commit number and the ledger number. -/
def checkpointBytes (c : Cfg) (commitNo ledger : Nat) : List Byte :=
  let h := padTo 64 (toLE 2 c.state ++ toLE 2 c.grammar ++ toLE 2 c.stack.length ++ toLE 2 c.remain ++ maskWords c.fields
    ++ toLE 1 (flag c.finished + 2 * flag c.fallen) ++ toLE 8 commitNo ++ toLE 8 ledger)
  headerOrder.map (fun i => (h[i]?).getD 0)
    ++ ((c.stack.reverse).map (fun x => toLE 2 (x % 4096))).flatten

/-- The header of a checkpoint read back, its fields in the order of `checkpointBytes`. -/
def headerFields (bs : List Byte) : List Byte :=
  (List.range 64).map (fun i => (((headerOrder.zip bs).find? (fun p => p.1 == i)).map Prod.snd).getD 0)

/-- Writes a checkpoint into a slot. -/
def writeCheckpoint (n slot ledger commitNo : Nat) (c : Cfg) (s : State) : State :=
  let lines := writeSpan s (notaryBase s n + 0x2000 + slot * 8448) (checkpointBytes c commitNo ledger)
  startAccess 0 (lineBill lines.length) .write 4 lines (.record n ledger) s

/-- Writes a patch into a slot. -/
def writePatch (n ledger slot : Nat) (patch : List Nat) (s : State) : State :=
  if patch.isEmpty then s
  else
    let lines := writeSpan s (notaryBase s n + 0x10000 + slot * 0x8000) ((patch.map (toLE 4)).flatten)
    startAccess 0 (lineBill lines.length) .write 4 lines (.patch n ledger) s

/-- A restored configuration has its patch slot again (R16, R256): the residual records of its state entry are checked and
their tokens written where its mask fields say, since later advances may have overwritten the slot. The spec does not say
how the slot comes by its tokens; the checks are not counted and not bought (DESIGN CHOICE, log entry 156). -/
def restorePatch (n ledger : Nat) (s : State) : State :=
  let x := stream s n
  let c := x.notary.cfg
  match imageOf s x.tenant, grammar s c.grammar with
  | some im, some g =>
    if c.fields.adds = 0 then s
    else
      let patch := patchOf im g (stateEntry g c.state c.stack) c.stack x.notary.allow c.remain
      writePatch n ledger c.fields.pslot patch (onStream n (fun x => { x with notary := { x.notary with
        cfg := { x.notary.cfg with patch := patch },
        base := x.notary.base.map (fun b => { b with patch := patch }) } }) s)
  | _, _ => s

/-! ### Transition records read from the stacks (R234, R265, R333) -/

/-- Where the loader has put a grammar image in the GRAM region. -/
def gramBase (s : State) (gid len : Nat) : Nat :=
  regionBase s 4 + 64 * (Config.gramPlace gid % ((regionSize s 4 - len) / 64 + 1))

/-- The 128 bytes of a token's transition record: two lines. -/
def transLines (s : State) (gid : Nat) (g : GrammarImage) (c : Cfg) (t : Nat) : List Line :=
  readSpan s (gramBase s gid g.data.length + g.transAt + 64 * transBucket g t c.state (topClass g c.stack)) 128

/-- A look at a configuration's transition record for a token, which on a miss of the transition cache reads it from the
stacks. What the cache holds the spec does not say, so a miss is a free value. -/
def readTransition (cls : Nat) (c : Cfg) (t : Nat) (job : Job) (s : State) : State :=
  match grammar s c.grammar with
  | none => s
  | some g =>
    let (v, s) := takeFree s
    if v % 2 = 0 then s
    else
      let lines := transLines s c.grammar g c t
      startAccess cls (lineBill lines.length) .read 4 lines job (bump R.NOT_TC_MISS 1 s)

/-- Whether the first advance of an item must wait for a settlement (R255). -/
def advanceWaits (s : State) (n ledger : Nat) : Bool :=
  let x := (stream s n).notary
  !x.advItems.contains ledger && decide (3 ≤ x.advItems.length)

/-- Whether an advance of a stream is still resolving: its records or its refill are being read, or its patch written; or
the stream's checkpoint is being read back (R248, R256, R263). -/
def resolving (s : State) (n : Nat) : Bool :=
  s.accesses.any (fun a => match a.job with
    | .patch m _ => m == n
    | .refill m _ _ _ => m == n
    | .advanceRead m _ => m == n
    | .ckptBack m _ => m == n
    | _ => false)

/-- Whether a NEXT or DRAFT of a stream waits for the coins of its advances. -/
def advanceBought (s : State) (n : Nat) : Bool :=
  s.purse.queue.any (fun p => match p.what with
    | .command (.next w _) => decide ((thread s w).stream = n) && decide ((thread s w).wait ≠ .coins)
    | .command (.draft w _) => decide ((thread s w).stream = n) && decide ((thread s w).wait ≠ .coins)
    | _ => false)

/-- Whether NOTARY holds the stream's next tile, MASK, NEXT or DRAFT: an earlier decision tile has not committed,
or an advance is still resolving (R248). -/
def notaryBusy (s : State) (n : Nat) : Bool :=
  let x := (stream s n).notary
  x.pending.isSome || !x.commits.isEmpty || resolving s n || advanceBought s n

/-- The lookups of characters an advance makes. -/
def clenUse (s : State) (k : Nat) (ts : List Nat) : Reads :=
  match (tenant s k).now with
  | none => Reads.none
  | some r => ts.foldl (fun a t => a.add (tokRead s.build.size r t)) Reads.none

/-- What an advance buys beyond its own price: residual scans in units of 25 checks, and lookups (R432, R433). -/
def advanceBill (s : State) (k : Nat) (a : Adv) : List (Nat × Nat) :=
  a.scans.map (fun n => (40, ceilDiv n 25)) ++ readBill (clenUse s k a.clens)

/-- Counts an advance's empty masks and residual checks. -/
def countAdvance (a : Adv) (s : State) : State :=
  bump R.NOT_RES_CHECK (a.scans.sum) (bump R.NOT_EMPTY_HALT a.halts
    (bump R.NOT_EMPTY_FB a.falls (bump R.NOT_EMPTY_END a.ends s)))

/-- The stream of a finished or stopped grammar is DEAD (R259, Table 7.5). -/
def markDead (n : Nat) (s : State) : State :=
  onStream n (fun x => if x.notary.cfg.over ∧ (x.st = .opened ∨ x.st = .held) then { x with st := .dead } else x) s

/-- The overflow lines NOTARY's lookups read; none outside the region. -/
def notaryOverflow (k : Nat) (r : Reads) (job : Job) (s : State) : State :=
  let lines := (ovfRead s k r.ovf).filter (fun l => inRegion s 2 l.addr 64)
  if lines.isEmpty then s else startAccess 0 [] .read 4 lines job s

/-- Where the checkpoint of an item's advance goes (R254): the number of items that have made an advance, and the slot. -/
def ckptSlot (x : NotaryCtx) (ledger : Nat) : Nat × Nat :=
  let first := !x.advItems.contains ledger
  let k := x.count + flag first
  (k, match x.ckpts.find? (fun c => c.ledger == ledger) with
    | some c => if first then k % 4 else c.slot
    | none => k % 4)

/-- Makes one advance of a stream for an item: the configuration, the counters, the checkpoint and patch, and the
status of the item (R250, R254). A patch that needs entries not on chip is written once the refill has been read (R252).
With a resolved result and no residual record the next mask fields are ready at once (R263): what is still read then holds
nothing up but the output records that follow. -/
def makeAdvance (n ledger t : Nat) (s : State) : State :=
  let x := stream s n
  match imageOf s x.tenant with
  | none => s
  | some im =>
    let c := x.notary.cfg
    let a := advance s im x.notary.allow c t
    let move := (grammar s c.grammar).bind (fun g => moveOf g c t)
    let after := (move.map (fun m => moveStack m c.stack)).getD c.stack
    let deep := tooDeep after
    let r := clenUse s x.tenant a.clens
    let s := bump R.NOT_STEPS 1 (countAdvance a (countReads ledger r s))
    let hit := x.notary.cands.contains t
    let ready := hit && a.scans.isEmpty
    let s := if hit then s else readTransition 0 c t (.advanceRead n ledger) s
    let first := !x.notary.advItems.contains ledger
    let (k, slot) := ckptSlot x.notary ledger
    let no := x.notary.commitNo + 1
    let (s, back) := if deep then (s, []) else
      moveChip n ledger ((move.map Move.pop).getD 0) ((move.map (fun m => m.push.length)).getD 0) c.stack after s
    let s := onStream n (fun x => { x with notary := { x.notary with
      cfg := a.cfg, count := k, commitNo := no, cands := [], offered := [],
      onChip := if a.cfg.grammar = c.grammar then x.notary.onChip else 0,
      advItems := if first then x.notary.advItems ++ [ledger] else x.notary.advItems,
      ckpts := x.notary.ckpts.filter (fun c => c.slot != slot)
        ++ [{ slot := slot, ledger := ledger, commit := no, cfg := a.cfg }] } }) s
    let s := notaryOverflow x.tenant r (if ready then .record n ledger else .advanceRead n ledger) s
    let s := if back.isEmpty then writePatch n ledger a.cfg.fields.pslot a.cfg.patch s
      else startAccess 0 (lineBill back.length) .read 4 back
        (if ready then .record n ledger else .refill n ledger a.cfg.fields.pslot a.cfg.patch) s
    let s := writeCheckpoint n slot ledger no a.cfg s
    let s := onItem ledger (fun i => { i with deep := i.deep || deep }) (reportItem ledger a.status 0 s)
    markDead n s

/-- Advances of a stream over tokens in order. -/
def makeAdvances (n ledger : Nat) (ts : List Nat) (s : State) : State :=
  ts.foldl (fun s t => makeAdvance n ledger t s) s

/-- The status that advances over tokens in order report: the first that is not ST_OK. -/
def commitStatus (s : State) (n : Nat) (ts : List Nat) : Nat :=
  let x := stream s n
  match imageOf s x.tenant with
  | none => St.OK
  | some im =>
    (ts.foldl (fun (a : Nat × Cfg) t =>
      let b := advance s im x.notary.allow a.2 t
      (firstStatus a.1 b.status, b.cfg)) (St.OK, x.notary.cfg)).1

/-- The bill of advances over tokens in order; `own` adds the price of each advance (code 0x09). -/
def advancesBill (s : State) (im : TokImage) (k : Nat) (allow own : Bool) : Cfg → List Nat → List (Nat × Nat)
  | _, [] => []
  | c, t :: ts =>
    let a := advance s im allow c t
    (if own then [(24, 1)] else []) ++ advanceBill s k a ++ advancesBill s im k allow own a.cfg ts

/-- Whether tokens are legal in order, each under the mask in force that the earlier ones leave (R260). -/
def tokensLegal (s : State) (im : TokImage) (allow : Bool) : Cfg → List Nat → Bool
  | _, [] => true
  | c, t :: ts =>
    match grammar s c.grammar with
    | none => false
    | some g => !c.over && tokenLegal im g c t && tokensLegal s im allow (advance s im allow c t).cfg ts

/-- The lookups of a stream's advances over tokens in order. -/
def advanceReads (s : State) (n : Nat) (ts : List Nat) : Reads :=
  let x := stream s n
  match imageOf s x.tenant with
  | none => Reads.none
  | some im => clenUse s x.tenant (reads s im x.notary.allow x.notary.cfg ts)
where
  /-- Tokens whose CLEN the advances read. -/
  reads (s : State) (im : TokImage) (allow : Bool) : Cfg → List Nat → List Nat
    | _, [] => []
    | c, t :: ts =>
      let a := advance s im allow c t
      a.clens ++ reads s im allow a.cfg ts

/-- Whether a lookup of an advance must wait for a poisoned or absent bank. -/
def advanceStalls (s : State) (n : Nat) (ts : List Nat) : Bool := readsStall s (advanceReads s n ts)

/-- An error that the lookups of an instruction's advances meet. -/
def lookupError (n ledger : Nat) (ts : List Nat) (s : State) : State := readError (advanceReads s n ts) ledger s

/-- The opening of a stream's grammar (R254, R257): the advance into the start state. -/
def openCfg (s : State) (im : TokImage) (gid allow : Nat) : Option Adv :=
  (grammar s gid).map (fun g =>
    settleCfg s im g (decide (allow ≠ 0))
      { Cfg.empty with state := g.start, grammar := gid, remain := allow })

/-! ### Tiles at NOTARY (R246 to R248, R260, R261, R534) -/

/-- The mask fields NOTARY writes for a stream. -/
def fieldsOf (x : NotaryCtx) : MaskFields := if x.gen then x.cfg.fields else MaskFields.open

/-- MODE of a decision descriptor (Table 8.3). -/
def descMode (d : List Byte) : Nat := bits (leAt d 0 8) 0 2

/-- Whether a decision tile's commit would be the first advance of an item that must wait (R248). -/
def commitWaits (s : State) (n : Nat) (t : Tile) : Bool :=
  (stream s n).notary.gen && visits t Hop.CLEARING && decide (descMode t.payload % 2 = 0) && advanceWaits s n t.ledger

/-- NOTARY writes the mask fields of a decision tile and passes it on; bits [31:0] of word 6 stand in the fingerprint
(R18). -/
def passDecision (n : Nat) (t : Tile) (s : State) : State :=
  let d := t.payload.take 48 ++ maskWords (fieldsOf (stream s n).notary)
  let s := if visits t Hop.CLEARING then
      onStream n (fun x => { x with notary := { x.notary with
        pending := some t.ledger, offered := [], cands := [] } }) s
    else s
  emitTile Hop.NOTARY { t with payload := d, check := crc32c d } (noteEmission 2 t.ledger ((d.drop 48).take 4) s)

/-- NOTARY_DECISION_TILE (R248). -/
def execNotaryDecisionTile (n : BitVec 12) (hw : HwEvent) (s : State) : Host.Outcome State Fault Refusal :=
  let k := n.toNat
  match takeable s Hop.NOTARY k with
  | none => .next s
  | some t =>
    if t.kind ≠ .decision then .next s
    else if hw = .checkFail then .next (sweep (checkFails 5 t (unqueue Hop.NOTARY t s)))
    else if (stream s k).notary.gen && (stream s k).notary.cfg.over then
      .next (sweep (refuseTile Hop.NOTARY t St.DEAD (unqueue Hop.NOTARY t s)))
    else if notaryBusy s k || commitWaits s k t then .next s
    else .next (sweep (passDecision k t (unqueue Hop.NOTARY t s)))

/-- The tokens of a token tile. -/
def tileTokens (t : Tile) : List Nat := (words32 t.payload).map (fun w => w % 2 ^ 20)

/-- The decision tile an accepted token tile gives (R261). -/
def forcedDecision (n : Nat) (t : Tile) (s : State) : Tile :=
  let d := List.replicate 48 (0 : Byte)
    ++ maskWords { fieldsOf (stream s n).notary with accepted := t.count }
  { t with kind := .decision, payload := d, check := crc32c d }

/-- The refusal of a token tile, when there is one (R259 to R261, R534). -/
def tokenTileRefusal (s : State) (n : Nat) (t : Tile) : Option Nat :=
  let x := stream s n
  if x.notary.gen && x.notary.cfg.over then some St.DEAD
  else if t.hopAfter ≠ Hop.LEDGER ∧ t.hopAfter ≠ Hop.CLERK then some St.BAD_OP
  else match imageOf s x.tenant with
    | none => some St.IMAGE
    | some im =>
      if x.notary.gen then
        if tokensLegal s im x.notary.allow x.notary.cfg (tileTokens t) then none else some St.BAD_OP
      else if (tileTokens t).all (fun w => decide (w < im.vocab)) then none
      else some St.BAD_OP

/-- Whether NOTARY holds a token tile (R248). -/
def tokenTileWaits (s : State) (n : Nat) (t : Tile) : Bool :=
  notaryBusy s n || ((stream s n).notary.gen
    && ((!(tileTokens t).isEmpty && advanceWaits s n t.ledger) || advanceStalls s n (tileTokens t)))

/-- NOTARY's work on a token tile, once it has been paid for. -/
def tokenTileBody (n : Nat) (hw : HwEvent) (s : State) : State :=
  match takeable s Hop.NOTARY n with
  | none => s
  | some t =>
    if t.kind ≠ .token then s
    else
      let s := unqueue Hop.NOTARY t s
      if hw = .checkFail then checkFails 3 t s
      else match tokenTileRefusal s n t with
        | some st => refuseTile Hop.NOTARY t st s
        | none =>
          let s := vaultError hw t.ledger s
          let st := commitStatus s n (tileTokens t)
          let s := if (stream s n).notary.gen then
              reportTicket t.origin t.ticket st 0 (makeAdvances n t.ledger (tileTokens t) s)
            else s
          let d := forcedDecision n t s
          emitTile Hop.NOTARY d (noteEmission 2 d.ledger ((d.payload.drop 48).take 4) s)

/-- What NOTARY buys for a token tile (codes 0x09, 0x0A, 0x07). -/
def tokenTileBill (s : State) (n : Nat) (t : Tile) : List (Nat × Nat) :=
  let x := stream s n
  match imageOf s x.tenant with
  | some im =>
    if x.notary.gen && (tokenTileRefusal s n t).isNone then
      advancesBill s im x.tenant x.notary.allow true x.notary.cfg (tileTokens t)
    else []
  | none => []

/-- NOTARY_TOKEN_TILE (R260). -/
def execNotaryTokenTile (n : BitVec 12) (hw : HwEvent) (s : State) : Host.Outcome State Fault Refusal :=
  let k := n.toNat
  match takeable s Hop.NOTARY k with
  | none => .next s
  | some t =>
    if t.kind ≠ .token || tokenTileWaits s k t then .next s
    else .next (sweep (buy 0 (tokenTileBill s k t) (.notaryTokenTile n hw) id (tokenTileBody k hw) s))

/-! ### Commits (R250, R262 to R265) -/

/-- The advance over the oldest commit of a stream, once it has been paid for. A token that finishes the grammar counts
as neither hit nor miss, as step 1208 of Table 7.7 shows. -/
def advanceBody (n : Nat) (hw : HwEvent) (s : State) : State :=
  match (stream s n).notary.commits with
  | [] => s
  | c :: rest =>
    let x := stream s n
    let hit := x.notary.cands.contains c.token
    let ends := match imageOf s x.tenant with
      | some im => (advance s im x.notary.allow x.notary.cfg c.token).cfg.finished
      | none => false
    let s := vaultError hw c.ledger (onStream n (fun x => { x with notary := { x.notary with commits := rest } }) s)
    let st := commitStatus s n [c.token]
    let s := if ends then s
      else if hit then bump R.NOT_RA_HIT 1 s
      else bump R.NOT_RA_MISS 1 (reportItem c.ledger St.OK 16 (reportTicket c.origin c.ticket St.OK 16 s))
    let s := reportTicket c.origin c.ticket st 0 (makeAdvance n c.ledger c.token s)
    onStream n (fun x => if x.notary.cfg.over then { x with notary := { x.notary with ended := some c.ledger } } else x) s

/-- What an advance from a commit buys. -/
def commitBill (s : State) (n : Nat) (c : Commit) : List (Nat × Nat) :=
  let x := stream s n
  match imageOf s x.tenant with
  | some im => advancesBill s im x.tenant x.notary.allow true x.notary.cfg [c.token]
  | none => []

/-- NOTARY_ADVANCE (R250): the advance waits for a settlement while it would be the first of a fourth unsettled
item, and while the advance before it is resolving. -/
def execNotaryAdvance (a : AdvanceEvent) (s : State) : Host.Outcome State Fault Refusal :=
  let k := a.stream.toNat
  match (stream s k).notary.commits with
  | [] => .next s
  | c :: _ =>
    if !stationUp s Hop.NOTARY || advanceWaits s k c.ledger || resolving s k || advanceStalls s k [c.token] then .next s
    else .next (sweep (buy 0 (commitBill s k c) (.notaryAdvance a) id (advanceBody k a.hw) s))

/-- Whether a candidate can be resolved ahead: among the latest eight offered, and not yet resolved (R262, R265). -/
def canResolve (s : State) (n t : Nat) : Bool :=
  let x := (stream s n).notary
  bit (reg s R.NOT_CTRL) 0 && x.gen && (x.offered.drop (x.offered.length - 8)).contains t && !x.cands.contains t

/-- A candidate is resolved, when it is still one. -/
def resolved (n t : Nat) (s : State) : State :=
  if canResolve s n t then
    onStream n (fun x => { x with notary := { x.notary with cands := x.notary.cands ++ [t] } }) s
  else s

/-- Whether a candidate's record is being read. -/
def readingAhead (s : State) (n t : Nat) : Bool :=
  s.accesses.any (fun a => match a.job with
    | .ahead m u => m == n && u == t
    | _ => false)

/-- A candidate that has been paid for: resolved at once, or, on a miss of the transition cache, when its record has been
read. The read's lines are bought in class 2 as well, or it is not made (R428). -/
def aheadBody (n t : Nat) (s : State) : State :=
  let c := (stream s n).notary.cfg
  match grammar s c.grammar with
  | none => resolved n t s
  | some g =>
    let (v, s) := takeFree s
    if v % 2 = 0 then resolved n t s
    else
      let lines := transLines s c.grammar g c t
      let s := bump R.NOT_TC_MISS 1 s
      if mustWait s 2 then bump R.PUR_RA_SKIP 1 s
      else match payBill (lineBill lines.length) s with
        | (s', []) => startAccess 2 [] .read 4 lines (.ahead n t) s'
        | _ => bump R.PUR_RA_SKIP 1 s

/-- RUNAHEAD_RESOLVE (R262): bought in class 2 at code 0x0B or dropped (R428). -/
def execRunaheadResolve (n : BitVec 12) (t : BitVec 20) (s : State) : Host.Outcome State Fault Refusal :=
  if canResolve s n.toNat t.toNat && !readingAhead s n.toNat t.toNat then
    .next (buy 2 [(3, 1)] (.runaheadResolve n t) id (aheadBody n.toNat t.toNat) s)
  else .next s

end Sys2Proof.Machine
end

