-- ==== Sys2Proof/Machine/Values.lean ====
section
/-!
DEFINITION. Numbers as CLEARING sees them (R273 to R276, R296, R297): exact element values, their order, FP32 rounding,
the Philox generator and the noise of MODE 2.
-/

namespace Sys2Proof.Machine

/-- An exact value: NaN, an infinity, or `v` units of 2^-149, with the sign of a zero kept. -/
inductive Val where
  | nan
  | ninf
  | fin (v : Int) (negz : Bool)
  | pinf
  deriving DecidableEq, Repr

/-- Whether a value is NaN. -/
def Val.isNan : Val → Bool
  | .nan => true
  | _ => false

/-- Strictly below, as exact real numbers with the infinities at the ends; −0 equals +0 (R275). -/
def Val.lt : Val → Val → Bool
  | .ninf, .fin _ _ => true
  | .ninf, .pinf => true
  | .fin a _, .fin b _ => decide (a < b)
  | .fin _ _, .pinf => true
  | _, _ => false

/-- Equal under R275. -/
def Val.same (a b : Val) : Bool := !a.isNan && !b.isNan && !a.lt b && !b.lt a

/-! ### FP32 (R276) -/

/-- `n / 2^k` rounded to the nearest integer, ties to even. -/
def rne (n k : Nat) : Nat :=
  let q := n / 2 ^ k
  let r := n % 2 ^ k
  let h := 2 ^ k
  if 2 * r < h then q else if h < 2 * r then q + 1 else q + q % 2

/-- The FP32 magnitude bits nearest to `n` units of 2^-(149+k). -/
def f32Mag (n k : Nat) : Nat :=
  let e := Nat.log2 n - k - 23
  let b := e * 2 ^ 23 + rne n (k + e)
  if 0x7F800000 ≤ b then 0x7F800000 else b

/-- The FP32 bits of a value. -/
def Val.toF32 : Val → Nat
  | .nan => 0x7FC00000
  | .ninf => 0xFF800000
  | .pinf => 0x7F800000
  | .fin v nz => if v < 0 ∨ nz then 0x80000000 + f32Mag v.natAbs 0 else f32Mag v.natAbs 0

/-- The value of a sign and a magnitude. -/
def Val.signed (neg : Bool) (n : Nat) : Val := .fin (if neg then -(n : Int) else n) (neg && n == 0)

/-- The value of FP32 bits. -/
def Val.ofF32 (b : Nat) : Val :=
  let e := bits b 23 8
  let m := bits b 0 23
  if e = 255 then (if m ≠ 0 then .nan else if bit b 31 then .ninf else .pinf)
  else if e = 0 then Val.signed (bit b 31) m
  else Val.signed (bit b 31) ((2 ^ 23 + m) * 2 ^ (e - 1))

/-! ### Element formats (Table 8.2) -/

/-- A small float with `eb` exponent bits and `mb` mantissa bits and no special codes, in units of
2^-(bias + mb - 1) of its own, as sign and magnitude. -/
def smallMag (eb mb x : Nat) : Nat :=
  let e := bits x mb eb
  let m := bits x 0 mb
  if e = 0 then m else (2 ^ mb + m) * 2 ^ (e - 1)

/-- Bits of an element. -/
def fmtBits (fmt : Nat) : Nat :=
  if fmt = 0 then 32 else if fmt = 1 ∨ fmt = 2 ∨ fmt = 8 then 16 else if fmt = 6 then 6 else if fmt = 7 then 4 else 8

/-- Whether a format has block scales. -/
def fmtScaled (fmt : Nat) : Bool := decide (fmt = 5) || decide (fmt = 6) || decide (fmt = 7)

/-- Bytes of the scale section before its padding. -/
def scaleBytes (fmt n : Nat) : Nat := if fmtScaled fmt then ceilDiv n 32 else 0

/-- Beats of a row (R274). -/
def rowBeats (fmt n : Nat) : Nat := ceilDiv (scaleBytes fmt n) 1024 + ceilDiv (ceilDiv (n * fmtBits fmt) 8) 1024

/-- Bits of element `i` of a row. -/
def elemBits (fmt n : Nat) (d : List Byte) (i : Nat) : Nat :=
  let b := fmtBits fmt
  let base := ceilDiv (scaleBytes fmt n) 1024 * 1024
  bits (leAt d (base + b * i / 8) 4) (b * i % 8) b

/-- The exact value of an element of a format from its bits and its block's scale. -/
def elemVal (fmt x scale : Nat) : Val :=
  if fmt = 0 then Val.ofF32 x
  else if fmt = 1 then Val.ofF32 (x * 65536)
  else if fmt = 2 then
    if bits x 10 5 = 31 then (if bits x 0 10 ≠ 0 then .nan else if bit x 15 then .ninf else .pinf)
    else Val.signed (bit x 15) (smallMag 5 10 x * 2 ^ 125)
  else if fmt = 3 then
    if bits x 0 7 = 127 then .nan else Val.signed (bit x 7) (smallMag 4 3 x * 2 ^ 140)
  else if fmt = 4 then
    if bits x 2 5 = 31 then (if bits x 0 2 ≠ 0 then .nan else if bit x 7 then .ninf else .pinf)
    else Val.signed (bit x 7) (smallMag 5 2 x * 2 ^ 133)
  else if fmt = 5 then
    if bits x 0 7 = 127 ∨ scale = 255 then .nan else Val.signed (bit x 7) (smallMag 4 3 x * 2 ^ (13 + scale))
  else if fmt = 6 then
    if scale = 255 then .nan else Val.signed (bit x 5) (smallMag 3 2 x * 2 ^ (18 + scale))
  else if fmt = 7 then
    if scale = 255 then .nan else Val.signed (bit x 3) (smallMag 2 1 x * 2 ^ (21 + scale))
  else if fmt = 8 then .fin (sextInt x 16 * (2 ^ 149 : Nat)) false
  else .fin (sextInt x 8 * (2 ^ 149 : Nat)) false

/-- The exact value of element `i` of a row. -/
def rowVal (fmt n : Nat) (d : List Byte) (i : Nat) : Val :=
  elemVal fmt (elemBits fmt n d i) (if fmtScaled fmt then leAt d (i / 32) 1 else 0)

/-! ### Noise (R296, R297) -/

/-- One round of Philox-4x32. -/
def philoxRound (c : Nat × Nat × Nat × Nat) (k : Nat × Nat) : Nat × Nat × Nat × Nat :=
  let p0 := 0xD2511F53 * c.1
  let p1 := 0xCD9E8D57 * c.2.2.1
  ((p1 / 2 ^ 32 ^^^ c.2.1) ^^^ k.1, p1 % 2 ^ 32, (p0 / 2 ^ 32 ^^^ c.2.2.2) ^^^ k.2, p0 % 2 ^ 32)

/-- Ten rounds with the key raised after each. -/
def philox (n : Nat) (c : Nat × Nat × Nat × Nat) (k : Nat × Nat) : Nat × Nat × Nat × Nat :=
  match n with
  | 0 => c
  | m + 1 => philox m (philoxRound c k) ((k.1 + 0x9E3779B9) % 2 ^ 32, (k.2 + 0xBB67AE85) % 2 ^ 32)

/-- Output word `i mod 4` for entry `i`. -/
def noiseWord (seed step i : Nat) : Nat :=
  let r := philox 10 (i / 4, 0, step % 2 ^ 32, 0) (seed % 2 ^ 32, seed / 2 ^ 32 % 2 ^ 32)
  match i % 4 with
  | 0 => r.1
  | 1 => r.2.1
  | 2 => r.2.2.1
  | _ => r.2.2.2

/-- Fraction bits of the fixed-point logarithm; far beyond what rounding to FP32 can tell apart. -/
abbrev lnBits : Nat := 256

/-- The series of 2 atanh(z) for `z` in units of 2^-256: `p` is the power under way, `k` its odd exponent. -/
def atanhSum (fuel : Nat) (p z2 : Int) (k : Nat) : Int :=
  match fuel with
  | 0 => 0
  | f + 1 => 2 * p / (k : Int) + atanhSum f (p * z2 / (2 ^ lnBits : Nat)) z2 (k + 2)

/-- The logarithm of a / b for 1/2 ≤ a / b ≤ 2. -/
def lnRatio (a b : Int) : Int :=
  let z := (a - b) * (2 ^ lnBits : Nat) / (a + b)
  atanhSum 100 z (z * z / (2 ^ lnBits : Nat)) 1

/-- The logarithm of `n` units of 2^-149, `n` positive, in units of 2^-256. -/
def lnFixed (n : Nat) : Int :=
  let e := Nat.log2 n
  lnRatio n (2 ^ e : Nat) + ((e : Int) - 149) * lnRatio 2 1

/-- A fixed-point number rounded to FP32. -/
def roundFixed (x : Int) : Nat := (if x < 0 then 0x80000000 else 0) + f32Mag x.natAbs (lnBits - 149)

/-- RN(ln(x)) for a positive finite value. -/
def lnF32 (v : Val) : Val :=
  match v with
  | .fin n _ => Val.ofF32 (roundFixed (lnFixed n.natAbs))
  | _ => .nan

/-- The opposite of a value. -/
def Val.neg : Val → Val
  | .nan => .nan
  | .ninf => .pinf
  | .pinf => .ninf
  | .fin v nz => .fin (-v) (v == 0 && !nz)

/-- RN(a × b) of a finite value and any other. -/
def mulF32 (a b : Val) : Val :=
  match a, b with
  | .fin x _, .fin y _ =>
    let p := x * y
    Val.ofF32 ((if p < 0 then 0x80000000 else 0) + f32Mag p.natAbs 149)
  | _, _ => .nan

/-- RN(a + b): an infinite first operand stands. -/
def addF32 (a b : Val) : Val :=
  match a, b with
  | .ninf, _ => .ninf
  | .pinf, _ => .pinf
  | .nan, _ => .nan
  | _, .ninf => .ninf
  | _, .pinf => .pinf
  | _, .nan => .nan
  | .fin x _, .fin y _ => Val.ofF32 (Val.toF32 (.fin (x + y) false))

/-- The noise g of R296 for a Philox word. -/
def gumbel (w : Nat) : Val :=
  let u : Val := .fin (((2 * (w / 512) + 1) * 2 ^ 125 : Nat)) false
  (lnF32 (lnF32 u).neg).neg

/-- y(i) of R296. -/
def noisy (seed step i temp : Nat) (v : Val) : Val :=
  addF32 (Val.ofF32 v.toF32) (mulF32 (Val.ofF32 temp) (gumbel (noiseWord seed step i)))

end Sys2Proof.Machine
end

