-- ==== Sys2Proof/Machine/Masks.lean ====
section
/-!
DEFINITION. What CLEARING reads for a selection: the descriptor (Tables 8.3 and 8.4), slices, areas and shards of
a mask set (R339 to R342), the reads of a dense mask and its assembly (R240, R279).
-/

namespace Sys2Proof.Machine

/-! ### The selection descriptor (R277, R278) -/

/-- The selection fields of a descriptor (Table 8.3); `clean` that every reserved field is 0. -/
structure Desc where
  mode : Nat
  k : Nat
  fmt : Nat
  thin : Bool
  rowlen : Nat
  drafts : Nat
  temp : Nat
  list : Nat
  aux : Nat
  clean : Bool
  deriving DecidableEq, Repr

/-- The selection fields in bytes 0 to 47. -/
def readDesc (d : List Byte) : Desc :=
  let w := leAt d 0 8
  let t := leAt d 8 8
  let l := leAt d 16 8
  let a := leAt d 24 8
  { mode := bits w 0 2, k := bits w 2 7, fmt := bits w 9 4, thin := bit w 13, rowlen := bits w 16 21,
    drafts := bits w 37 5, temp := bits t 0 32, list := bits l 0 48, aux := bits a 0 48,
    clean := decide (bits w 14 2 = 0) && decide (w / 2 ^ 42 = 0) && decide (t / 2 ^ 32 = 0)
      && decide (l / 2 ^ 48 = 0) && decide (a / 2 ^ 48 = 0) && decide (leAt d 32 16 = 0) }

/-- Whether a TEMP is finite and not negative. -/
def tempOk (t : Nat) : Bool := decide (bits t 23 8 ≠ 255) && (!bit t 31 || decide (bits t 0 31 = 0))

/-- Whether a span lies wholly in a stream's output region. -/
def inOutput (x : Stream) (a n : Nat) : Bool :=
  decide (x.outLog2 ≠ 0) && decide (x.outPtr ≤ a) && decide (a + n ≤ x.outPtr + 2 ^ x.outLog2)

/-- The first condition of Table 8.4 that holds. -/
def descRefusal (x : Stream) (next : Nat) (d : Desc) : Option Nat :=
  if !d.clean || decide (9 < d.fmt) || decide (d.k = 0) || decide (64 < d.k) then some St.BAD_OP
  else if d.rowlen = 0 ∨ 2 ^ 20 < d.rowlen then some St.LEN
  else if 16 < d.drafts ∨ (0 < d.drafts ∧ (d.thin ∨ d.mode % 2 = 1)) then some St.BAD_OP
  else if d.mode = 2 ∧ !tempOk d.temp then some St.BAD_OP
  else if d.mode % 2 = 1 ∧ (d.list = 0 ∨ d.list % 64 ≠ 0 ∨ !inOutput x d.list (8 * d.k)) then some St.BOUNDS
  else if (d.mode % 2 = 0 ∧ d.list ≠ 0) ∨ ((d.thin ∨ 0 < d.drafts) ∧ d.aux = 0)
      ∨ (!d.thin ∧ d.drafts = 0 ∧ d.aux ≠ 0) then some St.BAD_OP
  else if next ≠ Hop.EXCHANGE ∧ next ≠ Hop.LEDGER ∧ next ≠ Hop.CLERK then some St.BAD_OP
  else none

/-! ### Slices, areas and shards (R339 to R342) -/

/-- Elements of a 64-byte line at an element width code of Table 10.3. -/
def perLine (width : Nat) : Nat := 64 / 2 ^ width

/-- Element width code of a format; none for the MX formats. -/
def fmtWidth (fmt : Nat) : Option Nat :=
  if fmt = 0 then some 2 else if fmt = 1 ∨ fmt = 2 ∨ fmt = 8 then some 1
  else if fmt = 3 ∨ fmt = 4 ∨ fmt = 9 then some 0 else none

/-- Bank location of an element of a row at a row home. -/
def elemBank (s : State) (width i : Nat) : Nat := bankLoc s (64 * (i / perLine width))

/-- The slice of a bank: its element indices in ascending address order (R339). -/
def slice (s : State) (width bank : Nat) : List Nat :=
  (((List.range (2 ^ regField s R.STK_GEOM 6 5 / 64)).filter (fun i => decide (bankLoc s (64 * i) = bank))).map
    (fun i => (List.range (perLine width)).map (fun j => i * perLine width + j))).flatten

/-- Shard lines S of a bank (R341). -/
def shardLen (s : State) (width bank : Nat) : Nat := ceilDiv (slice s width bank).length 512

/-- Base of a mask set's extent on a stack (R340). -/
def extentBase (s : State) (m : MaskSlot) (stack : Nat) : Nat :=
  let w := 2 ^ regField s R.STK_GEOM 0 6
  (regionBase s 5 + m.offset) % w + stack * w

/-- The home stack of a mask set. -/
def homeStack (s : State) (m : MaskSlot) : Nat := stackOf s (regionBase s 5 + m.offset)

/-- The area of a bank: the lines of the extent with its bank location, ascending (R340). -/
def area (s : State) (m : MaskSlot) (stack bank : Nat) : List Nat :=
  ((List.range (2 ^ m.extLog2 / 64)).map (fun i => extentBase s m stack + 64 * i)).filter
    (fun a => decide (bankLoc s a = bank))

/-- Long-list tokens LLN in a bank's slice. -/
def longInBank (s : State) (m : MaskSlot) (bank : Nat) : Nat :=
  (m.image.longList.filter (fun t => decide (elemBank s m.image.width t.1 = bank))).length

/-- First area line of the shard of mask `idx`, or of length class `idx`. -/
def shardAt (s : State) (m : MaskSlot) (bank : Nat) (cls : Bool) (idx : Nat) : Nat :=
  let n := shardLen s m.image.width bank
  if cls then 1 + idx * n else 1 + 64 * n + ceilDiv (longInBank s m bank) 16 + idx * n

/-- One line of a dense mask read: which mask it belongs to (0 the mask, 1 the length class, 2 the patch), its
address, and the elements of its bits. -/
structure MaskLine where
  part : Nat
  addr : Nat
  elems : List Nat
  deriving DecidableEq, Repr

/-- The lines of a mask or a length class on the home stack. -/
def shardLines (s : State) (m : MaskSlot) (cls : Bool) (idx : Nat) : List MaskLine :=
  ((List.range 512).map (fun b =>
    let el := slice s m.image.width b
    let ar := area s m (homeStack s m) b
    (List.range (shardLen s m.image.width b)).map (fun j =>
      { part := flag cls, addr := (ar[shardAt s m b cls idx + j]?).getD 0,
        elems := (el.drop (512 * j)).take 512 }))).flatten

/-- The mask set a grammar's masks lie in. -/
def setOf (s : State) (gid : Nat) : Option MaskSlot := (grammar s gid).bind (fun g => maskSlot s g.maskSet)

/-- The lines CLEARING reads for mask fields: the mask, its length class and the patch. -/
def maskPlan (s : State) (n : Nat) (f : MaskFields) : List MaskLine :=
  if f.force then []
  else
    let shards := match setOf s f.grammar with
      | some m =>
        (if f.maskIndex = 0xFFFFF then [] else shardLines s m false f.maskIndex)
          ++ (if f.lchk then shardLines s m true f.lclass else [])
      | none => []
    shards ++ (List.range (ceilDiv (4 * f.adds) 64)).map (fun i =>
      { part := 2, addr := notaryBase s n + 0x10000 + f.pslot * 0x8000 + 64 * i, elems := [] })

/-! ### Assembly (R240, R342) -/

/-- The bit set of a list of tokens. -/
def bitSet (ts : List Nat) : Nat := ts.foldl (fun a t => a ||| 2 ^ t) 0

/-- The elements whose bits a line sets. -/
def lineElems (l : MaskLine) (data : List Byte) : List Nat :=
  ((l.elems.zipIdx).filter (fun e => bit (leAt data (e.2 / 8) 1) (e.2 % 8))).map Prod.fst

/-- One mask as read. -/
def assemble (part : Nat) (ls : List (MaskLine × List Byte)) : Nat :=
  bitSet (((ls.filter (fun l => l.1.part == part)).map (fun l => lineElems l.1 l.2)).flatten)

/-- The patch tokens as read. -/
def patchRead (n : Nat) (ls : List (MaskLine × List Byte)) : List Nat :=
  (((words32 (((ls.filter (fun l => l.1.part == 2)).map Prod.snd).flatten)).take n).map (fun w => w % 2 ^ 20))

/-- Pages of a mask of V tokens. -/
def pagesOf (vocab : Nat) : Nat := ceilDiv vocab 32768

/-- The 4 KiB of page `i` of a mask. -/
def pageBytes (m i : Nat) : List Byte := toLE 4096 (m / 2 ^ (32768 * i) % 2 ^ 32768)

/-- The page checks of a mask. -/
def maskChecks (vocab m : Nat) : List Nat := (List.range (pagesOf vocab)).map (fun i => crc32c (pageBytes m i))

/-- The page checks of a set: of its masks, then of its length classes (R342). -/
def pageChecks (im : MaskSetImage) : List (List Nat) :=
  im.masks.map (maskChecks im.vocab) ++ im.lenMasks.map (maskChecks im.vocab)

/-- The pages of a mask as read that fail the page checks kept of it (R279, R342). -/
def badPages (vocab got : Nat) (want : List Nat) : List Nat :=
  (List.range (pagesOf vocab)).filter (fun i => decide ((maskChecks vocab got)[i]? ≠ want[i]?))

/-! ### What a bank's area holds (Table 10.3) -/

/-- A mask's shard lines for the elements of a slice: 512 elements a line. -/
def shardBytes (elems : List Nat) (mask : Nat) : List (List Byte) :=
  (chunksOf (elems.length + 1) 512 elems).map (fun es =>
    toLE 64 ((es.zipIdx.map (fun e => flag (bit mask e.1) * 2 ^ e.2)).sum))

/-- The words of a bank's long-list slice. -/
def longWords (s : State) (m : MaskSlot) (bank : Nat) : List Nat :=
  (m.image.longList.filter (fun t => decide (elemBank s m.image.width t.1 = bank))).map (fun t =>
    t.1 % 2 ^ 20 + t.2 % 2 ^ 9 * 2 ^ 20)

/-- The area header of a bank. -/
def areaHeader (s : State) (m : MaskSlot) (bank : Nat) : List Byte :=
  padTo 64 (toLE 8 (shardLen s m.image.width bank % 2 ^ 16 + longInBank s m bank % 2 ^ 16 * 2 ^ 16
    + m.image.masks.length % 2 ^ 20 * 2 ^ 32 + m.image.width % 4 * 2 ^ 52))

/-- The lines of a bank's area. -/
def areaLines (s : State) (m : MaskSlot) (bank : Nat) : List (List Byte) :=
  let el := slice s m.image.width bank
  let long := ((longWords s m bank).map (toLE 4)).flatten
  [areaHeader s m bank] ++ ((List.range 64).map (fun k => shardBytes el ((m.image.lenMasks[k]?).getD 0))).flatten
    ++ (chunksOf (long.length + 1) 64 long).map (padTo 64) ++ (m.image.masks.map (shardBytes el)).flatten

/-- The long list of an image: descending CLEN, ties in ascending token number (R241). -/
def longList (im : TokImage) : List Nat :=
  ((((im.toks.zipIdx).filter (fun t => decide (64 ≤ t.1.2))).mergeSort
    (fun a b => decide (b.1.2 < a.1.2) || (decide (a.1.2 = b.1.2) && decide (a.2 ≤ b.2)))).map Prod.snd)

/-- Every token below `n`. -/
def allTokens (n : Nat) : Nat := 2 ^ n - 1

/-- A bit set without some tokens. -/
def without (m : Nat) (ts : List Nat) : Nat := m - (m &&& bitSet ts)

/-- The mask in force of R240, within the vocabulary. -/
def maskInForce (im : TokImage) (f : MaskFields) (g len : Nat) (patch : List Nat) : Nat :=
  let m :=
    if f.force then 2 ^ f.forceToken
    else
      let m := if f.maskIndex = 0xFFFFF then allTokens im.vocab else g
      let m := if f.lchk then m &&& len else m
      let m := without m ((longList im).take f.removes)
      m ||| bitSet patch
  m &&& allTokens im.vocab

/-- The mask fields a position word describes (R299, Table 7.6). -/
def wordFields (gid w : Nat) : MaskFields :=
  { MaskFields.open with
    maskIndex := bits w 0 20, lclass := bits w 20 6, lchk := bit w 26, grammar := gid }

/-- Whether a position word ends the prefix (R298). -/
def wordEnds (w : Nat) : Bool := decide (w = 0xFFFFFFFF) || bit w 27 || bit w 28

end Sys2Proof.Machine
end

