-- ==== Sys2Proof/Machine/Select.lean ====
section
/-!
DEFINITION. Selection (R275, R286 to R296): ranking of valid entries, ties, bucket maxima, offers, and the
result descriptor.
-/

namespace Sys2Proof.Machine

/-- A valid entry: its index, what ranks it, and its value as FP32. -/
structure Cand where
  idx : Nat
  rank : Val
  value : Nat
  deriving DecidableEq, Repr

/-- Whether an entry ranks at or before another (R275): greater first, among equal the lower index. -/
def Cand.before (a b : Cand) : Bool := b.rank.lt a.rank || (!a.rank.lt b.rank && decide (a.idx ≤ b.idx))

/-- The entries in rank order. -/
def ranked (cs : List Cand) : List Cand := cs.mergeSort Cand.before

/-- The first entry of each bucket of R295, from entries in rank order. -/
def bucketFirsts : List Cand → List Nat → List Cand
  | [], _ => []
  | c :: cs, seen =>
    if seen.contains (c.idx % 4096) then bucketFirsts cs seen
    else c :: bucketFirsts cs (c.idx % 4096 :: seen)

/-- What a row gives: the selected entries in rank order, TIE_AT_K, whether it is short, and its NaN count. -/
structure Picked where
  sel : List Cand
  tie : Nat
  short : Bool
  nans : Nat
  deriving DecidableEq, Repr

/-- The selection of a mode from its valid entries (R286, R287, R295). -/
def pick (mode k nans : Nat) (cs : List Cand) : Picked :=
  let r := ranked cs
  let r := if mode = 3 then bucketFirsts r [] else r
  let kk := if mode % 2 = 1 then k else 1
  let sel := r.take kk
  let short := decide (sel.length < kk)
  let tie := match sel.getLast? with
    | some l => if short then 0 else ((r.drop kk).filter (fun c => c.rank.same l.rank)).length
    | none => 0
  { sel := sel, tie := min tie 65535, short := short, nans := nans }

/-- The entries of a row that the mask leaves, with the NaN ones. -/
def rowEntries (d : Desc) (mask : Nat) (data : List Byte) : List (Nat × Val) :=
  ((List.range d.rowlen).filter (fun i => mask.testBit i)).map (fun i => (i, rowVal d.fmt d.rowlen data i))

/-- The valid entries of a row, ranked by value or in MODE 2 by y of R296 at a step. -/
def rowCands (d : Desc) (seed step : Nat) (es : List (Nat × Val)) : List Cand :=
  (es.filter (fun e => !e.2.isNan)).map (fun e =>
    { idx := e.1, rank := if d.mode = 2 then noisy seed step e.1 d.temp e.2 else e.2, value := e.2.toF32 })

/-- The selection from a dense row under a mask. -/
def selectDense (d : Desc) (seed step mask : Nat) (data : List Byte) : Picked :=
  let es := rowEntries d mask data
  pick d.mode d.k (es.filter (fun e => e.2.isNan)).length (rowCands d seed step es)

/-- The selection from the merged lists of a thin-path row (R304, R347). -/
def selectThin (d : Desc) (nans : Nat) (es : List ListEntry) : Picked :=
  pick d.mode d.k nans (es.map (fun e =>
    { idx := e.index, rank := Val.ofF32 e.rankv, value := e.value }))

/-- The tokens offered as a row arrives: each entry that enters the running eight best (R291, R292). -/
def offersOf : List Cand → List Cand → List Nat
  | [], _ => []
  | c :: cs, best =>
    let b := (ranked (c :: best)).take 8
    if b.contains c then c.idx :: offersOf cs b else offersOf cs b

/-- The selection result word (Table 8.6). -/
def selectionWord (index valid commits tie status : Nat) (approx draftAll : Bool) : Nat :=
  index % 2 ^ 20 + valid % 128 * 2 ^ 20 + commits % 32 * 2 ^ 27 + tie % 65536 * 2 ^ 32 + status % 256 * 2 ^ 48
    + flag (decide (tie ≠ 0)) * 2 ^ 56 + flag approx * 2 ^ 57 + flag draftAll * 2 ^ 58

/-- Bytes 0 to 47 of a result descriptor outside draft verification (Table 8.5). -/
def resultBytes (word value nans list : Nat) : List Byte :=
  toLE 8 word ++ toLE 8 (value % 2 ^ 32 + nans % 2 ^ 21 * 2 ^ 32) ++ toLE 8 list ++ List.replicate 24 0

/-- Bytes 0 to 47 after draft verification: the committed tokens in 20-bit places (Table 8.5). -/
def draftBytes (word : Nat) (toks : List Nat) : List Byte :=
  toLE 8 word ++ toLE 40 ((toks.zipIdx).foldl (fun a t => a + t.1 % 2 ^ 20 * 2 ^ (20 * t.2)) 0)

/-- The list entries of R288. -/
def listBytes (k : Nat) (sel : List Cand) : List Byte :=
  ((sel.map (fun c => toLE 8 (c.idx % 2 ^ 20 + c.value % 2 ^ 32 * 2 ^ 32))).flatten)
    ++ (List.replicate (k - sel.length) (toLE 8 0xFF800000000FFFFF)).flatten

/-- Base price of 1,024 elements of a row (Table 13.3, codes 0x0C to 0x12). -/
def rowPrice (d : Desc) : Nat :=
  if d.fmt = 0 then 669
  else if d.fmt = 5 then 341
  else if d.fmt = 6 ∨ d.fmt = 7 then 314
  else if d.fmt = 3 ∨ d.fmt = 4 ∨ d.fmt = 9 then (if d.mode = 3 then 232 else 328)
  else 423

/-- What CLEARING buys for a row (R432). -/
def rowBill (d : Desc) : List (Nat × Nat) :=
  let n := ceilDiv d.rowlen 1024
  [(rowPrice d + (if d.mode = 2 then 710 * 65536 else 0), n)]

end Sys2Proof.Machine
end

