-- ==== Sys2Proof/Machine/Clearing.lean ====
section
/-!
DEFINITION. CLEARING (R271 to R308): the dense path, draft verification, the thin path with its messages and lists,
and what withholds a selection.
-/

namespace Sys2Proof.Machine

/-! ### Tiles and rows at CLEARING -/

/-- The decision tile of a stream at CLEARING. -/
def clearTile? (s : State) (n : Nat) : Option ClearTile := s.clear.tiles.find? (fun c => c.tile.stream == n)

/-- A change of a stream's tile at CLEARING. -/
def onClear (n : Nat) (f : ClearTile → ClearTile) (s : State) : State :=
  { s with clear := { s.clear with
      tiles := s.clear.tiles.map (fun c => if c.tile.stream = n then f c else c) } }

/-- The descriptor of a tile at CLEARING. -/
def ClearTile.desc (c : ClearTile) : Desc := readDesc c.tile.payload

/-- The settlement step of a tile at CLEARING. -/
def ClearTile.step (c : ClearTile) : Nat := stepOf c.tile.settle

/-- The mask of a draft position, when it is ready. -/
def ClearTile.maskAt (c : ClearTile) (p : Nat) : Option Nat := (c.masks.find? (fun m => m.1 == p)).map Prod.snd

/-- Whether a tile's mask is ready: that of position 0 is its mask in force (R299). -/
def ClearTile.ready (c : ClearTile) : Bool := (c.maskAt 0).isSome

/-- Whether both halves of CLEARING are up (PD_CLEAR0 and PD_CLEAR1). -/
def bothHalves (s : State) : Bool := pdUp s 22 && pdUp s 23

/-- Pages of the mask store: half of them while one half is down. -/
def storePages (s : State) : Nat := if bothHalves s then maskPagesBuilt s else maskPagesBuilt s / 2

/-- Pages of a tile that has selected and still writes its list (R280, R288). -/
def Job.maskPages : Job → Nat
  | .topk _ n => n
  | _ => 0

/-- Free pages of the mask store. -/
def freePages (s : State) : Nat :=
  storePages s - ((s.clear.tiles.map ClearTile.pages).sum + (s.accesses.map (fun a => a.job.maskPages)).sum)

/-- KiB of the hold buffer: half of them while one half is down. -/
def holdKib (s : State) : Nat := if bothHalves s then holdBuilt s else holdBuilt s / 2

/-- Free KiB of the hold buffer; a beat is one KiB. -/
def freeHold (s : State) : Nat := holdKib s - ((s.clear.rows ++ s.clear.port.toList).map Row.inBuf).sum

/-- Whether the whole row can be held. A row that is tried again has left the ports, so that the beats of it which the
buffer held are free. -/
def rowFits (s : State) (r : Row) : Bool := decide (r.beats ≤ freeHold s) && decide (r.beats ≤ 2048)

/-- The rows of a stream's step taken away. -/
def dropRows (n step : Nat) (s : State) : State :=
  { s with clear := { s.clear with
      rows := s.clear.rows.filter (fun r => !(r.stream == n && r.step == step)) } }

/-- Whether rows of a stream's step are held. -/
def hasRows (s : State) (n step : Nat) : Bool := s.clear.rows.any (fun r => r.stream == n && r.step == step)

/-- What is kept of a stream's step forgotten. -/
def clearMarks (n step : Nat) (s : State) : State :=
  { s with clear := { s.clear with marks := s.clear.marks.filter (fun p => !(p.1 == n && p.2.1 == step)) } }

/-- A mark kept of a stream's step. -/
def markStep (n step : Nat) (k : StepMark) (s : State) : State :=
  if s.clear.marks.contains (n, step, k) then s
  else { s with clear := { s.clear with marks := s.clear.marks ++ [(n, step, k)] } }

/-- Whether a stream's step is marked. -/
def marked (s : State) (n step : Nat) (k : StepMark) : Bool := s.clear.marks.contains (n, step, k)

/-- Whether a mark names a draft row that came before its tile. -/
def StepMark.isEarly : StepMark → Bool
  | .early _ => true
  | _ => false

/-- Whether a draft row that a tile's verification needs came before the tile (R281, R301). -/
def earlyDraft (s : State) (n : Nat) (c : ClearTile) : Bool :=
  s.clear.marks.any (fun p => p.1 == n && p.2.1 == c.step && (match p.2.2 with
    | .early k => decide (k < c.desc.drafts)
    | _ => false))

/-- Whether the tile of an item for a stream's step has completed (R284). -/
def stepFinished (s : State) (n step : Nat) : Bool :=
  s.clear.marks.any (fun p => p.1 == n && p.2.1 == step && (match p.2.2 with
    | .finished _ => true
    | _ => false))

/-- Whether a decision tile for a stream's step is still to come: an item that settles there, and whose tile has not been
here, has not completed, or the tile is on its way. -/
def stepAwaited (s : State) (n step : Nat) : Bool :=
  s.ledger.items.any (fun i => i.stream == n && !i.complete && !i.completing && stepOf i.settle == step
      && !marked s n step (.finished i.ledger))
    || ((s.hops.map Prod.snd).flatten ++ unread s).any (fun t => t.stream == n && decide (t.kind = .decision)
      && stepOf t.settle == step && visits t Hop.CLEARING)

/-- A stream's step whose row was discarded before its tile (R116). -/
def stepLost (n step : Nat) (s : State) : State := markStep n step .lost s

/-- The first refusal, malformed row, ST_PARTIAL or ST_RESOURCE since CLG_ERR was cleared (Table 8.20). -/
def clgErr (n status step : Nat) (s : State) : State :=
  logFirst R.CLG_ERR_LO (n + status * 2 ^ 12) R.CLG_ERR_HI (step % 2 ^ 32) s

/-- Work of a stream's tile at CLEARING that is still waiting: its reads, messages and purchase. -/
def dropClearWork (n : Nat) (s : State) : State :=
  let s := dropAccesses (fun a => match a.job with
    | .maskRead m _ _ _ => m == n
    | .draftBlock m _ => m == n
    | .message _ _ => a.job.streamOf s == some n
    | _ => false) s
  { s with purse := { s.purse with queue := s.purse.queue.filter (fun p =>
      decide (p.what ≠ .command (.clearingDescriptor (BitVec.ofNat 12 n) .none))) } }

/-- A stream's tile leaves CLEARING: its pages are free, its rows discarded, its step marked as it ended (R284), and
NOTARY takes the stream's next decision tile (R248, R280, R300). -/
def leaveClearing (n : Nat) (c : ClearTile) (as : StepMark) (s : State) : State :=
  let s := dropClearWork n s
  let s := { s with clear := { s.clear with
    tiles := s.clear.tiles.filter (fun x => x.tile.stream != n || x.tile.ledger != c.tile.ledger) } }
  let s := markStep n c.step as (clearMarks n c.step (dropRows n c.step s))
  onStream n (fun x => { x with notary := { x.notary with
    pending := if x.notary.pending = some c.tile.ledger then none else x.notary.pending } }) s

/-- The stream's grammar as a withheld tile found it: what was selected for the tile before is not committed (R115). -/
def undoCommits (n : Nat) (c : ClearTile) (s : State) : State :=
  onStream n (fun x =>
    let y := x.notary
    let y := if c.done.isEmpty then y
      else { y with
        cfg := c.before, commits := y.commits.filter (fun k => k.ledger != c.tile.ledger),
        ckpts := y.ckpts.map (fun k => if k.ledger = c.tile.ledger then { k with cfg := c.before } else k) }
    { x with notary := { y with offered := [], cands := [] } }) s

/-- A tile whose selection was withheld ends: only a CLERK sink gets the result word of Table 8.6. -/
def endWithheld (c : ClearTile) (status : Nat) (s : State) : State :=
  if c.tile.hopAfter = Hop.CLERK then
    let word := selectionWord 0xFFFFF 0 0 0 status (decide (c.desc.mode = 3)) false
    let d := (if c.desc.drafts = 0 then resultBytes word 0xFF800000 0 c.desc.list else draftBytes word [])
      ++ c.tile.payload.drop 48
    passOn Hop.CLEARING { c.tile with payload := d, check := crc32c d, status := status }
      (noteEmission 3 c.tile.ledger (d.take 8) s)
  else s

/-- A withheld selection (R115): nothing is committed or sent on, and the item completes with the status. -/
def withhold (n : Nat) (c : ClearTile) (status : Nat) (s : State) : State :=
  let s := undoCommits n c (leaveClearing n c (.finished c.tile.ledger) s)
  let s := { s with clear := { s.clear with
    seen := s.clear.seen.filter (fun p => !(p.1 == n && p.2.1 == c.step)) } }
  let s := if status = St.LATE then bump R.BEAT_LATE 1 s else s
  endWithheld c status (completeItem c.tile.ledger status .nothing (report c.tile status 0 s))

/-- A refused tile: CLG_ERR, the stream HELD; its row is discarded if it is there, and when it comes later (R278). -/
def refuseClear (n : Nat) (c : ClearTile) (status : Nat) (s : State) : State :=
  let had := hasRows s n c.step
  let s := leaveClearing n c (if had then .lost else .refused) s
  refuseTile Hop.CLEARING c.tile status (clgErr n status c.step s)

/-! ### Selections that end (R290, R293) -/

/-- A tile leaves CLEARING with its result, numbered (R43): to the next hop, or first its list is written, until when its
pages are taken (R280, R288). -/
def finishSelect (n : Nat) (c : ClearTile) (bytes : List Byte) (status tie : Nat) (list : List Byte) (s : State) : State :=
  let s := leaveClearing n c (.finished c.tile.ledger) s
  let s := if status = St.SHORT then bump R.CLG_SHORT 1 s else s
  let s := if tie = 0 then s else bump R.CLG_TIE 1 s
  let s := if !c.tile.replay && settleTaken s (choiceOf s c.tile.settle) then bump R.BEAT_LATE_WORK 1 s else s
  let flags := if tie = 0 then 0 else 2
  let s := report c.tile status flags s
  let d := bytes ++ c.tile.payload.drop 48
  let (t, s) := numberTile Hop.CLEARING { c.tile with
    payload := d, check := crc32c d, status := firstStatus c.tile.status status, flags := c.tile.flags ||| flags } s
  let s := noteEmission 3 t.ledger (d.take 8) s
  if list.isEmpty then passOn Hop.CLEARING t s
  else
    let lines := writeSpan s c.desc.list list
    startAccess 0 (lineBill lines.length) .write 7 lines (.topk t c.pages) s

/-- A token is committed: counted, and reported to the stream's NOTARY unit when it has a grammar. -/
def commitToken (n : Nat) (c : ClearTile) (t : Nat) (s : State) : State :=
  bump R.CLG_COMMITS 1 (onStream n (fun x =>
    if x.notary.gen then { x with notary := { x.notary with
      commits := x.notary.commits ++
        [{ ledger := c.tile.ledger, origin := c.tile.origin, ticket := c.tile.ticket, token := t }] } } else x) s)

/-- The end of a selection outside draft verification. -/
def endSelection (n : Nat) (c : ClearTile) (p : Picked) (s : State) : State :=
  let d := c.desc
  let status := if p.short then St.SHORT else St.OK
  let s := bump R.CLG_NAN p.nans (bump R.CLG_ROWS 1 s)
  let commits := if d.mode % 2 = 0 then p.sel.map Cand.idx else []
  let s := commits.foldl (fun s t => commitToken n c t s) s
  let first := p.sel.head?
  let word := selectionWord ((first.map Cand.idx).getD 0xFFFFF) p.sel.length commits.length p.tie status
    (decide (d.mode = 3)) false
  finishSelect n c (resultBytes word ((first.map Cand.value).getD 0xFF800000) p.nans d.list) status p.tie
    (if d.mode % 2 = 1 then listBytes d.k p.sel else []) s

/-- The end of a draft verification after the commits made (R300, R301). -/
def endDraft (n : Nat) (c : ClearTile) (status tie : Nat) (s : State) : State :=
  let k := c.done.length
  let all := decide (k = c.desc.drafts) && decide (c.done.getLast? = c.draft[k - 1]?)
  let word := selectionWord (c.done.getLast?.getD 0xFFFFF) k k tie status false all
  finishSelect n c (draftBytes word c.done) status tie [] s

/-- A draft verification lost to the dense path (R301). -/
def stopDraft (n : Nat) (c : ClearTile) (s : State) : State :=
  endDraft n c St.RESOURCE c.tie
    (clgErr n St.RESOURCE c.step (bump R.CLG_RESOURCE 1 (noteLoss 0 (setRegBit R.CLG_STAT 12 s))))

/-- Whether the tokens committed to a stream have finished its grammar (R259): the configuration after the advances made,
moved over the commits that NOTARY has still to advance over. -/
def commitsFinish (s : State) (n : Nat) : Bool :=
  let x := stream s n
  match imageOf s x.tenant with
  | some im => x.notary.gen && ((x.notary.commits.map Commit.token).foldl
      (fun c t => (advance s im x.notary.allow c t).cfg) x.notary.cfg).finished
  | none => false

/-- One position of a draft verification (R300). -/
def draftPosition (n : Nat) (c : ClearTile) (p : Picked) (s : State) : State :=
  let k := c.done.length
  let s := bump R.CLG_DRAFT_ROWS 1 (bump R.CLG_NAN p.nans (bump R.CLG_ROWS 1 s))
  match p.sel with
  | [] => endDraft n c St.SHORT 0 s
  | x :: _ =>
    let hit := decide (c.draft[k]? = some x.idx)
    let s := commitToken n c x.idx s
    let s := if hit then bump R.CLG_DRAFT_ACC 1 s else s
    let c := { c with done := c.done ++ [x.idx], tie := p.tie }
    if hit && decide (k + 1 < c.desc.drafts) && !commitsFinish s n then
      onClear n (fun y => { y with done := c.done, tie := c.tie }) s
    else endDraft n c St.OK p.tie s

/-- The row a stream's tile selects from next, when the row and its mask are there, and for a draft verification its
draft block (R298). -/
def nextRow (s : State) (n : Nat) : Option (ClearTile × Row × Nat) :=
  match clearTile? s n with
  | none => none
  | some c =>
    if c.desc.thin || (decide (0 < c.desc.drafts) && c.words.isEmpty) then none
    else match s.clear.rows.find? (fun r => r.stream == n && r.step == c.step && r.pos == c.done.length),
        c.maskAt c.done.length with
      | some r, some m => some (c, r, m)
      | _, _ => none

/-- The selection from a row, once it has been paid for. -/
def selectRow (n : Nat) (s : State) : State :=
  match nextRow s n with
  | none => s
  | some (c, r, m) =>
    let d := c.desc
    let seed := (stream s n).seed
    let s := { s with clear := { s.clear with
      rows := s.clear.rows.erase r, seen := s.clear.seen ++ [(r.stream, r.step, r.pos)] } }
    let p := selectDense d seed (c.step + r.pos) m r.data
    if d.drafts = 0 then
      let s := if d.mode % 2 = 0 && bit (reg s R.CLG_CTRL) 0 then
          let offers := offersOf (rowCands d seed c.step (rowEntries d m r.data)) []
          onStream n (fun x => { x with notary := { x.notary with offered := offers } }) s
        else s
      endSelection n c p s
    else draftPosition n c p s

/-- Whether a row is on the lanes: what it buys waits at PURSE. -/
def laneTaken (s : State) : Bool :=
  s.purse.queue.any (fun p => match p.what with
    | .command (.clearingDescriptor _ _) => true
    | _ => false)

/-- The order in which rows take the lanes (R285, R301): held rows first, which go in ascending order of their choice
settlement and of their stream. -/
def laneKey (s : State) (n : Nat) : List Nat :=
  match nextRow s n with
  | some (c, r, _) => [flag (!r.held), choiceOf s c.tile.settle, n]
  | none => []

/-- The stream whose row takes the lanes next: none while a row is on them. -/
def nextLane (s : State) : Option Nat :=
  if laneTaken s then none
  else
    let ns := ((s.clear.tiles.map (fun c => c.tile.stream)).eraseDups).filter (fun n => (nextRow s n).isSome)
    (sortBy (fun n m => decide (laneKey s n < laneKey s m)) ns).head?

/-- Rows take the lanes, one after the other: what each buys, and its selection. -/
def runLanes (fuel : Nat) (s : State) : State :=
  match fuel with
  | 0 => s
  | f + 1 =>
    match nextLane s with
    | none => s
    | some n =>
      match nextRow s n with
      | none => s
      | some (c, _, _) =>
        runLanes f (buy 0 (rowBill c.desc) (.clearingDescriptor (BitVec.ofNat 12 n) .none) id (selectRow n) s)

/-- Every row that can take the lanes. -/
def runRows (s : State) : State := runLanes (17 * s.clear.tiles.length + 1) s

/-! ### Rows on the ports (R272, R281 to R285, R301) -/

/-- The dense tile a row matches (R281). A tile that waits for pages waits at CLEARING's input, so that the model takes a
row that comes meanwhile as one that came before its tile; the spec does not say (log entry 140). -/
def matchTile (s : State) (r : Row) : Option ClearTile :=
  s.clear.tiles.find? (fun c =>
    let d := c.desc
    c.tile.stream == r.stream && c.step == r.step && !d.thin && !c.pageWait
      && (if d.drafts = 0 then r.pos == 0 else decide (r.pos < d.drafts)))

/-- Whether a stream has work that is being replayed, so that any row of it may match a tile with REPLAY (R381): which step
such a tile will name is not known before it comes (log entry 168). -/
def replayingRows (s : State) (n : Nat) : Bool :=
  s.ledger.items.any (fun i => i.stream == n && replayRuns s i)

/-- A row that joins the rows at CLEARING, whole in the hold buffer or on the lanes. -/
def keepRow (r : Row) (held : Bool) (s : State) : State :=
  { s with clear := { s.clear with
      rows := s.clear.rows ++ [{ r with held := held, inBuf := if held then r.beats else 0 }] } }

/-- A row stays at the ports. -/
def holdPort (r : Row) (s : State) : State := { s with clear := { s.clear with port := some r } }

/-- A row discarded before its tile (R282): a tile that waits for pages of the mask store, or comes later, completes with
ST_LATE (R116). -/
def discardEarly (s : State) (r : Row) : State :=
  let s := { s with clear := { s.clear with
    rows := s.clear.rows.erase r, port := if s.clear.port = some r then none else s.clear.port } }
  match clearTile? s r.stream with
  | some c =>
    if c.pageWait ∧ c.step = r.step ∧ !c.tile.replay then withhold r.stream c St.LATE s else stepLost r.stream r.step s
  | none => stepLost r.stream r.step s

/-- A row before its tile (R278, R282, R284): held beat by beat, waiting at the ports for room, or discarded. A draft row
never enters the hold buffer (R301), and that a row is one is known of a position above 0. -/
def earlyRow (r : Row) (s : State) : State :=
  let n := r.stream
  let p := logitsOf s r.step
  let free := replayingRows s n
  if marked s n r.step .lost then s
  else if marked s n r.step .refused then stepLost n r.step (clearMarks n r.step s)
  else if stepFinished s n r.step && !stepAwaited s n r.step then bump R.CLG_ORPHAN 1 s
  else if graceOver s p && !free then discardEarly s r
  else if 0 < r.pos then markStep n r.step (.early r.pos) s
  else if r.beats ≤ freeHold s then keepRow r true s
  else if settleTaken s p && !free then discardEarly s r
  else holdPort { r with inBuf := freeHold s } s

/-- A row whose tile is at CLEARING (R111, R283, R301). -/
def matchedRow (c : ClearTile) (r : Row) (s : State) : State :=
  let n := r.stream
  let d := c.desc
  if r.beats ≠ rowBeats d.fmt d.rowlen ∨ r.bad then
    withhold n c St.LEN (clgErr n St.LEN c.step s)
  else if (c.maskAt r.pos).isSome then runRows (keepRow r false s)
  else if 0 < d.drafts then stopDraft n c s
  else if rowFits s r then keepRow r true s
  else if settleTaken s c.tile.settle && !c.tile.replay then withhold n c St.LATE s
  else holdPort r s

/-- Whether a row with the same STREAM, STEP and POS is held or has been selected (R284). -/
def rowAgain (s : State) (r : Row) : Bool :=
  s.clear.seen.contains (r.stream, r.step, r.pos)
    || s.clear.rows.any (fun x => x.stream == r.stream && x.step == r.step && x.pos == r.pos)

/-- A row is taken from the ports, or stays there. -/
def placeRow (r : Row) (s : State) : State :=
  if rowAgain s r then bump R.CLG_DUPROW 1 s
  else match matchTile s r with
    | some c => matchedRow c r s
    | none => earlyRow r s

/-- Rows that wait for the lanes take them, and the row at the ports is tried again. -/
def retryPort (s : State) : State :=
  let s := runRows s
  match s.clear.port with
  | none => s
  | some r => placeRow r { s with clear := { s.clear with port := none } }

/-- Whether the ports are back-pressured: a row waits at them, or a row whose mask is ready is on its way to the lanes,
from the ports or, before any row on them, from the hold buffer (R285). -/
def portBusy (s : State) : Bool :=
  s.clear.port.isSome || s.clear.rows.any (fun r => match nextRow s r.stream with
    | some x => decide (x.2.1 = r)
    | none => false)

/-- Whether the logit ports take rows: PD_LOGIT, the LOGIT domain and CLEARING are up. -/
def logitUp (s : State) : Bool := pdUp s 28 && clkUp s 19 && stationUp s Hop.CLEARING && !portMissing s 10 0

/-- LOGIT_ROW (R272): a row on ports that are back-pressured does not pass. -/
def execLogitRow (header : Word) (data : List Byte) (beats : BitVec 13) (s : State) :
    Host.Outcome State Fault Refusal :=
  let h := header.toNat
  if !logitUp s || portBusy s then .next s
  else .next (sweep (retryPort (placeRow
    { stream := bits h 0 12, step := bits h 12 32, pos := bits h 44 5, bad := decide (h / 2 ^ 49 ≠ 0),
      data := data, beats := beats.toNat, inBuf := 0, held := false } s)))

/-! ### Masks (R279, R299) -/

/-- A mask becomes ready: withheld when the grace has ended meanwhile, else its rows take the lanes. -/
def maskReady (n pos mask : Nat) (s : State) : State :=
  match clearTile? s n with
  | none => s
  | some c =>
    if !c.tile.replay && graceOver s c.tile.settle && !c.ready then withhold n c St.LATE s
    else
      runRows (onClear n (fun c => { c with masks := c.masks ++ [(pos, mask)] }) s)

/-- The mask fields of a position. -/
def ClearTile.fieldsAt (c : ClearTile) (pos : Nat) : MaskFields :=
  let f := readFields c.tile.payload
  if pos = 0 then f else wordFields f.grammar ((c.words[pos - 1]?).getD 0)

/-- The building of the mask of a position: its reads, or the mask at once when nothing is read. -/
def startMask (n pos : Nat) (s : State) : State :=
  match clearTile? s n with
  | none => s
  | some c =>
    let f := c.fieldsAt pos
    match imageOf s c.tile.tenant with
    | none => s
    | some im =>
      if !f.force && (f.maskIndex != 0xFFFFF || f.lchk) && (setOf s f.grammar).isNone then refuseClear n c St.BOUNDS s
      else
        let plan := maskPlan s n f
        if plan.isEmpty then maskReady n pos (maskInForce im f 0 0 []) s
        else
          let lines := plan.map (fun l => newLine s l.addr [])
          startAccess 0 (lineBill lines.length) .read 5 lines (.maskRead n c.tile.ledger pos false) s

/-- The reads of a mask have ended: pages that fail their check are read once more, a second failure is an
uncorrectable read (R279), else the mask is assembled. -/
def maskArrived (n ledger pos : Nat) (again : Bool) (lines : List Line) (s : State) : State :=
  match clearTile? s n with
  | none => s
  | some c =>
    let f := c.fieldsAt pos
    match imageOf s c.tile.tenant with
    | none => s
    | some im =>
      let plan := maskPlan s n f
      let got := plan.zip (lines.map Line.data)
      let g := assemble 0 got
      let len := assemble 1 got
      let kept := match setOf s f.grammar with
        | some m => m.checks
        | none => []
      let masks := ((setOf s f.grammar).map (fun m => m.image.masks.length)).getD 0
      let badG := if f.maskIndex = 0xFFFFF then [] else badPages im.vocab g ((kept[f.maskIndex]?).getD [])
      let badL := if f.lchk then badPages im.vocab len ((kept[masks + f.lclass]?).getD []) else []
      let s := if badG.isEmpty && badL.isEmpty then s else bump R.AUD_CHK3 1 s
      if badG.isEmpty && badL.isEmpty then
        maskReady n pos (maskInForce im f g len (patchRead f.adds got)) s
      else if again then
        let l := lines.headD (newLine s 0 [])
        replayItem ledger St.STACK_ERR true (logFailure 5 St.STACK_ERR l s)
      else
        let bad (l : MaskLine) : Bool :=
          l.elems.any (fun e => (if l.part = 0 then badG else if l.part = 1 then badL else []).contains (e / 32768))
        let lines' := (plan.zip lines).map (fun p =>
          if bad p.1 then newLine s p.1.addr [] else p.2)
        let k := (lines'.filter (fun l => decide (l.st = .unsent))).length
        startAccess 0 (lineBill k) .read 5 lines' (.maskRead n ledger pos true) s

/-- Rows that were there before their tile: a wrong length withholds (R283), a draft row stops the verification
(R301). -/
def checkEarly (n : Nat) (s : State) : State :=
  match clearTile? s n with
  | none => s
  | some c =>
    let d := c.desc
    match s.clear.rows.find? (fun r => r.stream == n && r.step == c.step && r.held
        && (if d.drafts = 0 then r.pos == 0 else decide (r.pos < d.drafts))) with
    | none => s
    | some r =>
      if r.beats ≠ rowBeats d.fmt d.rowlen ∨ r.bad then withhold n c St.LEN (clgErr n St.LEN c.step s)
      else if 0 < d.drafts then stopDraft n c s
      else s

/-- The reads of a dense tile: its draft block and the mask of position 0 (R298, R299). -/
def startReads (n : Nat) (s : State) : State :=
  match clearTile? s n with
  | none => s
  | some c =>
    let d := c.desc
    let s := if d.drafts = 0 then s
      else
        let lines := readSpan s d.aux 128
        startAccess 0 (lineBill lines.length) .read 5 lines (.draftBlock n c.tile.ledger) s
    startMask n 0 s

/-- A dense tile takes its pages of the mask store and starts its reads, or waits for pages (R279, R298). A draft tile
takes the pages of all its positions at once: the spec does not say how many pages it needs and when (log entry 141). -/
def admitDense (n : Nat) (s : State) : State :=
  match clearTile? s n with
  | none => s
  | some c =>
    let d := c.desc
    let vocab := ((imageOf s c.tile.tenant).map TokImage.vocab).getD 0
    let need := max 1 d.drafts * pagesOf vocab
    if freePages s < need then onClear n (fun c => { c with pageWait := true }) s
    else if 0 < d.drafts ∧ !inRegion s 1 d.aux 128 then refuseClear n c St.BOUNDS s
    else if earlyDraft s n c then stopDraft n c s
    else
      startReads n (checkEarly n (onClear n (fun c => { c with pageWait := false, pages := need }) s))

/-- The draft block has been read: its position words are checked, and the masks of positions 1 upward are read
(R298, R299). -/
def draftArrived (n : Nat) (data : List Byte) (s : State) : State :=
  match clearTile? s n with
  | none => s
  | some c =>
    let d := c.desc
    let b := (data.drop (d.aux % 64)).take 128
    let draft := (words32 (b.take 64)).map (fun w => w % 2 ^ 20)
    let words := words32 (b.drop 64)
    if (words.take (d.drafts - 1)).any wordEnds then refuseClear n c St.BAD_OP s
    else
      let s := onClear n (fun c => { c with draft := draft, words := words }) s
      runRows ((List.range (d.drafts - 1)).foldl (fun s p => startMask n (p + 1) s) s)

/-! ### The thin path (R302 to R306, R343 to R348) -/

/-- The banks that hold a slice of a row of `len` elements. -/
def rowBanks (s : State) (width len : Nat) : List Nat :=
  ((List.range (ceilDiv len (perLine width))).map (fun i => bankLoc s (64 * i))).eraseDups

/-- Entries a message asks for (R302). -/
def listLen (d : Desc) : Nat := if d.mode % 2 = 1 then max d.k 8 else 8

/-- The banks a thin-path tile sends to (R344). -/
def thinBanks (s : State) (c : ClearTile) : List Nat :=
  let d := c.desc
  let w := (fmtWidth d.fmt).getD 0
  let f := readFields c.tile.payload
  if f.force then [elemBank s w f.forceToken] else rowBanks s w d.rowlen

/-- The 64 bytes of a mask-apply message (Table 10.5). -/
def messageBytes (s : State) (n : Nat) (c : ClearTile) (bank : Nat) : List Byte :=
  let d := c.desc
  let f := readFields c.tile.payload
  let x := stream s n
  let stack := stackOf s d.aux
  let loc := bank + 512 * stack
  let header := if x.notary.gen then
      match c.set with
      | some m => ((area s m stack bank).head?.getD 0) / 64
      | none => 0
    else 0
  let vocab := ((imageOf s c.tile.tenant).map TokImage.vocab).getD 0
  let patch := if f.adds = 0 then 0 else (notaryBase s n + 0x10000 + f.pslot * 0x8000) / 64
  let b := toLE 8 (0x01 + 1 * 2 ^ 8 + loc % 2 ^ 13 * 2 ^ 12 + c.mtag % 2 ^ 16 * 2 ^ 32 + c.attempt % 16 * 2 ^ 48)
    ++ toLE 8 (d.aux / 64 % 2 ^ 42 + d.fmt * 2 ^ 42 + d.mode * 2 ^ 46 + listLen d * 2 ^ 48 + flag f.force * 2 ^ 55)
    ++ toLE 8 (d.rowlen + (if f.force then f.forceToken else f.maskIndex) * 2 ^ 21 + f.lclass * 2 ^ 41
        + flag f.lchk * 2 ^ 47 + f.remain * 2 ^ 48)
    ++ toLE 8 (header % 2 ^ 42 + f.adds * 2 ^ 42)
    ++ toLE 8 (patch % 2 ^ 42 + vocab * 2 ^ 42)
    ++ toLE 8 (c.step + (if d.mode = 2 then d.temp else 0) * 2 ^ 32)
    ++ toLE 8 (if d.mode = 2 then x.seed else 0)
    ++ toLE 4 0
  b ++ toLE 4 (crc32c b)

/-- Sends the message of one bank. -/
def sendMessage (n bank : Nat) (s : State) : State :=
  match clearTile? s n with
  | none => s
  | some c =>
    let loc := bank + 512 * stackOf s c.desc.aux
    let line : Line := { addr := c.desc.aux, loc := loc, port := 0, tag := 0, data := messageBytes s n c bank,
                         retries := 0, st := .unsent }
    bump R.STK_MSG 1 (startAccess 0 [(5, 1)] .message 6 [line] (.message c.mtag loc) s)

/-- Sends the messages of every bank of a row, each to answer with one list. -/
def sendMessages (n : Nat) (s : State) : State :=
  match clearTile? s n with
  | none => s
  | some c =>
    let bs := thinBanks s c
    let s := onClear n (fun c => { c with sent := true, awaited := bs, heard := [], entries := [], nans := 0 }) s
    bs.foldl (fun s b => sendMessage n b s) s

/-- Whether an address is a row home (R339). -/
def rowHome (s : State) (a : Nat) : Bool :=
  decide (a % 2 ^ regField s R.STK_GEOM 6 5 = 0) && decide (bankLoc s a = 0)
    && bit (reg s R.STK_GEOM) (16 + stackOf s a)

/-- The first condition of Table 10.4 that holds. -/
def sendRefusal (s : State) (n : Nat) (c : ClearTile) : Option Nat :=
  let d := c.desc
  let f := readFields c.tile.payload
  let gen := (stream s n).notary.gen
  match fmtWidth d.fmt with
  | none => some St.BAD_OP
  | some w =>
    let set := setOf s f.grammar
    if gen && (match set with | some m => decide (m.image.width ≠ w) | none => false) then some St.BAD_OP
    else if !rowHome s d.aux ∨ 2 ^ regField s R.STK_GEOM 6 5 < d.rowlen * 2 ^ w then some St.BOUNDS
    else if gen && (match set with | some m => !bit m.copies (stackOf s d.aux) | none => true) then some St.BOUNDS
    else none

/-- The lowest tag from a number on that no row at CLEARING uses. -/
def freeMtag (s : State) (k : Nat) : Nat :=
  ((List.range 65536).find? (fun i => !(s.clear.tiles.any (fun c => c.sent && c.mtag == (k + i) % 65536)))).map
    (fun i => (k + i) % 65536) |>.getD k

/-- A thin-path tile sends its messages once it is there and its settlement has been taken (R302, R343); the
messages of replaying work leave at once (R381). -/
def trySend (n : Nat) (s : State) : State :=
  match clearTile? s n with
  | none => s
  | some c =>
    if !c.desc.thin || c.sent || !(c.tile.replay || settleTaken s c.tile.settle) then s
    else match sendRefusal s n c with
      | some st => refuseClear n c st s
      | none =>
        let tag := freeMtag s s.clear.nextTag
        let set := setOf s (readFields c.tile.payload).grammar
        let s := onClear n (fun c => { c with mtag := tag, attempt := 0, set := set }) s
        sendMessages n { s with clear := { s.clear with nextTag := (tag + 1) % 65536 } }

/-- The selection from a thin-path row whose lists have all merged. -/
def thinDone (n : Nat) (s : State) : State :=
  match clearTile? s n with
  | none => s
  | some c =>
    if !c.awaited.isEmpty then s
    else if !c.tile.replay && graceOver s c.tile.settle then withhold n c St.LATE s
    else endSelection n c (selectThin c.desc c.nans c.entries) s

/-- An entry of a list (Table 10.6). -/
def readListEntry (b : List Byte) : ListEntry :=
  { index := leAt b 0 3 % 2 ^ 20, value := leAt b 4 4, rankv := leAt b 8 4 }

/-- The entries of a list. -/
def listEntries (data : List Byte) (count : Nat) : List ListEntry :=
  (List.range count).map (fun i => readListEntry ((data.drop (64 + 16 * i)).take 16))

/-- Whether a list is lost (R303, R347, R354). -/
def listLost (s : State) (c : ClearTile) (data : List Byte) : Bool :=
  let w0 := leAt data 0 8
  let w1 := leAt data 8 8
  let d := c.desc
  let loc := bits w0 12 13
  let bank := loc % 512
  let count := bits w1 0 7
  let w := (fmtWidth d.fmt).getD 0
  decide (bits w0 0 8 ≠ 0x81) || decide (bits w0 8 4 ≠ 1) || decide (loc / 512 ≠ stackOf s d.aux)
    || !(thinBanks s c).contains bank || decide (listLen d < count) || bit w1 7
    || decide (leAt data 60 4 ≠ crc32c (data.take 60 ++ (data.drop 64).take (64 * ceilDiv count 4)))
    || (listEntries data count).any (fun e => decide (d.rowlen ≤ e.index) || decide (elemBank s w e.index ≠ bank))

/-- Whether a value of a list entry is NaN. -/
def entryNan (e : ListEntry) : Bool := (Val.ofF32 e.value).isNan

/-- Whether two entries of one index are equal (R304, R347). -/
def entrySame (a b : ListEntry) : Bool :=
  (Val.ofF32 a.value).same (Val.ofF32 b.value) && (Val.ofF32 a.rankv).same (Val.ofF32 b.rankv)

/-- Entries merged in order of arrival; none on a conflict (R304). -/
def mergeEntries (old : List ListEntry) : List ListEntry → Option (List ListEntry)
  | [] => some old
  | e :: es =>
    match old.find? (fun x => x.index == e.index) with
    | none => mergeEntries (old ++ [e]) es
    | some x => if entrySame x e then mergeEntries old es else none

/-- The message accesses of a row. -/
def isMessage (mtag : Nat) (a : Access) : Bool :=
  match a.job with
  | .message g _ => g == mtag
  | _ => false

/-- The message access a list answers: the oldest one of its tag, location and ATTEMPT that is outstanding (R347). -/
def answeredBy (s : State) (data : List Byte) : Option Nat :=
  let w := leAt data 0 8
  (s.accesses.find? (fun a => a.job.message? == some (bits w 32 16, bits w 12 13)
    && a.lines.any (fun l => decide (l.st = .out) && decide (bits (leAt l.data 0 8) 48 4 = bits w 48 4)))).map Access.ident

/-- An access answered by a list. -/
def dropAnswered (ident : Option Nat) (s : State) : State :=
  { s with accesses := s.accesses.filter (fun a => some a.ident != ident) }

/-- A conflict: the first re-issues every message, the second withholds (R305). -/
def listConflict (n : Nat) (c : ClearTile) (s : State) : State :=
  if c.attempt = 0 then
    let s := dropAccesses (isMessage c.mtag) s
    sendMessages n (onClear n (fun c => { c with attempt := 1 }) (bump R.CLG_PARTIAL 1 s))
  else
    withhold n c St.PARTIAL (clgErr n St.PARTIAL c.step (bump R.CLG_PFAULT 1 s))

/-- Whether the message of a bank waits to be sent, for the first time or again after a deferred answer. -/
def messageBacksOff (s : State) (mtag loc : Nat) : Bool :=
  s.accesses.any (fun a => decide (a.job = .message mtag loc) && a.lines.any (fun l =>
    decide (l.st = .backoff) || decide (l.st = .unsent)))

/-- A list of a row, once it has been paid for: lost and asked for again, or merged (R303, R304). -/
def takeList (n : Nat) (data : List Byte) (s : State) : State :=
  match clearTile? s n with
  | none => s
  | some c =>
    let loc := bits (leAt data 0 8) 12 13
    let bank := loc % 512
    if listLost s c data then
      let s := bump R.CLG_LOST 1 s
      if loc / 512 = stackOf s c.desc.aux ∧ (thinBanks s c).contains bank then
        sendMessage n bank (onClear n (fun c => { c with
          awaited := if c.awaited.contains bank then c.awaited else c.awaited ++ [bank] }) s)
      else s
    else
      let w1 := leAt data 8 8
      let es := listEntries data (bits w1 0 7)
      let again := c.heard.contains bank
      let nans := if again then 0 else bits w1 8 21 + (es.filter entryNan).length
      match mergeEntries c.entries (es.filter (fun e => !entryNan e)) with
      | none => listConflict n c s
      | some merged =>
        let wait := messageBacksOff s c.mtag loc
        thinDone n (onClear n (fun c => { c with
          entries := merged, nans := c.nans + nans,
          heard := if again then c.heard else c.heard ++ [bank],
          awaited := if wait then c.awaited else c.awaited.filter (· != bank) }) s)

/-- The tile a list answers: its tag and current attempt (R347). -/
def listTile (s : State) (data : List Byte) : Option ClearTile :=
  let w := leAt data 0 8
  s.clear.tiles.find? (fun c => c.sent && c.mtag == bits w 32 16 && c.attempt == bits w 48 4)

/-- The work on a list, once it has been paid for. -/
def listBody (data : List Byte) (s : State) : State :=
  match listTile s data with
  | none => bump R.STK_BADRSP 1 s
  | some c => takeList c.tile.stream data s

/-- NEAR_BANK_LIST (R346, R347): bought at code 0x14 when it matches a row (Table 13.3). -/
def execNearBankList (port : BitVec 3) (data : List Byte) (s : State) : Host.Outcome State Fault Refusal :=
  if !portUp s port.toNat || !clkUp s (5 + port.toNat) || !stationUp s Hop.CLEARING then .next s
  else
    let s := dropAnswered (answeredBy s data) (bump R.STK_LISTS 1 s)
    if (listTile s data).isNone then .next (bump R.STK_BADRSP 1 s)
    else .next (sweep (retryPort (buy 0 [(2, 1)] (.nearBankList port data) id (listBody data) s)))

/-! ### Tiles that reach CLEARING (R278, R279, R116) -/

/-- A tile at CLEARING before anything is read for it. -/
def clearTile (t : Tile) (cfg : Cfg) : ClearTile :=
  { tile := t, before := cfg, masks := [], pages := 0, pageWait := false, draft := [], words := [], done := [], tie := 0, sent := false,
    mtag := 0, attempt := 0, awaited := [], heard := [], entries := [], nans := 0, set := none }

/-- Whether a replayed tile's selection was withheld when its item completed: the completion stands (R370), and nothing is
committed for it (log entry 135). -/
def withheldBefore (s : State) (t : Tile) : Option Nat :=
  match item? s t.ledger with
  | some i =>
    if t.replay && (i.complete || i.completing) && (decide (i.status = St.LATE) || decide (i.status = St.PARTIAL)
        || decide (i.status = St.LEN)) then some i.status
    else none
  | none => none

/-- A decision tile reaches CLEARING. -/
def takeDecision (n : Nat) (t : Tile) (s : State) : State :=
  let c := clearTile t (stream s n).notary.cfg
  match descRefusal (stream s n) t.hopAfter c.desc with
  | some st => refuseClear n c st s
  | none =>
    if t.status = St.LATE then endWithheld c St.LATE (leaveClearing n c (.finished c.tile.ledger) s)
    else if (withheldBefore s t).isSome then
      endWithheld c ((withheldBefore s t).getD St.LATE) (leaveClearing n c (.finished c.tile.ledger) s)
    else if !t.replay && ((!c.desc.thin && marked s n c.step .lost) || graceOver s t.settle) then withhold n c St.LATE s
    else
      let s := { s with clear := { s.clear with
        tiles := s.clear.tiles ++ [c],
        marks := s.clear.marks.filter (fun p => !(p.1 == n && p.2.1 == c.step && !p.2.2.isEarly)) } }
      if c.desc.thin then trySend n s
      else admitDense n s

/-- CLEARING_DESCRIPTOR (R278). -/
def execClearingDescriptor (n : BitVec 12) (hw : HwEvent) (s : State) : Host.Outcome State Fault Refusal :=
  let k := n.toNat
  match takeable s Hop.CLEARING k with
  | none => .next s
  | some t =>
    let s := unqueue Hop.CLEARING t s
    if hw = .checkFail then .next (sweep (checkFails 5 t s))
    else if t.kind ≠ .decision then .next (sweep (refuseTile Hop.CLEARING t St.BAD_OP s))
    else .next (sweep (retryPort (takeDecision k t s)))

/-- MASK_PAGES_FREED (R279): a waiting tile whose pages can now all be allocated. -/
def execMaskPagesFreed (n : BitVec 12) (s : State) : Host.Outcome State Fault Refusal :=
  let k := n.toNat
  match clearTile? s k with
  | none => .next s
  | some c =>
    if c.pageWait && stationUp s Hop.CLEARING then .next (sweep (retryPort (admitDense k s)))
    else .next s

/-! ### Graces that end (R112, R113, R282) -/

/-- The early rows of a stream whose grace has ended are discarded (R282). -/
def dropEarly (n : Nat) (s : State) : State :=
  ((s.clear.rows ++ s.clear.port.toList).filter (fun r => r.stream == n && decide (0 < r.inBuf) && (matchTile s r).isNone
      && graceOver s (logitsOf s r.step) && !replayingRows s n)).foldl discardEarly s

/-- GRACE_END (R112, R282). -/
def execGraceEnd (n : BitVec 12) (s : State) : Host.Outcome State Fault Refusal :=
  let k := n.toNat
  let s := dropEarly k s
  match clearTile? s k with
  | none => .next (sweep (retryPort s))
  | some c =>
    if !c.desc.thin && !c.tile.replay && !c.ready && graceOver s c.tile.settle then
      .next (sweep (retryPort (withhold k c St.LATE s)))
    else .next (sweep (retryPort s))

/-- THIN_GRACE_END (R113, R306). -/
def execThinGraceEnd (n : BitVec 12) (s : State) : Host.Outcome State Fault Refusal :=
  let k := n.toNat
  match clearTile? s k with
  | none => .next s
  | some c =>
    if c.desc.thin && !c.tile.replay && graceOver s c.tile.settle then
      .next (sweep (retryPort (withhold k c St.LATE s)))
    else .next s

end Sys2Proof.Machine
end

