-- ==== Sys2Proof/Machine/Teller.lean ====
section
/-!
DEFINITION. TELLER (R135 to R151): chunks and their checks, acceptance into the LEDGER, refusals and the answers
to the senders.
-/

namespace Sys2Proof.Machine

/-- The settlement position of open-ended work, 4294967295:255:15 (R148). -/
abbrev lastPosition : Nat := 2 ^ 44 - 1

/-- The chunk a lane delivers: its header word (Table 4.2) and its data words up to eop. The longest chunk has 8,192 data
words; TELLER takes any more to eop and keeps none of them (R150, log entry 146). -/
def laneChunkOf (lane : Nat) (header : Word) (words : List Word) : Chunk :=
  let h := header.toNat
  let count := words.length
  let len := bits h 16 16
  let words := words.take 8192
  { source := lane, stream := bits h 0 12, len := len, textEnd := bit h 32 || bit h 33, eos := bit h 33,
    reissue := bit h 34, badHeader := decide (bits h 12 4 ≠ 0) || decide (bits h 35 13 ≠ 0),
    badWords := decide (count ≠ ceilDiv len 8), tag := bits h 48 16,
    clerk := home (bits h 0 12),
    place := .bytes (((words.map (fun w => toLE 8 w.toNat)).flatten).take len),
    settle := lastPosition, route := none, step := 0, slot := 0, own := none, read := none, words := words.length,
    no := 0, paid := false, whileHeld := false }


/-- Whether bytes are well-formed after a carry, and the carry they leave (R158). -/
def strictScan (carry bs : List Byte) (textEnd : Bool) : Option (List Byte) :=
  let all := carry ++ bs
  let (cs, rest) := utf8Scan (all.length + 1) all
  if cs.any (fun x => match x.1 with | .bad _ => true | _ => false) then none
  else if textEnd then (if rest.isEmpty then some [] else none)
  else some rest

/-- Policy of a tenant's image. -/
def policyOf (s : State) (k : Nat) : Policy := ((imageOf s k).map TokImage.policy).getD .byte

/-- The checks of Table 4.4 before the decode: the status and whether the stream becomes HELD. A chunk that reached TELLER as
no re-issue while its stream was HELD is refused although a re-issue before it has opened the stream (R143, R168; DEDUCED,
log entry 178). -/
def checkChunk (s : State) (c : Chunk) : Option (Nat × Bool) :=
  let x := stream s c.stream
  if s.build.size.contexts ≤ c.stream then some (St.BOUNDS, false)
  else if unitOut s 6 (home c.stream) then some (St.SPARE_OUT, false)
  else if x.st = .free then some (St.BAD_OP, false)
  else if x.st = .dead ∨ x.st = .closing then some (St.DEAD, false)
  else if (x.st = .held ∧ !c.reissue) ∨ c.whileHeld then some (St.BAD_OP, false)
  else if c.source < 8 ∧ c.reissue ∧ x.st ≠ .held then some (St.BAD_OP, true)
  else if c.badHeader then some (St.BAD_OP, true)
  else if c.badWords ∨ (c.len = 0 ∧ !c.eos) ∨ (c.len ≠ 0 ∧ c.eos) ∨ (c.source = 8 ∧ 16777216 < c.len) then
    some (St.LEN, true)
  else if (match c.place with
      | .stack a => decide (c.len ≠ 0) && !inRegion s 0 a c.len
      | .bytes _ => false) then some (St.BOUNDS, true)
  else if 16777216 < x.promptBytes + c.len then some (St.LEN, true)
  else none

/-- The decode of a STRICT tenant's payload (R158): the status when it is refused. -/
def checkStrict (s : State) (c : Chunk) (bs : List Byte) : Option (Nat × Bool) :=
  let x := stream s c.stream
  if policyOf s x.tenant = .strict then
    match strictScan x.assay.teller bs c.textEnd with
    | none => some (St.UTF8, true)
    | some _ => none
  else none

/-- Whether a chunk of a STRICT tenant must be read before acceptance. -/
def needsPreRead (s : State) (c : Chunk) : Bool :=
  decide (policyOf s (stream s c.stream).tenant = .strict) && decide (c.len ≠ 0) && c.read.isNone &&
    (match c.place with
     | .stack _ => true
     | .bytes _ => false)

/-- The chunk whose acceptance an entry's write completes. -/
def After.chunk : After → Option Chunk
  | .accepted c _ => some c
  | _ => none

/-- The chunks between their checks and their acceptance. -/
def acceptingChunks (s : State) : List Chunk :=
  s.accesses.filterMap (fun a => match a.job with
    | .journal _ next => next.chunk
    | .logged _ next => next.chunk
    | .preRead c => some c
    | _ => none)
    ++ s.ledger.waiting.filterMap (fun w => w.2.2.chunk)

/-- Whether a chunk of the stream is between its checks and its acceptance. -/
def accepting (s : State) (n : Nat) : Bool := (acceptingChunks s).any (fun c => decide (c.stream = n))

/-- Whether a chunk of the same stream that reached TELLER before waits there still (R144). -/
def behindOther (s : State) (c : Chunk) : Bool :=
  (waitingChunks s).any (fun x => decide (x.stream = c.stream) && decide (x.no < c.no))

/-- Whether TELLER's copy of a STRICT tenant's carry, which a replay has set back, still follows tiles in front of ASSAY
(R158, log entry 147). -/
def carryUnknown (s : State) (n : Nat) : Bool :=
  decide (policyOf s (stream s n).tenant = .strict) && (stream s n).assay.follow && comesTo s Hop.ASSAY n

/-- Whether ASSAY has room for a chunk's tiles: every tile of those accepted before has been sent, and the chunks still being
accepted leave room. -/
def assayRoom (s : State) : Bool :=
  let k := comingFill s Hop.ASSAY + (acceptingChunks s).length
  s.teller.cuts.isEmpty && (decide (k = 0) || decide (k < Config.queueDepth))

/-- Whether TELLER can take a chunk now: the journal open (R533), the chunks of its stream before it accepted or refused
(R144), and room at ASSAY for the tiles it is cut into (R151). -/
def chunkTurn (s : State) (c : Chunk) : Bool :=
  journalOpen s && stationUp s Hop.TELLER && !accepting s c.stream && !behindOther s c && !carryUnknown s c.stream
    && (assayRoom s || (checkChunk s c).isSome)

/-- An answer of two words on a lane's response channel (Table 4.3). -/
def answerLane (c : Chunk) (status n : Nat) (s : State) : State :=
  let p := c.source / 2
  let w := c.stream + c.source % 2 * 2 ^ 12 + c.tag * 2 ^ 16 + status * 2 ^ 32
  { s with teller := { s.teller with
      resp := Tab.set [] s.teller.resp p (Tab.get [] s.teller.resp p ++ [BitVec.ofNat 64 w, BitVec.ofNat 64 n]) } }

/-- The DAY_ERR log and DAY_ERRCNT (Table 3.20). -/
def dayError (slot clerk status step : Nat) (s : State) : State :=
  logFirst R.DAY_ERR_LO (slot % 256 + clerk % 8 * 2 ^ 8 + status % 256 * 2 ^ 11) R.DAY_ERR_HI step
    (bump R.DAY_ERRCNT 1 s)

/-- A chunk refused whole (R139): its source learns of it, and the stream becomes HELD where the check says. -/
def refuseChunk (c : Chunk) (status : Nat) (holds : Bool) (s : State) : State :=
  let s := bump R.TEL_REFUSE 1 s
  let s := logFirst R.TEL_ERR_LO
    (c.stream + c.source * 2 ^ 12 + status * 2 ^ 16 + (if c.source < 8 then 0 else c.clerk * 2 ^ 24))
    R.TEL_ERR_HI (if c.source = 8 then 0 else c.tag) s
  let s := if c.source < 8 then answerLane c status 0 s
    else if c.source = 8 then dayError c.slot c.clerk status c.step s
    else reportTicket c.clerk c.tag status 0 s
  if holds && decide ((stream s c.stream).st = .opened) then
    journal (entry 8 c.stream status 0 0 0 0 0 false) [] .nothing (holdStream c.stream Hop.TELLER 0 s)
  else s

/-- The ACCEPT entry of a chunk (Table 11.2), before its ledger number and text log offset. -/
def acceptEntry (s : State) (c : Chunk) (log : List Byte) : JEntry :=
  let b := match c.place with
    | .stack a => a
    | .bytes _ => 0
  entry 1 c.stream 0
    (c.source + (stream s c.stream).tenant * 2 ^ 4 + flag c.textEnd * 2 ^ 8 + flag c.eos * 2 ^ 9) 0 (posHeader c.settle) b
    (c.len + (if log.isEmpty then 0 else crc32c log) * 2 ^ 32) false

/-- Acceptance begins: the payload goes to the text log, then the entry to both mirrors (R142). -/
def acceptChunk (c : Chunk) (s : State) : State :=
  let log := match c.place with
    | .bytes d => d
    | .stack _ => []
  journal (acceptEntry s c log) log (.accepted c 0) s

/-- The bytes TELLER decodes of a chunk: those read before acceptance, or those it holds. -/
def Chunk.text (c : Chunk) : List Byte :=
  match c.read, c.place with
  | some d, _ => d
  | none, .bytes d => d
  | none, .stack _ => []

/-- A chunk that has passed the checks of Table 4.4 before the decode. -/
def admitChunk (c : Chunk) (s : State) : State :=
  if needsPreRead s c then
    match c.place with
    | .stack a =>
      let lines := readSpan s a c.len
      startAccess 1 (lineBill lines.length) .read 1 lines (.preRead c) s
    | .bytes _ => s
  else
    match checkStrict s c c.text with
    | some (st, h) => refuseChunk c st h s
    | none => acceptChunk c s

/-- The item an accepted chunk makes (Table 11.3). -/
def chunkItem (s : State) (c : Chunk) (n : Nat) : Item :=
  let log := match c.place with
    | .bytes d => !d.isEmpty
    | .stack _ => false
  let e := acceptOf s n
  { ledger := n, stream := c.stream, source := c.source, tenant := (stream s c.stream).tenant,
    textEnd := c.textEnd, eos := c.eos, settle := c.settle, place := c.place, len := c.len, route := c.route,
    entry := [], logOff := if log then ((e.map JEntry.logOff).getD 0) else 0,
    jseq := (e.map JEntry.jseq).getD 0, outs := [], status := St.OK, flags := 0, owner := none, ended := none,
    completing := false, complete := false, settled := false, replaying := false, asReplay := false, replays := 0, reposts := 0, poison := false, dropped := false, banks := [],
    deep := false, emitted := [], after := none }

/-- The stream after an acceptance (R141, R143, R158). TELLER's copy of the carry takes the chunk in, or goes on following
ASSAY's behind the chunk's tiles. -/
def acceptStream (s : State) (c : Chunk) (n : Nat) (x : Stream) : Stream :=
  let strict := decide (policyOf s x.tenant = .strict) && !carryUnknown s c.stream
  { x with
    st := if x.st = .held ∧ c.reissue then .opened else x.st,
    heldAt := if x.st = .held ∧ c.reissue then 0 else x.heldAt,
    heldItem := if x.st = .held ∧ c.reissue then 0 else x.heldItem,
    armed := false, lastLedger := n,
    promptBytes := if c.textEnd then 0 else x.promptBytes + c.len,
    assay := if strict then
        { x.assay with teller := (strictScan x.assay.teller c.text c.textEnd).getD [], follow := false }
      else x.assay }

/-- An acceptance acknowledged: the item, the answer, the tiles, and the close an EOS chunk makes. -/
def acceptDone (c : Chunk) (n : Nat) (s : State) : State :=
  let i := chunkItem s c n
  let s := bump R.TEL_ACCEPT 1 (bump R.LDG_ACCEPTS 1 s)
  let s := addItem i s
  let s := onStream c.stream (acceptStream s c n) s
  let s := if c.source < 8 then answerLane c St.OK n s
    else if c.source = 9 then onTicket c.clerk c.tag (fun k => { k with ledger := n }) s
    else s
  let s := cutItem false i c.clerk (if c.source = 9 then c.tag else 0xFFF) s
  if c.eos ∧ (stream s c.stream).st ≠ .closing then closeStream c.stream 1 .nothing s else s

/-! ### Lanes -/

/-- Chunks waiting in a lane's buffer. -/
def laneBuf (s : State) (l : Nat) : List Chunk := Tab.get [] s.teller.lanes l

/-- The state with a lane's buffer replaced. -/
def setLane (l : Nat) (q : List Chunk) (s : State) : State :=
  { s with teller := { s.teller with lanes := Tab.set [] s.teller.lanes l q } }

/-- Bytes of buffer that the waiting chunks of a lane take: header and data words. -/
def laneUsed (s : State) (l : Nat) : Nat := ((laneBuf s l).map (fun c => 8 + 8 * c.words)).sum

/-- Whether a port's response queue holds 64 answers (R149). -/
def respFull (s : State) (p : Nat) : Bool := decide (128 ≤ (Tab.get [] s.teller.resp p).length)

/-- Whether a port's response queue has room for the answer to a lane's next chunk, and the chunk before it has its
answer (R138, R149). -/
def answerTurn (s : State) (l : Nat) : Bool :=
  !(acceptingChunks s).any (fun c => decide (c.source = l))
    && decide ((Tab.get [] s.teller.resp (l / 2)).length
        + 2 * ((acceptingChunks s).filter (fun c => decide (c.source < 8) && decide (c.source / 2 = l / 2))).length
        + 2 ≤ 128)

/-- Whether a lane can take a chunk of so many words (R149, Table 4.11). -/
def laneReady (s : State) (l words : Nat) : Bool :=
  decide (l < s.build.size.lanes) && bit (reg s R.TEL_CTRL) l && stationUp s Hop.TELLER
    && clkUp s (13 + l / 2) && !respFull s (l / 2)
    && !portMissing s 8 (l / 2)
    && decide (laneUsed s l + 8 + 8 * min words 8192 ≤ 131072)

/-- How TELLER's taking of a lane's next chunk is named when it waits for coins. -/
def laneCommand (l : Nat) : Instr := .laneChunk (BitVec.ofNat 3 l) 0 []

/-- The front chunk of a lane leaves its buffer and goes to acceptance. -/
def laneAccept (l : Nat) (s : State) : State :=
  match laneBuf s l with
  | [] => s
  | c :: rest => admitChunk c (setLane l rest s)

/-- The coins of a lane's front chunk are bought. -/
def payLane (l : Nat) (s : State) : State :=
  match laneBuf s l with
  | [] => s
  | c :: rest => setLane l ({ c with paid := true } :: rest) s

/-- TELLER takes chunks from a lane as far as it can: each in its turn, once the answer to the one before it is given and
there is room for its own; a chunk that passes its checks buys its price first. -/
def drainLane (fuel l : Nat) (s : State) : State :=
  match fuel with
  | 0 => s
  | f + 1 =>
    match laneBuf s l with
    | [] => s
    | c :: rest =>
      if !chunkTurn s c || !answerTurn s l then s
      else match checkChunk s c with
        | some (st, h) => drainLane f l (refuseChunk c st h (setLane l rest s))
        | none =>
          if c.paid then drainLane f l (laneAccept l s)
          else drainLane f l (buy 1 [(250, 1)] (laneCommand l) id (laneAccept l) s)

/-- Every lane in turn. -/
def drainLanes (s : State) : State :=
  (List.range 8).foldl (fun s l => drainLane (laneBuf s l).length l s) s

/-- LANE_CHUNK: a whole chunk passes on a lane and waits in its buffer until TELLER takes it (R137, R139). -/
def execLaneChunk (lane : BitVec 3) (header : Word) (words : List Word) (s : State) :
    Host.Outcome State Fault Refusal :=
  let l := lane.toNat
  if laneReady s l words.length then
    let c : Chunk := laneChunkOf l header words
    let c := { c with no := s.issueNo + 1,
                      whileHeld := decide ((stream s c.stream).st = .held) && !c.reissue }
    let s := setLane l (laneBuf s l ++ [c]) { s with issueNo := s.issueNo + 1 }
    .next (sweep (drainLane (laneBuf s l).length l s))
  else .next s

/-! ### Memory chunks -/

/-- The front chunk leaves TELLER's input queue and goes to acceptance. -/
def tellerBody (s : State) : State :=
  match s.teller.queue with
  | [] => s
  | c :: rest => admitChunk c { s with teller := { s.teller with queue := rest } }

/-- The coins of the front chunk of TELLER's input queue are bought. -/
def payTeller (s : State) : State :=
  match s.teller.queue with
  | [] => s
  | c :: rest => { s with teller := { s.teller with queue := { c with paid := true } :: rest } }

/-- TELLER takes the next chunk of its input queue, when it can. -/
def takeChunk (s : State) : State :=
  match s.teller.queue with
  | [] => s
  | c :: rest =>
    if !chunkTurn s c then s
    else match checkChunk s c with
      | some (st, h) => refuseChunk c st h { s with teller := { s.teller with queue := rest } }
      | none => if c.paid then tellerBody s else buy 1 [(250, 1)] .tellerChunk id tellerBody s

/-- TELLER_CHUNK: TELLER takes the next memory chunk (R139, R142), and looks again at the lanes whose chunks wait. -/
def execTellerChunk (s : State) : Host.Outcome State Fault Refusal := .next (sweep (drainLanes (takeChunk s)))

/-- TEL_REISSUE with GO: arms the re-issue of a stream HELD by a refusal of TELLER's (R143). -/
def execTelReissue (n : BitVec 12) (s : State) : Host.Outcome State Fault Refusal := viaPort s fun s =>
  let x := stream s n.toNat
  if stationUp s Hop.TELLER && decide (x.st = .held) && decide (x.heldAt = Hop.TELLER) then .next (onStream n.toNat (fun x => { x with armed := true }) s)
  else .next s

/-- INGRESS_RESPONSE_TAKEN: the sender takes response words (R138, R149). -/
def execIngressResponseTaken (port : BitVec 2) (words : BitVec 8) (s : State) :
    Host.Outcome State Fault Refusal :=
  let p := port.toNat
  let q := Tab.get [] s.teller.resp p
  let s := { s with teller := { s.teller with resp := Tab.set [] s.teller.resp p (q.drop words.toNat) } }
  .next (sweep (drainLanes s))

end Sys2Proof.Machine
end

