-- ==== Sys2Proof/Decode.lean ====
section
/-!
DEFINITION. The Lambiop encodings (R66, R67, R71): a 64-bit word to the command a thread issues and back. The
commands of spec/opcode_table.json have no bits of their own, so no word spells one.
-/

namespace Sys2Proof

/-- The command an opcode of Table 2.6 names; none where the opcode is undefined (R71). -/
def lambiopOf (op : Nat) (w : Who) (f : Fields) : Option Instr :=
  match op with
  | 0x01 => some (.add w f)
  | 0x02 => some (.sub w f)
  | 0x03 => some (.mul w f)
  | 0x04 => some (.and w f)
  | 0x05 => some (.or w f)
  | 0x06 => some (.xor w f)
  | 0x07 => some (.shl w f)
  | 0x08 => some (.shr w f)
  | 0x09 => some (.sar w f)
  | 0x0A => some (.addi w f)
  | 0x0B => some (.andi w f)
  | 0x0C => some (.lui w f)
  | 0x0D => some (.cmp w f)
  | 0x0E => some (.cmpi w f)
  | 0x0F => some (.sel w f)
  | 0x10 => some (.pset w f)
  | 0x11 => some (.crc w f)
  | 0x18 => some (.b w f)
  | 0x19 => some (.bp w f)
  | 0x1A => some (.call w f)
  | 0x1B => some (.ret w f)
  | 0x1C => some (.yield w f)
  | 0x1D => some (.halt w f)
  | 0x1E => some (.brk w f)
  | 0x1F => some (.nop w f)
  | 0x20 => some (.rds w f)
  | 0x21 => some (.wrs w f)
  | 0x22 => some (.ld w f)
  | 0x23 => some (.st w f)
  | 0x24 => some (.ldx w f)
  | 0x25 => some (.stx w f)
  | 0x30 => some (.sopen w f)
  | 0x31 => some (.sfeed w f)
  | 0x32 => some (.sclose w f)
  | 0x40 => some (.flow w f)
  | 0x41 => some (.dnext w f)
  | 0x44 => some (.waitt w f)
  | 0x45 => some (.waitb w f)
  | 0x46 => some (.tpoll w f)
  | 0x50 => some (.post w f)
  | 0x51 => some (.pay w f)
  | 0x52 => some (.settle w f)
  | 0x60 => some (.mask w f)
  | 0x61 => some (.next w f)
  | 0x62 => some (.draft w f)
  | 0x63 => some (.pick w f)
  | 0x70 => some (.emit w f)
  | 0x78 => some (.price w f)
  | _ => none

/-- Opcode, thread and fields of a Lambiop command; none for the other commands. -/
def lambiopParts (i : Instr) : Option (Nat × Who × Fields) :=
  match i with
  | .add w f => some (0x01, w, f)
  | .sub w f => some (0x02, w, f)
  | .mul w f => some (0x03, w, f)
  | .and w f => some (0x04, w, f)
  | .or w f => some (0x05, w, f)
  | .xor w f => some (0x06, w, f)
  | .shl w f => some (0x07, w, f)
  | .shr w f => some (0x08, w, f)
  | .sar w f => some (0x09, w, f)
  | .addi w f => some (0x0A, w, f)
  | .andi w f => some (0x0B, w, f)
  | .lui w f => some (0x0C, w, f)
  | .cmp w f => some (0x0D, w, f)
  | .cmpi w f => some (0x0E, w, f)
  | .sel w f => some (0x0F, w, f)
  | .pset w f => some (0x10, w, f)
  | .crc w f => some (0x11, w, f)
  | .b w f => some (0x18, w, f)
  | .bp w f => some (0x19, w, f)
  | .call w f => some (0x1A, w, f)
  | .ret w f => some (0x1B, w, f)
  | .yield w f => some (0x1C, w, f)
  | .halt w f => some (0x1D, w, f)
  | .brk w f => some (0x1E, w, f)
  | .nop w f => some (0x1F, w, f)
  | .rds w f => some (0x20, w, f)
  | .wrs w f => some (0x21, w, f)
  | .ld w f => some (0x22, w, f)
  | .st w f => some (0x23, w, f)
  | .ldx w f => some (0x24, w, f)
  | .stx w f => some (0x25, w, f)
  | .sopen w f => some (0x30, w, f)
  | .sfeed w f => some (0x31, w, f)
  | .sclose w f => some (0x32, w, f)
  | .flow w f => some (0x40, w, f)
  | .dnext w f => some (0x41, w, f)
  | .waitt w f => some (0x44, w, f)
  | .waitb w f => some (0x45, w, f)
  | .tpoll w f => some (0x46, w, f)
  | .post w f => some (0x50, w, f)
  | .pay w f => some (0x51, w, f)
  | .settle w f => some (0x52, w, f)
  | .mask w f => some (0x60, w, f)
  | .next w f => some (0x61, w, f)
  | .draft w f => some (0x62, w, f)
  | .pick w f => some (0x63, w, f)
  | .emit w f => some (0x70, w, f)
  | .price w f => some (0x78, w, f)
  | .ticketComplete _ _ => none
  | .purchaseServed => none
  | .inputQueueRoom _ => none
  | .clerkStart _ => none
  | .clerkHalt _ => none
  | .threadRestart _ => none
  | .beatPositionTaken _ => none
  | .daybookFetchResume _ => none
  | .graceEnd _ => none
  | .thinGraceEnd _ => none
  | .beatArm => none
  | .beatFreeze => none
  | .beatCfgWrite _ => none
  | .daybookConfigWrite _ _ => none
  | .laneChunk _ _ _ => none
  | .tellerChunk => none
  | .telReissue _ => none
  | .assayTile _ _ => none
  | .sorterTile _ _ => none
  | .stripeSlotsFreed _ => none
  | .sorterThermalSample _ => none
  | .mintTile _ _ => none
  | .vaultReloadDone _ => none
  | .vaultUnitsFreed _ => none
  | .notaryDecisionTile _ _ => none
  | .notaryTokenTile _ _ => none
  | .notaryAdvance _ => none
  | .runaheadResolve _ _ => none
  | .clearingDescriptor _ _ => none
  | .maskPagesFreed _ => none
  | .logitRow _ _ _ => none
  | .nearBankList _ _ => none
  | .exchangeTile _ _ => none
  | .escrowHoldResolve _ => none
  | .egressRecord _ _ => none
  | .memoryResponse _ _ _ _ => none
  | .deferredRetry _ _ => none
  | .channelQuiesceDrained => none
  | .stkConfigWrite _ _ => none
  | .ledgerHop _ _ => none
  | .completionPacket => none
  | .settlePush _ => none
  | .settlementTaken => none
  | .journalEnable _ => none
  | .replayDone => none
  | .carryForward => none
  | .queuePop => none
  | .queueFlush _ => none
  | .loadImage => none
  | .imageLoadDone _ _ => none
  | .setCeiling => none
  | .remapRow => none
  | .retire => none
  | .restore => none
  | .margin => none
  | .setHash => none
  | .zeroise => none
  | .debugUnlock => none
  | .dlock => none
  | .keyEpoch _ => none
  | .keyDelivery _ _ => none
  | .keyClear _ => none
  | .tagBackoffEnd _ => none
  | .purseTick _ _ _ => none
  | .purseTelemetryPacket => none
  | .purAllowWrite _ => none
  | .patrolScrub _ => none
  | .slackSweep _ => none
  | .sweepEnd _ => none
  | .spareSwapDone => none
  | .tileReloadDone _ => none
  | .scrubPassStart => none
  | .sweepRequest _ => none
  | .channelQuiesce => none
  | .quiesceEnd => none
  | .pendingPop => none
  | .vreqAck => none
  | .vreqNak => none
  | .registerWrite _ _ => none
  | .pairLoRead _ => none
  | .counterLoWrite _ _ => none
  | .blockReset => none
  | .domainReset _ => none
  | .pwrRst _ => none
  | .resetRelease _ => none
  | .clockLost _ => none
  | .clockRestored _ => none
  | .powerGood _ => none
  | .pdRelease _ => none
  | .pgTimeout _ => none
  | .pgFault _ => none
  | .pdRetry _ => none
  | .pdSwitch _ => none
  | .memoryLinkError _ => none
  | .wdogExpire => none
  | .wdogKick _ => none
  | .testMode => none
  | .bootGo => none
  | .powerGroupStart => none
  | .bootPhaseEnd _ => none
  | .unitMissing _ => none
  | .srqForce _ => none
  | .srqQueueAge => none
  | .debugResume _ => none
  | .debugStep _ => none
  | .undefinedOpcode _ _ => none
  | .malformedKeyedCommand => none
  | .zeroiseDone => none
  | .pdBaseLeavesReset _ => none
  | .interfaceResetRelease _ => none
  | .egressReady _ => none
  | .ingressResponseTaken _ _ => none
  | .ieee1687Access _ => none
  | .tracePortDrain => none

/-- How many low bits of IMM an instruction uses (Table 2.6 and its pseudocode; Table 2.9 for PICK); CMPI uses
bits 2..0 and 39..8 and counts here as using all. -/
def immBits (op : Nat) : Nat :=
  match op with
  | 0x07 => 6
  | 0x08 => 6
  | 0x09 => 6
  | 0x0A => 40
  | 0x0B => 40
  | 0x0C => 24
  | 0x0D => 3
  | 0x0E => 40
  | 0x0F => 3
  | 0x10 => 2
  | 0x18 => 13
  | 0x1A => 13
  | 0x20 => 2
  | 0x21 => 2
  | 0x22 => 40
  | 0x23 => 40
  | 0x24 => 7
  | 0x25 => 7
  | 0x31 => 1
  | 0x41 => 1
  | 0x62 => 1
  | 0x63 => 14
  | 0x70 => 4
  | 0x78 => 9
  | _ => 0

/-- How an instruction uses its D, A and B fields: as a g register, as a predicate number whose top bit is 0
(Table 2.4), or not at all, and then the field is reserved (log entry 4). -/
inductive FieldUse where
  | g | p | none
  deriving DecidableEq, Repr

/-- Whether a field holds what its use allows. -/
def FieldUse.ok (u : FieldUse) (x : BitVec 4) : Bool :=
  match u with
  | .g => true
  | .p => decide (x.toNat < 8)
  | .none => decide (x = 0)

/-- The uses of D, A and B by opcode (Table 2.6). -/
def fieldUses (op : Nat) : FieldUse × FieldUse × FieldUse :=
  match op with
  | 0x01 => (.g, .g, .g)
  | 0x02 => (.g, .g, .g)
  | 0x03 => (.g, .g, .g)
  | 0x04 => (.g, .g, .g)
  | 0x05 => (.g, .g, .g)
  | 0x06 => (.g, .g, .g)
  | 0x07 => (.g, .g, .g)
  | 0x08 => (.g, .g, .g)
  | 0x09 => (.g, .g, .g)
  | 0x0A => (.g, .g, .none)
  | 0x0B => (.g, .g, .none)
  | 0x0C => (.g, .g, .none)
  | 0x0D => (.p, .g, .g)
  | 0x0E => (.p, .g, .none)
  | 0x0F => (.g, .g, .g)
  | 0x10 => (.p, .p, .p)
  | 0x11 => (.g, .g, .g)
  | 0x18 => (.none, .none, .none)
  | 0x19 => (.none, .g, .none)
  | 0x1A => (.none, .none, .none)
  | 0x1B => (.none, .none, .none)
  | 0x1C => (.none, .none, .none)
  | 0x1D => (.none, .none, .none)
  | 0x1E => (.none, .none, .none)
  | 0x1F => (.none, .none, .none)
  | 0x20 => (.g, .none, .none)
  | 0x21 => (.none, .g, .none)
  | 0x22 => (.g, .g, .none)
  | 0x23 => (.none, .g, .g)
  | 0x24 => (.g, .g, .g)
  | 0x25 => (.g, .g, .g)
  | 0x30 => (.g, .g, .none)
  | 0x31 => (.g, .g, .g)
  | 0x32 => (.g, .none, .none)
  | 0x40 => (.g, .g, .none)
  | 0x41 => (.g, .g, .none)
  | 0x44 => (.g, .g, .none)
  | 0x45 => (.g, .g, .none)
  | 0x46 => (.g, .g, .none)
  | 0x50 => (.g, .g, .none)
  | 0x51 => (.g, .g, .none)
  | 0x52 => (.g, .g, .none)
  | 0x60 => (.g, .none, .none)
  | 0x61 => (.g, .g, .none)
  | 0x62 => (.g, .g, .g)
  | 0x63 => (.g, .g, .g)
  | 0x70 => (.g, .g, .g)
  | 0x78 => (.g, .none, .none)
  | _ => (.none, .none, .none)

/-- Whether every reserved bit of an instruction is 0 (R67). -/
def reservedOk (op : Nat) (f : Fields) : Bool :=
  (fieldUses op).1.ok f.d && (fieldUses op).2.1.ok f.a && (fieldUses op).2.2.ok f.b
    && decide (f.imm.toNat < 2 ^ immBits op) && (decide (op ≠ 0x0E) || decide (f.imm.toNat / 8 % 32 = 0))

/-- The fields of a word (Table 2.4). -/
def wordFields (x : Word) : Fields :=
  { d := x.extractLsb' 52 4, a := x.extractLsb' 48 4, b := x.extractLsb' 44 4, pred := x.extractLsb' 40 4,
    imm := x.extractLsb' 0 40 }

/-- Opcode of a word. -/
def wordOp (x : Word) : Nat := (x.extractLsb' 56 8).toNat

/-- The command a thread issues for a word; none where R67 faults the thread. -/
def decodeLambiop (w : Who) (x : Word) : Option Instr :=
  if reservedOk (wordOp x) (wordFields x) then lambiopOf (wordOp x) w (wordFields x) else none

/-- The word of an opcode and fields (Table 2.4). -/
def encodeWord (op : Nat) (f : Fields) : Word :=
  BitVec.ofNat 8 op ++ f.d ++ f.a ++ f.b ++ f.pred ++ f.imm

/-- The word of a Lambiop command; none for the other commands, which no word spells. -/
def encodeLambiop (i : Instr) : Option Word :=
  (lambiopParts i).map (fun p => encodeWord p.1 p.2.2)

/-- The command that a word spells by the table's bits: spec/opcode_table.json gives its rows none. -/
def decodeTableWord (_nbits _w : Nat) : Option Instr := none

end Sys2Proof
end

