-- ==== Sys2Proof/Machine/Flags.lean ====
section
/-!
DEFINITION. The conditions of CMP and CMPI and the combinations of PSET: all that Lambiop computes into
predicate registers (Scalar and control).
-/

namespace Sys2Proof.Machine

/-- The conditions of CMP and CMPI: 0 EQ, 1 NE, 2 LTU, 3 GEU, 4 LTS, 5 GES, 6 STEQ, 7 STNE. -/
def condHolds (c : Nat) (x y : Word) : Bool :=
  match c with
  | 0 => x == y
  | 1 => x != y
  | 2 => x.ult y
  | 3 => !x.ult y
  | 4 => x.slt y
  | 5 => !x.slt y
  | 6 => x.setWidth 8 == y.setWidth 8
  | _ => x.setWidth 8 != y.setWidth 8

/-- The combinations of PSET: 0 and, 1 or, 2 exclusive or, 3 and not. -/
def predOp (c : Nat) (x y : Bool) : Bool :=
  match c with
  | 0 => x && y
  | 1 => x || y
  | 2 => xor x y
  | _ => x && !y

end Sys2Proof.Machine
end

