-- ==== Sys2Proof/Machine/Operands.lean ====
section
/-!
DEFINITION. The operand forms of Lambiop (Table 2.4): the fields of the immediate, sign extension, shift amounts,
predicates, scratch addresses, and the blocks in scratch that instructions read.
-/

namespace Sys2Proof.Machine

/-! ### Fields -/

/-- Field of the immediate. -/
def immBits (f : Fields) (lo w : Nat) : Nat := bits f.imm.toNat lo w

/-- The immediate sign-extended from 40 bits. -/
def immWord (f : Fields) : Word := f.imm.signExtend 64

/-- The constant of CMPI: immediate bits 39 to 8, sign-extended from 32 bits. -/
def cmpConst (f : Fields) : Word := (f.imm.extractLsb' 8 32).signExtend 64

/-- Whether the instruction's predicate lets it take effect (R66). -/
def predHolds (t : Thread) (f : Fields) : Bool := xor (t.pred (f.pred.toNat % 8)) (f.pred.toNat.testBit 3)

/-- Shift amount of SHL, SHR and SAR. -/
def shiftAmt (t : Thread) (f : Fields) : Nat := ((t.reg f.b).toNat + immBits f 0 6) % 64

/-- Address of LD and ST. -/
def memAddr (t : Thread) (f : Fields) : Nat := (t.reg f.a + immWord f).toNat

/-- The address rule of LD and ST. -/
def wordInScratch (x : Nat) : Bool := decide (x % 8 = 0) && decide (x < scratchSize)

/-- Whether a span of whole lines lies aligned in scratch. -/
def linesInScratch (x n : Nat) : Bool := decide (x % 64 = 0) && decide (x + 64 * n ≤ scratchSize)

/-- A 64-byte aligned block that an instruction reads or writes. -/
def blockInScratch (x : Nat) : Bool := linesInScratch x 1

/-- The 64-bit word at a scratch address. -/
def scratchWord (s : State) (c x : Nat) : Word := BitVec.ofNat 64 (ofLE (scratchRead s c x 8))

/-! ### The SOPEN parameter block (Table 2.7) -/

/-- The fields of an SOPEN block; `reserved` whether a reserved field is not 0. -/
structure OpenBlock where
  tenant : Nat
  gid : Nat
  gen : Bool
  allow : Nat
  intake : Nat
  outAddr : Nat
  outLog2 : Nat
  seed : Nat
  stopPtr : Nat
  stopCnt : Nat
  reserved : Bool
  deriving DecidableEq, Repr

/-- The fields of a block's 64 bytes. -/
def readOpen (bs : List Byte) : OpenBlock :=
  let w (i : Nat) : Nat := leAt bs (8 * i) 8
  { tenant := bits (w 0) 0 4, gid := bits (w 0) 4 12, gen := bit (w 0) 16, allow := bits (w 0) 32 16,
    intake := bits (w 1) 0 32, outAddr := bits (w 2) 0 48, outLog2 := bits (w 2) 48 6, seed := w 3,
    stopPtr := bits (w 4) 0 18, stopCnt := bits (w 4) 18 5,
    reserved := decide (bits (w 0) 17 15 ≠ 0) || decide (bits (w 0) 48 16 ≠ 0) || decide (bits (w 1) 32 32 ≠ 0)
      || decide (bits (w 2) 54 10 ≠ 0) || decide (bits (w 4) 23 41 ≠ 0) || decide (w 5 ≠ 0) || decide (w 6 ≠ 0)
      || decide (w 7 ≠ 0) }

/-! ### The flow block (Tables 1.3 and 2.8) -/

/-- The fields of a flow block that FLOW reads; `reserved` whether a reserved field is not 0. -/
structure FlowBlock where
  kind : Nat
  count : Nat
  textEnd : Bool
  eos : Bool
  replay : Bool
  settle : Nat
  route : Nat
  stack : Bool
  addr : Nat
  result : Nat
  reserved : Bool
  deriving DecidableEq, Repr

/-- The fields of a block's 64 bytes; HOP is the block's to fill (R75). What a program writes in LAST decides nothing: a
station sets LAST on the final tile it emits (R43, log entry 175). -/
def readFlow (bs : List Byte) : FlowBlock :=
  let w (i : Nat) : Nat := leAt bs (8 * i) 8
  { kind := bits (w 0) 0 2, count := bits (w 0) 20 13, textEnd := bit (w 0) 34,
    eos := bit (w 0) 35, replay := bit (w 0) 36, settle := headerPos (w 2), route := setBits (bits (w 3) 0 32) 28 3 0,
    stack := bit (w 4) 63, addr := bits (w 4) 0 48, result := w 5,
    reserved := decide (bits (w 0) 2 2 ≠ 0) || decide (bits (w 0) 37 3 ≠ 0) || decide (bits (w 2) 44 4 ≠ 0)
      || bit (w 2) 51 || bit (w 3) 31 || decide (bits (w 4) 48 15 ≠ 0) || decide (w 5 / 2 ^ 18 ≠ 0) || decide (w 6 ≠ 0) || decide (w 7 ≠ 0) }

/-- The COUNT range of a kind (Table 1.4). -/
def countFits (b : FlowBlock) : Bool :=
  if b.kind = 2 then decide (b.count = 64)
  else decide (b.count ≤ (if b.kind = 0 then 4096 else 1024)) && (decide (b.count ≠ 0) || b.textEnd || b.eos)

/-- The kind of a code. -/
def kindOf (k : Nat) : Kind := if k = 0 then .text else if k = 1 then .token else .decision

/-- Bytes of a flow block's payload. -/
def payloadLen (b : FlowBlock) : Nat := if b.kind = 1 then 4 * b.count else b.count

/-! ### Legal routes (R37 to R39) -/

/-- What travels between hops, as R39 follows it. -/
inductive Carried where
  | text | pieces | token | decision | chosen
  deriving DecidableEq, Repr

/-- What a station passes on, none where it does not accept what reaches it or may not follow the hop before
(Table 1.5). -/
def routeStep (before hop : Nat) (k : Carried) : Option Carried :=
  match hop with
  | 1 => if before = 0 ∧ k = .text then some .text else none
  | 2 => if before = 1 ∧ k = .text then some .text else none
  | 3 => if before = 2 ∧ k = .text then some .pieces else none
  | 4 => if before = 3 ∧ k = .pieces then some .token else none
  | 5 => if (before = 0 ∨ before = 4) ∧ (k = .token ∨ k = .decision) then some .decision else none
  | 6 => if before = 5 ∧ k = .decision then some .chosen else none
  | 7 => if (before = 0 ∨ before = 6) ∧ (k = .token ∨ k = .chosen) then some .text else none
  | 8 => if before ≠ 0 then some k else none
  | _ => none

/-- Whether what reaches a sink is a kind it accepts. -/
def sinkTakes (before hop : Nat) (k : Carried) : Bool :=
  if hop = 9 ∨ hop = 10 then decide (before = 8) && (decide (k = .text) || decide (k = .pieces) || decide (k = .token))
  else if hop = 11 then decide (before = 8)
  else decide (hop = 12 ∧ before ≠ 0)

/-- Walks a route from a hop: `left` hops are left, `seen` those passed. -/
def routeWalk (route : Nat) : Nat → Nat → Nat → List Nat → Carried → Bool
  | 0, _, _, _, _ => false
  | left + 1, i, before, seen, k =>
    let h := routeHop route i
    if 9 ≤ h ∧ h ≤ 12 then
      sinkTakes before h k && (List.range 7).all (fun j => decide (j ≤ i) || decide (routeHop route j = 0))
    else if seen.contains h then false
    else match routeStep before h k with
      | some k => routeWalk route left (i + 1) h (h :: seen) k
      | none => false

/-- Whether a route word is legal for a kind of tile (R39). -/
def routeLegal (route : Nat) (k : Kind) : Bool :=
  routeWalk route 7 0 0 [] (match k with | .text => .text | .token => .token | .decision => .decision)

/-- The sink of a route: its last hop that is not 0. -/
def routeSink (route : Nat) : Nat := (((List.range 7).map (routeHop route)).filter (· ≠ 0)).getLast?.getD 0

end Sys2Proof.Machine
end

