-- ==== Sys2Proof/Machine/Clerk.lean ====
section
/-!
DEFINITION. How a CLERK issues an instruction (R57, R66 to R70, R72, R88, R92 to R94): decoding, price, predicate,
effect, faults, and the items a stopped thread leaves.
-/

namespace Sys2Proof.Machine

/-- Whether a CLERK is there to issue: built, powered, out of reset, and not stopped by ST_FATAL. -/
def clerkReady (s : State) (c : Nat) : Bool :=
  decide (c < s.build.size.clerks) && pdUp s (1 + c / 2) && clkUp s 1 && !s.clerkFatal.testBit c

/-- Whether an instruction is one of a thread. -/
def ofThread (w : Who) (i : Instr) : Bool :=
  match lambiopParts i with
  | some (_, x, _) => decide (x = w)
  | none => false

/-- The items a thread has accepted and not completed: they complete with a status once their tickets have
(R94). -/
def endOwned (w : Who) (status : Nat) (s : State) : State :=
  { s with ledger := { s.ledger with
      items := s.ledger.items.map (fun i =>
        if i.owner = some w then { i with owner := none, ended := some (i.ended.getD status) } else i) } }

/-- The first fault of a CLERK since its CLK_FAULTn was cleared (Table 2.19). -/
def logFault (w : Who) (pc status : Nat) (s : State) : State :=
  let off := R.CLK_FAULT0 + 4 * w.clerk.toNat
  if bit (reg s off) 31 then s
  else setReg off (pc % 8192 + w.thread.toNat * 2 ^ 13 + status % 256 * 2 ^ 17 + 2 ^ 31) s

/-- A thread that faults (R92 to R94). -/
def faultThread (w : Who) (status : Nat) (s : State) : State :=
  let s := logFault w (thread s w).pc status s
  sweep (endOwned w status (onThread w (fun t =>
    { t with st := .faulted, wait := .ready, stepping := false, stopAfter := false }) s))

/-- What an instruction is to its CLERK: its opcode, its bill, whether it can leave index 8,191 without running past
it, and its effect when its predicate is true. -/
structure Op where
  code : Nat
  bill : List (Nat × Nat)
  jumps : Bool
  act : State → State

/-- An instruction bought for a base price in cents. -/
def pricedOp (code cents : Nat) (act : State → State) : Op :=
  { code := code, bill := [(cents, 1)], jumps := false, act := act }

/-- An instruction bought for the price of its opcode (Table 2.6). -/
def plainOp (code : Nat) (act : State → State) : Op := pricedOp code ((opPrice code).getD 0) act

/-- The thread goes on with the next instruction. -/
def advancePc (w : Who) (s : State) : State := onThread w (fun t => t.goOn (t.pc + 1)) s

/-- A g register written, and the thread goes on. -/
def putG (w : Who) (d : BitVec 4) (v : Word) (s : State) : State :=
  onThread w (fun t => (t.setG d v).goOn (t.pc + 1)) s

/-- A p register written, and the thread goes on. -/
def putP (w : Who) (d : Nat) (v : Bool) (s : State) : State :=
  onThread w (fun t => (t.setP d v).goOn (t.pc + 1)) s

/-- A result word with a status alone. -/
def putStatus (w : Who) (d : BitVec 4) (status : Nat) (s : State) : State := putG w d (resultWord status 0 0) s

/-- The thread waits until the instruction can go on. -/
def waitRetry (w : Who) (cmd : Instr) (s : State) : State := onThread w (fun t => { t with wait := .retry cmd }) s

/-- The thread waits for coins. -/
def waitCoins (w : Who) (s : State) : State := onThread w (fun t => { t with wait := .coins }) s

/-- The thread waits for an access or a journal entry. -/
def waitBusy (w : Who) (s : State) : State := onThread w (fun t => { t with wait := .busy }) s

/-- An instruction paid for: nothing but the program counter under a false predicate (R68); a fault at index 8,191
(R72, R93); else its effect. -/
def takeEffect (w : Who) (f : Fields) (op : Op) (s : State) : State :=
  let t := thread s w
  let go := predHolds t f
  if decide (t.pc = 8191) && !(go && op.jumps) then faultThread w St.BOUNDS s
  else if go then op.act s
  else advancePc w s

/-- The thread that issued last (R57), and the number of its instruction in issue order (R96). -/
def noteIssue (w : Who) (s : State) : State :=
  onThread w (fun t => { t with no := s.issueNo + 1 })
    { s with lastIssued := Tab.set 0 s.lastIssued w.clerk.toNat w.thread.toNat, issueNo := s.issueNo + 1 }

/-- A CLERK issues an instruction of a thread that is ready; an instruction that waits is tried again, and is not
paid for twice. -/
def issue (w : Who) (f : Fields) (cmd : Instr) (op : Op) (s : State) : State :=
  let t := thread s w
  if !clerkReady s w.clerk.toNat then s
  else if decide (t.st = .running) && decide (t.wait = .retry cmd) then op.act s
  else if !t.canIssue then s
  else if !reservedOk op.code f then faultThread w St.BAD_OP (noteIssue w s)
  else buy 0 op.bill cmd (waitCoins w) (takeEffect w f op) (noteIssue w s)

/-- An instruction whose coins have come: the thread is ready again and the instruction takes effect. -/
def resumePaid (w : Who) (f : Fields) (op : Op) (s : State) : State :=
  if (thread s w).wait = .coins then takeEffect w f op (onThread w (fun t => { t with wait := .ready }) s) else s

end Sys2Proof.Machine
end

