-- ==== Sys2Proof/Machine/Xfer.lean ====
section
/-!
DEFINITION. LDX and STX: copies between scratch and the program data region of stack memory.
-/

namespace Sys2Proof.Machine

/-- The bill of LDX and STX: 5 cents and 40 per line, on the operand value at issue (R88). -/
def lineCents (f : Fields) : Nat := 5 + 40 * immBits f 0 7

/-- The status with which a copy is refused before it starts; `x` is its scratch and `y` its stack address. -/
def xferRefusal (s : State) (f : Fields) (x y : Nat) : Option Nat :=
  let n := immBits f 0 7
  if n = 0 ∨ 64 < n then some St.BAD_OP
  else if !linesInScratch x n then some St.BOUNDS
  else if y % 64 ≠ 0 ∨ !inRegion s 1 y (64 * n) then some St.BOUNDS
  else none

/-- The effect of LDX: refused, or the reads leave and the thread waits for them. -/
def actLdx (w : Who) (f : Fields) (s : State) : State :=
  let t := thread s w
  let x := (t.reg f.a).toNat
  let y := (t.reg f.b).toNat
  let n := immBits f 0 7
  match xferRefusal s f x y with
  | some st => putStatus w f.d st s
  | none => startAccess 0 [] .read 0 (readSpan s y (64 * n)) (.ldx w f.d.toNat x n) (waitBusy w s)

/-- The effect of STX. -/
def actStx (w : Who) (f : Fields) (s : State) : State :=
  let t := thread s w
  let x := (t.reg f.a).toNat
  let y := (t.reg f.b).toNat
  let n := immBits f 0 7
  match xferRefusal s f x y with
  | some st => putStatus w f.d st s
  | none =>
    startAccess 0 [] .write 0 (writeSpan s y (scratchRead s w.clerk.toNat x (64 * n))) (.stx w f.d.toNat n) (waitBusy w s)

/-- LDX: copies n lines from stack memory to scratch. -/
def opLdx (w : Who) (f : Fields) : Op := pricedOp 0x24 (lineCents f) (actLdx w f)

/-- STX: copies n lines from scratch to stack memory. -/
def opStx (w : Who) (f : Fields) : Op := pricedOp 0x25 (lineCents f) (actStx w f)

/-- LDX as a command. -/
def execLdx (w : Who) (f : Fields) (s : State) : Host.Outcome State Fault Refusal :=
  .next (issue w f (.ldx w f) (opLdx w f) s)

/-- STX as a command. -/
def execStx (w : Who) (f : Fields) (s : State) : Host.Outcome State Fault Refusal :=
  .next (issue w f (.stx w f) (opStx w f) s)

/-- A result word for a thread that waits for an access or a journal entry; a thread that has stopped meanwhile gets
none, and one that was told to halt meanwhile leaves its item to R94. -/
def answerThread (w : Who) (d : Nat) (v : Word) (s : State) : State :=
  if (thread s w).wait = .busy then
    let s := putG w (BitVec.ofNat 4 d) v s
    if (thread s w).st = .halted then endOwned w St.BAD_OP s else s
  else s

/-- The end of an LDX: the bytes are in scratch, or nothing of the copy is written. -/
def finishLdx (w : Who) (d dst n status : Nat) (data : List Byte) (s : State) : State :=
  let s := if status = St.OK ∧ (thread s w).wait = .busy then storeScratch (thread s w).no w.clerk.toNat dst data s else s
  answerThread w d (resultWord status 0 n) s

/-- The end of an STX. -/
def finishStx (w : Who) (d n status : Nat) (s : State) : State := answerThread w d (resultWord status 0 n) s

end Sys2Proof.Machine
end

