-- ==== Sys2Proof/Machine/Streams.lean ====
section
/-!
DEFINITION. SOPEN, SFEED, SCLOSE, FLOW and EMIT: streams and the tiles a program sends (R29 to R46, R73 to R81).
-/

namespace Sys2Proof.Machine

/-! ### Checks of a stream -/

/-- The checks of R11 and R29 on a stream a CLERK names. -/
def homeRefusal (s : State) (c n : Nat) : Option Nat :=
  if s.build.size.contexts ≤ n then some St.BOUNDS else if home n ≠ c then some St.BAD_OP else none

/-- The check of R31; a HELD stream passes it. -/
def liveRefusal (s : State) (n : Nat) : Option Nat :=
  match (stream s n).st with
  | .free => some St.BAD_OP
  | .dead => some St.DEAD
  | .closing => some St.DEAD
  | _ => none

/-! ### SOPEN -/

/-- An instruction that waits until the journal is open (R533), in the order in which such waits arose. -/
def waitOpen (w : Who) (cmd : Instr) (s : State) : State :=
  let s := waitRetry w cmd s
  if s.ledger.openWait.contains cmd then s
  else { s with ledger := { s.ledger with openWait := s.ledger.openWait ++ [cmd] } }

/-- Whether the streams' states are not known yet: the journal is to be replayed, or is being replayed (R378). -/
def streamsUnknown (s : State) : Bool := bit (reg s R.LDG_CTRL) 0 && !s.ledger.ready

/-- Whether an instruction that names a stream waits until the journal is open, rather than find it FREE (R533, log entry
149). -/
def awaitsStream (s : State) (n : Nat) : Bool := streamsUnknown s && decide (n < s.build.size.contexts)

/-- The stop table's entries in scratch. -/
def stopTable (s : State) (c ptr cnt : Nat) : List (List Byte) :=
  (List.range cnt).map (fun i => scratchRead s c (ptr + 72 * i) 72)

/-- Whether a stop entry's bytes 1 to 7 or its padding are not 0. -/
def stopBad (e : List Byte) : Bool :=
  ((e.drop 1).take 7).any (· ≠ 0) || (e.drop (8 + leAt e 0 1)).any (· ≠ 0)

/-- The checks of SOPEN on its stream and on its block at scratch `x`, in the order of the pseudocode; ST_BOUNDS for a
block misaligned or outside scratch comes where the pseudocode first reads the block (log entry 67). For a stop table that
reaches past the end of scratch, and for a stop entry whose bytes 1 to 7 or padding are not 0, the pseudocode names no
status: ST_BOUNDS before the lengths are checked, ST_BAD_OP after them (DESIGN CHOICE, log entry 187). -/
def openRefusal (s : State) (c n x : Nat) (b : OpenBlock) : Option Nat :=
  match homeRefusal s c n with
  | some st => some st
  | none =>
    let table := stopTable s c b.stopPtr b.stopCnt
    if (stream s n).st ≠ .free then some St.BAD_OP
    else if !blockInScratch x then some St.BOUNDS
    else if b.reserved || decide (b.outLog2 < 12) || decide (40 < b.outLog2) || decide (b.outAddr % 64 ≠ 0)
        || !routeLegal b.intake .text || decide (routeHop b.intake 0 ≠ Hop.TELLER) || decide (routeSink b.intake = Hop.CLERK)
        || decide (b.intake / 2 ^ 28 ≠ 0) || decide (b.stopPtr % 8 ≠ 0) || (decide (b.allow ≠ 0) && !b.gen) then
      some St.BAD_OP
    else if 16 < b.stopCnt then some St.LEN
    else if scratchSize < b.stopPtr + 72 * b.stopCnt then some St.BOUNDS
    else if table.any (fun e => decide (leAt e 0 1 = 0) || decide (64 < leAt e 0 1)) then some St.LEN
    else if table.any stopBad then some St.BAD_OP
    else match imageOf s b.tenant with
      | none => some St.IMAGE
      | some im =>
        if !b.gen then none
        else match grammar s b.gid with
          | none => some St.IMAGE
          | some g =>
            if g.fingerprint ≠ im.fingerprint then some St.IMAGE
            else if regionSize s 3 = 0 then some St.BOUNDS
            else none

/-- A stream's NOTARY context at its opening. -/
def openNotary (b : OpenBlock) (a : Option Adv) : NotaryCtx :=
  { NotaryCtx.empty with
    gen := b.gen, allow := decide (b.allow ≠ 0), gid := b.gid,
    cfg := (a.map Adv.cfg).getD Cfg.empty, base := a.map Adv.cfg,
    ckpts := match a with
      | some a => [{ slot := 0, ledger := 0, commit := 0, cfg := a.cfg }]
      | none => [] }

/-- The context an SOPEN block installs. -/
def openStream (b : OpenBlock) (stops : List (List Byte)) (a : Option Adv) : Stream :=
  let esc := { EscrowCtx.empty with stops := stops }
  { Stream.initial with
    st := if a.any (fun a => a.cfg.over) then .dead else .opened,
    tenant := b.tenant, outPtr := b.outAddr, outLog2 := b.outLog2, intake := b.intake, seed := b.seed,
    notary := openNotary b a, escrow := esc, wptr := b.outAddr, base := some { Carry.empty with escrow := esc } }

/-- The opening of a block's grammar, when it has one. -/
def openAdv (s : State) (b : OpenBlock) : Option Adv :=
  match imageOf s b.tenant with
  | some im => if b.gen then openCfg s im b.gid b.allow else none
  | none => none

/-- The lookups of characters that an opening makes. -/
def openReads (s : State) (b : OpenBlock) : Reads := clenUse s b.tenant (((openAdv s b).map Adv.clens).getD [])

/-- The context of a stream installed from an SOPEN block, with the counters of R257 and the opening checkpoint of
R254. -/
def installStream (n : Nat) (b : OpenBlock) (stops : List (List Byte)) (s : State) : State :=
  let a := openAdv s b
  let s := setStream n { openStream b stops a with
    paidL := (stream s n).paidL, paidS := (stream s n).paidS, lastLedger := (stream s n).lastLedger } s
  match a with
  | none => s
  | some a =>
    let r := clenUse s b.tenant a.clens
    let s := readError r 0 (countReads 0 r (countAdvance a s))
    writeCheckpoint n 0 0 0 a.cfg (writePatch n 0 a.cfg.fields.pslot a.cfg.patch (notaryOverflow b.tenant r (.advanceRead n 0) s))

/-- Whether a SOPEN of the same stream that was issued before still waits for a bank (R96). -/
def openAhead (s : State) (w : Who) : Bool :=
  (whos w.clerk.toNat).any (fun v =>
    let t := thread s v
    decide (v ≠ w) && decide (t.st = .running) && decide (t.no < (thread s w).no)
      && decide (t.stream = (thread s w).stream)
      && (match t.wait with
        | .retry (.sopen _ _) => true
        | _ => false))

/-- What NOTARY buys for an opening (R432, R433): the residual scans of its start state, and its lookups. -/
def openBill (s : State) (b : OpenBlock) : List (Nat × Nat) :=
  match openAdv s b with
  | some a => advanceBill s b.tenant a
  | none => []

/-- The opening of SOPEN's stream, once what it buys is bought: its context and its OPEN entry. -/
def openBody (w : Who) (f : Fields) (s : State) : State :=
  let c := w.clerk.toNat
  let n := (thread s w).stream
  let x := ((thread s w).reg f.a).toNat
  let bs := scratchRead s c x 64
  let b := readOpen bs
  match openRefusal s c n x b with
  | some st => putStatus w f.d st s
  | none =>
    let table := stopTable s c b.stopPtr b.stopCnt
    let stops := table.map (fun e => (e.drop 8).take (leAt e 0 1))
    let status := ((openAdv s b).map Adv.status).getD St.OK
    let s := installStream n b stops s
    journal (entry 6 n 0 0 0 0 0 0 false) (bs ++ table.flatten) (.opened w f.d.toNat status) (waitBusy w s)

/-- The effect of SOPEN. -/
def actSopen (w : Who) (f : Fields) (s : State) : State :=
  let c := w.clerk.toNat
  let n := (thread s w).stream
  let x := ((thread s w).reg f.a).toNat
  let bs := scratchRead s c x 64
  let b := readOpen bs
  match openRefusal s c n x b with
  | some st => putStatus w f.d st s
  | none =>
    if !journalOpen s then waitOpen w (.sopen w f) s
    else if openAhead s w || readsStall s (openReads s b) then waitRetry w (.sopen w f) s
    else buy 0 (openBill s b) (.sopen w f) (waitRetry w (.sopen w f)) (openBody w f) s

/-- SOPEN: opens the stream in STREAM. -/
def opSopen (w : Who) (f : Fields) : Op := plainOp 0x30 (actSopen w f)

/-- SOPEN as a command. -/
def execSopen (w : Who) (f : Fields) (s : State) : Host.Outcome State Fault Refusal :=
  .next (issue w f (.sopen w f) (opSopen w f) s)

/-! ### SCLOSE -/

/-- The effect of SCLOSE. -/
def actSclose (w : Who) (f : Fields) (s : State) : State :=
  let n := (thread s w).stream
  match homeRefusal s w.clerk.toNat n with
  | some st => putStatus w f.d st s
  | none =>
    if awaitsStream s n then waitOpen w (.sclose w f) s
    else match (stream s n).st with
    | .free => putStatus w f.d St.BAD_OP s
    | .closing => putStatus w f.d St.DEAD s
    | st =>
      if !journalOpen s then waitOpen w (.sclose w f) s
      else
        let s := discardIdle n s
        sweep (closeStream n (if st = .dead then 3 else 0) (.closed0 (some (w, f.d.toNat)) n) (waitBusy w s))

/-- SCLOSE: closes the stream in STREAM. -/
def opSclose (w : Who) (f : Fields) : Op :=
  plainOp 0x32 (actSclose w f)

/-- SCLOSE as a command. -/
def execSclose (w : Who) (f : Fields) (s : State) : Host.Outcome State Fault Refusal :=
  .next (issue w f (.sclose w f) (opSclose w f) s)

/-! ### Issue order on a stream (R47, R96) -/

/-- Whether an instruction sends a tile or a chunk. -/
def sendsTile : Instr → Bool
  | .flow _ _ => true
  | .sfeed _ _ => true
  | _ => false

/-- Whether a FLOW or SFEED of the same stream that was issued before still waits on the CLERK. -/
def sendAhead (s : State) (w : Who) : Bool :=
  (whos w.clerk.toNat).any (fun v =>
    let t := thread s v
    decide (v ≠ w) && decide (t.st = .running) && decide (t.no < (thread s w).no)
      && decide (t.stream = (thread s w).stream)
      && (match t.wait with
        | .retry i => sendsTile i
        | _ => false))

/-! ### SFEED -/

/-- A memory chunk of an SFEED or a FLOW. -/
def memoryChunk (n len : Nat) (textEnd eos : Bool) (ticket c : Nat) (place : Place) (settle : Nat) (route : Option Nat) :
    Chunk :=
  { source := 9, stream := n, len := len, textEnd := textEnd, eos := eos, reissue := false, badHeader := false,
    badWords := false, tag := ticket, clerk := c, place := place, settle := settle, route := route, step := 0,
    slot := 0, own := none, read := none, words := 0, no := 0, paid := false, whileHeld := false }

/-- The result word of an instruction that took a ticket, with TICKET set. -/
def putTicket (w : Who) (d : BitVec 4) (t : Nat) (s : State) : State :=
  putG w d (resultWord St.OK 0 t) (onThread w (fun x => { x with ticket := t })
    (onTicket w.clerk.toNat t (fun k => { k with no := (thread s w).no }) s))

/-- The effect of SFEED; `room` says that TELLER's input queue is known to have room. -/
def actSfeed (w : Who) (f : Fields) (room : Bool) (s : State) : State :=
  let c := w.clerk.toNat
  let t := thread s w
  let n := t.stream
  let len := (t.reg f.b).toNat
  if awaitsStream s n && (homeRefusal s c n).isNone then waitOpen w (.sfeed w f) s
  else match (homeRefusal s c n).or (liveRefusal s n) with
  | some st => putStatus w f.d st s
  | none =>
    if 65535 < len then putStatus w f.d St.LEN s
    else if (!room && !hopRoom s Hop.TELLER) || sendAhead s w then waitRetry w (.sfeed w f) s
    else match takeTicket c n 0 s with
      | none => waitRetry w (.sfeed w f) s
      | some (k, s) =>
        let e := memoryChunk n len (bit f.imm.toNat 0 || decide (len = 0)) (decide (len = 0)) k c
          (if len = 0 then .bytes [] else .stack (t.reg f.a).toNat) (2 ^ 44 - 1) none
        putTicket w f.d k (reachTeller e s)

/-- SFEED: sends one chunk of stack memory along the intake route. -/
def opSfeed (w : Who) (f : Fields) : Op := plainOp 0x31 (actSfeed w f false)

/-- SFEED as a command. -/
def execSfeed (w : Who) (f : Fields) (s : State) : Host.Outcome State Fault Refusal :=
  .next (issue w f (.sfeed w f) (opSfeed w f) s)

/-! ### FLOW -/

/-- Whether a FLOW on a HELD stream re-issues the refused item (R32): the thread holds that item, and TELLER did not
refuse it. -/
def flowReissues (s : State) (n ledger : Nat) : Bool :=
  let x := stream s n
  decide (x.st = .held) && decide (x.heldAt ≠ Hop.TELLER) && decide (ledger ≠ 0) && decide (x.heldItem = ledger)

/-- Whether a span of stack memory is one a FLOW may name (R334): in TEXT, in PDATA or in the stream's output region. -/
def flowSpan (s : State) (n a len : Nat) : Bool :=
  decide (len = 0) || inRegion s 0 a len || inRegion s 1 a len || inOutput (stream s n) a len

/-- The checks of FLOW in order: R29, R31, R35, R39, R40, R76, R77, then RESULT; `x` the address of its block, for which
ST_BOUNDS comes before the first check that reads the block (log entry 67). FLOW's list names no status for a RESULT that is
not 0 on a route that does not end at the CLERK sink, nor for a scratch PAYLOAD past the end of scratch: ST_BAD_OP and, last,
ST_BOUNDS (DESIGN CHOICE, log entry 188). -/
def flowRefusal (s : State) (w : Who) (x : Nat) (b : FlowBlock) : Option Nat :=
  let t := thread s w
  let n := t.stream
  let first := routeHop b.route 0
  match (homeRefusal s w.clerk.toNat n).or (liveRefusal s n) with
  | some st => some st
  | none =>
    if !blockInScratch x then some St.BOUNDS
    else if (stream s n).st = .held ∧ first ≠ Hop.TELLER ∧ !flowReissues s n t.ledger then some St.BAD_OP
    else if b.reserved || decide (b.kind = 3) || !countFits b then some St.BAD_OP
    else if !routeLegal b.route (kindOf b.kind) then some St.BAD_OP
    else if b.replay then some St.BAD_OP
    else if first ≠ Hop.TELLER ∧ t.ledger = 0 then some St.BAD_OP
    else if routeSink b.route = Hop.CLERK ∧ (b.result % 64 ≠ 0 ∨ scratchSize < b.result + 4096) then some St.BOUNDS
    else if routeSink b.route ≠ Hop.CLERK ∧ b.result ≠ 0 then some St.BAD_OP
    else if !b.stack then (if scratchSize < b.addr + payloadLen b then some St.BOUNDS else none)
    else if first ≠ Hop.TELLER ∧ !flowSpan s n b.addr (payloadLen b) then some St.BOUNDS
    else none

/-- The tile of a flow block, before its payload is there (R75): the one tile of its ticket, and so the last (log entry
175). -/
def flowTile (s : State) (w : Who) (b : FlowBlock) (ticket : Nat) : Tile :=
  let t := thread s w
  let replay := ((item? s t.ledger).map Item.replaying).getD false
  { kind := kindOf b.kind, stream := t.stream, tenant := (stream s t.stream).tenant, payload := [], marks := [],
    runs := [], pieces := [], last := true, textEnd := b.textEnd || b.eos, eos := b.eos, replay := replay, tseq := 0,
    ledger := t.ledger, settle := b.settle, origin := w.clerk.toNat, ticket := ticket, route := b.route, check := 0,
    status := St.OK, flags := if replay then 8 else 0 }

/-- A tile a program issues joins its first station's queue. -/
def issueTile (t : Tile) (data : List Byte) (s : State) : State :=
  enqueue t.nextHop { t with payload := data, check := crc32c data } s

/-- Lines whose bytes are at hand. -/
def readyLines (s : State) (bs : List Byte) : List Line :=
  (writeSpan s 0 bs).map (fun l => { l with st := .gone St.OK })

/-- Whether a tile of a stream that was issued before is still being read from stack memory. -/
def flowUnread (s : State) (n : Nat) : Bool :=
  s.accesses.any (fun a => match a.job with
    | .flowPayload t _ _ => decide (t.stream = n)
    | _ => false)

/-- FLOW's tile or chunk leaves, with its ticket. A tile whose payload is at hand joins its station behind those of
its stream whose payload is still being read (R47). -/
def sendFlow (w : Who) (f : Fields) (b : FlowBlock) (k : Nat) (s : State) : State :=
  let c := w.clerk.toNat
  let n := (thread s w).stream
  let len := payloadLen b
  let sink := routeSink b.route
  let s := onTicket c k (fun x => { x with result := if sink = Hop.CLERK then b.result + 1 else 0 }) s
  if routeHop b.route 0 = Hop.TELLER then
    let place := if b.stack then .stack b.addr else .bytes (scratchRead s c b.addr len)
    let e := memoryChunk n len (b.textEnd || b.eos) b.eos k c place b.settle (some b.route)
    putTicket w f.d k (reachTeller e s)
  else
    let t := flowTile s w b k
    let s := onTicket c k (fun x => { x with ledger := t.ledger, no := (thread s w).no }) s
    let s := if flowReissues s n t.ledger then
        onStream n (fun x => { x with st := .opened, heldAt := 0, heldItem := 0 }) s
      else s
    let data := if b.stack then [] else scratchRead s c b.addr len
    let s := if b.stack ∧ len ≠ 0 then
        let lines := readSpan s b.addr len
        startAccess 0 (lineBill lines.length) .read 0 lines (.flowPayload t (b.addr % 64) len) s
      else if flowUnread s n then startAccess 0 [] .read 0 (readyLines s data) (.flowPayload t 0 len) s
      else issueTile t data s
    putTicket w f.d k s

/-- The effect of FLOW. -/
def actFlow (w : Who) (f : Fields) (room : Bool) (s : State) : State :=
  let t := thread s w
  let x := (t.reg f.a).toNat
  let b := readFlow (scratchRead s w.clerk.toNat x 64)
  if awaitsStream s t.stream && (homeRefusal s w.clerk.toNat t.stream).isNone then waitOpen w (.flow w f) s
  else match flowRefusal s w x b with
  | some st => putStatus w f.d st s
  | none =>
    if (!room && !hopRoom s (routeHop b.route 0)) || sendAhead s w then waitRetry w (.flow w f) s
    else match takeTicket w.clerk.toNat t.stream 0 s with
      | none => waitRetry w (.flow w f) s
      | some (k, s) => sendFlow w f b k s

/-- FLOW: sends one tile. -/
def opFlow (w : Who) (f : Fields) : Op := plainOp 0x40 (actFlow w f false)

/-- FLOW as a command. -/
def execFlow (w : Who) (f : Fields) (s : State) : Host.Outcome State Fault Refusal :=
  .next (issue w f (.flow w f) (opFlow w f) s)

/-! ### EMIT -/

/-- The text tile EMIT sends along LEDGER and a sink; the spec does not say whether its header's LAST is set, so that
is a free value (log entry 119). -/
def emitTileOf (s : State) (w : Who) (sink ticket : Nat) (last : Bool) (data : List Byte) : Tile :=
  let t := thread s w
  let i := item? s t.ledger
  let replay := (i.map Item.replaying).getD false
  { kind := .text, stream := t.stream, tenant := (stream s t.stream).tenant, payload := data, marks := [], runs := [],
    pieces := [], last := last, textEnd := false, eos := false, replay := replay, tseq := 0, ledger := t.ledger,
    settle := (i.map Item.settle).getD 0, origin := w.clerk.toNat, ticket := ticket, route := Hop.LEDGER + 16 * sink,
    check := crc32c data, status := St.OK, flags := if replay then 8 else 0 }

/-- The effect of EMIT. R11 comes before the checks of the pseudocode, whose first one would refuse a stream number out of
range with ST_BAD_OP, for no item can be of such a stream (log entry 177). -/
def actEmit (w : Who) (f : Fields) (room : Bool) (s : State) : State :=
  let c := w.clerk.toNat
  let t := thread s w
  let x := (t.reg f.a).toNat
  let len := (t.reg f.b).toNat
  let sink := immBits f 0 4
  if s.build.size.contexts ≤ t.stream then putStatus w f.d St.BOUNDS s
  else if t.ledger = 0 then putStatus w f.d St.BAD_OP s
  else if len = 0 ∨ 4096 < len then putStatus w f.d St.LEN s
  else if sink < 9 ∨ 11 < sink then putStatus w f.d St.BAD_OP s
  else if awaitsStream s t.stream then waitOpen w (.emit w f) s
  else match liveRefusal s t.stream with
  | some st => putStatus w f.d st s
  | none =>
    if (stream s t.stream).st = .held then putStatus w f.d St.BAD_OP s
    else if scratchSize < x + len then putStatus w f.d St.BOUNDS s
    else if !room && !hopRoom s Hop.LEDGER then waitRetry w (.emit w f) s
    else match takeTicket c t.stream t.ledger s with
      | none => waitRetry w (.emit w f) s
      | some (k, s) =>
        let (v, s) := takeFree s
        putTicket w f.d k (enqueue Hop.LEDGER (emitTileOf s w sink k (v % 2 == 1) (scratchRead s c x len)) s)

/-- EMIT: sends bytes of scratch to an output sink. -/
def opEmit (w : Who) (f : Fields) : Op := plainOp 0x70 (actEmit w f false)

/-- EMIT as a command. -/
def execEmit (w : Who) (f : Fields) (s : State) : Host.Outcome State Fault Refusal :=
  .next (issue w f (.emit w f) (opEmit w f) s)

end Sys2Proof.Machine
end

