-- ==== Sys2Proof/Machine/Choice.lean ====
section
/-!
DEFINITION. MASK, NEXT, DRAFT, PICK and PRICE: grammar and selection (R240, R248 to R268, R277), and prices (R90).
-/

namespace Sys2Proof.Machine

/-- The checks of MASK, NEXT and DRAFT on their stream: R11, a grammar, and R31. -/
def grammarRefusal (s : State) (n : Nat) : Option Nat :=
  let x := stream s n
  if s.build.size.contexts ≤ n then some St.BOUNDS
  else if !x.notary.gen then some St.BAD_OP
  else liveRefusal s n

/-! ### MASK -/

/-- The effect of MASK: it waits as a decision tile of the thread's item would (R248). -/
def actMask (w : Who) (f : Fields) (s : State) : State :=
  let t := thread s w
  let n := t.stream
  if awaitsStream s n then waitOpen w (.mask w f) s
  else match grammarRefusal s n with
  | some st => putStatus w f.d st s
  | none =>
    if notaryBusy s n || advanceWaits s n t.ledger then waitRetry w (.mask w f) s
    else
      let m := (stream s n).notary.cfg.fields
      putG w f.d (resultWord St.OK 0 (m.maskIndex % 2 ^ 20 + m.remain % 2 ^ 16 * 2 ^ 20)) s

/-- MASK: the stream's mask index and allowance. -/
def opMask (w : Who) (f : Fields) : Op :=
  plainOp 0x60 (actMask w f)

/-- MASK as a command. -/
def execMask (w : Who) (f : Fields) (s : State) : Host.Outcome State Fault Refusal :=
  .next (issue w f (.mask w f) (opMask w f) s)

/-! ### NEXT -/

/-- Candidates resolved ahead are for the configuration before an advance. -/
def dropCands (n : Nat) (s : State) : State :=
  onStream n (fun x => { x with notary := { x.notary with cands := [], offered := [] } }) s

/-- Whether a token is in a stream's mask in force. -/
def inForce (s : State) (n t : Nat) : Bool :=
  let x := stream s n
  match imageOf s x.tenant with
  | none => false
  | some im => tokensLegal s im x.notary.allow x.notary.cfg [t]

/-- NEXT once its checks of residuals and its lookups are paid for. -/
def nextBody (w : Who) (f : Fields) (s : State) : State :=
  let t := thread s w
  let n := t.stream
  let k := (t.reg f.a).toNat % 2 ^ 20
  if !inForce s n k then putStatus w f.d St.BAD_OP s
  else
    let st := commitStatus s n [k]
    let s := lookupError n t.ledger [k] s
    let s := dropCands n (makeAdvance n t.ledger k s)
    putG w f.d (resultWord st 0 ((stream s n).notary.cfg.fields.maskIndex % 2 ^ 20)) s

/-- What the advances of NEXT and DRAFT buy beyond the instruction's price (R433). -/
def extraBill (s : State) (n : Nat) (ts : List Nat) : List (Nat × Nat) :=
  let x := stream s n
  match imageOf s x.tenant with
  | none => []
  | some im => advancesBill s im x.tenant x.notary.allow false x.notary.cfg ts

/-- The effect of NEXT: it waits for an awaited commit (Table 7.9), for a settlement (R255), and for a bank it reads. -/
def actNext (w : Who) (f : Fields) (s : State) : State :=
  let t := thread s w
  let n := t.stream
  let k := (t.reg f.a).toNat % 2 ^ 20
  if awaitsStream s n then waitOpen w (.next w f) s
  else match grammarRefusal s n with
  | some st => putStatus w f.d st s
  | none =>
    if t.ledger = 0 then putStatus w f.d St.BAD_OP s
    else if notaryBusy s n || advanceWaits s n t.ledger || advanceStalls s n [k] then waitRetry w (.next w f) s
    else if !inForce s n k then putStatus w f.d St.BAD_OP s
    else buy 0 (extraBill s n [k]) (.next w f) (waitRetry w (.next w f)) (nextBody w f) s

/-- NEXT: advances the grammar over a token. -/
def opNext (w : Who) (f : Fields) : Op := plainOp 0x61 (actNext w f)

/-- NEXT as a command. -/
def execNext (w : Who) (f : Fields) (s : State) : Host.Outcome State Fault Refusal :=
  .next (issue w f (.next w f) (opNext w f) s)

/-! ### DRAFT (R266 to R268) -/

/-- A configuration after a token, with the mask fields of its state entry and no dead-state policy. A token whose advance
would make the stack deeper than 4,096 entries counts in L and ends the scan, since the spec gives that case no other end
(DESIGN CHOICE, log entry 157). -/
def draftStep (im : TokImage) (g : GrammarImage) (allow : Bool) (c : Cfg) (t : Nat) : Cfg :=
  let (q, stack) := landing g c t
  if tooDeep stack then { c with stopped := true }
  else
    let charged := c.fields.lchk && !c.fields.force
    withFields im g allow { c with
      state := q, stack := stack, finished := decide (t = g.endToken),
      remain := if charged then c.remain - tokClen im t else c.remain }

/-- Whether the mask in force after a draft token ends the prefix (R266). -/
def draftEnds (g : GrammarImage) (c : Cfg) : Bool :=
  decide (0 < c.fields.adds) || decide (0 < c.fields.removes) || maskEmpty g c || c.over

/-- The draft position word of a configuration (Table 7.6). -/
def draftWord (g : GrammarImage) (c : Cfg) : Nat :=
  c.fields.maskIndex % 2 ^ 20 + c.fields.lclass % 64 * 2 ^ 20 + flag c.fields.lchk * 2 ^ 26
    + flag (decide (0 < c.fields.adds) || decide (0 < c.fields.removes)) * 2 ^ 27 + flag (maskEmpty g c) * 2 ^ 28

/-- The scan of draft tokens: the words of the tokens taken, and how many tokens were looked at. -/
def draftScan (im : TokImage) (g : GrammarImage) (allow : Bool) : Cfg → List Nat → List Nat × Nat
  | _, [] => ([], 0)
  | c, t :: ts =>
    if c.over || !tokenLegal im g c t then ([], 1)
    else
      let d := draftStep im g allow c t
      if draftEnds g d then ([draftWord g d], 1)
      else
        let (ws, k) := draftScan im g allow d ts
        (draftWord g d :: ws, k + 1)

/-- The draft tokens in scratch. -/
def draftTokens (s : State) (c x n : Nat) : List Nat :=
  (words32 (scratchRead s c x (4 * n))).map (fun v => v % 2 ^ 20)

/-- The scan of a stream's draft. -/
def scanDraft (s : State) (n : Nat) (ts : List Nat) : List Nat × Nat :=
  let x := stream s n
  match imageOf s x.tenant, grammar s x.notary.cfg.grammar with
  | some im, some g => draftScan im g x.notary.allow x.notary.cfg ts
  | _, _ => ([], 0)

/-- Draft tokens a stream has taken at the current position (R231). -/
def draftUsed (s : State) (n : Nat) : Nat :=
  let x := (stream s n).notary
  if x.draftAt = s.beat.pos then x.draftCnt else 0

/-- DRAFT once it is paid for: the words to scratch, the counters, and with imm[0] the advances. -/
def draftBody (w : Who) (f : Fields) (s : State) : State :=
  let t := thread s w
  let n := t.stream
  let c := (t.reg f.b).toNat
  let x := (t.reg f.a).toNat
  let ts := draftTokens s w.clerk.toNat x c
  let (ws, k) := scanDraft s n ts
  let l := ws.length
  let used := draftUsed s n
  let s := storeScratch t.no w.clerk.toNat (x + 64)
    ((ws ++ List.replicate (c - l) 0xFFFFFFFF).map (toLE 4)).flatten s
  let s := bump R.NOT_DRAFT_ACC l (bump R.NOT_DRAFT_TOK k s)
  let s := onStream n (fun y => { y with notary := { y.notary with draftAt := s.beat.pos, draftCnt := used + c } }) s
  let s := lookupError n t.ledger (ts.take l) s
  let s := if bit f.imm.toNat 0 ∧ 0 < l then dropCands n (makeAdvances n t.ledger (ts.take l) s) else s
  putG w f.d (resultWord St.OK 0 l) s

/-- The effect of DRAFT. -/
def actDraft (w : Who) (f : Fields) (s : State) : State :=
  let t := thread s w
  let n := t.stream
  let c := (t.reg f.b).toNat
  let x := (t.reg f.a).toNat
  let adv := bit f.imm.toNat 0
  if awaitsStream s n then waitOpen w (.draft w f) s
  else match grammarRefusal s n with
  | some st => putStatus w f.d st s
  | none =>
    if c = 0 ∨ 16 < c then putStatus w f.d St.BAD_OP s
    else if adv ∧ t.ledger = 0 then putStatus w f.d St.BAD_OP s
    else if scratchSize < x + 64 + 4 * c then putStatus w f.d St.BOUNDS s
    else if 16 < draftUsed s n + c then waitRetry w (.draft w f) s
    else
      let ts := draftTokens s w.clerk.toNat x c
      let l := (scanDraft s n ts).1.length
      if notaryBusy s n || (adv && decide (0 < l) && advanceWaits s n t.ledger) || advanceStalls s n (ts.take l) then
        waitRetry w (.draft w f) s
      else buy 0 (extraBill s n (ts.take l)) (.draft w f) (waitRetry w (.draft w f)) (draftBody w f) s

/-- DRAFT: checks a run of draft tokens against the grammar. The price of a count above 16, which is refused, is the
model's choice: that of 16 tokens (log entry 129). -/
def opDraft (w : Who) (f : Fields) (s : State) : Op :=
  pricedOp 0x62 (24 * min 16 ((thread s w).reg f.b).toNat) (actDraft w f)

/-- DRAFT as a command. -/
def execDraft (w : Who) (f : Fields) (s : State) : Host.Outcome State Fault Refusal :=
  .next (issue w f (.draft w f) (opDraft w f s) s)

/-! ### PICK (R87, R277) -/

/-- The status with which PICK is refused; for a descriptor that would lie misaligned or outside scratch it is
ST_BOUNDS, last (log entry 67). -/
def pickRefusal (f : Fields) (x len : Nat) : Option Nat :=
  let mode := immBits f 0 2
  let k := immBits f 2 7
  if 9 < immBits f 9 4 then some St.BAD_OP
  else if mode % 2 = 1 ∧ (k = 0 ∨ 64 < k) then some St.BAD_OP
  else if len = 0 ∨ 1048576 < len then some St.LEN
  else if !blockInScratch x then some St.BOUNDS
  else none

/-- The descriptor PICK writes: DRAFTS 0, TEMP 1.0, no addresses, K 1 for modes 0 and 2, and mask fields of 0. -/
def pickBytes (f : Fields) (len : Nat) : List Byte :=
  let mode := immBits f 0 2
  let k := if mode % 2 = 1 then immBits f 2 7 else 1
  toLE 8 (mode + k * 2 ^ 2 + immBits f 9 4 * 2 ^ 9 + immBits f 13 1 * 2 ^ 13 + len * 2 ^ 16)
    ++ toLE 8 0x3F800000 ++ List.replicate 48 0

/-- The effect of PICK. -/
def actPick (w : Who) (f : Fields) (s : State) : State :=
  let t := thread s w
  let x := (t.reg f.b).toNat
  let len := (t.reg f.a).toNat
  match pickRefusal f x len with
  | some st => putStatus w f.d st s
  | none => putStatus w f.d St.OK (storeScratch t.no w.clerk.toNat x (pickBytes f len) s)

/-- PICK: writes a selection descriptor. -/
def opPick (w : Who) (f : Fields) : Op := plainOp 0x63 (actPick w f)

/-- PICK as a command. -/
def execPick (w : Who) (f : Fields) (s : State) : Host.Outcome State Fault Refusal :=
  .next (issue w f (.pick w f) (opPick w f) s)

/-! ### PRICE -/

/-- The base price PRICE and PUR_PRICE give for a code: DRAFT has no part that does not depend on its tokens, and its
code gives the price of one token. -/
def askedPrice (code : Nat) : Option Nat := if code = 0x62 then some 24 else codePrice code

/-- The effect of PRICE: the price in force (R90). -/
def actPrice (w : Who) (f : Fields) (s : State) : State :=
  match askedPrice (immBits f 0 9) with
  | some c => putG w f.d (resultWord St.OK 0 (priceNow s c)) s
  | none => putStatus w f.d St.BAD_OP s

/-- PRICE: the price in force of an opcode or a station operation. -/
def opPrice1 (w : Who) (f : Fields) : Op :=
  plainOp 0x78 (actPrice w f)

/-- PRICE as a command. -/
def execPrice (w : Who) (f : Fields) (s : State) : Host.Outcome State Fault Refusal :=
  .next (issue w f (.price w f) (opPrice1 w f) s)

end Sys2Proof.Machine
end

