-- ==== Sys2Proof/Machine/Work.lean ====
section
/-!
DEFINITION. POST, PAY and SETTLE (R85, R86, R94, R369, R370), DNEXT (R83), and the waits WAITT, TPOLL and WAITB (R84).
-/

namespace Sys2Proof.Machine

/-! ### POST -/

/-- The stream an entry names. -/
def entryStream (bs : List Byte) : Nat := bits (leAt bs 0 8) 8 12

/-- The replayed item whose entry a POST gives back (R379). -/
def replayedItem (s : State) (bs : List Byte) : Option Item :=
  s.ledger.items.find? (fun i => decide (i.source = 10) && decide (i.reposts ≠ 0) && decide (i.entry = bs))

/-- The thread holds an item: STREAM and LEDGER name it, and what LEDGER named before is left to R94. -/
def takeItem (w : Who) (stream n : Nat) (s : State) : State :=
  let s := endOwned w St.BAD_OP s
  onItem n (fun i => { i with owner := some w, reposts := i.reposts - 1 })
    (onThread w (fun t => { t with stream := stream, ledger := n }) s)

/-- The ACCEPT entry of a posted item (Table 11.2), before its number and text log offset. -/
def postEntry (s : State) (bs : List Byte) : JEntry :=
  let n := entryStream bs
  entry 1 n 0 (10 + (stream s n).tenant * 2 ^ 4) 0 (bits (leAt bs 8 8) 0 44) 0 (64 + crc32c bs * 2 ^ 32) false

/-- The effect of POST. -/
def actPost (w : Who) (f : Fields) (s : State) : State :=
  let c := w.clerk.toNat
  let x := ((thread s w).reg f.a).toNat
  if !blockInScratch x then faultThread w St.BOUNDS s
  else
    let bs := scratchRead s c x 64
    let n := entryStream bs
    if leAt bs 60 4 ≠ crc32c (bs.take 60) then putStatus w f.d St.BAD_OP s
    else match homeRefusal s c n with
      | some st => putStatus w f.d st s
      | none =>
        match replayedItem s bs with
        | some i => sweep (putG w f.d (resultWord St.OK 0 i.ledger) (takeItem w n i.ledger s))
        | none =>
          if awaitsStream s n then waitOpen w (.post w f) s
          else match liveRefusal s n with
          | some st => putStatus w f.d st s
          | none =>
            if (stream s n).st = .held then putStatus w f.d St.BAD_OP s
            else if !journalOpen s then waitOpen w (.post w f) s
            else journal (postEntry s bs) bs (.posted w f.d.toNat 0) (waitBusy w s)

/-- POST: accepts the DAYBOOK entry at scratch g[a]. -/
def opPost (w : Who) (f : Fields) : Op := plainOp 0x50 (actPost w f)

/-- POST as a command. -/
def execPost (w : Who) (f : Fields) (s : State) : Host.Outcome State Fault Refusal :=
  .next (issue w f (.post w f) (opPost w f) s)

/-- The item a POST makes. -/
def postItem (s : State) (n : Nat) : Item :=
  let e := acceptOf s n
  let off := (e.map JEntry.logOff).getD 0
  let k := (e.map JEntry.stream).getD 0
  { ledger := n, stream := k, source := 10, tenant := (stream s k).tenant, textEnd := false, eos := false,
    settle := headerPos ((e.map JEntry.a).getD 0), place := .bytes [], len := 0, route := none, entry := textAt s off, logOff := off,
    jseq := (e.map JEntry.jseq).getD 0, outs := [], status := St.OK, flags := 0, owner := none, ended := none,
    completing := false, complete := false, settled := false, replaying := false, asReplay := false, replays := 0, reposts := 0,
    poison := false,     dropped := false, deep := false, banks := [], emitted := [], after := none }

/-- A POST acknowledged in both mirrors: the item, STREAM, LEDGER and the result word (R86). An item whose thread has
stopped meanwhile is left to R94. -/
def postDone (w : Who) (d n : Nat) (s : State) : State :=
  let i := postItem s n
  let s := bump R.LDG_ACCEPTS 1 (addItem i s)
  let s := onStream i.stream (fun x => { x with lastLedger := n }) s
  if (thread s w).wait = .busy then answerThread w d (resultWord St.OK 0 n) (takeItem w i.stream n s)
  else onItem n (fun i => { i with ended := some St.BAD_OP }) s

/-! ### PAY -/

/-- VALUE of PAY's result word for a mark and an item. -/
def payValue (l s item : Nat) : Nat :=
  if l = item then s % 2 ^ 24 else if l < item then 2 ^ 24 else 2 ^ 25

/-- The effect of PAY: journals the mark, which never moves back. -/
def actPay (w : Who) (f : Fields) (s : State) : State :=
  let t := thread s w
  let x := (t.reg f.a).toNat
  if t.ledger = 0 then putStatus w f.d St.BAD_OP s
  else if !journalOpen s then waitOpen w (.pay w f) s
  else
    let n := t.stream
    let y := stream s n
    let past := decide (t.ledger < y.paidL) || (decide (y.paidL = t.ledger) && decide (x ≤ y.paidS))
    let m := if y.paidL < t.ledger ∨ (y.paidL = t.ledger ∧ y.paidS < x % 2 ^ 24) then (t.ledger, x % 2 ^ 24)
      else (y.paidL, y.paidS)
    journal (entry 3 n 0 0 m.1 m.2 0 0 false) []
      (.paid w f.d.toNat (payValue y.paidL y.paidS t.ledger) (if past then 8 else 0))
      (onStream n (fun y => { y with paidL := m.1, paidS := m.2 }) (waitBusy w s))

/-- PAY: journals that output of the thread's item is paid out. -/
def opPay (w : Who) (f : Fields) : Op := plainOp 0x51 (actPay w f)

/-- PAY as a command. -/
def execPay (w : Who) (f : Fields) (s : State) : Host.Outcome State Fault Refusal :=
  .next (issue w f (.pay w f) (opPay w f) s)

/-! ### SETTLE -/

/-- The thread lets go of its item. -/
def dropItem (w : Who) (n : Nat) (s : State) : State :=
  onItem n (fun i => { i with owner := none }) (onThread w (fun t => { t with ledger := 0 }) s)

/-- Whether an item's completion is still to be written. -/
def stillOpen (s : State) (n : Nat) : Bool :=
  match item? s n with
  | some i => !i.completing && !i.complete
  | none => false

/-- SETTLE's entry is written: the thread lets go of the item and goes on (R85). -/
def settleDone (w : Who) (d n : Nat) (s : State) : State :=
  if (thread s w).wait = .busy then answerThread w d (resultWord St.OK 0 0) (dropItem w n s)
  else onItem n (fun i => { i with owner := none }) s

/-- The effect of SETTLE: the item completes with the status given; the first completion stands (R370). -/
def actSettle (w : Who) (f : Fields) (s : State) : State :=
  let t := thread s w
  let n := t.ledger
  if n = 0 then putStatus w f.d St.BAD_OP s
  else if !journalOpen s then waitOpen w (.settle w f) s
  else if stillOpen s n then
    sweep (completeAs n ((t.reg f.a).toNat % 256) (.settledBy w f.d.toNat n) (waitBusy w s))
  else putStatus w f.d St.OK (dropItem w n s)

/-- SETTLE: journals the completion of the thread's item. -/
def opSettle (w : Who) (f : Fields) : Op := plainOp 0x52 (actSettle w f)

/-- SETTLE as a command. -/
def execSettle (w : Who) (f : Fields) (s : State) : Host.Outcome State Fault Refusal :=
  .next (issue w f (.settle w f) (opSettle w f) s)

/-! ### DNEXT (R83, R130) -/

/-- Threads in the order in which their instructions were issued (R96). -/
def inIssueOrder (s : State) (ws : List Who) : List Who :=
  sortBy (fun v w => decide ((thread s v).no < (thread s w).no)) ws

/-- The entry DNEXT takes next: replayed entries first, then those of the earliest step. -/
def nextEntry (q : List DayEntry) : Option DayEntry :=
  match q.find? (fun e => e.replay) with
  | some e => some e
  | none => q.foldl (fun best e =>
      match best with
      | none => some e
      | some b => if e.step < b.step then some e else some b) none

/-- DNEXT takes the next entry, or waits for one. -/
def takeEntry (w : Who) (f : Fields) (s : State) : State :=
  let c := w.clerk.toNat
  let x := ((thread s w).reg f.a).toNat
  let q := Tab.get [] s.day.queues c
  match nextEntry q with
  | none => if bit f.imm.toNat 0 then waitRetry w (.dnext w f) s else putG w f.d nvWord s
  | some e =>
    if !blockInScratch x then faultThread w St.BOUNDS s
    else
      let s := { s with day := { s.day with queues := Tab.set [] s.day.queues c (q.erase e) } }
      let v := entryStream e.data + leAt e.data 0 1 * 2 ^ 12
      putG w f.d (resultWord St.OK (if e.replay then 8 else 0) v) (storeScratch (thread s w).no c x e.data s)

/-- The DNEXTs of a CLERK that wait, in issue order, with their operands. -/
def waitingDnexts (s : State) (c : Nat) : List (Who × Fields) :=
  (inIssueOrder s (whos c)).filterMap (fun v =>
    match (thread s v).wait with
    | .retry (.dnext _ f) => if (thread s v).st = .running then some (v, f) else none
    | _ => none)

/-- The effect of DNEXT: those of the CLERK that were issued before and wait take their entries first (R96). -/
def actDnext (w : Who) (f : Fields) (s : State) : State :=
  let earlier := (waitingDnexts s w.clerk.toNat).filter (fun x => decide ((thread s x.1).no < (thread s w).no))
  takeEntry w f (earlier.foldl (fun s x => takeEntry x.1 x.2 s) s)

/-- DNEXT: takes the next DAYBOOK entry. -/
def opDnext (w : Who) (f : Fields) : Op := plainOp 0x41 (actDnext w f)

/-- DNEXT as a command. -/
def execDnext (w : Who) (f : Fields) (s : State) : Host.Outcome State Fault Refusal :=
  .next (issue w f (.dnext w f) (opDnext w f) s)

/-! ### Tickets -/

/-- The ticket a result word names. -/
def namedTicket (t : Thread) (f : Fields) : Nat := bits (t.reg f.a).toNat 16 12

/-- A ticket as WAITT and TPOLL see it: none when it has not been issued since the CLERK started. -/
def knownTicket (s : State) (c k : Nat) : Option Ticket :=
  if k = 0xFFF then none
  else match ticket? s c k with
    | some x => if x.old then none else some x
    | none => none

/-- The result word of a completed ticket (R82). -/
def ticketWord (x : Ticket) : Word := resultWord x.status x.flags x.tiles

/-- The effect of WAITT. -/
def actWaitt (w : Who) (f : Fields) (s : State) : State :=
  match knownTicket s w.clerk.toNat (namedTicket (thread s w) f) with
  | none => putStatus w f.d St.BAD_OP s
  | some x => if x.done then putG w f.d (ticketWord x) s else waitRetry w (.waitt w f) s

/-- WAITT: waits until a ticket completes. -/
def opWaitt (w : Who) (f : Fields) : Op := plainOp 0x44 (actWaitt w f)

/-- WAITT as a command. -/
def execWaitt (w : Who) (f : Fields) (s : State) : Host.Outcome State Fault Refusal :=
  .next (issue w f (.waitt w f) (opWaitt w f) s)

/-- The effect of TPOLL. -/
def actTpoll (w : Who) (f : Fields) (s : State) : State :=
  match knownTicket s w.clerk.toNat (namedTicket (thread s w) f) with
  | none => putStatus w f.d St.BAD_OP s
  | some x => putG w f.d (if x.done then ticketWord x else nvWord) s

/-- TPOLL: WAITT without waiting. -/
def opTpoll (w : Who) (f : Fields) : Op := plainOp 0x46 (actTpoll w f)

/-- TPOLL as a command. -/
def execTpoll (w : Who) (f : Fields) (s : State) : Host.Outcome State Fault Refusal :=
  .next (issue w f (.tpoll w f) (opTpoll w f) s)

/-! ### Beats -/

/-- The effect of WAITB. -/
def actWaitb (w : Who) (f : Fields) (s : State) : State :=
  let x := ((thread s w).reg f.a).toNat
  if 2 ^ 44 ≤ x then putStatus w f.d St.BAD_OP s
  else if s.beat.frozen then putStatus w f.d St.BEAT_BACK s
  else if x ≤ s.beat.pos then putStatus w f.d St.OK s
  else waitRetry w (.waitb w f) s

/-- WAITB: waits until the beat reaches a position. -/
def opWaitb (w : Who) (f : Fields) : Op := plainOp 0x45 (actWaitb w f)

/-- WAITB as a command. -/
def execWaitb (w : Who) (f : Fields) (s : State) : Host.Outcome State Fault Refusal :=
  .next (issue w f (.waitb w f) (opWaitb w f) s)

/-! ### Waits that end -/

/-- An instruction that waits, tried again. -/
def retryAct (i : Instr) (s : State) : State :=
  match i with
  | .sopen w f => actSopen w f s
  | .sfeed w f => actSfeed w f false s
  | .sclose w f => actSclose w f s
  | .flow w f => actFlow w f false s
  | .emit w f => actEmit w f false s
  | .mask w f => actMask w f s
  | .next w f => actNext w f s
  | .draft w f => actDraft w f s
  | .post w f => actPost w f s
  | .pay w f => actPay w f s
  | .settle w f => actSettle w f s
  | .dnext w f => actDnext w f s
  | .waitt w f => actWaitt w f s
  | .waitb w f => actWaitb w f s
  | _ => s

/-- A thread's wait tried again, when its instruction satisfies a test. -/
def wakeThread (p : Instr → Bool) (s : State) (w : Who) : State :=
  let t := thread s w
  if !clerkReady s w.clerk.toNat || decide (t.st ≠ .running) then s
  else match t.wait with
    | .retry i => if p i && ofThread w i then retryAct i s else s
    | _ => s

/-- Whether an instruction is WAITB. -/
def isWaitb : Instr → Bool
  | .waitb _ _ => true
  | _ => false

/-- The waits of a CLERK's threads tried again, in issue order. -/
def wakeClerk (p : Instr → Bool) (c : Nat) (s : State) : State := (inIssueOrder s (whos c)).foldl (wakeThread p) s

/-- The waits of every CLERK's threads tried again, in issue order. -/
def wakeAll (p : Instr → Bool) (s : State) : State :=
  (inIssueOrder s ((List.range 8).map whos).flatten).foldl (wakeThread p) s

/-- The position a waiting WAITB names; none for a thread that does not wait so. -/
def waitbPos (s : State) (w : Who) : Option Nat :=
  match (thread s w).wait with
  | .retry (.waitb _ f) => some ((thread s w).reg f.a).toNat
  | _ => none

/-- The threads that wait in WAITB, in issue order, with the positions they wait for. -/
def waitingBeats (s : State) : List (Who × Nat) :=
  (inIssueOrder s ((List.range 8).map whos).flatten).filterMap (fun w => (waitbPos s w).map (fun p => (w, p)))

/-- Whether an instruction waits for a ticket, or for the room that a completed one leaves (R81). -/
def needsTicket : Instr → Bool
  | .waitt _ _ => true
  | .flow _ _ => true
  | .sfeed _ _ => true
  | .emit _ _ => true
  | _ => false

end Sys2Proof.Machine
end

