-- ==== Sys2Proof/Machine/Daybook.lean ====
section
/-!
DEFINITION. The DAYBOOK (R118 to R131): opening positions, page fetches, the validation of entries and the entry
queues; and the room that first stations get (R46).
-/

namespace Sys2Proof.Machine

/-! ### Opening positions (R123 to R125) -/

/-- D of DAY_CFG. -/
def dayDist (s : State) : Nat := regField s R.DAY_CFG 0 8

/-- P of DAY_CFG. -/
def dayPages (s : State) : Nat := regField s R.DAY_CFG 8 4

/-- DAY_BASE. -/
def dayBase (s : State) : Nat := reg s R.DAY_BASE_LO + 2 ^ 32 * reg s R.DAY_BASE_HI

/-- The page of CLERK `c` for a step (R118). -/
def pageAddr (s : State) (c step : Nat) : Nat := dayBase s + (c * 2 ^ dayPages s + step % 2 ^ dayPages s) * 16384

/-- Whether a CLERK's pages are opened: its ENABLE bit is set and it issues, or it is retired and its entries are refused
(R445). -/
def opensPages (s : State) (c : Nat) : Bool :=
  bit (reg s R.DAY_CFG) (12 + c)
    && (clerkReady s c || (unitOut s 6 c && decide (c < s.build.size.clerks) && clkUp s 1))

/-- The layer of a position. -/
def layerOf (p : Nat) : Nat := p / 16 % 256

/-- How many steps have an opening position at or below a position: the number k of R123 is at most the position
counted in layers. Once the page of the last step, 4,294,967,295, is open, DAY_NEXTc holds 2^32, reads as 0 and opens
nothing more until a re-arm; the spec does not say what it holds then (log entry 138). -/
def stepsReached (s : State) (p : Nat) : Nat :=
  let l := lastLayer s
  let i := stepOf p * (l + 1) + min (layerOf p) l
  if i + dayDist s < l then 0 else min (2 ^ 32) ((i + dayDist s - l) / (l + 1) + 1)

/-- The lowest step whose opening position is at or above a position (R104); 2^32 or more, so that nothing opens, where
no step has one (log entry 138). -/
def firstOpening (s : State) (p : Nat) : Nat :=
  let l := lastLayer s
  let need := if l < layerOf p then (stepOf p + 1) * (l + 1)
    else stepOf p * (l + 1) + layerOf p + (if p % 16 = 0 then 0 else 1)
  if p = 0 then 0 else ceilDiv (need + dayDist s - l) (l + 1)

/-- DAY_NEXT of a CLERK. -/
def dayNext (s : State) (c : Nat) : Nat := Tab.get 0 s.day.next c

/-! ### Page fetches (R119, R124, R129) -/

/-- The fetch a CLERK is working on: its oldest. -/
def fetchOf (s : State) (c : Nat) : Option PageFetch := s.day.fetches.find? (fun f => decide (f.clerk = c))

/-- A change of one fetch. -/
def onFetch (k : Nat) (g : PageFetch → PageFetch) (s : State) : State :=
  { s with day := { s.day with fetches := s.day.fetches.map (fun f => if f.no = k then g f else f) } }

/-- The next line of a CLERK's oldest fetch is read, unless one is being read or an entry waits (R131). Its address
comes from DAY_BASE and DAY_CFG as they stand, also when they were rewritten, with the port frozen, after the page was
opened: the spec is silent there (log entry 139). -/
def readPage (c : Nat) (s : State) : State :=
  match fetchOf s c with
  | none => s
  | some f =>
    if f.reading || f.entry.isSome then s
    else
      let lines := [newLine s (pageAddr s c f.step + 64 * f.slot) []]
      startAccess 0 (lineBill 1) .read 2 lines (.page f.no f.slot)
        (onFetch f.no (fun f => { f with reading := true }) s)

/-- A page's fetch has ended; the CLERK's next page follows. -/
def endFetch (f : PageFetch) (s : State) : State :=
  readPage f.clerk { s with day := { s.day with fetches := s.day.fetches.filter (fun g => decide (g.no ≠ f.no)) } }

/-- The fetch goes on with the next entry, up to entry 255. -/
def nextSlot (f : PageFetch) (s : State) : State :=
  if 255 ≤ f.slot then endFetch f s
  else readPage f.clerk (onFetch f.no (fun f => { f with slot := f.slot + 1, entry := none, reading := false }) s)

/-- A CLERK opens the page of a step. -/
def openPage (c step : Nat) (s : State) : State :=
  readPage c { s with day := { s.day with opened := s.day.opened + 1, fetches := s.day.fetches ++
    [{ no := s.day.opened, clerk := c, step := step, slot := 0, entry := none, reading := false, waited := false }] } }

/-- The pages one CLERK opens at a position: those of at most the highest 2^P steps reached (R125). -/
def openReached (p : Nat) (s : State) (c : Nat) : State :=
  let m := stepsReached s p
  let next := dayNext s c
  if !opensPages s c || decide (m ≤ next) then s
  else
    let first := max next (m - 2 ^ dayPages s)
    bump R.DAY_SKIP (first - next) { s with day := { s.day with next := Tab.set 0 s.day.next c m } }

/-- The steps whose pages a CLERK opens at a position. -/
def stepsToOpen (s : State) (p c : Nat) : List Nat :=
  let m := stepsReached s p
  let first := max (dayNext s c) (m - 2 ^ dayPages s)
  if opensPages s c then (List.range (m - first)).map (fun i => first + i) else []

/-- The opening position of a step (R123): layer L of the number of layers DIST before the step's last layer, at phase 0;
position 0 where that lies before the first. -/
def openingOf (s : State) (step : Nat) : Nat :=
  let l := lastLayer s
  let k := step * (l + 1) + l - dayDist s
  k / (l + 1) * 4096 + k % (l + 1) * 16

/-- The pages that a position opens, as step and CLERK, in ascending order of opening position (R100, R124). -/
def openings (s : State) (p : Nat) : List (Nat × Nat) :=
  (((List.range 8).map (fun c => (stepsToOpen s p c).map (fun n => (n, c)))).flatten).mergeSort
    (fun a b => decide (a.1 < b.1) || (decide (a.1 = b.1) && decide (a.2 ≤ b.2)))

/-- DAY_NEXT of every CLERK moves past the pages that a position opens (R124, R125). -/
def markOpened (p : Nat) (s : State) : State := (List.range 8).foldl (openReached p) s

/-! ### Entries (R121, R126 to R129) -/

/-- What Table 3.3 makes of an entry. -/
inductive EntryFate where
  | ends
  | drop (status : Nat)
  | stale
  | skip
  | text
  | queue
  deriving DecidableEq, Repr

/-- Whether a field of an entry that must be 0 is not. -/
def entryReserved (bs : List Byte) : Bool :=
  let w0 := leAt bs 0 8
  decide (bits w0 20 4 ≠ 0) || decide (leAt bs 8 8 / 2 ^ 44 ≠ 0) || decide (leAt bs 16 8 / 2 ^ 48 ≠ 0)
    || decide (leAt bs 28 4 ≠ 0) || decide (leAt bs 56 4 ≠ 0)
    || (decide (bits w0 0 8 = 1) &&
        (decide (bits w0 26 6 ≠ 0) || decide (bits w0 32 32 ≠ 0) || ((bs.drop 32).take 24).any (· ≠ 0)))

/-- Table 3.3, in its order; what would reach TELLER or the program of a retired CLERK is refused (R445, log entry 32). -/
def entryFate (s : State) (c step : Nat) (bs : List Byte) : EntryFate :=
  let op := leAt bs 0 1
  let n := entryStream bs
  if op = 0 then .ends
  else if leAt bs 60 4 ≠ crc32c (bs.take 60) then .drop St.BAD_OP
  else if entryReserved bs || (decide (3 ≤ op) && decide (op < 16)) then .drop St.BAD_OP
  else match homeRefusal s c n with
    | some st => .drop st
    | none =>
      if leAt bs 8 4 ≠ step % 2 ^ 32 then .stale
      else if op = 2 then .skip
      else if unitOut s 6 c then .drop St.SPARE_OUT
      else if op = 1 then .text
      else .queue

/-- The chunk of a TEXT entry (R127). -/
def entryChunk (c step slot : Nat) (bs : List Byte) : Chunk :=
  let fl := leAt bs 3 1
  let len := leAt bs 24 4
  { source := 8, stream := entryStream bs, len := len, textEnd := bit fl 0 || bit fl 1, eos := bit fl 1,
    reissue := false, badHeader := false, badWords := false, tag := 0, clerk := c,
    place := if len = 0 then .bytes [] else .stack (leAt bs 16 6), settle := headerPos (leAt bs 8 8), route := none,
    step := step, slot := slot, own := none, read := none, words := 0, no := 0, paid := false, whileHeld := false }

/-- The entry queue of a CLERK. -/
def entryQueue (s : State) (c : Nat) : List DayEntry := Tab.get [] s.day.queues c

/-- Whether an instruction is DNEXT. -/
def isDnext : Instr → Bool
  | .dnext _ _ => true
  | _ => false

/-- A valid entry's fetch waits for room; its page counts once (R129). -/
def deferEntry (f : PageFetch) (bs : List Byte) (s : State) : State :=
  let s := if f.waited then s else bump R.DAY_DEFER 1 s
  onFetch f.no (fun f => { f with entry := some bs, reading := false, waited := true }) s

/-- A valid entry goes to TELLER's input queue or to the CLERK's entry queue, or waits; `room` says that TELLER's
input queue is known to have room. -/
def offerEntry (f : PageFetch) (bs : List Byte) (room : Bool) (s : State) : State :=
  let c := f.clerk
  match entryFate s c f.step bs with
  | .text =>
    if room || hopRoom s Hop.TELLER then
      nextSlot f (reachTeller (entryChunk c f.step f.slot bs) s)
    else deferEntry f bs s
  | .queue =>
    if (entryQueue s c).length < 512 then
      let e : DayEntry := { step := f.step, replay := false, own := 0, data := bs }
      let s := nextSlot f { s with day := { s.day with queues := Tab.set [] s.day.queues c (entryQueue s c ++ [e]) } }
      wakeClerk isDnext c s
    else deferEntry f bs s
  | .drop st => nextSlot f (dayError f.slot c st f.step s)
  | _ => nextSlot f s

/-- A line of a page has been read, or its read has failed (R126, Table 10.8). -/
def pageLine (k slot status : Nat) (data : List Byte) (s : State) : State :=
  match s.day.fetches.find? (fun f => decide (f.no = k) && decide (f.slot = slot)) with
  | none => s
  | some f =>
    if status ≠ St.OK then nextSlot f (dayError slot f.clerk status f.step s)
    else match entryFate s f.clerk f.step data with
      | .ends => endFetch f s
      | .drop st => nextSlot f (dayError slot f.clerk st f.step s)
      | .stale => nextSlot f (bump R.DAY_STALE 1 s)
      | .skip => nextSlot f s
      | _ => offerEntry f data false s

/-- A CLERK's waiting fetch looks for room again. -/
def resumeFetch (room : Bool) (c : Nat) (s : State) : State :=
  match fetchOf s c with
  | some f =>
    match f.entry with
    | some bs => offerEntry f bs room s
    | none => s
  | none => s

/-- DAYBOOK_FETCH_RESUME (R129). -/
def execDaybookFetchResume (c : BitVec 3) (s : State) : Host.Outcome State Fault Refusal :=
  if clkUp s 1 then .next (sweep (resumeFetch false c.toNat s)) else .next s

/-! ### Room at a first station (R46) -/

/-- The hop in front of which a waiting instruction waits. -/
def waitHop (s : State) (i : Instr) : Option Nat :=
  match i with
  | .sfeed _ _ => some Hop.TELLER
  | .emit _ _ => some Hop.LEDGER
  | .flow w f =>
    some (routeHop (readFlow (scratchRead s w.clerk.toNat ((thread s w).reg f.a).toNat 64)).route 0)
  | _ => none

/-- An instruction that waited for room goes on with it. -/
def roomAct (i : Instr) (s : State) : State :=
  match i with
  | .sfeed w f => actSfeed w f true s
  | .flow w f => actFlow w f true s
  | .emit w f => actEmit w f true s
  | _ => s

/-- The instructions that wait for room in front of a hop and find a ticket free, in issue order. -/
def roomWaiters (s : State) (h : Nat) : List Instr :=
  (inIssueOrder s (((List.range 8).filter (fun c => clerkReady s c && decide (outstanding s c < 256))).map
    whos).flatten).filterMap (fun w =>
      let t := thread s w
      match t.wait with
      | .retry i => if t.st = .running ∧ waitHop s i = some h then some i else none
      | _ => none)

/-- Whether a CLERK's fetch waits for TELLER. -/
def fetchWaitsTeller (s : State) (c : Nat) : Bool :=
  match fetchOf s c with
  | some f => match f.entry with
    | some bs => decide (entryFate s c f.step bs = .text)
    | none => false
  | none => false

/-- INPUT_QUEUE_ROOM: the first instruction that waits in front of the hop goes on, else the first page fetch. -/
def execInputQueueRoom (h : BitVec 4) (s : State) : Host.Outcome State Fault Refusal :=
  match roomWaiters s h.toNat with
  | i :: _ => .next (sweep (roomAct i s))
  | [] =>
    if h.toNat = Hop.TELLER then
      match (List.range 8).find? (fetchWaitsTeller s) with
      | some c => .next (sweep (resumeFetch true c s))
      | none => .next s
    else .next s

end Sys2Proof.Machine
end

