-- ==== Sys2Proof/Machine/Beats.lean ====
section
/-!
DEFINITION. The beat port (R97 to R108, R120): positions taken, freezing and re-arming, and the writes of the beat and
DAYBOOK configuration.
-/

namespace Sys2Proof.Machine

/-- The fields a write of a register stores (RW and RWH) and those a written 1 clears (W1C). -/
def storeReg (off v : Nat) (s : State) : State :=
  match regSpec off with
  | none => s
  | some r => setReg off (((reg s off &&& (0xFFFFFFFF - r.store)) ||| (v &&& r.store)) &&& (0xFFFFFFFF - (v &&& r.clear))) s

/-- Whether the beat port works: the BEAT and CORE domains are up. -/
def beatUp (s : State) : Bool := clkUp s 21 && clkUp s 1

/-- Whether an instruction is DRAFT. -/
def isDraft : Instr → Bool
  | .draft _ _ => true
  | _ => false

/-- What a position makes happen (R100): a page opens, a thin-path tile or the row at the ports meets its settlement, a
WAITB ends. -/
inductive BeatEvent where
  | page (clerk step : Nat)
  | thin (stream : Nat)
  | port
  | waitb (w : Who)
  deriving DecidableEq, Repr

/-- The order of events at one position: page openings, settlements, WAITB releases. -/
def BeatEvent.rank : BeatEvent → Nat
  | .page _ _ => 0
  | .thin _ => 1
  | .port => 1
  | .waitb _ => 2

/-- An event takes effect. -/
def BeatEvent.run (e : BeatEvent) (s : State) : State :=
  match e with
  | .page c n => openPage c n s
  | .thin n => trySend n s
  | .port => retryPort s
  | .waitb w => wakeThread isWaitb s w

/-- The settlement of the row at the ports: that of its tile, or of its step before its tile is there. -/
def portSettle (s : State) (r : Row) : Nat :=
  match matchTile s r with
  | some c => c.tile.settle
  | none => logitsOf s r.step

/-- The events whose position lies at or below `p`, with their positions. -/
def beatEvents (p : Nat) (s : State) : List (Nat × BeatEvent) :=
  ((openings s p).map (fun x => (openingOf s x.1, BeatEvent.page x.2 x.1))
    ++ s.clear.tiles.map (fun c => (c.tile.settle, BeatEvent.thin c.tile.stream))
    ++ s.clear.port.toList.map (fun r => (portSettle s r, BeatEvent.port))
    ++ (waitingBeats s).map (fun x => (x.2, BeatEvent.waitb x.1))).filter (fun e => decide (e.1 ≤ p))

/-- Events in ascending order of position, and at one position by kind (R100). -/
def inBeatOrder (es : List (Nat × BeatEvent)) : List (Nat × BeatEvent) :=
  sortBy (fun a b => decide (a.1 < b.1) || (decide (a.1 = b.1) && decide (a.2.rank < b.2.rank))) es

/-- What a current position makes happen, in the order of R100. -/
def applyPosition (p : Nat) (s : State) : State :=
  let es := inBeatOrder (beatEvents p s)
  wakeAll isDraft (es.foldl (fun s e => e.2.run s) (markOpened p s))

/-- The port freezes for a cause of Table 3.10; WAITB ends (R102). -/
def freeze (cause : Nat) (s : State) : State :=
  wakeAll isWaitb { s with beat := { s.beat with frozen := true, cause := cause } }

/-- The BEAT packet of a position taken (Table 16.6); it belongs to no stream, so no filter holds it back. -/
def tracePosition (p : Nat) (s : State) : State :=
  let c := reg s R.DBG_CTRL
  if bit c 0 && bit c 4 then writeTrace [0x22 * 2 ^ 54 + 2 ^ 48, p] s else s

/-- A presented position is taken (R98 to R102): acknowledged in any case, and ignored while the port is frozen. -/
def takePosition (p : Nat) (s : State) : State :=
  let s := { s with beat := { s.beat with ack := !s.beat.ack } }
  if s.beat.frozen ∨ p = s.beat.pos then s
  else if p < s.beat.pos then
    freeze 1 (setReg R.BEAT_BAD_HI (p / 2 ^ 32) (setReg R.BEAT_BAD_LO (p % 2 ^ 32) s))
  else tracePosition p (applyPosition p { s with beat := { s.beat with pos := p, taken := (p, true) :: s.beat.taken } })

/-- BEAT_POSITION_TAKEN. -/
def execBeatPositionTaken (p : BitVec 44) (s : State) : Host.Outcome State Fault Refusal :=
  if beatUp s then .next (sweep (takePosition p.toNat s)) else .next s

/-- BEAT_FREEZE: BEAT_CTRL.FREEZE (R103). -/
def execBeatFreeze (s : State) : Host.Outcome State Fault Refusal := viaPort s fun s =>
  if beatUp s then .next (sweep (freeze 2 s)) else .next s

/-! ### Re-arming (R104) -/

/-- Whether a tile at CLEARING is still waiting within a grace that has started: for its mask, or on the thin path for
its lists. -/
def graceRuns (s : State) (c : ClearTile) : Bool :=
  !c.tile.replay && settleTaken s c.tile.settle && (c.desc.thin || !c.ready)

/-- Decision tiles on their way to CLEARING whose settlement has been taken. -/
def lateUpstream (s : State) : List Tile :=
  ((s.hops.map Prod.snd).flatten ++ unread s).filter (fun t =>
    decide (t.kind = .decision) && !t.replay && decide (t.status ≠ St.LATE) && settleTaken s t.settle
      && visits t Hop.CLEARING)

/-- The selection of a decision tile on its way is withheld: its item completes, and the tile itself ends when it
reaches CLEARING (R116). -/
def withholdAhead (s : State) (t : Tile) : State :=
  let late (u : Tile) : Tile := if u = t then { u with status := St.LATE } else u
  let s := completeItem t.ledger St.LATE .nothing (report t St.LATE 0 (bump R.BEAT_LATE 1 s))
  { s with
    hops := s.hops.map (fun p => (p.1, p.2.map late)),
    accesses := s.accesses.map (fun a => match a.job with
      | .flowPayload u off n => { a with job := .flowPayload (late u) off n }
      | _ => a) }

/-- Rows held before their tiles whose grace count has started. -/
def lateEarly (s : State) : List Row :=
  (s.clear.rows ++ s.clear.port.toList).filter (fun r => decide (0 < r.inBuf) && (matchTile s r).isNone && settleTaken s (logitsOf s r.step)
    && !replayingRows s r.stream)

/-- Step 1 of R104. -/
def withholdHeld (s : State) : State :=
  let late := s.clear.tiles.filter (graceRuns s)
  let up := lateUpstream s
  let early := lateEarly s
  let s := late.foldl (fun s c => withhold c.tile.stream c St.LATE s) s
  early.foldl discardEarly (up.foldl withholdAhead s)

/-- The position in BEAT_REARM. -/
def rearmPos (s : State) : Nat := reg s R.BEAT_REARM_LO + 2 ^ 32 * reg s R.BEAT_REARM_HI

/-- DAY_NEXT of every CLERK for a new current position. -/
def setNext (p : Nat) (s : State) : State :=
  { s with day := { s.day with next := (List.range 8).foldl (fun t c => Tab.set 0 t c (firstOpening s p)) s.day.next } }

/-- The positions taken when a position is made current: they stay for the grace counts that need them (R112); one above
the new position counts as that position, since the numbering above it begins anew (log entry 137). -/
def keptTaken (p : Nat) (s : State) : List (Nat × Bool) := s.beat.taken.map (fun x => (min x.1 p, x.2))

/-- The re-arming of a frozen port. -/
def rearm (s : State) : State :=
  let s := withholdHeld s
  let p := rearmPos s
  applyPosition p { setNext p s with beat := { s.beat with
    pos := p, frozen := false, taken := (p, false) :: keptTaken p s } }

/-- BEAT_ARM: BEAT_CTRL.ARM; no effect while the port is not frozen. -/
def execBeatArm (s : State) : Host.Outcome State Fault Refusal := viaPort s fun s =>
  if beatUp s && s.beat.frozen then .next (sweep (rearm s)) else .next s

/-! ### Configuration (R107, R108, R120) -/

/-- A write of BEAT_CFG. -/
def writeBeatCfg (v : Nat) (s : State) : State :=
  if s.beat.frozen ∧ bits v 0 4 < bits v 4 4 then storeReg R.BEAT_CFG v s else setRegBit R.BEAT_STAT 3 s

/-- BEAT_CFG_WRITE. -/
def execBeatCfgWrite (v : Word32) (s : State) : Host.Outcome State Fault Refusal := viaPort s fun s =>
  .next (writeBeatCfg v.toNat s)

/-- Whether a register is one of the DAYBOOK's configuration. -/
def isDayConfig (off : Nat) : Bool := [R.DAY_BASE_LO, R.DAY_BASE_HI, R.DAY_CFG].contains off

/-- A write of DAY_BASE or DAY_CFG; the region exists from the first write of DAY_BASE (R530). -/
def writeDay (off v : Nat) (s : State) : State :=
  if !s.beat.frozen || (decide (off = R.DAY_CFG) && decide (12 < bits v 8 4)) then setRegBit R.DAY_STAT 0 s
  else
    let s := storeReg off v s
    if off = R.DAY_CFG then s else { s with day := { s.day with placed := true } }

/-- DAYBOOK_CONFIG_WRITE. -/
def execDaybookConfigWrite (off : BitVec 16) (v : Word32) (s : State) : Host.Outcome State Fault Refusal := viaPort s fun s =>
  if isDayConfig off.toNat then .next (writeDay off.toNat v.toNat s) else .next s

end Sys2Proof.Machine
end

