-- ==== Sys2Proof/Machine/Crypto.lean ====
section
/-!
DEFINITION. AES-128 and its CMAC, by which keyed commands and images are authenticated (R398, R410). The spec names
the algorithm and its standard; the cipher is written out here from its algebra.
-/

namespace Sys2Proof.Machine

/-- Twice a field element of AES. -/
def aesDouble (b : Byte) : Byte := (b <<< 1) ^^^ (if b.msb then 0x1B else 0)

/-- The product of two field elements, over the low `fuel` bits of the second. -/
def aesMul (fuel : Nat) (a b : Byte) : Byte :=
  match fuel with
  | 0 => 0
  | f + 1 => (if b.getLsbD 0 then a else 0) ^^^ aesMul f (aesDouble a) (b >>> 1)

/-- The inverse of a field element, 0 for 0: its power 254. -/
def aesInv (a : Byte) : Byte :=
  let m := aesMul 8
  let a2 := m a a
  let a4 := m a2 a2
  let a8 := m a4 a4
  let a16 := m a8 a8
  let a32 := m a16 a16
  let a64 := m a32 a32
  let a128 := m a64 a64
  m a2 (m a4 (m a8 (m a16 (m a32 (m a64 a128)))))

/-- The S-box. -/
def aesSub (a : Byte) : Byte :=
  let b := aesInv a
  b ^^^ b.rotateLeft 1 ^^^ b.rotateLeft 2 ^^^ b.rotateLeft 3 ^^^ b.rotateLeft 4 ^^^ 0x63

/-- Two blocks added. -/
def xorBytes (a b : List Byte) : List Byte := List.zipWith (· ^^^ ·) a b

/-- The next round key. -/
def nextRoundKey (k : List Byte) (rcon : Byte) : List Byte :=
  let w (i : Nat) : List Byte := (k.drop (4 * i)).take 4
  let t := match w 3 with
    | [a, b, c, d] => [aesSub b ^^^ rcon, aesSub c, aesSub d, aesSub a]
    | x => x
  let w0 := xorBytes (w 0) t
  let w1 := xorBytes (w 1) w0
  let w2 := xorBytes (w 2) w1
  w0 ++ w1 ++ w2 ++ xorBytes (w 3) w2

/-- Row shifting: byte `r + 4 c` comes from column `c + r`. -/
def aesShift (x : List Byte) : List Byte :=
  (List.range 16).map (fun i => (x[i % 4 + 4 * ((i / 4 + i % 4) % 4)]?).getD 0)

/-- Column mixing. -/
def aesMix (x : List Byte) : List Byte :=
  ((chunksOf 4 4 x).map (fun c => match c with
    | [a, b, d, e] =>
      [aesDouble a ^^^ aesDouble b ^^^ b ^^^ d ^^^ e, a ^^^ aesDouble b ^^^ aesDouble d ^^^ d ^^^ e,
       a ^^^ b ^^^ aesDouble d ^^^ aesDouble e ^^^ e, aesDouble a ^^^ a ^^^ b ^^^ d ^^^ aesDouble e]
    | y => y)).flatten

/-- The rounds after the first key addition; the last one mixes no columns. -/
def aesRounds (fuel : Nat) (k : List Byte) (rcon : Byte) (x : List Byte) : List Byte :=
  let k := nextRoundKey k rcon
  let y := aesShift (x.map aesSub)
  match fuel with
  | 0 => xorBytes y k
  | f + 1 => aesRounds f k (aesDouble rcon) (xorBytes (aesMix y) k)

/-- AES-128 of one block. -/
def aes (key block : List Byte) : List Byte := aesRounds 9 key 1 (xorBytes block key)

/-- A subkey of CMAC from the block before it: doubled as a big-endian number. -/
def cmacDouble (x : List Byte) : List Byte :=
  let n := ofLE x.reverse
  (toLE 16 ((2 * n % 2 ^ 128) ^^^ (if n < 2 ^ 127 then 0 else 0x87))).reverse

/-- CMAC over the blocks of a message. -/
def cmacBlocks (key k1 k2 : List Byte) (fuel : Nat) (acc m : List Byte) : List Byte :=
  match fuel with
  | 0 => acc
  | f + 1 =>
    if 16 < m.length then cmacBlocks key k1 k2 f (aes key (xorBytes acc (m.take 16))) (m.drop 16)
    else if m.length = 16 then aes key (xorBytes acc (xorBytes m k1))
    else aes key (xorBytes acc (xorBytes (padTo 16 (m ++ [0x80])) k2))

/-- The AES-128 CMAC of a message. -/
def cmac (key m : List Byte) : List Byte :=
  let l := aes key (List.replicate 16 0)
  let k1 := cmacDouble l
  cmacBlocks key k1 (cmacDouble k1) (m.length / 16 + 1) (List.replicate 16 0) m

/-- A tag: the first 8 bytes of the CMAC (R398). -/
def cmacTag (key m : List Byte) : List Byte := (cmac key m).take 8

end Sys2Proof.Machine
end

