-- ==== Sys2Proof/Machine/Window.lean ====
section
/-!
DEFINITION. The keyed command window (R404, R406): the command under way, its stages, and its end.
-/

namespace Sys2Proof.Machine

/-- A change of the keyed command under way. -/
def onRun (f : KcwRun → KcwRun) (s : State) : State := { s with kcw := { s.kcw with run := s.kcw.run.map f } }

/-- The keyed command goes to a stage. -/
def setStage (st : KcwStage) (s : State) : State := onRun (fun r => { r with stage := st }) s

/-- Whether the keyed command under way has an opcode and stands at a stage. -/
def atStage (s : State) (op : Nat) (st : KcwStage) : Bool :=
  match s.kcw.run with
  | some r => decide (r.opcode = op) && decide (r.stage = st)
  | none => false

/-- The end of a keyed command: BUSY clear, DONE set, STATUS written, the tag registers cleared (R406). -/
def endKeyed (status : Nat) (s : State) : State :=
  let v := setBits (setBits (reg s R.KCW_STAT) 1 1 1) 2 8 status
  let s := setReg R.KCW_STAT v (setReg R.KCW_TAG_LO 0 (setReg R.KCW_TAG_HI 0 s))
  { s with kcw := { s.kcw with run := none } }

/-- The bytes of a key, lowest first. -/
def keyBytes (k : BitVec 128) : List Byte := toLE 16 k.toNat

/-- Operand word `i` of the command under way. -/
def operandWord (r : KcwRun) (i : Nat) : Nat := leAt r.ops (8 * i) 8

end Sys2Proof.Machine
end

