-- ==== Sys2Proof/Machine/Repair.lean ====
section
/-!
DEFINITION. REPAIR and the repair map (R413, R456 to R460): the operand, its checks, the change it makes, and the two
copies of the map in stack memory.
-/

namespace Sys2Proof.Machine

/-- The fields of the REPAIR operand word (R413). -/
def readRepair (w : Nat) : Repair :=
  { action := bits w 0 4, cls := bits w 4 4, idx := bits w 8 16, row := bits w 24 16 }

/-- The word of a repair: the operand, a pending entry, an entry of the map. -/
def repairWord (r : Repair) : Nat := r.action % 16 + r.cls % 16 * 2 ^ 4 + r.idx % 2 ^ 16 * 2 ^ 8 + r.row % 2 ^ 16 * 2 ^ 24

/-! ### Checks (Table 14.6) -/

/-- ACTION, CLASS and the reserved bits. -/
def repairForm (w : Nat) : Bool :=
  let r := readRepair w
  decide (w / 2 ^ 40 = 0) &&
    (if r.action = 1 then [0, 1, 3, 4, 6, 7].contains r.cls
     else if r.action = 2 ∨ r.action = 3 then decide (r.cls ≤ 6)
     else decide (r.action = 4) && decide (r.cls ≤ 3))

/-- Whether a macro of a family is built (Table 14.2, in proportion to the configuration). -/
def macroBuilt (s : State) (f m : Nat) : Bool :=
  let z := s.build.size
  match f with
  | 0 => decide (m / 96 ≤ z.vaultBanks) && decide (m % 96 < bankBytes s / 65536)
  | 1 => decide (m / 64 < z.sorterTiles + z.sorterSpares)
  | 3 => decide (m < z.maskPages / 16) || (decide (512 ≤ m) && decide (m < 544))
  | 4 => decide (m < 4 * z.notaryUnits)
  | 6 => decide (m < 5 * z.clerks)
  | _ => decide (m < 212)

/-- VMAX of RSV_VOLT. -/
def vmax (s : State) : Nat := regField s R.RSV_VOLT 16 10

/-- INDEX and ROW within the built block. -/
def repairRange (s : State) (r : Repair) : Bool :=
  if r.action = 1 then macroBuilt s r.cls r.idx && decide (r.row < 520)
  else if r.action = 4 then decide (r.idx ≤ 3) && decide (750 ≤ r.row) && decide (r.row ≤ vmax s)
  else decide (r.idx < builtUnits s.build.size r.cls + builtSpares s.build.size r.cls) && decide (r.row = 0)

/-- Whether the change fills a unit under SPARE_SWAP. -/
def swapsFor (s : State) (r : Repair) : Bool :=
  fills s r.cls && decide (r.idx < builtUnits s.build.size r.cls || functionOf s r.cls r.idx ≠ r.idx) &&
    (if r.action = 2 then !unitOut s r.cls r.idx && !(sparesLeft s r.cls r.idx).isEmpty
     else decide (r.action = 3) && unitOut s r.cls r.idx)

/-- The running activity that holds a unit or a twin macro. -/
def unitHolder (s : State) (cls u : Nat) : Option Activity :=
  s.reserve.acts.find? (fun a => (held s a).contains (cls, u))

/-- The conflicting activity that holds the target of a REPAIR. -/
def repairHolder (s : State) (r : Repair) : Option Activity :=
  if r.action = 1 then
    if r.cls = 0 then unitHolder s 0 (r.idx / 96)
    else if r.cls = 1 then unitHolder s 1 (r.idx / 64)
    else if r.cls = 7 then unitHolder s 7 r.idx
    else none
  else if r.action = 4 then s.reserve.acts.find? (fun a => decide (a.code = Act.sweep) && decide (a.res = r.cls))
  else if swapsFor s r then holder s { code := Act.swap, res := r.idx, cls := r.cls }
  else if r.cls < 4 then unitHolder s r.cls r.idx
  else none

/-- RETIRE of the last NOTARY or EXCHANGE unit in service, or RESTORE of a unit not retired. -/
def repairBarred (s : State) (r : Repair) : Bool :=
  (decide (r.action = 2) && (decide (r.cls = 4) || decide (r.cls = 5)) && !unitOut s r.cls r.idx
      && decide (unitsUp s r.cls ≤ 1))
    || (decide (r.action = 3) && !unitOut s r.cls r.idx)

/-! ### Changes -/

/-- A unit back in service: a spare that stood in for it is free again, streams that moved come back. -/
def bringBack (cls i : Nat) (s : State) : State :=
  let t := { s with reserve := { s.reserve with
    out := s.reserve.out.filter (· != (cls, i)),
    stand := s.reserve.stand.filter (fun x => !(x.1 == cls && x.2.1 == i)) } }
  let t := if cls = 0 then bankBack i t else t
  if cls = 4 ∨ cls = 5 then moveStreams cls s t else t

/-- RESTORE: a bank or tile is filled first. -/
def restoreUnit (cls i : Nat) (s : State) : State :=
  if fills s cls ∧ i < builtUnits s.build.size cls then startOrWait { code := Act.swap, res := i, cls := cls } s
  else bringBack cls i s

/-- A rail request (R471): it waits while one is outstanding. `who` is the domain of the planner, or 4. -/
def askRail (mv who : Nat) (s : State) : State :=
  { s with reserve := { s.reserve with vask := s.reserve.vask ++ [(mv, who)] } }

/-- MARGIN: the domain's step and VREQ. -/
def setMargin (d step mv : Nat) (s : State) : State :=
  let s := { s with reserve := { s.reserve with steps := Tab.set 0 s.reserve.steps d step } }
  if s.reserve.vreq = mv ∧ s.reserve.vask = [] then s else askRail mv 4 s

/-- The change of a repair, made live; with the status of R458. -/
def applyRepair (r : Repair) (s : State) : State × Nat :=
  if r.action = 1 then ((remapRow r.cls r.idx r.row false s).1, St.OK)
  else if r.action = 2 then retireUnit r.cls r.idx s
  else if r.action = 3 then (restoreUnit r.cls r.idx s, St.OK)
  else (setMargin r.cls r.idx r.row s, St.OK)

/-! ### The map (R459, R460) -/

/-- Bytes 0 to 59 of a copy's header. -/
def mapHeader (s : State) (n gen : Nat) : List Byte :=
  toLE 8 (1 + n % 2 ^ 13 * 2 ^ 16 + gen % 2 ^ 32 * 2 ^ 32) ++ toLE 8 s.instId.toNat ++ List.replicate 40 0 ++ toLE 4 0

/-- The bytes of a copy that holds some entries. -/
def mapBytes (s : State) (rs : List Repair) (gen : Nat) : List Byte :=
  let es := (rs.map (fun r => toLE 8 (repairWord r))).flatten
  let h := mapHeader s rs.length gen
  h ++ toLE 4 (crc32c (h ++ es)) ++ es

/-- Address of a copy: its GBL_RMAP pair. -/
def mapAddr (s : State) (k : Nat) : Nat := reg s (R.GBL_RMAP0_LO + 8 * k) + 2 ^ 32 * reg s (R.GBL_RMAP0_HI + 8 * k)

/-- A copy read back: its GEN and entries, when its check passes and its identity matches. -/
def readMap (s : State) (bs : List Byte) : Option (Nat × List Repair) :=
  let w := leAt bs 0 8
  let n := bits w 16 13
  if bits w 0 16 = 1 ∧ bits w 29 3 = 0 ∧ n ≤ 4088 ∧ leAt bs 8 8 = s.instId.toNat
      ∧ leAt bs 60 4 = crc32c (bs.take 60 ++ (bs.drop 64).take (8 * n)) then
    some (w / 2 ^ 32, (List.range n).map (fun i => readRepair (leAt bs (64 + 8 * i) 8)))
  else none

/-- Reads a copy of the map; bring-up buys no coins (R503). -/
def readCopy (k : Nat) (s : State) : State := startAccess 1 [] .read 9 (readSpan s (mapAddr s k) 32768) (.mapRead k) s

/-- Whether a copy of the map is still being read. -/
def mapBusy (s : State) : Bool :=
  s.accesses.any (fun a => match a.job with
    | .mapRead _ => true
    | _ => false)

/-- The state with a flag of RSV_MAP for a copy. -/
def setCopy (k : Nat) (b : Bool) (s : State) : State :=
  { s with reserve := if k = 0 then { s.reserve with copy0 := b } else { s.reserve with copy1 := b } }

/-- The copy with the higher GEN among those that qualify comes into force (R460). A copy that was read and does not
qualify beside one that does is torn (R464). -/
def chooseMap (s : State) : State :=
  let get (k : Nat) : Option (Nat × List Repair) := (s.reserve.copies.find? (fun p => p.1 == k)).bind (fun p => readMap s p.2)
  let lost (k : Nat) : Bool := s.reserve.copies.any (fun p => p.1 == k) && (get k).isNone && (get (1 - k)).isSome
  let s := setCopy 0 (get 0).isSome (setCopy 1 (get 1).isSome s)
  let best := match get 0, get 1 with
    | some a, some b => if a.1 < b.1 then some b else some a
    | some a, none => some a
    | none, b => b
  match best with
  | some (gen, rs) => { s with reserve := { s.reserve with map := rs, mapGen := gen, torn := lost 0 || lost 1 } }
  | none => setRegBit R.RSV_STAT 3 s

/-- Writes a copy of the map with one more entry; `other` says that the copy before it was written. -/
def writeCopy (k : Nat) (other : Bool) (r : Repair) (s : State) : State :=
  let lines := writeSpan s (mapAddr s k) (mapBytes s (s.reserve.map ++ [r]) (s.reserve.mapGen + 1))
  startAccess 1 (lineBill lines.length) .write 9 lines (.mapWrite k other) s

/-- The entry is committed: the map in force, and a matching pending entry removed. -/
def commitRepair (r : Repair) (s : State) : State :=
  { s with reserve := { s.reserve with
      map := s.reserve.map ++ [r], mapGen := s.reserve.mapGen + 1, pending := s.reserve.pending.erase r } }

/-- MAP_DEGRADED once a write follows the loss of a copy to a reset (R464). -/
def noteTorn (s : State) : State :=
  if s.reserve.torn then setRegBit R.RSV_STAT 4 { s with reserve := { s.reserve with torn := false } } else s

/-- A copy of the map has been written, or its write has failed. -/
def copyWritten (k : Nat) (other : Bool) (status : Nat) (s : State) : State :=
  let good := decide (status = St.OK)
  let s := noteTorn (setCopy k good (if good then s else setRegBit R.RSV_STAT 4 s))
  match s.kcw.run with
  | none => s
  | some run =>
    let r := readRepair (operandWord run 0)
    if k = 0 then writeCopy 1 good r s
    else if good || other then endKeyed run.status (commitRepair r s)
    else endKeyed St.STACK_ERR s

/-- REPAIR carried out (Table 14.6). -/
def startRepair (run : KcwRun) (s : State) : State :=
  let w := operandWord run 0
  let r := readRepair w
  if !repairForm w then endKeyed St.BAD_OP s
  else if !repairRange s r then endKeyed St.BOUNDS s
  else match repairHolder s r with
    | some h => endKeyed St.BUSY_MAINT (refuseStart h (if swapsFor s r then Act.swap else 0) s)
    | none =>
      if repairBarred s r then endKeyed St.BAD_OP s
      else
        let (s, st) := applyRepair r s
        if 4088 ≤ s.reserve.map.length then endKeyed St.CAPACITY s
        else writeCopy 0 false r (setStage .mapping (onRun (fun x => { x with status := st }) s))

end Sys2Proof.Machine
end

