-- ==== Sys2Proof/Machine/Mint.lean ====
section
/-!
DEFINITION. MINT (R201 to R215): token words from piece entries, by byte-pair merging, the unigram lattice or
longest-match word pieces, and the token tiles they fill.
-/

namespace Sys2Proof.Machine

/-- A token with the flags of Table 6.1 that its family gives it. -/
structure Sym where
  tok : Nat
  bytefb : Bool
  unk : Bool
  fresh : Bool
  deriving DecidableEq, Repr

/-- A plain token. -/
def plainSym (t : Nat) : Sym := { tok := t, bytefb := false, unk := false, fresh := false }

/-- Symbols that never form part of a pair. -/
def Sym.fixed (x : Sym) : Bool := x.bytefb || x.unk

/-- BYTE[b] of an image. -/
def byteTok (im : TokImage) (b : Byte) : Nat := ((im.byteTab.getD [])[b.toNat]?).getD 0

/-- Text the vocabulary does not cover: one byte-fallback symbol per byte where the image allows it, else UNK (R210,
R214). -/
def uncovered (im : TokImage) (bs : List Byte) : List Sym :=
  if im.fallback then bs.map (fun b => { plainSym (byteTok im b) with bytefb := true })
  else [{ plainSym (im.unk.getD 0) with unk := true }]

/-- A run of bytes cut at character boundaries. -/
def charsOf : List Byte → List (List Byte)
  | [] => []
  | b :: bs =>
    match charsOf bs with
    | [] => [[b]]
    | c :: cs =>
      match c with
      | [] => [b] :: cs
      | x :: _ => if isBoundary x then [b] :: c :: cs else (b :: c) :: cs

/-! ### SMAP probes -/

/-- The entry of a key. -/
def smapEntry (im : TokImage) (cont : Bool) (key : List Byte) : Option SmapEntry :=
  im.smap.find? (fun e => e.cont == cont && e.key == key)

/-- TOKEN of the entry under a key. -/
def namedToken (im : TokImage) (key : List Byte) : Nat :=
  ((im.smap.find? (fun e => smapKey e.cont e.key == key)).map SmapEntry.tok).getD 0

/-- The entries in the buckets a lookup reads whose length and first 40 bytes are those of the key: each is compared with
HEAP (R218). -/
def longCandidates (z : Size) (r : Resident) (key : List Byte) : List Placed :=
  if key.length ≤ 41 then []
  else
    let (_, ks, os) := lookupPath z r Code.smap key
    r.placed.filter (fun p => p.code == Code.smap && p.key.length == key.length && p.key.take 41 == key.take 41
      && (if p.over then os.contains p.bucket.2.2 else ks.contains p.bucket && !r.absent.contains p.bucket.1))

/-- A probe of SMAP. -/
def smapProbe (z : Size) (r : Resident) (cont : Bool) (bs : List Byte) : Option SmapEntry × Reads :=
  let key := smapKey cont bs
  let reads := (lookup z r Code.smap key).2
  let reads := (longCandidates z r key).foldl (fun a p =>
    a.add (heapRead z r (heapOffset r.image (namedToken r.image p.key) + 40) 1)) reads
  (smapEntry r.image cont bs, reads)

/-- Probes from a place, one character longer each time, while an entry carries EXT: the entries found, each with
the characters it covers. -/
def probeFrom (z : Size) (r : Resident) (cont : Bool) : List (List Byte) → List Byte → Nat →
    List (Nat × SmapEntry) × Reads
  | [], _, _ => ([], Reads.none)
  | c :: cs, got, n =>
    let bs := got ++ c
    match smapProbe z r cont bs with
    | (none, a) => ([], a)
    | (some e, a) =>
      if e.ext then
        let (es, b) := probeFrom z r cont cs bs (n + 1)
        ((n + 1, e) :: es, a.add b)
      else ([(n + 1, e)], a)

/-! ### Byte-pair merging (R210 to R212) -/

/-- The merge of two adjacent symbols; none when either is fixed or no entry holds them. -/
def mergeOf (im : TokImage) (x y : Sym) : Option Merge :=
  if x.fixed || y.fixed then none
  else im.merges.find? (fun m => m.left == x.tok && m.right == y.tok)

/-- The lowest rank of a pair of adjacent symbols. -/
def lowestRank (im : TokImage) : List Sym → Option Nat
  | x :: y :: rest =>
    let tail := lowestRank im (y :: rest)
    match mergeOf im x y, tail with
    | some m, some k => some (min m.rank k)
    | some m, none => some m.rank
    | none, k => k
  | _ => none

/-- Merges the pairs of one rank from left to right; only the first when `once`. -/
def mergeLevel (im : TokImage) (once : Bool) (rank : Nat) : List Sym → List Sym
  | [] => []
  | [x] => [x]
  | x :: y :: rest =>
    match mergeOf im x y with
    | some m =>
      if m.rank = rank then
        let n := { plainSym m.merged with fresh := true }
        n :: (if once then rest else mergeLevel im once rank rest)
      else x :: mergeLevel im once rank (y :: rest)
    | none => x :: mergeLevel im once rank (y :: rest)

/-- The keys of the pairs of adjacent symbols that a step created, or of all of them. -/
def pairKeysOf (all : Bool) : List Sym → List (List Byte)
  | x :: y :: rest =>
    let tail := pairKeysOf all (y :: rest)
    if (all || x.fresh || y.fresh) && !x.fixed && !y.fixed then pairKey x.tok y.tok :: tail else tail
  | _ => []

/-- The lookups of pairs. -/
def pairReads (z : Size) (r : Resident) (keys : List (List Byte)) : Reads :=
  keys.foldl (fun a k => a.add (lookup z r Code.pair k).2) Reads.none

/-- The lookups of a piece's initial pairs: of one that was looked up ahead, only what lies in the overflow table is
still to be read (R222). -/
def firstReads (z : Size) (r : Resident) (ahead keys : List (List Byte)) : Reads :=
  keys.foldl (fun a k =>
    let x := (lookup z r Code.pair k).2
    a.add (if ahead.contains k then { x with banks := [] } else x)) Reads.none

/-- The merge ladder of R211: one step per rank level, or one merge per step for a NONMONO image. Gives the symbols,
what the steps read and their number. -/
def mergeLoop (fuel : Nat) (z : Size) (r : Resident) (xs : List Sym) : List Sym × Reads × Nat :=
  match fuel with
  | 0 => (xs, Reads.none, 0)
  | f + 1 =>
    match lowestRank r.image xs with
    | none => (xs, Reads.none, 0)
    | some m =>
      let ys := mergeLevel r.image r.image.nonmono m xs
      let a := pairReads z r (pairKeysOf false ys)
      let (zs, b, n) := mergeLoop f z r (ys.map (fun y => { y with fresh := false }))
      (zs, a.add b, n + 1)

/-- Base symbols of a piece. -/
def baseSyms (z : Size) (r : Resident) (bs : List Byte) : List Sym × Reads :=
  if r.image.baseChar then
    (charsOf bs).foldl (fun acc c =>
      let (e, a) := smapProbe z r false c
      let xs := match e.bind entryToken with
        | some t => [plainSym t]
        | none => uncovered r.image c
      (acc.1 ++ xs, acc.2.add a)) ([], Reads.none)
  else (bs.map (fun b => plainSym (byteTok r.image b)), Reads.none)

/-! ### Unigram lattice (R213, R214) -/

/-- An edge of the lattice: its start and end nodes, score and token; no token on an unknown edge. -/
structure Edge where
  src : Nat
  dst : Nat
  score : Int
  token : Option Nat
  deriving DecidableEq, Repr

/-- The edges from a node. -/
def edgesFrom (z : Size) (r : Resident) (cs : List (List Byte)) (i : Nat) : List Edge × Reads :=
  let (es, a) := probeFrom z r false (cs.drop i) [] 0
  let cand := es.filterMap (fun e => (entryToken e.2).map (fun t =>
    { src := i, dst := i + e.1, score := e.2.score, token := some t }))
  let cand := if cand.any (fun e => e.dst == i + 1) then cand
    else cand ++ [{ src := i, dst := i + 1, score := r.image.unkScore, token := none }]
  (cand, a)

/-- The best path to node `j`: among edges in ascending start, the first with the highest sum. -/
def bestTo (edges : List Edge) (best : List (Int × List Edge)) (j : Nat) : Int × List Edge :=
  ((edges.filter (fun e => e.dst == j)).foldl (fun acc e =>
    match best[e.src]? with
    | none => acc
    | some (s, path) =>
      match acc with
      | none => some (s + e.score, path ++ [e])
      | some (t, _) => if t < s + e.score then some (s + e.score, path ++ [e]) else acc)
    (none : Option (Int × List Edge))).getD (0, [])

/-- The tokens of a unigram piece. -/
def unigram (z : Size) (r : Resident) (bs : List Byte) : List Sym × Reads :=
  let cs := charsOf bs
  let all := (List.range cs.length).map (edgesFrom z r cs)
  let edges := (all.map Prod.fst).flatten
  let best := (List.range cs.length).foldl (fun b j => b ++ [bestTo edges b (j + 1)]) [((0 : Int), [])]
  let path := ((best.getLast?).getD (0, [])).2
  let xs := (path.map (fun e => match e.token with
    | some t => [plainSym t]
    | none => uncovered r.image ((cs[e.src]?).getD []))).flatten
  (xs, all.foldl (fun a x => a.add x.2) Reads.none)

/-! ### Word pieces (R215) -/

/-- The greedy rule from character `i`; none when the piece is UNK. -/
def greedy (fuel : Nat) (z : Size) (r : Resident) (cs : List (List Byte)) (i : Nat) : Option (List Sym) × Reads :=
  match fuel with
  | 0 => (some [], Reads.none)
  | f + 1 =>
    if cs.length ≤ i then (some [], Reads.none)
    else
      let (es, a) := probeFrom z r (decide (0 < i)) (cs.drop i) [] 0
      match (es.filter (fun e => e.2.hasTok)).getLast? with
      | none => (none, a)
      | some (n, e) =>
        let (xs, b) := greedy f z r cs (i + n)
        (xs.map (fun xs => plainSym e.tok :: xs), a.add b)

/-- The tokens of a word. -/
def wordPiece (z : Size) (r : Resident) (bs : List Byte) : List Sym × Reads :=
  let cs := charsOf bs
  let unk := [{ plainSym (r.image.unk.getD 0) with unk := true }]
  if r.image.maxChars < cs.length then (unk, Reads.none)
  else
    let (xs, a) := greedy cs.length z r cs 0
    (xs.getD unk, a)

/-! ### Pieces (Table 6.2) -/

/-- What MINT makes of pieces: token words without LAST, reads, and what the counters count; `ahead` are the entries
looked up ahead that a lane used. -/
structure MintRun where
  words : List Nat
  reads : Reads
  hits : Nat
  steps : Nat
  ahead : Nat
  parks : Nat
  deriving DecidableEq, Repr

/-- What MINT makes of no piece. -/
def MintRun.none : MintRun := { words := [], reads := Reads.none, hits := 0, steps := 0, ahead := 0, parks := 0 }

/-- What MINT makes of pieces, one after the other. -/
def MintRun.add (x y : MintRun) : MintRun :=
  { words := x.words ++ y.words, reads := x.reads.add y.reads, hits := x.hits + y.hits,
    steps := x.steps + y.steps, ahead := x.ahead + y.ahead, parks := x.parks + y.parks }

/-- A token word (Table 6.1). -/
def tokenWord (special trunc pend : Bool) (x : Sym) : Nat :=
  x.tok % 2 ^ 20 + flag special * 2 ^ 24 + flag x.bytefb * 2 ^ 25 + flag trunc * 2 ^ 26 + flag x.unk * 2 ^ 27
    + flag pend * 2 ^ 28

/-- The token words of one piece: TRUNC on the first, PEND on the last. -/
def pieceWords (special trunc : Bool) (xs : List Sym) : List Nat :=
  xs.mapIdx (fun i x => tokenWord special (trunc && decide (i = 0)) (decide (i + 1 = xs.length)) x)

/-- The tokens of the image's family, the ladder steps, and the entries looked up ahead that were used. -/
def familyRun (z : Size) (r : Resident) (ahead : List (List Byte)) (bs : List Byte) : List Sym × Reads × Nat × Nat :=
  match r.image.family with
  | .bytePair =>
    let (xs, a) := baseSyms z r bs
    let keys := pairKeysOf true xs
    let b := firstReads z r ahead keys
    let (ys, c, n) := mergeLoop xs.length z r xs
    (ys, (a.add b).add c, n, (keys.filter ahead.contains).length)
  | .unigram =>
    let (xs, a) := unigram z r bs
    (xs, a, 0, 0)
  | .wordPiece =>
    let (xs, a) := wordPiece z r bs
    (xs, a, 0, 0)

/-- The tokens of a cached piece, when its entry is placed. -/
def cacheHit (z : Size) (r : Resident) (bs : List Byte) : Option (List Nat) × Reads :=
  if r.image.cache.isSome && decide (2 ≤ bs.length) && decide (bs.length ≤ 16) then
    let (p, a) := lookup z r Code.cache bs
    ((p.bind (fun _ => (r.image.cache.getD []).find? (fun e => e.1 == bs))).map Prod.snd, a)
  else (none, Reads.none)

/-- The tokens of a protected run that no special-token row holds: the spec leaves open which and how many tokens of the
image they are (R535; DESIGN CHOICE, log entry 154). -/
def unknownTokens (im : TokImage) (bs : List Byte) : List Sym :=
  let (t, ts) := Config.unknownRun im.fingerprint bs
  (t :: ts).map (fun t => plainSym (t % im.vocab))

/-- One piece entry handled by the first row of Table 6.2 whose condition holds (R203). -/
def mintPiece (z : Size) (r : Resident) (pf : List (List Byte)) (p : Piece) (bs : List Byte) : MintRun :=
  let run (words : List Nat) (a : Reads) (hits steps used : Nat) : MintRun :=
    { words := words, reads := a, hits := hits, steps := steps, ahead := used,
      parks := if a.ovf.isEmpty then 0 else 1 }
  let b := (bs.head?).getD 0
  if p.special && p.norow then run (pieceWords true p.trunc (unknownTokens r.image bs)) Reads.none 0 0 0
  else if p.special then
    run (pieceWords true p.trunc [plainSym ((r.image.spec[p.row % 1024]?).getD 0)]) Reads.none 0 0 0
  else if p.bytefb then
    run (pieceWords false p.trunc [{ plainSym (byteTok r.image b) with bytefb := true }]) Reads.none 0 0 0
  else if bs.length = 1 ∧ r.image.family = .bytePair ∧ !r.image.baseChar then
    run (pieceWords false p.trunc [plainSym (byteTok r.image b)]) Reads.none 0 0 0
  else match cacheHit z r bs with
    | (some ts, a) => run (pieceWords false p.trunc (ts.map plainSym)) a 1 0 0
    | (none, a) =>
      let (xs, c, steps, used) := familyRun z r pf bs
      run (pieceWords false p.trunc xs) (a.add c) 0 steps used

/-- The pieces of a tile in text order, each with its bytes. -/
def piecesOf : List Piece → List Byte → List (Piece × List Byte)
  | [], _ => []
  | p :: ps, bs => (p, bs.take p.len) :: piecesOf ps (bs.drop p.len)

/-- The image a piece is tokenised with: the one whose rows made it (R225). -/
def pieceImage (s : State) (t : Tile) (p : Piece) : Option Resident := residentGen s t.tenant p.gen

/-- Whether MINT has no image for a tile (R448). -/
def noImage (s : State) (t : Tile) : Bool :=
  if t.pieces.isEmpty then (tenant s t.tenant).now.isNone else t.pieces.any (fun p => (pieceImage s t p).isNone)

/-- What VAULT has looked up ahead for a tile. -/
def lookedAhead (s : State) (t : Tile) : List (List Byte) :=
  ((s.prefetch.find? (fun f => f.stream == t.stream && f.ledger == t.ledger && f.tseq == t.tseq)).map Prefetch.keys).getD []

/-- MINT's work on a tile, with the lines of the overflow tables that have been read for it. -/
def mintRun (s : State) (t : Tile) (lines : List (Nat × List Byte)) : MintRun :=
  (piecesOf t.pieces t.payload).foldl (fun a p =>
    match pieceImage s t p.1 with
    | none => a
    | some r => a.add (mintPiece s.build.size (withOvf r lines) (lookedAhead s t) p.1 p.2)) MintRun.none

/-! ### Lookups ahead (R222) -/

/-- The keys of the initial pairs of a tile's pieces, each with its image: of pieces that Table 6.2 gives to byte-pair
merging. -/
def initialPairs (s : State) (t : Tile) : List (Resident × List Byte) :=
  let z := s.build.size
  ((piecesOf t.pieces t.payload).map (fun p =>
    match pieceImage s t p.1 with
    | none => []
    | some r =>
      if p.1.special || p.1.bytefb || decide (p.2.length = 1) || (cacheHit z r p.2).1.isSome
          || decide (r.image.family ≠ .bytePair) then []
      else (pairKeysOf true (baseSyms z r p.2).1).map (fun k => (r, k)))).flatten

/-- One lookup ahead: bought in class 2 or dropped (R428). Whether a demand lookup that wants the same sub-bank keeps it
off the bank for good is not stated, and a free value (R230). It notes its banks for the tile's item (R393), and may meet an
error like any lookup (R223). Gives the keys held. -/
def lookAhead (ledger : Nat) (acc : List (List Byte) × State) (x : Resident × List Byte) : List (List Byte) × State :=
  let s := acc.2
  let rd := (lookup s.build.size x.1 Code.pair x.2).2
  if readsStall s rd then (acc.1, bump R.VLT_PF_DROP 1 s)
  else if mustWait s 2 then (acc.1, bump R.VLT_PF_DROP 1 (bump R.PUR_RA_SKIP 1 s))
  else match payBill [(1, rd.banks.length)] s with
    | (s', []) =>
      let (v, s') := takeFree s'
      if v % 2 = 1 then (acc.1, bump R.VLT_PF_DROP 1 s')
      else
        let s' := readError rd ledger (noteBanks ledger rd (bump64 R.VLT_LOOKUPS_LO rd.banks.length s'))
        (if readsStall s' rd then acc.1 else acc.1 ++ [x.2], s')
    | _ => (acc.1, bump R.VLT_PF_DROP 1 (bump R.PUR_RA_SKIP 1 s))

/-- Whether a lookup ahead was made or dropped for a tile. -/
def Prefetch.of (f : Prefetch) (t : Tile) : Bool := f.stream == t.stream && f.ledger == t.ledger && f.tseq == t.tseq

/-- The lookups ahead for every tile queued at MINT; what was held for tiles that are there no longer is dropped. -/
def prefetchQueued (s : State) : State :=
  let q := queueAt s Hop.MINT
  let s := { s with prefetch := s.prefetch.filter (fun f => q.any f.of) }
  if bit (reg s R.VLT_CTRL) 0 && stationUp s Hop.MINT then
    (q.filter (fun t => !s.prefetch.any (fun f => f.of t))).foldl (fun s t =>
      let (keys, s) := (initialPairs s t).foldl (lookAhead t.ledger) ([], s)
      { s with prefetch := s.prefetch ++ [{ stream := t.stream, ledger := t.ledger, tseq := t.tseq, keys := keys }] }) s
  else s

/-! ### Token tiles (R207 to R209) -/

/-- Bytes of token words. -/
def wordBytes (ws : List Nat) : List Byte := (ws.map (toLE 4)).flatten

/-- Cuts payload into full tiles of 1,024 words while more than one tile's words are there. -/
def cutTokens (fuel : Nat) (t : Tile) : List Tile × Tile :=
  match fuel with
  | 0 => ([], t)
  | f + 1 =>
    if t.payload.length ≤ 4096 then ([], t)
    else
      let a := { t with payload := t.payload.take 4096, last := false, textEnd := false, eos := false }
      let (ts, rest) := cutTokens f { t with payload := t.payload.drop 4096 }
      ({ a with check := crc32c a.payload } :: ts, rest)

/-- The token tile a SORTER tile's words go to. -/
def tokenTile (t : Tile) : Tile :=
  { t with kind := .token, payload := [], marks := [], runs := [], pieces := [], last := false, textEnd := false,
           eos := false, check := 0 }

/-- Emits the words of a tile: full tiles, and at the ledger number's last tile the rest (R207, R208). -/
def mintEmit (t : Tile) (words : List Nat) (s : State) : State :=
  let acc := (buildingAt s t.stream Hop.MINT t.ledger).getD (tokenTile t)
  let acc := { acc with payload := acc.payload ++ wordBytes words, status := firstStatus acc.status t.status,
                        flags := acc.flags ||| t.flags }
  let (full, rest) := cutTokens (acc.payload.length + 1) acc
  let s := full.foldl (fun s t => sendTokens t s) (bump R.MNT_TOKENS words.length s)
  if t.last then
    let s := setBuilding t.stream Hop.MINT t.ledger none s
    if rest.payload.isEmpty && !t.eos then s
    else
      let bs := markLast rest.payload
      sendTokens
        { rest with payload := bs, check := crc32c bs, last := true, textEnd := t.textEnd, eos := t.eos } s
  else setBuilding t.stream Hop.MINT t.ledger (some rest) s

/-- MINT goes on with a tile whose lookups are done, and the lines they read. -/
def mintFinish (t : Tile) (lines : List (Nat × List Byte)) (s : State) : State :=
  if noImage s t then refuseTile Hop.MINT t St.IMAGE s
  else mintEmit t (mintRun s t lines).words s

/-- Counts what a tile's pieces gave (Tables 6.16 and 6.22). -/
def countMint (t : Tile) (x : MintRun) (s : State) : State :=
  let unks := (x.words.filter (fun w => bit w 27)).length
  let bfb := (x.words.filter (fun w => bit w 25)).length
  let s := bump R.MNT_BYTEFB bfb (bump R.MNT_UNKS unks (bump R.MNT_STEPS x.steps (bump R.MNT_CACHE_HIT x.hits
    (bump R.MNT_PIECES t.pieces.length s))))
  let s := if bit (reg s R.MNT_CTRL) 0 then bump R.MNT_PARKS x.parks s else s
  bump R.VLT_PF_USED x.ahead s

/-- The pieces that MINT parks for a tile's overflow reads: none while PARK_EN is clear. -/
def parksOf (s : State) (x : MintRun) : Nat := if bit (reg s R.MNT_CTRL) 0 then x.parks else 0

/-- Pieces now parked for an overflow read. -/
def piecesParked (s : State) : Nat :=
  (s.accesses.map (fun a => match a.job with
    | .overflow _ n => n
    | _ => 0)).sum

/-- MINT's work on a tile it has paid for: its lookups, and the words at once or when overflow has been read. -/
def mintWork (t : Tile) (hw : HwEvent) (s : State) : State :=
  if noImage s t then refuseTile Hop.MINT t St.IMAGE s
  else
    let x := mintRun s t []
    let lines := ovfRead s t.tenant x.reads.ovf
    if lines.any (fun l => !inRegion s 2 l.addr 64) then refuseTile Hop.MINT t St.BOUNDS s
    else
      let s := countMint t x (countReads t.ledger x.reads s)
      let s := match hw with
        | .corrected _ => vaultError hw t.ledger s
        | _ => s
      if lines.isEmpty then mintFinish t [] s
      else startAccess 1 [] .read 3 lines (.overflow t (parksOf s x)) s

/-- Whether a tile must wait: its lookups for a bank (R392, R447), or its pieces for room in the park of 4,096 (R227). -/
def mintStalls (s : State) (t : Tile) : Bool :=
  let x := mintRun s t []
  readsStall s x.reads || decide (4096 < piecesParked s + parksOf s x)

/-- The tile MINT takes for a stream, once it has been paid for. A poisoned bank leaves it in front of MINT. -/
def mintBody (n : Nat) (hw : HwEvent) (s : State) : State :=
  match takeable s Hop.MINT n with
  | none => s
  | some t =>
    if mintStalls s t then s
    else match hw with
      | .checkFail => checkFails 2 t (unqueue Hop.MINT t s)
      | .poison _ _ _ => vaultError hw t.ledger s
      | _ => prefetchQueued (mintWork t hw (unqueue Hop.MINT t s))

/-- What MINT buys for a tile: its lookups, overflow lines and token words (codes 0x07, 0x02, 0x08). -/
def mintBill (s : State) (t : Tile) : List (Nat × Nat) :=
  let x := mintRun s t []
  readBill x.reads ++ [(2, x.words.length)]

/-- MINT_TILE (R203). What VAULT looks up ahead for the tiles that wait, it has looked up before MINT takes one (R222). -/
def execMintTile (n : BitVec 12) (hw : HwEvent) (s : State) : Host.Outcome State Fault Refusal :=
  let s := prefetchQueued s
  match takeable s Hop.MINT n.toNat with
  | none => .next s
  | some t =>
    if mintStalls s t then .next s
    else .next (sweep (buy 1 (mintBill s t) (.mintTile n hw) id (mintBody n.toNat hw) s))

end Sys2Proof.Machine
end

