-- ==== Sys2Proof/Machine/Sorter.lean ====
section
/-!
DEFINITION. SORTER (R169 to R200): the search of a stream's text into pieces, the cut of long pieces, and the
tiles it emits.
-/

namespace Sys2Proof.Machine

/-- The start and end symbols of R175 as an alternative's automaton reads them. -/
abbrev startSymbol : Nat := 256
abbrev endSymbol : Nat := 257

/-- One step of an alternative. -/
def altStep (a : Alt) (st : Option Nat) (sym : Nat) : Option Nat :=
  match st with
  | none => none
  | some k => (a.trans.find? (fun t => t.1 == k && t.2.1 == sym)).map (fun t => t.2.2)

/-- All alternatives step one symbol. -/
def stepAlts (im : TokImage) (sts : List (Option Nat)) (sym : Nat) : List (Option Nat) :=
  (im.alts.zip sts).map (fun p => altStep p.1 p.2 sym)

/-- The states in which a search begins. -/
def firstStates (im : TokImage) (start : Bool) : List (Option Nat) :=
  let sts := im.alts.map (fun _ => some 0)
  if start then stepAlts im sts startSymbol else sts

/-- How a search stands after the bytes and symbols seen: open, won by an alternative that ends so many bytes
before the current point, or lost by every alternative (R173, R174, R176). -/
inductive Search where
  | unresolved
  | won (addr back : Nat)
  | lost
  deriving DecidableEq, Repr

/-- The bytes seen since the start of the open piece. -/
def SorterCtx.seen (c : SorterCtx) : Nat := c.cut + c.buf.length

/-- The standing of a search, `n` bytes of the piece having been seen, over the alternatives in the order of their match
addresses (R173, R176). An alternative that matches only the empty run does not match. -/
def standing (n : Nat) : List (Alt × Option Nat) → Search
  | [] => .lost
  | (a, st) :: rest =>
    match altVerdict a st with
    | .miss => standing n rest
    | .hit back => if back < n then .won a.addr back else standing n rest
    | .pending _ _ => .unresolved

/-- The standing of a search over the bytes held: it waits for the rest of the character at their start, since a piece
ends at a character boundary (R174, R536). -/
def standingOn (c : SorterCtx) (xs : List (Alt × Option Nat)) : Search :=
  if utf8Next c.buf = .more then .unresolved else standing c.seen xs

/-- The standing when no further byte can come: an alternative still open does not match. -/
def standingAtEnd (n : Nat) : List (Alt × Option Nat) → Search
  | [] => .lost
  | (a, st) :: rest =>
    match altVerdict a st with
    | .hit back => if back < n then .won a.addr back else standingAtEnd n rest
    | _ => standingAtEnd n rest

/-- Whether some outcome can still end the piece within 256 bytes of the current segment's start, `n` bytes of
which have been seen after `cut` of the piece before it (R181). -/
def canEndShort (cut n : Nat) : List (Alt × Option Nat) → Bool
  | [] => true
  | (a, st) :: rest =>
    match altVerdict a st with
    | .miss => canEndShort cut n rest
    | .hit back => if back < cut + n then decide (n - back ≤ 256) else canEndShort cut n rest
    | .pending back sure => decide (n - back ≤ 256) || (!sure && canEndShort cut n rest)

/-- The last character boundary of a run of bytes at or before `i` (R180). -/
def boundaryBefore (bs : List Byte) : Nat → Nat
  | 0 => 0
  | i + 1 =>
    match bs[i + 1]? with
    | none => i + 1
    | some b => if isBoundary b then i + 1 else boundaryBefore bs i

/-- How many of the first bytes held form whole characters. -/
def wholeChars (bs : List Byte) : Nat :=
  let j := boundaryBefore bs (bs.length - 1)
  if utf8Next (bs.drop j) = .more then j else bs.length

/-- SORTER at work on a tile: the stream's state and the pieces found so far with their bytes. -/
structure SorterRun where
  ctx : SorterCtx
  pieces : List (Piece × List Byte)
  cuts : Nat
  deriving DecidableEq, Repr

/-- A piece without a row, of the image of a generation. -/
def barePiece (gen len : Nat) : Piece :=
  { len := len, special := false, bytefb := false, trunc := false, norow := true, row := 0, gen := gen }

/-- Emits the first `k` held bytes as a segment of a cut piece (R180). -/
def emitSegment (k : Nat) (r : SorterRun) : SorterRun :=
  { ctx := { r.ctx with buf := r.ctx.buf.drop k, cut := r.ctx.cut + k },
    pieces := r.pieces ++ [({ barePiece r.ctx.gen k with trunc := true }, r.ctx.buf.take k)],
    cuts := if r.ctx.cut = 0 then r.cuts + 1 else r.cuts }

/-- The search of a piece is over: the next begins with no start symbol. -/
def SorterCtx.next (c : SorterCtx) : SorterCtx := { c with cut := 0, states := [], startSym := false }

/-- Emits the first `e` held bytes as the rest of a piece: cut while longer than 256 bytes (R180). With no byte left, the
segments already emitted are the piece (R536). -/
def emitPiece (fuel : Nat) (e : Nat) (row : Option Nat) (r : SorterRun) : SorterRun :=
  match fuel with
  | 0 => r
  | f + 1 =>
    if 256 < e then
      let k := boundaryBefore r.ctx.buf 256
      emitPiece f (e - k) row (emitSegment k r)
    else if e = 0 then { r with ctx := r.ctx.next }
    else
      let b := barePiece r.ctx.gen e
      let p : Piece :=
        if r.ctx.cut ≠ 0 then { b with trunc := true }
        else match row with
          | some a => { b with norow := false, row := a }
          | none => b
      { r with
        ctx := { r.ctx.next with buf := r.ctx.buf.drop e },
        pieces := r.pieces ++ [(p, r.ctx.buf.take e)] }

/-- Length of the character at the start of the held bytes. -/
def firstCharLen (bs : List Byte) : Nat :=
  match utf8Next bs with
  | .char _ n => n
  | _ => 1

/-- The image a search runs on: the rows in force when its piece began (R192). -/
def searchImage (s : State) (k : Nat) (c : SorterCtx) : Option TokImage := imageGen s k c.gen

/-- How many held bytes a match that ends `back` bytes before their end takes: an end that is no character boundary, which
only an image that breaks the bound of R176 can give, moves back to one, but a piece keeps its first character (R536). -/
def matchLen (c : SorterCtx) (back : Nat) : Nat :=
  let e := min (c.buf.length - back) (wholeChars c.buf)
  let b := boundaryBefore c.buf e
  if b = 0 ∧ c.cut = 0 then firstCharLen c.buf else b

/-- The piece a resolved search gives, emitted. -/
def takeOutcome (o : Search) (r : SorterRun) : SorterRun :=
  match o with
  | .won addr back => emitPiece (r.ctx.buf.length + 1) (matchLen r.ctx back) (some addr) r
  | .lost => emitPiece (r.ctx.buf.length + 1) (firstCharLen r.ctx.buf) none r
  | .unresolved => r

/-- Feeds bytes into the search: each byte steps every alternative; a resolved search gives its piece, and the
bytes after the piece begin the next search. `now` gives the rows in force and their generation. -/
def feedBytes (fuel : Nat) (s : State) (k : Nat) (now : TokImage × Nat) (bs : List Byte) (r : SorterRun) : SorterRun :=
  match fuel, bs with
  | 0, _ => r
  | _, [] => r
  | f + 1, b :: rest =>
    let fresh := r.ctx.buf.isEmpty && decide (r.ctx.cut = 0)
    let ctx := if fresh then { r.ctx with gen := now.2, states := firstStates now.1 r.ctx.startSym } else r.ctx
    let im := (searchImage s k ctx).getD now.1
    let ctx := { ctx with buf := ctx.buf ++ [b], states := stepAlts im ctx.states b.toNat }
    let r := { r with ctx := ctx }
    match standingOn ctx (im.alts.zip ctx.states) with
    | .unresolved =>
      let r := if 256 < ctx.buf.length && !canEndShort ctx.cut ctx.buf.length (im.alts.zip ctx.states) then
          emitSegment (boundaryBefore ctx.buf 256) r else r
      feedBytes f s k now rest r
    | o =>
      let r := takeOutcome o r
      let again := r.ctx.buf
      feedBytes f s k now (again ++ rest) { r with ctx := { r.ctx with buf := [] } }

/-- Steps enough that every byte can be searched again after each piece, of which there are no more than bytes. -/
def feedFuel (r : SorterRun) (n : Nat) : Nat := (r.ctx.buf.length + n + 1) * (r.ctx.buf.length + n + 2)

/-- The end symbol: resolves the open search and gives every remaining piece (R175, R186). -/
def endSearch (fuel : Nat) (s : State) (k : Nat) (now : TokImage × Nat) (r : SorterRun) : SorterRun :=
  match fuel with
  | 0 => r
  | f + 1 =>
    if r.ctx.buf.isEmpty then { r with ctx := { r.ctx with cut := 0, states := [], startSym := true } }
    else
      let im := (searchImage s k r.ctx).getD now.1
      let sts := (List.range 17).foldl (fun sts _ =>
        match standing r.ctx.seen (im.alts.zip sts) with
        | .unresolved => stepAlts im sts endSymbol
        | _ => sts) (stepAlts im r.ctx.states endSymbol)
      let r := takeOutcome (standingAtEnd r.ctx.seen (im.alts.zip sts)) r
      let again := r.ctx.buf
      endSearch f s k now (feedBytes (feedFuel r again.length) s k now again { r with ctx := { r.ctx with buf := [] } })

/-- Steps enough for the end of a text: each gives a piece or ends one that its segments already make up. -/
def endFuel (r : SorterRun) : Nat := 2 * r.ctx.buf.length + 2

/-- A protected run that has ended: one SPECIAL piece with the row of its protected string (R172, R178, R535). -/
def runPiece (im : TokImage) (gen : Nat) (bs : List Byte) : Piece :=
  let p := { barePiece gen bs.length with special := true }
  match im.prot.findIdx? (fun p => p == bs) with
  | some i => { p with norow := false, row := i }
  | none => p

/-- What a byte of a tile is: ordinary text, a marked byte, or a byte of a protected run with whether the run
begins there, and whether it ends there. -/
inductive SortSym where
  | text
  | mark
  | run (ends : Bool)
  deriving DecidableEq, Repr

/-- What byte `i` of a tile is. -/
def sortSym (t : Tile) (i : Nat) : SortSym :=
  match t.runs.find? (fun r => decide (r.off ≤ i) && decide (i < r.off + r.len)) with
  | some r => .run (decide (i + 1 = r.off + r.len) && !r.more)
  | none => if (t.marks[i]?).getD false then .mark else .text

/-- One byte of a tile. A protected run keeps to the rows in force where it began (R192). -/
def sortByte (s : State) (k : Nat) (now : TokImage × Nat) (t : Tile) (i : Nat) (b : Byte) (r : SorterRun) : SorterRun :=
  match sortSym t i with
  | .text => feedBytes (feedFuel r 1) s k now [b] r
  | .mark =>
    let r := endSearch (endFuel r) s k now r
    { r with pieces := r.pieces ++ [({ barePiece now.2 1 with bytefb := true }, [b])] }
  | .run ends =>
    let r := if r.ctx.run.isEmpty then
        let r := endSearch (endFuel r) s k now r
        { r with ctx := { r.ctx with gen := now.2 } }
      else r
    let bs := r.ctx.run ++ [b]
    if ends then
      { r with ctx := { r.ctx with run := [], startSym := true },
               pieces := r.pieces ++ [(runPiece ((searchImage s k r.ctx).getD now.1) r.ctx.gen bs, bs)] }
    else { r with ctx := { r.ctx with run := bs } }

/-- SORTER's work on the text of one tile. -/
def sortText (s : State) (k : Nat) (now : TokImage × Nat) (ctx : SorterCtx) (t : Tile) : SorterRun :=
  let r := (t.payload.zipIdx).foldl (fun r p => sortByte s k now t p.2 p.1 r)
    { ctx := ctx, pieces := [], cuts := 0 }
  if t.textEnd || t.eos then endSearch (endFuel r) s k now r else r

/-- Packs pieces into tiles of at most 4,096 text bytes in stream order (R184); gives the full tiles and the one being
filled. -/
def packPieces : List (Piece × List Byte) → Tile → List Tile × Tile
  | [], acc => ([], acc)
  | (p, bs) :: rest, acc =>
    if acc.pieces ≠ [] ∧ 4096 < acc.payload.length + bs.length then
      let (ts, last) := packPieces rest { acc with payload := bs, pieces := [p] }
      (acc :: ts, last)
    else packPieces rest { acc with payload := acc.payload ++ bs, pieces := acc.pieces ++ [p] }

/-- Emits what a tile gave: full tiles, and at the item's last tile the rest (R184 to R186). -/
def sorterEmit (byMap : Bool) (t : Tile) (r : SorterRun) (acc : Tile) (s : State) : State :=
  let (full, rest) := packPieces r.pieces acc
  let s := emitTiles Hop.SORTER (full.map (sorterTileOut byMap false false false)) s
  if t.last then
    let s := setBuilding t.stream Hop.SORTER t.ledger none s
    if rest.pieces.isEmpty && full.isEmpty && !t.textEnd && !t.eos then s
    else emitTile Hop.SORTER (sorterTileOut byMap true t.textEnd t.eos rest) s
  else setBuilding t.stream Hop.SORTER t.ledger (some rest) s

/-- SORTER's work on a tile it has paid for. A tile whose tenant slot has been emptied is refused here as R448 has MINT
refuse it, since the spec does not say what SORTER does with it (DESIGN CHOICE, log entry 155). -/
def sorterWork (t : Tile) (s : State) : State :=
  match (tenant s t.tenant).now with
  | none => refuseTile Hop.SORTER t St.IMAGE s
  | some res =>
    let r := sortText s t.tenant (res.image, res.gen) (stream s t.stream).sorter t
    let s := bump R.SRT_CUTS r.cuts (bump R.SRT_PIECES r.pieces.length s)
    let s := onStream t.stream (fun x => { x with sorter := r.ctx }) s
    let s := noteCarry t.ledger (fun x c => { c with sorter := x.sorter }) s
    let s := if r.cuts ≠ 0 ∧ bit (reg s R.SRT_CTRL) 0 then report t St.TRUNC 0 s else s
    let s := if r.pieces.any (fun p => p.1.trunc) then report t St.OK 1 s else s
    let acc := (buildingAt s t.stream Hop.SORTER t.ledger).getD
      { t with payload := [], marks := [], runs := [], pieces := [] }
    sorterEmit (decide (res.image.policy = .byte)) t r acc s

/-- A row whose parity fails: searched again on another tile, counted, weak from now on, and its reload asked for
(R196, R442). -/
def rowParity (tile mac row : Nat) (s : State) : State :=
  (remapRow 1 (tile * 64 + mac) row true
    (startOrWait { code := Act.tileReload, res := tile, cls := 1 } (bump R.SRT_ROWERR 1 s))).1

/-- The tile SORTER takes for a stream, once it has been paid for. -/
def sorterBody (n : Nat) (hw : HwEvent) (s : State) : State :=
  match takeable s Hop.SORTER n with
  | none => s
  | some t =>
    let s := unqueue Hop.SORTER t s
    match hw with
    | .checkFail => checkFails 2 t s
    | .rowParity tile mac row => prefetchQueued (sorterWork t (rowParity tile.toNat mac.toNat row.toNat s))
    | _ => prefetchQueued (sorterWork t s)

/-- What SORTER buys for a tile: g tile-cycles for each byte (R171, code 0x05). -/
def sorterBill (s : State) (t : Tile) : List (Nat × Nat) :=
  [(1, t.payload.length * ((imageOf s t.tenant).map TokImage.gang).getD 1)]

/-- SORTER_TILE (R184). -/
def execSorterTile (n : BitVec 12) (hw : HwEvent) (s : State) : Host.Outcome State Fault Refusal :=
  match takeable s Hop.SORTER n.toNat with
  | none => .next s
  | some t => .next (sweep (buy 1 (sorterBill s t) (.sorterTile n hw) id (sorterBody n.toNat hw) s))

/-- Stripe slots in use: the resident image's gang in every slot, and those of replaced images not yet freed. Slots into
which a load is writing count as free until the switch (R192 names none but the old ones; DESIGN CHOICE, log entry 180). -/
def stripesUsed (s : State) : Nat :=
  (s.tenants.map (fun p =>
    ((p.2.now.toList ++ p.2.oldRows).map (fun r => r.image.gang)).sum)).sum

/-- Free stripe slots (Table 5.13). -/
def stripesFree (s : State) : Nat := 32 - stripesUsed s

/-- STRIPE_SLOTS_FREED: the old slots of a tenant that no piece uses become free (R192). -/
def execStripeSlotsFreed (k : BitVec 4) (s : State) : Host.Outcome State Fault Refusal :=
  let t := tenant s k.toNat
  .next (setTenant k.toNat { t with oldRows := t.oldRows.filter (fun r => rowsInUse s k.toNat r.gen) } s)

/-- The thermal step after a sample: raised to the step whose threshold the sample reaches, lowered by one at
2 °C or more below the threshold of the current step (R198, R425). -/
def thermalStep (step : Nat) (t : Int) : Nat :=
  let reach := if 105 ≤ t then 3 else if 100 ≤ t then 2 else if 95 ≤ t then 1 else 0
  if step < reach then reach
  else if step ≠ 0 ∧ t ≤ 90 + 5 * (step : Int) - 2 then step - 1
  else step

/-- The highest of some samples, in degrees Celsius. -/
def hottest (ts : List (BitVec 9)) : Int := (ts.map BitVec.toInt).foldl max (-256)

/-- SORTER_THERMAL_SAMPLE: the step follows the hottest valid input; after 10 microseconds without one, 105
degrees Celsius is taken (R197, R198, R470). -/
def execSorterThermalSample (samples : List (BitVec 9)) (s : State) : Host.Outcome State Fault Refusal :=
  let dead := if samples.isEmpty then s.sortDead + 1 else 0
  if samples.isEmpty && decide (dead < 10) then .next { s with sortDead := dead }
  else
    let t : Int := if samples.isEmpty then 105 else hottest samples
    let step := thermalStep s.sortStep t
    let s := { s with sortDead := dead, sortStep := step, sortTemp := (BitVec.ofInt 9 t).toNat }
    .next (if step = 0 then s else bumpFree R.SRT_THROT s)

/-- TILE_RELOAD_DONE: the tile is filled and the activity ends (R195). -/
def execTileReloadDone (tile : BitVec 7) (s : State) : Host.Outcome State Fault Refusal :=
  match s.reserve.acts.find? (fun a => decide (a.code = Act.tileReload) && decide (a.res = tile.toNat)) with
  | some a => .next (endActivity a s)
  | none => .next s

end Sys2Proof.Machine
end

