-- ==== Sys2Proof/Machine/Loader.lean ====
section
/-!
DEFINITION. LOAD_IMAGE (R409 to R411, R509 to R511, R531): the operands, the checks before and after the image is
read, the placement of each kind of image, and the reload after a bank became absent (R447, R448).
-/

namespace Sys2Proof.Machine

/-- The operands of LOAD_IMAGE (R409); `clean` that its reserved bits are 0. -/
structure LoadOps where
  kind : Nat
  target : Nat
  units : Nat
  addr : Nat
  len : Nat
  tag : List Byte
  clean : Bool
  deriving DecidableEq, Repr

/-- The operands of the keyed command under way. -/
def readLoad (r : KcwRun) : LoadOps :=
  let w0 := operandWord r 0
  let w1 := operandWord r 1
  let w2 := operandWord r 2
  { kind := bits w0 0 2, target := bits w0 8 12, units := bits w0 20 7, addr := bits w1 0 48, len := bits w2 0 32,
    tag := (r.ops.drop 24).take 8,
    clean := decide (bits w0 2 6 = 0) && decide (w0 / 2 ^ 27 = 0) && decide (w1 / 2 ^ 48 = 0) && decide (w2 / 2 ^ 32 = 0) }

/-! ### Checks before the image is read (R411) -/

/-- The CLERKS a program load names. -/
def namedClerks (o : LoadOps) : List Nat := (List.range 8).filter (fun c => bit o.target c)

/-- The form of a program load's target and length. -/
def programBad (s : State) (o : LoadOps) : Bool :=
  decide (o.target = 0) || decide (256 ≤ o.target) || (namedClerks o).any (fun c => decide (s.build.size.clerks ≤ c))
    || decide (o.len = 0) || decide (65536 < o.len) || decide (o.len % 8 ≠ 0)

/-- Whether a span overlaps a LEDGER mirror or the DAYBOOK region that exists (R530). -/
def onLedgerOrDay (s : State) (a n : Nat) : Bool :=
  (s.ledger.placed0 && overlaps a n (mirrorBase s 0) (mirrorLen s))
    || (s.ledger.placed1 && overlaps a n (mirrorBase s 1) (mirrorLen s))
    || (s.day.placed && overlaps a n (reg s R.DAY_BASE_LO + 2 ^ 32 * reg s R.DAY_BASE_HI)
        (8 * 2 ^ regField s R.DAY_CFG 8 4 * 16384))

/-- The fallback grammar an image names, when its policy is FALLBACK. -/
def namedFallback (g : GrammarImage) : Option Nat := if g.policy = .fallback then some g.fallback else none

/-- Whether a stream is OPEN, HELD or CLOSING. -/
def liveStream (x : Stream) : Bool :=
  decide (x.st = .opened) || decide (x.st = .held) || decide (x.st = .closing)

/-- Whether a stream uses a grammar ID (R238). -/
def usesGrammar (s : State) (x : Stream) (g : Nat) : Bool :=
  liveStream x && x.notary.gen &&
    (decide (x.notary.gid = g) || decide (x.notary.cfg.grammar = g)
      || ((grammar s x.notary.gid).bind namedFallback == some g))

/-- Whether a grammar ID is in use (R238): never while it holds no image. -/
def grammarInUse (s : State) (g : Nat) : Bool :=
  (grammar s g).isSome && s.streams.any (fun p => usesGrammar s p.2 g)

/-- The first condition of R411 that holds, before the image is read. -/
def loadRefusal (s : State) (o : LoadOps) : Option Nat :=
  if !o.clean then some St.BAD_OP
  else if o.kind = 0 ∧ (programBad s o || (namedClerks o).any (clerkRunning s)) then some St.BAD_OP
  else if (if o.kind = 1 then o.units = 0 ∨ 96 < o.units else o.units ≠ 0) then some St.BAD_OP
  else if o.addr % 64 ≠ 0 ∨ o.len = 0 then some St.BAD_OP
  else if (o.kind = 1 ∨ o.kind = 3) ∧ 15 < o.target then some St.BAD_OP
  else if onLedgerOrDay s o.addr o.len then some St.BOUNDS
  else if o.kind = 2 ∧ grammarInUse s o.target then some St.BAD_OP
  else none

/-- The maintenance activity of a load (Table 14.7). -/
def loadActivity (o : LoadOps) : Activity := { code := Act.load, res := o.target, cls := if o.kind = 1 then 1 else 0 }

/-- The end of a load: the activity and the keyed command end. -/
def endLoad (o : LoadOps) (status : Nat) (s : State) : State := endKeyed status (endActivity (loadActivity o) s)

/-- Whether a stream with GEN 1 that is OPEN, HELD or CLOSING uses a tenant slot. -/
def slotGenerates (s : State) (k : Nat) : Bool :=
  s.streams.any (fun p => liveStream p.2 && p.2.notary.gen && decide (p.2.tenant = k))

/-- Whether a resident grammar image names a mask-set slot (R510). -/
def slotNamed (s : State) (k : Nat) : Bool :=
  s.grammars.any (fun p => match p.2 with
    | some g => decide (g.maskSet = k)
    | none => false)

/-- What the image of a load must carry because its target is in use as the load starts: the resident image's vocabulary
fingerprint, and a mask set's WIDTH (R411, R510). -/
def loadBound (s : State) (o : LoadOps) : Option (Nat × Option Nat) :=
  if o.kind = 1 ∧ slotGenerates s o.target then (imageOf s o.target).map (fun im => (im.fingerprint, none))
  else if o.kind = 3 ∧ slotNamed s o.target then
    (maskSlot s o.target).map (fun m => (m.image.fingerprint, some m.image.width))
  else none

/-- LOAD_IMAGE carried out: the checks, the activity, and the reading of the image, which buys its lines. -/
def startLoad (run : KcwRun) (s : State) : State :=
  let o := readLoad run
  match loadRefusal s o with
  | some st => endKeyed st s
  | none =>
    match holder s (loadActivity o) with
    | some h => endKeyed St.BUSY_MAINT (refuseStart h Act.load s)
    | none =>
      buy 1 (lineBill (ceilDiv o.len 64)) .loadImage (setStage .coins) (setStage .image)
        (beginActivity (loadActivity o) (onRun (fun x => { x with bound := loadBound s o }) s))

/-! ### Programs -/

/-- A program in a CLERK's program memory; what lies behind it stays as it is, since only ZEROISE and the ZERO phase
clear program memory (R58). -/
def placeProgram (ws : List Nat) (s : State) (c : Nat) : State :=
  let s := { s with prog := (ws.zipIdx).foldl (fun t w => Tab.set 0 t (8192 * c + w.2) (BitVec.ofNat 64 w.1)) s.prog }
  if unitOut s 6 c then s else { s with clerkFatal := s.clerkFatal &&& (255 - 2 ^ c) }

/-- Whether the power domain of a CLERK is up, so that its memory can be written. -/
def clerkMemUp (s : State) (c : Nat) : Bool := pdUp s (1 + c / 2)

/-- A program image in every CLERK named. -/
def installProgram (o : LoadOps) (data : List Byte) (s : State) : State :=
  endLoad o St.OK (((namedClerks o).filter (clerkMemUp s)).foldl (placeProgram (words64 data)) s)

/-! ### Tokeniser images (R193, R204, R242, R10, R224, R510) -/

/-- Whether an alternative straddles two stripes. -/
def straddles (a : Alt) : Bool := decide (a.addr % 1024 + a.rows > 1024)

/-- The conditions of R193 for ST_IMAGE. -/
def sorterPartBad (im : TokImage) : Bool :=
  decide (im.gang = 0) || decide (4 < im.gang) || decide (im.gang * 1024 < im.rows) || decide (64 < im.prot.length)
    || decide (16 < im.look) || im.alts.any straddles

/-- Whether two members of a list are equal. -/
def hasRepeat : List Nat → Bool
  | [] => false
  | x :: xs => xs.contains x || hasRepeat xs

/-- The conditions of R204. -/
def mintPartBad (im : TokImage) : Bool :=
  let needsByte := decide (im.policy = .byte) || (decide (im.family = .bytePair) && !im.baseChar) || im.fallback
  let emitsUnk := ((decide (im.family = .bytePair) && im.baseChar) || decide (im.family = .unigram)) && !im.fallback
    || decide (im.family = .wordPiece)
  (needsByte && im.byteTab.isNone) || decide (im.spec.length < im.prot.length) || (emitsUnk && im.unk.isNone)
    || hasRepeat (im.merges.map (fun m => m.left * 2 ^ 20 + m.right)) || hasRepeat (im.merges.map Merge.rank)

/-- Whether a region a tokeniser image needs is not set: the golden copies, and the overflow region when something of
it goes there. -/
def tokRegionMissing (s : State) (im : TokImage) (no : Nat) : Bool :=
  decide (regionSize s 6 = 0) || decide (regionSize s 7 = 0)
    || (decide (regionSize s 2 = 0) && (decide (no ≠ 0) || !(directAbsent s.build.size s.reserve.absent im).isEmpty))

/-- The checks of a tokeniser image in the order of R531. -/
def tokRefusal (s : State) (o : LoadOps) (im : TokImage) : Option Nat :=
  if sorterPartBad im || mintPartBad im || decide (4096 < (longList im).length) then some St.IMAGE
  else if s.build.size.maxVocab < im.vocab ∨ stripesFree s < im.gang ∨ freeUnits s < o.units then some St.CAPACITY
  else match placeImage s.build.size s.reserve.absent im o.units with
    | none => some St.CAPACITY
    | some (_, no, _) => if tokRegionMissing s im no then some St.BOUNDS else none

/-- An alternative put among others in the order of their match addresses. -/
def insertAlt (a : Alt) : List Alt → List Alt
  | [] => [a]
  | b :: bs => if a.addr < b.addr then a :: b :: bs else b :: insertAlt a bs

/-- An image with its alternatives in the order of their match addresses, as the search ranks them (R173). -/
def rankAlts (im : TokImage) : TokImage := { im with alts := im.alts.foldr insertAlt [] }

/-- Lines of the tenant's overflow space that an image takes (R227, R447). -/
def ovfSpan (z : Size) (r : Resident) : Nat := r.ovf + (directAbsent z r.absent r.image).length

/-- Where a new overflow table begins in its tenant's overflow space: at the lowest line at which it overlaps no table that
pieces may still read, else at the start (log entry 160). -/
def ovfPlace (s : State) (k n : Nat) : Nat :=
  let held := (tenant s k).now.toList ++ (tenant s k).oldUnits
  let ends := 0 :: held.map (fun r => r.ovfBase + ovfSpan s.build.size r)
  let fits (b : Nat) : Bool := decide (b + n ≤ 2 ^ 20)
    && held.all (fun r => !overlaps b n r.ovfBase (ovfSpan s.build.size r))
  ((sortBy (fun a b => decide (a < b)) ends).find? fits).getD 0

/-- The new resident of a tenant slot. -/
def newResident (s : State) (o : LoadOps) (key : BitVec 128) (im : TokImage)
    (p : (Nat × Nat × Nat) × Nat × List Placed) : Resident :=
  let r : Resident :=
    { gen := s.genNext, image := rankAlts im, units := o.units, tag := o.tag, key := key, addr := o.addr, len := o.len,
      ovf := p.2.1, ovfBase := 0, buckets := p.1, absent := s.reserve.absent, placed := p.2.2 }
  { r with ovfBase := ovfPlace s o.target (ovfSpan s.build.size r) }

/-- The golden copies of what an image puts into the VAULT banks (R334). -/
def goldenWrites (s : State) (r : Resident) : List Line :=
  let z := s.build.size
  let banks := (List.range z.vaultBanks).filter (fun b => !r.absent.contains b)
  (banks.map (fun b => ((List.range 8).map (fun sub => ((List.range (perSubBank z r.units)).map (fun i =>
    let at_ := b * bankBytes s + 64 * (Config.goldenPlace r.gen sub i % (bankBytes s / 64))
    let line := vaultLine z r b sub i
    [newLine s (regionBase s 6 + at_) line, newLine s (regionBase s 7 + at_) line])).flatten)).flatten)).flatten

/-- What the loader writes to the stacks for a tokeniser image: its overflow table and its golden copies (R227). -/
def tokWrites (s : State) (k : Nat) (r : Resident) : List Line :=
  (ovfTable s.build.size r).mapIdx (fun i d => newLine s (regionBase s 2 + k * 67108864 + 64 * (r.ovfBase + i)) d)
    ++ goldenWrites s r

/-- The slot switches to a new image; the old one keeps its stripe slots and units while pieces use them (R192,
R224, R225). -/
def switchSlot (k : Nat) (r : Resident) (s : State) : State :=
  let t := tenant s k
  let old := t.now.toList
  setTenant k { t with now := some r, oldRows := t.oldRows ++ old, oldUnits := t.oldUnits ++ old }
    { s with genNext := s.genNext + 1 }

/-- The loader's writes of what a load places; the target switches when they have ended. -/
def startPlacing (lines : List Line) (job : Job) (s : State) : State :=
  startAccess 1 (lineBill lines.length) .write 10 lines job (setStage .placing s)

/-- A tokeniser image whose rows have been bought: checked once more, and written. -/
def tokInstall (o : LoadOps) (key : BitVec 128) (im : TokImage) (s : State) : State :=
  match tokRefusal s o im, placeImage s.build.size s.reserve.absent im o.units with
  | none, some p =>
    let r := newResident s o key im p
    startPlacing (tokWrites s o.target r) (.placed o.target r) s
  | some st, _ => endLoad o st s
  | none, none => endLoad o St.CAPACITY s

/-- The keyed load under way ends. -/
def endLoading (status : Nat) (s : State) : State :=
  match s.kcw.run with
  | none => s
  | some run => endLoad (readLoad run) status s

/-- A tokeniser image is written whole: its slot switches. A bank that became absent meanwhile makes the loader place it
anew. -/
def tokPlaced (k : Nat) (r : Resident) (s : State) : State :=
  match s.kcw.run with
  | none => s
  | some run =>
    if r.absent ≠ s.reserve.absent then tokInstall (readLoad run) r.key r.image s
    else endLoading St.OK (switchSlot k r (bump R.SRT_SLOTS_LOST r.image.rows s))

/-! ### Grammar images (R237) -/

/-- Whether the residual record at unit `k` breaks Table 7.2. Bits [127:120] of its words 2 and 3, which the table names
nowhere, are taken as reserved, and NEED as a class of the grammar (DESIGN CHOICE, log entry 185). -/
def residualBad (g : GrammarImage) (k : Nat) : Bool :=
  let r := readResidual g k
  decide (g.data.length < 32 * (k + 1)) || decide (r.pop < 2) || decide (16 < r.pop) || decide (g.states ≤ r.next)
    || decide (bits (gramWord g (32 * k)) 43 21 ≠ 0) || decide (bits (gramWord g (32 * k + 8)) 36 28 ≠ 0)
    || decide (leAt g.data (32 * k + 31) 1 ≠ 0) || (r.need.take (r.pop - 1)).any (fun c => decide (g.classes ≤ c))

/-- Whether record `i` of the transition table breaks Table 7.2, or lies neither in the bucket of its key nor in the
next one; a record in the bucket behind the last one is one of them (log entry 184). -/
def transBad (g : GrammarImage) (i : Nat) : Bool :=
  (decide (i < 4 * g.buckets) && decide (g.data.length < g.transAt + 16 * (i + 1))) || (match readTrans g i with
    | none => false
    | some r =>
      let b := transBucket g r.token r.state r.cls
      decide (bits (gramWord g (g.transAt + 16 * i + 8)) 36 28 ≠ 0) || decide (g.states ≤ r.state)
        || decide (g.classes ≤ r.cls) || decide (g.states ≤ r.next) || (decide (i / 4 ≠ b) && decide (i / 4 ≠ b + 1)))

/-- Whether the state entry of a state and a class breaks Table 7.2. -/
def entryBad (g : GrammarImage) (q c : Nat) : Bool :=
  let off := entryOffset g q c
  let w0 := gramWord g off
  let w1 := gramWord g (off + 8)
  decide (g.data.length < off + 16) || decide (4096 < bits w0 29 13) || decide (bits w0 42 22 ≠ 0)
    || decide (bits w1 32 32 ≠ 0) || (List.range (bits w0 29 13)).any (fun i => residualBad g (bits w1 0 32 + i))

/-- Every state with every class. -/
def allEntries (g : GrammarImage) : List (Nat × Nat) :=
  ((List.range g.states).map (fun q => (List.range g.classes).map (fun c => (q, c)))).flatten

/-- Whether the sizes of a grammar pass Table 7.1, or its records break Table 7.2. -/
def recordsBad (g : GrammarImage) : Bool :=
  decide (g.states = 0) || decide (65536 < g.states) || decide (g.classes = 0) || decide (256 < g.classes)
    || decide (g.states ≤ g.start) || g.classOf.any (fun p => decide (4096 ≤ p.1) || decide (g.classes ≤ p.2))
    || (allEntries g).any (fun e => entryBad g e.1 e.2) || (List.range (4 * (g.buckets + 1))).any (transBad g)

/-- Whether the entry of the start state has an empty G and no residuals. -/
def startEmpty (g : GrammarImage) : Bool :=
  let e := stateEntry g g.start []
  decide (e.minClen = 0x1FF) && e.residuals.isEmpty

/-- Whether a mask index of an image is out of range, or its mask set is not resident. -/
def masksBad (s : State) (g : GrammarImage) : Bool :=
  let named := (allEntries g).map (fun e => (readEntry g e.1 e.2).maskIndex)
  named.any (fun k => decide (0xFFFEF < k)) ||
    (match maskSlot s g.maskSet with
     | none => true
     | some m => named.any (fun k => decide (m.image.masks.length ≤ k)))

/-- The resident grammar images with their IDs, without one ID. -/
def otherGrammars (s : State) (gid : Nat) : List (Nat × GrammarImage) :=
  s.grammars.filterMap (fun p => if p.1 = gid then none else p.2.map (fun g => (p.1, g)))

/-- The conditions of R237 on fallbacks. -/
def fallbackBad (s : State) (gid : Nat) (g : GrammarImage) : Bool :=
  let others := otherGrammars s gid
  let named := others.filter (fun p => namedFallback p.2 == some gid)
  (match namedFallback g with
   | none => false
   | some f => decide (f = gid) || others.any (fun p => decide (p.1 = f) && (decide (p.2.policy = .fallback)
       || decide (p.2.fingerprint ≠ g.fingerprint))))
    || (decide (g.policy = .fallback) && !named.isEmpty)
    || named.any (fun p => decide (p.2.fingerprint ≠ g.fingerprint))

/-- The checks of a grammar image: its records, and its place in the GRAM region. -/
def grammarRefused (s : State) (gid : Nat) (g : GrammarImage) : Option Nat :=
  if recordsBad g || startEmpty g || masksBad s g || fallbackBad s gid g then some St.IMAGE
  else if regionSize s 4 < g.data.length ∨ regionSize s 4 = 0 then some St.BOUNDS
  else none

/-- A grammar image written to the GRAM region. -/
def installGrammar (o : LoadOps) (g : GrammarImage) (s : State) : State :=
  match grammarRefused s o.target g with
  | some st => endLoad o st s
  | none => startPlacing (writeSpan s (gramBase s o.target g.data.length) g.data) (.placedGrammar o.target g) s

/-- A grammar image is written whole. -/
def grammarPlaced (gid : Nat) (g : GrammarImage) (s : State) : State :=
  endLoading St.OK { s with grammars := Tab.set none s.grammars gid (some g) }

/-! ### Mask sets (R340, R341) -/

/-- Bytes of a stack. -/
def stackBytes (s : State) : Nat := 2 ^ regField s R.STK_GEOM 0 6

/-- The stacks that hold copies of a set whose extent lies at an offset: THIN_STACKS and the home stack. -/
def copyStacks (s : State) (offset : Nat) : Nat :=
  regField s R.STK_GEOM 16 16 ||| 2 ^ stackOf s (regionBase s 5 + offset)

/-- Area lines a bank needs (Table 10.3). -/
def areaNeed (s : State) (m : MaskSlot) (bank : Nat) : Nat :=
  let n := shardLen s m.image.width bank
  1 + 64 * n + ceilDiv (longInBank s m bank) 16 + m.image.masks.length * n

/-- Whether every bank of every stack that holds a copy has an area large enough. -/
def areasFit (s : State) (m : MaskSlot) : Bool :=
  (List.range 16).all (fun k => !bit m.copies k ||
    (List.range 512).all (fun b => decide (areaNeed s m b ≤ (area s m k b).length)))

/-- Whether two extents overlap on a stack that both have copies on. -/
def extentsMeet (s : State) (a b : MaskSlot) : Bool :=
  let w := stackBytes s
  decide (a.copies &&& b.copies ≠ 0) &&
    overlaps ((regionBase s 5 + a.offset) % w) (2 ^ a.extLog2) ((regionBase s 5 + b.offset) % w) (2 ^ b.extLog2)

/-- Every extent in use: of the resident sets, and of sets that a thin-path row still uses (Table 10.9). -/
def usedExtents (s : State) : List MaskSlot :=
  s.maskSets.filterMap Prod.snd ++ s.clear.tiles.filterMap ClearTile.set

/-- A set at an offset with an extent of a size, when it fits there. -/
def extentAt (s : State) (im : MaskSetImage) (e offset : Nat) : Option MaskSlot :=
  let m : MaskSlot :=
    { image := im, extLog2 := e, copies := copyStacks s offset, offset := offset, checks := pageChecks im }
  if offset + 2 ^ e ≤ regionSize s 5 ∧ (regionBase s 5 + offset) % stackBytes s + 2 ^ e ≤ stackBytes s
      ∧ (usedExtents s).all (fun u => !extentsMeet s m u) ∧ areasFit s m then some m
  else none

/-- The placement of a mask set: the smallest extent, at the lowest offset. -/
def placeSet (s : State) (im : MaskSetImage) : Option MaskSlot :=
  (List.range 16).findSome? (fun i =>
    (List.range (regionSize s 5 / 65536)).findSome? (fun j => extentAt s im (16 + i) (65536 * j)))

/-- What the loader writes of a mask set: the areas of every bank on every stack that holds a copy (R340, R341). -/
def setWrites (s : State) (m : MaskSlot) : List Line :=
  (((List.range 16).filter (fun k => bit m.copies k)).map (fun k => ((List.range 512).map (fun b =>
    List.zipWith (newLine s) (area s m k b) (areaLines s m b))).flatten)).flatten

/-- The page checks of a set as bytes. -/
def checkBytes (m : MaskSlot) : List Byte := ((m.checks.map (fun c => (c.map (toLE 4)).flatten))).flatten

/-- The page checks of a mask set written to the GRAM region (R342). -/
def checkWrites (s : State) (slot : Nat) (m : MaskSlot) : List Line :=
  let bs := checkBytes m
  writeSpan s (regionBase s 4 + 64 * (Config.checkPlace slot % ((regionSize s 4 - bs.length) / 64 + 1))) bs

/-- A mask set written to its extent, and its page checks to the GRAM region. -/
def installSet (o : LoadOps) (im : MaskSetImage) (s : State) : State :=
  if s.build.size.maxVocab < im.vocab then endLoad o St.CAPACITY s
  else if regionSize s 5 = 0 then endLoad o St.BOUNDS s
  else match placeSet s im with
    | none => endLoad o St.CAPACITY s
    | some m =>
      if regionSize s 4 < (checkBytes m).length ∨ regionSize s 4 = 0 then endLoad o St.BOUNDS s
      else startPlacing (setWrites s m ++ checkWrites s o.target m) (.placedSet o.target m) s

/-- A mask set is written whole. -/
def setPlaced (slot : Nat) (m : MaskSlot) (s : State) : State :=
  endLoading St.OK { s with maskSets := Tab.set none s.maskSets slot (some m) }

/-! ### The image read (R410) -/

/-- Whether the target was in use, as the load started, for the fingerprint and the width the image's bytes carry (R411,
R510). -/
def targetInUse (run : KcwRun) (data : List Byte) : Bool :=
  match run.bound, Config.imageHead data with
  | some (f, w), some (f', w') => decide (f' ≠ f) || w.any (fun x => decide (w' ≠ x))
  | _, _ => false

/-- A grammar image as its bytes give it: its records stand in the bytes themselves (R234). -/
def gramImage (data : List Byte) : Option GrammarImage :=
  (Config.parseGrammar data).map (fun g => { g with fingerprint := headPrint data g.fingerprint, data := data })

/-- A mask set as its bytes give it. -/
def setImage (data : List Byte) : Option MaskSetImage :=
  (Config.parseMaskSet data).map (fun m => { m with
    fingerprint := headPrint data m.fingerprint, width := ((Config.imageHead data).map Prod.snd).getD m.width })

/-- A tokeniser image whose checks have passed buys its rows (code 0x06). -/
def buyRows (o : LoadOps) (key : BitVec 128) (im : TokImage) (cmd : Instr) (s : State) : State :=
  match tokRefusal s o im with
  | some st => endLoad o st s
  | none => buy 1 [(64, im.rows)] cmd (setStage .coins) (tokInstall o key im) s

/-- The image installed, when its tag is that of the operands. -/
def takeImage (run : KcwRun) (data : List Byte) (cmd : Instr) (s : State) : State :=
  let o := readLoad run
  if targetInUse run data then endLoad o St.BAD_OP s
  else if cmacTag (keyBytes run.key) data ≠ o.tag then endLoad o St.IMAGE s
  else if o.kind = 0 then installProgram o data s
  else if o.kind = 1 then
    match tokImage data with
    | some im => buyRows o run.key im cmd s
    | none => endLoad o St.IMAGE s
  else if o.kind = 2 then
    match gramImage data with
    | some g => installGrammar o g s
    | none => endLoad o St.IMAGE s
  else
    match setImage data with
    | some m => installSet o m s
    | none => endLoad o St.IMAGE s

/-- A read of the image has failed; which of its lines, is a free value. -/
def loadFailed (o : LoadOps) (status : Nat) (s : State) : State :=
  let (k, s) := takeFree s
  let l := newLine s (o.addr + 64 * (k % max 1 (ceilDiv o.len 64))) []
  endLoad o status (logFailure 10 status l s)

/-- IMAGE_LOAD_DONE: the image has been read whole, or its reading has failed (R410, R531). -/
def execImageLoadDone (data : List Byte) (status : Byte) (s : State) : Host.Outcome State Fault Refusal :=
  match s.kcw.run with
  | none => .next s
  | some run =>
    let o := readLoad run
    let st := status.toNat
    if !atStage s 1 .image then .next s
    else if st = St.STACK_BUSY ∨ st = St.STACK_ERR then
      .next (sweep (if targetInUse run data then endLoad o St.BAD_OP s else loadFailed o st s))
    else if st ≠ St.OK ∨ data.length ≠ o.len then .next s
    else .next (sweep (takeImage run data (.imageLoadDone data status) s))

/-- A tokeniser image whose rows have been paid for. -/
def loadedBody (data : List Byte) (s : State) : State :=
  match s.kcw.run with
  | none => s
  | some run =>
    match tokImage data with
    | some im => if atStage s 1 .coins then tokInstall (readLoad run) run.key im s else s
    | none => s

/-! ### Reloads after a bank became absent (R447, R448) -/

/-- A resident placed again without the absent banks. -/
def replaced (s : State) (r : Resident) : Option Resident :=
  (placeImage s.build.size s.reserve.absent r.image r.units).map (fun p =>
    { r with buckets := p.1, ovf := p.2.1, placed := p.2.2, absent := s.reserve.absent })

/-- A tenant slot is emptied, with ST_CAPACITY in the RSV_EVT log (R448). Its rows stay until no piece uses them (R192). -/
def emptySlot (k : Nat) (s : State) : State :=
  let t := tenant s k
  rsvEvent St.CAPACITY 0 ((s.reserve.absent.getLast?).getD 0) 0 0
    (setTenant k { t with now := none, oldRows := t.oldRows ++ t.now.toList } s)

/-- Residents placed again, their overflow tables one behind the other; one that finds no room keeps its placement. -/
def placedAgain (s : State) (base : Nat) : List Resident → List Resident
  | [] => []
  | r :: rs =>
    let x := { (replaced s r).getD r with ovfBase := base }
    x :: placedAgain s (base + ovfSpan s.build.size x) rs

/-- The residents of a tenant slot whose tables are in VAULT, placed again. -/
def slotAgain (s : State) (k : Nat) : List Resident := placedAgain s 0 ((tenant s k).now.toList ++ (tenant s k).oldUnits)

/-- The image of a tenant slot has been read again: its tables are written anew. -/
def reloadDone (k status : Nat) (lines : List Line) (s : State) : State :=
  match (tenant s k).now with
  | none => s
  | some r =>
    let data := ((lines.map Line.data).flatten).take r.len
    let good := decide (status = St.OK) && decide (cmacTag (keyBytes r.key) data = r.tag)
    if good && (replaced s r).isSome then
      let out := ((slotAgain s k).map (tokWrites s k)).flatten
      startAccess 1 (lineBill out.length) .write 10 out (.replacedTables k) s
    else emptySlot k s

/-- The tables of a tenant slot are written anew: its lookups use them. -/
def tablesReplaced (k : Nat) (s : State) : State :=
  let t := tenant s k
  let all := slotAgain s k
  let again (o : Resident) : Resident := (all.find? (fun x => x.gen == o.gen)).getD o
  setTenant k { t with now := t.now.map again, oldRows := t.oldRows.map again, oldUnits := t.oldUnits.map again } s

end Sys2Proof.Machine
end

