-- ==== Sys2Proof/Machine/Output.lean ====
section
/-!
DEFINITION. Output leaving the block: the LEDGER hop (R254, R368, R382, R383), the placement of STACK records
(R532), and the egress ports (R324 to R327).
-/

namespace Sys2Proof.Machine

/-! ### STACK records (R532) -/

/-- Payload bytes of a tile's record. -/
def recordBytes (t : Tile) : Nat :=
  match t.kind with
  | .text => t.payload.length
  | .token => t.payload.length
  | .decision => 64

/-- Bytes of the whole lines a record takes. -/
def recordSpan (bytes : Nat) : Nat := 64 * ceilDiv bytes 64

/-- Where a record of `n` bytes goes: at the write pointer, or at the region's start when it does not fit before
the region's end. -/
def recordPlace (x : Stream) (n : Nat) : Nat :=
  if x.outPtr + 2 ^ x.outLog2 < x.wptr + recordSpan n then x.outPtr else x.wptr

/-- Whether a record of an item lies on a span. -/
def recordsOn (i : Item) (a n : Nat) : Bool :=
  i.outs.any (fun o => decide (o.sink = Hop.STACK) && overlaps a (recordSpan n) o.addr (recordSpan o.bytes))

/-- What placing a record meets: an address, a record of another unsettled item to wait for, or an earlier record of
its own item. -/
inductive Placing where
  | at_ (addr : Nat)
  | waits
  | never
  deriving DecidableEq, Repr

/-- The placing of a tile's record. A replayed record that is journalled goes where its OUTPUT entry says. -/
def placing (s : State) (t : Tile) : Placing :=
  match (item? s t.ledger).bind (fun i => i.outs.find? (fun o => o.rseq == t.tseq && o.sink == Hop.STACK)) with
  | some o => .at_ o.addr
  | none =>
    let n := recordBytes t
    let a := recordPlace (stream s t.stream) n
    if (match item? s t.ledger with | some i => recordsOn i a n | none => false) then .never
    else if s.ledger.items.any (fun i => i.stream == t.stream && i.ledger != t.ledger && !i.settled && recordsOn i a n) then
      .waits
    else .at_ a

/-! ### The LEDGER hop -/

/-- The OUTPUT entry of a record (Table 11.2). -/
def outputEntry (t : Tile) (addr : Nat) : JEntry :=
  entry 2 t.stream 0 0 t.ledger
    (t.tseq % 2 ^ 24 + t.count % 8192 * 2 ^ 24 + flag t.last * 2 ^ 37 + flag t.textEnd * 2 ^ 38 + flag t.eos * 2 ^ 39
      + t.hopAfter * 2 ^ 40)
    addr t.check t.replay

/-- The record as the item keeps it. -/
def outRec (t : Tile) (addr : Nat) : OutRec :=
  { rseq := t.tseq, count := t.count, last := t.last, textEnd := t.textEnd, eos := t.eos, sink := t.hopAfter,
    addr := addr, bytes := recordBytes t, check := t.check, delivered := false }

/-- Journals a record and passes it on after the write. -/
def journalOutput (t : Tile) (addr : Nat) (s : State) : State :=
  let s := onItem t.ledger (fun i => { i with
    outs := i.outs.filter (fun o => o.rseq != t.tseq) ++ [outRec t addr] }) s
  let s := if t.hopAfter = Hop.STACK then
      onStream t.stream (fun x => { x with wptr := addr + recordSpan (recordBytes t) }) s
    else s
  journal (outputEntry t addr) [] (.output t) s

/-- The link a tile's check belongs to at the LEDGER hop (Table 11.9). -/
def checkLink (t : Tile) : Nat :=
  match t.kind with
  | .text => 6
  | .token => 3
  | .decision => 5

/-- Whether a replayed tile is at or below its stream's paid-out mark (R382). -/
def paidOut (s : State) (t : Tile) : Bool :=
  let x := stream s t.stream
  t.replay && (decide (t.ledger < x.paidL) || (decide (t.ledger = x.paidL) && decide (t.tseq ≤ x.paidS)))

/-- Whether a replayed tile differs from its journalled record (R383). -/
def mismatch (s : State) (t : Tile) : Bool :=
  t.replay && (match (item? s t.ledger).bind (fun i => i.outs.find? (fun o => o.rseq == t.tseq)) with
    | some o => decide (o.check ≠ t.check) || decide (o.count ≠ t.count)
    | none => false)

/-- A suppressed tile (R382): it counts as delivered for its ticket. -/
def suppress (t : Tile) (s : State) : State := bump R.LDG_SUPPRESS 1 (countTile t s)

/-- A replay mismatch (R383). -/
def takeMismatch (t : Tile) (s : State) : State :=
  let s := suppress t s
  let s := audFault 8 t.stream St.POISON t.ledger (bump R.AUD_MISMATCH 1 s)
  let s := onStream t.stream (fun x => { x with muted := true }) s
  completeItem t.ledger St.POISON .nothing (holdStream t.stream Hop.LEDGER t.ledger s)

/-- A record that cannot be placed (R532): the item completes with ST_BOUNDS, and its later output is dropped. -/
def unplaceable (t : Tile) (s : State) : State :=
  let s := onItem t.ledger (fun i => { i with dropped := true }) (report t St.BOUNDS 0 s)
  holdStream t.stream Hop.LEDGER t.ledger (completeItem t.ledger St.BOUNDS .nothing s)

/-- Whether a NOTARY record of an advance of a stream, made for an item or an earlier one, is still being written (R254). -/
def recordsPending (s : State) (n ledger : Nat) : Bool :=
  s.accesses.any (fun a => match a.job with
    | .record m l => decide (m = n) && decide (l ≤ ledger)
    | .patch m l => decide (m = n) && decide (l ≤ ledger)
    | .refill m l _ _ => decide (m = n) && decide (l ≤ ledger)
    | _ => false)

/-- The LEDGER hop's work on a tile it takes, numbered as its record. -/
def hopWork (t : Tile) (s : State) : State :=
  let s := unqueue Hop.LEDGER t s
  if t.hopAfter = Hop.CLERK then passOn Hop.LEDGER t s
  else
  let (t, s) := numberTile Hop.LEDGER t s
  let s := report t St.OK (lastFlag t) s
  if ((item? s t.ledger).map Item.dropped).getD false then s
  else if (stream s t.stream).muted then suppress t s
  else if mismatch s t then takeMismatch t s
  else if paidOut s t then suppress t s
  else if t.hopAfter = Hop.STACK then
    match placing s t with
    | .at_ a => journalOutput t a s
    | .waits => s
    | .never => unplaceable t s
  else journalOutput t 0 s

/-- Whether the record a tile would give must wait: for an advance before it and its checkpoint (R254), or for a settlement
(R532). -/
def hopWaits (s : State) (t : Tile) : Bool :=
  let k := ((item? s t.ledger).map (fun i => Tab.get 0 i.emitted Hop.LEDGER)).getD 0
  let u := { t with tseq := k }
  recordsPending s t.stream t.ledger
    || (stream s t.stream).notary.commits.any (fun c => decide (c.ledger ≤ t.ledger))
    || (decide (t.hopAfter = Hop.STACK) && !(stream s t.stream).muted && !mismatch s u && !paidOut s u
        && !((item? s t.ledger).map Item.dropped).getD false && decide (placing s u = .waits))

/-- LEDGER_HOP (R368). The entry's price is bought as the entry is written (code 0x03). -/
def execLedgerHop (n : BitVec 12) (hw : HwEvent) (s : State) : Host.Outcome State Fault Refusal :=
  match takeable s Hop.LEDGER n.toNat with
  | none => .next s
  | some t =>
    if hw = .checkFail then .next (sweep (checkFails (checkLink t) t (unqueue Hop.LEDGER t s)))
    else if hopWaits s t then .next s
    else .next (sweep (hopWork t s))

/-- A record whose OUTPUT entry is written goes to its sink. -/
def sendRecord (t : Tile) (s : State) : State :=
  if t.hopAfter = Hop.STACK then
    let a := match (item? s t.ledger).bind (fun i => i.outs.find? (fun o => o.rseq == t.tseq)) with
      | some o => o.addr
      | none => 0
    let lines := writeSpan s a (t.payload.take (recordBytes t))
    if lines.isEmpty then deliverRecord t s
    else startAccess 0 (lineBill lines.length) .write 7 lines (.sink t) s
  else passOn Hop.LEDGER t s

/-! ### Egress ports (R324 to R327) -/

/-- An egress port. -/
def egress (s : State) (p : Nat) : EgressState := if p = 0 then s.egress0 else s.egress1

/-- The state with an egress port replaced. -/
def setEgress (p : Nat) (e : EgressState) (s : State) : State :=
  if p = 0 then { s with egress0 := e } else { s with egress1 := e }

/-- The status of an item's work so far, as a record's header takes it when it starts. -/
def workStatus (s : State) (t : Tile) : Nat := ((item? s t.ledger).map Item.status).getD t.status

/-- The header beat of a record (Table 9.3); STATUS is that of the item's work so far. -/
def recordHeader (t : Tile) : List Byte :=
  toLE 8 (t.stream % 4096 + (if t.kind = .token then 1 else 0) * 2 ^ 12 + flag t.last * 2 ^ 14 + flag t.textEnd * 2 ^ 15
      + flag t.eos * 2 ^ 16 + flag t.replay * 2 ^ 17 + t.count % 8192 * 2 ^ 32)
    ++ toLE 8 t.ledger
    ++ toLE 8 (t.tseq % 2 ^ 24 + t.status % 256 * 2 ^ 24 + t.check % 2 ^ 32 * 2 ^ 32)
    ++ toLE 8 (posHeader t.settle)

/-- A record as it leaves: the header beat and its payload beats, padded with 0. -/
def recordOut (t : Tile) : List Byte := recordHeader t ++ padUp 32 t.payload

/-- A record's eop beat has passed. -/
def finishRecord (p : Nat) (t : Tile) (s : State) : State :=
  let s := setEgress p { egress s p with cur := none, last := recordOut t } s
  deliverRecord t (bump (if p = 0 then R.EXC_REC0 else R.EXC_REC1) 1 s)

/-- Whether an egress port's domains are up and it has posted. -/
def egressUp (s : State) (p : Nat) : Bool := pdUp s 25 && clkUp s (17 + p) && clkUp s 1 && !portMissing s 9 p

/-- EGRESS_RECORD (R324, R326): the record in front of the port's sink starts; after `beats` payload beats the
receiver lowers ready. -/
def execEgressRecord (port : BitVec 1) (beats : BitVec 10) (s : State) : Host.Outcome State Fault Refusal :=
  let p := port.toNat
  let e := egress s p
  match queueAt s (9 + p) with
  | [] => .next s
  | t :: _ =>
    if !egressUp s p || !bit (reg s R.EXC_CTRL) p || !e.ready || e.cur.isSome then .next s
    else
      let s := unqueue (9 + p) t s
      let t := { t with status := workStatus s t }
      let n := ceilDiv t.payload.length 32
      if n ≤ beats.toNat then .next (sweep (finishRecord p t s))
      else .next (setEgress p
        { e with ready := false, cur := some { tile := t, beats := n, passed := beats.toNat } } s)

/-- EGRESS_READY (R326): ready rises, and a paused record goes on: to its eop beat, or until the receiver lowers ready again
after `beats` more payload beats. -/
def execEgressReady (a : ReadyEvent) (s : State) : Host.Outcome State Fault Refusal :=
  let p := a.port.toNat
  let e := egress s p
  match e.cur with
  | none => .next (setEgress p { e with ready := true } s)
  | some r =>
    if !egressUp s p then .next (setEgress p { e with ready := true } s)
    else if r.beats ≤ r.passed + a.beats.toNat then
      .next (sweep (finishRecord p r.tile (setEgress p { e with ready := true } s)))
    else .next (setEgress p { e with ready := false, cur := some { r with passed := r.passed + a.beats.toNat } } s)

end Sys2Proof.Machine
end

