-- ==== Sys2Proof/Machine/Queues.lean ====
section
/-!
DEFINITION. The LEDGER's queues and settlements (R371 to R375, R385 to R389).
-/

namespace Sys2Proof.Machine

/-- Whether the domain of the LEDGER is up. -/
def ledgerUp (s : State) : Bool := stationUp s Hop.LEDGER

/-- The header of a completion packet (R385). -/
def packetHeader (i : Item) : Nat :=
  0x01 * 2 ^ 54 + 1 * 2 ^ 48 + i.status % 256 * 2 ^ 40 + flag i.asReplay * 2 ^ 39 + i.stream % 4096

/-- COMPLETION_PACKET (R371): queue 0 has room for the oldest waiting packet. -/
def execCompletionPacket (s : State) : Host.Outcome State Fault Refusal :=
  match s.ledger.packets with
  | [] => .next s
  | (h, n) :: rest =>
    if !ledgerUp s || decide (queueCap 0 < s.queue0.entries.length + 2) then .next s
    else .next (cutThrough 0 2 (setQueueN 0 (s.queue0.entries ++ [(true, h), (false, n % 2 ^ 62)])
      { s with ledger := { s.ledger with packets := rest } }))

/-- The first refused settlement or queue write since LDG_ERR was cleared (Table 11.20). -/
def ldgErr (status queue ledger : Nat) (s : State) : State :=
  logFirst R.LDG_ERR_LO (status + queue * 2 ^ 8) R.LDG_ERR_HI (ledger % 2 ^ 32) s

/-- SETTLE_PUSH (R372, Table 11.8): the write of LDG_SETTLED_HI. -/
def execSettlePush (hi : Word32) (s : State) : Host.Outcome State Fault Refusal := viaPort s fun s =>
  let n := reg s R.LDG_SETTLED_LO + 2 ^ 32 * (hi.toNat % 2 ^ 30)
  if !ledgerUp s then .next s
  else if queueCap 1 ≤ s.queue1.entries.length then .next (ldgErr St.OVERRUN 1 n (setReg (qovrKey 1) 1 s))
  else .next (setQueueN 1 (s.queue1.entries ++ [(false, n)]) s)

/-- The unsettled items of a stream up to a number, ascending. -/
def settledBy (s : State) (n ledger : Nat) : List Item :=
  s.ledger.items.filter (fun i => i.stream == n && !i.settled && decide (i.ledger ≤ ledger))

/-- One item settled: its SETTLED entry, NOTARY's hold released, and the restore point moved (R256, R373). -/
def settleItem (s : State) (i : Item) : State :=
  let s := bump R.LDG_SETTLES 1 (onItem i.ledger (fun i => { i with settled := true }) s)
  let s := onStream i.stream (fun x =>
    let c := x.notary.ckpts.find? (fun c => c.ledger == i.ledger)
    { x with
      base := match i.after with
        | some a => some a
        | none => x.base,
      notary := { x.notary with
        base := match c with
          | some k => some k.cfg
          | none => x.notary.base,
        advItems := x.notary.advItems.filter (· != i.ledger) } }) s
  journal (entry 5 i.stream 0 0 i.ledger 0 0 0 i.replaying) [] .nothing s

/-- What the block does with a settlement (Table 11.5). -/
def takeSettlement (n : Nat) (s : State) : State :=
  if n = 0 ∨ s.ledger.next ≤ n then ldgErr St.BOUNDS 1 n s
  else match s.ledger.items.find? (fun i => i.ledger == n && !i.settled) with
    | none => s
    | some i =>
      let is := settledBy s i.stream n
      if is.all (fun i => i.complete) then is.foldl settleItem s else ldgErr St.BAD_OP 1 n s

/-- Whether a settlement waits for a COMPLETE entry that is being written (Table 11.11). -/
def settlementWaits (s : State) (n : Nat) : Bool :=
  match s.ledger.items.find? (fun i => i.ledger == n && !i.settled) with
  | none => false
  | some i => (settledBy s i.stream n).any (fun i => i.completing && !i.complete)

/-- SETTLEMENT_TAKEN (R372). -/
def execSettlementTaken (s : State) : Host.Outcome State Fault Refusal :=
  match s.queue1.entries with
  | [] => .next s
  | (_, n) :: rest =>
    if !ledgerUp s || !s.ledger.ready || settlementWaits s n then .next s
    else .next (sweep (takeSettlement n (setQueueN 1 rest s)))

/-- The tail of both rings carried forward while fewer than one eighth is free (R374). -/
def carryOn (fuel : Nat) (s : State) : State :=
  match fuel with
  | 0 => s
  | f + 1 =>
    if ringLow s then carryOn f (carryEntry s)
    else if textLow s && !tailBusy s && ringRoom s then carryOn f (carryText s)
    else s

/-- CARRY_FORWARD (R374): one pass over what the rings hold; what waited for room is then written (R375). -/
def execCarryForward (s : State) : Host.Outcome State Fault Refusal :=
  if !ledgerUp s || s.ledger.replaying || !bit (reg s R.LDG_CTRL) 0 then .next s
  else
    let s := carryOn (s.ledger.ring.length + s.ledger.text.length) s
    .next (sweep (drainWaiting s.ledger.waiting.length s))

/-- The queue LDG_QSEL names. -/
def queueSel (s : State) : Nat := regField s R.LDG_QSEL 0 2

/-- A queue's entry as it is read (R385). -/
def queueWord (e : Bool × Nat) : Nat := e.2 % 2 ^ 62 + flag e.1 * 2 ^ 62

/-- Whether the domain of a queue is up. -/
def queueUp (s : State) (q : Nat) : Bool := if q < 2 then ledgerUp s else dbgUp s

/-- The read of LDG_QPOP_LO (R389): the popped entry, or NV when the queue is empty (Table 11.8); 0 while the queue's
domain is down (R523); NV too when the entry is not written yet, which the next read then
returns. Queue 3 drains through the trace port instead while DBG_CTRL.PORT is set (R514), and pops nothing
here. -/
def popQueue (s : State) : State :=
  if !queueUp s (queueSel s) then { s with regOut := 0 }
  else if frontUnwritten s (queueSel s) then
    { setReg R.LDG_QPOP_HI 0x80000000 (setUnwritten (queueSel s) (unwrittenOf s (queueSel s) - 1) s) with regOut := 0 }
  else match (if queueSel s = 3 ∧ bit (reg s R.DBG_CTRL) 1 then [] else queueN s (queueSel s)) with
  | [] => { setReg R.LDG_QPOP_HI 0x80000000 s with regOut := 0 }
  | e :: rest =>
    let w := queueWord e
    let s := if queueSel s = 0 then { s with ledger := { s.ledger with aged := s.ledger.aged - 1 } } else s
    { setReg R.LDG_QPOP_HI (w / 2 ^ 32) (setQueueN (queueSel s) rest s) with regOut := BitVec.ofNat 32 w }

/-- The _HI contents of a pair held for the next read of _HI. -/
def latchHi (off v : Nat) (s : State) : State := { s with latch := Tab.insert s.latch off (BitVec.ofNat 32 v) }

/-- The read of LDG_QPOP_LO: the entry, with its upper half in the latch (R389, R520). -/
def readPop (s : State) : State :=
  let s := popQueue s
  latchHi R.LDG_QPOP_HI (if queueUp s (queueSel s) then reg s R.LDG_QPOP_HI else 0) s

/-- QUEUE_POP (R389). -/
def execQueuePop (s : State) : Host.Outcome State Fault Refusal := viaRead s <| .next (readPop s)

/-- The packets of every complete unsettled item, ascending. -/
def announced (s : State) : List (Nat × Nat) :=
  (sortBy (fun a b => decide (a.ledger < b.ledger)) (s.ledger.items.filter (fun i => i.complete && !i.settled))).map
    (fun i => (packetHeader i, i.ledger))

/-- QUEUE_FLUSH (R386, R387): the write of LDG_QCFG. -/
def execQueueFlush (value : Word32) (s : State) : Host.Outcome State Fault Refusal := viaPort s fun s =>
  let v := value.toNat
  let q := queueSel s
  if bit v 0 && decide (q < 2) then .next (setRegBit R.LDG_STAT 0 s)
  else
    let s := setReg (qcfgKey q) (v % 128) s
    if bit v 7 && queueUp s q then
      let s := setUnwritten q 0 (setQueueN q [] s)
      .next (if q = 0 then { s with ledger := { s.ledger with packets := announced s, aged := 0 } } else s)
    else .next s

end Sys2Proof.Machine
end

