-- ==== Sys2Proof/Machine/Replay.lean ====
section
/-!
DEFINITION. The opening of the journal (R363, R376 to R379, R533): the writing of LDG_CTRL, the reading of both
mirrors, and the restoring of streams and items.
-/

namespace Sys2Proof.Machine

/-! ### LDG_CTRL (R363, Table 11.12) -/

/-- The stacks a span lies on. -/
def stacksOf (s : State) (a n : Nat) : List Nat :=
  (List.range 17).map (fun i => stackOf s (min (a + i * 2 ^ regField s R.STK_GEOM 0 6) (a + n - 1)))

/-- Whether two spans have a stack in common. -/
def shareStack (s : State) (a n b m : Nat) : Bool := (stacksOf s a n).any (fun k => (stacksOf s b m).contains k)

/-- The spans of the regions of Table 10.2 that exist, the mirrors apart (R530). -/
def regionSpans (s : State) : List (Nat × Nat) :=
  ((List.range 8).filter (fun r => decide (regionSize s r ≠ 0))).map (fun r => (regionBase s r, regionSize s r))
    ++ (if s.day.placed then
        [(reg s R.DAY_BASE_LO + 2 ^ 32 * reg s R.DAY_BASE_HI, 8 * 2 ^ regField s R.DAY_CFG 8 4 * 16384)] else [])

/-- The conditions of R363 under which EN is not taken. -/
def journalBad (s : State) : Bool :=
  let a := mirrorBase s 0
  let b := mirrorBase s 1
  let n := mirrorLen s
  decide (jlog2 s < 12) || decide (24 < jlog2 s) || decide (tlog2 s < 20) || decide (36 < tlog2 s)
    || shareStack s a n b n || (s.ledger.placed0 && s.ledger.placed1 && overlaps a n b n)
    || (regionSpans s).any (fun p => (s.ledger.placed0 && overlaps a n p.1 p.2) || (s.ledger.placed1 && overlaps b n p.1 p.2))

/-- The highest mark of a key slot among some HWM entries of the latched epoch (R407). -/
def heldMark (s : State) (es : List JEntry) (k : Nat) : Nat :=
  ((es.filter (fun e => decide (e.etype = 9) && decide (e.param % 4 = k)
    && decide (some e.b = s.kcw.epoch.map BitVec.toNat))).map JEntry.a).foldl max 0

/-- One HWM entry for each key slot whose mark is above what the journal held (R408); the opcode of an entry that no
command writes is a free value. -/
def writeMarks (es : List JEntry) (s : State) : State :=
  (List.range 4).foldl (fun s k =>
    let m := Tab.get 0 s.kcw.marks k
    if heldMark s es k < m then
      let (op, s) := takeFree s
      journal (entry 9 0 0 (k + op % 256 * 4) 0 m ((s.kcw.epoch.map BitVec.toNat).getD 0) 0 false) [] .nothing s
    else s) s

/-- The START entry, after which the journal is open, and the marks directly after it; `es` the HWM entries that the
journal held. -/
def writeStart (es : List JEntry) (s : State) : State :=
  let s := journal (entry 11 0 0 0 0 ((s.kcw.epoch.map BitVec.toNat).getD 0) 0 0 false) [] .started s
  writeMarks es s

/-- What waits for the journal to open: an instruction, a chunk of TELLER's input queue, a chunk of a lane. -/
inductive Waits where
  | instr (w : Who)
  | memory
  | lane (l : Nat)
  deriving DecidableEq, Repr

/-- What waits for the journal, in the order in which it arose (R533): by issue and arrival number. -/
def openEvents (s : State) : List Waits :=
  let is := (s.ledger.openWait.filterMap (fun i => (lambiopParts i).map (fun p => p.2.1))).map
    (fun w => ((thread s w).no, Waits.instr w))
  let ms := s.teller.queue.map (fun c => (c.no, Waits.memory))
  let ls := ((List.range 8).map (fun l => (laneBuf s l).map (fun c => (c.no, Waits.lane l)))).flatten
  (sortBy (fun x y => decide (x.1 < y.1)) (is ++ ms ++ ls)).map Prod.snd

/-- One of them goes on. -/
def goOn (s : State) (x : Waits) : State :=
  match x with
  | .instr w => wakeThread (fun _ => true) s w
  | .memory => takeChunk s
  | .lane l => drainLane 1 l s

/-- READY is set, marks raised since the START entry arose are journalled, and what waited goes on in the order in which
it arose (R408, R533). -/
def journalOpened (s : State) : State :=
  let s := writeMarks s.ledger.ring s
  let s := { s with kcw := { s.kcw with hwmPend := false } }
  let s := { s with ledger := { s.ledger with ready := true } }
  let xs := openEvents s
  xs.foldl goOn { s with ledger := { s.ledger with openWait := [] } }

/-- The journal with nothing in it, numbered from 1. -/
def emptyJournal (s : State) : State :=
  { s with ledger := { s.ledger with
      ready := false, replaying := false, lost0 := false, lost1 := false, next := 1, jseq := 1, jtail := 1, ring := [],
      thead := 0, text := [], items := [], waiting := [], jfull := false, tfull := false,
      replay := ReplayState.none } }

/-- The reading of one mirror's ring. -/
def readRing (m : Nat) (s : State) : State :=
  let lines := (List.range (2 ^ jlog2 s)).map (fun j => newLine s (slotAddr s m j) [])
  startAccess 1 (lineBill lines.length) .read 8 lines (.replayRing m) s

/-- The journal opens: fresh, or through a replay (R378). With numbering from 1 a new run begins (R18; DESIGN CHOICE, log
entry 181). -/
def openJournal (fresh : Bool) (s : State) : State :=
  let s := { emptyJournal s with streams := [] }
  if fresh then writeStart [] { s with emitted := [] }
  else readRing 1 (readRing 0 { s with ledger := { s.ledger with
    replaying := true, replay := { ReplayState.none with reading := true } } })

/-- Whether an access belongs to a replay's reading. -/
def Job.isReplay : Job → Bool
  | .replayRing _ => true
  | .replayRec _ _ => true
  | .replayCkpt _ => true
  | _ => false

/-- The journal closes. -/
def closeJournal (s : State) : State :=
  let s := dropAccesses (fun a => a.job.isReplay) s
  { s with ledger := { s.ledger with ready := false, replaying := false, replay := ReplayState.none } }

/-- The LEDGER comes out of reset or is back: a journal whose EN is set opens; without a write of EN meanwhile that asked
for FRESH, through a replay (R481, R523). -/
def openStored (s : State) : State :=
  if bit (reg s R.LDG_CTRL) 0 && ledgerUp s then
    openJournal s.ledger.freshEn { s with ledger := { s.ledger with freshEn := false } }
  else s

/-- EN taken: the journal opens, or opens as soon as the LEDGER is up (R523). -/
def enableJournal (fresh : Bool) (s : State) : State :=
  if ledgerUp s then openJournal fresh s else { s with ledger := { s.ledger with freshEn := fresh } }

/-- A write of LDG_CTRL. -/
def writeLdgCtrl (v : Nat) (s : State) : State :=
  let was := bit (reg s R.LDG_CTRL) 0
  if bit v 0 && (decide (s.boot.phase ≠ 6) || crippledNow s) then setRegBit R.LDG_STAT 0 s
  else if bit v 0 then
    if was then setReg R.LDG_CTRL (v % 4) s
    else if journalBad s then setRegBit R.LDG_STAT 0 s
    else enableJournal (bit v 1) (setReg R.LDG_CTRL (v % 4) s)
  else if s.ledger.items.any (fun i => !i.settled) then setRegBit R.LDG_STAT 0 s
  else
    let s := setReg R.LDG_CTRL (v % 4) s
    let s := { s with ledger := { s.ledger with freshEn := false } }
    if was then closeJournal s else s

/-! ### Entries that count (R377) -/

/-- What one slot of a mirror holds (R377). -/
def classify (s : State) (m : Nat) (r : ReplayState) (p : Line × Nat) : ReplayState :=
  let hurt : ReplayState := { r with damaged := r.damaged ++ [(m, p.2)] }
  match p.1.st with
  | .gone st =>
    if st = St.OK then
      match decodeEntry p.1.data with
      | some e => if e.jseq ≠ 0 ∧ e.jseq % 2 ^ jlog2 s = p.2 then { r with present := r.present ++ [(m, e)] } else r
      | none => hurt
    else if st = St.STACK_ERR then hurt else r
  | _ => r

/-- Whether a copy with a sequence number is present in a mirror. -/
def presentIn (r : ReplayState) (m j : Nat) : Bool := r.present.any (fun p => p.1 == m && p.2.jseq == j)

/-- Whether a DEGRADE entry that names a mirror counts below a sequence number. -/
def degradedBelow (r : ReplayState) (m j : Nat) : Bool :=
  r.present.any (fun p => p.2.etype == 10 && decide (p.2.param % 2 = m) && decide (p.2.jseq < j))

/-- Whether a present copy counts. -/
def counts (s : State) (m : Nat) (e : JEntry) : Bool :=
  let r := s.ledger.replay
  if e.etype = 1 ∨ e.etype = 6 ∨ e.etype = 9 then
    presentIn r (1 - m) e.jseq || r.damaged.contains (1 - m, e.jseq % 2 ^ jlog2 s) || degradedBelow r (1 - m) e.jseq
  else true

/-- Every entry that counts, in ascending JSEQ, each once. -/
def countedEntries (s : State) : List JEntry :=
  let es := (s.ledger.replay.present.filter (fun p => counts s p.1 p.2)).map Prod.snd
  (es.mergeSort (fun a b => decide (a.jseq ≤ b.jseq))).foldr (fun e acc =>
    match acc with
    | [] => [e]
    | x :: _ => if x.jseq = e.jseq then acc else e :: acc) []

/-- The latest entry that satisfies a test. -/
def lastEntry (p : JEntry → Bool) (es : List JEntry) : Option JEntry := (es.filter p).getLast?

/-- Whether the event of one entry came before that of another. Places are overwritten in the order in which they were
written, so an entry that is there only as a copy carried forward is older than one whose original is there; and a HOLD or
CLOSE that is there only as a copy was live when every original older than it had gone (log entry 150). -/
def JEntry.precedes (a b : JEntry) : Bool := a.carried || (!b.carried && decide (a.jseq < b.jseq))

/-- The original among the copies of an entry, when it is there. -/
def original (es : List JEntry) (p : JEntry → Bool) : Option JEntry :=
  (lastEntry (fun e => p e && !e.carried) es).or (lastEntry p es)

/-- JSEQ of a stream's latest CLOSE of PHASE 1; 0 when there is none. -/
def closedAt (es : List JEntry) (n : Nat) : Nat :=
  ((lastEntry (fun e => e.etype == 7 && e.stream == n && decide (e.param % 2 = 1)) es).map JEntry.jseq).getD 0

/-- The OPEN entry of a stream with no later CLOSE of PHASE 1. -/
def openOf (es : List JEntry) (n : Nat) : Option JEntry :=
  (lastEntry (fun e => e.etype == 6 && e.stream == n) es).filter (fun e => decide (closedAt es n < e.jseq))

/-- The streams to be restored. -/
def openStreams (es : List JEntry) : List Nat :=
  ((es.filter (fun e => e.etype == 6)).map JEntry.stream).eraseDups.filter (fun n => (openOf es n).isSome)

/-- Whether an item was accepted in a stream's present opening: after the CLOSE of PHASE 1 of the one before. -/
def ofOpening (es : List JEntry) (n ledger : Nat) : Bool :=
  decide (closedAt es n = 0) || es.any (fun e => e.etype == 1 && e.ledger == ledger && !e.carried && decide (closedAt es n < e.jseq))

/-- Whether an item has been settled. -/
def settledIn (es : List JEntry) (n : Nat) : Bool := es.any (fun e => e.etype == 5 && e.ledger == n)

/-- The ACCEPT entries of the unsettled items, in ascending ledger number, the latest copy of each. -/
def unsettledAccepts (es : List JEntry) : List JEntry :=
  let ns := ((es.filter (fun e => e.etype == 1 && !settledIn es e.ledger)).map JEntry.ledger).eraseDups
  (ns.mergeSort (fun a b => decide (a ≤ b))).filterMap (fun n => lastEntry (fun e => e.etype == 1 && e.ledger == n) es)

/-- The COMPLETE entry of an item, of its copies the one of the highest JSEQ (Table 11.11). -/
def completeIn (es : List JEntry) (n : Nat) : Option JEntry := lastEntry (fun e => e.etype == 4 && e.ledger == n) es

/-- The COMPLETE entry of the latest settled item of a stream's opening. -/
def lastSettled (es : List JEntry) (n : Nat) : Option JEntry :=
  let ns := (es.filter (fun e => e.etype == 5 && e.stream == n && ofOpening es n e.ledger)).map JEntry.ledger
  (ns.max?).bind (completeIn es)

/-! ### Text log records -/

/-- Bytes read for a record whose entry gives no length: the longest SOPEN block with its stop table, and more than
the longest carry record. -/
abbrev openLen : Nat := 1216
abbrev carryLen : Nat := 2048

/-- The text log records a replay needs, as offset and length. -/
def recordsNeeded (es : List JEntry) : List (Nat × Nat) :=
  let opens := (openStreams es).filterMap (fun n => (openOf es n).map (fun e => (e.logOff, openLen)))
  let accepts := ((unsettledAccepts es).filter (fun e => e.inLog)).map (fun e => (e.logOff, e.c % 2 ^ 32))
  let done := (unsettledAccepts es).filterMap (fun e => completeIn es e.ledger)
  let carries := ((done ++ (openStreams es).filterMap (lastSettled es)).filter (fun e => e.inLog)).map
    (fun e => (e.logOff, carryLen))
  (opens ++ accepts ++ carries).eraseDups

/-- The mirrors in which an entry that names a text log record is present: in a mirror lost before it was written the log
may hold an older record there. -/
def recordMirrors (s : State) (off : Nat) : List Nat :=
  [0, 1].filter (fun m => s.ledger.replay.present.any (fun p => p.1 == m && p.2.inLog && p.2.logOff == off))

/-- A text log record read from a mirror. -/
def readRecord (m off len : Nat) (s : State) : State :=
  let lines := (List.range (ceilDiv len 64)).map (fun i => newLine s (textAddr s m (off + 64 * i)) [])
  startAccess 1 (lineBill lines.length) .read 8 lines (.replayRec m off) s

/-- Whether a replay still reads. -/
def replayBusy (s : State) : Bool := s.accesses.any (fun a => a.job.isReplay)

/-- The bytes of a record read back; none when neither mirror gave it. -/
def recordOf (s : State) (off : Nat) : Option (List Byte) :=
  (s.ledger.replay.recs.find? (fun p => p.1 == off)).map Prod.snd

/-- The block of a stream's OPEN record. -/
def openRecord (s : State) (es : List JEntry) (n : Nat) : Option (List Byte) :=
  (openOf es n).bind (fun e => recordOf s e.logOff)

/-- The checkpoint slots of every restored stream with a grammar are read (R256, R378). -/
def readCheckpoints (s : State) : State :=
  let es := countedEntries s
  (openStreams es).foldl (fun s n =>
    match openRecord s es n with
    | none => s
    | some b =>
      if (readOpen b).gen then
        let lines := readSpan s (regionBase s 3 + n * 0x20000 + 0x2000) (4 * 8448)
        startAccess 1 (lineBill lines.length) .read 8 lines (.replayCkpt n) s
      else s) s

/-- Both rings have been read: the records follow, and then the checkpoints. -/
def ringsRead (s : State) : State :=
  let need := recordsNeeded (countedEntries s)
  if need.isEmpty then readCheckpoints s
  else need.foldl (fun s p => readRecord ((recordMirrors s p.1).headD 0) p.1 p.2 s) s

/-- A mirror's ring has been read. -/
def ringRead (m : Nat) (lines : List Line) (s : State) : State :=
  let r := lines.zipIdx.foldl (fun r p => classify s m r p) s.ledger.replay
  let s := { s with ledger := { s.ledger with replay := r } }
  if replayBusy s then s else ringsRead s

/-- Whether a record's bytes are those its ACCEPT entry names. -/
def recordGood (es : List JEntry) (off : Nat) (bs : List Byte) : Bool :=
  match lastEntry (fun e => e.etype == 1 && e.inLog && e.logOff == off) es with
  | some e => decide (crc32c (bs.take (e.c % 2 ^ 32)) = e.c / 2 ^ 32)
  | none => true

/-- A record has been read from a mirror: kept, or read from the other mirror. -/
def recRead (m off status : Nat) (lines : List Line) (s : State) : State :=
  let bs := (lines.map Line.data).flatten
  let s :=
    if status = St.OK ∧ recordGood (countedEntries s) off bs then
      { s with ledger := { s.ledger with replay := { s.ledger.replay with recs := Tab.insert s.ledger.replay.recs off bs } } }
    else if m = 0 ∧ (recordMirrors s off).contains 1 then readRecord 1 off (64 * lines.length) s
    else s
  if replayBusy s then s else readCheckpoints s

/-- The checkpoint slots of a stream have been read. -/
def ckptRead (n status : Nat) (lines : List Line) (s : State) : State :=
  if status = St.OK then
    { s with ledger := { s.ledger with replay := { s.ledger.replay with
        ckpts := Tab.insert s.ledger.replay.ckpts n ((lines.map Line.data).flatten) } } }
  else s

/-! ### Restoring (R378) -/

/-- The ledger number, the commit number and the configuration of a checkpoint slot read back. -/
def slotCfg (bs : List Byte) : Nat × Nat × Cfg :=
  let h := headerFields (bs.take 64)
  let depth := min (leAt h 4 2) 4096
  (leAt h 33 8, leAt h 25 8,
    { Cfg.empty with
      state := leAt h 0 2, grammar := leAt h 2 2, remain := leAt h 6 2,
      fields := readFields (List.replicate 48 0 ++ (h.drop 8).take 16),
      stack := ((List.range depth).map (fun i => leAt bs (64 + 2 * i) 2 % 4096)).reverse,
      finished := bit (leAt h 24 1) 0, fallen := bit (leAt h 24 1) 1 })

/-- A stream's checkpoint has been read back: NOTARY goes on from the configuration it holds (R256). -/
def ckptBack (n ledger : Nat) (data : List Byte) (s : State) : State :=
  restorePatch n ledger <| onStream n (fun x =>
    let c := (slotCfg data).2.2
    { x with notary := { x.notary with cfg := c, base := some c, onChip := min 64 c.stack.length } }) s

/-- The checkpoint of a stream's latest settled commit among its slots: slot, ledger number, commit number and
configuration. -/
def settledCkpt (s : State) (es : List JEntry) (n : Nat) : Option Ckpt :=
  match s.ledger.replay.ckpts.find? (fun p => p.1 == n) with
  | none => none
  | some p =>
    let open_ := (unsettledAccepts es).map JEntry.ledger
    let slots := (List.range 4).map (fun i =>
      let (l, c, cfg) := slotCfg ((p.2.drop (8448 * i)).take 8448)
      ({ slot := i, ledger := l, commit := c, cfg := cfg } : Ckpt))
    let good := slots.filter (fun c =>
      if c.ledger = 0 then decide (c.slot = 0)
      else ofOpening es n c.ledger && decide (c.ledger < s.ledger.next) && !open_.contains c.ledger)
    good.foldl (fun best c => match best with
      | none => some c
      | some b => if b.commit ≤ c.commit then some c else some b) none

/-- NOTARY's context of a restored stream. -/
def restoredNotary (s : State) (es : List JEntry) (n : Nat) (b : OpenBlock) : NotaryCtx :=
  let x := openNotary b (openAdv s b)
  match settledCkpt s es n with
  | none => x
  | some k => { x with
      cfg := k.cfg, base := some k.cfg, onChip := min 64 k.cfg.stack.length, count := k.slot, commitNo := k.commit,
      ckpts := [k] }

/-- The stop strings of an OPEN record. -/
def recordStops (bs : List Byte) (cnt : Nat) : List (List Byte) :=
  (List.range cnt).map (fun i =>
    let e := (bs.drop (64 + 72 * i)).take 72
    (e.drop 8).take (leAt e 0 1))

/-- The image a stream's tenant uses, with its generation. -/
def imageAndGen (s : State) (k : Nat) : Option (TokImage × Nat) :=
  (tenant s k).now.map (fun r => (r.image, r.gen))

/-- The per-stream state a COMPLETE entry's carry record holds. -/
def carryOf (s : State) (k : Nat) (stops : List (List Byte)) (e : Option JEntry) : Carry :=
  let none_ : Carry := { Carry.empty with escrow := { EscrowCtx.empty with stops := stops } }
  match e with
  | none => none_
  | some e =>
    if e.inLog then ((recordOf s e.logOff).map (readCarry (imageAndGen s k) stops)).getD none_ else none_

/-- A stream's latest paid-out mark. -/
def markIn (es : List JEntry) (n : Nat) : Nat × Nat :=
  (es.filter (fun e => e.etype == 3 && e.stream == n)).foldl (fun m e =>
    let k := e.a % 2 ^ 24
    if m.1 < e.ledger ∨ (m.1 = e.ledger ∧ m.2 < k) then (e.ledger, k) else m) (0, 0)

/-- The text of the prompt not yet ended: the bytes accepted since the last TEXT_END (R141), one copy of each ACCEPT entry of
the opening in ascending ledger number. R378 does not restore the count: acceptances whose entries are gone from the rings,
which are settled, do not count (DESIGN CHOICE, log entry 179). -/
def promptIn (es : List JEntry) (n : Nat) : Nat :=
  let as := es.filter (fun e => e.etype == 1 && e.stream == n && decide (e.param % 16 < 10) && ofOpening es n e.ledger)
  let ns := ((as.map JEntry.ledger).eraseDups).mergeSort (fun a b => decide (a ≤ b))
  let is := ns.filterMap (fun k => lastEntry (fun e => e.ledger == k) as)
  is.foldl (fun k e => if bit e.param 8 then 0 else k + e.c % 2 ^ 32) 0

/-- The records of an item that the journal holds, the latest entry of each RSEQ. -/
def outputsIn (es : List JEntry) (n : Nat) : List JEntry :=
  let os := es.filter (fun e => e.etype == 2 && e.ledger == n)
  (((os.map (fun e => e.a % 2 ^ 24)).eraseDups).mergeSort (fun a b => decide (a ≤ b))).filterMap (fun k =>
    lastEntry (fun e => decide (e.a % 2 ^ 24 = k)) os)

/-- A record from its OUTPUT entry. The entry does not say what the payload's kind is, so the bytes of the record are
its count, four times that, or 64: which, is a free value. -/
def outOf (mark : Nat × Nat) (e : JEntry) (s : State) : OutRec × State :=
  let (k, s) := takeFree s
  let cnt := bits e.a 24 13
  let r := e.a % 2 ^ 24
  ({ rseq := r, count := cnt, last := bit e.a 37, textEnd := bit e.a 38, eos := bit e.a 39, sink := bits e.a 40 4,
     addr := e.b, bytes := if k % 3 = 0 then cnt else if k % 3 = 1 then 4 * cnt else 64, check := e.c % 2 ^ 32,
     delivered := decide (e.ledger < mark.1) || (decide (e.ledger = mark.1) && decide (r ≤ mark.2)) }, s)

/-- An unsettled item from its entries. -/
def itemOf (es : List JEntry) (e : JEntry) (s : State) : State :=
  let n := e.stream
  let (outs, s) := (outputsIn es e.ledger).foldl (fun (a : List OutRec × State) o =>
    let (x, s) := outOf (markIn es n) o a.2
    (a.1 ++ [x], s)) ([], s)
  let stops := (stream s n).escrow.stops
  let k := bits e.param 4 4
  let c := completeIn es e.ledger
  let bytes := ((recordOf s e.logOff).getD []).take (e.c % 2 ^ 32)
  let posted := decide (e.param % 16 = 10)
  let i : Item :=
    { ledger := e.ledger, stream := n, source := e.param % 16, tenant := k, textEnd := bit e.param 8,
      eos := bit e.param 9, settle := headerPos e.a,
      place := if posted || decide (e.c % 2 ^ 32 = 0) then .bytes [] else if e.inLog then .bytes bytes
        else .stack (e.b % 2 ^ 48),
      len := if posted then 0 else e.c % 2 ^ 32, route := none, entry := if posted then bytes else [],
      logOff := if e.inLog then e.logOff else 0, jseq := e.jseq, outs := outs,
      status := (c.map JEntry.status).getD St.OK, flags := (c.map (fun c => c.c % 256)).getD 0, owner := none,
      ended := none, completing := false, complete := c.isSome, settled := false, replaying := false, asReplay := (c.map JEntry.replay).getD false, replays := 0, reposts := 0,
      poison := false, dropped := false, deep := false, banks := [], emitted := [],
      after := c.map (fun c => carryOf s k stops (some c)) }
  addItem i s

/-- The latest OUTPUT entry of a record of a stream's present opening in its output region. -/
def lastOutput (es : List JEntry) (n : Nat) : Option JEntry :=
  (es.filter (fun e => e.etype == 2 && e.stream == n && decide (bits e.a 40 4 = Hop.STACK) && ofOpening es n e.ledger)).foldl
    (fun best e => match best with
      | none => some e
      | some b => if b.ledger < e.ledger ∨ (b.ledger = e.ledger ∧ b.a % 2 ^ 24 ≤ e.a % 2 ^ 24) then some e else best) none

/-- The end of the last record of a stream that the journal holds (R532), which may be of a settled item. -/
def writeEnd (es : List JEntry) (n start : Nat) (s : State) : Nat × State :=
  match lastOutput es n with
  | none => (start, s)
  | some e =>
    match ((s.ledger.items.filter (fun i => i.ledger == e.ledger)).map Item.outs).flatten.find? (fun o => o.rseq == e.a % 2 ^ 24) with
    | some o => (o.addr + recordSpan o.bytes, s)
    | none =>
      let (o, s) := outOf (0, 0) e s
      (o.addr + recordSpan o.bytes, s)

/-- A restored stream's context. -/
def restoreOpen (es : List JEntry) (n : Nat) (s : State) : State :=
  match openRecord s es n with
  | none => s
  | some bs =>
    let b := readOpen bs
    let stops := recordStops bs b.stopCnt
    let m := markIn es n
    let c := carryOf s b.tenant stops (lastSettled es n)
    let x := openStream b stops none
    let nt := restoredNotary s es n b
    let top := ((es.filter (fun e => e.etype == 1 && e.stream == n && ofOpening es n e.ledger)).map JEntry.ledger).foldl max 0
    let lastAcc := original es (fun e => e.etype == 1 && e.stream == n && e.ledger == top)
    let held := es.any (fun e => e.etype == 8 && e.stream == n && decide (closedAt es n < e.jseq)
      && (match lastAcc with | some a => a.precedes e | none => true))
    setStream n { x with
      st := if held then .held else if nt.cfg.over then .dead else .opened,
      heldAt := if held then Hop.TELLER else 0, notary := nt, assay := c.assay.restored, sorter := c.sorter, escrow := c.escrow,
      base := some c, paidL := m.1, paidS := m.2, lastLedger := (lastAcc.map JEntry.ledger).getD 0,
      promptBytes := promptIn es n } s

/-- The CLOSE of PHASE 0 of a stream's opening that counts. -/
def closingIn (es : List JEntry) (n : Nat) : Option JEntry :=
  original es (fun e => e.etype == 7 && e.stream == n && decide (e.param % 2 = 0) && decide (closedAt es n < e.jseq))

/-- Whether an item's payload or entry could be read back. -/
def payloadThere (s : State) (e : JEntry) : Bool := !e.inLog || (recordOf s e.logOff).isSome

/-- An unsettled item of a restored stream is issued again, or completes with ST_DEAD behind a close. -/
def replayAccept (es : List JEntry) (s : State) (e : JEntry) : State :=
  let n := e.stream
  if (openOf es n).isNone || !ofOpening es n e.ledger then s
  else if (match closingIn es n, original es (fun x => x.etype == 1 && x.ledger == e.ledger) with
      | some c, some a => !a.carried && c.precedes a
      | _, _ => false) then completeItem e.ledger St.DEAD .nothing s
  else if payloadThere s e then reissue false e.ledger s
  else completeItem e.ledger St.STACK_ERR .nothing s

/-- The rings as the block continues them: from the first live entry on, places that hold nothing counted as
dead. -/
def ringFrom (es : List JEntry) (s : State) : List JEntry :=
  let live := es.filter (fun e => entryLive { s with ledger := { s.ledger with ring := es } } e)
  match live.head? with
  | none => []
  | some f => (List.range (s.ledger.jseq - f.jseq)).map (fun k =>
      (es.find? (fun e => e.jseq == f.jseq + k)).getD { entry 0 0 0 0 0 0 0 0 false with jseq := f.jseq + k })

/-- The length of the record an entry names. -/
def namedLen (s : State) (e : JEntry) : Nat :=
  if e.etype = 1 then e.c % 2 ^ 32
  else if e.etype = 6 then 64 + 72 * (readOpen ((recordOf s e.logOff).getD [])).stopCnt
  else ((carrySections 4 ((recordOf s e.logOff).getD [])).map (fun p => ceilDiv (4 + p.2.length) 4 * 4)).sum

/-- The text log as the block continues it: the live records from the tail, with what lies between them. -/
def textFrom (es : List JEntry) (s : State) : Nat × List (Nat × Nat × List Byte) :=
  let size := 2 ^ tlog2 s
  let named := es.filter JEntry.inLog
  let head := match named.getLast? with
    | some e => (e.logOff + ceilDiv (namedLen s e) 64 * 64) % size
    | none => 0
  let live := (named.filter (fun e => entryLive s e)).map (fun e => (e.logOff, namedLen s e))
  let dist (o : Nat) : Nat := (o % size + size - head) % size
  let sorted := live.eraseDups.mergeSort (fun a b => decide (dist a.1 ≤ dist b.1))
  let (recs, _) := sorted.foldl (fun (a : List (Nat × Nat × List Byte) × Option Nat) p =>
    let gap := match a.2 with
      | some q => if dist q < dist p.1 then [(q, dist p.1 - dist q, [])] else []
      | none => []
    (a.1 ++ gap ++ [(p.1, p.2, ((recordOf s p.1).getD []).take p.2)], some ((p.1 + ceilDiv p.2 64 * 64) % size))) ([], none)
  (head, recs)

/-- The larger of a key slot's mark and what the journal held is the mark (R408). -/
def restoreMarks (es : List JEntry) (s : State) : State :=
  (List.range 4).foldl (fun s k =>
    { s with kcw := { s.kcw with marks := Tab.set 0 s.kcw.marks k (max (Tab.get 0 s.kcw.marks k) (heldMark s es k)) } }) s

/-- The replay of R378, once the mirrors have been read. -/
def replayAll (s : State) : State :=
  let es := countedEntries s
  let copies := s.ledger.replay.present.map Prod.snd
  let s := { s with
    streams := [],
    ledger := { s.ledger with
      next := (copies.map JEntry.ledger).foldl max 0 + 1, jseq := (copies.map JEntry.jseq).foldl max 0 + 1,
      items := [] } }
  let s := (openStreams es).foldl (fun s n => restoreOpen es n s) s
  let as := unsettledAccepts es
  let s := as.foldl (fun s e => itemOf es e s) s
  let s := (openStreams es).foldl (fun s n =>
    let (p, s) := writeEnd es n (stream s n).outPtr s
    onStream n (fun x => { x with
      wptr := p, closeAfter := (closingIn es n).map (fun c => bits c.param 1 2) }) s) s
  let s := restoreMarks es s
  let ring := ringFrom es s
  let s := { s with ledger := { s.ledger with
    ring := ring, jtail := ((ring.head?).map JEntry.jseq).getD s.ledger.jseq } }
  let (head, text) := textFrom es s
  let s := { s with ledger := { s.ledger with thead := head, text := text } }
  let s := (openStreams es).foldl (fun s n => restorePatch n 0 s) s
  as.foldl (replayAccept es) s

/-- REPLAY_DONE (R378): once everything has been read, the streams and items are restored, the START entry written. -/
def execReplayDone (s : State) : Host.Outcome State Fault Refusal :=
  if !ledgerUp s || !s.ledger.replaying || replayBusy s then .next s
  else
    let es := countedEntries s
    let s := replayAll s
    let s := if s.ledger.next = 1 then { s with emitted := [] } else s
    let s := { s with ledger := { s.ledger with replaying := false, replay := ReplayState.none } }
    .next (sweep (writeStart es s))

end Sys2Proof.Machine
end

