-- ==== Sys2Proof/Machine/Resets.lean ====
section
/-!
DEFINITION. What the reset of each clock domain does to the work in flight and to the domain's state (R478, R480,
R481, Table 15.3).
-/

namespace Sys2Proof.Machine

/-! ### Lanes cut by a reset (R478, Table 4.10) -/

/-- A chunk cut by a reset: counted, and in the TEL_ERR log. -/
def cutChunk (s : State) (c : Chunk) : State :=
  logFirst R.TEL_ERR_LO (c.stream + c.source * 2 ^ 12 + St.PEER_RESET * 2 ^ 16) R.TEL_ERR_HI c.tag
    (bump R.TEL_PEER 1 s)

/-- A lane's chunks are cut, and what was bought for its next one is waited for no longer. -/
def cutLane (s : State) (l : Nat) : State :=
  let s := setLane l [] ((laneBuf s l).foldl cutChunk s)
  { s with purse := { s.purse with queue := s.purse.queue.filter (fun p =>
      decide (p.what ≠ .command (laneCommand l))) } }

/-- The tags of a lane's chunks without an answer are kept, to be answered after the reset (R138): that of the chunk in
acceptance, and those of its buffer. -/
def keepTags (s : State) (l : Nat) : State :=
  { s with teller := { s.teller with
      cut := Tab.set [] s.teller.cut l
        (Tab.get [] s.teller.cut l ++ ((acceptingChunks s).filter (fun c => decide (c.source = l)) ++ laneBuf s l).map
          (fun c => (c.stream, c.tag))) } }

/-- The cut chunks of a lane are answered with ST_PEER_RESET. -/
def answerCut (s : State) (l : Nat) : State :=
  let s := (Tab.get [] s.teller.cut l).foldl (fun s x =>
    answerLane { laneChunkOf l 0 [] with stream := x.1, tag := x.2 } St.PEER_RESET 0 s) s
  { s with teller := { s.teller with cut := Tab.set [] s.teller.cut l [] } }

/-- Reset of ING p: lanes 2p and 2p + 1 and their response queue. -/
def resetIngress (p : Nat) (s : State) : State :=
  let s := cutLane (cutLane s (2 * p)) (2 * p + 1)
  { s with teller := { s.teller with resp := Tab.set [] s.teller.resp p [] } }

/-! ### Stations -/

/-- The streams of some tiles, each once. -/
def tileStreams (ts : List Tile) : List Nat := (ts.map Tile.stream).eraseDups

/-- Several streams replayed (R384). -/
def replayStreams (ns : List Nat) (s : State) : State := ns.foldl (fun s n => replayStream n s) s

/-- The rows of an image that a load was writing, or waited to, are bought again from the first (R436). -/
def rowsAgain (s : State) : State :=
  { s with purse := { s.purse with queue := s.purse.queue.map (fun p => match p.what with
    | .command (.imageLoadDone data _) =>
      { p with bill := ((tokImage data).map (fun im => [(64, im.rows)])).getD p.bill }
    | _ => p) } }

/-- Reset of MATCH: SORTER's tiles and search state; their streams replay. -/
def resetMatch (s : State) : State :=
  let s := rowsAgain s
  let open_ := (s.streams.filter (fun p =>
    !p.2.sorter.buf.isEmpty || !p.2.sorter.run.isEmpty || p.2.building.any (fun b => b.1 == Hop.SORTER))).map Prod.fst
  replayStreams (tileStreams (queueAt s Hop.SORTER) ++ open_).eraseDups s

/-- Tiles whose overflow reads are under way. -/
def overflowTiles (s : State) : List Tile :=
  (s.accesses.map (fun a => match a.job with
    | .overflow t _ => [t]
    | _ => [])).flatten

/-- The patrol scrub starts a new pass. -/
def restartScrub (s : State) : State :=
  { s with reserve := { s.reserve with weakNew := [], visits := 0, dirty := [], left := reloading s } }

/-- The purchases without those of scrub visits: a visit that waits for coins when its domain resets is discarded
(R436). -/
def dropVisits (s : State) : State :=
  { s with purse := { s.purse with queue := s.purse.queue.filter (fun p => match p.what with
    | .command (.patrolScrub _) => false
    | _ => true) } }

/-- Reset of VAULT: MINT's waiting pieces replay, the scrub starts a new pass. -/
def resetVault (s : State) : State :=
  startWaiting <| dropVisits <| restartScrub (replayStreams (tileStreams (queueAt s Hop.MINT ++ overflowTiles s)) { s with prefetch := [] })

/-- Whether an item that is not complete settles at a step of a stream, so that its replay finds the row again. -/
def itemAtStep (s : State) (n step : Nat) : Bool :=
  s.ledger.items.any (fun i => i.stream == n && !i.settled && !i.complete && stepOf i.settle == step)

/-- A row discarded by a reset: its tile, when no replayed item brings it, completes under R116. -/
def resetRow (s : State) (r : Row) : State :=
  if itemAtStep s r.stream r.step then s else stepLost r.stream r.step s

/-- A waiting purchase of CLEARING's work on a list. -/
def Purchase.ofList (p : Purchase) : Bool :=
  match p.what with
  | .command (.nearBankList _ _) => true
  | _ => false

/-- Reset of CLEAR: tiles and rows are discarded, with the purchases of lists, and their streams replay. -/
def resetClear (s : State) : State :=
  let s := { s with purse := { s.purse with queue := s.purse.queue.filter (fun p => !p.ofList) } }
  let rows := s.clear.rows ++ s.clear.port.toList
  let ns := (s.clear.tiles.map (fun c => c.tile.stream) ++ rows.map Row.stream).eraseDups
  rows.foldl resetRow (replayStreams ns { s with clear := { s.clear with tiles := [], rows := [], port := none } })

/-- Reset of LOGIT: the row on the ports is discarded, also where it is on its way to the lanes; the item that waits for it
replays, else its step is lost. -/
def resetLogit (s : State) : State :=
  let rows := s.clear.port.toList ++ s.clear.rows.filter (fun r => !r.held)
  rows.foldl (fun s r => if itemAtStep s r.stream r.step then replayStream r.stream s else stepLost r.stream r.step s)
    { s with clear := { s.clear with port := none, rows := s.clear.rows.filter Row.held } }

/-- Reset of EGR p: the record under way starts again, the first in front of its sink (R327). -/
def resetEgress (p : Nat) (s : State) : State :=
  let e := egress s p
  match e.cur with
  | none => s
  | some r => setEgress p { e with cur := none } (setQueueAt (9 + p) (r.tile :: queueAt s (9 + p)) s)

/-- A line outstanding on a port that resets: sent again, counted as one retry (R357). -/
def resetLine (max p : Nat) (l : Line) : Line :=
  if l.port = p ∧ (l.st = .out ∨ l.st = .backoff) then
    if max ≤ l.retries then { l with st := .gone St.STACK_BUSY }
    else { l with st := .unsent, retries := l.retries + 1 }
  else l

/-- Reset of MEM p. -/
def resetMemPort (p : Nat) (s : State) : State :=
  let n := ((s.accesses.map Access.lines).flatten.filter (fun l =>
    decide (l.port = p) && (decide (l.st = .out) || decide (l.st = .backoff)))).length
  let max := regField s R.STK_RETRY 0 5
  bump R.STK_DEFER n { s with
    accesses := s.accesses.map (fun a => { a with lines := a.lines.map (resetLine max p) }) }

/-- Reset of BEAT: freeze with CAUSE 0; the position is kept (R103). -/
def resetBeat (s : State) : State := freeze 0 s

/-- Queues 2 and 3 are emptied. -/
def emptyDebug (s : State) : State := { s with queue2 := Queue.empty, queue3 := Queue.empty }

/-- Reset of DBG: queues 2 and 3, the trace port and the test access. -/
def resetDebug (s : State) : State := { emptyDebug s with trcOut := 0, testOut := 0 }

/-- Reset of MON: a sweep in progress ends without an action of the planner. -/
def resetMon (s : State) : State :=
  (s.reserve.acts.filter (fun a => decide (a.code = Act.sweep))).foldl (fun s a => endActivity a s) s

/-! ### CORE (R481) -/

/-- Whether an access survives a reset of CORE: those of RESERVE and of the repair map. -/
def Job.survivesCore : Job → Bool
  | .mapRead _ => true
  | .mapWrite _ _ => true
  | .golden _ _ => true
  | .reload _ => true
  | .replacedTables _ => true
  | .placed _ _ => true
  | .placedGrammar _ _ => true
  | .placedSet _ _ => true
  | _ => false

/-- Whether a purchase survives a reset of CORE: the loader's, and those of accesses that survive. -/
def survivingPurchase (s : State) (p : Purchase) : Bool :=
  match p.what with
  | .command .loadImage => true
  | .command (.patrolScrub _) => true
  | .command (.imageLoadDone _ _) => true
  | .command _ => false
  | .access n => s.accesses.any (fun a => a.ident == n)

/-- Reset of CORE: CLERK threads, station state, the LEDGER's own state; the journal closes. -/
def resetCore (s : State) : State :=
  let s := (List.range 8).foldl keepTags s
  let s := (List.range 8).foldl cutLane s
  let s := dropAccesses (fun a => !a.job.survivesCore) s
  { s with
    threads := [], tickets := [], ticketNext := [], lastIssued := [], streams := [], hops := [], prefetch := [],
    day := { s.day with queues := [], fetches := [] },
    teller := { s.teller with queue := [], cuts := [] },
    clear := { s.clear with tiles := [], rows := [], port := none, seen := [], marks := [] },
    egress0 := { s.egress0 with cur := none }, egress1 := { s.egress1 with cur := none },
    queue0 := Queue.empty, queue1 := Queue.empty,
    ledger := { LedgerState.closed with
      placed0 := s.ledger.placed0, placed1 := s.ledger.placed1, freshEn := s.ledger.freshEn },
    purse := { s.purse with queue := s.purse.queue.filter (survivingPurchase s) } }

/-- CORE is out of reset: cut chunks are answered, and the journal replays whole when LDG_CTRL.EN is set (R481). -/
def releaseCore (s : State) : State := openStored ((List.range 8).foldl answerCut s)

/-! ### One domain -/

/-- What a reset of clock domain `d` of Table 15.2 clears. -/
def resetEffect (d : Nat) (s : State) : State :=
  if d = 1 then resetCore s
  else if d = 2 then resetMatch s
  else if d = 3 then resetVault s
  else if d = 4 then resetClear s
  else if d ≤ 12 then resetMemPort (d - 5) s
  else if d ≤ 16 then resetIngress (d - 13) s
  else if d ≤ 18 then resetEgress (d - 17) s
  else if d = 19 then resetLogit s
  else if d = 20 then { s with heldLo := [] }
  else if d = 21 then resetBeat s
  else if d = 23 then resetDebug s
  else if d = 25 then resetMon s
  else s

/-- Whether a clock domain is in reset. -/
def inReset (s : State) (d : Nat) : Bool := !clkUp s d

/-- A clock domain enters reset. -/
def enterReset (d : Nat) (s : State) : State := setRegBit R.PWR_RSTSEEN (d - 1) (resetEffect d s)

/-- A clock domain is out of reset. -/
def leaveReset (d : Nat) (s : State) : State := if d = 1 then releaseCore s else s

end Sys2Proof.Machine
end

