-- ==== Sys2Proof/Machine/Keyed.lean ====
section
/-!
DEFINITION. Keyed commands (R396 to R418): the checks at GO, the marks and their journal entries, what each command
does, and the key port.
-/

namespace Sys2Proof.Machine

/-! ### The command in the window (R404) -/

/-- The operand registers as 64 bytes. -/
def operandBytes (s : State) : List Byte := ((List.range 16).map (fun i => toLE 4 (reg s (R.KCW_OPND0 + 4 * i)))).flatten

/-- The command the window's registers hold. -/
def windowRun (s : State) : KcwRun :=
  let c := reg s R.KCW_CMD
  { opcode := bits c 0 8, slot := bits c 8 2, counter := reg s R.KCW_CTR_LO + 2 ^ 32 * reg s R.KCW_CTR_HI,
    olen := bits c 16 7, ops := operandBytes s,
    tag := toLE 4 (reg s R.KCW_TAG_LO) ++ toLE 4 (reg s R.KCW_TAG_HI), cmdWord := c, stage := .ready, status := St.OK,
    key := 0, bound := none }

/-- Slot and OLEN of an opcode (Table 12.1). -/
def keyedForm (op : Nat) : Option (Nat × Nat) :=
  match op with
  | 1 => some (1, 32)
  | 2 => some (0, 8)
  | 3 => some (2, 8)
  | 4 => some (0, 48)
  | 5 => some (0, 0)
  | 6 => some (3, 8)
  | _ => none

/-- Whether a command has the form of Table 12.1 and no reserved bit is set. -/
def formGood (r : KcwRun) : Bool :=
  decide (keyedForm r.opcode = some (r.slot, r.olen)) && decide (bits r.cmdWord 10 6 = 0) && decide (r.cmdWord / 2 ^ 23 = 0)
    && (r.ops.drop r.olen).all (· == 0)

/-- The message of R398. -/
def keyedMessage (s : State) (r : KcwRun) (epoch : Word) : List Byte :=
  toLE 8 (r.opcode + r.slot * 2 ^ 8 + r.olen * 2 ^ 16 + 2 ^ 32) ++ toLE 8 r.counter ++ toLE 8 s.instId.toNat
    ++ toLE 8 epoch.toNat ++ r.ops.take r.olen

/-- The key of a slot. -/
def slotKey (s : State) (k : Nat) : Option (BitVec 128) := Tab.get none s.kcw.keys k

/-- The mark of a slot (R399). -/
def slotMark (s : State) (k : Nat) : Nat := Tab.get 0 s.kcw.marks k

/-! ### What the commands do (R412 to R417) -/

/-- SET_CEILING (R412); an allowance above the new ceiling takes its value (R420). -/
def setCeiling (r : KcwRun) (s : State) : State :=
  let w := operandWord r 0
  if w / 2 ^ 16 ≠ 0 ∨ w < s.build.size.floor ∨ s.build.size.ceilMax < w then endKeyed St.BAD_OP s
  else endKeyed St.OK (setReg R.PUR_ALLOW (min w (reg s R.PUR_ALLOW)) (setReg R.PUR_CEIL w s))

/-- Whether the stack settings may change (R335): no CLERK runs, every stream is FREE, no image load is under way. -/
def stackSettable (s : State) : Bool :=
  !anyClerkRuns s && allFree s && !(s.reserve.acts.any (fun a => decide (a.code = Act.load)))

/-- A hash row written. -/
def setHashRow (j v : Nat) (s : State) : State := setReg (hashKey j) (v % 2 ^ 32) (setReg (hashKey j + 1) (v / 2 ^ 32) s)

/-- SET_HASH (R414, R415). -/
def setHash (r : KcwRun) (s : State) : State :=
  let v := ofLE (r.ops.take 48)
  if v / 2 ^ 378 ≠ 0 ∨ !stackSettable s then endKeyed St.BAD_OP s
  else
    let s := (List.range 9).foldl (fun s j => setHashRow j (bits v (42 * j) 42) s) s
    endKeyed St.OK { s with kcw := { s.kcw with hashLock := true } }

/-- The clock domains whose reset ZEROISE acts as: every row of Table 15.3 but those of PD_BASE, REG and KEY. -/
def zeroDomains : List Nat := (List.range 19).map (· + 1) ++ [21, 23, 25]

/-- The activities that end with ZEROISE: every one, for what they fill is written with 0 (Table 14.11). -/
def endActivities (s : State) : State :=
  { s with reserve := { s.reserve with acts := [], waits := [], quiesce := 0 } }

/-- On-chip contents written with 0 (R416, Table 16.1). -/
def zeroContents (s : State) : State :=
  { s with
    prog := [], scratch := [], streams := [], hops := [], tenants := [], prefetch := [], grammars := [], maskSets := [],
    clear := { s.clear with tiles := [], rows := [], port := none, seen := [], marks := [] },
    reserve := { s.reserve with poisoned := [] } }

/-- ZEROISE (R416); it ends once the zeroing is complete. -/
def startZeroise (s : State) : State :=
  let s := zeroDomains.foldl (fun s d => resetEffect d s) s
  let s := (List.range 8).foldl answerCut s
  let s := endActivities (dropAccesses (fun _ => true) s)
  let s := { s with
    purse := { s.purse with queue := [], balance := 0 },
    kcw := { s.kcw with keys := [], scopes := 0, hashLock := false } }
  setStage .zeroing (clearRegBit R.LDG_CTRL 0 (zeroContents s))

/-- DEBUG_UNLOCK (R417). -/
def debugUnlock (r : KcwRun) (s : State) : State :=
  let w := operandWord r 0
  if w = 0 ∨ w / 2 ^ 3 ≠ 0 then endKeyed St.BAD_OP s
  else endKeyed St.OK { s with kcw := { s.kcw with scopes := s.kcw.scopes ||| w } }

/-- A command carried out. -/
def carryOut (s : State) : State :=
  match s.kcw.run with
  | none => s
  | some r =>
    if r.opcode = 1 then startLoad r s
    else if r.opcode = 2 then setCeiling r s
    else if r.opcode = 3 then startRepair r s
    else if r.opcode = 4 then setHash r s
    else if r.opcode = 5 then startZeroise s
    else debugUnlock r s

/-! ### Checks at GO (Table 12.3) -/

/-- A command taken: its mark is raised and journalled, and its effect follows (R399, R407, R408). -/
def takeKeyed (r : KcwRun) (key : BitVec 128) (s : State) : State :=
  let s := bump R.KCW_DONE 1 (onRun (fun x => { x with key := key }) s)
  let s := { s with kcw := { s.kcw with
    marks := Tab.set 0 s.kcw.marks r.slot r.counter, fails := Tab.set 0 s.kcw.fails r.slot 0 } }
  if s.ledger.ready then
    journal (entry 9 0 0 (r.slot + r.opcode * 4) 0 r.counter ((s.kcw.epoch.map BitVec.toNat).getD 0) 0 false) []
      (.hwm r.slot r.counter) (setStage .journal s)
  else carryOut { s with kcw := { s.kcw with hwmPend := true } }

/-- A wrong tag: counted; the eighth in a row on a slot starts its back-off (R405). -/
def tagFailed (r : KcwRun) (s : State) : State :=
  let n := Tab.get 0 s.kcw.fails r.slot + 1
  let s := { s with kcw := { s.kcw with
    fails := Tab.set 0 s.kcw.fails r.slot (min n 8),
    backoff := Tab.set false s.kcw.backoff r.slot (decide (8 ≤ n)) } }
  endKeyed St.TAG (bump R.KCW_TAGFAIL 1 s)

/-- The checks of a command against epoch, key, tag and mark. -/
def checkKeyed (r : KcwRun) (s : State) : State :=
  match s.kcw.epoch, slotKey s r.slot with
  | some e, some k =>
    if cmacTag (keyBytes k) (keyedMessage s r e) ≠ r.tag then tagFailed r s
    else
      let s := { s with kcw := { s.kcw with fails := Tab.set 0 s.kcw.fails r.slot 0 } }
      if r.counter ≤ slotMark s r.slot then endKeyed St.COUNTER (bump R.KCW_CTRFAIL 1 s)
      else takeKeyed r k s
  | _, _ => endKeyed St.KEY_EMPTY s

/-- A command that waits for READY, for the KEY domain or for its slot's back-off is checked when none holds it
(R405, R506). -/
def checkHeld (s : State) : State :=
  match s.kcw.run with
  | none => s
  | some r =>
    if !(decide (r.stage = .ready) || decide (r.stage = .backoff)) || decide (s.boot.phase ≠ 6) || !clkUp s 24 then s
    else if !formGood r then endKeyed St.BAD_OP s
    else if Tab.get false s.kcw.backoff r.slot then setStage .backoff s
    else checkKeyed r s

/-- GO: ignored while a command runs. -/
def goKeyed (s : State) : State :=
  if s.kcw.run.isSome then s else checkHeld { s with kcw := { s.kcw with run := some (windowRun s) } }

/-- GO with a command in the window that satisfies a test. -/
def goWith (p : KcwRun → Bool) (s : State) : Host.Outcome State Fault Refusal :=
  viaPort s (fun s => .next (if p (windowRun s) then sweep (goKeyed s) else s))

/-- Whether the window holds a REPAIR with an action. -/
def isRepair (a : Nat) (r : KcwRun) : Bool := decide (r.opcode = 3) && decide ((readRepair (operandWord r 0)).action = a)

/-- LOAD_IMAGE submitted (R409). -/
def execLoadImage (s : State) : Host.Outcome State Fault Refusal := goWith (fun r => decide (r.opcode = 1)) s

/-- SET_CEILING submitted (R412). -/
def execSetCeiling (s : State) : Host.Outcome State Fault Refusal := goWith (fun r => decide (r.opcode = 2)) s

/-- REPAIR with action REMAP_ROW submitted (R413, R458). -/
def execRemapRow (s : State) : Host.Outcome State Fault Refusal := goWith (isRepair 1) s

/-- REPAIR with action RETIRE submitted. -/
def execRetire (s : State) : Host.Outcome State Fault Refusal := goWith (isRepair 2) s

/-- REPAIR with action RESTORE submitted. -/
def execRestore (s : State) : Host.Outcome State Fault Refusal := goWith (isRepair 3) s

/-- REPAIR with action MARGIN submitted. -/
def execMargin (s : State) : Host.Outcome State Fault Refusal := goWith (isRepair 4) s

/-- SET_HASH submitted (R414). -/
def execSetHash (s : State) : Host.Outcome State Fault Refusal := goWith (fun r => decide (r.opcode = 4)) s

/-- ZEROISE submitted (R416). -/
def execZeroise (s : State) : Host.Outcome State Fault Refusal := goWith (fun r => decide (r.opcode = 5)) s

/-- DEBUG_UNLOCK submitted (R417). -/
def execDebugUnlock (s : State) : Host.Outcome State Fault Refusal := goWith (fun r => decide (r.opcode = 6)) s

/-- A command with an opcode not in Table 12.1, or a REPAIR of no action of Table 14.5, submitted. -/
def execMalformedKeyedCommand (s : State) : Host.Outcome State Fault Refusal :=
  goWith (fun r => (keyedForm r.opcode).isNone
    || (decide (r.opcode = 3) && !((List.range 4).any (fun a => isRepair (a + 1) r)))) s

/-- ZEROISE_DONE: the zeroing is complete, and the automatic scrub goes on with a new pass. -/
def execZeroiseDone (s : State) : Host.Outcome State Fault Refusal :=
  .next (if atStage s 5 .zeroing then automaticPass (endKeyed St.OK s) else s)

/-- DLOCK: every debug scope closes (R417). -/
def lockDebug (s : State) : State := { s with kcw := { s.kcw with scopes := 0 } }

/-- DLOCK. -/
def execDlock (s : State) : Host.Outcome State Fault Refusal := viaPort s (fun s => .next (lockDebug s))

/-! ### The key port (R400 to R403, R405) -/

/-- Whether the key port takes deliveries. -/
def keyPortUp (s : State) : Bool := clkUp s 24

/-- KEY_EPOCH (R401). -/
def execKeyEpoch (e : Word) (s : State) : Host.Outcome State Fault Refusal :=
  if !keyPortUp s then .next s
  else match s.kcw.epoch with
    | none => .next { s with kcw := { s.kcw with epoch := some e } }
    | some x => .next (if x = e then s else setRegBit R.KCW_STAT 11 s)

/-- The key of a slot replaced or emptied; a delivery is taken after the epoch, and is done before a command of the slot
reaches its tag check (R403). -/
def setKey (slot : Nat) (k : Option (BitVec 128)) (s : State) : State :=
  if keyPortUp s && decide (slot < 4) && s.kcw.epoch.isSome then
    { s with kcw := { s.kcw with keys := Tab.set none s.kcw.keys slot k } }
  else s

/-- KEY_DELIVERY (R400). -/
def execKeyDelivery (slot : BitVec 3) (key : BitVec 128) (s : State) : Host.Outcome State Fault Refusal :=
  .next (setKey slot.toNat (some key) s)

/-- KEY_CLEAR (R400). -/
def execKeyClear (slot : BitVec 3) (s : State) : Host.Outcome State Fault Refusal := .next (setKey slot.toNat none s)

/-- TAG_BACKOFF_END (R405): the slot's next command is checked. -/
def execTagBackoffEnd (slot : BitVec 3) (s : State) : Host.Outcome State Fault Refusal :=
  .next (sweep (checkHeld { s with kcw := { s.kcw with backoff := Tab.set false s.kcw.backoff slot.toNat false } }))

end Sys2Proof.Machine
end

