-- ==== Sys2Proof/Machine/Finish.lean ====
section
/-!
DEFINITION. The end of accesses (R349 to R352, R468, R528): responses of the memory ports, what each requester does with
the end of its access, what follows a journal entry, and the quiescing of a channel (R355).
-/

namespace Sys2Proof.Machine

/-! ### Accesses that have ended (R528) -/

/-- Whether a line has been answered or has ended. -/
def Line.over (l : Line) : Bool :=
  match l.st with
  | .gone _ => true
  | _ => false

/-- Whether a line has ended with a status. -/
def Line.endedWith (st : Nat) (l : Line) : Bool := decide (l.st = .gone st)

/-- The one status of an access that has ended. -/
def Access.status (a : Access) : Nat :=
  if a.lines.any (Line.endedWith St.STACK_ERR) then St.STACK_ERR
  else if a.lines.any (Line.endedWith St.STACK_BUSY) then St.STACK_BUSY
  else St.OK

/-- The bytes an access has read. -/
def Access.data (a : Access) : List Byte := (a.lines.map Line.data).flatten

/-- Whether an access writes to the LEDGER's mirrors. -/
def Job.toMirrors : Job → Bool
  | .journal _ _ => true
  | .logged _ _ => true
  | _ => false

/-- Whether an access reads or writes the repair map. -/
def Job.ofMap : Job → Bool
  | .mapRead _ => true
  | .mapWrite _ _ => true
  | _ => false

/-- The state with a mirror marked lost. -/
def markLost (m : Nat) (s : State) : State :=
  { s with ledger := if m = 0 then { s.ledger with lost0 := true } else { s.ledger with lost1 := true } }

/-- Whether a line of a journal write need no longer be waited for: its mirror is lost (R376). -/
def lineLost (s : State) (a : Access) (l : Line) : Bool :=
  a.job.toMirrors && !(liveMirrors s).contains (mirrorOf s l.addr)

/-- Whether an access has ended, so that its requester goes on. -/
def accessEnded (s : State) (a : Access) : Bool := a.paid && a.lines.all (fun l => l.over || lineLost s a l)

/-- The entry an access writes, or writes the text log record of. -/
def Job.entry? : Job → Option JEntry
  | .journal e _ => some e
  | .logged e _ => some e
  | _ => none

/-- The tile of an item whose payload an access reads for TELLER. -/
def Job.chunkTile : Job → Option Tile
  | .payload t _ _ => some t
  | .logPayload t _ _ _ => some t
  | _ => none

/-- Whether the effect of one access comes after that of another: completions follow one another in journal order
(R371), and so do the acceptances, the records and the read payloads of one stream (R44). -/
def Access.follows (a b : Access) : Bool :=
  match a.job, b.job with
  | .flowPayload t _ _, .flowPayload u _ _ => decide (t.stream = u.stream) && decide (b.ident < a.ident)
  | x, y =>
    match x.chunkTile, y.chunkTile with
    | some t, some u => decide (t.stream = u.stream) && decide (b.ident < a.ident)
    | _, _ =>
    match x.entry?, y.entry? with
    | some d, some e => decide (e.jseq < d.jseq) && decide (d.etype = e.etype) && !d.carried && !e.carried
        && (decide (d.etype = 4) || ((decide (d.etype = 1) || decide (d.etype = 2)) && decide (d.stream = e.stream)))
    | _, _ => false

/-- The first access that has ended and that no other one must precede. -/
def firstEnded (s : State) : Option Access :=
  s.accesses.find? (fun a => accessEnded s a && !s.accesses.any (fun b => a.follows b))

/-! ### Failures -/

/-- The item an access works for; 0 when there is none. -/
def Job.item : Job → Nat
  | .journal e _ => e.ledger
  | .logged e _ => e.ledger
  | .logEntry l _ _ => l
  | .record _ l => l
  | .patch _ l => l
  | .refill _ l _ _ => l
  | .advanceRead _ l => l
  | .ckptBack _ l => l
  | .detok _ l => l
  | .draftBlock _ l => l
  | .maskRead _ l _ _ => l
  | j => ((j.tiles.head?).map Tile.ledger).getD 0

/-- A failed access in the counters and logs (Tables 10.23, 10.24, 11.22); Table 10.24 has no code for the repair map,
so that one is a free value. -/
def noteFailure (a : Access) (s : State) : State :=
  match a.lines.find? (Line.endedWith a.status) with
  | none => s
  | some l =>
    if a.status = St.OK then s
    else
      let (v, s) := if a.job.ofMap then takeFree s else (a.req, s)
      let s := logFailure (v % 16) a.status l s
      if a.status = St.STACK_ERR ∧ !(decide (a.kind = .write) && decide (a.req = 8)) then audFault 5 (l.loc % 16) a.status a.job.item s else s

/-- A mirror is lost: LDG_STAT, the AUD_FAULT log, and a DEGRADE entry to the other mirror (R376). -/
def loseMirror (m status : Nat) (s : State) : State :=
  if !(liveMirrors s).contains m then s
  else
    let s := audFault 6 m status 0 (markLost m s)
    if (liveMirrors s).isEmpty then s else journal (entry 10 0 0 m 0 0 0 0 false) [] .nothing s

/-- The mirrors whose write of an access failed. -/
def failedMirrors (s : State) (a : Access) : List (Nat × Nat) :=
  (a.lines.filterMap (fun l => match l.st with
    | .gone st => if st = St.OK then none else some (mirrorOf s l.addr, st)
    | _ => none)).eraseDups

/-- Every mirror whose write failed is lost. -/
def loseMirrors (a : Access) (s : State) : State := (failedMirrors s a).foldl (fun s p => loseMirror p.1 p.2 s) s

/-- A mirror is lost as soon as a line written to it has failed (R376), so that what waits for it is acknowledged from the
other one (Table 11.11). -/
def loseFailed (s : State) : State :=
  (s.accesses.filter (fun a => a.job.toMirrors)).foldl (fun s a => loseMirrors a s) s

/-! ### What follows a journal entry -/

/-- A COMPLETE entry is written: the item is complete, its packet waits for queue 0, and the paid-out mark may move past
it (R369 to R371). -/
def completed (n : Nat) (s : State) : State :=
  let s := onItem n (fun i => { i with completing := false, complete := true }) s
  match item? s n with
  | none => s
  | some i =>
    advanceMark i.stream { s with ledger := { s.ledger with packets := s.ledger.packets ++ [(packetHeader i, n)] } }

/-- A stream's close completes: what ESCROW holds is counted as discarded, and the context is FREE (Table 1.2, R319);
EXC_SVIEW goes on showing the stop until the next SOPEN (Table 9.13). -/
def closeDone (n : Nat) (s : State) : State :=
  let x := stream s n
  let s := bump R.EXC_DISCARD (x.escrow.carry.length + x.escrow.hold.length) s
  let s := setStream n { Stream.initial with
    paidL := x.paidL, paidS := x.paidS, lastLedger := x.lastLedger,
    escrow := { EscrowCtx.empty with stops := x.escrow.stops, stopped := x.escrow.stopped, stopIdx := x.escrow.stopIdx } } s
  { s with clear := { s.clear with
      seen := s.clear.seen.filter (fun p => p.1 != n),
      marks := s.clear.marks.filter (fun p => p.1 != n) } }

/-- A PAID entry is written: a mark that moved meanwhile is written next (R369). -/
def markWritten (n : Nat) (s : State) : State :=
  let next := (stream s n).paidNext
  let s := onStream n (fun x => { x with paidBusy := false }) s
  if next.isSome then writePaid n s else s

/-- Whether a keyed command waits for its HWM entry. -/
def waitsForMark (s : State) : Bool :=
  match s.kcw.run with
  | some r => decide (r.stage = .journal)
  | none => false

/-- Whether a keyed command waits for the HWM entry of a slot and a mark (R407). -/
def waitsForEntry (s : State) (slot mark : Nat) : Bool :=
  waitsForMark s && (match s.kcw.run with
    | some r => decide (r.slot = slot) && decide (r.counter = mark)
    | none => false)

/-- What follows an entry that both mirrors, or the one left, have acknowledged (R367). -/
def runAfter (next : After) (s : State) : State :=
  match next with
  | .nothing => s
  | .accepted c n => drainLanes (acceptDone c n s)
  | .posted w d n => postDone w d n s
  | .paid w d v flags => answerThread w d (resultWord St.OK flags v) s
  | .settledBy w d n => settleDone w d n s
  | .opened w d status => answerThread w d (resultWord status 0 0) s
  | .closed0 (some (w, d)) _ => answerThread w d (resultWord St.OK 0 0) s
  | .closed0 none _ => s
  | .closed1 n => closeDone n s
  | .output t => sendRecord t s
  | .mark n _ _ => markWritten n s
  | .hwm k m => if waitsForEntry s k m then carryOut s else s
  | .started => journalOpened s

/-- An entry's write has ended. -/
def entryWritten (e : JEntry) (next : After) (s : State) : State :=
  if (liveMirrors s).isEmpty then { s with ledger := { s.ledger with waiting := (e, [], next) :: s.ledger.waiting } }
  else runAfter next (if e.etype = 4 ∧ !e.carried then completed e.ledger s else s)

/-- A text log record's write has ended: its entry follows. -/
def recordWritten (e : JEntry) (next : After) (s : State) : State :=
  if (liveMirrors s).isEmpty then
    { s with ledger := { s.ledger with waiting := (e, textAt s e.logOff, next) :: s.ledger.waiting } }
  else
    let s := writeEntry e next s
    drainWaiting s.ledger.waiting.length s

/-! ### The end of each requester's access (Table 10.8) -/

/-- Work that failed at the stacks is replayed (R352). -/
def failItem (ledger status : Nat) (s : State) : State := replayItem ledger status true s

/-- `n` bytes of what an access read, from an offset into its first line. -/
def Access.slice (a : Access) (off n : Nat) : List Byte := (a.data.drop off).take n

/-- A chunk goes back to where TELLER took it from, to be taken again. -/
def putBack (c : Chunk) (s : State) : State :=
  if c.source < 8 then setLane c.source (c :: laneBuf s c.source) s
  else { s with teller := { s.teller with queue := c :: s.teller.queue } }

/-- A chunk of a STRICT tenant has been read before acceptance (R158, Table 10.8). Where a replay has meanwhile set TELLER's
copy of the carry back, its decode waits until the copy is there again. -/
def preReadDone (c : Chunk) (a : Access) (s : State) : State :=
  let off := match c.place with
    | .stack x => x % 64
    | .bytes _ => 0
  let bs := a.slice off c.len
  drainLanes (
    if a.status ≠ St.OK then refuseChunk c a.status true s
    else if carryUnknown s c.stream then putBack { c with read := some bs } s
    else match checkChunk s c with
      | some (st, h) => refuseChunk c st h s
      | none =>
        match checkStrict s c bs with
        | some (st, h) => refuseChunk c st h s
        | none => acceptChunk { c with read := some bs } s)

/-- The activities that fill a bank end without having filled it: both golden copies of a part have failed (R393). -/
def goldenLost (bank : Nat) (s : State) : State :=
  let s := bump R.AUD_GOLDFAIL 1 s
  (s.reserve.acts.filter (fun x => decide (bankFilled s x = some bank))).foldl (fun s x =>
    let s := endActivity x s
    if x.code = Act.vaultReload then retireLive 0 (physOf s 0 bank) s
    else if unitOut s 0 x.res then s
    else bankAbsent bank (spareOut 0 x.res (takeOut 0 x.res s))) s

/-- A golden copy has been read; what failed is read from the other one (R392). `copy` 2 and 3 are the second
attempt. -/
def goldenDone (bank copy : Nat) (a : Access) (s : State) : State :=
  if a.status = St.OK then s
  else if 2 ≤ copy then goldenLost bank s
  else
    let bad := a.lines.filter (fun l => !l.endedWith St.OK)
    let there := regionBase s (6 + (1 - copy))
    let lines := bad.map (fun l => newLine s (l.addr - regionBase s (6 + copy) + there) [])
    startAccess 1 (lineBill lines.length) .read 9 lines (.golden bank (3 - copy)) s

/-- A message that cannot be delivered replays its row's item. -/
def messageFailed (mtag status : Nat) (s : State) : State :=
  match s.clear.tiles.find? (fun c => c.sent && c.mtag == mtag) with
  | none => s
  | some c => retryPort (failItem c.tile.ledger status s)

/-- What the end of an access does for its requester, once its lines are there. -/
def jobDone (a : Access) (s : State) : State :=
  match a.job with
  | .ldx w d dst n => finishLdx w d dst n a.status a.data s
  | .stx w d n => finishStx w d n a.status s
  | .journal e next => entryWritten e next (loseMirrors a s)
  | .logged e next => recordWritten e next (loseMirrors a s)
  | .preRead c => preReadDone c a s
  | .payload t off n => tellerEmit t (a.slice off n) s
  | .flowPayload t off n => issueTile t (a.slice off n) s
  | .logPayload t _ n _ => tellerEmit t (a.slice 0 n) s
  | .logEntry n _ _ => deliverAgain n (a.slice 0 64) s
  | .page f slot => pageLine f slot a.status a.data s
  | .overflow t _ => mintFinish t (ovfPlaces s t.tenant a.lines) s
  | .record _ _ => s
  | .patch _ _ => s
  | .refill n l slot patch => writePatch n l slot patch s
  | .advanceRead _ _ => s
  | .ahead n t => resolved n t s
  | .ckptBack n l => ckptBack n l a.data s
  | .detok _ _ => s
  | .draftBlock n _ => retryPort (draftArrived n a.data s)
  | .maskRead n l pos again => retryPort (maskArrived n l pos again a.lines s)
  | .topk t _ => passOn Hop.CLEARING t s
  | .sink t => deliverRecord t s
  | .message _ _ => s
  | .mapRead k => { s with reserve := { s.reserve with copies := Tab.insert s.reserve.copies k a.data } }
  | .mapWrite k other => copyWritten k other a.status s
  | .golden bank copy => goldenDone bank copy a s
  | .reload k => reloadDone k a.status a.lines s
  | .placed k r => tokPlaced k r s
  | .replacedTables k => tablesReplaced k s
  | .placedGrammar gid g => grammarPlaced gid g s
  | .placedSet slot m => setPlaced slot m s
  | .replayRing m => ringRead m a.lines s
  | .replayRec m off => recRead m off a.status a.lines s
  | .replayCkpt n => ckptRead n a.status a.lines s
  | .abandoned _ => s

/-- Whether what one mirror did not give is read from the other; `m` 2 is the second attempt. -/
def logAgain (s : State) (m : Nat) : Bool := decide (m < 2) && (liveMirrors s).contains (1 - m)

/-- What the end of a failed access does for its requester (Table 10.8). -/
def jobFailed (a : Access) (s : State) : State :=
  match a.job with
  | .payload t _ _ => failItem t.ledger a.status s
  | .flowPayload t _ _ => failItem t.ledger a.status s
  | .logPayload t off n m =>
    if logAgain s m then readLog (1 - m) off n (.logPayload t off n 2) s else failItem t.ledger a.status s
  | .logEntry n off m =>
    if logAgain s m then readLog (1 - m) off 64 (.logEntry n off 2) s else failItem n a.status s
  | .overflow t _ => failItem t.ledger a.status s
  | .record _ l => failItem l a.status s
  | .patch _ l => failItem l a.status s
  | .refill _ l _ _ => failItem l a.status s
  | .advanceRead _ l => failItem l a.status s
  | .ahead _ _ => s
  | .ckptBack _ l => failItem l a.status s
  | .detok _ l => failItem l a.status s
  | .draftBlock _ l => retryPort (failItem l a.status s)
  | .maskRead _ l _ _ => retryPort (failItem l a.status s)
  | .topk t _ => failItem t.ledger a.status s
  | .sink t => failItem t.ledger a.status s
  | .message g _ => messageFailed g a.status s
  | .mapRead _ => s
  | .placed _ _ => endLoading a.status s
  | .replacedTables k => emptySlot k s
  | .placedGrammar _ _ => endLoading a.status s
  | .placedSet _ _ => endLoading a.status s
  | _ => jobDone a s

/-- The accesses without one that has ended; lines of it to a lost mirror that are on their way are still to be answered
(R355, R528). -/
def withoutAccess (a : Access) (s : State) : List Access :=
  if a.lines.any (fun l => decide (l.st = .out)) then
    s.accesses.map (fun x => if x.ident = a.ident then x.abandon else x)
  else s.accesses.filter (fun x => x.ident != a.ident)

/-- An access ends. -/
def endAccess (a : Access) (s : State) : State :=
  let s := noteFailure a { s with accesses := withoutAccess a s }
  if a.status = St.OK then jobDone a s else jobFailed a s

/-- Every access that has ended, one after the other. -/
def endAccesses (fuel : Nat) (s : State) : State :=
  match fuel with
  | 0 => s
  | f + 1 =>
    match firstEnded s with
    | none => s
    | some a => endAccesses f (endAccess a s)

/-- What follows from lines that have ended: accesses end, and their requesters go on. -/
def settleAccesses (s : State) : State :=
  let s := loseFailed s
  sweep (endAccesses (s.accesses.length + 16) s)

/-! ### Responses (R349, R350, R468) -/

/-- A change of the line of a port that stands under a tag, in every access. -/
def onLine (p : Line → Bool) (f : Access → Line → Line) (s : State) : State :=
  { s with accesses := s.accesses.map (fun a => { a with lines := a.lines.map (fun l => if p l then f a l else l) }) }

/-- Whether a line stands outstanding at a port under a tag. -/
def Line.at_ (port tag : Nat) (st : LineState) (l : Line) : Bool :=
  decide (l.port = port) && decide (l.tag = tag) && decide (l.st = st)

/-- A deferred line (R349, R355). -/
def deferLine (s : State) (l : Line) : Line :=
  if quiescing s l.loc then { l with st := .unsent, retries := 0 }
  else if regField s R.STK_RETRY 0 5 ≤ l.retries then { l with st := .gone St.STACK_BUSY }
  else { l with st := .backoff, retries := l.retries + 1 }

/-- An answered line; data comes with a read's, and a message has no answer of this kind. -/
def answerLine (a : Access) (data : List Byte) (l : Line) : Line :=
  match a.kind with
  | .read => { l with data := padTo 64 (data.take 64), st := .gone St.OK }
  | .write => { l with st := .gone St.OK }
  | .message => l

/-- Whether a memory port takes responses. -/
def portTakes (s : State) (p : Nat) : Bool := portUp s p && clkUp s (5 + p)

/-- A response to the line of a tag. -/
def takeResponse (p t : Nat) (k : Answer) (data : List Byte) (s : State) : State :=
  let here := Line.at_ p t .out
  if !(s.accesses.any (fun a => a.lines.any here)) then s
  else match k with
    | .done => settleAccesses (onLine here (fun a l => answerLine a data l) s)
    | .deferred => settleAccesses (onLine here (fun _ l => deferLine s l) (bump R.STK_DEFER 1 s))
    | .error => settleAccesses (onLine here (fun _ l => { l with st := .gone St.STACK_ERR }) s)

/-- MEMORY_RESPONSE (R468). -/
def execMemoryResponse (port : BitVec 3) (tag : BitVec 10) (kind : Answer) (data : List Byte) (s : State) :
    Host.Outcome State Fault Refusal :=
  .next (if portTakes s port.toNat then takeResponse port.toNat tag.toNat kind data s else s)

/-- DEFERRED_RETRY (R349): the back-off of a line ends and it is sent again. -/
def execDeferredRetry (port : BitVec 3) (tag : BitVec 10) (s : State) : Host.Outcome State Fault Refusal :=
  .next (if portTakes s port.toNat then
    sendAll (onLine (Line.at_ port.toNat tag.toNat .backoff) (fun _ l => { l with st := .unsent }) s) else s)

/-! ### Quiescing a channel (R355, R461, R463) -/

/-- STATUS of RSV_MSTAT: the status of the latest START. -/
def startStatus (st : Nat) (s : State) : State := setReg R.RSV_MSTAT (setBits (reg s R.RSV_MSTAT) 16 8 st) s

/-- A start through RSV_MCTRL: refused when it conflicts, else it runs. -/
def driverStart (a : Activity) (run : State → State) (s : State) : State :=
  match holder s a with
  | some h => startStatus St.BUSY_MAINT (refuseStart h a.code s)
  | none => startStatus St.OK (run (beginActivity a s))

/-- The channel STK_QCHAN names, as an activity holds it. -/
def quiesceAct (s : State) : Activity := { code := Act.quiesce, res := regField s R.STK_QCHAN 0 8, cls := 0 }

/-- Draining begins: deferred accesses to the channel stop counting. -/
def startDraining (s : State) : State :=
  let s := { s with reserve := { s.reserve with quiesce := 1 } }
  onLine (fun l => decide (l.st = .backoff) && quiescing s l.loc)
    (fun _ l => { l with st := .unsent, retries := 0 }) s

/-- CHANNEL_QUIESCE: RSV_MCTRL.START with ACT 7. -/
def execChannelQuiesce (s : State) : Host.Outcome State Fault Refusal :=
  viaPort s (fun s => .next (driverStart (quiesceAct s) startDraining s))

/-- Whether an access to the draining channel is still unanswered. -/
def channelBusy (s : State) : Bool :=
  s.accesses.any (fun a => a.lines.any (fun l => decide (l.st = .out) && quiescing s l.loc))

/-- CHANNEL_QUIESCE_DRAINED. -/
def execChannelQuiesceDrained (s : State) : Host.Outcome State Fault Refusal :=
  .next (if s.reserve.quiesce = 1 ∧ !channelBusy s then { s with reserve := { s.reserve with quiesce := 2 } } else s)

/-- The activity ends: the waiting accesses leave in the order in which they arose. -/
def endQuiesce (s : State) : State :=
  match s.reserve.acts.find? (fun a => decide (a.code = Act.quiesce)) with
  | none => s
  | some a => sendAll (endActivity a { s with reserve := { s.reserve with quiesce := 0 } })

/-- QUIESCE_END: RSV_MCTRL.END. -/
def execQuiesceEnd (s : State) : Host.Outcome State Fault Refusal := viaPort s (fun s => .next (endQuiesce s))

/-! ### The configuration of the stack interface (R335) -/

/-- Least size of a region in units of 64 KiB (Table 10.2). -/
def regionMin (s : State) (r : Nat) : Nat :=
  match r with
  | 2 => 16384
  | 3 => s.build.size.contexts * 2
  | 5 => 1024
  | 6 => s.build.size.goldMin / 65536
  | 7 => s.build.size.goldMin / 65536
  | _ => 1

/-- A write that is ignored: STK_STAT.CFG_ERR. -/
def stkError (s : State) : State := setRegBit R.STK_STAT 0 s

/-- The row STK_HSEL shows. -/
def hashSel (s : State) : Nat := regField s R.STK_HSEL 0 4

/-- The region STK_RSEL shows. -/
def regionSel (s : State) : Nat := regField s R.STK_RSEL 0 3

/-- A write of half `h` of the selected hash row; HASH_LOCK holds it off (R415), and rows 9 to 15 take none (R529). -/
def writeHash (h v : Nat) (s : State) : State :=
  if s.kcw.hashLock || decide (8 < hashSel s) then stkError s
  else setReg (hashKey (hashSel s) + h) v s

/-- Whether a value may be written to STK_GEOM. -/
def geomGood (v : Nat) : Bool :=
  decide (33 ≤ bits v 0 6) && decide (bits v 0 6 ≤ 44) && decide (12 ≤ bits v 6 5) && decide (bits v 6 5 ≤ 22)

/-- A write of a register of R335. -/
def writeStk (off v : Nat) (s : State) : State :=
  let k := regionKey (regionSel s)
  if !stackSettable s then stkError s
  else if off = R.STK_GEOM then (if geomGood v then storeReg off v s else stkError s)
  else if off = R.STK_HASH_LO then writeHash 0 v s
  else if off = R.STK_HASH_HI then writeHash 1 (v % 2 ^ 10) s
  else if off = R.STK_RBASE_LO then setReg k (v / 65536 * 65536) s
  else if off = R.STK_RBASE_HI then setReg (k + 1) (v % 65536) s
  else if v ≠ 0 ∧ v < regionMin s (regionSel s) then stkError s
  else setReg (k + 2) v s

/-- Whether a register is one of R335. -/
def isStkConfig (off : Nat) : Bool :=
  [R.STK_GEOM, R.STK_HASH_LO, R.STK_HASH_HI, R.STK_RBASE_LO, R.STK_RBASE_HI, R.STK_RSIZE].contains off

/-- STK_CONFIG_WRITE (R335). -/
def execStkConfigWrite (off : BitVec 16) (v : Word32) (s : State) : Host.Outcome State Fault Refusal :=
  viaPort s (fun s => .next (if isStkConfig off.toNat then writeStk off.toNat v.toNat s else s))

end Sys2Proof.Machine
end

