-- ==== Sys2Proof/Machine/Scalar.lean ====
section
/-!
DEFINITION. The scalar, predicate, control, special-register and scratch instructions of Lambiop (Scalar and control;
Special registers and memory).
-/

namespace Sys2Proof.Machine

/-- An instruction over the thread's registers that writes one g register. -/
def aluOp (w : Who) (f : Fields) (code : Nat) (value : Thread → Word) : Op :=
  plainOp code (fun s => putG w f.d (value (thread s w)) s)

/-- An instruction that writes one p register. -/
def predicateOp (w : Who) (f : Fields) (code : Nat) (value : Thread → Bool) : Op :=
  plainOp code (fun s => putP w f.d.toNat (value (thread s w)) s)

/-- ADD: g[d] = g[a] + g[b], modulo 2^64; the immediate must be 0. -/
def opAdd (w : Who) (f : Fields) : Op :=
  aluOp w f 0x01 (fun t => t.reg f.a + t.reg f.b)

/-- ADD as a command. -/
def execAdd (w : Who) (f : Fields) (s : State) : Host.Outcome State Fault Refusal :=
  .next (issue w f (.add w f) (opAdd w f) s)

/-- SUB: g[d] = g[a] - g[b]; the immediate must be 0. -/
def opSub (w : Who) (f : Fields) : Op :=
  aluOp w f 0x02 (fun t => t.reg f.a - t.reg f.b)

/-- SUB as a command. -/
def execSub (w : Who) (f : Fields) (s : State) : Host.Outcome State Fault Refusal :=
  .next (issue w f (.sub w f) (opSub w f) s)

/-- MUL: the low 64 bits of the product; the immediate must be 0. -/
def opMul (w : Who) (f : Fields) : Op :=
  aluOp w f 0x03 (fun t => t.reg f.a * t.reg f.b)

/-- MUL as a command. -/
def execMul (w : Who) (f : Fields) (s : State) : Host.Outcome State Fault Refusal :=
  .next (issue w f (.mul w f) (opMul w f) s)

/-- AND: g[d] = g[a] and g[b]; the immediate must be 0. -/
def opAnd (w : Who) (f : Fields) : Op :=
  aluOp w f 0x04 (fun t => t.reg f.a &&& t.reg f.b)

/-- AND as a command. -/
def execAnd (w : Who) (f : Fields) (s : State) : Host.Outcome State Fault Refusal :=
  .next (issue w f (.and w f) (opAnd w f) s)

/-- OR: g[d] = g[a] or g[b]; the immediate must be 0. -/
def opOr (w : Who) (f : Fields) : Op :=
  aluOp w f 0x05 (fun t => t.reg f.a ||| t.reg f.b)

/-- OR as a command. -/
def execOr (w : Who) (f : Fields) (s : State) : Host.Outcome State Fault Refusal :=
  .next (issue w f (.or w f) (opOr w f) s)

/-- XOR: g[d] = g[a] xor g[b]; the immediate must be 0. -/
def opXor (w : Who) (f : Fields) : Op :=
  aluOp w f 0x06 (fun t => t.reg f.a ^^^ t.reg f.b)

/-- XOR as a command. -/
def execXor (w : Who) (f : Fields) (s : State) : Host.Outcome State Fault Refusal :=
  .next (issue w f (.xor w f) (opXor w f) s)

/-- SHL: a left shift by (g[b] + imm[5:0]) mod 64; imm[39:6] must be 0. -/
def opShl (w : Who) (f : Fields) : Op :=
  aluOp w f 0x07 (fun t => t.reg f.a <<< shiftAmt t f)

/-- SHL as a command. -/
def execShl (w : Who) (f : Fields) (s : State) : Host.Outcome State Fault Refusal :=
  .next (issue w f (.shl w f) (opShl w f) s)

/-- SHR: a logical right shift by the amount of SHL; imm[39:6] must be 0. -/
def opShr (w : Who) (f : Fields) : Op :=
  aluOp w f 0x08 (fun t => t.reg f.a >>> shiftAmt t f)

/-- SHR as a command. -/
def execShr (w : Who) (f : Fields) (s : State) : Host.Outcome State Fault Refusal :=
  .next (issue w f (.shr w f) (opShr w f) s)

/-- SAR: an arithmetic right shift by the amount of SHL; imm[39:6] must be 0. -/
def opSar (w : Who) (f : Fields) : Op :=
  aluOp w f 0x09 (fun t => (t.reg f.a).sshiftRight (shiftAmt t f))

/-- SAR as a command. -/
def execSar (w : Who) (f : Fields) (s : State) : Host.Outcome State Fault Refusal :=
  .next (issue w f (.sar w f) (opSar w f) s)

/-- ADDI: g[d] = g[a] + sext(imm, 40); B is not used. -/
def opAddi (w : Who) (f : Fields) : Op :=
  aluOp w f 0x0A (fun t => t.reg f.a + immWord f)

/-- ADDI as a command. -/
def execAddi (w : Who) (f : Fields) (s : State) : Host.Outcome State Fault Refusal :=
  .next (issue w f (.addi w f) (opAddi w f) s)

/-- ANDI: g[d] = g[a] and imm, zero-extended; B is not used. -/
def opAndi (w : Who) (f : Fields) : Op :=
  aluOp w f 0x0B (fun t => t.reg f.a &&& f.imm.setWidth 64)

/-- ANDI as a command. -/
def execAndi (w : Who) (f : Fields) (s : State) : Host.Outcome State Fault Refusal :=
  .next (issue w f (.andi w f) (opAndi w f) s)

/-- LUI: imm[23:0] in the upper 24 bits over the lower 40 bits of g[a]; imm[39:24] must be 0. -/
def opLui (w : Who) (f : Fields) : Op :=
  aluOp w f 0x0C (fun t =>
    (t.reg f.a &&& 0xFFFFFFFFFF#64) ||| (f.imm.setWidth 64 <<< 40))

/-- LUI as a command. -/
def execLui (w : Who) (f : Fields) (s : State) : Host.Outcome State Fault Refusal :=
  .next (issue w f (.lui w f) (opLui w f) s)

/-- CMP: p[d] = cond(imm[2:0], g[a], g[b]); imm[39:3] and D[3] must be 0. -/
def opCmp (w : Who) (f : Fields) : Op :=
  predicateOp w f 0x0D
    (fun t => condHolds (immBits f 0 3) (t.reg f.a) (t.reg f.b))

/-- CMP as a command. -/
def execCmp (w : Who) (f : Fields) (s : State) : Host.Outcome State Fault Refusal :=
  .next (issue w f (.cmp w f) (opCmp w f) s)

/-- CMPI: p[d] = cond(imm[2:0], g[a], sext(imm[39:8], 32)); imm[7:3] and D[3] must be 0. -/
def opCmpi (w : Who) (f : Fields) : Op :=
  predicateOp w f 0x0E
    (fun t => condHolds (immBits f 0 3) (t.reg f.a) (cmpConst f))

/-- CMPI as a command. -/
def execCmpi (w : Who) (f : Fields) (s : State) : Host.Outcome State Fault Refusal :=
  .next (issue w f (.cmpi w f) (opCmpi w f) s)

/-- SEL: g[d] = g[a] if p[imm[2:0]] else g[b]. -/
def opSel (w : Who) (f : Fields) : Op :=
  aluOp w f 0x0F (fun t => if t.pred (immBits f 0 3) then t.reg f.a else t.reg f.b)

/-- SEL as a command. -/
def execSel (w : Who) (f : Fields) (s : State) : Host.Outcome State Fault Refusal :=
  .next (issue w f (.sel w f) (opSel w f) s)

/-- PSET: a combination of p[a] and p[b]. -/
def opPset (w : Who) (f : Fields) : Op :=
  predicateOp w f 0x10
    (fun t => predOp (immBits f 0 2) (t.pred f.a.toNat) (t.pred f.b.toNat))

/-- PSET as a command. -/
def execPset (w : Who) (f : Fields) (s : State) : Host.Outcome State Fault Refusal :=
  .next (issue w f (.pset w f) (opPset w f) s)

/-- The bill of CRC: 3 cents and 1 per 64 bytes, on the operand value at issue (R88); a span longer than scratch,
which faults, is charged as the whole of scratch. -/
def crcBill (w : Who) (f : Fields) (s : State) : Nat :=
  3 + ceilDiv (min ((thread s w).reg f.b).toNat scratchSize) 64

/-- The effect of CRC. -/
def actCrc (w : Who) (f : Fields) (s : State) : State :=
  let t := thread s w
  let a := (t.reg f.a).toNat
  let n := (t.reg f.b).toNat
  if scratchSize < a + n then faultThread w St.BOUNDS s
  else putG w f.d (BitVec.ofNat 64 (crc32c (scratchRead s w.clerk.toNat a n))) s

/-- CRC: the CRC-32C of g[b] bytes of scratch from g[a]. -/
def opCrc (w : Who) (f : Fields) (s : State) : Op := pricedOp 0x11 (crcBill w f s) (actCrc w f)

/-- CRC as a command. -/
def execCrc (w : Who) (f : Fields) (s : State) : Host.Outcome State Fault Refusal :=
  .next (issue w f (.crc w f) (opCrc w f s) s)

/-- An instruction that can leave index 8,191 otherwise than to the next one. -/
def jumpOp (code : Nat) (act : State → State) : Op := { plainOp code act with jumps := true }

/-- The thread goes on at a program index. -/
def jumpTo (w : Who) (pc : Nat) (s : State) : State := onThread w (fun t => t.goOn pc) s

/-- B: pc = imm[12:0]; imm[39:13] must be 0. -/
def opB (w : Who) (f : Fields) : Op :=
  jumpOp 0x18 (jumpTo w (immBits f 0 13))

/-- B as a command. -/
def execB (w : Who) (f : Fields) (s : State) : Host.Outcome State Fault Refusal :=
  .next (issue w f (.b w f) (opB w f) s)

/-- The effect of BP: a fault when g[a][63:13] is not 0. -/
def actBp (w : Who) (f : Fields) (s : State) : State :=
  let x := ((thread s w).reg f.a).toNat
  if 8192 ≤ x then faultThread w St.BOUNDS s else jumpTo w x s

/-- BP: pc = g[a]. -/
def opBp (w : Who) (f : Fields) : Op :=
  jumpOp 0x19 (actBp w f)

/-- BP as a command. -/
def execBp (w : Who) (f : Fields) (s : State) : Host.Outcome State Fault Refusal :=
  .next (issue w f (.bp w f) (opBp w f) s)

/-- The effect of CALL: pushes pc + 1; a fault when the return stack holds 16 entries. -/
def actCall (w : Who) (f : Fields) (s : State) : State :=
  if 16 ≤ (thread s w).stack.length then faultThread w St.OVERRUN s
  else onThread w (fun t => { t with stack := (t.pc + 1) :: t.stack }.goOn (immBits f 0 13)) s

/-- CALL: to imm[12:0], with the return index pushed. -/
def opCall (w : Who) (f : Fields) : Op :=
  jumpOp 0x1A (actCall w f)

/-- CALL as a command. -/
def execCall (w : Who) (f : Fields) (s : State) : Host.Outcome State Fault Refusal :=
  .next (issue w f (.call w f) (opCall w f) s)

/-- The effect of RET: a fault on an empty return stack, and on a return past index 8,191 (R72). -/
def actRet (w : Who) (s : State) : State :=
  match (thread s w).stack with
  | [] => faultThread w St.BAD_OP s
  | pc :: rest =>
    if 8192 ≤ pc then faultThread w St.BOUNDS s
    else onThread w (fun t => { t with stack := rest }.goOn pc) s

/-- RET: to the return index popped. -/
def opRet (w : Who) (_f : Fields) : Op :=
  jumpOp 0x1B (actRet w)

/-- RET as a command. -/
def execRet (w : Who) (f : Fields) (s : State) : Host.Outcome State Fault Refusal :=
  .next (issue w f (.ret w f) (opRet w f) s)

/-- YIELD: the thread is not ready in the next round of R57. -/
def opYield (w : Who) (_f : Fields) : Op :=
  plainOp 0x1C
    (fun s => onThread w (fun t => { t with yielded := true }.goOn (t.pc + 1)) s)

/-- YIELD as a command. -/
def execYield (w : Who) (f : Fields) (s : State) : Host.Outcome State Fault Refusal :=
  .next (issue w f (.yield w f) (opYield w f) s)

/-- The effect of HALT: the thread stops in HALTED; the items it has not completed are left to R94. -/
def actHalt (w : Who) (s : State) : State :=
  sweep (endOwned w St.BAD_OP (onThread w (fun t => { t.goOn (t.pc + 1) with st := .halted }) s))

/-- HALT: the thread stops. -/
def opHalt (w : Who) (_f : Fields) : Op :=
  jumpOp 0x1D (actHalt w)

/-- HALT as a command. -/
def execHalt (w : Who) (f : Fields) (s : State) : Host.Outcome State Fault Refusal :=
  .next (issue w f (.halt w f) (opHalt w f) s)

/-- The effect of BRK: the thread stops in DEBUG when debug scope bit 0 is open, else as NOP (R417). -/
def actBrk (w : Who) (s : State) : State :=
  if bit s.kcw.scopes 0 then onThread w (fun t => { t.goOn (t.pc + 1) with st := .debug }) s
  else advancePc w s

/-- BRK: stops in DEBUG, or does nothing. -/
def opBrk (w : Who) (_f : Fields) : Op :=
  plainOp 0x1E (actBrk w)

/-- BRK as a command. -/
def execBrk (w : Who) (f : Fields) (s : State) : Host.Outcome State Fault Refusal :=
  .next (issue w f (.brk w f) (opBrk w f) s)

/-- NOP: nothing. -/
def opNop (w : Who) (_f : Fields) : Op :=
  plainOp 0x1F (advancePc w)

/-- NOP as a command. -/
def execNop (w : Who) (f : Fields) (s : State) : Host.Outcome State Fault Refusal :=
  .next (issue w f (.nop w f) (opNop w f) s)

/-- The special registers of Table 2.2. -/
def special (s : State) (w : Who) (sel : Nat) : Word :=
  let t := thread s w
  match sel with
  | 0 => BitVec.ofNat 64 t.stream
  | 1 => BitVec.ofNat 64 t.ledger
  | 2 => BitVec.ofNat 64 (s.beat.pos % 2 ^ 44 + flag s.beat.frozen * 2 ^ 63)
  | _ => BitVec.ofNat 64 t.ticket

/-- RDS: g[d] = the special register imm[1:0]. -/
def opRds (w : Who) (f : Fields) : Op :=
  plainOp 0x20
    (fun s => putG w f.d (special s w (immBits f 0 2)) s)

/-- RDS as a command. -/
def execRds (w : Who) (f : Fields) (s : State) : Host.Outcome State Fault Refusal :=
  .next (issue w f (.rds w f) (opRds w f) s)

/-- The effect of WRS: STREAM written and LEDGER set to 0 (R63); the item LEDGER named is left to R94. -/
def actWrs (w : Who) (f : Fields) (s : State) : State :=
  let x := ((thread s w).reg f.a).toNat
  if immBits f 0 2 ≠ 0 ∨ 4096 ≤ x then faultThread w St.BAD_OP s
  else sweep (endOwned w St.BAD_OP
    (onThread w (fun t => { t with stream := x, ledger := 0 }.goOn (t.pc + 1)) s))

/-- WRS: writes STREAM. -/
def opWrs (w : Who) (f : Fields) : Op :=
  plainOp 0x21 (actWrs w f)

/-- WRS as a command. -/
def execWrs (w : Who) (f : Fields) (s : State) : Host.Outcome State Fault Refusal :=
  .next (issue w f (.wrs w f) (opWrs w f) s)

/-- The effect of LD. -/
def actLd (w : Who) (f : Fields) (s : State) : State :=
  let x := memAddr (thread s w) f
  if wordInScratch x then putG w f.d (scratchWord s w.clerk.toNat x) s else faultThread w St.BOUNDS s

/-- LD: the 64-bit little-endian word at scratch g[a] + sext(imm, 40). -/
def opLd (w : Who) (f : Fields) : Op :=
  plainOp 0x22 (actLd w f)

/-- LD as a command. -/
def execLd (w : Who) (f : Fields) (s : State) : Host.Outcome State Fault Refusal :=
  .next (issue w f (.ld w f) (opLd w f) s)

/-- The effect of ST. -/
def actSt (w : Who) (f : Fields) (s : State) : State :=
  let t := thread s w
  let x := memAddr t f
  if wordInScratch x then advancePc w (storeScratch t.no w.clerk.toNat x (toLE 8 (t.reg f.b).toNat) s)
  else faultThread w St.BOUNDS s

/-- ST: g[b] to the scratch word of LD's address rule. -/
def opSt (w : Who) (f : Fields) : Op :=
  plainOp 0x23 (actSt w f)

/-- ST as a command. -/
def execSt (w : Who) (f : Fields) (s : State) : Host.Outcome State Fault Refusal :=
  .next (issue w f (.st w f) (opSt w f) s)

end Sys2Proof.Machine
end

