-- ==== Sys2Proof/Machine/Threads.lean ====
section
/-!
DEFINITION. The threads of a CLERK from outside (R57, R64, R67, R94 to R96, R417): starting, halting, restarting,
debugging, the completion of tickets, and what an instruction resumes with when its coins come.
-/

namespace Sys2Proof.Machine

/-- What a Lambiop command is to its CLERK; none for the other commands. -/
def opOf (s : State) (i : Instr) : Option Op :=
  match i with
  | .add w f => some (opAdd w f)
  | .sub w f => some (opSub w f)
  | .mul w f => some (opMul w f)
  | .and w f => some (opAnd w f)
  | .or w f => some (opOr w f)
  | .xor w f => some (opXor w f)
  | .shl w f => some (opShl w f)
  | .shr w f => some (opShr w f)
  | .sar w f => some (opSar w f)
  | .addi w f => some (opAddi w f)
  | .andi w f => some (opAndi w f)
  | .lui w f => some (opLui w f)
  | .cmp w f => some (opCmp w f)
  | .cmpi w f => some (opCmpi w f)
  | .sel w f => some (opSel w f)
  | .pset w f => some (opPset w f)
  | .crc w f => some (opCrc w f s)
  | .b w f => some (opB w f)
  | .bp w f => some (opBp w f)
  | .call w f => some (opCall w f)
  | .ret w f => some (opRet w f)
  | .yield w f => some (opYield w f)
  | .halt w f => some (opHalt w f)
  | .brk w f => some (opBrk w f)
  | .nop w f => some (opNop w f)
  | .rds w f => some (opRds w f)
  | .wrs w f => some (opWrs w f)
  | .ld w f => some (opLd w f)
  | .st w f => some (opSt w f)
  | .ldx w f => some (opLdx w f)
  | .stx w f => some (opStx w f)
  | .sopen w f => some (opSopen w f)
  | .sfeed w f => some (opSfeed w f)
  | .sclose w f => some (opSclose w f)
  | .flow w f => some (opFlow w f)
  | .dnext w f => some (opDnext w f)
  | .waitt w f => some (opWaitt w f)
  | .waitb w f => some (opWaitb w f)
  | .tpoll w f => some (opTpoll w f)
  | .post w f => some (opPost w f)
  | .pay w f => some (opPay w f)
  | .settle w f => some (opSettle w f)
  | .mask w f => some (opMask w f)
  | .next w f => some (opNext w f)
  | .draft w f => some (opDraft w f s)
  | .pick w f => some (opPick w f)
  | .emit w f => some (opEmit w f)
  | .price w f => some (opPrice1 w f)
  | _ => none

/-- A Lambiop instruction whose coins have come; SOPEN, NEXT and DRAFT may have waited for the coins of their advances, and
go on when their thread still waits with them. -/
def resumeLambiop (i : Instr) (s : State) : State :=
  match lambiopParts i, opOf s i with
  | some (_, w, f), some op =>
    if (thread s w).wait = .coins then resumePaid w f op s
    else if (thread s w).wait ≠ .retry i then s
    else match i with
      | .sopen w f => openBody w f s
      | .next w f => nextBody w f s
      | .draft w f => draftBody w f s
      | _ => s
  | _, _ => s

/-! ### Starting and halting -/

/-- CLK_ENTRY. -/
def clerkEntry (s : State) : Nat := regField s R.CLK_ENTRY 0 13

/-- All 16 threads of a CLERK begin under R64; tickets issued before are not known to them. -/
def startClerk (c : Nat) (s : State) : State :=
  if !clerkReady s c || clerkRunning s c then s
  else
    let e := clerkEntry s
    let s := (whos c).foldl (fun s w => setThread w (Thread.start w e) (endOwned w St.BAD_OP s)) s
    sweep { s with tickets := s.tickets.map (fun p =>
      if p.1 / 4096 = c then (p.1, { p.2 with old := true }) else p) }

/-- CLERK_START: CLK_CTRL.START written. -/
def execClerkStart (cs : BitVec 8) (s : State) : Host.Outcome State Fault Refusal := viaPort s fun s =>
  .next ((List.range 8).foldl (fun s c => if bit cs.toNat c then startClerk c s else s) s)

/-- What a thread was waiting for is waited for no longer: its purchase, and its place before the journal opens. -/
def dropWaits (w : Who) (s : State) : State :=
  { s with
    purse := { s.purse with queue := s.purse.queue.filter (fun p => match p.what with
      | .command i => !ofThread w i
      | _ => true) },
    ledger := { s.ledger with openWait := s.ledger.openWait.filter (fun i => !ofThread w i) } }

/-- Every thread of a CLERK stops, and its FATAL bit is set; the items its threads hold are the driver's to recover
(R95). -/
def stopClerk (c : Nat) (s : State) : State :=
  let s := (whos c).foldl (fun s w => dropWaits w s) s
  let s := (whos c).foldl (fun s w => onThread w (fun t =>
    { t with st := if t.st = .faulted then .faulted else .halted, wait := .ready, stopAfter := false,
             stepping := false }) s) s
  let mine (i : Item) : Bool := match i.owner with
    | some w => decide (w.clerk.toNat = c)
    | none => false
  { s with
    ledger := { s.ledger with items := s.ledger.items.map (fun i => if mine i then { i with owner := none } else i) },
    clerkFatal := s.clerkFatal ||| 2 ^ c }

/-- A thread stops after its current instruction: at once, or when the access or journal entry it waits for is done
(Table 2.14). -/
def haltThread (w : Who) (s : State) : State :=
  let t := thread s w
  if t.st = .halted ∨ t.st = .faulted then s
  else if t.wait = .busy then onThread w (fun t => { t with stopAfter := true }) s
  else endOwned w St.BAD_OP (onThread w (fun t => { t with st := .halted, wait := .ready, stepping := false })
    (dropWaits w s))

/-- Every thread of a CLERK stops. -/
def haltClerk (c : Nat) (s : State) : State := (whos c).foldl (fun s w => haltThread w s) s

/-- CLERK_HALT: CLK_CTRL.HALT written. -/
def execClerkHalt (cs : BitVec 8) (s : State) : Host.Outcome State Fault Refusal := viaPort s fun s =>
  .next (sweep ((List.range 8).foldl (fun s c => if bit cs.toNat c then haltClerk c s else s) s))

/-- THREAD_RESTART: CLK_TRST with GO, for a HALTED or FAULTED thread. -/
def execThreadRestart (w : Who) (s : State) : Host.Outcome State Fault Refusal := viaPort s fun s =>
  let t := thread s w
  if clerkReady s w.clerk.toNat && (decide (t.st = .halted) || decide (t.st = .faulted)) then
    .next (sweep (setThread w (Thread.start w (clerkEntry s)) (endOwned w St.BAD_OP s)))
  else .next s

/-! ### Debugging (R417) -/

/-- A thread leaves DEBUG, for one instruction or for good. -/
def leaveDebug (w : Who) (step : Bool) (s : State) : State :=
  if bit s.kcw.scopes 0 && clerkReady s w.clerk.toNat && decide ((thread s w).st = .debug) then
    onThread w (fun t => { t with st := .running, stepping := step }) s
  else s

/-- DEBUG_RESUME: DBG_RESUME.GO. -/
def execDebugResume (w : Who) (s : State) : Host.Outcome State Fault Refusal := viaPort s fun s => .next (leaveDebug w false s)

/-- DEBUG_STEP: DBG_RESUME.GO with STEP. -/
def execDebugStep (w : Who) (s : State) : Host.Outcome State Fault Refusal := viaPort s fun s => .next (leaveDebug w true s)

/-! ### Undefined words (R67) -/

/-- UNDEFINED_OPCODE: a thread that is ready issues a word whose opcode is undefined or whose reserved bits are not
0. -/
def execUndefinedOpcode (w : Who) (word : Word) (s : State) : Host.Outcome State Fault Refusal :=
  if clerkReady s w.clerk.toNat && (thread s w).canIssue && (decodeLambiop w word).isNone then
    .next (faultThread w St.BAD_OP (noteIssue w s))
  else .next s

/-! ### Tickets that complete (R42) -/

/-- Whether a chunk belongs to a ticket. -/
def chunkTicket (c k : Nat) (x : Chunk) : Bool := decide (x.source = 9) && decide (x.clerk = c) && decide (x.tag = k)

/-- Whether what follows a journal entry belongs to a ticket's chunk. -/
def After.hasTicket (c k : Nat) : After → Bool
  | .accepted x _ => chunkTicket c k x
  | _ => false

/-- Whether anything of a ticket is still on its way to a sink or to a station's carry. -/
def ticketBusy (s : State) (c k : Nat) : Bool :=
  (allTiles s).any (fun t => decide (t.origin = c) && decide (t.ticket = k))
    || s.teller.queue.any (chunkTicket c k)
    || s.accesses.any (fun a => match a.job with
      | .preRead x => chunkTicket c k x
      | .journal _ n => n.hasTicket c k
      | .logged _ n => n.hasTicket c k
      | _ => false)
    || s.ledger.waiting.any (fun w => w.2.2.hasTicket c k)
    || s.streams.any (fun p => p.2.notary.commits.any (fun x => decide (x.origin = c) && decide (x.ticket = k)))

/-- Whether a ticket of the same stream that was taken before is outstanding: tickets complete in issue order (R47). While
the stream is HELD, later work waits for the refused item's re-issue (R32), whose ticket then waits for no ticket of that
later work. -/
def ticketAhead (s : State) (c : Nat) (x : Ticket) : Bool :=
  s.tickets.any (fun p => decide (p.1 / 4096 = c) && !p.2.done && !p.2.old && decide (p.2.stream = x.stream)
    && decide (p.2.no < x.no)
    && (decide ((stream s x.stream).st ≠ .held)
      || (decide (p.2.ledger ≤ x.ledger) && (decide (p.2.ledger ≠ 0) || decide (x.ledger = 0)))))

/-- Whether an outstanding ticket has completed; one whose tile a reset discarded completes with its item, and the
tickets of one stream complete in issue order (R47). -/
def ticketEnds (s : State) (c k : Nat) (x : Ticket) : Bool :=
  !x.done && !ticketBusy s c k && !ticketAhead s c x &&
    (!x.lost || (match item? s x.ledger with
      | some i => i.complete
      | none => true))

/-- TICKET_COMPLETE (R42): wakes WAITT and what waited for a free ticket. -/
def execTicketComplete (c : BitVec 3) (k : BitVec 12) (s : State) : Host.Outcome State Fault Refusal :=
  match ticket? s c.toNat k.toNat with
  | none => .next s
  | some x =>
    if ticketEnds s c.toNat k.toNat x then
      .next (sweep (wakeClerk needsTicket c.toNat (onTicket c.toNat k.toNat (fun x => { x with done := true }) s)))
    else .next s

end Sys2Proof.Machine
end

