-- ==== Sys2Proof/Machine/Reserve.lean ====
section
/-!
DEFINITION. RESERVE at work by itself (R439, R449 to R456, R461 to R464): the patrol scrub, the sweeps and the margin
planner, rail requests, and the ends of swaps and reloads.
-/

namespace Sys2Proof.Machine

/-! ### The patrol scrub (R449, R450) -/

/-- A macro of a family as the lists of weak rows name it. -/
def macroName (f m : Nat) : Nat := 8192 * f + m

/-- Visits of one pass: every bucket of a sub-bank once. -/
def passVisits (s : State) : Nat := perSubBank s.build.size s.build.size.vaultUnits

/-- The physical bank of a VAULT macro serves a logical bank. -/
def servedBank (s : State) (p : Nat) : Option Nat :=
  if unitOut s 0 p then none
  else if p < s.build.size.vaultBanks ∨ functionOf s 0 p ≠ p then some (functionOf s 0 p)
  else none

/-- An uncorrectable word outside VAULT: its row is weak, the streams whose work lay there replay (Table 11.10). One in a
CLERK's program memory or in a thread's registers stops the CLERK (R95); which of a CLERK's macros holds them is open. -/
def macroDead (f m row : Nat) (ns : List Nat) (s : State) : State :=
  let first := (((ns.map (fun n => (unsettled s n).map Item.ledger)).flatten).head?).getD 0
  let s := audFault 2 m St.POISON first s
  let stops := decide (m % 5 = Config.programMacro % 5) || decide (m % 5 = Config.registerMacro % 5)
  let s := if f = 6 ∧ stops then stopClerk (m / 5) s else s
  replayStreams ns (remapRow f m row true s).1

/-- What the scrub does with a finding. -/
def takeFinding (s : State) (x : ScrubFinding) : State :=
  match x with
  | .corrected f m row =>
    let k := (macroName f.toNat m.toNat, row.toNat)
    let s := if f = 0 then bump R.VLT_CORR 1 s else s
    if s.reserve.weakNew.contains k then s
    else { s with reserve := { s.reserve with weakNew := s.reserve.weakNew ++ [k] } }
  | .dead f m row ns =>
    if f = 0 then
      let s := match servedBank s (m.toNat / 96) with
        | some b => poisonBank b s
        | none => s
      (remapRow 0 m.toNat row.toNat true s).1
    else macroDead f.toNat m.toNat row.toNat (ns.map BitVec.toNat) s

/-- Rows with a correctable error in two consecutive passes are weak; those of a macro in ascending order (R442,
Table 14.11). -/
def mapWeak (s : State) : State :=
  let twice := s.reserve.weakNew.filter (fun k => s.reserve.weakOld.contains k)
  let sorted := twice.mergeSort (fun a b => decide (a.1 < b.1) || (decide (a.1 = b.1) && decide (a.2 ≤ b.2)))
  sorted.foldl (fun s k => (remapRow (k.1 / 8192) (k.1 % 8192) k.2 true s).1) s

/-- The logical banks a pass has read whole and found clean. -/
def cleanBanks (s : State) : List Nat :=
  (List.range s.build.size.vaultBanks).filter (fun b =>
    !s.reserve.dirty.contains b && !s.reserve.poisoned.contains b && !s.reserve.absent.contains b
      && !s.reserve.left.contains (physOf s 0 b))

/-- A pass ends (R449, R450). -/
def endPass (s : State) : State :=
  let s := bump R.RSV_SCRUB_PASS 1 s
  let s := (cleanBanks s).foldl (fun s b => cleanCheck b s) s
  let s := mapWeak s
  let s := { s with reserve := { s.reserve with
    weakOld := s.reserve.weakNew, weakNew := [], visits := 0, dirty := [], left := [] } }
  automaticPass (endActivity scrubAct s)

/-- What a visit buys: a lookup in every sub-bank of every physical bank that the scrub has not left, the spare one
included (R433, R449). -/
def visitBill (s : State) : List (Nat × Nat) := [(1, 8 * (s.build.size.vaultBanks + 1 - s.reserve.left.length))]

/-- Whether a finding lies in a bank the scrub has left (Table 14.9). -/
def findingLeft (s : State) : ScrubFinding → Bool
  | .corrected f m _ => decide (f = 0) && s.reserve.left.contains (m.toNat / 96)
  | .dead f m _ _ => decide (f = 0) && s.reserve.left.contains (m.toNat / 96)

/-- One visit of the pass that runs, once it has been paid for; starts that waited for its reads go on. -/
def visitBody (findings : List ScrubFinding) (s : State) : State :=
  if !scrubRuns s then s
  else
    let s := (findings.filter (fun x => !findingLeft s x)).foldl takeFinding s
    let v := s.reserve.visits + 1
    let s := { s with reserve := { s.reserve with visits := v } }
    startWaiting (if passVisits s ≤ v then endPass s else s)

/-- PATROL_SCRUB: one visit of the pass that runs, bought in class 1; nothing is read while a running activity bars it. -/
def execPatrolScrub (findings : List ScrubFinding) (s : State) : Host.Outcome State Fault Refusal :=
  if !scrubRuns s || scrubBarred s || !clkUp s 3 then .next s
  else .next (sweep (buy 1 (visitBill s) (.patrolScrub findings) id (visitBody findings) s))

/-- SCRUB_PASS_START: RSV_MCTRL.START with ACT 1. -/
def execScrubPassStart (s : State) : Host.Outcome State Fault Refusal :=
  viaPort s (fun s => .next (if reserveUp s then driverStart scrubAct beginPass s else s))

/-! ### Sweeps (R452) -/

/-- The sweep of one of the four domains. -/
def sweepAct (d : Nat) : Activity := { code := Act.sweep, res := d, cls := 0 }

/-- SLACK_SWEEP: the sweep interval of CORE, MATCH, VAULT or CLEAR expires. -/
def execSlackSweep (domain : Fin 25) (s : State) : Host.Outcome State Fault Refusal :=
  let d := domain.val
  if !reserveUp s || !clkUp s 25 || decide (4 ≤ d) || decide (regField s R.RSV_AGE 0 8 = 0) then .next s
  else .next (startOrWait (sweepAct d) s)

/-- SWEEP_REQUEST: RSV_MCTRL.START with ACT 2 and a domain; MON carries the sweep out. -/
def execSweepRequest (value : Word32) (s : State) : Host.Outcome State Fault Refusal :=
  viaPort s (fun s => .next (
    let s := setReg R.RSV_MCTRL (bits value.toNat 0 6) s
    if reserveUp s && clkUp s 25 then driverStart (sweepAct (bits value.toNat 4 2)) id s else s))

/-! ### The margin planner (R451 to R455) -/

/-- Canaries of a domain. -/
abbrev canaries : Nat := 24

/-- The slack of canary `i` of domain `d`. -/
def slackOf (s : State) (d i : Nat) : Int := (BitVec.ofNat 10 (Tab.get 0 s.reserve.slack (canaries * d + i))).toInt

/-- Slacks recorded for the canaries of a domain. -/
def recordSlacks (d : Nat) (xs : List Slack) (t : Tab Nat) : Tab Nat :=
  ((xs.take canaries).zipIdx).foldl (fun t x => Tab.set 0 t (canaries * d + x.2) x.1.toNat) t

/-- The canary of a domain with the least slack: the first of them. -/
def leastCanary (s : State) (d : Nat) : Nat :=
  (List.range canaries).foldl (fun best i => if slackOf s d i < slackOf s d best then i else best) 0

/-- The site of a canary (Table 14.3): class, 7 for shared logic, and index. -/
def siteOf (s : State) (d i : Nat) : Nat × Nat :=
  match d with
  | 0 => if i < 8 then (6, i) else if i < 16 then (4, i - 8) else if i < 20 then (5, i - 16) else (2, i - 20)
  | 1 => if i < 22 then (1, 3 * i) else (7, i - 22)
  | 2 => if i ≤ s.build.size.vaultBanks then (0, i) else (7, i - s.build.size.vaultBanks - 1)
  | _ => if i < 22 then (3, i) else (7, i - 22)

/-- Whether a site covers a single unit of classes 0 to 3 that can be retired now: it is built and not leaving service
already, and a spare of its class is free, which an idle spare is itself. -/
def retirable (s : State) (d : Nat) (x : Nat × Nat) : Bool :=
  (decide (d = 1) || decide (d = 2)) && decide (x.1 < 2)
    && decide (x.2 < builtUnits s.build.size x.1 + builtSpares s.build.size x.1)
    && !leaving s x.1 x.2
    && (if idleSpare s x.1 x.2 then decide (sparesTaken s x.1 x.2 < (freeSpares s x.1).length)
        else !(sparesLeft s x.1 x.2).isEmpty)

/-- A domain's clock step. -/
def stepOfDomain (s : State) (d : Nat) : Nat := Tab.get 0 s.reserve.steps d

/-- The pending entry of a change of margin. -/
def noteMargin (d : Nat) (s : State) : State :=
  addPending { action := 4, cls := d, idx := stepOfDomain s d, row := s.reserve.vreq } s

/-- A domain's clock step changed by the planner. -/
def changeStep (d k : Nat) (s : State) : State :=
  noteMargin d { s with reserve := { s.reserve with steps := Tab.set 0 s.reserve.steps d k } }

/-- What the planner does for a domain when no voltage step can be had. -/
def planWithout (d : Nat) (s : State) : State :=
  let k := stepOfDomain s d
  if k < 3 then changeStep d (k + 1) (bump R.RSV_CSTEPS 1 s)
  else
    let x := siteOf s d (leastCanary s d)
    if retirable s d x then retireLive x.1 x.2 s
    else rsvEvent St.SPARE_OUT x.1 x.2 0 0 (setRegBit R.RSV_STAT 2 s)

/-- The rail request at the front: the planner asks for 10 mV more than is in force. -/
def railAsked (s : State) : Option (Nat × Nat) :=
  s.reserve.vask.head?.map (fun x => if x.2 < 4 then (s.reserve.vreq + 10, x.2) else x)

/-- Whether the planner may ask for a voltage step. -/
def stepAllowed (s : State) : Bool := decide (s.reserve.vreq + 10 ≤ vmax s)

/-- The rail requests after the one that was answered; a planner's request that VMAX no longer allows is none. -/
def nextAsk (fuel : Nat) (s : State) : State :=
  match fuel, s.reserve.vask with
  | f + 1, (_, d) :: rest =>
    if d < 4 ∧ !stepAllowed s then
      nextAsk f (planWithout d { s with reserve := { s.reserve with vask := rest } })
    else s
  | _, _ => s

/-- The planner at the end of a sweep of domain `d` (R453). A voltage step asked for by another domain is waited for: the
domain measures again at its next sweep (Table 14.11). -/
def plan (d : Nat) (s : State) : State :=
  let m := slackOf s d (leastCanary s d)
  let lo := regField s R.RSV_AGE 16 8
  let hi := regField s R.RSV_AGE 24 8
  if m < (lo : Int) then
    if s.reserve.vask.any (fun x => decide (x.2 < 4)) then s
    else if stepAllowed s then askRail 0 d s
    else planWithout d s
  else if (hi : Int) < m ∧ 0 < stepOfDomain s d then changeStep d (stepOfDomain s d - 1) s
  else s

/-- The sweep under way: the first that runs. -/
def sweepUnderWay (s : State) : Option Activity := s.reserve.acts.find? (fun a => decide (a.code = Act.sweep))

/-- SWEEP_END (R453). -/
def execSweepEnd (slacks : List Slack) (s : State) : Host.Outcome State Fault Refusal :=
  match sweepUnderWay s with
  | none => .next s
  | some a =>
    if !clkUp s 25 then .next s
    else
      let s := bump R.RSV_SWEEPS 1 { s with reserve := { s.reserve with
        slack := recordSlacks a.res slacks s.reserve.slack } }
      let s := endActivity a s
      .next (sweep (if bit (reg s R.RSV_AGE) 8 && reserveUp s then plan a.res s else s))

/-- SCALE for a rail voltage in mV (R430). -/
def scaleOf (mv : Nat) : Nat := (mv * 2048 + 750) / 1500

/-- VREQ_ACK (R455, R471): the request takes effect; prices follow at the next tick (R430). -/
def execVreqAck (s : State) : Host.Outcome State Fault Refusal :=
  match railAsked s with
  | none => .next s
  | some (mv, d) =>
    let s := { s with
      reserve := { s.reserve with vreq := mv, vask := s.reserve.vask.drop 1 },
      purse := { s.purse with nextScale := some (scaleOf mv) } }
    let s := if d < 4 then raise 13 (noteMargin d (bump R.RSV_VSTEPS 1 s)) else s
    .next (sweep (nextAsk s.reserve.vask.length s))

/-- VREQ_NAK (R455, R471): the planner goes on to its next action. -/
def execVreqNak (s : State) : Host.Outcome State Fault Refusal :=
  match railAsked s with
  | none => .next s
  | some (_, d) =>
    let s := setRegBit R.RSV_STAT 6 { s with reserve := { s.reserve with vask := s.reserve.vask.drop 1 } }
    let s := if d < 4 then planWithout d s else s
    .next (sweep (nextAsk s.reserve.vask.length s))

/-! ### Swaps and reloads that end -/

/-- A bank that has been filled is back: its poison is cleared, and it counts as clean (R392, R450). -/
def bankFull (b : Nat) (s : State) : State :=
  let s := bankBack b s
  if s.reserve.poisoned.contains b then clearPoison b s else cleanCheck b s

/-- A retired unit's function goes to its spare, or is lost when the spare is gone meanwhile (R439, R440). -/
def swapIn (cls i : Nat) (s : State) : State :=
  let u := functionOf s cls i
  match (freeSpares s cls).filter (· != i) with
  | p :: _ =>
    let s := standIn cls u p (takeOut cls i s)
    if cls = 0 then bankFull u s else s
  | [] =>
    let s := spareOut cls i (takeOut cls i s)
    if cls = 0 then bankAbsent u (bankBack u s) else s

/-- The swap's unit: a retired one is replaced, one out of service comes back, a family-7 macro gives way to its
twin. -/
def swapDone (a : Activity) (s : State) : State :=
  if a.cls = 7 then takeOut (macroClass 7) a.res s
  else if unitOut s a.cls a.res then
    let s := bringBack a.cls a.res s
    if a.cls = 0 then bankFull a.res s else s
  else swapIn a.cls a.res s

/-- Whether the spare bank's power domain is on its way. -/
def spareComing (s : State) : Bool :=
  let x := Tab.get .off s.power.pds 19
  decide (x = .waiting) || decide (x = .requested) || decide (x = .powered)

/-- Whether the golden copy an activity fills its bank from is still being read, or not yet. -/
def stillFilling (s : State) (a : Activity) : Bool :=
  (fillsSpare s a && spareComing s) ||
    (match bankFilled s a with
     | some b => goldenBusy s b
     | none => false)

/-- SPARE_SWAP_DONE (R439). -/
def execSpareSwapDone (s : State) : Host.Outcome State Fault Refusal :=
  match s.reserve.acts.find? (fun a => decide (a.code = Act.swap)) with
  | none => .next s
  | some a => .next (if stillFilling s a then s else sweep (endActivity a (swapDone a s)))

/-- VAULT_RELOAD_DONE (R392). -/
def execVaultReloadDone (bank : BitVec 4) (s : State) : Host.Outcome State Fault Refusal :=
  match s.reserve.acts.find? (fun a => decide (a.code = Act.vaultReload) && decide (a.res = bank.toNat)) with
  | none => .next s
  | some a => .next (if goldenBusy s bank.toNat then s else sweep (endActivity a (bankFull bank.toNat s)))

/-- PENDING_POP: RSV_PEND_CTL.POP (R456). -/
def execPendingPop (s : State) : Host.Outcome State Fault Refusal :=
  viaPort s (fun s => .next { s with reserve := { s.reserve with pending := s.reserve.pending.drop 1 } })

end Sys2Proof.Machine
end

