-- ==== Sys2Proof/Machine/Purse.lean ====
section
/-!
DEFINITION. PURSE (R419 to R437): the tick with its grant, the thermal step and the leakage reserve, the service of
waiting purchases, the allowance and the telemetry packets.
-/

namespace Sys2Proof.Machine

/-! ### The tick (R422 to R425, R430) -/

/-- Whether PURSE ticks: PD_BASE is up and REF runs (R474). -/
def purseUp (s : State) : Bool := pdUp s 0 && clkUp s 22

/-- A new SCALE takes effect (R430). -/
def tickScale (s : State) : State :=
  match s.purse.nextScale with
  | none => s
  | some v => setRegBit R.PUR_STAT 5 { s with purse := { s.purse with scale := v, nextScale := none } }

/-- The thermal step follows the hottest valid sample; after 10 ticks without one, 105 degrees Celsius is taken
(R425, R470). -/
def tickThermal (therm : List (BitVec 9)) (s : State) : State :=
  let dead := if therm.isEmpty then s.purse.dead + 1 else 0
  if therm.isEmpty && decide (dead < 10) then { s with purse := { s.purse with dead := dead } }
  else
    let t : Int := if therm.isEmpty then 105 else hottest therm
    { s with purse := { s.purse with
        dead := dead, temp := (BitVec.ofInt 9 t).toNat, step := thermalStep s.purse.step t } }

/-- The new estimate, in cents, from a telemetry sample in mA (R424). -/
def nextEstimate (est bought itel : Nat) : Nat :=
  let d := 100 * itel - bought
  ((est : Int) + ((d : Int) - (est : Int)).tdiv 256).toNat

/-- The estimate and the leakage reserve L, in cents. -/
def tickLeak (itel : Nat) (valid : Bool) (s : State) : State :=
  let least := 100 * reg s R.PUR_LEAK_MIN
  if bit (reg s R.PUR_CTRL) 0 then
    let e := if valid then nextEstimate s.purse.est s.purse.sinceTick itel else s.purse.est
    { s with purse := { s.purse with est := e, reserve := max least e } }
  else { s with purse := { s.purse with reserve := least } }

/-- The grant G in cents (R422). -/
def grantOf (s : State) : Nat :=
  let a := reg s R.PUR_ALLOW * (8 - s.purse.step) / 8
  max (100 * s.build.size.floor) (100 * a - s.purse.reserve)

/-- The cap of the balance for a grant, in cents. -/
def balanceCap (s : State) (g : Nat) : Nat := max (regField s R.PUR_CTRL 2 3 * g) 6400

/-- Whether a purchase of class 0 or 1 waits. -/
def purchaseWaits (s : State) : Bool := s.purse.queue.any (fun p => decide (p.cls < 2))

/-- The grant is added to the balance. -/
def tickGrant (s : State) : State :=
  let g := grantOf s
  { s with purse := { s.purse with grant := g, balance := min (balanceCap s g) (s.purse.balance + g) } }

/-- What a tick counts: ticks, those in which a purchase waited, and the start of a new microsecond of purchases. -/
def tickCount (s : State) : State :=
  let w := flag (purchaseWaits s)
  bump R.PUR_WAIT w { s with purse := { s.purse with
    ticks := s.purse.ticks + 1, periodTicks := s.purse.periodTicks + 1, periodWait := s.purse.periodWait + w,
    sinceTick := 0 } }

/-- The watchdog's tick (R493): its last one is WDOG_EXPIRE, after which the count stays 0 until a kick. Whether the refill
takes the tick divider in the same cycle is not stated, and a free value (R492). -/
def tickWatchdog (s : State) : State :=
  if regField s R.PWR_WDOG 0 16 = 0 then s
  else
    let s := { s with power := { s.power with wdog := if s.power.wdog ≤ 1 then s.power.wdog else s.power.wdog - 1 } }
    let (v, s) := takeFree s
    if v % 2 = 0 then s
    else noteLoss 2 (setRegBit R.PWR_RES 2 s)

/-- PWR_CLKOK shows every clock that runs (R474). -/
def tickClocks (s : State) : State :=
  setReg R.PWR_CLKOK (((List.range 25).map (fun i => flag (builtDomain s.build.size (i + 1) && !s.power.lostClk.contains (i + 1)) * 2 ^ i)).sum) s

/-- PURSE_TICK (R422). -/
def execPurseTick (therm : List (BitVec 9)) (itel : BitVec 16) (valid : Bool) (s : State) :
    Host.Outcome State Fault Refusal :=
  .next (if purseUp s then
    tickWatchdog (tickClocks (tickGrant (tickCount (tickLeak itel.toNat valid (tickThermal therm (tickScale s))))))
  else s)

/-! ### Telemetry (R437) -/

/-- PERIOD of PUR_TEL. -/
def telPeriod (s : State) : Nat := regField s R.PUR_TEL 0 16

/-- The entries of a telemetry packet. -/
def telemetryPacket (s : State) : List Nat :=
  let p := s.purse
  [0x10 * 2 ^ 54 + 2 * 2 ^ 48 + p.step % 4 * 2 ^ 46,
   p.ticks % 2 ^ 40 + p.periodWait % 2 ^ 22 * 2 ^ 40,
   p.period % 2 ^ 38 + p.reserve / 100 % 2 ^ 24 * 2 ^ 38]

/-- PURSE_TELEMETRY_PACKET: PERIOD ticks have passed. -/
def execPurseTelemetryPacket (s : State) : Host.Outcome State Fault Refusal :=
  if !purseUp s || decide (telPeriod s = 0) || decide (s.purse.periodTicks < telPeriod s) then .next s
  else
    let t := writePacket 2 (telemetryPacket s) s
    .next { t with purse := { t.purse with period := 0, periodTicks := 0, periodWait := 0 } }

/-! ### The allowance (R419) -/

/-- A write of PUR_ALLOW. -/
def writeAllow (v : Nat) (s : State) : State :=
  let a := v % 65536
  if s.build.size.floor ≤ a ∧ a ≤ reg s R.PUR_CEIL then setReg R.PUR_ALLOW a s else setRegBit R.PUR_STAT 0 s

/-- PUR_ALLOW_WRITE. -/
def execPurAllowWrite (v : Word32) (s : State) : Host.Outcome State Fault Refusal :=
  viaPort s (fun s => .next (writeAllow v.toNat s))

/-! ### The next purchase (R426, R427, R432) -/

/-- The first purchase of the highest class that waits. -/
def firstPurchase (s : State) : Option Purchase :=
  s.purse.queue.foldl (fun best p =>
    match best with
    | none => some p
    | some b => if classRank s p.cls < classRank s b.cls then some p else best) none

/-- The purchase PURSE serves next: the first of the highest class. A purchase that waits keeps its place; of CLEARING's
rows only the one on the lanes asks (R285). -/
def nextPurchase (s : State) : Option Purchase := firstPurchase s

/-- A purchase taken out of the queue: the first one like it. -/
def leavePurse (p : Purchase) (s : State) : State :=
  { s with purse := { s.purse with queue := s.purse.queue.erase p } }

/-- One unit of a bill taken off it. -/
def billRest : List (Nat × Nat) → List (Nat × Nat)
  | [] => []
  | (b, n) :: rest => if n ≤ 1 then rest else (b, n - 1) :: rest

/-- One unit of a purchase bought (R432); none while the balance does not cover it, or REF is lost (R474). What its
requester buys next is a later purchase, which goes behind those that wait (R427). Whether all is bought comes with
it. -/
def payPurchase (p : Purchase) (s : State) : Option (State × Bool) :=
  match p.bill with
  | [] => some (leavePurse p s, true)
  | (b, _) :: _ =>
    let c := unitPrice s b
    if s.purse.balance < c || !clkUp s 22 then none
    else
      let t := leavePurse p (spend c s)
      let rest := billRest p.bill
      if rest.all (fun x => x.1 * x.2 == 0) then some (t, true)
      else some (joinPurse { p with bill := rest } t, false)

end Sys2Proof.Machine
end

