-- ==== Sys2Proof/Machine/Power.lean ====
section
/-!
DEFINITION. Resets, clocks, power domains, the watchdog and test mode (R474 to R494, Tables 15.3, 15.4, 15.9): the
assertion and release of each reset, the loss and return of clocks and domains, and what the driver does with them.
-/

namespace Sys2Proof.Machine

/-! ### Clock domains in reset (R480 to R482) -/

/-- A clock domain is held in reset. -/
def holdDomain (d : Nat) (s : State) : State :=
  if s.power.held.contains d then s else { s with power := { s.power with held := s.power.held ++ [d] } }

/-- A keyed command whose HWM entry a reset of the LEDGER cut goes on; its mark is written once the journal is open
again (R408). -/
def carryMark (s : State) : State :=
  if waitsForMark s then carryOut { s with kcw := { s.kcw with hwmPend := true } } else s

/-- JOURNAL_ENABLE; a keyed command that waits for the journal does not wait for one that has closed (R408). -/
def execJournalEnable (v : Word32) (s : State) : Host.Outcome State Fault Refusal :=
  viaPort s fun s =>
    let t := writeLdgCtrl v.toNat s
    .next (sweep (if bit (reg t R.LDG_CTRL) 0 then t else carryMark t))

/-- What follows when a domain has entered reset. -/
def afterReset (d : Nat) (s : State) : State := settleAccesses (if d = 1 then carryMark s else s)

/-- A reset of a clock domain: what it clears, unless the domain is in reset already. -/
def assertReset (d : Nat) (s : State) : State :=
  let t := holdDomain d s
  if clkUp s d then afterReset d (enterReset d t) else t

/-- Whether something still holds a clock domain in reset. -/
def stillHeld (s : State) (d : Nat) : Bool :=
  s.power.byReg.contains d || s.power.byPin.contains d || (s.power.testMode && decide (d ≠ 23))

/-- A clock domain that runs again out of reset. -/
def wakeDomain (d : Nat) (s : State) : State := sweep (if d = 24 then checkHeld s else leaveReset d s)

/-- The release of a clock domain, when nothing holds it any longer. -/
def freeDomain (d : Nat) (s : State) : State :=
  if stillHeld s d then s
  else
    let t := { s with power := { s.power with held := s.power.held.filter (· != d) } }
    if s.power.lostClk.contains d then t else wakeDomain d t

/-- Whether a clock domain has an interface reset of its own (Table 15.2). -/
def hasPin (d : Nat) : Bool := (decide (5 ≤ d) && decide (d ≤ 21)) || decide (d = 24)

/-- The interface reset of a domain is asserted; cel_trst_n resets the TAP alone. -/
def assertPin (d : Nat) (s : State) : State :=
  if d = 23 then { s with testOut := 0 }
  else if !hasPin d || s.power.byPin.contains d then s
  else assertReset d { s with power := { s.power with byPin := s.power.byPin ++ [d] } }

/-- The interface reset of a domain asserted while PD_BASE is down: the input holds the domain once PD_BASE is up. -/
def notePin (d : Nat) (s : State) : State :=
  if hasPin d && !s.power.byPin.contains d then { s with power := { s.power with byPin := s.power.byPin ++ [d] } } else s

/-- DOMAIN_RESET (R477, R480). -/
def execDomainReset (domain : Fin 25) (s : State) : Host.Outcome State Fault Refusal :=
  .next (if pdUp s 0 then assertPin (domain.val + 1) s else notePin (domain.val + 1) s)

/-- INTERFACE_RESET_RELEASE (R477, Table 15.9). -/
def execInterfaceResetRelease (domain : Fin 25) (s : State) : Host.Outcome State Fault Refusal :=
  let d := domain.val + 1
  if s.power.byPin.contains d then
    let t := { s with power := { s.power with byPin := s.power.byPin.filter (· != d) } }
    .next (if pdUp s 0 then freeDomain d t else t)
  else .next s

/-- PWR_RST for one domain: a domain in reset for another cause is released when both have ended (Table 15.9). -/
def regReset1 (d : Nat) (s : State) : State :=
  if s.power.byReg.contains d || s.power.lostClk.contains d then s
  else assertReset d { s with power := { s.power with byReg := s.power.byReg ++ [d] } }

/-- The domains a write of PWR_RST resets: bits 19, 21 and 23 are ignored. -/
def rstDomains (z : Size) (v : Nat) : List Nat :=
  ((List.range 25).filter (fun i => bit v i && !([19, 21, 23].contains i) && builtDomain z (i + 1))).map (· + 1)

/-- PWR_RST (R482). -/
def execPwrRst (value : Word32) (s : State) : Host.Outcome State Fault Refusal :=
  viaPort s (fun s => .next ((rstDomains s.build.size value.toNat).foldl (fun s d => regReset1 d s) s))

/-- RESET_RELEASE (R482): the 64 cycles are over. -/
def execResetRelease (domain : Fin 25) (s : State) : Host.Outcome State Fault Refusal :=
  let d := domain.val + 1
  .next (if s.power.byReg.contains d then
    freeDomain d { s with power := { s.power with byReg := s.power.byReg.filter (· != d) } }
  else s)

/-! ### Clocks (R474) -/

/-- A clock is lost: its domain is held in reset. -/
def loseClock (d : Nat) (s : State) : State :=
  if s.power.lostClk.contains d then s
  else
    let t := { s with power := { s.power with lostClk := s.power.lostClk ++ [d] } }
    let t := bump R.PWR_CLKLOSS 1 (setRegBit R.PWR_STAT 4 (clearRegBit R.PWR_CLKOK (d - 1) t))
    let t := audFault 7 d 0 0 t
    if clkUp s d then afterReset d (enterReset d t) else t

/-- CLOCK_LOST. -/
def execClockLost (domain : Fin 25) (s : State) : Host.Outcome State Fault Refusal :=
  .next (if pdUp s 0 then loseClock (domain.val + 1) s else s)

/-- A lost clock runs again. -/
def findClock (d : Nat) (s : State) : State :=
  if !s.power.lostClk.contains d then s
  else
    let t := setRegBit R.PWR_CLKOK (d - 1)
      { s with power := { s.power with lostClk := s.power.lostClk.filter (· != d) } }
    if s.power.held.contains d then t else wakeDomain d t

/-- CLOCK_RESTORED. -/
def execClockRestored (domain : Fin 25) (s : State) : Host.Outcome State Fault Refusal :=
  .next (if pdUp s 0 then findClock (domain.val + 1) s else s)

/-! ### The whole block (R480) -/

/-- The block with every domain down: what lies outside it stays, which is the waiting commands, the build, the
inputs that hold a domain in reset, the clocks, the receivers' ready, and what a run has emitted (R18). -/
def blockDown (s : State) : State :=
  let b := State.start s.build
  { b with
    pending := s.pending, free := s.free, instId := s.instId, emitted := s.emitted,
    egress0 := { b.egress0 with ready := s.egress0.ready }, egress1 := { b.egress1 with ready := s.egress1.ready },
    power := { b.power with
      held := (List.range 25).map (· + 1), byPin := s.power.byPin, lostClk := s.power.lostClk, pds := [] } }

/-- BLOCK_RESET: cel_rst_n, or the fall of PD_BASE power-good. -/
def execBlockReset (s : State) : Host.Outcome State Fault Refusal := .next (blockDown s)

/-- PD_BASE_LEAVES_RESET (R7, R526): the identity is latched, and every domain that no input holds leaves reset. -/
def execPdBaseLeavesReset (instId : Word) (s : State) : Host.Outcome State Fault Refusal :=
  if pdUp s 0 then .next s
  else
    let t := blockDown s
    .next { t with
      instId := instId,
      power := { t.power with held := t.power.byPin, pds := [(0, .released)] } }

/-! ### Units and their power domains (Table 15.4) -/

/-- The power domain of a unit of Table 14.1 or of a port, the units of a class in proportion to the configuration. -/
def unitDomain (z : Size) (cls i : Nat) : Nat :=
  let n := builtUnits z cls
  match cls with
  | 0 => if i < n then 15 + i * 4 / n else 19
  | 1 => if i < n then 7 + i * 4 / n else 7 + 2 * (i - n)
  | 2 => if i < n then 11 + i * 4 / n else 12 + 2 * (i - n)
  | 3 => 22 + i % 2
  | 4 => 20 + i % 2
  | 5 => 24
  | 6 => 1 + i / 2
  | 7 => 26 + i % 2
  | 8 => 5
  | 10 => 28
  | _ => 25

/-- Units and spares of a class that are built; ports of classes 7 to 10 and the LEDGER station of class 11. -/
def unitsBuilt (z : Size) (cls : Nat) : Nat :=
  match cls with
  | 7 => memPorts z
  | 8 => ceilDiv z.lanes 2
  | 9 => 2
  | 10 => 1
  | 11 => 1
  | _ => builtUnits z cls + builtSpares z cls

/-- The units of a class in a power domain, spares first. -/
def unitsOfDomain (z : Size) (d cls : Nat) : List Nat :=
  let is := (List.range (unitsBuilt z cls)).filter (fun i => decide (unitDomain z cls i = d))
  is.filter (fun i => decide (builtUnits z cls ≤ i)) ++ is.filter (fun i => decide (i < builtUnits z cls))

/-! ### Roll call (R504, Table 16.3) -/

/-- A unit or port is missing: its function goes to a spare or is lost, with a pending RETIRE entry; a station unit shows
in AUD_FAULT (Table 11.10). -/
def markMissing (cls i : Nat) (s : State) : State :=
  if portMissing s cls i || decide (unitsBuilt s.build.size cls ≤ i) || (decide (cls < 7) && unitOut s cls i) then s
  else
    let u : UnitId := { cls := BitVec.ofNat 4 cls, idx := BitVec.ofNat 12 i }
    let s := { s with boot := { s.boot with missing := s.boot.missing ++ [u] } }
    let s := if 1 ≤ cls ∧ cls ≤ 5 then audFault 1 i 0 0 s else s
    if cls < 7 then retireLive cls i s else s

/-- The power domain a map entry belongs to (Tables 14.2, 14.5, 15.4); shared macros of family 7 count to PD_ASSAY. -/
def repairDomain (z : Size) (r : Repair) : Nat :=
  if r.action = 1 then
    if r.cls = 0 then unitDomain z 0 (r.idx / 96)
    else if r.cls = 1 then unitDomain z 1 (r.idx / 64)
    else if r.cls = 3 then 22 + r.idx % 2
    else if r.cls = 4 then unitDomain z 4 (r.idx / 4)
    else if r.cls = 6 then unitDomain z 6 (r.idx / 5)
    else 6
  else unitDomain z r.cls r.idx

/-- The map's entries for a domain, applied once, as it is released (R502); MARGIN entries belong to no domain. -/
def applyMap (d : Nat) (s : State) : State :=
  if s.boot.applied.contains d then s
  else
    let rs := s.reserve.map.filter (fun r => decide (r.action ≠ 4) && decide (repairDomain s.build.size r = d))
    rs.foldl (fun s r => (applyRepair r s).1) { s with boot := { s.boot with applied := s.boot.applied ++ [d] } }

/-- A unit of a domain that has not posted: it is missing from now on, and a pending RETIRE entry says so (R504); one that
went with its domain is out already. -/
def stayMissing (cls i : Nat) (s : State) : State :=
  if s.power.gone.contains (cls, i) then
    let u : UnitId := { cls := BitVec.ofNat 4 cls, idx := BitVec.ofNat 12 i }
    let s := { s with
      boot := { s.boot with missing := s.boot.missing.insert u },
      power := { s.power with gone := s.power.gone.filter (· != (cls, i)) } }
    if 1 ≤ cls ∧ cls ≤ 5 then audFault 1 i 0 0 s else s
  else markMissing cls i s

/-- Every unit of a power domain is missing, but for those the map retires (R502). -/
def missDomain (d : Nat) (s : State) : State :=
  let s := if 2 ≤ s.boot.phase then applyMap d s else s
  (List.range 12).foldl (fun s cls => (unitsOfDomain s.build.size d cls).foldl (fun s i => stayMissing cls i s) s) s

/-! ### Power domains that fail (R488, R489, Table 15.4) -/

/-- The first failure of a power domain since PWR_PDERR was cleared. -/
def pdError (d kind : Nat) (s : State) : State :=
  if bit (reg s R.PWR_PDERR) 31 then s else setReg R.PWR_PDERR (d + kind * 2 ^ 5 + 2 ^ 31) s

/-- Units go out of service with their domain, each with a pending entry (R456), and come back with it. -/
def retireWith (cls : Nat) (is : List Nat) (s : State) : State :=
  is.foldl (fun s i =>
    if unitOut s cls i then s
    else
      let t := retireLive cls i s
      { t with power := { t.power with gone := t.power.gone ++ [(cls, i)] } }) s

/-- A logical bank whose physical bank has no power: lookups in it wait until a spare is filled or the images are loaded
again without it. -/
def bankGone (p : Nat) (s : State) : State :=
  match servedBank s p with
  | none => s
  | some b => if s.reserve.absent.contains b then s
      else { s with reserve := { s.reserve with absent := s.reserve.absent ++ [b] } }

/-- What program memory and scratch of a CLERK hold after they have been without power: free values (log entry 7). -/
def loseMemory (c : Nat) (s : State) : State :=
  let v (i : Nat) : Nat := Config.freeValue (s.free + i)
  { s with
    free := s.free + 8192 + scratchSize,
    prog := (List.range 8192).foldl (fun t i => Tab.set 0 t (8192 * c + i) (BitVec.ofNat 64 (v i))) s.prog,
    scratch := placeBytes s.scratch (c * scratchSize)
      ((List.range scratchSize).map (fun i => BitVec.ofNat 8 (v (8192 + i)))) }

/-- A CLERK without power stops with FATAL; its program memory, scratch and entry queue are lost. -/
def loseClerk (c : Nat) (s : State) : State :=
  let s := stopClerk c s
  loseMemory c { s with day := { s.day with queues := Tab.erase s.day.queues c } }

/-- The LEDGER's domain is lost: the journal is not ready, queues 0 and 1 are empty, records go back to their sinks, and a
keyed command that waits for its HWM entry goes on without it (R408). -/
def loseLedger (s : State) : State :=
  let s := resetEgress 1 (resetEgress 0 s)
  carryMark { s with
    queue0 := Queue.empty, queue1 := Queue.empty,
    ledger := { s.ledger with ready := false, replaying := false, packets := [], aged := 0 } }

/-- Lines on their way at a memory port are sent again by its partner; no retry is counted. -/
def moveLines (p : Nat) (s : State) : State :=
  sendAll (onLine (fun l => decide (l.port = p) && (decide (l.st = .out) || decide (l.st = .backoff)))
    (fun _ l => { l with st := .unsent }) s)

/-- The last column of Table 15.4. Before roll call the units have nothing to lose but what a CLERK, the queues and the ports
hold. -/
def domainLost (d : Nat) (s : State) : State :=
  let z := s.build.size
  if s.boot.phase < 3 ∧ 7 ≤ d ∧ d ≤ 21 then s
  else if d ≤ 4 then (unitsOfDomain z d 6).foldl (fun s c => loseClerk c s) s
  else if d = 5 then (List.range 4).foldl (fun s p => resetIngress p s) s
  else if d ≤ 6 then s
  else if d ≤ 10 then resetMatch (retireWith 1 (unitsOfDomain z d 1) s)
  else if d ≤ 14 then
    replayStreams (tileStreams (queueAt s Hop.MINT ++ overflowTiles s)) (retireWith 2 (unitsOfDomain z d 2) s)
  else if d ≤ 18 then
    let ps := unitsOfDomain z d 0
    retireWith 0 ps (ps.foldl (fun s p => bankGone p s) s)
  else if d = 19 then retireWith 0 (unitsOfDomain z d 0) s
  else if d ≤ 21 then retireWith 4 (unitsOfDomain z d 4) s
  else if d ≤ 23 then resetClear s
  else if d = 25 then loseLedger s
  else if d = 26 ∨ d = 27 then (unitsOfDomain z d 7).foldl (fun s p => moveLines p s) s
  else if d = 28 then resetLogit s
  else if d = 29 then resetDebug s
  else s

/-- A domain that fell: from roll call of bring-up to READY its units are missing (Table 16.8); it has the effect of
Table 15.4. -/
def domainFails (d : Nat) (s : State) : State :=
  let s := setPd d .failed s
  sweep (domainLost d (if 3 ≤ s.boot.phase ∧ s.boot.phase < 6 then missDomain d s else s))

/-- Power-good has not come in time: from roll call on, the units of the domain are missing (R488). -/
def timeOut (d : Nat) (s : State) : State :=
  let s := startPds (setPd d .failed (pdError d 1 (setRegBit R.PWR_STAT 2 s)))
  if 3 ≤ s.boot.phase then sweep (missDomain d s) else s

/-- PG_TIMEOUT (R488). -/
def execPgTimeout (pd : Fin 30) (s : State) : Host.Outcome State Fault Refusal :=
  .next (if Tab.get .off s.power.pds pd.val = .requested then timeOut pd.val s else s)

/-- PG_FAULT (R489): a fall while the domain is switching counts as a timeout (Table 15.9). -/
def execPgFault (pd : Fin 30) (s : State) : Host.Outcome State Fault Refusal :=
  let d := pd.val
  let x := Tab.get .off s.power.pds d
  if d = 0 then .next (if pdUp s 0 then blockDown s else s)
  else if x = .requested then .next (timeOut d s)
  else if x = .powered ∨ x = .released then
    .next (domainFails d (audFault 7 d 0 0 (bump R.PWR_PGFAULT 1 (setRegBit R.PWR_STAT 3 (pdError d 2 s)))))
  else .next s

/-! ### Power domains that come up (R485, R490) -/

/-- POWER_GOOD (R485). -/
def execPowerGood (pd : Fin 30) (s : State) : Host.Outcome State Fault Refusal :=
  .next (if decide (Tab.get .off s.power.pds pd.val = .requested) && clkUp s 22 then
    startPds (setPd pd.val .powered s)
  else s)

/-- A swap that would have replaced a unit that is back ends without doing so; the unit itself is filled. -/
def dropSwap (cls i : Nat) (s : State) : State :=
  if unitOut s cls i then s
  else
    let mine (a : Activity) : Bool := decide (a.code = Act.swap) && decide (a.cls = cls) && decide (a.res = i)
    let s := takeOut cls i { s with reserve := { s.reserve with waits := s.reserve.waits.filter (fun a => !mine a) } }
    (s.reserve.acts.filter mine).foldl (fun s a => endActivity a s) s

/-- A unit that passes the roll call of its domain's return is in service again, after its fill (R490). -/
def unitBack (cls i : Nat) (s : State) : State := restoreUnit cls i (dropSwap cls i s)

/-- The units of a domain that were missing. -/
def missingOf (s : State) (d : Nat) : List UnitId :=
  s.boot.missing.filter (fun u => decide (unitDomain s.build.size u.cls.toNat u.idx.toNat = d))

/-- The roll call of a domain switched on again: its units that post are back, its ports post (R490, R526). -/
def rollCallAgain (d : Nat) (s : State) : State :=
  let silent := s.power.silent.filter (fun u => decide (unitDomain s.build.size u.cls.toNat u.idx.toNat = d))
  let s := silent.foldl (fun s u => stayMissing u.cls.toNat u.idx.toNat s)
    { s with power := { s.power with silent := s.power.silent.filter (fun u => !silent.contains u) } }
  let posted (u : UnitId) : Bool := !silent.contains u
  let back := (s.power.gone.filter (fun x => decide (unitDomain s.build.size x.1 x.2 = d)))
    ++ ((missingOf s d).filter (fun u => posted u && decide (u.cls.toNat < 7))).map (fun u => (u.cls.toNat, u.idx.toNat))
  let s := { s with
    boot := { s.boot with missing := s.boot.missing.filter (fun u => !((missingOf s d).contains u && posted u)) },
    power := { s.power with gone := s.power.gone.filter (fun x => !back.contains x) } }
  back.foldl (fun s x => unitBack x.1 x.2 s) s

/-- The streams that are not FREE and satisfy a test. -/
def streamsThat (s : State) (p : Nat → Bool) : List Nat :=
  (s.streams.filter (fun x => decide (x.2.st ≠ .free) && p x.1)).map Prod.fst

/-- The thread that waits for what follows a journal entry. -/
def After.who : After → Option Who
  | .posted w _ _ => some w
  | .paid w _ _ _ => some w
  | .settledBy w _ _ => some w
  | .opened w _ _ => some w
  | .closed0 (some (w, _)) _ => some w
  | _ => none

/-- The threads whose journal entries were not written. -/
def cutThreads (s : State) : List Who :=
  (s.accesses.filterMap (fun a => match a.job with
    | .journal _ n => n.who
    | .logged _ n => n.who
    | _ => none)) ++ s.ledger.waiting.filterMap (fun w => w.2.2.who)

/-- A thread issues again the instruction whose entry was not written; one that was told to halt stops. -/
def cutThread (s : State) (w : Who) : State :=
  onThread w (fun t => if t.wait = .busy then
    { t with wait := .ready, st := if t.stopAfter then .halted else t.st, stopAfter := false } else t) s

/-- The LEDGER is back: what was on its way is discarded, and the journal replays whole (R481). -/
def ledgerBack (s : State) : State :=
  let s := (cutThreads s).foldl cutThread s
  let s := (s.streams.map Prod.fst).foldl (fun s n => discardTiles n s) s
  let s := carryMark (dropAccesses (fun a => a.job.toMirrors || a.job.isReplay) s)
  openStored { s with tickets := s.tickets.map (fun p => if p.2.done then p else (p.1, { p.2 with lost := true })) }

/-- What the return of a domain does to the streams whose state it held. -/
def domainBack (d : Nat) (s : State) : State :=
  if d ≤ 4 then replayStreams (streamsThat s (fun n => decide (1 + home n / 2 = d))) s
  else if d = 5 ∨ d = 6 ∨ d = 24 then replayStreams (streamsThat s (fun _ => true)) s
  else if d = 25 then ledgerBack s
  else s

/-- The spare bank has power: a swap that waited for it is filled (R491). -/
def fillSpare (s : State) : State :=
  match s.reserve.acts.find? (fillsSpare s) with
  | some a => fillFor a s
  | none => s

/-- The bring-up group of a power domain (Table 16.2). -/
def groupOf (d : Nat) : Nat :=
  if d = 26 ∨ d = 27 then 0
  else if d ≤ 5 ∨ d = 25 then 1
  else if d ≤ 10 ∨ d = 24 then 2
  else if d ≤ 14 ∨ d = 20 ∨ d = 21 then 3
  else if d ≤ 19 ∨ d = 22 then 4
  else 5

/-- Whether a domain of a group is still switching on. -/
def groupSwitching (s : State) (g : Nat) : Bool :=
  (List.range 30).any (fun d => decide (groupOf d = g) && decide (d ≠ 0) &&
    (switching s d || decide (Tab.get .off s.power.pds d = .waiting)))

/-- Whether a domain of a group has not been released and not failed. -/
def groupComing (s : State) (g : Nat) : Bool :=
  (List.range 30).any (fun d => decide (groupOf d = g) && decide (d ≠ 0) &&
    (let x := Tab.get .off s.power.pds d
     decide (x = .waiting) || decide (x = .requested) || decide (x = .powered)))

/-- Both copies of the map are read once the memory ports are up (Table 16.1). -/
def readMaps (s : State) : State :=
  if decide (s.boot.phase = 1) && !groupComing s 0 && !mapBusy s && s.reserve.copies.isEmpty then
    readCopy 1 (readCopy 0 s)
  else s

/-- A domain is released: the map's entries for it are applied; one that is switched on after the POWER phase of bring-up
takes roll call for its own units (R490, R502, R504). -/
def domainReleased (d : Nat) (s : State) : State :=
  let s := if 2 ≤ s.boot.phase then applyMap d s else s
  if 3 ≤ s.boot.phase then
    let s := rollCallAgain d (if d = 19 then fillSpare s else s)
    sweep (raise 0 (domainBack d s))
  else sweep (readMaps s)

/-- PD_RELEASE (R485): isolation and reset are released. -/
def execPdRelease (pd : Fin 30) (s : State) : Host.Outcome State Fault Refusal :=
  .next (if decide (Tab.get .off s.power.pds pd.val = .powered) && clkUp s 22 then
    domainReleased pd.val (setPd pd.val .released s)
  else s)

/-! ### What the driver switches (R490, R491) -/

/-- PD_RETRY (R490): a domain off after a failure is switched on again. -/
def execPdRetry (value : Word32) (s : State) : Host.Outcome State Fault Refusal :=
  let d := bits value.toNat 0 5
  viaPort s (fun s => .next (if bit value.toNat 31 && decide (d < 30) && decide (Tab.get .off s.power.pds d = .failed) then
    askPd d s else s))

/-- Whether the spare bank stands in for a bank, or a swap fills it. -/
def spareBusy (s : State) : Bool :=
  s.reserve.stand.any (fun x => x.1 == 0) || s.reserve.acts.any (fillsSpare s)

/-- The bit of PWR_PDCTRL of a domain the driver may switch off. -/
def offBit (d : Nat) : Option Nat :=
  if d = 29 then some 0 else if d = 19 then some 1 else if d = 28 then some 2 else none

/-- Whether PWR_PDCTRL keeps a domain off. -/
def keptOff (s : State) (d : Nat) : Bool :=
  match offBit d with
  | some i => bit (reg s R.PWR_PDCTRL) i
  | none => false

/-- A domain follows its bit of PWR_PDCTRL once bring-up has reached its group. -/
def switchDomain (d : Nat) (s : State) : State :=
  let x := Tab.get .off s.power.pds d
  if keptOff s d then
    if x = .waiting ∨ x = .requested ∨ x = .powered ∨ x = .released then
      let t := startPds (setPd d .off s)
      if d = 29 then resetDebug t else t
    else s
  else if x = .off ∧ (3 ≤ s.boot.phase ∨ (s.boot.phase = 2 ∧ groupOf d ≤ s.boot.group)) then askPd d s
  else s

/-- A write of PWR_PDCTRL. -/
def writePdCtrl (v : Nat) (s : State) : State :=
  if bit v 1 && spareBusy s then setRegBit R.PWR_STAT 0 s
  else switchDomain 28 (switchDomain 19 (switchDomain 29 (setReg R.PWR_PDCTRL (v % 8) s)))

/-- PD_SWITCH (R491). -/
def execPdSwitch (value : Word32) (s : State) : Host.Outcome State Fault Refusal :=
  viaPort s (fun s => .next (sweep (writePdCtrl value.toNat s)))

/-! ### Memory links (R394, Table 11.10) -/

/-- MEMORY_LINK_ERROR: the port's channels move to its partner. -/
def execMemoryLinkError (port : BitVec 3) (s : State) : Host.Outcome State Fault Refusal :=
  let p := port.toNat
  if !pdUp s 0 || s.power.linkDown.contains p || decide (memPorts s.build.size ≤ p) then .next s
  else .next (moveLines p (audFault 4 p 0 0 { s with power := { s.power with linkDown := s.power.linkDown ++ [p] } }))

/-! ### The watchdog (R493) -/

/-- PERIOD of PWR_WDOG. -/
def wdogPeriod (s : State) : Nat := regField s R.PWR_WDOG 0 16

/-- A write of PWR_WDOG: the count starts at the new PERIOD. -/
def writeWdog (v : Nat) (s : State) : State :=
  let s := setReg R.PWR_WDOG (v % 2 ^ 17) s
  { s with power := { s.power with wdog := wdogPeriod s } }

/-- WDOG_EXPIRE: the count reaches 0. -/
def execWdogExpire (s : State) : Host.Outcome State Fault Refusal :=
  if !purseUp s || decide (wdogPeriod s = 0) || decide (s.power.wdog ≠ 1) then .next s
  else
    let t := setRegBit R.PWR_STAT 5 { s with power := { s.power with wdog := 0 } }
    .next (if bit (reg s R.PWR_WDOG) 16 then sweep ((List.range 8).foldl (fun s c => haltClerk c s) t) else t)

/-- WDOG_KICK: only 0xA5 reloads the count. -/
def execWdogKick (value : Word32) (s : State) : Host.Outcome State Fault Refusal :=
  viaPort s (fun s => .next (if value = 0xA5 then { s with power := { s.power with wdog := wdogPeriod s } } else s))

/-! ### Test mode (R494) -/

/-- Whether an access writes what a keyed command whose effect has begun places. -/
def Job.ofEffect : Job → Bool
  | .mapWrite _ _ => true
  | .placed _ _ => true
  | .placedGrammar _ _ => true
  | .placedSet _ _ => true
  | _ => false

/-- A line that is over, or counts as answered. -/
def Line.finish (l : Line) : Line := if l.over then l else { l with st := .gone St.OK }

/-- The writes of a keyed command whose effect has begun end, one after the other, before scan opens: each as answered, for
no other outcome of them shows before cel_rst_n (Table 15.9, log entry 191). -/
def finishEffect (fuel : Nat) (s : State) : State :=
  match fuel with
  | 0 => s
  | f + 1 =>
    match s.accesses.find? (fun a => a.job.ofEffect) with
    | none => s
    | some a => finishEffect f (endAccess { a with lines := a.lines.map Line.finish } s)

/-- A keyed command under way when cel_test_mode rises: it ends with ST_KEY_EMPTY unless its effect has begun; then it is
completed first (Table 15.9). -/
def endForTest (s : State) : State :=
  match s.kcw.run with
  | none => s
  | some r =>
    match r.stage with
    | .ready | .backoff | .journal => endKeyed St.KEY_EMPTY s
    | .coins | .image => endLoading St.KEY_EMPTY s
    | .placing | .mapping => finishEffect 4 s
    | .zeroing => endKeyed St.OK s

/-- TEST_MODE: keys and scopes go, and every domain but DBG is held in reset, until cel_rst_n. -/
def execTestMode (s : State) : Host.Outcome State Fault Refusal :=
  if s.power.testMode then .next s
  else
    let s := endForTest s
    let s := { s with kcw := { s.kcw with keys := [], scopes := 0 }, power := { s.power with testMode := true } }
    .next ((((List.range 25).map (· + 1)).filter (· != 23)).foldl (fun s d => assertReset d s) s)

end Sys2Proof.Machine
end

