-- ==== Sys2Proof/Machine/Boot.lean ====
section
/-!
DEFINITION. Bring-up (R498 to R507, R526): the phases of Table 16.1, the power-up groups, roll call, the baseline and
what READY does.
-/

namespace Sys2Proof.Machine

/-- The domains of a group. -/
def groupDomains (g : Nat) : List Nat := ((List.range 29).map (· + 1)).filter (fun d => decide (groupOf d = g))

/-- A group is switched on, but for the domains that PWR_PDCTRL keeps off (R500, R501). -/
def requestGroup (g : Nat) (s : State) : State :=
  (groupDomains g).foldl (fun s d =>
    if keptOff s d || decide (Tab.get .off s.power.pds d ≠ .off) then s else askPd d s) s

/-- GBL_BOOT written with GO: bring-up starts from IDLE (R499). -/
def startBoot (s : State) : State :=
  if s.boot.phase ≠ 0 then s
  else requestGroup 0 { s with boot := { s.boot with phase := 1, goTick := s.purse.ticks, group := 0 } }

/-- BOOT_GO. -/
def execBootGo (s : State) : Host.Outcome State Fault Refusal := viaPort s (fun s => .next (startBoot s))

/-- POWER_GROUP_START (R500): every domain of the group before has crossed power-good or timed out. -/
def execPowerGroupStart (s : State) : Host.Outcome State Fault Refusal :=
  let g := s.boot.group
  if s.boot.phase ≠ 2 ∨ 5 ≤ g ∨ groupSwitching s g ∨ !clkUp s 22 then .next s
  else .next (requestGroup (g + 1) { s with boot := { s.boot with group := g + 1 } })

/-! ### The ends of the phases -/

/-- The MARGIN entries of the map in force: the clock steps, and the rail voltage of the last one (R502). -/
def applyMargins (s : State) : State :=
  let ms := s.reserve.map.filter (fun r => decide (r.action = 4))
  let s := { s with reserve := { s.reserve with
    steps := ms.foldl (fun t r => Tab.set 0 t r.cls r.idx) s.reserve.steps } }
  match ms.getLast? with
  | some r => if r.row = s.reserve.vreq then s else askRail r.row 4 s
  | none => s

/-- Whether phase MAP can end: the memory ports have come up or failed, and no read of the map is under way or still
possible. -/
def mapDone (s : State) : Bool :=
  let up := (List.range (memPorts s.build.size)).any (portUp s)
  !groupComing s 0 && (!up || (!mapBusy s && !s.reserve.copies.isEmpty))

/-- The end of MAP: a copy is chosen; what cannot be read any more is dropped. -/
def endMap (s : State) : State :=
  let s := dropAccesses (fun a => a.job.ofMap) s
  let s := applyMargins (chooseMap s)
  let s := { s with boot := { s.boot with phase := 2 } }
  applyMap 27 (applyMap 26 s)

/-- The end of POWER: what has not been released counts as failed, and its units as missing (R501). -/
def endPower (s : State) : State :=
  ((List.range 29).map (· + 1)).foldl (fun s d =>
    let x := Tab.get .off s.power.pds d
    if x = .released ∨ (x = .off ∧ keptOff s d) then s
    else missDomain d (setPd d .failed (pdError d 1 s))) { s with boot := { s.boot with phase := 3 } }

/-- The end of ROLL. -/
def endRoll (s : State) : State := { s with boot := { s.boot with phase := 4 } }

/-- The end of BASELINE: every canary's slack is its baseline. -/
def endBaseline (slacks : List (List Slack)) (s : State) : State :=
  let t := ((slacks.take 4).zipIdx).foldl (fun t x => recordSlacks x.2 x.1 t) s.reserve.slack
  { s with reserve := { s.reserve with slack := t, base := t }, boot := { s.boot with phase := 5 } }

/-- The ROLL packet of a missing unit (Table 16.6); CLASS 7 for a port. -/
def rollPacket (u : UnitId) : Nat := 0x11 * 2 ^ 54 + min 7 u.cls.toNat * 2 ^ 45 + u.idx.toNat * 2 ^ 29

/-- Missing units and ports: the LEDGER station itself is none of them. -/
def missingUnits (s : State) : List UnitId := s.boot.missing.filter (fun u => decide (u.cls.toNat ≤ 10))

/-- READY (R499, R503, R505, R506, R526): program memory, scratch and the hold buffer are zeroed; BTIME, the BOOT event,
the ROLL packets, the first scrub pass, and the keyed command that was held. -/
def becomeReady (s : State) : State :=
  let s := { s with
    prog := [], scratch := [], clear := { s.clear with rows := [], port := none }, boot := { s.boot with phase := 6 } }
  let s := raise 0 (setReg R.GBL_BTIME ((s.purse.ticks - s.boot.goTick) % 65536) s)
  let s := (missingUnits s).foldl (fun s u => writePacket 2 [rollPacket u] s) s
  let s := if decide (regField s R.RSV_AGE 0 8 ≠ 0) && clkUp s 25 then
      (List.range 4).foldl (fun s d => startOrWait (sweepAct d) s) s
    else s
  sweep (checkHeld (automaticPass s))

/-- What the end of a phase does; a phase whose condition does not hold goes on. -/
def endPhase (slacks : List (List Slack)) (s : State) : State :=
  match s.boot.phase with
  | 1 => if mapDone s then endMap s else s
  | 2 => endPower s
  | 3 => endRoll s
  | 4 => endBaseline slacks s
  | 5 => if clkUp s 1 then becomeReady s else s
  | _ => s

/-- BOOT_PHASE_END (R499). -/
def execBootPhaseEnd (baseline : List (List Slack)) (s : State) : Host.Outcome State Fault Refusal :=
  .next (if pdUp s 0 && clkUp s 22 then endPhase baseline s else s)

/-- A unit of a domain switched on again has not posted; the roll call of the domain ends with its release (R490). -/
def unitSilent (u : UnitId) (s : State) : State :=
  if decide (u.cls.toNat < 11) && decide (u.idx.toNat < unitsBuilt s.build.size u.cls.toNat) &&
      decide (Tab.get .off s.power.pds (unitDomain s.build.size u.cls.toNat u.idx.toNat) = .powered) then
    { s with power := { s.power with silent := s.power.silent.insert u } }
  else s

/-- UNIT_MISSING (R504): a unit has not posted at roll call, of bring-up or of a domain switched on after it. -/
def execUnitMissing (u : UnitId) (s : State) : Host.Outcome State Fault Refusal :=
  let again := decide (3 ≤ s.boot.phase) &&
    decide (Tab.get .off s.power.pds (unitDomain s.build.size u.cls.toNat u.idx.toNat) = .powered)
  .next (if again || decide (4 ≤ s.boot.phase) then unitSilent u s
  else if decide (1 ≤ s.boot.phase) && decide (u.cls.toNat < 11) then markMissing u.cls.toNat u.idx.toNat s
  else s)

end Sys2Proof.Machine
end

