-- ==== Sys2Proof/Machine/Exchange.lean ====
section
/-!
DEFINITION. EXCHANGE and ESCROW (R309 to R323): tokens to bytes, the UTF-8 stage, stop strings, and the text tiles
that leave.
-/

namespace Sys2Proof.Machine

/-- EXCHANGE at work: the stream's ESCROW state, the bytes released, and the counts of the tile; `hit` the stop
string that completed. -/
structure ExcRun where
  ctx : EscrowCtx
  out : List Byte
  tokens : Nat
  invalid : Nat
  fffd : Nat
  withheld : Nat
  hit : Option Nat
  deriving DecidableEq, Repr

/-! ### ESCROW (R315) -/

/-- The stop strings that end at the last byte of H, as start and index. -/
def stopsEnding (stops : List (List Byte)) (h : List Byte) : List (Nat × Nat) :=
  ((stops.zipIdx).filter (fun p => !p.1.isEmpty && p.1.isSuffixOf h)).map (fun p => (h.length - p.1.length, p.2))

/-- The earliest start, and the lowest index among identical strings. -/
def firstStop : List (Nat × Nat) → Option (Nat × Nat)
  | [] => none
  | p :: ps =>
    match firstStop ps with
    | some q => if q.1 < p.1 ∨ (q.1 = p.1 ∧ q.2 < p.2) then some q else some p
    | none => some p

/-- The smallest place from which H is a proper prefix of a stop string, or its length. -/
def holdFrom (stops : List (List Byte)) (h : List Byte) : Nat :=
  ((List.range h.length).find? (fun i =>
    stops.any (fun p => decide (h.length - i < p.length) && (h.drop i).isPrefixOf p))).getD h.length

/-- One byte at ESCROW; once a stop string has completed, every later byte is withheld. -/
def escrowByte (r : ExcRun) (b : Byte) : ExcRun :=
  if r.hit.isSome then { r with withheld := r.withheld + 1 }
  else
    let h := r.ctx.hold ++ [b]
    match firstStop (stopsEnding r.ctx.stops h) with
    | some (i, k) =>
      { r with
        out := r.out ++ h.take i, withheld := r.withheld + (h.length - i), hit := some k,
        ctx := { r.ctx with hold := [] } }
    | none =>
      let p := holdFrom r.ctx.stops h
      { r with out := r.out ++ h.take p, ctx := { r.ctx with hold := h.drop p } }

/-! ### The UTF-8 stage (R314) -/

/-- A maximal subpart under the output policy (Table 9.2). -/
def subpart (replace : Bool) (bs : List Byte) (r : ExcRun) : ExcRun :=
  let r := { r with invalid := r.invalid + bs.length, fffd := r.fffd + flag replace }
  (if replace then utf8Enc 0xFFFD else bs).foldl escrowByte r

/-- The bytes of one token through the UTF-8 stage and ESCROW. -/
def feedToken (im : TokImage) (r : ExcRun) (t : Nat) : ExcRun :=
  if r.hit.isSome then { r with withheld := r.withheld + (tokBytes im t).length }
  else
    let bs := r.ctx.carry ++ tokBytes im t
    let (parts, rest) := utf8Scan (bs.length + 1) bs
    let r := { r with ctx := { r.ctx with carry := rest }, tokens := r.tokens + 1 }
    parts.foldl (fun r p => match p.1 with
      | .bad _ => subpart im.outReplace p.2 r
      | _ => p.2.foldl escrowByte r) r

/-- The carry and H released (R318); a stop string may still complete in the bytes of the carry. -/
def resolveHold (im : TokImage) (r : ExcRun) : ExcRun :=
  let c := r.ctx.carry
  let r := { r with ctx := { r.ctx with carry := [] } }
  let r := if c.isEmpty then r else subpart im.outReplace c r
  if r.hit.isSome then r
  else { r with out := r.out ++ r.ctx.hold, ctx := { r.ctx with hold := [] } }

/-- A run before any byte. -/
def ExcRun.start (c : EscrowCtx) : ExcRun :=
  { ctx := c, out := [], tokens := 0, invalid := 0, fffd := 0, withheld := 0, hit := none }

/-! ### Tiles (R311, R312, R321, R322) -/

/-- The tokens a tile brings (R311). -/
def tileTokensOut (t : Tile) : List Nat :=
  if t.kind = .decision then
    let w := leAt t.payload 0 8
    let n := bits w 27 5
    if n = 0 then []
    else if n = 1 then [bits w 0 20]
    else (List.range n).map (fun j => leAt t.payload 8 40 / 2 ^ (20 * j) % 2 ^ 20)
  else (words32 t.payload).map (fun w => w % 2 ^ 20)

/-- The first condition of Table 9.1 that holds. -/
def excRefusal (s : State) (t : Tile) : Option Nat :=
  match imageOf s t.tenant with
  | none => some St.IMAGE
  | some im =>
    if t.kind = .decision ∧ t.hopBefore ≠ Hop.CLEARING then some St.BAD_OP
    else if t.kind = .text then some St.BAD_OP
    else if t.kind = .token ∧ (words32 t.payload).any (fun w => decide (bits w 20 4 ≠ 0) || decide (bits w 30 2 ≠ 0)) then
      some St.BAD_OP
    else if (tileTokensOut t).any (fun k => decide (im.vocab ≤ k)) then some St.BOUNDS
    else none

/-- The reads a tile makes: each token's TOK entry and its bytes in HEAP. -/
def excReads (s : State) (t : Tile) : Reads :=
  match (tenant s t.tenant).now with
  | none => Reads.none
  | some r => (tileTokensOut t).foldl (fun a k =>
      (a.add (tokRead s.build.size r k)).add
        (heapRead s.build.size r (heapOffset r.image k) (tokBytes r.image k).length)) Reads.none

/-- What EXCHANGE buys for a tile (codes 0x15, 0x16, 0x07, 0x02). -/
def excBill (s : State) (t : Tile) : List (Nat × Nat) :=
  if (excRefusal s t).isSome then []
  else
    let n := ceilDiv (tileTokensOut t).length 4
    let g := ceilDiv (stream s t.stream).escrow.stops.length 4
    [(6, n), (1, n * (g - 1))] ++ readBill (excReads s t)

/-- The unit that serves a stream (R310). -/
def excUnit (s : State) (n : Nat) : Nat := servingUnit s 5 (home n / 2)

/-- Text cut into full tiles of 4,096 bytes, and what is left. -/
def cutOutput (fuel : Nat) (t : Tile) : List Tile × Tile :=
  match fuel with
  | 0 => ([], t)
  | f + 1 =>
    if t.payload.length ≤ 4096 then ([], t)
    else
      let p := t.payload.take 4096
      let (ts, rest) := cutOutput f { t with payload := t.payload.drop 4096 }
      ({ t with payload := p, check := crc32c p, last := false, textEnd := false, eos := false } :: ts, rest)

/-- The output tile of an item that is being filled. -/
def outTile (s : State) (t : Tile) : Tile :=
  (buildingAt s t.stream Hop.EXCHANGE t.ledger).getD
    { t with kind := .text, payload := [], marks := [], runs := [], pieces := [], last := false, textEnd := false,
             eos := false, check := 0 }

/-- Counts what a run released and met (Table 9.14). -/
def countExc (r : ExcRun) (s : State) : State :=
  bump R.EXC_WITHHELD r.withheld (bump R.EXC_FFFD r.fffd (bump R.EXC_INVALID r.invalid
    (bump R.EXC_RELEASED r.out.length (bump R.EXC_TOKENS r.tokens s))))

/-- Whether a decision tile still waits for NOTARY's report on its commits (R318). -/
def reportPending (s : State) (t : Tile) : Bool :=
  decide (t.kind = .decision) && (stream s t.stream).notary.gen
    && (stream s t.stream).notary.commits.any (fun c => c.ledger == t.ledger)

/-- Whether NOTARY reports that the last commit of a tile's item finished or stopped the grammar. -/
def reportEnds (s : State) (t : Tile) : Bool :=
  decide (t.kind = .decision) && !(tileTokensOut t).isEmpty && decide ((stream s t.stream).notary.ended = some t.ledger)

/-- A stop string completes: the rest of R317. -/
def stopHit (t : Tile) (k : Nat) (s : State) : State :=
  let s := onStream t.stream (fun x => { x with escrow := { x.escrow with
    stopped := true, stopIdx := k, stopLedger := t.ledger, carry := [], hold := [] } }) s
  let s := bump R.EXC_STOPS 1 s
  if (stream s t.stream).st = .closing then s else closeStream t.stream 2 .nothing s

/-- The end of a tile at EXCHANGE: full tiles leave, and the last tile of the item leaves or waits for NOTARY. -/
def excEmit (t : Tile) (r : ExcRun) (s : State) : State :=
  let n := t.stream
  let acc := outTile s t
  let acc := { acc with payload := acc.payload ++ r.out, status := firstStatus acc.status t.status,
                        flags := acc.flags ||| t.flags }
  let (full, rest) := cutOutput (acc.payload.length + 1) acc
  let s := setBuilding n Hop.EXCHANGE t.ledger none (full.foldl (fun s t => sendText t s) s)
  if r.hit.isSome then emitLast { rest with textEnd := true, eos := true } s
  else if reportPending s t then
    let wait := { rest with last := t.last, textEnd := t.textEnd || t.eos, eos := t.eos, kind := t.kind }
    onStream n (fun x => { x with escrow := { x.escrow with await := [wait] } }) s
  else if t.last || t.textEnd || t.eos || reportEnds s t then
    emitLast { rest with textEnd := t.textEnd || t.eos || reportEnds s t, eos := t.eos } s
  else setBuilding n Hop.EXCHANGE t.ledger (some rest) s

/-- EXCHANGE's work on a tile it has paid for. -/
def excWork (t : Tile) (s : State) : State :=
  match imageOf s t.tenant with
  | none => s
  | some im =>
    let n := t.stream
    let rd := excReads s t
    let s := countReads t.ledger rd s
    let ctx := (stream s n).escrow
    let r := (tileTokensOut t).foldl (feedToken im) (ExcRun.start ctx)
    let r := if r.hit.isNone && (t.textEnd || t.eos || reportEnds s t) then resolveHold im r else r
    let s := onStream n (fun x => { x with escrow := { r.ctx with await := x.escrow.await } }) (countExc r s)
    let s := match r.hit with
      | some k => stopHit t k s
      | none => s
    let s := noteCarry t.ledger (fun x c => { c with escrow := x.escrow }) s
    let lines := (ovfRead s t.tenant rd.ovf).filter (fun l => inRegion s 2 l.addr 64)
    let s := if lines.isEmpty then s else startAccess 0 [] .read 3 lines (.detok n t.ledger) s
    excEmit t r s

/-- The first refusal at EXCHANGE since EXC_ERR was cleared (Table 9.15). -/
def excErr (t : Tile) (status : Nat) (s : State) : State :=
  logFirst R.EXC_ERR_LO (t.stream + status * 2 ^ 12 + excUnit s t.stream % 4 * 2 ^ 20) R.EXC_ERR_HI (t.ledger % 2 ^ 32) s

/-- Whether EXCHANGE can take a tile now: a unit is in service, nothing of the stream waits for NOTARY, and no read
must wait. -/
def excReady (s : State) (t : Tile) : Bool :=
  decide (0 < unitsUp s 5) && (stream s t.stream).escrow.await.isEmpty && !readsStall s (excReads s t)

/-- A tile queued when a stop string completed (Table 1.6): its tokens are withheld when they belong to the item
that the stop ended (R317). -/
def dropStopped (t : Tile) (s : State) : State :=
  let x := stream s t.stream
  let bytes := match imageOf s t.tenant with
    | some im => if x.escrow.stopLedger = t.ledger then
        ((tileTokensOut t).map (fun k => (tokBytes im k).length)).sum else 0
    | none => 0
  endDead Hop.EXCHANGE t (bump R.EXC_WITHHELD bytes s)

/-- The tile EXCHANGE takes for a stream, once it has been paid for. -/
def excBody (n : Nat) (hw : HwEvent) (s : State) : State :=
  match takeable s Hop.EXCHANGE n with
  | none => s
  | some t =>
    if !excReady s t then s
    else if (stream s n).escrow.stopped then dropStopped t s
    else match hw with
      | .checkFail => checkFails (if t.kind = .decision then 5 else 3) t (unqueue Hop.EXCHANGE t s)
      | .poison _ _ _ => vaultError hw t.ledger s
      | _ =>
        let s := vaultError hw t.ledger (unqueue Hop.EXCHANGE t s)
        match excRefusal s t with
        | some st => refuseTile Hop.EXCHANGE t st (excErr t st s)
        | none => excWork t s

/-- EXCHANGE_TILE (R311). -/
def execExchangeTile (n : BitVec 12) (hw : HwEvent) (s : State) : Host.Outcome State Fault Refusal :=
  match takeable s Hop.EXCHANGE n.toNat with
  | none => .next s
  | some t =>
    if !excReady s t then .next s
    else
      let bill := if (stream s t.stream).escrow.stopped then [] else excBill s t
      .next (sweep (buy 0 bill (.exchangeTile n hw) id (excBody n.toNat hw) s))

/-- ESCROW_HOLD_RESOLVE (R318): NOTARY has reported on the decision tile whose bytes wait; when the grammar finished or
stopped, the hold is released into the item's last output tile, which carries TEXT_END. -/
def execEscrowHoldResolve (n : BitVec 12) (s : State) : Host.Outcome State Fault Refusal :=
  let k := n.toNat
  let x := stream s k
  match x.escrow.await with
  | [] => .next s
  | t :: _ =>
    if reportPending s t || !stationUp s Hop.EXCHANGE then .next s
    else match imageOf s t.tenant with
      | none => .next s
      | some im =>
        let ends := decide (x.notary.ended = some t.ledger)
        let r := if ends then resolveHold im (ExcRun.start x.escrow) else ExcRun.start x.escrow
        let s := onStream k (fun x => { x with escrow := { r.ctx with await := [] } }) (countExc r s)
        let s := match r.hit with
          | some i => stopHit t i s
          | none => s
        let s := noteCarry t.ledger (fun x c => { c with escrow := x.escrow }) s
        let t := { t with kind := .text, payload := t.payload ++ r.out,
                          textEnd := t.textEnd || ends || r.hit.isSome, eos := t.eos || r.hit.isSome }
        let (full, rest) := cutOutput (t.payload.length + 1) t
        let s := full.foldl (fun s t => sendText t s) s
        if t.last || t.textEnd then .next (sweep (emitLast rest s))
        else .next (sweep (setBuilding k Hop.EXCHANGE t.ledger (some rest) s))

end Sys2Proof.Machine
end

