-- ==== Sys2Proof/Machine/Regs.lean ====
section
/-!
DEFINITION. The register window as the driver reaches it (R25 to R27, R389, R516 to R524, R529): what each register reads
as, what a write does, latched pairs and held counter halves; and the test instruments of R495.
-/

namespace Sys2Proof.Machine

/-! ### Fields that show the state of the block -/

/-- A bit for each of `n` things. -/
def bitsOf (n : Nat) (p : Nat → Bool) : Nat := ((List.range n).map (fun i => flag (p i) * 2 ^ i)).sum

/-- A field shown while its source is up; else its reset value 0 (R523). -/
def shownIf (up : Bool) (v : Nat) : Nat := if up then v else 0

/-- Whether roll call has set the fields of R526. -/
def rollDone (s : State) : Bool := decide (4 ≤ s.boot.phase)

/-- Whether READY has set the fields of R526. -/
def readyDone (s : State) : Bool := decide (s.boot.phase = 6)

/-- Whether a physical unit has power. -/
def unitPowered (s : State) (cls i : Nat) : Bool := pdUp s (unitDomain s.build.size cls i)

/-- Whether a SORTER tile is out of service because TILE_RELOAD fills it (R195). -/
def tileFilling (s : State) (cls i : Nat) : Bool :=
  decide (cls = 1) && s.reserve.acts.any (fun a => decide (a.code = Act.tileReload) && decide (a.res = i))

/-- Whether a unit's function is in service: by the unit or by the spare that stands in for it. -/
def unitServed (s : State) (cls i : Nat) : Bool :=
  unitPowered s cls (physOf s cls i) && !tileFilling s cls (physOf s cls i)
    && (!unitOut s cls i || s.reserve.stand.any (fun x => x.1 == cls && x.2.1 == i))

/-- Units of a class in service, from roll call on. -/
def unitsShown (s : State) (cls : Nat) : Nat :=
  shownIf (rollDone s)
    ((List.range (builtUnits s.build.size cls)).filter (unitServed s cls)).length

/-- The units in service as bits, for classes without spares. -/
def unitBits (s : State) (cls : Nat) : Nat :=
  shownIf (rollDone s) (bitsOf (builtUnits s.build.size cls) (unitServed s cls))

/-- Free spares of a class, from roll call on. -/
def sparesShown (s : State) (cls : Nat) : Nat :=
  shownIf (rollDone s) ((freeSpares s cls).filter (unitPowered s cls)).length

/-- GBL_BSTAT. -/
def viewBstat (s : State) : Nat :=
  s.boot.phase + shownIf (rollDone s) (flag (crippledNow s) * 2 ^ 3 + min 255 (missingUnits s).length * 2 ^ 8)

/-- CLK_CTRL: HALT of a CLERK while a thread of it has still to stop. -/
def viewClkCtrl (s : State) : Nat := bitsOf 8 (fun c => (whos c).any (fun w => (thread s w).stopAfter)) * 2 ^ 8

/-- CLK_STATE. -/
def viewClkState (s : State) : Nat :=
  let n := s.build.size.clerks
  let up (c : Nat) : Bool := clkUp s 1 && pdUp s (1 + c / 2)
  bitsOf n (fun c => up c && clerkRunning s c)
    + bitsOf n (fun c => up c && (whos c).any (fun w => decide ((thread s w).st = .faulted))) * 2 ^ 8
    + bitsOf n (fun c => s.clerkFatal.testBit c) * 2 ^ 16

/-- BEAT_STAT. -/
def viewBeatStat (s : State) : Nat :=
  (if clkUp s 21 then flag s.beat.frozen + s.beat.cause * 2 else 1) + regField s R.BEAT_STAT 3 1 * 2 ^ 3

/-- BEAT_HELD: rows that wait for their masks, held or at the ports, and thin-path rows that wait for their lists. -/
def viewBeatHeld (s : State) : Nat :=
  shownIf (stationUp s Hop.CLEARING)
    ((s.clear.rows.length + s.clear.port.toList.length + (s.clear.tiles.filter (fun c => c.desc.thin)).length) % 2 ^ 13)

/-- TEL_STAT: no chunk is ever cut between two commands, so BUSY is 0. -/
def viewTelStat (s : State) : Nat :=
  shownIf (stationUp s Hop.TELLER) (bitsOf s.build.size.lanes (fun l => !laneReady s l 0) * 2 ^ 8)

/-- The image of the tenant slot a selector names. -/
def selImage (s : State) (sel : Nat) : Option TokImage := imageOf s (regField s sel 0 4)

/-- ASY_IMG. -/
def viewAsyImg (s : State) : Nat :=
  match selImage s R.ASY_SEL with
  | none => 0
  | some im =>
    let pol := match im.policy with
      | .byte => 0
      | .replace => 1
      | .strict => 2
    let norm := match im.norm with
      | .none => 0
      | .nfc => 1
      | .nfkc => 2
    shownIf (stationUp s Hop.ASSAY)
      (pol + norm * 2 ^ 2 + flag im.fold * 2 ^ 4 + im.prot.length % 128 * 2 ^ 5 + 2 ^ 12 + im.uniUpdate % 16 * 2 ^ 16
        + im.uniMinor % 16 * 2 ^ 20 + im.uniMajor % 256 * 2 ^ 24)

/-- Whether row writes are pending: a tokeniser image that waits to be placed, or a tile that is being filled. -/
def rowsPending (s : State) : Bool :=
  s.reserve.acts.any (fun a => decide (a.code = Act.tileReload) || (decide (a.code = Act.swap) && decide (a.cls = 1)))
    || s.purse.queue.any (fun p => match p.what with
      | .command (.imageLoadDone _ _) => true
      | _ => false)

/-- SRT_STAT. -/
def viewSrtStat (s : State) : Nat :=
  shownIf (stationUp s Hop.SORTER) (s.sortStep % 4 + flag (rowsPending s) * 2 ^ 2) + unitsShown s 1 * 2 ^ 8

/-- SRT_ROWS. -/
def viewSrtRows (s : State) : Nat := if readyDone s && stationUp s Hop.SORTER then stripesFree s else 32

/-- SRT_IMG. -/
def viewSrtImg (s : State) : Nat :=
  match selImage s R.SRT_SEL with
  | none => 0
  | some im => shownIf (stationUp s Hop.SORTER)
    (im.gang % 8 + im.prot.length % 128 * 2 ^ 3 + im.rows % 8192 * 2 ^ 10 + im.look % 32 * 2 ^ 23 + 2 ^ 28)

/-- MNT_STAT. -/
def viewMntStat (s : State) : Nat :=
  unitsShown s 2 + shownIf (stationUp s Hop.MINT) (piecesParked s % 8192 * 2 ^ 8)

/-- MNT_IMG. -/
def viewMntImg (s : State) : Nat :=
  match selImage s R.MNT_SEL with
  | none => 0
  | some im =>
    let fam := match im.family with
      | .bytePair => 0
      | .unigram => 1
      | .wordPiece => 2
    shownIf (stationUp s Hop.MINT)
      (fam + flag im.baseChar * 2 ^ 2 + flag im.nonmono * 2 ^ 3 + flag (im.byteTab.isSome && im.fallback) * 2 ^ 4
        + flag im.cache.isSome * 2 ^ 5 + im.spec.length % 128 * 2 ^ 6 + 2 ^ 13)

/-- MNT_VOCAB. -/
def viewMntVocab (s : State) : Nat :=
  match selImage s R.MNT_SEL with
  | none => 0
  | some im => shownIf (stationUp s Hop.MINT) (im.vocab % 2 ^ 21)

/-- MNT_UNK. -/
def viewMntUnk (s : State) : Nat :=
  match (selImage s R.MNT_SEL).bind TokImage.unk with
  | none => 0
  | some t => shownIf (stationUp s Hop.MINT) (t % 2 ^ 20 + 2 ^ 20)

/-- Whether the VAULT domain is up. -/
def vaultUp (s : State) : Bool := clkUp s 1 && clkUp s 3

/-- VLT_STAT. -/
def viewVltStat (s : State) : Nat :=
  unitsShown s 0 + flag (s.reserve.stand.any (fun x => x.1 == 0)) * 2 ^ 5
    + flag (s.reserve.out.any (fun x => x.1 == 0 && decide (x.2 < s.build.size.vaultBanks)
        && !(s.reserve.stand.any (fun y => y.1 == 0 && y.2.1 == x.2)))) * 2 ^ 6
    + shownIf (readyDone s && vaultUp s) (freeUnits s % 128 * 2 ^ 8)

/-- VLT_TEN. -/
def viewVltTen (s : State) : Nat :=
  match (tenant s (regField s R.VLT_SEL 0 4)).now with
  | none => 0
  | some r => shownIf (vaultUp s) (r.units % 128 + 2 ^ 7 + ceilDiv (64 * r.ovf) 4096 % 2 ^ 15 * 2 ^ 8)

/-- NOT_STAT. -/
def viewNotStat (s : State) : Nat := unitsShown s 4 + unitBits s 4 * 2 ^ 8

/-- The grammar NOT_GSEL names. -/
def selGrammar (s : State) : Option GrammarImage :=
  if stationUp s Hop.NOTARY then grammar s (regField s R.NOT_GSEL 0 12) else none

/-- NOT_GRAM. -/
def viewNotGram (s : State) : Nat :=
  match selGrammar s with
  | none => 0
  | some g =>
    let pol := match g.policy with
      | .endTok => 0
      | .fallback => 1
      | .halt => 2
    1 + flag g.pushdown * 2 + pol * 2 ^ 2 + ((namedFallback g).getD 0) % 4096 * 2 ^ 4 + (g.classes - 1) % 256 * 2 ^ 16

/-- NOT_GEND. -/
def viewNotGend (s : State) : Nat := ((selGrammar s).map (fun g => g.endToken % 2 ^ 20)).getD 0

/-- NOT_GSTATES. -/
def viewNotGstates (s : State) : Nat := ((selGrammar s).map (fun g => (g.states - 1) % 2 ^ 16)).getD 0

/-- The NOTARY context NOT_SSEL names, when the stream has a grammar. -/
def selNotary (s : State) : Option NotaryCtx :=
  let x := stream s (regField s R.NOT_SSEL 0 12)
  if stationUp s Hop.NOTARY && decide (x.st ≠ .free) && x.notary.gen then some x.notary else none

/-- NOT_SVIEW0. -/
def viewSview0 (s : State) : Nat :=
  match selNotary s with
  | none => 0
  | some x => x.cfg.state % 65536 + x.cfg.grammar % 4096 * 2 ^ 16 + 2 ^ 28 + flag x.cfg.finished * 2 ^ 29
      + flag x.cfg.fallen * 2 ^ 30

/-- NOT_SVIEW1. -/
def viewSview1 (s : State) : Nat :=
  match selNotary s with
  | none => 0
  | some x => x.cfg.stack.length % 8192 + x.cfg.remain % 65536 * 2 ^ 16

/-- NOT_SVIEW2. -/
def viewSview2 (s : State) : Nat :=
  match selNotary s with
  | none => 0
  | some x => x.cfg.fields.maskIndex % 2 ^ 20 + flag x.cfg.fields.lchk * 2 ^ 20
      + flag (x.pending.isSome || !x.commits.isEmpty) * 2 ^ 21 + min 3 x.advItems.length * 2 ^ 22

/-- CLG_STAT. -/
def viewClgStat (s : State) : Nat :=
  unitsShown s 3
    + flag (s.reserve.out.any (fun x => x.1 == 3 && decide (x.2 < s.build.size.clearLanes)
        && !(s.reserve.stand.any (fun y => y.1 == 3 && y.2.1 == x.2)))) * 2 ^ 11
    + regField s R.CLG_STAT 12 1 * 2 ^ 12

/-- CLG_MSTORE. -/
def viewClgMstore (s : State) : Nat := shownIf (readyDone s && stationUp s Hop.CLEARING) (freePages s % 2 ^ 14)

/-- CLG_HOLD. -/
def viewClgHold (s : State) : Nat := if readyDone s && stationUp s Hop.CLEARING then freeHold s % 2 ^ 12 else 0x800

/-- The seed of the stream CLG_SSEL names; 0 for a FREE stream. -/
def selSeed (s : State) : Nat :=
  let x := stream s (regField s R.CLG_SSEL 0 12)
  shownIf (stationUp s Hop.CLEARING && decide (x.st ≠ .free)) x.seed

/-- Whether records of an egress port wait: one is paused for ready, or one waits to start for ready or for EGR_EN. -/
def egressStalls (s : State) (p : Nat) : Bool :=
  let e := egress s p
  egressUp s p && (match e.cur with
    | some _ => !e.ready
    | none => !(queueAt s (9 + p)).isEmpty && (!e.ready || !bit (reg s R.EXC_CTRL) p))

/-- EXC_STAT. -/
def viewExcStat (s : State) : Nat := unitsShown s 5 + unitBits s 5 * 2 ^ 4 + bitsOf 2 (egressStalls s) * 2 ^ 8

/-- EXC_IMG. -/
def viewExcImg (s : State) : Nat :=
  match selImage s R.EXC_SEL with
  | none => 0
  | some im => shownIf (stationUp s Hop.EXCHANGE) (flag im.outReplace + 2)

/-- EXC_SVIEW. -/
def viewExcSview (s : State) : Nat :=
  let x := stream s (regField s R.EXC_SSEL 0 12)
  let e := x.escrow
  shownIf (stationUp s Hop.EXCHANGE)
    (e.hold.length % 128 + e.carry.length % 4 * 2 ^ 7 + e.stops.length % 32 * 2 ^ 9 + e.stopIdx % 16 * 2 ^ 14
      + flag e.stopped * 2 ^ 18)

/-- STK_STAT. -/
def viewStkStat (s : State) : Nat :=
  regField s R.STK_STAT 0 1 + shownIf (rollDone s) (bitsOf (memPorts s.build.size) (portUp s)) * 2

/-- Half `h` of the hash row STK_HSEL names. -/
def viewHash (h : Nat) (s : State) : Nat := if 8 < hashSel s then 0 else reg s (hashKey (hashSel s) + h)

/-- Part `h` of the region STK_RSEL names: base low, base high, size. -/
def viewRegion (h : Nat) (s : State) : Nat := reg s (regionKey (regionSel s) + h)

/-- STK_MSINFO. -/
def viewMsinfo (s : State) : Nat :=
  match maskSlot s (regField s R.STK_MSSEL 0 4) with
  | none => 0
  | some m => 1 + m.image.width % 4 * 2 + m.extLog2 % 32 * 2 ^ 3
      + (m.copies ||| 2 ^ homeStack s m) % 2 ^ 16 * 2 ^ 16

/-- LDG_STAT. -/
def viewLdgStat (s : State) : Nat :=
  let l := s.ledger
  regField s R.LDG_STAT 0 1
    + shownIf (ledgerUp s) (flag l.ready * 2 + flag l.replaying * 2 ^ 2 + flag l.lost0 * 2 ^ 3 + flag l.lost1 * 2 ^ 4
        + flag l.jfull * 2 ^ 5 + flag l.tfull * 2 ^ 6)

/-- LDG_QSTAT of the queue LDG_QSEL names. -/
def viewQstat (s : State) : Nat :=
  let q := queueSel s
  let n := (queueN s q).length
  shownIf (queueUp s q)
    (n % 2 ^ 15 + flag (decide (queueCap q ≤ n) ||
      (decide (q = 0) && !s.ledger.packets.isEmpty && decide (queueCap 0 < n + 2))) * 2 ^ 15)
    + reg s (qovrKey q) % 2 * 2 ^ 16

/-- KCW_STAT. -/
def viewKcwStat (s : State) : Nat :=
  let v := reg s R.KCW_STAT
  flag s.kcw.run.isSome + bits v 1 9 * 2 + flag s.kcw.hwmPend * 2 ^ 10 + bits v 11 1 * 2 ^ 11
    + flag s.kcw.epoch.isSome * 2 ^ 12 + s.kcw.scopes % 8 * 2 ^ 13 + flag s.kcw.hashLock * 2 ^ 16
    + bitsOf 4 (fun k => (slotKey s k).isSome) * 2 ^ 17

/-- The latched epoch. -/
def viewEpoch (s : State) : Nat := (s.kcw.epoch.map BitVec.toNat).getD 0

/-- The mark of the slot KCW_HSEL names. -/
def viewMark (s : State) : Nat := slotMark s (regField s R.KCW_HSEL 0 2)

/-- Whether PURSE's clock domain runs (R523). -/
def refUp (s : State) : Bool := clkUp s 22

/-- PUR_STAT. -/
def viewPurStat (s : State) : Nat :=
  regField s R.PUR_STAT 0 1 + regField s R.PUR_STAT 5 1 * 2 ^ 5
    + shownIf (refUp s) (s.purse.step % 4 * 2 + flag (purchaseWaits s) * 2 ^ 3
      + flag (decide (s.purse.grant = 100 * s.build.size.floor)) * 2 ^ 4)

/-- PUR_PRICE. -/
def viewPrice (s : State) : Nat :=
  match askedPrice (regField s R.PUR_PSEL 0 9) with
  | none => 0
  | some c => priceNow s c % 65536 + 2 ^ 16

/-- RSV_STAT. -/
def viewRsvStat (s : State) : Nat := setBits (reg s R.RSV_STAT) 1 1 (flag (spareOutNow s))

/-- RSV_MSTAT. -/
def viewMstat (s : State) : Nat :=
  regField s R.RSV_MSTAT 16 8 * 2 ^ 16
    + bitsOf 9 (fun n => decide (n ≠ 0) && s.reserve.acts.any (fun a => decide (a.code = n)))

/-- RSV_CLKSTEP. -/
def viewClkstep (s : State) : Nat :=
  ((List.range 4).map (fun d => stepOfDomain s d % 4 * 4 ^ d)).sum

/-- A canary as RSV_CANARY shows it, once the BASELINE phase has measured it; the canaries from 96 on do not exist. -/
def canaryView (s : State) (n : Nat) : Nat :=
  let x := siteOf s (n / 24) (n % 24)
  if 96 ≤ n ∨ !clkUp s 25 ∨ s.boot.phase < 5 then 0
  else Tab.get 0 s.reserve.slack n % 2 ^ 10 + Tab.get 0 s.reserve.base n % 2 ^ 10 * 2 ^ 10 + n / 24 * 2 ^ 20
    + x.1 % 8 * 2 ^ 22 + x.2 % 128 * 2 ^ 25

/-- RSV_SPARE. -/
def viewSpare (s : State) : Nat :=
  sparesShown s 0 + sparesShown s 1 * 2 + sparesShown s 2 * 2 ^ 3 + sparesShown s 3 * 2 ^ 5

/-- RSV_UMAP. -/
def viewUmap (s : State) : Nat :=
  let cls := regField s R.RSV_USEL 0 3
  let w := regField s R.RSV_USEL 3 6
  shownIf (decide (cls < 7)) (bitsOf 32 (fun i =>
    decide (32 * w + i < unitsBuilt s.build.size cls) && unitOut s cls (32 * w + i)))

/-- The oldest pending entry. -/
def viewPend (s : State) : Nat := (s.reserve.pending.head?.map repairWord).getD 0

/-- RSV_MAP. -/
def viewMap (s : State) : Nat :=
  s.reserve.map.length % 2 ^ 13 + flag s.reserve.copy0 * 2 ^ 13 + flag s.reserve.copy1 * 2 ^ 14
    + s.reserve.mapGen % 65536 * 2 ^ 16

/-- DBG_TSTAT of the thread DBG_TSEL names. -/
def viewTstat (s : State) : Nat :=
  let c := regField s R.DBG_TSEL 4 3
  let t := thread s { clerk := BitVec.ofNat 3 c, thread := BitVec.ofNat 4 (regField s R.DBG_TSEL 0 4) }
  let st := match t.st with
    | .running => if t.wait = .ready then 0 else 1
    | .halted => 2
    | .faulted => 3
    | .debug => 4
  shownIf (decide (c < s.build.size.clerks) && clkUp s 1 && pdUp s (1 + c / 2)) (st + t.pc % 8192 * 2 ^ 3)

/-- DBG_STOPPED. -/
def viewStopped (s : State) : Nat :=
  bitsOf s.build.size.clerks (fun c =>
    clkUp s 1 && pdUp s (1 + c / 2) && (whos c).any (fun w => decide ((thread s w).st = .debug)))

/-- VALID of a log. -/
def logValid (s : State) (off : Nat) : Bool := bit (reg s off) 31

/-- Whether a level source of request `n` holds (Table 16.5). -/
def srqLevel (s : State) (n : Nat) : Bool :=
  match n with
  | 1 => (List.range 8).any (fun c => logValid s (R.CLK_FAULT0 + 4 * c)) || decide (viewClkState s / 2 ^ 16 ≠ 0)
  | 2 => decide (bits (viewBeatStat s) 0 3 = 3)
  | 3 => logValid s R.DAY_ERR_LO
  | 4 => logValid s R.TEL_ERR_LO
  | 5 => logValid s R.CLG_ERR_LO
  | 6 => logValid s R.EXC_ERR_LO
  | 7 => logValid s R.STK_ERR_LO || decide (s.reserve.quiesce = 2)
  | 8 => logValid s R.LDG_ERR_LO || logValid s R.AUD_FAULT_LO || decide (bits (viewLdgStat s) 3 4 ≠ 0)
  | 9 => decide (max 1 (regField s R.SRQ_QTHR 0 8) ≤ s.queue0.entries.length)
      || (decide (s.ledger.aged ≠ 0) && !s.queue0.entries.isEmpty)
  | 10 => decide (16 * regField s R.SRQ_QTHR 8 8 ≤ s.queue2.entries.length)
      || decide (64 * regField s R.SRQ_QTHR 16 8 ≤ s.queue3.entries.length)
  | 11 => bit (reg s R.KCW_STAT) 1
  | 12 => bit (viewPurStat s) 5 || bit (viewPurStat s) 4
  | 13 => !s.reserve.pending.isEmpty || spareOutNow s || bit (reg s R.RSV_STAT) 2 || bit (reg s R.RSV_STAT) 7
      || logValid s R.RSV_EVT_LO
  | 14 => decide (bits (reg s R.PWR_STAT) 2 4 ≠ 0)
  | 15 => decide (viewStopped s ≠ 0)
  | _ => false

/-- SRQ_STAT: the pending requests (R512). -/
def viewSrqStat (s : State) : Nat := bitsOf 16 (fun n => srqLevel s n || bit (reg s R.SRQ_EVT) n)

/-- The lines cel_srq: low while REG is in reset (Table 15.3). -/
def srqLines (s : State) : Nat := shownIf (clkUp s 20) (viewSrqStat s &&& reg s R.SRQ_EN)

/-- The bits of a register of per-domain bits whose clock domain is built (R519). -/
def builtBits (s : State) (v : Nat) : Nat := v &&& bitsOf 25 (fun i => builtDomain s.build.size (i + 1))

/-! ### What a register reads as -/

/-- The registers of offsets 0x0000 to 0x1FFF whose contents follow from the state. -/
def views0 : List (Nat × (State → Nat)) :=
  [ (R.GBL_INST_ID_LO, fun s => s.instId.toNat % 2 ^ 32),
    (R.GBL_INST_ID_HI, fun s => s.instId.toNat / 2 ^ 32),
    (R.GBL_BOOT, fun _ => 0),
    (R.GBL_BSTAT, viewBstat),
    (R.CLK_CTRL, viewClkCtrl),
    (R.CLK_STATE, viewClkState),
    (R.CLK_TRST, fun _ => 0),
    (R.BEAT_CTRL, fun _ => 0),
    (R.BEAT_STAT, viewBeatStat),
    (R.BEAT_POS_LO, fun s => shownIf (clkUp s 21) (s.beat.pos % 2 ^ 32)),
    (R.BEAT_POS_HI, fun s => shownIf (clkUp s 21) (s.beat.pos / 2 ^ 32)),
    (R.BEAT_HELD, viewBeatHeld),
    (R.TEL_STAT, viewTelStat),
    (R.TEL_REISSUE, fun _ => 0),
    (R.ASY_IMG, viewAsyImg),
    (R.SRT_STAT, viewSrtStat),
    (R.SRT_TEMP, fun s => shownIf (stationUp s Hop.SORTER) (s.sortTemp % 2 ^ 9)),
    (R.SRT_ROWS, viewSrtRows),
    (R.SRT_IMG, viewSrtImg),
    (R.MNT_STAT, viewMntStat),
    (R.MNT_IMG, viewMntImg),
    (R.MNT_VOCAB, viewMntVocab),
    (R.MNT_UNK, viewMntUnk),
    (R.VLT_STAT, viewVltStat),
    (R.VLT_TEN, viewVltTen),
    (R.NOT_STAT, viewNotStat),
    (R.NOT_GRAM, viewNotGram),
    (R.NOT_GEND, viewNotGend),
    (R.NOT_GSTATES, viewNotGstates),
    (R.NOT_SVIEW0, viewSview0),
    (R.NOT_SVIEW1, viewSview1),
    (R.NOT_SVIEW2, viewSview2),
    (R.CLG_STAT, viewClgStat),
    (R.CLG_MSTORE, viewClgMstore),
    (R.CLG_HOLD, viewClgHold),
    (R.CLG_SEED_LO, fun s => selSeed s % 2 ^ 32),
    (R.CLG_SEED_HI, fun s => selSeed s / 2 ^ 32) ]

/-- The registers of offsets 0x2000 to 0x33FF. -/
def views1 : List (Nat × (State → Nat)) :=
  [ (R.EXC_STAT, viewExcStat),
    (R.EXC_IMG, viewExcImg),
    (R.EXC_SVIEW, viewExcSview),
    (R.STK_STAT, viewStkStat),
    (R.STK_HASH_LO, viewHash 0),
    (R.STK_HASH_HI, viewHash 1),
    (R.STK_RBASE_LO, viewRegion 0),
    (R.STK_RBASE_HI, viewRegion 1),
    (R.STK_RSIZE, viewRegion 2),
    (R.STK_QSTAT, fun s => s.reserve.quiesce % 4),
    (R.STK_MSINFO, viewMsinfo),
    (R.LDG_STAT, viewLdgStat),
    (R.LDG_NEXT_LO, fun s => shownIf (ledgerUp s) (s.ledger.next % 2 ^ 32)),
    (R.LDG_NEXT_HI, fun s => shownIf (ledgerUp s) (s.ledger.next / 2 ^ 32 % 2 ^ 30)),
    (R.LDG_SETTLED_LO, fun _ => 0),
    (R.LDG_SETTLED_HI, fun _ => 0),
    (R.LDG_QCFG, fun s => reg s (qcfgKey (queueSel s))),
    (R.LDG_QSTAT, viewQstat),
    (R.LDG_QPOP_HI, fun s => shownIf (queueUp s (queueSel s)) (reg s R.LDG_QPOP_HI)),
    (R.LDG_QLOST, fun s => reg s (qlostKey (queueSel s))),
    (R.KCW_TAG_LO, fun _ => 0),
    (R.KCW_TAG_HI, fun _ => 0),
    (R.KCW_CTRL, fun _ => 0),
    (R.KCW_STAT, viewKcwStat),
    (R.KCW_EPOCH_LO, fun s => viewEpoch s % 2 ^ 32),
    (R.KCW_EPOCH_HI, fun s => viewEpoch s / 2 ^ 32),
    (R.KCW_HWM_LO, fun s => viewMark s % 2 ^ 32),
    (R.KCW_HWM_HI, fun s => viewMark s / 2 ^ 32) ]

/-- The registers of offsets 0x3400 to 0x47FF. -/
def views2 : List (Nat × (State → Nat)) :=
  [ (R.PUR_STAT, viewPurStat),
    (R.PUR_GRANT, fun s => shownIf (refUp s) (s.purse.grant / 100 % 65536)),
    (R.PUR_LEAK, fun s => shownIf (refUp s) (s.purse.reserve / 100 % 65536)),
    (R.PUR_TEMP, fun s => shownIf (refUp s) (s.purse.temp % 2 ^ 9)),
    (R.PUR_VSCALE, fun s => if refUp s then s.purse.scale % 2 ^ 12 else 0x400),
    (R.PUR_BAL, fun s => shownIf (refUp s) (s.purse.balance % 2 ^ 32)),
    (R.PUR_PRICE, fun s => shownIf (refUp s) (viewPrice s)),
    (R.RSV_STAT, viewRsvStat),
    (R.RSV_MCTRL, fun s => reg s R.RSV_MCTRL % 64),
    (R.RSV_MSTAT, viewMstat),
    (R.RSV_VOLT, fun s => s.reserve.vreq % 1024 + regField s R.RSV_VOLT 16 10 * 2 ^ 16),
    (R.RSV_CLKSTEP, viewClkstep),
    (R.RSV_CANARY, fun s => canaryView s (regField s R.RSV_CSEL 0 7)),
    (R.RSV_SPARE, viewSpare),
    (R.RSV_UMAP, viewUmap),
    (R.RSV_PEND_LO, fun s => viewPend s % 2 ^ 32),
    (R.RSV_PEND_HI, fun s => viewPend s / 2 ^ 32 % 256),
    (R.RSV_PEND_CTL, fun s => s.reserve.pending.length % 32),
    (R.RSV_MAP, viewMap),
    (R.PWR_STAT, fun s => setBits (reg s R.PWR_STAT) 1 1 (flag s.power.testMode)),
    (R.PWR_PDGOOD, fun s => bitsOf 30 (pdUp s)),
    (R.PWR_PDRETRY, fun _ => 0),
    (R.PWR_RST, fun s => builtBits s (bitsOf 25 (fun i => s.power.byReg.contains (i + 1)))),
    (R.PWR_RSTSEEN, fun s => builtBits s (reg s R.PWR_RSTSEEN)),
    (R.PWR_CLKOK, fun s => builtBits s (reg s R.PWR_CLKOK)),
    (R.PWR_RES, fun s => setBits (reg s R.PWR_RES) 0 1 (regField s R.CLG_STAT 12 1)),
    (R.PWR_WDOG_KICK, fun _ => 0),
    (R.PWR_WDOG_CNT, fun s => shownIf (refUp s) (s.power.wdog % 65536)),
    (R.SRQ_STAT, viewSrqStat),
    (R.SRQ_FORCE, fun _ => 0),
    (R.DBG_TSTAT, viewTstat),
    (R.DBG_RESUME, fun _ => 0),
    (R.DBG_STOPPED, viewStopped) ]

/-- DAY_NEXTc of the CLERKs built. -/
def viewDayNext (s : State) (off : Nat) : Option Nat :=
  if R.DAY_NEXT0 ≤ off ∧ off ≤ R.DAY_NEXT7 ∧ off % 4 = 0 then
    let c := (off - R.DAY_NEXT0) / 4
    some (shownIf (decide (c < s.build.size.clerks) && clkUp s 21) (dayNext s c % 2 ^ 32))
  else none

/-- Whether a register names a CLERK that is not built (R519). -/
def unbuiltReg (s : State) (off : Nat) : Bool :=
  decide (R.CLK_FAULT0 ≤ off) && decide (off ≤ R.CLK_FAULT7) && decide (s.build.size.clerks ≤ (off - R.CLK_FAULT0) / 4)

/-- The current contents of a register; 0 at a reserved offset (R518). -/
def readReg (s : State) (off : Nat) : Nat :=
  if (regSpec off).isNone || unbuiltReg s off then 0
  else match viewDayNext s off with
    | some v => v
    | none => match (views0 ++ views1 ++ views2).find? (fun p => p.1 == off) with
      | some p => p.2 s
      | none => reg s off

/-! ### Reads (R520) -/

/-- The _LO registers of the latched pairs (Table 17.2). -/
def latchedPairs : List Nat :=
  [R.BEAT_POS_LO, R.BEAT_BAD_LO, R.DAY_ERR_LO, R.TEL_ERR_LO, R.VLT_LOOKUPS_LO, R.VLT_OVF_LO, R.CLG_ERR_LO, R.EXC_ERR_LO,
    R.STK_ERR_LO, R.LDG_NEXT_LO, R.LDG_QPOP_LO, R.LDG_ERR_LO, R.AUD_FAULT_LO, R.KCW_HWM_LO, R.PUR_SPENT_LO,
    R.RSV_PEND_LO, R.RSV_EVT_LO]

/-- A read of the window: what it returns is in `regOut`. A read of a pair's _LO latches its _HI, and a read of _HI
returns the latch. -/
def readWindow (off : Nat) (s : State) : State :=
  if off = R.LDG_QPOP_LO then readPop s
  else if latchedPairs.contains off then
    latchHi (off + 4) (readReg s (off + 4)) { s with regOut := BitVec.ofNat 32 (readReg s off) }
  else match s.latch.find? (fun p => p.1 == off) with
    | some p => { s with regOut := p.2 }
    | none => { s with regOut := BitVec.ofNat 32 (readReg s off) }

/-- PAIR_LO_READ. -/
def execPairLoRead (off : BitVec 16) (s : State) : Host.Outcome State Fault Refusal :=
  viaRead s (.next (readWindow off.toNat s))

/-! ### 64-bit counters (R521) -/

/-- The _LO registers of the 64-bit counters that can be written. -/
def counterPairs : List Nat := [R.VLT_LOOKUPS_LO, R.VLT_OVF_LO, R.PUR_SPENT_LO]

/-- A write of a counter's _LO is held. -/
def holdLo (off v : Nat) (s : State) : State := { s with heldLo := Tab.insert s.heldLo off (BitVec.ofNat 32 v) }

/-- A write of a counter's _HI: the held _LO takes effect with it. -/
def writeCounterHi (off v : Nat) (s : State) : State :=
  let s := setReg off v s
  match s.heldLo.find? (fun p => p.1 == off - 4) with
  | some p => setReg (off - 4) p.2.toNat { s with heldLo := Tab.erase s.heldLo (off - 4) }
  | none => s

/-- COUNTER_LO_WRITE. -/
def execCounterLoWrite (off : BitVec 16) (value : Word32) (s : State) : Host.Outcome State Fault Refusal :=
  viaPort s (fun s => .next (if counterPairs.contains off.toNat then holdLo off.toNat value.toNat s else s))

/-! ### Writes -/

/-- What a command of its own does, as an effect of a register write. -/
def effectOf (o : State → Host.Outcome State Fault Refusal) (s : State) : State :=
  match o s with
  | .next t => t
  | _ => s

/-- An effect that a bit of the value written asks for. -/
def whenBit (v i : Nat) (f : State → State) (s : State) : State := if bit v i then f s else s

/-- A thread as a register names it: thread, then CLERK. -/
def whoOf (v : Nat) : Who := { clerk := BitVec.ofNat 3 (v / 16), thread := BitVec.ofNat 4 v }

/-- A write of RSV_MCTRL: ACT and DOMAIN, then START, then END. -/
def writeMctrl (v : Nat) (s : State) : State :=
  let s := setReg R.RSV_MCTRL (v % 64) s
  let start (s : State) : State :=
    match v % 16 with
    | 1 => effectOf execScrubPassStart s
    | 2 => effectOf (execSweepRequest (BitVec.ofNat 32 v)) s
    | 7 => effectOf execChannelQuiesce s
    | _ => startStatus St.BAD_OP s
  whenBit v 17 (effectOf execQuiesceEnd) (whenBit v 16 start s)

/-- A write of DBG_RESUME for the thread DBG_TSEL names. -/
def writeResume (v : Nat) (s : State) : State :=
  let w := whoOf (regField s R.DBG_TSEL 0 7)
  whenBit v 0 (if bit v 1 then effectOf (execDebugStep w) else effectOf (execDebugResume w)) s

/-- The registers of a keyed command, which a running command holds (R406). -/
def isKcwOperand (off : Nat) : Bool :=
  decide (off = R.KCW_CMD) || decide (off = R.KCW_CTR_LO) || decide (off = R.KCW_CTR_HI)
    || (decide (R.KCW_OPND0 ≤ off) && decide (off ≤ R.KCW_OPND15)) || decide (off = R.KCW_TAG_LO)
    || decide (off = R.KCW_TAG_HI)

/-- A write of a register of a keyed command. -/
def writeKcw (off v : Nat) (s : State) : State :=
  if s.kcw.run.isSome then s
  else if off = R.KCW_TAG_LO ∨ off = R.KCW_TAG_HI then setReg off v s
  else storeReg off v s

/-- A write that a register takes only under a condition; ignored otherwise, with bit `cb` of `cfg` set (R529). -/
def guarded (ok : Bool) (cfg cb : Nat) (f : State → State) (s : State) : State :=
  if ok then f s else setRegBit cfg cb s

/-- A write of LDG_M0BASE, LDG_M1BASE or LDG_SIZE (R363); a mirror exists from the first write of its base (R530). -/
def writeMirror (off v : Nat) (s : State) : State :=
  let t := storeReg off v s
  if off = R.LDG_SIZE then t
  else if off = R.LDG_M0BASE_LO ∨ off = R.LDG_M0BASE_HI then { t with ledger := { t.ledger with placed0 := true } }
  else { t with ledger := { t.ledger with placed1 := true } }

/-- Writes of the registers of the CLERKs, the beat port, TELLER, the stack interface and the LEDGER that act or are
conditional. -/
def writeUnits (off v : Nat) : Option (State → State) :=
  let w := BitVec.ofNat 32 v
  if off = R.GBL_BOOT then some (whenBit v 0 startBoot)
  else if R.GBL_RMAP0_LO ≤ off ∧ off ≤ R.GBL_RMAP1_HI then
    some (fun s => if s.boot.phase = 0 then storeReg off v s else s)
  else if off = R.CLK_CTRL then
    some (fun s => effectOf (execClerkHalt (BitVec.ofNat 8 (v / 256))) (effectOf (execClerkStart (BitVec.ofNat 8 v)) s))
  else if off = R.CLK_TRST then some (whenBit v 31 (effectOf (execThreadRestart (whoOf v))))
  else if off = R.BEAT_CFG then some (writeBeatCfg v)
  else if off = R.BEAT_CTRL then some (fun s => whenBit v 1 (effectOf execBeatFreeze) (whenBit v 0 (effectOf execBeatArm) s))
  else if isDayConfig off then
    some (fun s => writeDay off (if off = R.DAY_CFG then v &&& (0xFFF + bitsOf s.build.size.clerks (fun _ => true) * 2 ^ 12) else v) s)
  else if off = R.TEL_CTRL then some (fun s => setReg off (v &&& bitsOf s.build.size.lanes (fun _ => true)) s)
  else if off = R.TEL_REISSUE then some (whenBit v 31 (effectOf (execTelReissue (BitVec.ofNat 12 v))))
  else if isStkConfig off then some (writeStk off v)
  else if off = R.STK_RETRY then some (guarded (decide (bits v 0 5 ≤ 16)) R.STK_STAT 0 (storeReg off v))
  else if off = R.STK_QCHAN then
    some (fun s => guarded (decide (s.reserve.quiesce = 0)) R.STK_STAT 0 (storeReg off v) s)
  else if off = R.LDG_CTRL then some (effectOf (execJournalEnable w))
  else if (R.LDG_M0BASE_LO ≤ off ∧ off ≤ R.LDG_M1BASE_HI) ∨ off = R.LDG_SIZE then
    some (fun s => guarded (!bit (reg s R.LDG_CTRL) 0) R.LDG_STAT 0 (writeMirror off v) s)
  else if off = R.LDG_SETTLED_LO then some (setReg off v)
  else if off = R.LDG_SETTLED_HI then some (effectOf (execSettlePush w))
  else if off = R.LDG_QCFG then some (effectOf (execQueueFlush w))
  else if off = R.LDG_QSTAT then some (whenBit v 16 (fun s => setReg (qovrKey (queueSel s)) 0 s))
  else if off = R.LDG_QLOST then some (fun s => setReg (qlostKey (queueSel s)) v s)
  else none

/-- Writes of the registers of the keyed window, PURSE, RESERVE, power, service requests and debug that act or are
conditional. -/
def writeBase (off v : Nat) : Option (State → State) :=
  let w := BitVec.ofNat 32 v
  if isKcwOperand off then some (writeKcw off v)
  else if off = R.KCW_CTRL then some (fun s => sweep (whenBit v 0 goKeyed (whenBit v 1 lockDebug s)))
  else if off = R.PUR_CTRL then some (guarded (decide (bits v 2 3 ≠ 0)) R.PUR_STAT 0 (storeReg off v))
  else if off = R.PUR_ALLOW then some (writeAllow v)
  else if off = R.PUR_TEL then
    some (fun s => storeReg off v { s with purse := { s.purse with period := 0, periodTicks := 0, periodWait := 0 } })
  else if counterPairs.contains off then some (holdLo off v)
  else if counterPairs.contains (off - 4) ∧ 4 ≤ off then some (writeCounterHi off v)
  else if off = R.RSV_MCTRL then some (writeMctrl v)
  else if off = R.RSV_SCRUB then
    some (guarded (decide (bits v 0 8 ≠ 0)) R.RSV_STAT 0 (fun s => automaticPass (storeReg off v s)))
  else if off = R.RSV_AGE then some (guarded (decide (bits v 16 8 < bits v 24 8)) R.RSV_STAT 0 (storeReg off v))
  else if off = R.RSV_VOLT then
    some (guarded (decide (750 ≤ bits v 16 10) && decide (bits v 16 10 ≤ 850)) R.RSV_STAT 0 (storeReg off v))
  else if off = R.RSV_PEND_CTL then some (whenBit v 8 (effectOf execPendingPop))
  else if off = R.PWR_PDCTRL then some (effectOf (execPdSwitch w))
  else if off = R.PWR_PDRETRY then some (effectOf (execPdRetry w))
  else if off = R.PWR_RST then some (effectOf (execPwrRst w))
  else if off = R.PWR_WDOG then some (writeWdog v)
  else if off = R.PWR_WDOG_KICK then some (effectOf (execWdogKick w))
  else if off = R.SRQ_FORCE then some (fun s => setReg R.SRQ_EVT (reg s R.SRQ_EVT ||| v % 65536) s)
  else if off = R.DBG_RESUME then some (writeResume v)
  else none

/-- A write of the window: by the register's own rule, or stored and cleared by access type (R25); ignored at a reserved
offset (R518). -/
def writeWindow (off v : Nat) (s : State) : State :=
  if (regSpec off).isNone || unbuiltReg s off then s
  else match writeUnits off v with
    | some f => f s
    | none => match writeBase off v with
      | some f => f s
      | none => storeReg off v s

/-- REGISTER_WRITE. -/
def execRegisterWrite (off : BitVec 16) (value : Word32) (s : State) : Host.Outcome State Fault Refusal :=
  viaPort s (fun s => .next (writeWindow off.toNat value.toNat s))

/-! ### Service requests and the trace port -/

/-- SRQ_FORCE (R513). -/
def execSrqForce (value : Word32) (s : State) : Host.Outcome State Fault Refusal :=
  viaPort s (fun s => .next (setReg R.SRQ_EVT (reg s R.SRQ_EVT ||| value.toNat % 65536) s))

/-- The entries of the oldest packet among some. -/
def frontPacket : List (Bool × Nat) → Nat
  | [] => 0
  | _ :: es => 1 + (es.takeWhile (fun e => !e.1)).length

/-- SRQ_QUEUE_AGE (R512): the oldest packet of queue 0 that has not been there for 10 µs before now has. -/
def execSrqQueueAge (s : State) : Host.Outcome State Fault Refusal :=
  .next { s with ledger := { s.ledger with
    aged := s.ledger.aged + frontPacket (s.queue0.entries.drop s.ledger.aged) } }

/-- TRACE_PORT_DRAIN (R514). -/
def execTracePortDrain (s : State) : Host.Outcome State Fault Refusal :=
  match s.queue3.entries with
  | [] => .next s
  | e :: rest =>
    if dbgUp s && bit (reg s R.DBG_CTRL) 1 then
      if frontUnwritten s 3 then .next (setUnwritten 3 (unwrittenOf s 3 - 1) s)
      else .next { setQueueN 3 rest s with trcOut := BitVec.ofNat 64 (queueWord e) }
    else .next s

/-! ### Test instruments (R492, R495) -/

/-- What an instrument returns: a status in bits 39 to 32, and a value. -/
def answerTest (status v : Nat) (s : State) : State := { s with testOut := BitVec.ofNat 64 (v % 2 ^ 32 + status * 2 ^ 32) }

/-- An access that loses a resource of Table 15.6. -/
def loseResource (i : Nat) (s : State) : State := answerTest St.RESOURCE 0 (noteLoss i (setRegBit R.PWR_RES i s))

/-- Whether the instruments reach the register window: scope bit 2, and the window runs. -/
def testWindow (s : State) : Bool := bit s.kcw.scopes 2 && clkUp s 20

/-- A register access by an instrument. -/
def testRegister (lost : Bool) (f : State → State) (s : State) : State :=
  if !testWindow s then answerTest 0 0 s
  else if lost then loseResource 3 s
  else
    let t := f s
    answerTest 0 t.regOut.toNat { t with regOut := s.regOut }

/-- Whether the canary sampler is taken by a sweep. -/
def samplerBusy (s : State) (d : Nat) : Bool :=
  s.reserve.acts.any (fun a => decide (a.code = Act.sweep) && decide (a.res = d))

/-- A scan or memory BIST access with cel_test_mode high: what the chains and the macros give is a free value. What it leaves
in them ends with the block's reset, which alone ends test mode (R494; log entry 190). -/
def testScan (s : State) : State :=
  let (v, s) := takeFree s
  answerTest 0 v s

/-- IEEE_1687_ACCESS: 0 and no effect while the test access has no power or clock. -/
def execIeee1687Access (op : TestAccess) (s : State) : Host.Outcome State Fault Refusal :=
  if !dbgUp s then .next (answerTest 0 0 s)
  else match op with
    | .regRead off lost => .next (testRegister lost (readWindow off.toNat) s)
    | .regWrite off v lost => .next (testRegister lost (fun s => { writeWindow off.toNat v.toNat { s with regOut := 0 } with regOut := 0 }) s)
    | .canary n =>
      if samplerBusy s (n.toNat / 24) then .next (loseResource 4 s)
      else .next (answerTest 0 (canaryView s n.toNat) s)
    | .scan => .next (if s.power.testMode then testScan s else answerTest 0 0 s)

end Sys2Proof.Machine
end

