-- ==== Sys2Proof/Machine/Resume.lean ====
section
/-!
DEFINITION. PURSE serves a waiting purchase (R426 to R428): what has been bought takes effect. And what the CLERKS do by
themselves while no command waits (R57): each issues an instruction of its program.
-/

namespace Sys2Proof.Machine

/-! ### Served purchases -/

/-- The effect of a command whose purchase is served. -/
def paidBody (i : Instr) (s : State) : State :=
  match i with
  | .laneChunk l _ _ =>
    let s := payLane l.toNat s
    drainLane (laneBuf s l.toNat).length l.toNat s
  | .tellerChunk => takeChunk (payTeller s)
  | .assayTile n hw => assayBody n.toNat hw s
  | .sorterTile n hw => sorterBody n.toNat hw s
  | .mintTile n hw => mintBody n.toNat hw s
  | .notaryTokenTile n hw => tokenTileBody n.toNat hw s
  | .notaryAdvance a => advanceBody a.stream.toNat a.hw s
  | .clearingDescriptor n _ => retryPort (runRows (selectRow n.toNat s))
  | .nearBankList _ data => retryPort (listBody data s)
  | .exchangeTile n hw => excBody n.toNat hw s
  | .patrolScrub findings => visitBody findings s
  | .loadImage => if atStage s 1 .coins then setStage .image s else s
  | .imageLoadDone data _ => loadedBody data s
  | _ => resumeLambiop i s

/-- What a purchase paid for takes effect; the lines of an access leave. -/
def paidEffect (p : Purchase) (s : State) : State :=
  match p.what with
  | .command i => sweep (paidBody i s)
  | .access n => settleAccesses { s with accesses := s.accesses.map (fun a =>
      if a.ident = n then { a with paid := true } else a) }

/-- PURCHASE_SERVED: the next purchase buys one unit, and takes effect once it has bought all. -/
def execPurchaseServed (s : State) : Host.Outcome State Fault Refusal :=
  match nextPurchase s with
  | none => .next s
  | some p =>
    match payPurchase p s with
    | none => .next s
    | some (t, true) => .next (paidEffect p t)
    | some (t, false) => .next t

/-! ### Instructions fetched from program memory (R57, R58) -/

/-- The threads of a CLERK in the order of R57: ascending, after the one that issued last. Before any has issued the
spec names no first one; the model begins at thread 1, as if thread 0 had issued last (log entry 131). -/
def turnOrder (s : State) (c : Nat) : List Who :=
  let last := Tab.get 0 s.lastIssued c
  (List.range 16).map (fun k => { clerk := BitVec.ofNat 3 c, thread := BitVec.ofNat 4 (last + 1 + k) })

/-- The word of program memory a thread issues next. -/
def fetchWord (s : State) (w : Who) : Word := Tab.get 0 s.prog (8192 * w.clerk.toNat + (thread s w).pc)

/-- A thread issues the instruction at its program counter. -/
def issueNext (w : Who) (s : State) : State :=
  match (decodeLambiop w (fetchWord s w)) with
  | none => effectOf (execUndefinedOpcode w (fetchWord s w)) s
  | some i =>
    match lambiopParts i, opOf s i with
    | some (_, _, f), some op => issue w f i op s
    | _, _ => s

/-- The first ready thread in turn issues; a thread that yielded is passed over once. -/
def takeTurn : List Who → State → State
  | [], s => s
  | w :: ws, s =>
    let t := thread s w
    if !t.canIssue then takeTurn ws s
    else if t.yielded then takeTurn ws (onThread w (fun t => { t with yielded := false }) s)
    else issueNext w s

/-- One CLERK's turn. -/
def clerkTurn (s : State) (c : Nat) : State :=
  if clerkReady s c then takeTurn (turnOrder s c) s else s

/-- One round of the block while no command waits: the waits of threads are tried again, and each CLERK issues at most one
instruction. -/
def tick (s : State) : State := (List.range 8).foldl clerkTurn (wakeAll (fun _ => true) s)

end Sys2Proof.Machine
end

