-- ==== Sys2Proof/Machine/Dispatch.lean ====
section
/-!
DEFINITION. The meaning of each command: one arm per constructor of `Instr`.
-/

namespace Sys2Proof.Machine

/-- What a command does to everything but the queue of waiting commands. -/
def exec (i : Instr) (s : State) : Host.Outcome State Fault Refusal :=
  match i with
  | .add w f => Sys2Proof.Machine.execAdd w f s
  | .sub w f => Sys2Proof.Machine.execSub w f s
  | .mul w f => Sys2Proof.Machine.execMul w f s
  | .and w f => Sys2Proof.Machine.execAnd w f s
  | .or w f => Sys2Proof.Machine.execOr w f s
  | .xor w f => Sys2Proof.Machine.execXor w f s
  | .shl w f => Sys2Proof.Machine.execShl w f s
  | .shr w f => Sys2Proof.Machine.execShr w f s
  | .sar w f => Sys2Proof.Machine.execSar w f s
  | .addi w f => Sys2Proof.Machine.execAddi w f s
  | .andi w f => Sys2Proof.Machine.execAndi w f s
  | .lui w f => Sys2Proof.Machine.execLui w f s
  | .cmp w f => Sys2Proof.Machine.execCmp w f s
  | .cmpi w f => Sys2Proof.Machine.execCmpi w f s
  | .sel w f => Sys2Proof.Machine.execSel w f s
  | .pset w f => Sys2Proof.Machine.execPset w f s
  | .crc w f => Sys2Proof.Machine.execCrc w f s
  | .b w f => Sys2Proof.Machine.execB w f s
  | .bp w f => Sys2Proof.Machine.execBp w f s
  | .call w f => Sys2Proof.Machine.execCall w f s
  | .ret w f => Sys2Proof.Machine.execRet w f s
  | .yield w f => Sys2Proof.Machine.execYield w f s
  | .halt w f => Sys2Proof.Machine.execHalt w f s
  | .brk w f => Sys2Proof.Machine.execBrk w f s
  | .nop w f => Sys2Proof.Machine.execNop w f s
  | .rds w f => Sys2Proof.Machine.execRds w f s
  | .wrs w f => Sys2Proof.Machine.execWrs w f s
  | .ld w f => Sys2Proof.Machine.execLd w f s
  | .st w f => Sys2Proof.Machine.execSt w f s
  | .ldx w f => Sys2Proof.Machine.execLdx w f s
  | .stx w f => Sys2Proof.Machine.execStx w f s
  | .sopen w f => Sys2Proof.Machine.execSopen w f s
  | .sfeed w f => Sys2Proof.Machine.execSfeed w f s
  | .sclose w f => Sys2Proof.Machine.execSclose w f s
  | .flow w f => Sys2Proof.Machine.execFlow w f s
  | .dnext w f => Sys2Proof.Machine.execDnext w f s
  | .waitt w f => Sys2Proof.Machine.execWaitt w f s
  | .waitb w f => Sys2Proof.Machine.execWaitb w f s
  | .tpoll w f => Sys2Proof.Machine.execTpoll w f s
  | .post w f => Sys2Proof.Machine.execPost w f s
  | .pay w f => Sys2Proof.Machine.execPay w f s
  | .settle w f => Sys2Proof.Machine.execSettle w f s
  | .mask w f => Sys2Proof.Machine.execMask w f s
  | .next w f => Sys2Proof.Machine.execNext w f s
  | .draft w f => Sys2Proof.Machine.execDraft w f s
  | .pick w f => Sys2Proof.Machine.execPick w f s
  | .emit w f => Sys2Proof.Machine.execEmit w f s
  | .price w f => Sys2Proof.Machine.execPrice w f s
  | .ticketComplete clerk ticket => Sys2Proof.Machine.execTicketComplete clerk ticket s
  | .purchaseServed => Sys2Proof.Machine.execPurchaseServed s
  | .inputQueueRoom hop => Sys2Proof.Machine.execInputQueueRoom hop s
  | .clerkStart clerks => Sys2Proof.Machine.execClerkStart clerks s
  | .clerkHalt clerks => Sys2Proof.Machine.execClerkHalt clerks s
  | .threadRestart w => Sys2Proof.Machine.execThreadRestart w s
  | .beatPositionTaken pos => Sys2Proof.Machine.execBeatPositionTaken pos s
  | .daybookFetchResume clerk => Sys2Proof.Machine.execDaybookFetchResume clerk s
  | .graceEnd stream => Sys2Proof.Machine.execGraceEnd stream s
  | .thinGraceEnd stream => Sys2Proof.Machine.execThinGraceEnd stream s
  | .beatArm => Sys2Proof.Machine.execBeatArm s
  | .beatFreeze => Sys2Proof.Machine.execBeatFreeze s
  | .beatCfgWrite value => Sys2Proof.Machine.execBeatCfgWrite value s
  | .daybookConfigWrite offset value => Sys2Proof.Machine.execDaybookConfigWrite offset value s
  | .laneChunk lane header words => Sys2Proof.Machine.execLaneChunk lane header words s
  | .tellerChunk => Sys2Proof.Machine.execTellerChunk s
  | .telReissue stream => Sys2Proof.Machine.execTelReissue stream s
  | .assayTile stream hw => Sys2Proof.Machine.execAssayTile stream hw s
  | .sorterTile stream hw => Sys2Proof.Machine.execSorterTile stream hw s
  | .stripeSlotsFreed tenant => Sys2Proof.Machine.execStripeSlotsFreed tenant s
  | .sorterThermalSample samples => Sys2Proof.Machine.execSorterThermalSample samples s
  | .mintTile stream hw => Sys2Proof.Machine.execMintTile stream hw s
  | .vaultReloadDone bank => Sys2Proof.Machine.execVaultReloadDone bank s
  | .vaultUnitsFreed tenant => Sys2Proof.Machine.execVaultUnitsFreed tenant s
  | .notaryDecisionTile stream hw => Sys2Proof.Machine.execNotaryDecisionTile stream hw s
  | .notaryTokenTile stream hw => Sys2Proof.Machine.execNotaryTokenTile stream hw s
  | .notaryAdvance stream => Sys2Proof.Machine.execNotaryAdvance stream s
  | .runaheadResolve stream token => Sys2Proof.Machine.execRunaheadResolve stream token s
  | .clearingDescriptor stream hw => Sys2Proof.Machine.execClearingDescriptor stream hw s
  | .maskPagesFreed stream => Sys2Proof.Machine.execMaskPagesFreed stream s
  | .logitRow header data beats => Sys2Proof.Machine.execLogitRow header data beats s
  | .nearBankList port data => Sys2Proof.Machine.execNearBankList port data s
  | .exchangeTile stream hw => Sys2Proof.Machine.execExchangeTile stream hw s
  | .escrowHoldResolve stream => Sys2Proof.Machine.execEscrowHoldResolve stream s
  | .egressRecord port beats => Sys2Proof.Machine.execEgressRecord port beats s
  | .memoryResponse port tag kind data => Sys2Proof.Machine.execMemoryResponse port tag kind data s
  | .deferredRetry port tag => Sys2Proof.Machine.execDeferredRetry port tag s
  | .channelQuiesceDrained => Sys2Proof.Machine.execChannelQuiesceDrained s
  | .stkConfigWrite offset value => Sys2Proof.Machine.execStkConfigWrite offset value s
  | .ledgerHop stream hw => Sys2Proof.Machine.execLedgerHop stream hw s
  | .completionPacket => Sys2Proof.Machine.execCompletionPacket s
  | .settlePush hi => Sys2Proof.Machine.execSettlePush hi s
  | .settlementTaken => Sys2Proof.Machine.execSettlementTaken s
  | .journalEnable value => Sys2Proof.Machine.execJournalEnable value s
  | .replayDone => Sys2Proof.Machine.execReplayDone s
  | .carryForward => Sys2Proof.Machine.execCarryForward s
  | .queuePop => Sys2Proof.Machine.execQueuePop s
  | .queueFlush value => Sys2Proof.Machine.execQueueFlush value s
  | .loadImage => Sys2Proof.Machine.execLoadImage s
  | .imageLoadDone data status => Sys2Proof.Machine.execImageLoadDone data status s
  | .setCeiling => Sys2Proof.Machine.execSetCeiling s
  | .remapRow => Sys2Proof.Machine.execRemapRow s
  | .retire => Sys2Proof.Machine.execRetire s
  | .restore => Sys2Proof.Machine.execRestore s
  | .margin => Sys2Proof.Machine.execMargin s
  | .setHash => Sys2Proof.Machine.execSetHash s
  | .zeroise => Sys2Proof.Machine.execZeroise s
  | .debugUnlock => Sys2Proof.Machine.execDebugUnlock s
  | .dlock => Sys2Proof.Machine.execDlock s
  | .keyEpoch epoch => Sys2Proof.Machine.execKeyEpoch epoch s
  | .keyDelivery slot key => Sys2Proof.Machine.execKeyDelivery slot key s
  | .keyClear slot => Sys2Proof.Machine.execKeyClear slot s
  | .tagBackoffEnd slot => Sys2Proof.Machine.execTagBackoffEnd slot s
  | .purseTick therm itel valid => Sys2Proof.Machine.execPurseTick therm itel valid s
  | .purseTelemetryPacket => Sys2Proof.Machine.execPurseTelemetryPacket s
  | .purAllowWrite value => Sys2Proof.Machine.execPurAllowWrite value s
  | .patrolScrub findings => Sys2Proof.Machine.execPatrolScrub findings s
  | .slackSweep domain => Sys2Proof.Machine.execSlackSweep domain s
  | .sweepEnd slacks => Sys2Proof.Machine.execSweepEnd slacks s
  | .spareSwapDone => Sys2Proof.Machine.execSpareSwapDone s
  | .tileReloadDone tile => Sys2Proof.Machine.execTileReloadDone tile s
  | .scrubPassStart => Sys2Proof.Machine.execScrubPassStart s
  | .sweepRequest value => Sys2Proof.Machine.execSweepRequest value s
  | .channelQuiesce => Sys2Proof.Machine.execChannelQuiesce s
  | .quiesceEnd => Sys2Proof.Machine.execQuiesceEnd s
  | .pendingPop => Sys2Proof.Machine.execPendingPop s
  | .vreqAck => Sys2Proof.Machine.execVreqAck s
  | .vreqNak => Sys2Proof.Machine.execVreqNak s
  | .registerWrite offset value => Sys2Proof.Machine.execRegisterWrite offset value s
  | .pairLoRead offset => Sys2Proof.Machine.execPairLoRead offset s
  | .counterLoWrite offset value => Sys2Proof.Machine.execCounterLoWrite offset value s
  | .blockReset => Sys2Proof.Machine.execBlockReset s
  | .domainReset domain => Sys2Proof.Machine.execDomainReset domain s
  | .pwrRst value => Sys2Proof.Machine.execPwrRst value s
  | .resetRelease domain => Sys2Proof.Machine.execResetRelease domain s
  | .clockLost domain => Sys2Proof.Machine.execClockLost domain s
  | .clockRestored domain => Sys2Proof.Machine.execClockRestored domain s
  | .powerGood pd => Sys2Proof.Machine.execPowerGood pd s
  | .pdRelease pd => Sys2Proof.Machine.execPdRelease pd s
  | .pgTimeout pd => Sys2Proof.Machine.execPgTimeout pd s
  | .pgFault pd => Sys2Proof.Machine.execPgFault pd s
  | .pdRetry value => Sys2Proof.Machine.execPdRetry value s
  | .pdSwitch value => Sys2Proof.Machine.execPdSwitch value s
  | .memoryLinkError port => Sys2Proof.Machine.execMemoryLinkError port s
  | .wdogExpire => Sys2Proof.Machine.execWdogExpire s
  | .wdogKick value => Sys2Proof.Machine.execWdogKick value s
  | .testMode => Sys2Proof.Machine.execTestMode s
  | .bootGo => Sys2Proof.Machine.execBootGo s
  | .powerGroupStart => Sys2Proof.Machine.execPowerGroupStart s
  | .bootPhaseEnd baseline => Sys2Proof.Machine.execBootPhaseEnd baseline s
  | .unitMissing u => Sys2Proof.Machine.execUnitMissing u s
  | .srqForce value => Sys2Proof.Machine.execSrqForce value s
  | .srqQueueAge => Sys2Proof.Machine.execSrqQueueAge s
  | .debugResume w => Sys2Proof.Machine.execDebugResume w s
  | .debugStep w => Sys2Proof.Machine.execDebugStep w s
  | .undefinedOpcode w word => Sys2Proof.Machine.execUndefinedOpcode w word s
  | .malformedKeyedCommand => Sys2Proof.Machine.execMalformedKeyedCommand s
  | .zeroiseDone => Sys2Proof.Machine.execZeroiseDone s
  | .pdBaseLeavesReset instId => Sys2Proof.Machine.execPdBaseLeavesReset instId s
  | .interfaceResetRelease domain => Sys2Proof.Machine.execInterfaceResetRelease domain s
  | .egressReady port => Sys2Proof.Machine.execEgressReady port s
  | .ingressResponseTaken port words => Sys2Proof.Machine.execIngressResponseTaken port words s
  | .ieee1687Access op => Sys2Proof.Machine.execIeee1687Access op s
  | .tracePortDrain => Sys2Proof.Machine.execTracePortDrain s

end Sys2Proof.Machine
end

