-- ==== Sys2Proof/Machine/Conform.lean ====
section
/-!
DEFINITION. The conformance fingerprint (R18, R19) of the run a state ends: what each station has emitted stands in
`State.emitted`. The published values of R20 belong to kit K1, which the manual does not print.
-/

namespace Sys2Proof.Machine

/-- The bytes of one section: in ascending ledger-number order, and in emission order within one number. -/
def sectionBytes (es : List Emission) (part : Nat) : List Byte :=
  ((sortBy (fun a b => decide (a.ledger < b.ledger)) (es.filter (fun e => decide (e.part = part)))).map
    Emission.data).flatten

/-- The conformance fingerprint of the run so far. -/
def fingerprint (s : State) : Nat :=
  crc32c (sectionBytes s.emitted 1 ++ sectionBytes s.emitted 2 ++ sectionBytes s.emitted 3 ++ sectionBytes s.emitted 4)

end Sys2Proof.Machine
end

