-- ==== Sys2Proof/WellFormed.lean ====
section
/-!
DEFINITION. Which commands can reach a block of a configuration: their operands name what that configuration builds, and
a Lambiop instruction has its reserved bits 0. A command that is not well-formed still has a meaning in `exec`, as the
spec gives one (R67, R518); this is the range the wires and the tables allow.
-/

namespace Sys2Proof

/-- Whether a thread's CLERK is built (Table 0.4). -/
def threadBuilt (z : Size) (w : Who) : Bool := decide (w.clerk.toNat < z.clerks)

/-- Whether an offset of the register window is a multiple of 4, as every offset of Table 17.2 is. -/
def wordOffset (off : BitVec 16) : Bool := decide (off.toNat % 4 = 0)

/-- Whether a unit of Table 14.1, or a port of the roll call, is built. -/
def unitBuilt (z : Size) (u : UnitId) : Bool :=
  if u.cls.toNat < 7 then decide (u.idx.toNat < Machine.builtUnits z u.cls.toNat + Machine.builtSpares z u.cls.toNat)
  else if u.cls.toNat = 7 then decide (u.idx.toNat < Machine.memPorts z)
  else if u.cls.toNat = 8 then decide (u.idx.toNat < Machine.ceilDiv z.lanes 2)
  else if u.cls.toNat = 9 then decide (u.idx.toNat < 2)
  else decide (u.cls.toNat = 10) && decide (u.idx.toNat = 0)

/-- Whether a test access names a register or a canary there is (R495, Table 14.20). -/
def testFits : TestAccess → Bool
  | .regRead off _ => wordOffset off
  | .regWrite off _ _ => wordOffset off
  | .canary n => decide (n.toNat < 4 * Machine.canaries)
  | .scan => true

/-- Whether the fields of a Lambiop instruction have their reserved bits 0 and its CLERK is built. -/
def lambiopFits (z : Size) (i : Instr) : Bool :=
  match lambiopParts i with
  | some (op, w, f) => threadBuilt z w && reservedOk op f
  | none => true

/-- Whether a command can reach a block of a configuration. -/
def wellFormed (z : Size) (i : Instr) : Bool :=
  match i with
  | .add w f => lambiopFits z (.add w f)
  | .sub w f => lambiopFits z (.sub w f)
  | .mul w f => lambiopFits z (.mul w f)
  | .and w f => lambiopFits z (.and w f)
  | .or w f => lambiopFits z (.or w f)
  | .xor w f => lambiopFits z (.xor w f)
  | .shl w f => lambiopFits z (.shl w f)
  | .shr w f => lambiopFits z (.shr w f)
  | .sar w f => lambiopFits z (.sar w f)
  | .addi w f => lambiopFits z (.addi w f)
  | .andi w f => lambiopFits z (.andi w f)
  | .lui w f => lambiopFits z (.lui w f)
  | .cmp w f => lambiopFits z (.cmp w f)
  | .cmpi w f => lambiopFits z (.cmpi w f)
  | .sel w f => lambiopFits z (.sel w f)
  | .pset w f => lambiopFits z (.pset w f)
  | .crc w f => lambiopFits z (.crc w f)
  | .b w f => lambiopFits z (.b w f)
  | .bp w f => lambiopFits z (.bp w f)
  | .call w f => lambiopFits z (.call w f)
  | .ret w f => lambiopFits z (.ret w f)
  | .yield w f => lambiopFits z (.yield w f)
  | .halt w f => lambiopFits z (.halt w f)
  | .brk w f => lambiopFits z (.brk w f)
  | .nop w f => lambiopFits z (.nop w f)
  | .rds w f => lambiopFits z (.rds w f)
  | .wrs w f => lambiopFits z (.wrs w f)
  | .ld w f => lambiopFits z (.ld w f)
  | .st w f => lambiopFits z (.st w f)
  | .ldx w f => lambiopFits z (.ldx w f)
  | .stx w f => lambiopFits z (.stx w f)
  | .sopen w f => lambiopFits z (.sopen w f)
  | .sfeed w f => lambiopFits z (.sfeed w f)
  | .sclose w f => lambiopFits z (.sclose w f)
  | .flow w f => lambiopFits z (.flow w f)
  | .dnext w f => lambiopFits z (.dnext w f)
  | .waitt w f => lambiopFits z (.waitt w f)
  | .waitb w f => lambiopFits z (.waitb w f)
  | .tpoll w f => lambiopFits z (.tpoll w f)
  | .post w f => lambiopFits z (.post w f)
  | .pay w f => lambiopFits z (.pay w f)
  | .settle w f => lambiopFits z (.settle w f)
  | .mask w f => lambiopFits z (.mask w f)
  | .next w f => lambiopFits z (.next w f)
  | .draft w f => lambiopFits z (.draft w f)
  | .pick w f => lambiopFits z (.pick w f)
  | .emit w f => lambiopFits z (.emit w f)
  | .price w f => lambiopFits z (.price w f)
  | .ticketComplete c k => decide (c.toNat < z.clerks) && decide (k.toNat ≠ 0xFFF)
  | .purchaseServed => true
  | .inputQueueRoom h => decide (1 ≤ h.toNat) && decide (h.toNat ≤ 8)
  | .clerkStart _ => true
  | .clerkHalt _ => true
  | .threadRestart w => threadBuilt z w
  | .beatPositionTaken _ => true
  | .daybookFetchResume c => decide (c.toNat < z.clerks)
  | .graceEnd _ => true
  | .thinGraceEnd _ => true
  | .beatArm => true
  | .beatFreeze => true
  | .beatCfgWrite _ => true
  | .daybookConfigWrite off _ => Machine.isDayConfig off.toNat
  | .laneChunk l _ _ => decide (l.toNat < z.lanes)
  | .tellerChunk => true
  | .telReissue _ => true
  | .assayTile _ _ => true
  | .sorterTile _ _ => true
  | .stripeSlotsFreed _ => true
  | .sorterThermalSample _ => true
  | .mintTile _ _ => true
  | .vaultReloadDone b => decide (b.toNat ≤ z.vaultBanks)
  | .vaultUnitsFreed _ => true
  | .notaryDecisionTile _ _ => true
  | .notaryTokenTile _ _ => true
  | .notaryAdvance _ => true
  | .runaheadResolve _ _ => true
  | .clearingDescriptor _ _ => true
  | .maskPagesFreed _ => true
  | .logitRow _ _ _ => true
  | .nearBankList p data => decide (p.toNat < Machine.memPorts z) && decide (data.length ≤ 1088)
  | .exchangeTile _ _ => true
  | .escrowHoldResolve _ => true
  | .egressRecord _ _ => true
  | .memoryResponse p _ _ data => decide (p.toNat < Machine.memPorts z) && decide (data.length ≤ 64)
  | .deferredRetry p _ => decide (p.toNat < Machine.memPorts z)
  | .channelQuiesceDrained => true
  | .stkConfigWrite off _ => Machine.isStkConfig off.toNat
  | .ledgerHop _ _ => true
  | .completionPacket => true
  | .settlePush _ => true
  | .settlementTaken => true
  | .journalEnable _ => true
  | .replayDone => true
  | .carryForward => true
  | .queuePop => true
  | .queueFlush _ => true
  | .loadImage => true
  | .imageLoadDone _ st => [Machine.St.OK, Machine.St.STACK_BUSY, Machine.St.STACK_ERR].contains st.toNat
  | .setCeiling => true
  | .remapRow => true
  | .retire => true
  | .restore => true
  | .margin => true
  | .setHash => true
  | .zeroise => true
  | .debugUnlock => true
  | .dlock => true
  | .keyEpoch _ => true
  | .keyDelivery _ _ => true
  | .keyClear _ => true
  | .tagBackoffEnd _ => true
  | .purseTick _ _ _ => true
  | .purseTelemetryPacket => true
  | .purAllowWrite _ => true
  | .patrolScrub _ => true
  | .slackSweep d => decide (d.val < 4)
  | .sweepEnd xs => decide (xs.length = Machine.canaries)
  | .spareSwapDone => true
  | .tileReloadDone t => decide (t.toNat < z.sorterTiles + z.sorterSpares)
  | .scrubPassStart => true
  | .sweepRequest _ => true
  | .channelQuiesce => true
  | .quiesceEnd => true
  | .pendingPop => true
  | .vreqAck => true
  | .vreqNak => true
  | .registerWrite off _ => wordOffset off
  | .pairLoRead off => wordOffset off
  | .counterLoWrite off _ => wordOffset off
  | .blockReset => true
  | .domainReset d => Machine.builtDomain z (d.val + 1)
  | .pwrRst _ => true
  | .resetRelease d => Machine.builtDomain z (d.val + 1)
  | .clockLost d => Machine.builtDomain z (d.val + 1)
  | .clockRestored d => Machine.builtDomain z (d.val + 1)
  | .powerGood _ => true
  | .pdRelease _ => true
  | .pgTimeout _ => true
  | .pgFault _ => true
  | .pdRetry _ => true
  | .pdSwitch _ => true
  | .memoryLinkError p => decide (p.toNat < Machine.memPorts z)
  | .wdogExpire => true
  | .wdogKick _ => true
  | .testMode => true
  | .bootGo => true
  | .powerGroupStart => true
  | .bootPhaseEnd b => b.all (fun xs => decide (xs.length = Machine.canaries)) && decide (b.length ≤ 4)
  | .unitMissing u => unitBuilt z u
  | .srqForce _ => true
  | .srqQueueAge => true
  | .debugResume w => threadBuilt z w
  | .debugStep w => threadBuilt z w
  | .undefinedOpcode w x => threadBuilt z w && (decodeLambiop w x).isNone
  | .malformedKeyedCommand => true
  | .zeroiseDone => true
  | .pdBaseLeavesReset _ => true
  | .interfaceResetRelease d => Machine.builtDomain z (d.val + 1)
  | .egressReady _ => true
  | .ingressResponseTaken p _ => decide (p.toNat < Machine.ceilDiv z.lanes 2)
  | .ieee1687Access op => testFits op
  | .tracePortDrain => true

end Sys2Proof
end

