-- ==== Sys2Proof/Safety.lean ====
section
/-!
DEFINITION. What counts as a safe run, and the words claims about the block are stated in: the canonical form of what
State holds, what a command leaves unchanged, and when a CLERK's instruction is issued and paid for at once.
-/

namespace Sys2Proof.Machine

/-! ### Canonical form -/

/-- The canonical form of the CLERKS' scratch: addresses rise strictly, and no byte listed that reads as the default. -/
def Memory.wf (m : List Host.Cell) : Bool := Tab.wf (fun _ => scratchDefault) m

/-- The stores noted for R96 are of instructions that have been issued. -/
def storesIssued (s : State) : Bool := s.stores.all (fun e => decide (e.no ≤ s.issueNo))

/-- The invariant of every state: scratch and program memory are held in their canonical form, and every store noted is of
an instruction that has been issued. -/
def Inv (s : State) : Prop :=
  Memory.wf s.scratch = true ∧ Tab.wf (fun _ => (0 : Word)) s.prog = true ∧ storesIssued s = true

/-! ### Runs -/

/-- A machine goes from one state to another by its own steps and by commands that arrive at the end of its queue. -/
inductive Runs : State → State → Prop where
  | refl (s : State) : Runs s s
  | arrive {s t : State} (c : Instr) : Runs s t → Runs s { t with pending := t.pending ++ [c] }
  | step {s t u : State} : Runs s t → step t = .next u → Runs s u

/-- A run is safe when no state it reaches stops with a fault or a refusal, and each is in canonical form. -/
def SafeFrom (s : State) : Prop := ∀ t, Runs s t → Inv t ∧ ∃ u, step t = .next u

/-! ### What a command leaves unchanged -/

/-- Every register held as data is unchanged but those listed. -/
def RegsKept (but : List Nat) (s t : State) : Prop := ∀ off, off ∉ but → reg t off = reg s off

/-- What buying changes of PURSE: the balance and the two counts of cents bought. -/
def PurseKept (s t : State) : Prop :=
  { t.purse with balance := s.purse.balance, sinceTick := s.purse.sinceTick, period := s.purse.period } = s.purse

/-- A thread whose instruction has been issued: it holds that instruction's number in issue order (R57, R96). -/
def issuedThread (s : State) (w : Who) : Thread := { thread s w with no := s.issueNo + 1 }

/-- Nothing is different but one thread, scratch with the stores noted for R96, the turn of the thread's CLERK with the
count of instructions issued, and what a purchase changes. -/
def ThreadOrScratch (w : Who) (s t : State) : Prop :=
  (∀ v, Who.key v ≠ Who.key w → thread t v = thread s v)
  ∧ RegsKept [R.PUR_SPENT_LO, R.PUR_SPENT_HI] s t ∧ PurseKept s t
  ∧ { t with threads := s.threads, scratch := s.scratch, stores := s.stores, lastIssued := s.lastIssued,
             issueNo := s.issueNo, purse := s.purse, regs := s.regs } = s

/-- Every byte of every CLERK's scratch reads as before, and no store is noted. -/
def ScratchKept (s t : State) : Prop :=
  t.scratch = s.scratch ∧ t.stores = s.stores ∧ ∀ c x, scratchByte t c x = scratchByte s c x

/-- Nothing is different but one thread, the turn of its CLERK and what a purchase changes. -/
def OnlyThread (w : Who) (s t : State) : Prop := ThreadOrScratch w s t ∧ ScratchKept s t

/-- The registers `sweep` may change: the spending counter, the discard counters, the late-work counter, and what a trace
packet that is lost counts and records. -/
def sweptRegs : List Nat :=
  [R.PUR_SPENT_LO, R.PUR_SPENT_HI, R.ASY_DISCARD, R.SRT_DISCARD, R.BEAT_LATE_WORK, qovrKey 3, qlostKey 3,
    R.PWR_RES, R.PWR_RESLOG, R.PWR_RESCNT, R.DBG_TRDROP]

/-- Nothing that a command's own effect names is different but what completions, closes, deliveries to the CLERK sink,
tiles that no more work can fill or that TELLER can now send, and lines that can be sent change, with their trace packets:
the frame of `sweep`. -/
def OnlySwept (s t : State) : Prop :=
  { t with free := s.free, emitted := s.emitted, stores := s.stores, queue3 := s.queue3,
           ledger := s.ledger, streams := s.streams, hops := s.hops, scratch := s.scratch, tickets := s.tickets,
           accesses := s.accesses, nextAccess := s.nextAccess, purse := s.purse, regs := s.regs,
           teller := { t.teller with cuts := s.teller.cuts } } = s
  ∧ RegsKept sweptRegs s t

/-! ### Issue -/

/-- A thread may issue an instruction of an opcode now, and the coins for it are there (R57, R66, R67, R426). -/
def Issues (s : State) (w : Who) (f : Fields) (code cents : Nat) : Prop :=
  clerkReady s w.clerk.toNat = true ∧ (thread s w).st = .running ∧ (thread s w).wait = .ready
  ∧ (thread s w).stepping = false ∧ (thread s w).stopAfter = false ∧ (thread s w).pc < 8191
  ∧ reservedOk code f = true ∧ predHolds (thread s w) f = true
  ∧ s.purse.queue = [] ∧ clkUp s 22 = true ∧ priceNow s cents ≤ s.purse.balance

/-- An instruction bought at a price in cents turns its thread into `new` and changes nothing else. -/
def ThreadEffect (w : Who) (cents : Nat) (s : State) (new : Thread) (o : Host.Outcome State Fault Refusal) : Prop :=
  ∃ t, o = .next t ∧ thread t w = new ∧ OnlyThread w s t
    ∧ t.purse.balance + priceNow s cents = s.purse.balance

/-- The state after an instruction is bought and before its effect: nothing is different but the turn of the CLERK and
what a purchase changes. -/
def Bought (w : Who) (cents : Nat) (s u : State) : Prop :=
  thread u w = issuedThread s w ∧ OnlyThread w s u ∧ u.purse.balance + priceNow s cents = s.purse.balance
  ∧ u.ledger = s.ledger

/-- A command ends in `sweep` of a state with a property: what follows from any command by itself comes last. -/
def EndsIn (o : Host.Outcome State Fault Refusal) (P : State → Prop) : Prop := ∃ u, o = .next (sweep u) ∧ P u

/-- A command ends in `sweep` of the state in which the row at the logit ports has been looked at again, after a state with
a property. -/
def EndsAtClearing (o : Host.Outcome State Fault Refusal) (P : State → Prop) : Prop :=
  ∃ u, o = .next (sweep (retryPort u)) ∧ P u

/-- The coins for a bill are there, and no purchase waits (R426, R427). -/
def CoinsThere (s : State) (bill : List (Nat × Nat)) : Prop :=
  s.purse.queue = [] ∧ clkUp s 22 = true ∧ (bill.map (fun b => unitPrice s b.1 * b.2)).sum ≤ s.purse.balance

/-- An item's completion is being written or is written, with a status. -/
def Completes (s : State) (n st : Nat) : Prop :=
  ∃ i, item? s n = some i ∧ (i.completing = true ∨ i.complete = true) ∧ i.status = st

/-- The status of the first check that refuses, of checks listed in the order in which they are made. -/
def firstRefusal {α : Type} (checks : List (Bool × α)) : Option α := (checks.find? Prod.fst).map Prod.snd

/-- A command answers a next state with a property. -/
def Answers (o : Host.Outcome State Fault Refusal) (P : State → Prop) : Prop := ∃ t, o = .next t ∧ P t

/-- An instruction bought at a price in cents writes a word to g[d], goes on at the next index, and changes nothing
else. -/
def Writes (w : Who) (f : Fields) (cents : Nat) (s : State) (v : Word) (o : Host.Outcome State Fault Refusal) : Prop :=
  ThreadEffect w cents s { (issuedThread s w).setG f.d v with pc := (thread s w).pc + 1 } o

/-- An instruction bought at a price in cents leaves its thread waiting and changes nothing else. -/
def LeavesWaiting (w : Who) (cents : Nat) (s : State) (x : Wait) (o : Host.Outcome State Fault Refusal) : Prop :=
  ThreadEffect w cents s { issuedThread s w with wait := x } o

/-- A journal entry with a property is made: it stands in the ring, waits for room, or its text log record is being
written. -/
def EntryMade (s : State) (p : JEntry → Prop) : Prop :=
  (∃ e ∈ s.ledger.ring, p e) ∨ (∃ x ∈ s.ledger.waiting, p x.1)
  ∨ ∃ a ∈ s.accesses, ∃ e next, a.job = .logged e next ∧ p e

/-- Nothing is different but one thread, the turn of its CLERK, what purchases change, the accesses under way and the
LEDGER: the frame of an instruction that writes to the journal. -/
def OnlyJournal (w : Who) (s t : State) : Prop :=
  (∀ v, Who.key v ≠ Who.key w → thread t v = thread s v) ∧ ScratchKept s t
  ∧ RegsKept [R.PUR_SPENT_LO, R.PUR_SPENT_HI] s t
  ∧ { t with threads := s.threads, lastIssued := s.lastIssued, issueNo := s.issueNo, purse := s.purse,
             regs := s.regs, accesses := s.accesses, nextAccess := s.nextAccess, ledger := s.ledger } = s

/-- The items of a stopped or freed thread: those it held complete later with a status (R94). -/
def itemsLeft (w : Who) (status : Nat) (is : List Item) : List Item :=
  is.map (fun i => if i.owner = some w then { i with owner := none, ended := some (i.ended.getD status) } else i)

end Sys2Proof.Machine
end

