-- ==== Sys2Proof/Certificates/Slice0/Obligations.lean ====
section
/-!
DEFINITION. The statements about the block for the provers, by chapter of the spec: the machine itself, the encoding of
Lambiop, its instructions, then the commands of each station, port and maintenance unit.
-/

open Sys2Proof Sys2Proof.Machine

/-- For every command c, every queue rest and every state s: the step of s with c in front of rest is exec of c on s
with the queue rest. (INDEX.md, 95_what_each_step_holds.md) -/
def Obligations.StepRunsFrontCommand : Prop :=
  ∀ (c : Instr) (rest : List Instr) (s : State),
    step { s with pending := c :: rest } = exec c { s with pending := rest }

/-- With an empty queue a step is one round of issue: first what threads wait for is tried again, which changes nothing
when no thread waits so, then CLERK 0 to CLERK 7 take their turns on the state that the one before left. In its turn a
CLERK that is not there to issue changes nothing. Otherwise it looks at its 16 threads in ascending order after the one
that issued last; threads that cannot issue are left, a thread that yielded is passed over once; the first other thread
that can issue does what exec of the instruction decoded from the word of program memory at its program counter does, or,
when that word does not decode, what exec of UNDEFINED_OPCODE with that word does, which faults it; then the turn is over,
and it is over without effect when there is no such thread. That an empty queue is this round, that the order begins at
thread 1 before any has issued and that a yield lasts for one round are choices of the model (log entries 1 and 131).
(R57, R67, R71) -/
def Obligations.StepOnEmptyQueueIssues : Prop :=
  ∀ s : State, s.pending = [] → ∃ u : Nat → State, step s = .next (u 8)
    ∧ u 0 = wakeAll (fun _ => true) s ∧ ((∀ (v : Who) (i : Instr), (thread s v).wait ≠ .retry i) → u 0 = s)
    ∧ ∀ c < 8,
      (clerkReady (u c) c = false → u (c + 1) = u c)
      ∧ (clerkReady (u c) c = true → ∀ k ≤ 16,
          let turn (j : Nat) : Who :=
            { clerk := BitVec.ofNat 3 c, thread := BitVec.ofNat 4 (Tab.get 0 (u c).lastIssued c + 1 + j) }
          let passed := ((List.range k).filter (fun j => (thread (u c) (turn j)).canIssue)).foldl
            (fun x j => onThread (turn j) (fun t => { t with yielded := false }) x) (u c)
          (∀ j < k, (thread (u c) (turn j)).canIssue = true → (thread (u c) (turn j)).yielded = true) →
            (k = 16 → u (c + 1) = passed)
            ∧ (k < 16 → (thread (u c) (turn k)).canIssue = true → (thread (u c) (turn k)).yielded = false →
                let word := Tab.get 0 (u c).prog (8192 * c + (thread (u c) (turn k)).pc)
                (∀ i, decodeLambiop (turn k) word = some i → exec i passed = .next (u (c + 1)))
                ∧ (decodeLambiop (turn k) word = none →
                    exec (.undefinedOpcode (turn k) word) passed = .next (u (c + 1))
                    ∧ (thread (u (c + 1)) (turn k)).st = .faulted)))

/-- Whenever exec of a command answers a next state, its queue of waiting commands and its build (configuration,
instance and integration values) are those before. (INDEX.md, 95_what_each_step_holds.md) -/
def Obligations.CommandsLeaveQueueAndBuild : Prop :=
  ∀ (i : Instr) (s t : State), exec i s = .next t → t.pending = s.pending ∧ t.build = s.build

/-- For every command, with every operand, and every state, exec answers a next state: no command faults and none is
refused. (INDEX.md, 95_what_each_step_holds.md) -/
def Obligations.EveryCommandAnswers : Prop :=
  ∀ (i : Instr) (s : State), ∃ t, exec i s = .next t

/-- For every state in which scratch and program memory are in canonical form (addresses strictly rising, no entry
equal to what an unlisted address reads as) and every store noted for R96 is of an instruction that has been issued,
a step that answers a next state answers one in which the same holds. (R57, R58, R96) -/
def Obligations.StepKeepsCanonicalMemory : Prop :=
  ∀ s t : State, Inv s → step s = .next t → Inv t

/-- State.reset meets the invariant of StepKeepsCanonicalMemory, lists nothing in scratch and program memory, and
its queue is empty. (R480) -/
def Obligations.ResetMeetsInvariant : Prop :=
  Inv State.reset ∧ State.reset.pending = [] ∧ State.reset.scratch = [] ∧ State.reset.prog = []

/-- sweep (deliveries to the CLERK sink, completions, closes, tiles that no more work can fill or that TELLER can now
send on, lines that can now be sent) leaves every field of the state unchanged but the ledger, streams, hop queues, the
tiles that TELLER has cut, scratch with its noted stores, tickets, accesses, PURSE, the free-value counter, the emissions
of the fingerprint, queue 3 and registers, and every register but the spending counter, the two discard counters, the
late-work counter, the two counters of queue 3 and the four that a trace packet lost to its missing buffer counts in.
(R42, R47, R94, R492) -/
def Obligations.SweepTouchesOnlyItsOwn : Prop :=
  ∀ s : State, OnlySwept s (sweep s)

/-- For every configuration, every Lambiop command i well-formed in it, with every operand at every value its
encoding admits: encodeLambiop i is some word, and its thread decodes that word to i. (R66, R67, R71) -/
def Obligations.LambiopDecodesWhatItEncodes : Prop :=
  ∀ (z : Size) (i : Instr) (op : Nat) (w : Who) (f : Fields),
    lambiopParts i = some (op, w, f) → wellFormed z i = true →
    ∃ x, encodeLambiop i = some x ∧ decodeLambiop w x = some i

/-- For every thread w and word x: if w decodes x to i, then i is a Lambiop instruction of w whose encoding is x,
bit for bit. No bit of the word is dropped. (R66, R67) -/
def Obligations.LambiopWordsAreUnambiguous : Prop :=
  ∀ (w : Who) (x : Word) (i : Instr), decodeLambiop w x = some i →
    encodeLambiop i = some x ∧ ∃ op f, lambiopParts i = some (op, w, f)

/-- There are exactly 48 opcodes that some word decodes under, and they are those of Table 2.6. A word whose opcode
byte is not one of them decodes to nothing, and so does the word 0 of zeroed program memory, so that issuing it
faults the thread. (R71) -/
def Obligations.OnlyTheFortyEightOpcodes : Prop :=
  let table := [0x01, 0x02, 0x03, 0x04, 0x05, 0x06, 0x07, 0x08, 0x09, 0x0A, 0x0B, 0x0C, 0x0D, 0x0E, 0x0F, 0x10, 0x11,
    0x18, 0x19, 0x1A, 0x1B, 0x1C, 0x1D, 0x1E, 0x1F, 0x20, 0x21, 0x22, 0x23, 0x24, 0x25, 0x30, 0x31, 0x32, 0x40, 0x41,
    0x44, 0x45, 0x46, 0x50, 0x51, 0x52, 0x60, 0x61, 0x62, 0x63, 0x70, 0x78]
  table.length = 48
  ∧ (∀ op, op ∈ table ↔ ∃ (w : Who) (x : Word) (i : Instr), wordOp x = op ∧ decodeLambiop w x = some i)
  ∧ (∀ (w : Who) (x : Word), wordOp x ∉ table → decodeLambiop w x = none)
  ∧ (∀ w : Who, decodeLambiop w 0 = none)
  ∧ (∀ (w : Who) (s : State), clerkReady s w.clerk.toNat = true → (thread s w).canIssue = true →
      Answers (exec (.undefinedOpcode w 0) s) (fun t => (thread t w).st = .faulted))

/-- A word of each of several families, written field by field (OP, D, A, B, PRED, IMM), decodes to the instruction
with those fields: the two worked cases of the chapter (ADDI g4, g0, 0x2A7 and B 0x1F0 under not p1), ADD g3,g1,g2;
ADDI g4,g4,-1; CMP p1 LTU g5,g6; B 0x1234; LD g7,g8,16; FLOW g1,g2; PICK; EMIT. (R66, R68, R71) -/
def Obligations.SpecWordsDecode : Prop :=
  ∀ w : Who,
    decodeLambiop w 0x0A400000000002A7#64 = some (.addi w ⟨4, 0, 0, 0, 0x2A7⟩)
    ∧ decodeLambiop w 0x18000900000001F0#64 = some (.b w ⟨0, 0, 0, 9, 0x1F0⟩)
    ∧ decodeLambiop w 0x0131200000000000#64 = some (.add w ⟨3, 1, 2, 0, 0⟩)
    ∧ decodeLambiop w 0x0A4400FFFFFFFFFF#64 = some (.addi w ⟨4, 4, 0, 0, 0xFFFFFFFFFF⟩)
    ∧ decodeLambiop w 0x0D15600000000002#64 = some (.cmp w ⟨1, 5, 6, 0, 2⟩)
    ∧ decodeLambiop w 0x1800010000001234#64 = some (.b w ⟨0, 0, 0, 1, 0x1234⟩)
    ∧ decodeLambiop w 0x2278000000000010#64 = some (.ld w ⟨7, 8, 0, 0, 16⟩)
    ∧ decodeLambiop w 0x4012000000000000#64 = some (.flow w ⟨1, 2, 0, 0, 0⟩)
    ∧ decodeLambiop w 0x6312300000000105#64 = some (.pick w ⟨1, 2, 3, 0, 0x105⟩)
    ∧ decodeLambiop w 0x7012300000000009#64 = some (.emit w ⟨1, 2, 3, 0, 9⟩)

/-- For each of ADD, SUB, MUL, AND, OR, XOR, SHL, SHR, SAR, ADDI, ANDI, LUI and SEL, on every state in which its
thread may issue it and its coins are there: it answers a next state in which g[d] holds the result of its row of
the chapter (a write of g0 is discarded), the program counter is one on, its price has left the balance, and nothing
else is different: no other register or predicate of the thread, no other thread, no byte of scratch, no control
register but the spending counter. (R60, R66, R71, R88) -/
def Obligations.ScalarResults : Prop :=
  ∀ (s : State) (w : Who) (f : Fields),
    let t := issuedThread s w
    let put (v : Word) : Thread := { t.setG f.d v with pc := t.pc + 1 }
    (Issues s w f 0x1 2 → ThreadEffect w 2 s (put (t.reg f.a + t.reg f.b)) (exec (.add w f) s))
    ∧ (Issues s w f 0x2 2 → ThreadEffect w 2 s (put (t.reg f.a - t.reg f.b)) (exec (.sub w f) s))
    ∧ (Issues s w f 0x3 4 → ThreadEffect w 4 s (put (t.reg f.a * t.reg f.b)) (exec (.mul w f) s))
    ∧ (Issues s w f 0x4 2 → ThreadEffect w 2 s (put (t.reg f.a &&& t.reg f.b)) (exec (.and w f) s))
    ∧ (Issues s w f 0x5 2 → ThreadEffect w 2 s (put (t.reg f.a ||| t.reg f.b)) (exec (.or w f) s))
    ∧ (Issues s w f 0x6 2 → ThreadEffect w 2 s (put (t.reg f.a ^^^ t.reg f.b)) (exec (.xor w f) s))
    ∧ (Issues s w f 0x7 2 → ThreadEffect w 2 s (put (t.reg f.a <<< (((t.reg f.b).toNat + f.imm.toNat % 64) % 64))) (exec (.shl w f) s))
    ∧ (Issues s w f 0x8 2 → ThreadEffect w 2 s (put (t.reg f.a >>> (((t.reg f.b).toNat + f.imm.toNat % 64) % 64))) (exec (.shr w f) s))
    ∧ (Issues s w f 0x9 2 → ThreadEffect w 2 s (put ((t.reg f.a).sshiftRight (((t.reg f.b).toNat + f.imm.toNat % 64) % 64))) (exec (.sar w f) s))
    ∧ (Issues s w f 0xa 2 → ThreadEffect w 2 s (put (t.reg f.a + f.imm.signExtend 64)) (exec (.addi w f) s))
    ∧ (Issues s w f 0xb 2 → ThreadEffect w 2 s (put (t.reg f.a &&& f.imm.setWidth 64)) (exec (.andi w f) s))
    ∧ (Issues s w f 0xc 2 → ThreadEffect w 2 s (put (BitVec.ofNat 64 ((t.reg f.a).toNat % 2 ^ 40 + f.imm.toNat % 2 ^ 24 * 2 ^ 40))) (exec (.lui w f) s))
    ∧ (Issues s w f 0xf 2 → ThreadEffect w 2 s (put (if t.pred (f.imm.toNat % 8) then t.reg f.a else t.reg f.b)) (exec (.sel w f) s))

/-- For CMP, CMPI and PSET, on every state in which the thread may issue it and its coins are there: it answers a
next state in which p[d] holds the condition (EQ, NE, LTU, GEU, LTS, GES, or equality and inequality of bits 7 to 0,
by imm[2:0]) of g[a] and g[b] or the sign-extended constant imm[39:8], or the combination (and, or, exclusive or,
and not) of p[a] and p[b]; a write of p0 is discarded; the program counter is one on and nothing else is different.
(R60, R66, R71, R88) -/
def Obligations.PredicateResults : Prop :=
  ∀ (s : State) (w : Who) (f : Fields),
    let t := issuedThread s w
    let put (v : Bool) : Thread := { t.setP f.d.toNat v with pc := t.pc + 1 }
    let cond (x y : Word) : Bool :=
      if f.imm.toNat % 8 = 0 then decide (x = y)
      else if f.imm.toNat % 8 = 1 then decide (x ≠ y)
      else if f.imm.toNat % 8 = 2 then decide (x.toNat < y.toNat)
      else if f.imm.toNat % 8 = 3 then decide (y.toNat ≤ x.toNat)
      else if f.imm.toNat % 8 = 4 then decide (x.toInt < y.toInt)
      else if f.imm.toNat % 8 = 5 then decide (y.toInt ≤ x.toInt)
      else if f.imm.toNat % 8 = 6 then decide (x.toNat % 256 = y.toNat % 256)
      else decide (x.toNat % 256 ≠ y.toNat % 256)
    let comb (x y : Bool) : Bool :=
      if f.imm.toNat % 4 = 0 then x && y
      else if f.imm.toNat % 4 = 1 then x || y
      else if f.imm.toNat % 4 = 2 then x != y
      else x && !y
    (Issues s w f 0x0D 2 → ThreadEffect w 2 s (put (cond (t.reg f.a) (t.reg f.b))) (exec (.cmp w f) s))
    ∧ (Issues s w f 0x0E 2 →
        ThreadEffect w 2 s (put (cond (t.reg f.a) ((f.imm.extractLsb' 8 32).signExtend 64))) (exec (.cmpi w f) s))
    ∧ (Issues s w f 0x10 2 →
        ThreadEffect w 2 s (put (comb (t.pred f.a.toNat) (t.pred f.b.toNat))) (exec (.pset w f) s))

/-- g0 reads as 0 and a write to it is discarded; p0 reads as true and a write to it is discarded; g1 to g15 each
read back the 64-bit word last written, p1 to p7 the bit last written, and a write changes no other g or p register.
(R60) -/
def Obligations.RegisterZeroAndWidths : Prop :=
  ∀ (t : Thread) (v : Word) (b : Bool) (r q : BitVec 4),
    t.reg 0 = 0 ∧ t.setG 0 v = t ∧ t.pred 0 = true ∧ t.setP 0 b = t
    ∧ (r ≠ 0 → (t.setG r v).reg r = v)
    ∧ (q ≠ r → (t.setG r v).reg q = t.reg q)
    ∧ (∀ n, 1 ≤ n → n < 8 → (t.setP n b).pred n = b)
    ∧ (∀ n m, n < 8 → m < 8 → m ≠ n → (t.setP n b).pred m = t.pred m)
    ∧ (t.setG r v).p = t.p ∧ ∀ n, (t.setP n b).g = t.g

/-- On every state in which the thread may issue CRC with its coins there (3 cents and 1 per 64 bytes, on the
operand value): if the span of g[b] bytes from g[a] lies in scratch, g[d] takes the CRC-32C of its bytes, bits 63 to
32 zero, the program counter is one on and nothing else changes; if it does not, the thread faults with ST_BOUNDS.
(R19, R71, R88, R95) -/
def Obligations.CrcResult : Prop :=
  ∀ (s : State) (w : Who) (f : Fields),
    let t := issuedThread s w
    let a := (t.reg f.a).toNat
    let n := (t.reg f.b).toNat
    let cents := 3 + (min n 0x40000 + 63) / 64
    Issues s w f 0x11 cents →
      (a + n ≤ 0x40000 → ThreadEffect w cents s
        { t.setG f.d (BitVec.ofNat 64 (crc32c (scratchRead s w.clerk.toNat a n))) with pc := t.pc + 1 }
        (exec (.crc w f) s))
      ∧ (0x40000 < a + n → ∃ u, Bought w cents s u ∧ exec (.crc w f) s = .next (faultThread w St.BOUNDS u))

/-- On every state in which the thread may issue it with its coins there: B goes to imm[12:0]; BP to g[a] when that
is below 8,192; CALL, with fewer than 16 entries on the return stack, pushes pc + 1 and goes to imm[12:0]; RET, with
an entry below 8,192 on the stack, pops it into the program counter; YIELD goes on at pc + 1 and is passed over in
the next round; NOP goes on at pc + 1. Nothing else changes. (R57, R71) -/
def Obligations.ControlFlow : Prop :=
  ∀ (s : State) (w : Who) (f : Fields),
    let t := issuedThread s w
    (Issues s w f 0x18 2 → ThreadEffect w 2 s { t with pc := f.imm.toNat % 8192 } (exec (.b w f) s))
    ∧ (Issues s w f 0x19 2 → (t.reg f.a).toNat < 8192 →
        ThreadEffect w 2 s { t with pc := (t.reg f.a).toNat } (exec (.bp w f) s))
    ∧ (Issues s w f 0x1A 2 → t.stack.length < 16 →
        ThreadEffect w 2 s { t with pc := f.imm.toNat % 8192, stack := (t.pc + 1) :: t.stack } (exec (.call w f) s))
    ∧ (∀ pc rest, Issues s w f 0x1B 2 → t.stack = pc :: rest → pc < 8192 →
        ThreadEffect w 2 s { t with pc := pc, stack := rest } (exec (.ret w f) s))
    ∧ (Issues s w f 0x1C 2 → ThreadEffect w 2 s { t with pc := t.pc + 1, yielded := true } (exec (.yield w f) s))
    ∧ (Issues s w f 0x1F 2 → ThreadEffect w 2 s { t with pc := t.pc + 1 } (exec (.nop w f) s))

/-- On every state in which the thread may issue it with its coins there: BP to 8,192 or above and LD or ST at an
address not 8-byte aligned or outside the 256 KiB of scratch fault the thread with ST_BOUNDS; CALL on a full return
stack faults it with ST_OVERRUN; RET on an empty one with ST_BAD_OP. After the purchase the state is that of a fault
and of nothing else of the instruction. (R92, R93, R95) -/
def Obligations.OperandFaults : Prop :=
  ∀ (s : State) (w : Who) (f : Fields),
    let t := issuedThread s w
    let x := (t.reg f.a + f.imm.signExtend 64).toNat
    let faults (cents st : Nat) (o : Host.Outcome State Fault Refusal) : Prop :=
      ∃ u, Bought w cents s u ∧ o = .next (faultThread w st u)
    (Issues s w f 0x19 2 → 8192 ≤ (t.reg f.a).toNat → faults 2 0x21 (exec (.bp w f) s))
    ∧ (Issues s w f 0x1A 2 → 16 ≤ t.stack.length → faults 2 0x23 (exec (.call w f) s))
    ∧ (Issues s w f 0x1B 2 → t.stack = [] → faults 2 0x70 (exec (.ret w f) s))
    ∧ (Issues s w f 0x22 3 → (x % 8 ≠ 0 ∨ 0x40000 ≤ x) → faults 3 0x21 (exec (.ld w f) s))
    ∧ (Issues s w f 0x23 3 → (x % 8 ≠ 0 ∨ 0x40000 ≤ x) → faults 3 0x21 (exec (.st w f) s))

/-- A fault of a thread with a status: the thread stands in FAULTED at its program counter with its registers kept;
the CLERK fault register, if its VALID bit was clear, takes the program counter, the thread, the status and VALID,
and otherwise stays; every other thread is unchanged; the level of service request 1, the CLERK one, is high. (R92, R512)
-/
def Obligations.FaultStopsOnlyItsThread : Prop :=
  ∀ (s : State) (w : Who) (st : Nat),
    let t := faultThread w st s
    let off := R.CLK_FAULT0 + 4 * w.clerk.toNat
    srqLevel t 1 = true ∧ (thread t w).st = .faulted ∧ (thread t w).pc = (thread s w).pc ∧ (thread t w).g = (thread s w).g
      ∧ (thread t w).p = (thread s w).p
    ∧ (∀ v, Who.key v ≠ Who.key w → thread t v = thread s v)
    ∧ (bit (reg s off) 31 = true → reg t off = reg s off)
    ∧ (bit (reg s off) 31 = false → (thread s w).pc < 8192 → st < 256 →
        reg t off = (thread s w).pc + w.thread.toNat * 2 ^ 13 + st * 2 ^ 17 + 2 ^ 31)

/-- For every word that does not decode (an undefined opcode, or a reserved bit not 0), of a thread that may issue:
UNDEFINED_OPCODE answers the state in which the CLERK has taken that turn and the thread has faulted with ST_BAD_OP;
the predicate field of the word plays no part. A word that does decode has a defined opcode and every reserved bit
0. That such a word is not charged, and that the operand fields an instruction does not use count as reserved, are the
choices of the model (log entries 66 and 4). (R67, R88, R92) -/
def Obligations.UndefinedWordsFault : Prop :=
  (∀ (s : State) (w : Who) (x : Word), clerkReady s w.clerk.toNat = true → (thread s w).canIssue = true →
    decodeLambiop w x = none →
    exec (.undefinedOpcode w x) s = .next (faultThread w 0x70 (noteIssue w s))
    ∧ (thread (faultThread w 0x70 (noteIssue w s)) w).st = .faulted)
  ∧ (∀ (w : Who) (x : Word),
      decodeLambiop w x = none ↔ (lambiopOf (wordOp x) w (Sys2Proof.wordFields x) = none ∨ reservedOk (wordOp x) (Sys2Proof.wordFields x) = false))
  ∧ (∀ (s : State) (i : Instr) (op : Nat) (w : Who) (f : Fields), lambiopParts i = some (op, w, f) →
      clerkReady s w.clerk.toNat = true → (thread s w).canIssue = true → reservedOk op f = false →
      exec i s = .next (faultThread w 0x70 (noteIssue w s)))

/-- For a status below 256, flags below 32 and a value below 2^47, the result word has the status in bits 7 to 0,
the flags in bits 12 to 8, bits 15 to 13 zero, the value in bits 62 to 16 and NV clear; the word that says that
nothing was available has NV set and every other bit clear. (R69) -/
def Obligations.ResultWordLayout : Prop :=
  (∀ st fl v : Nat, st < 256 → fl < 32 → v < 2 ^ 47 →
    let x := (resultWord st fl v).toNat
    x % 256 = st ∧ x / 2 ^ 8 % 32 = fl ∧ x / 2 ^ 13 % 8 = 0 ∧ x / 2 ^ 16 % 2 ^ 47 = v ∧ x / 2 ^ 63 = 0)
  ∧ nvWord.toNat = 2 ^ 63

/-- On every state in which the thread may issue it with its coins there: RDS writes to g[d] the special register of
its selector (STREAM, LEDGER, BEATPOS with FROZEN in bit 63, TICKET); WRS with selector 0 and a value below 4,096
sets STREAM to g[a] and LEDGER to 0, leaves the items of the thread to complete with ST_BAD_OP, and changes nothing
else before what follows by itself; WRS with another selector faults the thread with ST_BAD_OP. (R63) -/
def Obligations.SpecialRegistersAndStream : Prop :=
  ∀ (s : State) (w : Who) (f : Fields),
    let t := issuedThread s w
    let sel := f.imm.toNat % 4
    let x := (t.reg f.a).toNat
    (Issues s w f 0x20 2 → Writes w f 2 s
      (if sel = 0 then BitVec.ofNat 64 t.stream
       else if sel = 1 then BitVec.ofNat 64 t.ledger
       else if sel = 2 then BitVec.ofNat 64 (s.beat.pos % 2 ^ 44 + (if s.beat.frozen then 2 ^ 63 else 0))
       else BitVec.ofNat 64 t.ticket) (exec (.rds w f) s))
    ∧ (Issues s w f 0x21 2 → sel = 0 → x < 4096 → EndsIn (exec (.wrs w f) s) (fun u =>
        thread u w = { t with pc := t.pc + 1, stream := x, ledger := 0 }
        ∧ u.ledger = { s.ledger with items := itemsLeft w 0x70 s.ledger.items }
        ∧ OnlyThread w s { u with ledger := s.ledger }))
    ∧ (Issues s w f 0x21 2 → sel ≠ 0 →
        ∃ u, Bought w 2 s u ∧ exec (.wrs w f) s = .next (faultThread w 0x70 u))

/-- On every state in which the thread may issue it with its coins there, and for an 8-byte aligned address below
0x40000: LD writes to g[d] the word whose byte i is the byte of scratch at address + i; ST stores g[b] so that byte
i of it is at address + i, and every other byte of scratch of every CLERK reads as before. Nothing else changes but
the program counter, the balance and the stores noted for R96. ST is said of states in which every store noted is of
an instruction issued before, which is part of the invariant of StepKeepsCanonicalMemory. (R21, R60, R71, R88) -/
def Obligations.ScratchLoadsAndStores : Prop :=
  ∀ (s : State) (w : Who) (f : Fields),
    let t := issuedThread s w
    let c := w.clerk.toNat
    let x := (t.reg f.a + f.imm.signExtend 64).toNat
    x % 8 = 0 → x < 0x40000 →
      (Issues s w f 0x22 3 → ∃ v : Word, (∀ i < 8, v.extractLsb' (8 * i) 8 = scratchByte s c (x + i))
        ∧ Writes w f 3 s v (exec (.ld w f) s))
      ∧ (Issues s w f 0x23 3 → storesIssued s = true → Answers (exec (.st w f) s) (fun u =>
          thread u w = { t with pc := t.pc + 1 } ∧ ThreadOrScratch w s u
          ∧ (∀ i < 8, scratchByte u c (x + i) = (t.reg f.b).extractLsb' (8 * i) 8)
          ∧ (∀ d y, y < 0x40000 → (d ≠ c ∨ y < x ∨ x + 8 ≤ y) → scratchByte u d y = scratchByte s d y)
          ∧ u.purse.balance + priceNow s 3 = s.purse.balance))

/-- On every state in which the thread may issue it with its coins there: HALT leaves the thread HALTED at pc + 1,
with the items it holds to complete with ST_BAD_OP, and changes nothing else before what follows by itself; BRK
leaves it in DEBUG at pc + 1 when debug scope bit 0 is open, and otherwise goes on at pc + 1, and changes nothing
else. (R94, R417) -/
def Obligations.HaltAndBreak : Prop :=
  ∀ (s : State) (w : Who) (f : Fields),
    let t := issuedThread s w
    (Issues s w f 0x1D 2 → EndsIn (exec (.halt w f) s) (fun u =>
        thread u w = { t with pc := t.pc + 1, st := .halted }
        ∧ u.ledger = { s.ledger with items := itemsLeft w 0x70 s.ledger.items }
        ∧ OnlyThread w s { u with ledger := s.ledger }))
    ∧ (Issues s w f 0x1E 2 → s.kcw.scopes % 2 = 1 →
        ThreadEffect w 2 s { t with pc := t.pc + 1, st := .debug } (exec (.brk w f) s))
    ∧ (Issues s w f 0x1E 2 → s.kcw.scopes % 2 = 0 →
        ThreadEffect w 2 s { t with pc := t.pc + 1 } (exec (.brk w f) s))

/-- For each of the 48 instructions, on every state in which its thread may issue it but for its predicate, which is
false: at the price at which it would be bought, it answers a next state with the program counter one on and nothing
else different: no register, no scratch byte, no stream, no ticket, no item, no register but the spending counter.
The two worked encodings of the rule decode as it says. (R68) -/
def Obligations.FalsePredicate : Prop :=
  (∀ (s : State) (i : Instr) (op : Nat) (w : Who) (f : Fields) (o : Op) (cents : Nat),
    lambiopParts i = some (op, w, f) → opOf s i = some o → o.bill = [(cents, 1)] →
    clerkReady s w.clerk.toNat = true → (thread s w).st = .running → (thread s w).wait = .ready →
    (thread s w).stepping = false → (thread s w).stopAfter = false → (thread s w).pc < 8191 →
    reservedOk op f = true → predHolds (thread s w) f = false →
    s.purse.queue = [] → clkUp s 22 = true → priceNow s cents ≤ s.purse.balance →
      ThreadEffect w cents s { issuedThread s w with pc := (thread s w).pc + 1 } (exec i s))
  ∧ (∀ (s : State) (i : Instr) (op : Nat) (w : Who) (f : Fields), lambiopParts i = some (op, w, f) →
      ∃ o cents, opOf s i = some o ∧ o.bill = [(cents, 1)])
  ∧ (∀ w : Who, decodeLambiop w 0x0A400000000002A7#64 = some (.addi w ⟨4, 0, 0, 0, 0x2A7⟩)
      ∧ decodeLambiop w 0x18000900000001F0#64 = some (.b w ⟨0, 0, 0, 9, 0x1F0⟩))

/-- On every state in which the thread may issue at index 8,191 with its coins there: an instruction that is not a
branch, CALL, RET or HALT, and any instruction whose predicate is false, faults the thread with ST_BOUNDS and has no
other effect; B at that index goes to its target. That the fault stands at index 8,191, that it comes after the charge and
that HALT there is exempt are the choice of the model (log entry 65). (R72, R93) -/
def Obligations.EndOfProgram : Prop :=
  (∀ (s : State) (i : Instr) (op : Nat) (w : Who) (f : Fields) (o : Op) (cents : Nat),
    lambiopParts i = some (op, w, f) → opOf s i = some o → o.bill = [(cents, 1)] →
    clerkReady s w.clerk.toNat = true → (thread s w).st = .running → (thread s w).wait = .ready →
    (thread s w).pc = 8191 → reservedOk op f = true →
    s.purse.queue = [] → clkUp s 22 = true → priceNow s cents ≤ s.purse.balance →
    (predHolds (thread s w) f = false ∨ op ∉ [0x18, 0x19, 0x1A, 0x1B, 0x1D]) →
      ∃ u, Bought w cents s u ∧ exec i s = .next (faultThread w 0x21 u))
  ∧ (∀ (s : State) (w : Who) (f : Fields),
      clerkReady s w.clerk.toNat = true → (thread s w).st = .running → (thread s w).wait = .ready →
      (thread s w).stepping = false → (thread s w).stopAfter = false →
      (thread s w).pc = 8191 → reservedOk 0x18 f = true → predHolds (thread s w) f = true →
      s.purse.queue = [] → clkUp s 22 = true → priceNow s 2 ≤ s.purse.balance →
        ThreadEffect w 2 s { issuedThread s w with pc := f.imm.toNat % 8192 } (exec (.b w f) s))

/-- For each of the 48 instructions, on every state in which its thread may issue it, its price is not 0, and PURSE
has a purchase of its class waiting or too few coins: the thread waits for coins with nothing else of it changed,
the purchase stands in the queue of PURSE, every other thread is unchanged, and no byte of scratch, stream, ticket
or item has changed. Once PURSE serves that purchase, the instruction has its effect (PurchaseThatIsServed). (R89,
R426) -/
def Obligations.CoinsThatCannotBeGranted : Prop :=
  ∀ (s : State) (i : Instr) (op : Nat) (w : Who) (f : Fields) (o : Op) (cents : Nat),
    lambiopParts i = some (op, w, f) → opOf s i = some o → o.bill = [(cents, 1)] →
    clerkReady s w.clerk.toNat = true → (thread s w).st = .running → (thread s w).wait = .ready →
    reservedOk op f = true → 0 < cents → 0 < s.purse.scale →
    (∀ p ∈ s.purse.queue, p.what ≠ .command i) →
    (mustWait s 0 = true ∨ s.purse.balance < priceNow s cents) →
      Answers (exec i s) (fun u =>
        thread u w = { issuedThread s w with wait := .coins }
        ∧ u.purse.queue = s.purse.queue ++ [{ cls := 0, bill := [(cents, 1)], what := .command i }]
        ∧ u.purse.balance = s.purse.balance
        ∧ OnlyThread w s { u with purse := { u.purse with queue := s.purse.queue } })

/-- On every state in which the thread may issue it with its coins there, for the ticket in bits 27 to 16 of g[a]:
of a ticket that has completed since the CLERK started, WAITT and TPOLL write its result word (status, flags, tiles)
to g[d]; while it is outstanding WAITT leaves the thread waiting for it and TPOLL writes a word with NV set; of a
ticket not issued since the CLERK started, and of 0xFFF, both write ST_BAD_OP. Nothing else changes. (R82, R84, R71)
-/
def Obligations.TicketInstructions : Prop :=
  ∀ (s : State) (w : Who) (f : Fields),
    let t := issuedThread s w
    let k := (t.reg f.a).toNat / 2 ^ 16 % 4096
    let unknown := k = 0xFFF ∨ (∀ x, ticket? s w.clerk.toNat k = some x → x.old = true)
    (∀ x, k ≠ 0xFFF → ticket? s w.clerk.toNat k = some x → x.old = false →
      (Issues s w f 0x44 2 → x.done = true → Writes w f 2 s (resultWord x.status x.flags x.tiles) (exec (.waitt w f) s))
      ∧ (Issues s w f 0x44 2 → x.done = false → LeavesWaiting w 2 s (.retry (.waitt w f)) (exec (.waitt w f) s))
      ∧ (Issues s w f 0x46 2 → x.done = true → Writes w f 2 s (resultWord x.status x.flags x.tiles) (exec (.tpoll w f) s))
      ∧ (Issues s w f 0x46 2 → x.done = false → Writes w f 2 s nvWord (exec (.tpoll w f) s)))
    ∧ (unknown → (Issues s w f 0x44 2 → Writes w f 2 s (resultWord 0x70 0 0) (exec (.waitt w f) s))
      ∧ (Issues s w f 0x46 2 → Writes w f 2 s (resultWord 0x70 0 0) (exec (.tpoll w f) s)))

/-- On every state in which the thread may issue WAITB with its coins there, for the position in g[a]: 2^44 and
above is refused with ST_BAD_OP; while the beat port is frozen the result is ST_BEAT_BACK; a position that the
current one has reached gives ST_OK; for a later one the thread waits. Nothing else changes. (R84, R102) -/
def Obligations.WaitForABeat : Prop :=
  ∀ (s : State) (w : Who) (f : Fields),
    let x := ((issuedThread s w).reg f.a).toNat
    Issues s w f 0x45 2 →
      (2 ^ 44 ≤ x → Writes w f 2 s (resultWord 0x70 0 0) (exec (.waitb w f) s))
      ∧ (x < 2 ^ 44 → s.beat.frozen = true → Writes w f 2 s (resultWord 0x12 0 0) (exec (.waitb w f) s))
      ∧ (s.beat.frozen = false → x < 2 ^ 44 → x ≤ s.beat.pos → Writes w f 2 s (resultWord 0 0 0) (exec (.waitb w f) s))
      ∧ (s.beat.frozen = false → x < 2 ^ 44 → s.beat.pos < x →
          LeavesWaiting w 2 s (.retry (.waitb w f)) (exec (.waitb w f) s))

/-- On every state in which the thread may issue PRICE with its coins there: for a code in imm[8:0] with a base
price (Table 2.6 for an opcode, Table 13.3 with bit 8 set; DRAFT counts as one token, 24 cents) the result word has
ST_OK and in VALUE the base price times SCALE over 1,024, rounded up; for any other code it is ST_BAD_OP. Nothing
else changes. That DRAFT gives the price of one token is the choice of the model (log entry 75). (R90, R430) -/
def Obligations.PriceInForce : Prop :=
  ∀ (s : State) (w : Who) (f : Fields),
    let k := f.imm.toNat % 512
    Issues s w f 0x78 2 →
      (k = 0x62 → Writes w f 2 s (resultWord 0 0 ((24 * s.purse.scale + 1023) / 1024)) (exec (.price w f) s))
      ∧ (∀ c, k ≠ 0x62 → codePrice k = some c →
          Writes w f 2 s (resultWord 0 0 ((c * s.purse.scale + 1023) / 1024)) (exec (.price w f) s))
      ∧ (k ≠ 0x62 → codePrice k = none → Writes w f 2 s (resultWord 0x70 0 0) (exec (.price w f) s))

/-- On every state in which the thread may issue PICK with its coins there: with ARITH up to 9, K from 1 to 64 for
modes 1 and 3, a length from 1 to 1,048,576 and a 64-byte aligned block at g[b] in scratch, the block holds word 0 =
MODE, K (1 for modes 0 and 2), ARITH, the bit of imm[13] and LEN, word 1 = TEMP 1.0, and 0 in its other 48 bytes;
every other byte of scratch reads as before and the result is ST_OK. Otherwise nothing is written and the result is
ST_BAD_OP for the first two and ST_LEN for the length. A block elsewhere gives ST_BOUNDS, which is the choice of the
model (log entry 67). It is said of states in which every store noted is of an instruction issued before. (R87,
R277) -/
def Obligations.PickWritesADescriptor : Prop :=
  ∀ (s : State) (w : Who) (f : Fields),
    let t := issuedThread s w
    let c := w.clerk.toNat
    let i := f.imm.toNat
    let x := (t.reg f.b).toNat
    let len := (t.reg f.a).toNat
    let k := i / 4 % 128
    let bad := 9 < i / 512 % 16 ∨ (i % 2 = 1 ∧ (k = 0 ∨ 64 < k))
    let word0 := i % 4 + (if i % 2 = 1 then k else 1) * 2 ^ 2 + i / 512 % 16 * 2 ^ 9 + i / 8192 % 2 * 2 ^ 13 + len * 2 ^ 16
    Issues s w f 0x63 3 → storesIssued s = true →
      (¬ bad → 1 ≤ len → len ≤ 1048576 → x % 64 = 0 → x + 64 ≤ 0x40000 → Answers (exec (.pick w f) s) (fun u =>
          thread u w = { t.setG f.d (resultWord 0 0 0) with pc := t.pc + 1 } ∧ ThreadOrScratch w s u
          ∧ leAt (scratchRead u c x 64) 0 8 = word0 ∧ leAt (scratchRead u c x 64) 8 8 = 0x3F800000
          ∧ (∀ j, 16 ≤ j → j < 64 → scratchByte u c (x + j) = 0)
          ∧ ∀ d y, y < 0x40000 → (d ≠ c ∨ y < x ∨ x + 64 ≤ y) → scratchByte u d y = scratchByte s d y))
      ∧ (bad → Writes w f 3 s (resultWord 0x70 0 0) (exec (.pick w f) s))
      ∧ (¬ bad → (len = 0 ∨ 1048576 < len) → Writes w f 3 s (resultWord 0x20 0 0) (exec (.pick w f) s))
      ∧ (¬ bad → 1 ≤ len → len ≤ 1048576 → (x % 64 ≠ 0 ∨ 0x40000 < x + 64) →
          Writes w f 3 s (resultWord 0x21 0 0) (exec (.pick w f) s))

/-- On every state in which the thread may issue DNEXT with its coins there, for the entry queue of its CLERK, when no
DNEXT of the CLERK waits: with an entry next (a replayed one first, then one of the earliest step) and a 64-byte
aligned block at g[a] in scratch, the entry leaves the queue, its 64 bytes stand in the block and every other byte of
scratch reads as before, and g[d] takes a result word with the stream of the entry, its opcode (byte 0) in VALUE bits
19 to 12 and REPLAYED for a replayed one; with the queue empty, imm[0] set leaves the thread waiting and clear writes
NV. A block elsewhere faults the thread with ST_BOUNDS. DNEXTs of the CLERK that wait and were issued before take
their entries first, in issue order, and then this one does. It is said of states in which every store noted is of an
instruction issued before. (R83, R130, R95, R96) -/
def Obligations.NextDaybookEntry : Prop :=
  ∀ (s : State) (w : Who) (f : Fields),
    let t := issuedThread s w
    let c := w.clerk.toNat
    let x := (t.reg f.a).toNat
    let q := Tab.get [] s.day.queues c
    (Issues s w f 0x41 5 → ∃ u, Bought w 5 s u ∧ exec (.dnext w f) s = .next (takeEntry w f
      (((waitingDnexts u c).filter (fun v => decide ((thread u v.1).no < s.issueNo + 1))).foldl
        (fun z v => takeEntry v.1 v.2 z) u)))
    ∧ (Issues s w f 0x41 5 → storesIssued s = true →
      (∀ v g h, v.clerk = w.clerk → (thread s v).wait ≠ .retry (.dnext g h)) →
      (∀ e, nextEntry q = some e → e.data.length = 64 → x % 64 = 0 → x + 64 ≤ 0x40000 →
        Answers (exec (.dnext w f) s) (fun u =>
          thread u w = { t.setG f.d (resultWord 0 (if e.replay then 8 else 0)
            (entryStream e.data + leAt e.data 0 1 * 2 ^ 12)) with pc := t.pc + 1 }
          ∧ scratchRead u c x 64 = e.data
          ∧ (∀ d y, y < 0x40000 → (d ≠ c ∨ y < x ∨ x + 64 ≤ y) → scratchByte u d y = scratchByte s d y)
          ∧ Tab.get [] u.day.queues c = q.erase e
          ∧ (∀ d, d ≠ c → Tab.get [] u.day.queues d = Tab.get [] s.day.queues d)
          ∧ ThreadOrScratch w s { u with day := s.day }))
      ∧ (q ≠ [] → ∃ e ∈ q, nextEntry q = some e ∧ ((∃ b ∈ q, b.replay = true) → e.replay = true)
          ∧ ((∀ b ∈ q, b.replay = false) → ∀ b ∈ q, e.step ≤ b.step))
      ∧ (q ≠ [] → (x % 64 ≠ 0 ∨ 0x40000 < x + 64) →
          ∃ u, Bought w 5 s u ∧ exec (.dnext w f) s = .next (faultThread w 0x21 u))
      ∧ (q = [] → f.imm.toNat % 2 = 0 → Writes w f 5 s nvWord (exec (.dnext w f) s))
      ∧ (q = [] → f.imm.toNat % 2 = 1 → LeavesWaiting w 5 s (.retry (.dnext w f)) (exec (.dnext w f) s)))

/-- On every state in which the thread may issue it with its coins there (5 cents and 40 per line): for n = imm[6:0]
from 1 to 64, a 64-byte aligned span of n lines at g[a] in scratch and one at g[b] in PDATA, LDX starts a read and
STX a write of those n lines in order, the write with the bytes of scratch at issue; the thread waits and nothing
else changes but the accesses. For n outside 1 to 64 the result is ST_BAD_OP, else for a span misaligned or outside
ST_BOUNDS, and nothing is sent. When the access has ended with ST_OK, LDX has the bytes read in scratch (where no
instruction issued later has stored) and the thread of either goes on with a result word of the status and n lines;
when it failed, no byte of scratch changes. (R71, R88, R96, R334) -/
def Obligations.CopiesToAndFromStackMemory : Prop :=
  ∀ (s : State) (w : Who) (f : Fields),
    let t := issuedThread s w
    let c := w.clerk.toNat
    let x := (t.reg f.a).toNat
    let y := (t.reg f.b).toNat
    let n := f.imm.toNat % 128
    let cents := 5 + 40 * n
    let span := x % 64 = 0 ∧ x + 64 * n ≤ 0x40000 ∧ y % 64 = 0 ∧ inRegion s 1 y (64 * n) = true
    let sends (kind : ReqKind) (job : Job) (data : Nat → List Byte) (o : Host.Outcome State Fault Refusal) : Prop :=
      Answers o (fun u => thread u w = { t with wait := .busy }
        ∧ OnlyThread w s { u with accesses := s.accesses, nextAccess := s.nextAccess }
        ∧ u.accesses.map Access.job = s.accesses.map Access.job ++ [job]
        ∧ ∃ a ∈ u.accesses, a.ident = s.nextAccess ∧ a.kind = kind ∧ a.job = job ∧ a.paid = true
          ∧ a.lines.map Line.addr = (List.range n).map (fun i => y + 64 * i)
          ∧ a.lines.map Line.data = (List.range n).map data)
    (1 ≤ n → n ≤ 64 → span →
      (Issues s w f 0x24 cents → sends .read (.ldx w f.d.toNat x n) (fun _ => []) (exec (.ldx w f) s))
      ∧ (Issues s w f 0x25 cents →
          sends .write (.stx w f.d.toNat n) (fun i => scratchRead s c (x + 64 * i) 64) (exec (.stx w f) s)))
    ∧ ((n = 0 ∨ 64 < n) → (Issues s w f 0x24 cents → Writes w f cents s (resultWord 0x70 0 0) (exec (.ldx w f) s))
        ∧ (Issues s w f 0x25 cents → Writes w f cents s (resultWord 0x70 0 0) (exec (.stx w f) s)))
    ∧ (1 ≤ n → n ≤ 64 → ¬ span →
        (Issues s w f 0x24 cents → Writes w f cents s (resultWord 0x21 0 0) (exec (.ldx w f) s))
        ∧ (Issues s w f 0x25 cents → Writes w f cents s (resultWord 0x21 0 0) (exec (.stx w f) s)))
    ∧ (∀ (d st : Nat) (data : List Byte), (thread s w).wait = .busy → (thread s w).st = .running →
        (thread s w).stepping = false → (thread s w).stopAfter = false →
        thread (finishLdx w d x n st data s) w =
            { (thread s w).setG (BitVec.ofNat 4 d) (resultWord st 0 n) with pc := (thread s w).pc + 1, wait := .ready }
        ∧ thread (finishStx w d n st s) w =
            { (thread s w).setG (BitVec.ofNat 4 d) (resultWord st 0 n) with pc := (thread s w).pc + 1, wait := .ready }
        ∧ (∀ i (h : i < data.length), st = 0 → x + i < 0x40000 → storedLater s c (thread s w).no (x + i) = false →
            scratchByte (finishLdx w d x n st data s) c (x + i) = data[i])
        ∧ (st ≠ 0 → ∀ e z, scratchByte (finishLdx w d x n st data s) e z = scratchByte s e z)
        ∧ ∀ e z, scratchByte (finishStx w d n st s) e z = scratchByte s e z)

/-- On every state in which the thread may issue SOPEN with its coins there, also those of the residual scans and
lookups of its start state, when no check of the block and stream refuses it, the journal is open, no earlier SOPEN of
the stream waits and no bank that its lookups read stalls: the stream stands OPEN (DEAD when its
start mask with no fallback ends it) with the tenant, intake route, output region, seed and grammar of the block, an
OPEN entry of the stream is made, the thread waits for it, and every other stream, every other thread and all of
scratch are unchanged; of the streams this is said where no lookup of the opening meets a memory error, which a free
value decides (log entry 159). When a check refuses it, the status of the first such check is the result and nothing
else changes. The checks are, in this order: the stream is built, is of this CLERK and is FREE; the block is 64-byte
aligned in scratch; its fields are right; at most 16 stops, whose table is in scratch, with lengths 1 to 64 and the rest
of each entry 0; the tenant has an image; and with a grammar, that grammar is loaded and of the same fingerprint and its
region is set. ST_BOUNDS for the block (log entry 67) and both statuses of a stop table that passes the end of scratch or
whose padding is not 0 (log entry 187) are the choices of the model. (R11, R29, R30, R71, R73, R366, R432) -/
def Obligations.OpeningAStream : Prop :=
  ∀ (s : State) (w : Who) (f : Fields),
    let t := issuedThread s w
    let c := w.clerk.toNat
    let x := (t.reg f.a).toNat
    let bs := scratchRead s c x 64
    let b := readOpen bs
    let clean := (openReads s b).banks = [] ∨ Config.freeValue (s.free + 1) % 4 ∉ [1, 2]
    let table := stopTable s c b.stopPtr b.stopCnt
    let y := stream s t.stream
    openRefusal s c t.stream x b = firstRefusal
      [(decide (s.build.size.contexts ≤ t.stream), 0x21), (decide (t.stream / 512 ≠ c), 0x70),
       (decide (y.st ≠ .free), 0x70),
       (decide (x % 64 ≠ 0 ∨ 0x40000 < x + 64), 0x21),
       (b.reserved || decide (b.outLog2 < 12 ∨ 40 < b.outLog2 ∨ b.outAddr % 64 ≠ 0) || !routeLegal b.intake .text
          || decide (routeHop b.intake 0 ≠ 1 ∨ routeSink b.intake = 12 ∨ b.intake / 2 ^ 28 ≠ 0 ∨ b.stopPtr % 8 ≠ 0)
          || (decide (b.allow ≠ 0) && !b.gen), 0x70),
       (decide (16 < b.stopCnt), 0x20), (decide (0x40000 < b.stopPtr + 72 * b.stopCnt), 0x21),
       (table.any (fun e => decide (leAt e 0 1 = 0 ∨ 64 < leAt e 0 1)), 0x20),
       (table.any (fun e => ((e.drop 1).take 7).any (· ≠ 0) || (e.drop (8 + leAt e 0 1)).any (· ≠ 0)), 0x70),
       ((imageOf s b.tenant).isNone, 0x71), (b.gen && (grammar s b.gid).isNone, 0x71),
       (b.gen && decide ((grammar s b.gid).map GrammarImage.fingerprint ≠ (imageOf s b.tenant).map TokImage.fingerprint), 0x71),
       (b.gen && decide (regionSize s 3 = 0), 0x21)]
    ∧ (Issues s w f 0x30 120 →
      (∀ st, openRefusal s c t.stream x b = some st → Writes w f 120 s (resultWord st 0 0) (exec (.sopen w f) s))
      ∧ (openRefusal s c t.stream x b = none → journalOpen s = true → readsStall s (openReads s b) = false →
          openAhead (noteIssue w s) w = false →
          priceNow s 120 + ((openBill s b).map (fun k => unitPrice s k.1 * k.2)).sum ≤ s.purse.balance →
          Answers (exec (.sopen w f) s) (fun u => (stream s t.stream).st = .free
            ∧ EntryMade u (fun e => e.etype = 6 ∧ e.stream = t.stream)
            ∧ thread u w = { t with wait := .busy }
            ∧ (∀ v, Who.key v ≠ Who.key w → thread u v = thread s v) ∧ ScratchKept s u
            ∧ (clean → (stream u t.stream).st = (if (openAdv s b).any (fun a => a.cfg.over) then .dead else .opened)
            ∧ (stream u t.stream).tenant = b.tenant ∧ (stream u t.stream).intake = b.intake
            ∧ (stream u t.stream).outPtr = b.outAddr ∧ (stream u t.stream).outLog2 = b.outLog2
            ∧ (stream u t.stream).seed = b.seed ∧ (stream u t.stream).notary.gen = b.gen
            ∧ (stream u t.stream).promptBytes = 0
            ∧ (∀ n, n ≠ t.stream → stream u n = stream s n)))))

/-- On every state in which the thread may issue SCLOSE with its coins there and the journal is open, of a stream
that is OPEN, HELD or DEAD at home at its CLERK: the stream is CLOSING, a CLOSE entry of PHASE 0 is made with reason
3 for a DEAD stream and 0 otherwise, the carries of ASSAY are empty where no tile of the stream has still to pass ASSAY
and those of SORTER where none has still to pass SORTER, and otherwise as they were, the thread waits for the entry, and
every other stream, every other thread and all of scratch are unchanged before what follows by itself. A FREE stream
gives ST_BAD_OP, a CLOSING one ST_DEAD, a stream number that is not built ST_BOUNDS and one of another CLERK
ST_BAD_OP, and nothing else changes. The reason of a DEAD stream, and that the carries go at once only where no tile
continues them, are the choices of the model (log entry 120). (R11, R29, R31, R47, R165, R187, R366) -/
def Obligations.ClosingAStream : Prop :=
  ∀ (s : State) (w : Who) (f : Fields),
    let t := issuedThread s w
    let n := t.stream
    let mine := n < s.build.size.contexts ∧ n / 512 = w.clerk.toNat
    Issues s w f 0x32 50 → journalOpen s = true →
      (mine → ((stream s n).st = .opened ∨ (stream s n).st = .held ∨ (stream s n).st = .dead) →
        EndsIn (exec (.sclose w f) s) (fun u =>
          (stream u n).st = .closing
          ∧ (stream u n).assay = (if comesTo s 2 n then (stream s n).assay else AssayCtx.empty)
          ∧ (stream u n).sorter = (if comesTo s 3 n || (stream s n).building.any (fun b => decide (b.1 = 2)) then
              (stream s n).sorter else SorterCtx.empty)
          ∧ EntryMade u (fun e => e.etype = 7 ∧ e.stream = n
              ∧ e.param = (if (stream s n).st = .dead then 6 else 0))
          ∧ (∀ m, m ≠ n → stream u m = stream s m)
          ∧ thread u w = { t with wait := .busy }
          ∧ (∀ v, Who.key v ≠ Who.key w → thread u v = thread s v) ∧ ScratchKept s u))
      ∧ (mine → (stream s n).st = .free → Writes w f 50 s (resultWord 0x70 0 0) (exec (.sclose w f) s))
      ∧ (mine → (stream s n).st = .closing → Writes w f 50 s (resultWord 0x11 0 0) (exec (.sclose w f) s))
      ∧ (s.build.size.contexts ≤ n → Writes w f 50 s (resultWord 0x21 0 0) (exec (.sclose w f) s))
      ∧ (n < s.build.size.contexts → n / 512 ≠ w.clerk.toNat →
          Writes w f 50 s (resultWord 0x70 0 0) (exec (.sclose w f) s))

/-- On every state in which the thread may issue SFEED with its coins there, of an OPEN or HELD stream of its CLERK,
for a length up to 65,535, when TELLER has room, no earlier FLOW or SFEED of the stream waits and fewer than 256
tickets of the CLERK are outstanding: a ticket number that is not outstanding is taken, TICKET holds it and g[d] a
result word with it; a chunk of that ticket, stream, length and address, with TEXT_END by imm[0] or length 0 and EOS
by length 0, stands last in the input queue of TELLER; nothing else changes but the issue count. A length above
65,535 gives ST_LEN. (R80, R81, R135) -/
def Obligations.FeedingText : Prop :=
  ∀ (s : State) (w : Who) (f : Fields),
    let t := issuedThread s w
    let c := w.clerk.toNat
    let n := t.stream
    let len := (t.reg f.b).toNat
    Issues s w f 0x31 20 → streamsUnknown s = false → n < s.build.size.contexts → n / 512 = c →
    ((stream s n).st = .opened ∨ (stream s n).st = .held) →
      (65535 < len → Writes w f 20 s (resultWord 0x20 0 0) (exec (.sfeed w f) s))
      ∧ (len ≤ 65535 → hopRoom s 1 = true → sendAhead (noteIssue w s) w = false → outstanding s c < 256 →
        Tab.get 0 s.ticketNext c < 0xFFF →
        Answers (exec (.sfeed w f) s) (fun u => ∃ k e, k < 0xFFF ∧ isOutstanding s c k = false
          ∧ thread u w = { t.setG f.d (resultWord 0 0 k) with pc := t.pc + 1, ticket := k }
          ∧ (∃ x, ticket? u c k = some x ∧ x.done = false ∧ x.old = false ∧ x.stream = n)
          ∧ u.teller.queue = s.teller.queue ++ [e] ∧ e.source = 9 ∧ e.stream = n ∧ e.len = len ∧ e.tag = k ∧ e.clerk = c
          ∧ e.textEnd = (decide (f.imm.toNat % 2 = 1) || decide (len = 0)) ∧ e.eos = decide (len = 0)
          ∧ (len ≠ 0 → e.place = .stack (t.reg f.a).toNat)
          ∧ (∀ m, m ≠ n → stream u m = stream s m)
          ∧ (∀ v, Who.key v ≠ Who.key w → thread u v = thread s v) ∧ ScratchKept s u))

/-- On every state in which the thread may issue FLOW with its coins there, when no check of the flow block refuses
it, its first station has room, no earlier FLOW or SFEED of the stream waits and fewer than 256 tickets of the CLERK
are outstanding: a ticket that is not outstanding is taken, TICKET holds it and g[d] a result word with it. A route
that begins at TELLER puts a chunk of the block last in its input queue. On another route, with the payload in
scratch and no earlier tile of the stream still being read, the tile stands last in the queue of the first station
with the kind, stream, ledger number, settlement position, route and TEXT_END of the block, LAST, which is the choice
of the model (log entry 175), and the payload and its check; with a payload in stack memory a read of its lines is
under way for that tile. Every other thread and all of scratch are unchanged. When a check refuses it, the status of
the first such check is the result and nothing else changes. The checks are, in this order: the stream is built, is of
this CLERK and is neither FREE nor DEAD nor CLOSING; the block is 64-byte aligned in scratch; of a HELD stream the route
begins at TELLER or the item is the one to be re-issued; the fields and the COUNT of the kind are right; the route is
legal for the kind; REPLAY is 0; LEDGER is not 0 unless the route begins at TELLER; a route to the CLERK sink has an
aligned RESULT block in scratch and another RESULT 0; the payload lies in scratch or in a span of stack memory that the
stream may name. ST_BOUNDS for the block (log entry 67), ST_BAD_OP for RESULT and ST_BOUNDS for a payload in scratch
(log entry 188) are the choices of the model. (R11, R29, R31, R32, R35, R39, R40, R45, R75, R76, R77, R80) -/
def Obligations.SendingATile : Prop :=
  ∀ (s : State) (w : Who) (f : Fields),
    let t := issuedThread s w
    let c := w.clerk.toNat
    let n := t.stream
    let x := (t.reg f.a).toNat
    let b := readFlow (scratchRead s c x 64)
    let first := routeHop b.route 0
    let y := stream s n
    let stack := first ≠ 1 ∧ payloadLen b ≠ 0 ∧ inRegion s 0 b.addr (payloadLen b) = false
      ∧ inRegion s 1 b.addr (payloadLen b) = false ∧ inOutput y b.addr (payloadLen b) = false
    flowRefusal s w x b = firstRefusal
      [(decide (s.build.size.contexts ≤ n), 0x21), (decide (n / 512 ≠ c), 0x70), (decide (y.st = .free), 0x70),
       (decide (y.st = .dead ∨ y.st = .closing), 0x11), (decide (x % 64 ≠ 0 ∨ 0x40000 < x + 64), 0x21),
       (decide (y.st = .held ∧ first ≠ 1 ∧ ¬ (y.heldAt ≠ 1 ∧ t.ledger ≠ 0 ∧ y.heldItem = t.ledger)), 0x70),
       (b.reserved || decide (b.kind = 3) || !countFits b, 0x70), (!routeLegal b.route (kindOf b.kind), 0x70),
       (b.replay, 0x70), (decide (first ≠ 1 ∧ t.ledger = 0), 0x70),
       (decide (routeSink b.route = 12 ∧ (b.result % 64 ≠ 0 ∨ 0x40000 < b.result + 4096)), 0x21),
       (decide (routeSink b.route ≠ 12 ∧ b.result ≠ 0), 0x70),
       (decide (b.stack = false ∧ 0x40000 < b.addr + payloadLen b), 0x21), (decide (b.stack = true ∧ stack), 0x21)]
    ∧ (Issues s w f 0x40 10 → streamsUnknown s = false →
      (∀ st, flowRefusal (noteIssue w s) w x b = some st → Writes w f 10 s (resultWord st 0 0) (exec (.flow w f) s))
      ∧ (flowRefusal (noteIssue w s) w x b = none → hopRoom s first = true → sendAhead (noteIssue w s) w = false →
        outstanding s c < 256 → Tab.get 0 s.ticketNext c < 0xFFF →
        Answers (exec (.flow w f) s) (fun u => ∃ k, k < 0xFFF ∧ isOutstanding s c k = false
          ∧ thread u w = { t.setG f.d (resultWord 0 0 k) with pc := t.pc + 1, ticket := k }
          ∧ (∃ z, ticket? u c k = some z ∧ z.done = false ∧ z.old = false ∧ z.stream = n
              ∧ z.result = (if routeSink b.route = 12 then b.result + 1 else 0))
          ∧ (∀ v, Who.key v ≠ Who.key w → thread u v = thread s v) ∧ ScratchKept s u
          ∧ (first = 1 → ∃ e, u.teller.queue = s.teller.queue ++ [e] ∧ e.stream = n ∧ e.len = payloadLen b
              ∧ e.tag = k ∧ e.route = some b.route ∧ e.settle = b.settle)
          ∧ (first ≠ 1 → (b.stack = false ∨ payloadLen b = 0) → flowUnread s n = false → ∃ z, queueAt u first = queueAt s first ++ [z]
              ∧ z.kind = kindOf b.kind ∧ z.stream = n ∧ z.ledger = t.ledger ∧ z.settle = b.settle ∧ z.ticket = k
              ∧ z.origin = c ∧ z.route = b.route ∧ z.last = true ∧ z.textEnd = (b.textEnd || b.eos)
              ∧ z.payload = scratchRead s c b.addr (payloadLen b) ∧ z.check = crc32c z.payload)
          ∧ (first ≠ 1 → b.stack = true → payloadLen b ≠ 0 → u.hops = s.hops
              ∧ ∃ a ∈ u.accesses, a.ident = s.nextAccess ∧ a.kind = .read
                ∧ ∃ z o, a.job = .flowPayload z o (payloadLen b) ∧ z.stream = n ∧ z.ticket = k ∧ z.ledger = t.ledger))))

/-- On every state in which the thread may issue EMIT with its coins there and holds an item of an OPEN stream, for
a length from 1 to 4,096 in scratch and a sink of 9 to 11, when the LEDGER hop has room and fewer than 256 tickets
of the CLERK are outstanding: a ticket is taken, TICKET holds it and g[d] a result word with it; a text tile of the
item with those bytes, routed to LEDGER and that sink, stands last in the queue of the LEDGER; every other thread,
every stream and all of scratch are unchanged. LEDGER 0 and another sink give ST_BAD_OP, another length ST_LEN. A stream
number that is not built gives ST_BOUNDS before these checks, which is the choice of the model (log entry 177). (R11,
R78, R80, R81) -/
def Obligations.EmittingText : Prop :=
  ∀ (s : State) (w : Who) (f : Fields),
    let t := issuedThread s w
    let c := w.clerk.toNat
    let n := t.stream
    let x := (t.reg f.a).toNat
    let len := (t.reg f.b).toNat
    let sink := f.imm.toNat % 16
    Issues s w f 0x70 10 →
      (s.build.size.contexts ≤ n → Writes w f 10 s (resultWord 0x21 0 0) (exec (.emit w f) s))
      ∧ (n < s.build.size.contexts →
      (t.ledger = 0 → Writes w f 10 s (resultWord 0x70 0 0) (exec (.emit w f) s))
      ∧ (t.ledger ≠ 0 → (len = 0 ∨ 4096 < len) → Writes w f 10 s (resultWord 0x20 0 0) (exec (.emit w f) s))
      ∧ (t.ledger ≠ 0 → 1 ≤ len → len ≤ 4096 → (sink < 9 ∨ 11 < sink) →
          Writes w f 10 s (resultWord 0x70 0 0) (exec (.emit w f) s))
      ∧ (t.ledger ≠ 0 → 1 ≤ len → len ≤ 4096 → 9 ≤ sink → sink ≤ 11 → streamsUnknown s = false →
          (stream s n).st = .opened → x + len ≤ 0x40000 → hopRoom s 8 = true → outstanding s c < 256 →
          Tab.get 0 s.ticketNext c < 0xFFF →
          Answers (exec (.emit w f) s) (fun u => ∃ k z, k < 0xFFF ∧ isOutstanding s c k = false
            ∧ thread u w = { t.setG f.d (resultWord 0 0 k) with pc := t.pc + 1, ticket := k }
            ∧ queueAt u 8 = queueAt s 8 ++ [z] ∧ z.kind = .text ∧ z.stream = n ∧ z.ledger = t.ledger
            ∧ z.payload = scratchRead s c x len ∧ z.check = crc32c z.payload ∧ z.ticket = k
            ∧ z.route = 8 + 16 * sink
            ∧ u.streams = s.streams
            ∧ (∀ v, Who.key v ≠ Who.key w → thread u v = thread s v) ∧ ScratchKept s u)))

/-- On every state in which the thread may issue it with its coins there and the journal is open: POST of an aligned
block in scratch with a right check, of an OPEN stream of its CLERK and no replayed item of that entry, makes an
ACCEPT entry of the stream with the settlement position of the block and the block as its record; PAY of a thread
with an item makes a PAID entry of its stream with the greater of the mark that stood and the mark of that item and
g[a]; SETTLE of an item not yet complete makes its COMPLETE entry before what follows by itself, and of one that is
complete only lets go of it. The thread waits for the entry, every other thread and all of scratch are unchanged. A
wrong check, or LEDGER 0 for PAY and SETTLE, gives ST_BAD_OP; a block of POST elsewhere faults the thread with
ST_BOUNDS. The status of a COMPLETE entry is that of SETTLE, but ST_DEAD of an item that is too deep and ST_POISON of a
poisoned one that would end without an error (R392). That a mark takes the low 24 bits of g[a] and never moves back, the
place of the position in the ACCEPT entry, and the two statuses that stand before SETTLE's own are the choices of the
model (log entries 72, 14 and 166). (R85, R86, R95, R369, R370, R392) -/
def Obligations.PostPayAndSettle : Prop :=
  ∀ (s : State) (w : Who) (f : Fields),
    let t := issuedThread s w
    let c := w.clerk.toNat
    let x := (t.reg f.a).toNat
    let bs := scratchRead s c x 64
    let n := entryStream bs
    let y := stream s t.stream
    let mark := if y.paidL < t.ledger ∨ (y.paidL = t.ledger ∧ y.paidS < x % 2 ^ 24) then (t.ledger, x % 2 ^ 24)
      else (y.paidL, y.paidS)
    journalOpen s = true →
      (Issues s w f 0x50 250 → x % 64 = 0 → x + 64 ≤ 0x40000 →
        (leAt bs 60 4 ≠ crc32c (bs.take 60) → Writes w f 250 s (resultWord 0x70 0 0) (exec (.post w f) s))
        ∧ (leAt bs 60 4 = crc32c (bs.take 60) → n < s.build.size.contexts → n / 512 = c →
          replayedItem s bs = none → (stream s n).st = .opened →
          Answers (exec (.post w f) s) (fun u => thread u w = { t with wait := .busy } ∧ OnlyJournal w s u
            ∧ EntryMade u (fun e => e.etype = 1 ∧ e.stream = n ∧ e.a = leAt bs 8 8 % 2 ^ 44))))
      ∧ (Issues s w f 0x50 250 → (x % 64 ≠ 0 ∨ 0x40000 < x + 64) →
          ∃ u, Bought w 250 s u ∧ exec (.post w f) s = .next (faultThread w 0x21 u))
      ∧ (Issues s w f 0x51 250 → t.ledger = 0 → Writes w f 250 s (resultWord 0x70 0 0) (exec (.pay w f) s))
      ∧ (Issues s w f 0x51 250 → t.ledger ≠ 0 → Answers (exec (.pay w f) s) (fun u =>
          thread u w = { t with wait := .busy } ∧ OnlyJournal w s { u with streams := s.streams }
          ∧ stream u t.stream = { y with paidL := mark.1, paidS := mark.2 }
          ∧ (∀ m, m ≠ t.stream → stream u m = stream s m)
          ∧ EntryMade u (fun e => e.etype = 3 ∧ e.stream = t.stream ∧ e.ledger = mark.1 ∧ e.a = mark.2)))
      ∧ (Issues s w f 0x52 250 → t.ledger = 0 → Writes w f 250 s (resultWord 0x70 0 0) (exec (.settle w f) s))
      ∧ (∀ i, Issues s w f 0x52 250 → t.ledger ≠ 0 → item? s t.ledger = some i → i.complete = false →
          i.completing = false → EndsIn (exec (.settle w f) s) (fun u =>
            thread u w = { t with wait := .busy } ∧ OnlyJournal w s u
            ∧ EntryMade u (fun e => e.etype = 4 ∧ e.stream = i.stream ∧ e.ledger = t.ledger
                ∧ e.status = (if i.deep then 0x11 else if i.poison ∧ (x % 256 = 0 ∨ x % 256 = 8) then 0x50 else x % 256))))
      ∧ (∀ i, Issues s w f 0x52 250 → t.ledger ≠ 0 → item? s t.ledger = some i →
          (i.complete = true ∨ i.completing = true) → Answers (exec (.settle w f) s) (fun u =>
            thread u w = { t.setG f.d (resultWord 0 0 0) with pc := t.pc + 1, ledger := 0 }
            ∧ OnlyJournal w s u ∧ u.accesses = s.accesses))

/-- On every state in which the thread may issue it with its coins and those of its advances there, of an OPEN or
HELD stream with a grammar which NOTARY does not hold and whose lookups no bank stalls: MASK writes a result word
with the mask index and the allowance left, and changes nothing else; NEXT with an item, over a token of g[a] in the
mask in force, leaves the configuration that the advance over that token gives, writes a result word with the status
of the advance and the new mask index, and over a token not in force writes ST_BAD_OP; DRAFT of c tokens (1 to 16)
from scratch g[a], with imm[0] clear, writes the L position words of the tokens that the scan takes, then words of
all ones, at g[a] + 64, and a result word with L. Every other thread is unchanged. The new configuration, the mask
index and that every other stream is unchanged are said where no lookup of the advance meets a memory error, which a
free value decides (log entry 159). (R248, R250, R266, R267) -/
def Obligations.GrammarInstructions : Prop :=
  ∀ (s : State) (w : Who) (f : Fields) (im : TokImage),
    let t := issuedThread s w
    let c := w.clerk.toNat
    let n := t.stream
    let y := (stream s n).notary
    let k := (t.reg f.a).toNat % 2 ^ 20
    let a := advance s im y.allow y.cfg k
    let x := (t.reg f.a).toNat
    let m := (t.reg f.b).toNat
    let ts := draftTokens s c x m
    let ws := (scanDraft s n ts).1
    let clean (ks : List Nat) : Prop := (advanceReads s n ks).banks = [] ∨ Config.freeValue s.free % 4 ∉ [1, 2]
    let coins (price : Nat) (bill : List (Nat × Nat)) : Prop :=
      priceNow s price + (bill.map (fun b => unitPrice s b.1 * b.2)).sum ≤ s.purse.balance
    streamsUnknown s = false → n < s.build.size.contexts → y.gen = true →
    ((stream s n).st = .opened ∨ (stream s n).st = .held) → imageOf s (stream s n).tenant = some im →
    notaryBusy s n = false →
      (Issues s w f 0x60 5 → advanceWaits s n t.ledger = false →
        Writes w f 5 s (resultWord 0 0 (y.cfg.fields.maskIndex % 2 ^ 20 + y.cfg.fields.remain % 2 ^ 16 * 2 ^ 20))
          (exec (.mask w f) s))
      ∧ (Issues s w f 0x61 24 → t.ledger ≠ 0 → advanceWaits s n t.ledger = false → advanceStalls s n [k] = false →
          inForce s n k = true → coins 24 (extraBill s n [k]) → Answers (exec (.next w f) s) (fun u =>
            (∃ v, thread u w = { t.setG f.d (resultWord a.status 0 v) with pc := t.pc + 1 }
              ∧ (clean [k] → v = a.cfg.fields.maskIndex % 2 ^ 20))
            ∧ (∀ v, Who.key v ≠ Who.key w → thread u v = thread s v) ∧ ScratchKept s u
            ∧ (clean [k] → (stream u n).notary.cfg = a.cfg ∧ ∀ j, j ≠ n → stream u j = stream s j)))
      ∧ (Issues s w f 0x61 24 → t.ledger ≠ 0 → advanceWaits s n t.ledger = false → advanceStalls s n [k] = false →
          inForce s n k = false → Writes w f 24 s (resultWord 0x70 0 0) (exec (.next w f) s))
      ∧ (Issues s w f 0x62 (24 * m) → 1 ≤ m → m ≤ 16 → f.imm.toNat % 2 = 0 → x + 64 + 4 * m ≤ 0x40000 →
          draftUsed s n + m ≤ 16 → advanceStalls s n (ts.take ws.length) = false →
          coins (24 * m) (extraBill s n (ts.take ws.length)) → storesIssued s = true →
          Answers (exec (.draft w f) s) (fun u =>
            thread u w = { t.setG f.d (resultWord 0 0 ws.length) with pc := t.pc + 1 }
            ∧ ws.length ≤ m
            ∧ words32 (scratchRead u c (x + 64) (4 * m)) = ws ++ List.replicate (m - ws.length) 0xFFFFFFFF
            ∧ (∀ v, Who.key v ≠ Who.key w → thread u v = thread s v)
            ∧ (clean (ts.take ws.length) → (stream u n).notary.cfg = y.cfg ∧ ∀ j, j ≠ n → stream u j = stream s j)
            ∧ ∀ d z, z < 0x40000 → (d ≠ c ∨ z < x + 64 ∨ x + 64 + 4 * m ≤ z) → scratchByte u d z = scratchByte s d z))

/-- While the register window takes writes. CLERK_START: every thread of a named CLERK that is ready and runs no
thread stands RUNNING at CLK_ENTRY with the start values (g1 its number 16 c + t, the other g and p 0, STREAM 512 c,
LEDGER 0, TICKET 0xFFF, an empty return stack); the threads of the other CLERKS are unchanged. CLERK_HALT: every
thread of a named CLERK that runs and waits for no access or entry stands HALTED; one that waits for such stops
after it; the threads of the other CLERKS are unchanged. THREAD_RESTART of a HALTED or FAULTED thread of a ready
CLERK gives it the start values, and every other thread is unchanged. DEBUG_RESUME and DEBUG_STEP, with debug scope
bit 0 open and of a thread in DEBUG of a ready CLERK, set it RUNNING, STEP for one instruction, and change nothing
else but the read data of the register port, which is 0 after a write. (R64, R95, R96, R417, R465) -/
def Obligations.ClerkControl : Prop :=
  ∀ s : State, clkUp s 20 = true →
    (∀ cs : BitVec 8, Answers (exec (.clerkStart cs) s) (fun u => ∀ w : Who,
        (cs.getLsbD w.clerk.toNat = true → clerkReady s w.clerk.toNat = true → clerkRunning s w.clerk.toNat = false →
          let t := thread u w
          t.st = .running ∧ t.pc = reg s R.CLK_ENTRY % 2 ^ 13 ∧ t.reg 1 = BitVec.ofNat 64 (16 * w.clerk.toNat + w.thread.toNat)
            ∧ (∀ r, r ≠ 1 → t.reg r = 0) ∧ (∀ n, 1 ≤ n → n < 8 → t.pred n = false) ∧ t.stream = 512 * w.clerk.toNat
            ∧ t.ledger = 0 ∧ t.ticket = 0xFFF ∧ t.stack = [] ∧ t.wait = .ready)
        ∧ (cs.getLsbD w.clerk.toNat = false → thread u w = thread s w)))
    ∧ (∀ cs : BitVec 8, Answers (exec (.clerkHalt cs) s) (fun u => ∀ w : Who,
        (cs.getLsbD w.clerk.toNat = true → (thread s w).st = .running →
          ((thread s w).wait ≠ .busy → (thread u w).st = .halted ∧ (thread u w).pc = (thread s w).pc
            ∧ (thread u w).g = (thread s w).g ∧ (thread u w).wait = .ready)
          ∧ ((thread s w).wait = .busy → thread u w = { thread s w with stopAfter := true }))
        ∧ (cs.getLsbD w.clerk.toNat = false → thread u w = thread s w)))
    ∧ (∀ w : Who, clerkReady s w.clerk.toNat = true → ((thread s w).st = .halted ∨ (thread s w).st = .faulted) →
        Answers (exec (.threadRestart w) s) (fun u => thread u w = Thread.start w (reg s R.CLK_ENTRY % 2 ^ 13)
          ∧ ∀ v, Who.key v ≠ Who.key w → thread u v = thread s v))
    ∧ (∀ w : Who, clerkReady s w.clerk.toNat = true → s.kcw.scopes % 2 = 1 → (thread s w).st = .debug →
        exec (.debugResume w) s
          = .next (setThread w { thread s w with st := .running, stepping := false } { s with regOut := 0 })
        ∧ exec (.debugStep w) s
          = .next (setThread w { thread s w with st := .running, stepping := true } { s with regOut := 0 }))

/-- For an outstanding ticket of a CLERK of which nothing is on its way any more and before which no earlier ticket
of its stream is outstanding, when no FLOW, SFEED or EMIT of the CLERK waits: before what follows by itself the
ticket is done with its status, flags and tiles as they stood, and every thread of the CLERK that runs and waits in
WAITT for it has its result word in g[d] and goes on at the next index. A ticket not so stays outstanding, and
nothing changes. (R42, R82, R84) -/
def Obligations.TicketsComplete : Prop :=
  ∀ (s : State) (c : BitVec 3) (k : BitVec 12) (x : Ticket),
    ticket? s c.toNat k.toNat = some x →
    (ticketEnds s c.toNat k.toNat x = true →
      (∀ (w : Who) (i : Instr), w.clerk = c → (thread s w).wait = .retry i → needsTicket i = true → ∃ f, i = .waitt w f) →
      EndsIn (exec (.ticketComplete c k) s) (fun u =>
        ticket? u c.toNat k.toNat = some { x with done := true }
        ∧ ∀ (w : Who) (f : Fields), w.clerk = c → clerkReady s c.toNat = true → (thread s w).st = .running →
            (thread s w).wait = .retry (.waitt w f) → ((thread s w).reg f.a).toNat / 2 ^ 16 % 4096 = k.toNat →
            k ≠ 0xFFF → x.old = false → (thread s w).stepping = false → (thread s w).stopAfter = false →
            thread u w = { (thread s w).setG f.d (resultWord x.status x.flags x.tiles) with
              pc := (thread s w).pc + 1, wait := .ready }))
    ∧ (ticketEnds s c.toNat k.toNat x = false → exec (.ticketComplete c k) s = .next s)

/-- For the purchase PURSE serves next, whose first unit the balance covers with REF running: of a bill of one unit,
the price leaves the balance, the purchase leaves the queue, and it takes effect: the instruction of a thread that
waits for its coins is ready again and has its effect, or the lines of an access may leave. Of a longer bill, the
price of one unit leaves the balance and the rest of the purchase goes behind the others that wait. While the
balance does not cover the unit, and with no purchase waiting, nothing changes. That the rest of a longer bill goes behind
the other purchases that wait is the choice of the model (log entry 145). (R89, R426, R427, R432) -/
def Obligations.PurchaseThatIsServed : Prop :=
  ∀ s : State,
    (∀ (p : Purchase) (b n : Nat), nextPurchase s = some p → p.bill = [(b, n)] → 1 ≤ n → 0 < b → clkUp s 22 = true →
      unitPrice s b ≤ s.purse.balance →
      let t := leavePurse p (spend (unitPrice s b) s)
      t.purse.balance + unitPrice s b = s.purse.balance ∧ t.purse.queue = s.purse.queue.erase p
      ∧ (n = 1 → exec .purchaseServed s = .next (paidEffect p t))
      ∧ (2 ≤ n → Answers (exec .purchaseServed s) (fun u =>
          u.purse.balance + unitPrice s b = s.purse.balance
          ∧ u.purse.queue = s.purse.queue.erase p ++ [{ p with bill := [(b, n - 1)] }]
          ∧ RegsKept [R.PUR_SPENT_LO, R.PUR_SPENT_HI] s u ∧ u.threads = s.threads ∧ u.accesses = s.accesses))
      ∧ (∀ (i : Instr) (op : Nat) (w : Who) (f : Fields) (o : Op), n = 1 → p.what = .command i →
          lambiopParts i = some (op, w, f) → opOf s i = some o → (thread s w).wait = .coins →
          EndsIn (exec .purchaseServed s) (fun u => ∃ v, u = takeEffect w f o v
            ∧ thread v w = { thread s w with wait := .ready } ∧ v.purse.balance + unitPrice s b = s.purse.balance
            ∧ { v with threads := s.threads, purse := s.purse, regs := s.regs } = s)))
    ∧ (∀ p b n rest, nextPurchase s = some p → p.bill = (b, n) :: rest → s.purse.balance < unitPrice s b →
        exec .purchaseServed s = .next s)
    ∧ (s.purse.queue = [] → exec .purchaseServed s = .next s)

/-- PURSE_TICK with PD_BASE and REF up and valid thermal samples: a new SCALE takes effect, the thermal step follows
the hottest sample, the reserve L is PUR_LEAK_MIN or, with LEAK_EN set, at least the estimate E; the grant is G =
max(floor, A (8 - step) / 8 - L) and the balance the lesser of the cap max(BAL_CAP G, 64 ceu) and the old balance
plus G; the tick count is one more and the cents bought since the tick are 0. PUR_ALLOW_WRITE sets the allowance
where its low 16 bits lie between the floor and the ceiling, and else leaves it and sets CFG_ERR, with read data 0.
PURSE_TELEMETRY_PACKET, once PERIOD ticks have passed, writes its three entries behind those of queue 2 when they
fit with CUT 0, and clears the counts of the period. (R419, R422, R424, R425, R430, R437) -/
def Obligations.PurseTickAndAllowance : Prop :=
  ∀ s : State,
    (∀ (therm : List (BitVec 9)) (itel : BitVec 16) (valid : Bool), pdUp s 0 = true → clkUp s 22 = true → therm ≠ [] →
      let step := thermalStep s.purse.step (hottest therm)
      let least := 100 * reg s R.PUR_LEAK_MIN
      let est := if valid then nextEstimate s.purse.est s.purse.sinceTick itel.toNat else s.purse.est
      let leak := if reg s R.PUR_CTRL % 2 = 1 then max least est else least
      let g := max (100 * s.build.size.floor) (100 * (reg s R.PUR_ALLOW * (8 - step) / 8) - leak)
      let cap := max (reg s R.PUR_CTRL / 4 % 8 * g) 6400
      Answers (exec (.purseTick therm itel valid) s) (fun u =>
        u.purse.step = step ∧ u.purse.grant = g ∧ u.purse.balance = min cap (s.purse.balance + g)
        ∧ u.purse.scale = s.purse.nextScale.getD s.purse.scale ∧ u.purse.nextScale = none
        ∧ u.purse.ticks = s.purse.ticks + 1 ∧ u.purse.sinceTick = 0 ∧ u.purse.queue = s.purse.queue
        ∧ u.purse.reserve = leak ∧ u.threads = s.threads ∧ u.streams = s.streams ∧ u.ledger = s.ledger))
    ∧ (∀ v : Word32, clkUp s 20 = true →
        let a := v.toNat % 65536
        let ok := s.build.size.floor ≤ a ∧ a ≤ reg s R.PUR_CEIL
        let s0 : State := { s with regOut := 0 }
        (ok → exec (.purAllowWrite v) s = .next (setReg R.PUR_ALLOW a s0))
        ∧ (¬ ok → exec (.purAllowWrite v) s = .next (setReg R.PUR_STAT (reg s R.PUR_STAT ||| 1) s0)))
    ∧ (pdUp s 0 = true → clkUp s 22 = true → reg s R.PUR_TEL % 65536 ≠ 0 →
        reg s R.PUR_TEL % 65536 ≤ s.purse.periodTicks → dbgUp s = true → s.queue2.entries.length + 3 ≤ 4096 →
        reg s (qcfgKey 2) / 2 % 64 = 0 →
        Answers (exec .purseTelemetryPacket s) (fun u =>
          u.queue2.entries = s.queue2.entries ++ [(true, (telemetryPacket s)[0]!), (false, (telemetryPacket s)[1]!),
            (false, (telemetryPacket s)[2]!)]
          ∧ u.purse = { s.purse with period := 0, periodTicks := 0, periodWait := 0 }
          ∧ { u with queue2 := s.queue2, purse := s.purse } = s))

/-- BEAT_POSITION_TAKEN with the BEAT and CORE domains up toggles the acknowledgement. While the port is frozen, and
for the current position, nothing else of it changes; a higher position becomes current and taken, every WAITB of a
running thread that it reaches ends with ST_OK, and DAY_NEXT of every CLERK that opens pages passes the steps it
reaches; a lower one freezes the port with CAUSE 1, is kept in BEAT_BAD, and every waiting WAITB ends with
ST_BEAT_BACK. BEAT_FREEZE freezes the port with CAUSE 2 and BEAT_ARM of a frozen port makes the position in
BEAT_REARM current and thaws it. All this is before what follows by itself. BEAT_CFG_WRITE and DAYBOOK_CONFIG_WRITE
of a value allowed while the port is frozen store it in the writable fields; otherwise they leave the register and
set CFG_ERR. Writes leave read data 0 (R465). (R98, R100, R101, R102, R103, R104, R108, R120, R123) -/
def Obligations.BeatPort : Prop :=
  ∀ s : State,
    let s0 : State := { s with regOut := 0 }
    let waits (w : Who) (f : Fields) : Prop := clerkReady s w.clerk.toNat = true ∧ (thread s w).st = .running
      ∧ (thread s w).wait = .retry (.waitb w f) ∧ (thread s w).stepping = false ∧ (thread s w).stopAfter = false
    let ends (u : State) (w : Who) (f : Fields) (st : Nat) : Prop :=
      thread u w = { (thread s w).setG f.d (resultWord st 0 0) with pc := (thread s w).pc + 1, wait := .ready }
    let at_ (w : Who) (f : Fields) : Nat := ((thread s w).reg f.a).toNat
    (∀ p : BitVec 44, clkUp s 21 = true → clkUp s 1 = true →
      ((s.beat.frozen = true ∨ p.toNat = s.beat.pos) →
        exec (.beatPositionTaken p) s = .next (sweep { s with beat := { s.beat with ack := !s.beat.ack } }))
      ∧ (s.beat.frozen = false → s.beat.pos < p.toNat → EndsIn (exec (.beatPositionTaken p) s) (fun u =>
          u.beat = { s.beat with ack := !s.beat.ack, pos := p.toNat, taken := (p.toNat, true) :: s.beat.taken }
          ∧ (∀ w f, waits w f → at_ w f ≤ p.toNat → ends u w f 0)
          ∧ (∀ w f, waits w f → p.toNat < at_ w f → at_ w f < 2 ^ 44 → thread u w = thread s w)
          ∧ ∀ c < 8, dayNext u c = (if opensPages s c then max (dayNext s c) (stepsReached s p.toNat) else dayNext s c)))
      ∧ (s.beat.frozen = false → p.toNat < s.beat.pos → EndsIn (exec (.beatPositionTaken p) s) (fun u =>
          u.beat = { s.beat with ack := !s.beat.ack, frozen := true, cause := 1 }
          ∧ reg u R.BEAT_BAD_LO = p.toNat % 2 ^ 32 ∧ reg u R.BEAT_BAD_HI = p.toNat / 2 ^ 32
          ∧ ∀ w f, waits w f → at_ w f < 2 ^ 44 → ends u w f 0x12)))
    ∧ (clkUp s 20 = true → clkUp s 21 = true → clkUp s 1 = true →
        EndsIn (exec .beatFreeze s) (fun u => u.beat = { s.beat with frozen := true, cause := 2 }
          ∧ ∀ w f, waits w f → at_ w f < 2 ^ 44 → ends u w f 0x12)
        ∧ (s.beat.frozen = true → EndsIn (exec .beatArm s) (fun u =>
            u.beat.pos = reg s R.BEAT_REARM_LO + 2 ^ 32 * reg s R.BEAT_REARM_HI ∧ u.beat.frozen = false
            ∧ u.beat.ack = s.beat.ack))
        ∧ (s.beat.frozen = false → exec .beatArm s = .next s0))
    ∧ (clkUp s 20 = true → ∀ v : Word32,
        (s.beat.frozen = true → v.toNat % 16 < v.toNat / 16 % 16 →
          exec (.beatCfgWrite v) s = .next (storeReg R.BEAT_CFG v.toNat s0))
        ∧ ((s.beat.frozen = false ∨ v.toNat / 16 % 16 ≤ v.toNat % 16) →
            exec (.beatCfgWrite v) s = .next (setReg R.BEAT_STAT (reg s R.BEAT_STAT ||| 8) s0))
        ∧ ∀ off : BitVec 16, off.toNat = R.DAY_BASE_LO ∨ off.toNat = R.DAY_BASE_HI ∨ off.toNat = R.DAY_CFG →
          (s.beat.frozen = true → (off.toNat = R.DAY_CFG → v.toNat / 256 % 16 ≤ 12) →
            Answers (exec (.daybookConfigWrite off v) s) (fun u =>
              reg u off.toNat = reg (storeReg off.toNat v.toNat s) off.toNat ∧ RegsKept [off.toNat] s u
              ∧ u.day = { s.day with placed := s.day.placed || decide (off.toNat ≠ R.DAY_CFG) }
              ∧ { u with regs := s.regs, day := s.day } = s0))
          ∧ ((s.beat.frozen = false ∨ (off.toNat = R.DAY_CFG ∧ 12 < v.toNat / 256 % 16)) →
              exec (.daybookConfigWrite off v) s = .next (setReg R.DAY_STAT (reg s R.DAY_STAT ||| 1) s0)))

/-- LANE_CHUNK on a lane that is ready with nothing buffered, and TELLER_CHUNK with a chunk in front of the input
queue, when it is its turn: a chunk that passes the checks of Table 4.4, of bytes at hand and no STRICT tenant, with
its price of 250 cents there, leads to an ACCEPT entry of its stream, and one that fails them is refused: TEL_REFUSE
is one more, a lane gets its two answer words with the status, and the stream is HELD where the check says so.
TEL_REISSUE of a stream HELD by TELLER arms its re-issue and changes nothing else. INGRESS_RESPONSE_TAKEN takes that
many words from the response queue of the port before the lanes are looked at again. INPUT_QUEUE_ROOM lets the
instruction of the thread that has waited longest in front of the hop go on, which is the choice of the model (log
entries 62 and 78). DAYBOOK_FETCH_RESUME of a fetch whose queue entry waits for room puts the entry last in the queue of
its CLERK before the threads that wait for one go on. The checks of Table 4.4 are, in this order: the stream is built; the
CLERK of its home is in service; the stream is not FREE, then neither DEAD nor CLOSING, then not HELD but for a re-issue;
a re-issue on a lane finds its stream HELD; the reserved header bits are 0; the words, EOS and the length fit; the text
lies in TEXT; the prompt stays within 16 MiB. That a chunk which came while its stream was HELD, and is no re-issue, is
refused though the stream is OPEN by then is the choice of the model (log entry 178). (R46, R129, R138, R139, R142, R143,
R149, R168) -/
def Obligations.TellerTakesChunks : Prop :=
  ∀ s : State,
    let coins := s.purse.queue = [] ∧ clkUp s 22 = true ∧ priceNow s 250 ≤ s.purse.balance
    let plain (c : Chunk) : Prop := (∃ d, c.place = .bytes d) ∧ policyOf s (stream s c.stream).tenant ≠ .strict
    let accepts (o : Host.Outcome State Fault Refusal) (c : Chunk) : Prop := EndsIn o (fun u =>
      EntryMade u (fun e => e.etype = 1 ∧ e.stream = c.stream ∧ e.c % 2 ^ 32 = c.len % 2 ^ 32))
    let refuses (o : Host.Outcome State Fault Refusal) (c : Chunk) (st : Nat) (holds : Bool) : Prop := EndsIn o (fun u =>
      reg u R.TEL_REFUSE = satAdd 32 (reg s R.TEL_REFUSE) 1
      ∧ ((stream s c.stream).st = .opened → (stream u c.stream).st = (if holds then .held else .opened))
      ∧ (c.source < 8 → Tab.get [] u.teller.resp (c.source / 2) = Tab.get [] s.teller.resp (c.source / 2)
          ++ [BitVec.ofNat 64 (c.stream + c.source % 2 * 2 ^ 12 + c.tag * 2 ^ 16 + st * 2 ^ 32), 0]))
    (∀ c : Chunk,
      let x := stream s c.stream
      let outside : Bool := match c.place with
        | .stack a => decide (c.len ≠ 0) && !inRegion s 0 a c.len
        | .bytes _ => false
      checkChunk s c = firstRefusal
        [(decide (s.build.size.contexts ≤ c.stream), (0x21, false)), (unitOut s 6 (c.stream / 512), (0x60, false)),
         (decide (x.st = .free), (0x70, false)), (decide (x.st = .dead ∨ x.st = .closing), (0x11, false)),
         (decide ((x.st = .held ∧ c.reissue = false) ∨ c.whileHeld = true), (0x70, false)),
         (decide (c.source < 8 ∧ c.reissue = true ∧ x.st ≠ .held), (0x70, true)), (c.badHeader, (0x70, true)),
         (c.badWords || decide ((c.len = 0 ∧ c.eos = false) ∨ (c.len ≠ 0 ∧ c.eos = true) ∨ (c.source = 8 ∧ 2 ^ 24 < c.len)),
          (0x20, true)),
         (outside, (0x21, true)), (decide (2 ^ 24 < x.promptBytes + c.len), (0x20, true))])
    ∧ (∀ (l : BitVec 3) (h : Word) (ws : List Word),
      let c0 : Chunk := laneChunkOf l.toNat h ws
      let c : Chunk := { c0 with no := s.issueNo + 1,
                                 whileHeld := decide ((stream s c0.stream).st = .held) && !c0.reissue }
      let v := { s with issueNo := s.issueNo + 1 }
      laneReady s l.toNat ws.length = true → laneBuf s l.toNat = [] → chunkTurn v c = true → answerTurn v l.toNat = true →
        (coins → plain c → checkChunk s c = none → accepts (exec (.laneChunk l h ws) s) c)
        ∧ ∀ st holds, checkChunk s c = some (st, holds) → refuses (exec (.laneChunk l h ws) s) c st holds)
    ∧ (∀ c rest, s.teller.queue = c :: rest → s.teller.lanes = [] → chunkTurn s c = true →
        (coins → plain c → checkChunk s c = none → accepts (exec .tellerChunk s) c)
        ∧ ∀ st holds, checkChunk s c = some (st, holds) → refuses (exec .tellerChunk s) c st holds)
    ∧ (∀ n : BitVec 12, clkUp s 20 = true → stationUp s 1 = true → (stream s n.toNat).st = .held →
        (stream s n.toNat).heldAt = 1 →
        exec (.telReissue n) s
          = .next (setStream n.toNat { stream s n.toNat with armed := true } { s with regOut := 0 }))
    ∧ (∀ (p : BitVec 2) (k : BitVec 8), ∃ u, exec (.ingressResponseTaken p k) s = .next (sweep (drainLanes u))
        ∧ Tab.get [] u.teller.resp p.toNat = (Tab.get [] s.teller.resp p.toNat).drop k.toNat
        ∧ (∀ q, q ≠ p.toNat → Tab.get [] u.teller.resp q = Tab.get [] s.teller.resp q)
        ∧ { u with teller := s.teller } = s)
    ∧ (∀ (h : BitVec 4) (i : Instr) (rest : List Instr), roomWaiters s h.toNat = i :: rest →
        exec (.inputQueueRoom h) s = .next (sweep (roomAct i s)))
    ∧ (∀ (c : BitVec 3) (f : PageFetch) (bs : List Byte), clkUp s 1 = true → fetchOf s c.toNat = some f →
        f.entry = some bs → entryFate s c.toNat f.step bs = .queue → (entryQueue s c.toNat).length < 512 →
        ∃ u, exec (.daybookFetchResume c) s = .next (sweep (wakeClerk isDnext c.toNat u))
          ∧ entryQueue u c.toNat = entryQueue s c.toNat ++ [{ step := f.step, replay := false, own := 0, data := bs }]
          ∧ (∀ d, d ≠ c.toNat → entryQueue u d = entryQueue s d) ∧ u.threads = s.threads ∧ u.teller = s.teller)

/-- For each of ASSAY, SORTER, MINT and EXCHANGE: of the tile it may take of a stream, which is the last of its item
and meets no error, with its coins there and no earlier tile of the item still being filled, when the output fits
one tile and is not empty: the tile leaves the queue of the station, and one tile of the item stands last in the
queue of the next hop of its route, with LAST set and the check of its payload. From ASSAY it holds the text that
decoding, protecting, folding and normalising release, with the fallback marks under POLICY BYTE, and the stream
keeps the carry; from SORTER the same text with its pieces in stream order; from MINT the token words of its pieces,
the last with LAST; from EXCHANGE the bytes that the UTF-8 stage and ESCROW release, with TEXT_END by the tile or
the report of NOTARY. This is before what follows by itself, and for SORTER and MINT before the lookups ahead for the
tiles that then wait at MINT; MINT takes its tile after those of the tiles that wait before, which change nothing while
the prefetch is off and nothing is held ahead. MINT is said of tiles whose lookups read no overflow, EXCHANGE of streams
in which no stop string completes. (R41, R152, R157, R166, R184, R203, R207, R222, R311, R314, R315) -/
def Obligations.TextStationsWorkATile : Prop :=
  ∀ (s : State) (n : BitVec 12) (t : Tile),
    let k := n.toNat
    let h := t.advance.nextHop
    let ends := t.textEnd || t.eos
    let ahead := prefetchQueued s
    let moved (hop : Nat) (P : State → Tile → Prop) (v u : State) : Prop :=
      queueAt u hop = removeTile t (queueAt v hop) ∧ ∃ z, queueAt u h = queueAt v h ++ [z]
        ∧ z.ledger = t.ledger ∧ z.stream = t.stream ∧ z.route = t.advance.route ∧ z.last = true ∧ P u z
    let sends (hop : Nat) (o : Host.Outcome State Fault Refusal) (P : State → Tile → Prop) : Prop :=
      EndsIn o (moved hop P s)
    let sendsAhead (hop : Nat) (v : State) (o : Host.Outcome State Fault Refusal) (P : State → Tile → Prop) : Prop :=
      ∃ u, o = .next (sweep (prefetchQueued u)) ∧ moved hop P v u
    ((reg s R.VLT_CTRL).testBit 0 = false → s.prefetch = [] → ahead = s) ∧ (
    t.last = true → t.stream = k →
    (∀ im, takeable s 2 k = some t → h ≠ 2 → imageOf s t.tenant = some im → buildingAt s k 2 t.ledger = none →
      CoinsThere s (assayBill t) →
      let r := assayText im (stream s k).assay t.payload ends
      r.out.length ≤ 4096 → (r.out ≠ [] ∨ ends = true) →
      sends 2 (exec (.assayTile n .none) s) (fun u z => z.kind = t.kind ∧ z.payload = r.out
        ∧ z.marks = (if im.policy = .byte then r.marks else []) ∧ z.textEnd = t.textEnd ∧ z.eos = t.eos
        ∧ z.check = crc32c z.mapped ∧ (stream u k).assay.carry = r.ctx.carry ∧ (stream u k).assay.seg = r.ctx.seg))
    ∧ (∀ res, takeable s 3 k = some t → h ≠ 3 → (tenant s t.tenant).now = some res → buildingAt s k 3 t.ledger = none →
      CoinsThere s (sorterBill s t) →
      let r := sortText s t.tenant (res.image, res.gen) (stream s k).sorter t
      ((r.pieces.map Prod.snd).flatten).length ≤ 4096 → (r.pieces ≠ [] ∨ ends = true) →
      sendsAhead 3 s (exec (.sorterTile n .none) s) (fun u z => z.kind = t.kind ∧ z.payload = (r.pieces.map Prod.snd).flatten
        ∧ z.pieces = r.pieces.map Prod.fst ∧ z.textEnd = t.textEnd ∧ z.eos = t.eos ∧ z.check = crc32c z.pieced
        ∧ (stream u k).sorter = r.ctx))
    ∧ (takeable ahead 4 k = some t → h ≠ 4 → noImage ahead t = false → mintStalls ahead t = false →
      buildingAt ahead k 4 t.ledger = none → CoinsThere ahead (mintBill ahead t) →
      let x := mintRun ahead t []
      x.reads.ovf = [] → x.words.length ≤ 1024 → (x.words ≠ [] ∨ t.eos = true) →
      sendsAhead 4 ahead (exec (.mintTile n .none) s) (fun _ z => z.kind = .token ∧ z.payload = markLast (wordBytes x.words)
        ∧ z.textEnd = t.textEnd ∧ z.eos = t.eos ∧ z.check = crc32c z.payload))
    ∧ (∀ im, takeable s 7 k = some t → h ≠ 7 → imageOf s t.tenant = some im → excReady s t = true →
      (stream s k).escrow.stopped = false → excRefusal s t = none → buildingAt s k 7 t.ledger = none →
      reportPending s t = false → CoinsThere s (excBill s t) →
      let r0 := (tileTokensOut t).foldl (feedToken im) (ExcRun.start (stream s k).escrow)
      let fin := ends || reportEnds s t
      let r := if r0.hit.isNone && fin then resolveHold im r0 else r0
      r.hit = none → r.out.length ≤ 4096 → (r.out ≠ [] ∨ fin = true) →
      sends 7 (exec (.exchangeTile n .none) s) (fun u z => z.kind = .text ∧ z.payload = r.out ∧ z.textEnd = fin
        ∧ z.eos = t.eos ∧ z.check = crc32c z.payload ∧ (stream u k).escrow.hold = r.ctx.hold
        ∧ (stream u k).escrow.carry = r.ctx.carry)))

/-- For a stream whose NOTARY unit may take its tile, meeting no error. NOTARY_DECISION_TILE, of a decision tile of
a grammar that is not over while no earlier commit or advance of the stream is open and no settlement is awaited:
the tile leaves for the next hop with the mask fields of the configuration of the stream (0xFFFFF and no other field
without a grammar) in its last 16 bytes and a new check. NOTARY_TOKEN_TILE, of a token tile whose tokens are all in
force, with its coins: a decision tile whose first 48 bytes are 0 leaves for the next hop with a new check. A tile
of a grammar that is over, or with a token not in force, is refused. NOTARY_ADVANCE takes the oldest commit of the
stream and leaves the configuration that the advance over its token gives. RUNAHEAD_RESOLVE with its 3 cents there
makes an offered candidate known when its record is on chip, which a free value decides (log entry 2), and else
starts the read of its record or counts it as skipped. (R246, R247, R248, R250, R259, R260, R261, R262) -/
def Obligations.NotaryFillsAndAdvances : Prop :=
  ∀ (s : State) (n : BitVec 12),
    let k := n.toNat
    let y := (stream s k).notary
    (∀ t, takeable s 5 k = some t → t.stream = k →
      let h := t.advance.nextHop
      (t.kind = .decision → (y.gen = true → y.cfg.over = false) → notaryBusy s k = false → commitWaits s k t = false → h ≠ 5 →
        EndsIn (exec (.notaryDecisionTile n .none) s) (fun u => queueAt u 5 = removeTile t (queueAt s 5)
          ∧ ∃ z, queueAt u h = queueAt s h ++ [z] ∧ z.kind = .decision ∧ z.ledger = t.ledger
            ∧ z.payload = t.payload.take 48 ++ maskWords (if y.gen then y.cfg.fields else MaskFields.open)
            ∧ z.check = crc32c z.payload ∧ (visits t 6 = true → (stream u k).notary.pending = some t.ledger)))
      ∧ (t.kind = .decision → y.gen = true → y.cfg.over = true → EndsIn (exec (.notaryDecisionTile n .none) s) (fun u =>
          queueAt u 5 = removeTile t (queueAt s 5) ∧ ((stream s k).st = .opened → (stream u k).st = .held)))
      ∧ (t.kind = .token → tokenTileWaits s k t = false → CoinsThere s (tokenTileBill s k t) →
          (∀ st, tokenTileRefusal s k t = some st → EndsIn (exec (.notaryTokenTile n .none) s) (fun u =>
            queueAt u 5 = removeTile t (queueAt s 5) ∧ ((stream s k).st = .opened → (stream u k).st = .held)))
          ∧ (tokenTileRefusal s k t = none → h ≠ 5 → EndsIn (exec (.notaryTokenTile n .none) s) (fun u =>
              queueAt u 5 = removeTile t (queueAt s 5) ∧ ∃ z, queueAt u h = queueAt s h ++ [z] ∧ z.kind = .decision
                ∧ z.ledger = t.ledger ∧ z.payload.take 48 = List.replicate 48 0 ∧ z.check = crc32c z.payload))))
    ∧ (∀ c rest im, y.commits = c :: rest → stationUp s 5 = true → advanceWaits s k c.ledger = false →
        resolving s k = false → advanceStalls s k [c.token] = false → imageOf s (stream s k).tenant = some im →
        CoinsThere s (commitBill s k c) → EndsIn (exec (.notaryAdvance ⟨n, .none⟩) s) (fun u =>
          (stream u k).notary.commits = rest
          ∧ (stream u k).notary.cfg = (advance s im y.allow y.cfg c.token).cfg
          ∧ (∀ m, m ≠ k → stream u m = stream s m) ∧ u.threads = s.threads))
    ∧ (∀ t : BitVec 20, canResolve s k t.toNat = true → readingAhead s k t.toNat = false → CoinsThere s [(3, 1)] →
        Answers (exec (.runaheadResolve n t) s) (fun u =>
          (stream u k).notary.cands = y.cands ++ [t.toNat]
          ∨ (∃ a ∈ u.accesses, a.ident = s.nextAccess ∧ a.job = .ahead k t.toNat)
          ∨ reg u R.PUR_RA_SKIP = satAdd 32 (reg s R.PUR_RA_SKIP) 1))

/-- All before the row at the ports and what follows by itself. CLEARING_DESCRIPTOR of a decision tile it may take:
one whose descriptor breaks a rule is refused, with the status of the first that it breaks in the order of Table 8.4, and
its OPEN stream HELD; a thin-path tile whose settlement has not
been taken, and a dense one that finds too few pages of the mask store, stand at CLEARING. MASK_PAGES_FREED of a
tile that waits for pages that are now there, with no draft, gives it those pages. LOGIT_ROW on free ports: a row
with the stream, step and position of one held or selected counts in CLG_DUPROW; one before its tile, with room in
the hold buffer, is held; one of another length than its tile asks for withholds it with ST_LEN; one of the right length
whose mask is there, with the coins of the row, of a dense tile that is no draft verification, is selected from: the tile
leaves CLEARING, in MODE 0 and 2 for its next hop with the selection result word of the entries that the mask leaves in
word 0, a new check and the token committed to the grammar of the stream, in MODE 1 and 3 once its list is written. The
entry of MODE 0 is that of the greatest value and among equal ones of the lowest index. NEAR_BANK_LIST that
matches no row counts in STK_BADRSP; one that does, with its 2 cents there, that is good and does not conflict, is
merged. GRACE_END and THIN_GRACE_END of a dense tile whose mask is not ready, or a thin one, whose grace is over:
the tile is gone and its item completes with ST_LATE. (R112, R113, R115, R275, R278, R279, R282, R283, R284, R286, R304,
R347) -/
def Obligations.ClearingSelects : Prop :=
  (∀ (y : Stream) (next : Nat) (d : Desc), descRefusal y next d = firstRefusal
    [(!d.clean || decide (9 < d.fmt ∨ d.k = 0 ∨ 64 < d.k), 0x70), (decide (d.rowlen = 0 ∨ 2 ^ 20 < d.rowlen), 0x20),
     (decide (16 < d.drafts ∨ (0 < d.drafts ∧ (d.thin = true ∨ d.mode % 2 = 1))), 0x70),
     (decide (d.mode = 2) && !tempOk d.temp, 0x70),
     (decide (d.mode % 2 = 1) && (decide (d.list = 0 ∨ d.list % 64 ≠ 0) || !inOutput y d.list (8 * d.k)), 0x21),
     (decide ((d.mode % 2 = 0 ∧ d.list ≠ 0) ∨ ((d.thin = true ∨ 0 < d.drafts) ∧ d.aux = 0)
        ∨ (d.thin = false ∧ d.drafts = 0 ∧ d.aux ≠ 0)), 0x70),
     (decide (next ≠ 7 ∧ next ≠ 8 ∧ next ≠ 12), 0x70)])
  ∧ (∀ (d : Desc) (seed step mask : Nat) (data : List Byte), d.mode = 0 →
      let entry (i : Nat) : Val := rowVal d.fmt d.rowlen data i
      let valid (i : Nat) : Prop := i < d.rowlen ∧ mask.testBit i = true ∧ (entry i).isNan = false
      ((selectDense d seed step mask data).sel = [] ↔ ∀ i, ¬ valid i)
      ∧ ∀ x rest, (selectDense d seed step mask data).sel = x :: rest → rest = [] ∧ valid x.idx
          ∧ x.value = (entry x.idx).toF32
          ∧ ∀ i, valid i → (entry i).lt (entry x.idx) = true
              ∨ ((entry x.idx).lt (entry i) = false ∧ x.idx ≤ i))
  ∧ ∀ s : State,
    let gone (n : Nat) (c : ClearTile) (st : Nat) (u : State) : Prop :=
      (∀ x ∈ u.clear.tiles, ¬ (x.tile.stream = n ∧ x.tile.ledger = c.tile.ledger))
      ∧ ∀ i, item? s c.tile.ledger = some i → i.completing = false → i.complete = false → i.deep = false →
          Completes u c.tile.ledger st
    (∀ (n : BitVec 12) (t : Tile), takeable s 6 n.toNat = some t → t.kind = .decision → t.stream = n.toNat →
      let c := clearTile t (stream s n.toNat).notary.cfg
      let fresh := descRefusal (stream s n.toNat) t.hopAfter c.desc = none ∧ t.status ≠ 0x10 ∧ withheldBefore s t = none
        ∧ marked s n.toNat c.step .lost = false ∧ graceOver s t.settle = false ∧ clearTile? s n.toNat = none
      (∀ st, descRefusal (stream s n.toNat) t.hopAfter c.desc = some st →
        EndsAtClearing (exec (.clearingDescriptor n .none) s) (fun u =>
          queueAt u 6 = removeTile t (queueAt s 6) ∧ ((stream s n.toNat).st = .opened → (stream u n.toNat).st = .held)))
      ∧ (fresh → c.desc.thin = true → t.replay = false → settleTaken s t.settle = false →
          EndsAtClearing (exec (.clearingDescriptor n .none) s) (fun u =>
            queueAt u 6 = removeTile t (queueAt s 6) ∧ u.clear.tiles = s.clear.tiles ++ [c]))
      ∧ (fresh → c.desc.thin = false →
          freePages s < max 1 c.desc.drafts * pagesOf (((imageOf s t.tenant).map TokImage.vocab).getD 0) →
          EndsAtClearing (exec (.clearingDescriptor n .none) s) (fun u =>
            queueAt u 6 = removeTile t (queueAt s 6) ∧ u.clear.tiles = s.clear.tiles ++ [{ c with pageWait := true }])))
    ∧ (∀ (n : BitVec 12) (c : ClearTile), clearTile? s n.toNat = some c → c.pageWait = true → stationUp s 6 = true →
        c.desc.drafts = 0 → hasRows s n.toNat c.step = false → earlyDraft s n.toNat c = false →
        let need := pagesOf (((imageOf s c.tile.tenant).map TokImage.vocab).getD 0)
        need ≤ freePages s → EndsAtClearing (exec (.maskPagesFreed n) s) (fun u =>
          ∃ v, u = startReads n.toNat v
            ∧ v.clear.tiles = s.clear.tiles.map (fun x => if x.tile.stream = n.toNat
                then { x with pageWait := false, pages := need } else x)))
    ∧ (∀ (h : Word) (data : List Byte) (beats : BitVec 13), logitUp s = true → portBusy s = false →
        let r : Row :=
          { stream := h.toNat % 2 ^ 12, step := h.toNat / 2 ^ 12 % 2 ^ 32, pos := h.toNat / 2 ^ 44 % 32,
            bad := decide (h.toNat / 2 ^ 49 ≠ 0), data := data, beats := beats.toNat, inBuf := 0, held := false }
        (rowAgain s r = true → exec (.logitRow h data beats) s
          = .next (sweep (setReg R.CLG_DUPROW (satAdd 32 (reg s R.CLG_DUPROW) 1) s)))
        ∧ (rowAgain s r = false → matchTile s r = none → marked s r.stream r.step .lost = false →
            marked s r.stream r.step .refused = false → stepFinished s r.stream r.step = false →
            graceOver s (logitsOf s r.step) = false → r.pos = 0 → r.beats ≤ freeHold s →
            Answers (exec (.logitRow h data beats) s) (fun u => u.clear.rows
              = s.clear.rows ++ [{ r with held := true, inBuf := r.beats }]))
        ∧ (∀ c, rowAgain s r = false → matchTile s r = some c → (r.beats ≠ rowBeats c.desc.fmt c.desc.rowlen ∨ r.bad = true) →
            EndsAtClearing (exec (.logitRow h data beats) s) (gone r.stream c 0x20))
        ∧ (∀ c m, rowAgain s r = false → matchTile s r = some c → clearTile? s r.stream = some c →
            (∀ x ∈ s.clear.tiles, x.tile.stream = r.stream → x = c) →
            r.beats = rowBeats c.desc.fmt c.desc.rowlen → r.bad = false → c.desc.drafts = 0 → c.done = [] →
            c.maskAt 0 = some m → CoinsThere s (rowBill c.desc) →
            let p := selectDense c.desc (stream s r.stream).seed c.step m data
            let st := if p.short then 1 else 0
            let commits := if c.desc.mode % 2 = 0 then p.sel.map Cand.idx else []
            let word := selectionWord ((p.sel.head?.map Cand.idx).getD 0xFFFFF) p.sel.length commits.length p.tie st
              (decide (c.desc.mode = 3)) false
            let next := c.tile.advance.nextHop
            EndsAtClearing (exec (.logitRow h data beats) s) (fun u =>
              (∀ x ∈ u.clear.tiles, x.tile.stream ≠ r.stream)
              ∧ (∀ x ∈ u.clear.rows, ¬ (x.stream = r.stream ∧ x.step = r.step))
              ∧ (r.stream, r.step, 0) ∈ u.clear.seen
              ∧ ((stream s r.stream).notary.gen = true → ((stream u r.stream).notary.commits.map Commit.token)
                  = (stream s r.stream).notary.commits.map Commit.token ++ commits)
              ∧ (c.desc.mode % 2 = 0 → ∃ z, queueAt u next = queueAt s next ++ [z] ∧ z.ledger = c.tile.ledger
                  ∧ z.stream = c.tile.stream ∧ z.payload.take 8 = toLE 8 word ∧ z.payload.drop 48 = c.tile.payload.drop 48
                  ∧ z.check = crc32c z.payload)
              ∧ (c.desc.mode % 2 = 1 → 0 < c.desc.k → ∃ a ∈ u.accesses, a.ident = s.nextAccess ∧ a.kind = .write
                  ∧ ∃ z, a.job = .topk z c.pages ∧ z.ledger = c.tile.ledger ∧ z.payload.take 8 = toLE 8 word
                  ∧ (a.lines.map Line.data).flatten.take (8 * c.desc.k) = listBytes c.desc.k p.sel))))
    ∧ (∀ (p : BitVec 3) (data : List Byte), portUp s p.toNat = true → clkUp s (5 + p.toNat) = true → stationUp s 6 = true →
        (listTile s data = none → Answers (exec (.nearBankList p data) s) (fun u =>
          reg u R.STK_BADRSP = satAdd 32 (reg s R.STK_BADRSP) 1 ∧ reg u R.STK_LISTS = satAdd 32 (reg s R.STK_LISTS) 1
          ∧ u.clear = s.clear))
        ∧ (∀ c merged, listTile s data = some c → clearTile? s c.tile.stream = some c → CoinsThere s [(2, 1)] →
            listLost s c data = false → (∃ b ∈ c.awaited, b ≠ leAt data 0 8 / 2 ^ 12 % 512) →
            mergeEntries c.entries ((listEntries data (leAt data 8 8 % 128)).filter (fun e => !entryNan e)) = some merged →
            EndsAtClearing (exec (.nearBankList p data) s) (fun u => ∃ d, clearTile? u c.tile.stream = some d
              ∧ d.entries = merged ∧ d.tile = c.tile ∧ leAt data 0 8 / 2 ^ 12 % 512 ∈ d.heard)))
    ∧ (∀ (n : BitVec 12) (c : ClearTile), clearTile? s n.toNat = some c → c.tile.replay = false →
        graceOver s c.tile.settle = true →
        (c.desc.thin = false → c.ready = false → EndsAtClearing (exec (.graceEnd n) s) (gone n.toNat c 0x10))
        ∧ (c.desc.thin = true → EndsAtClearing (exec (.thinGraceEnd n) s) (gone n.toNat c 0x10)))

/-- LEDGER_HOP, of the tile it may take of a stream whose advances are written, that is no replay, for an egress
sink, of an item not dropped and a stream not muted: an OUTPUT entry of its stream and item is made, which holds its
number, count and check, and the item keeps the record. EGRESS_RECORD, on an enabled port whose receiver is ready
and that sends nothing: a record of at most that many payload beats leaves whole as header beat and padded payload
and counts as delivered; of a longer one that many beats pass and the port pauses. EGRESS_READY on an idle port
raises ready; on one that paused it sends the rest, whole or up to the next pause. ESCROW_HOLD_RESOLVE, once the
report of NOTARY on the waiting last tile is there and no stop string completes, sends that tile to its next hop
with the bytes released and TEXT_END when the grammar ended. This is before what follows by itself. That RSEQ is the
number of the tile at the LEDGER hop, and that a hop numbers the tiles of an item from 0, are the choices of the model
(log entries 45 and 19). (R318, R324, R325, R326, R368) -/
def Obligations.OutputLeaves : Prop :=
  ∀ s : State,
    (∀ (n : BitVec 12) (t : Tile) (i : Item), takeable s 8 n.toNat = some t → hopWaits s t = false → t.replay = false →
      (t.hopAfter = 9 ∨ t.hopAfter = 10) → item? s t.ledger = some i → i.dropped = false →
      (stream s t.stream).muted = false →
      let k := Tab.get 0 i.emitted 8
      EndsIn (exec (.ledgerHop n .none) s) (fun u => queueAt u 8 = removeTile t (queueAt s 8)
        ∧ EntryMade u (fun e => e.etype = 2 ∧ e.stream = t.stream ∧ e.ledger = t.ledger ∧ e.c = t.check
            ∧ e.a % 2 ^ 24 = k % 2 ^ 24 ∧ e.a / 2 ^ 24 % 2 ^ 13 = t.count % 8192)
        ∧ ∃ j, item? u t.ledger = some j ∧ ∃ r ∈ j.outs, r.rseq = k ∧ r.check = t.check ∧ r.delivered = false))
    ∧ (∀ (p : BitVec 1) (b : BitVec 10),
        let e := egress s p.toNat
        let count (q : Nat) : Nat := if q = 0 then R.EXC_REC0 else R.EXC_REC1
        (∀ t rest, queueAt s (9 + p.toNat) = t :: rest → egressUp s p.toNat = true →
          (reg s R.EXC_CTRL).testBit p.toNat = true → e.ready = true → e.cur = none →
          let z := { t with status := workStatus s t }
          ((z.payload.length + 31) / 32 ≤ b.toNat → EndsIn (exec (.egressRecord p b) s) (fun u =>
              (egress u p.toNat).last = recordHeader z ++ padUp 32 z.payload ∧ (egress u p.toNat).cur = none
              ∧ reg u (count p.toNat) = satAdd 32 (reg s (count p.toNat)) 1 ∧ queueAt u (9 + p.toNat) = rest))
          ∧ (b.toNat < (z.payload.length + 31) / 32 → Answers (exec (.egressRecord p b) s) (fun u =>
              egress u p.toNat = { e with ready := false,
                                          cur := some ⟨z, (z.payload.length + 31) / 32, b.toNat⟩ }
              ∧ queueAt u (9 + p.toNat) = rest)))
        ∧ (e.cur = none → exec (.egressReady ⟨p, b⟩) s = .next (setEgress p.toNat { e with ready := true } s))
        ∧ (∀ r, e.cur = some r → egressUp s p.toNat = true →
            (r.beats ≤ r.passed + b.toNat → EndsIn (exec (.egressReady ⟨p, b⟩) s) (fun u =>
              (egress u p.toNat).last = recordHeader r.tile ++ padUp 32 r.tile.payload ∧ (egress u p.toNat).cur = none
              ∧ (egress u p.toNat).ready = true))
            ∧ (r.passed + b.toNat < r.beats → exec (.egressReady ⟨p, b⟩) s = .next (setEgress p.toNat
                { e with ready := false, cur := some { r with passed := r.passed + b.toNat } } s))))
    ∧ (∀ (n : BitVec 12) (t : Tile) (rest : List Tile) (im : TokImage), (stream s n.toNat).escrow.await = t :: rest →
        t.stream = n.toNat → reportPending s t = false → stationUp s 7 = true → imageOf s t.tenant = some im → t.last = true →
        let fin := decide ((stream s n.toNat).notary.ended = some t.ledger)
        let r := if fin then resolveHold im (ExcRun.start (stream s n.toNat).escrow)
          else ExcRun.start (stream s n.toNat).escrow
        r.hit = none → (t.payload ++ r.out).length ≤ 4096 → t.payload ++ r.out ≠ [] →
        EndsIn (exec (.escrowHoldResolve n) s) (fun u => (stream u n.toNat).escrow.await = []
          ∧ ∃ z, queueAt u t.advance.nextHop = queueAt s t.advance.nextHop ++ [z] ∧ z.kind = .text ∧ z.ledger = t.ledger
            ∧ z.payload = t.payload ++ r.out ∧ z.last = true ∧ z.textEnd = (t.textEnd || fin)))

/-- Of a memory port that takes responses and a tag under which a line of an access stands: a completion gives a
read line its 64 bytes and ends it and a write line with ST_OK, a deferral counts in STK_DEFER and makes the line
wait in back-off, or end with ST_STACK_BUSY after MAX retries, or wait unsent with its count at 0 when its channel
is quiescing, an error ends the line with ST_STACK_ERR; a mirror of the journal to which a line has failed is then lost,
accesses of which every line has ended end one after the other, and what follows by itself comes last. A response under a tag no line stands under, and any of a port
that is down, changes nothing. DEFERRED_RETRY makes the line that waits in back-off be sent again: one that stands
alone, paid and not held, is out under tag 0 of its port with its count kept. MEMORY_LINK_ERROR takes a port of the
build out of use: its channels are carried by its partner, no line stands on its way at it any more, and threads,
streams and the LEDGER are unchanged. That a block has as many memory ports as CLERKS and
that a channel belongs to its number modulo the ports is the choice of the model (log entry 123). (R332, R349, R350, R355, R376, R394, R468) -/
def Obligations.StackResponses : Prop :=
  ∀ (s : State) (p : BitVec 3) (t : BitVec 10),
    let here (st : LineState) (l : Line) : Bool :=
      decide (l.port = p.toNat) && decide (l.tag = t.toNat) && decide (l.st = st)
    let lines (f : Access → Line → Line) : List Access :=
      s.accesses.map (fun a => { a with lines := a.lines.map (fun l => if here .out l then f a l else l) })
    let answered (k : Answer) (data : List Byte) (defers : Nat) (f : Access → Line → Line) : Prop :=
      EndsIn (exec (.memoryResponse p t k data) s) (fun u => ∃ v,
        (let z := loseFailed v
         u = endAccesses (z.accesses.length + 16) z ∧ (firstEnded z = none → u = z)
         ∧ ((∀ a ∈ v.accesses, a.job.toMirrors = false) → z = v))
        ∧ v.accesses = lines f ∧ reg v R.STK_DEFER = satAdd 32 (reg s R.STK_DEFER) defers
        ∧ RegsKept [R.STK_DEFER] s v ∧ { v with accesses := s.accesses, regs := s.regs } = s)
    (portUp s p.toNat = true → clkUp s (5 + p.toNat) = true →
      ((∃ a ∈ s.accesses, ∃ l ∈ a.lines, here .out l = true) → ∀ data : List Byte,
        answered .done data 0 (fun a l => match a.kind with
          | .read => { l with data := padTo 64 (data.take 64), st := .gone 0x00 }
          | .write => { l with st := .gone 0x00 }
          | .message => l)
        ∧ answered .error data 0 (fun _ l => { l with st := .gone 0x53 })
        ∧ answered .deferred data 1 (fun _ l =>
            if quiescing s l.loc then { l with st := .unsent, retries := 0 }
            else if reg s R.STK_RETRY % 32 ≤ l.retries then { l with st := .gone 0x52 }
            else { l with st := .backoff, retries := l.retries + 1 }))
      ∧ ((∀ a ∈ s.accesses, ∀ l ∈ a.lines, here .out l = false) →
          ∀ k data, exec (.memoryResponse p t k data) s = .next s)
      ∧ exec (.deferredRetry p t) s = .next (sendAll { s with accesses := s.accesses.map (fun a =>
          { a with lines := a.lines.map (fun l => if here .backoff l then { l with st := .unsent } else l) }) })
      ∧ (∀ (a : Access) (l : Line), s.accesses = [a] → a.paid = true → a.lines = [l] → here .backoff l = true →
          lineHeld s [] [] a l = false → Answers (exec (.deferredRetry p t) s) (fun u =>
            u.accesses = [{ a with lines := [{ l with port := portFor s l.loc, tag := 0, st := .out }] }]
            ∧ { u with accesses := s.accesses } = s)))
    ∧ (portUp s p.toNat = false → (∀ k data, exec (.memoryResponse p t k data) s = .next s)
        ∧ exec (.deferredRetry p t) s = .next s)
    ∧ (pdUp s 0 = true → p.toNat ∉ s.power.linkDown → p.toNat < memPorts s.build.size →
        Answers (exec (.memoryLinkError p) s) (fun u => portUp u p.toNat = false
          ∧ (∀ loc, loc % 16 % memPorts s.build.size = p.toNat → portFor u loc = p.toNat ^^^ 1)
          ∧ (∀ a ∈ u.accesses, ∀ l ∈ a.lines, (l.st = .out ∨ l.st = .backoff) → l.port ≠ p.toNat)
          ∧ u.threads = s.threads ∧ u.streams = s.streams ∧ u.ledger = s.ledger
          ∧ RegsKept [R.AUD_FAULT_LO, R.AUD_FAULT_HI] s u))

/-- While the register window takes writes. CHANNEL_QUIESCE that nothing conflicts with: STATE is DRAINING, the
activity runs, every line to the channel that waits in back-off waits unsent with its count at 0, every unsent line
to either pseudo-channel is held, and the status of the start is ST_OK; one that conflicts is refused with
ST_BUSY_MAINT and RSV_REFUSED. CHANNEL_QUIESCE_DRAINED sets QUIESCED once no line to the channel is on its way, and
changes nothing before. QUIESCE_END sets IDLE and sends what waits. STK_CONFIG_WRITE, while no CLERK runs, every
stream is FREE and no image load is under way: STK_GEOM in range, a half of the hash row that STK_HSEL names (rows 0
to 8, HASH_LOCK clear), base and size of the region that STK_RSEL names (size 0 or at least its least size) take the
value, and no other register and nothing else changes; every other write of these registers sets STK_STAT.CFG_ERR
and changes nothing else. Each write leaves read data 0 at the register port. (R335, R337, R355, R415, R461, R463, R529) -/
def Obligations.QuiesceAndStackConfig : Prop :=
  ∀ s : State, clkUp s 20 = true →
    let s0 : State := { s with regOut := 0 }
    let chan (loc : Nat) : Prop := loc % 16 = reg s R.STK_QCHAN % 16 ∧ loc / 2 ^ 9 % 16 = reg s R.STK_QCHAN / 2 ^ 4 % 16
    (holder s (quiesceAct s) = none → Answers (exec .channelQuiesce s) (fun u =>
        u.reserve.quiesce = 1 ∧ u.reserve.acts = s.reserve.acts ++ [quiesceAct s]
        ∧ reg u R.RSV_MSTAT / 2 ^ 16 % 2 ^ 8 = 0x00
        ∧ (∀ a ∈ u.accesses, ∀ l ∈ a.lines, chan l.loc → l.st ≠ .backoff)
        ∧ u.accesses.map (fun a => a.lines.length) = s.accesses.map (fun a => a.lines.length)
        ∧ (∀ before after a l, chan l.loc → lineHeld u before after a l = true)
        ∧ u.ledger = s.ledger ∧ u.streams = s.streams ∧ u.threads = s.threads))
    ∧ (∀ h, holder s (quiesceAct s) = some h → Answers (exec .channelQuiesce s) (fun u =>
        u.reserve = s.reserve ∧ reg u R.RSV_MSTAT / 2 ^ 16 % 2 ^ 8 = 0x40
        ∧ reg u R.RSV_REFUSED = satAdd 32 (reg s R.RSV_REFUSED) 1 ∧ u.accesses = s.accesses))
    ∧ (s.reserve.quiesce = 1 →
        ((∀ a ∈ s.accesses, ∀ l ∈ a.lines, chan l.loc → l.st ≠ .out) →
          exec .channelQuiesceDrained s = .next { s with reserve := { s.reserve with quiesce := 2 } })
        ∧ ((∃ a ∈ s.accesses, ∃ l ∈ a.lines, chan l.loc ∧ l.st = .out) → exec .channelQuiesceDrained s = .next s))
    ∧ (∀ a, s.reserve.acts.find? (fun a => decide (a.code = 7)) = some a →
        (∃ v, exec .quiesceEnd s = .next (sendAll v) ∧ v.reserve.quiesce = 0 ∧ ∀ loc, quiescing v loc = false)
        ∧ (s.reserve.waits = [] → exec .quiesceEnd s
            = .next (sendAll { s0 with reserve := { s.reserve with quiesce := 0, acts := s.reserve.acts.erase a } })))
    ∧ (∀ (off : BitVec 16) (v : Word32),
        let x := v.toNat
        let j := reg s R.STK_HSEL % 16
        let k := regionKey (reg s R.STK_RSEL % 8)
        let o := exec (.stkConfigWrite off v) s
        let sets (key val : Nat) : Prop :=
          Answers o (fun u => reg u key = val ∧ RegsKept [key] s u ∧ { u with regs := s.regs } = s0)
        let ignored : Prop := o = .next (setReg R.STK_STAT (reg s R.STK_STAT ||| 1) s0)
        (isStkConfig off.toNat = false → o = .next s0)
        ∧ (isStkConfig off.toNat = true → stackSettable s = false → ignored)
        ∧ (stackSettable s = true →
            (off.toNat = R.STK_GEOM →
              (33 ≤ x % 64 ∧ x % 64 ≤ 44 ∧ 12 ≤ x / 64 % 32 ∧ x / 64 % 32 ≤ 22 → Answers o (fun u =>
                reg u R.STK_GEOM % 2 ^ 11 = x % 2 ^ 11 ∧ reg u R.STK_GEOM / 2 ^ 16 = x / 2 ^ 16
                ∧ RegsKept [R.STK_GEOM] s u ∧ { u with regs := s.regs } = s0))
              ∧ (x % 64 < 33 ∨ 44 < x % 64 ∨ x / 64 % 32 < 12 ∨ 22 < x / 64 % 32 → ignored))
            ∧ (off.toNat = R.STK_HASH_LO → (s.kcw.hashLock = false → j ≤ 8 → sets (hashKey j) x)
                ∧ (s.kcw.hashLock = true ∨ 8 < j → ignored))
            ∧ (off.toNat = R.STK_HASH_HI → (s.kcw.hashLock = false → j ≤ 8 → sets (hashKey j + 1) (x % 2 ^ 10))
                ∧ (s.kcw.hashLock = true ∨ 8 < j → ignored))
            ∧ (off.toNat = R.STK_RBASE_LO → sets k (x / 65536 * 65536))
            ∧ (off.toNat = R.STK_RBASE_HI → sets (k + 1) (x % 65536))
            ∧ (off.toNat = R.STK_RSIZE →
                (x = 0 ∨ regionMin s (reg s R.STK_RSEL % 8) ≤ x → sets (k + 2) x)
                ∧ (x ≠ 0 ∧ x < regionMin s (reg s R.STK_RSEL % 8) → ignored))))

/-- COMPLETION_PACKET with the LEDGER up and room for two entries puts the oldest waiting packet, header and ledger
number, at the end of queue 0. SETTLE_PUSH puts the number of LDG_SETTLED at the end of queue 1, or, when it is
full, sets OVERRUN and logs ST_OVERRUN. SETTLEMENT_TAKEN with the journal ready takes the oldest number: 0 or one
not yet given logs ST_BOUNDS; of an unsettled item whose stream has every unsettled item up to it complete, each of
these is settled, counted and gets a SETTLED entry; with one not complete ST_BAD_OP is logged; a number of no
unsettled item is ignored; while a COMPLETE entry it needs is being written nothing changes. QUEUE_POP of a queue
that is up gives its oldest written entry, low half in the value read and high half in LDG_QPOP_HI, and takes it
out; an empty one gives 0 with NV. QUEUE_FLUSH stores the settings, or sets CFG_ERR for OVERWRITE of queues 0 and 1;
with FLUSH it empties the queue and announces the complete unsettled items of queue 0 again. TRACE_PORT_DRAIN takes
the oldest entry of queue 3; SRQ_QUEUE_AGE counts the entries of the oldest packet of queue 0 that had not stood there for
10 microseconds, and service request 9 is high. A write leaves read data 0 at the register port. (R371, R372, R373, R385, R386, R387, R389, R512, R514)
-/
def Obligations.QueuesAndSettlement : Prop :=
  ∀ s : State,
    let s0 : State := { s with regOut := 0 }
    let q := reg s R.LDG_QSEL % 4
    let log (u : State) (st queue n : Nat) : Prop := (reg s R.LDG_ERR_LO).testBit 31 = false →
      reg u R.LDG_ERR_LO = st + queue * 2 ^ 8 + 2 ^ 31 ∧ reg u R.LDG_ERR_HI = n % 2 ^ 32
    (∀ h n rest, s.ledger.packets = (h, n) :: rest → ledgerUp s = true → s.queue0.entries.length + 2 ≤ 8192 →
      Answers (exec .completionPacket s) (fun u =>
        u.queue0.entries = s.queue0.entries ++ [(true, h), (false, n % 2 ^ 62)] ∧ u.ledger = { s.ledger with packets := rest }
        ∧ { u with queue0 := s.queue0, free := s.free, ledger := s.ledger } = s))
    ∧ (clkUp s 20 = true → ledgerUp s = true → ∀ hi : Word32,
        let n := reg s R.LDG_SETTLED_LO + 2 ^ 32 * (hi.toNat % 2 ^ 30)
        (s.queue1.entries.length < 1024 → Answers (exec (.settlePush hi) s) (fun u =>
          u.queue1.entries = s.queue1.entries ++ [(false, n)] ∧ { u with queue1 := s.queue1 } = s0))
        ∧ (1024 ≤ s.queue1.entries.length → Answers (exec (.settlePush hi) s) (fun u =>
            reg u (qovrKey 1) = 1 ∧ log u 0x23 1 n ∧ { u with regs := s.regs } = s0)))
    ∧ (∀ b n rest, s.queue1.entries = (b, n) :: rest → ledgerUp s = true → s.ledger.ready = true →
        (settlementWaits s n = true → exec .settlementTaken s = .next s)
        ∧ (settlementWaits s n = false →
          let it := s.ledger.items.find? (fun i => i.ledger == n && !i.settled)
          (n = 0 ∨ s.ledger.next ≤ n → EndsIn (exec .settlementTaken s) (fun u =>
            u.queue1.entries = rest ∧ log u 0x21 1 n ∧ u.ledger = s.ledger))
          ∧ (0 < n → n < s.ledger.next → it = none → EndsIn (exec .settlementTaken s) (fun u =>
              u = setQueueN 1 rest s))
          ∧ (∀ i, 0 < n → n < s.ledger.next → it = some i →
              ((∀ j ∈ settledBy s i.stream n, j.complete = true) → EndsIn (exec .settlementTaken s) (fun u =>
                u.queue1.entries = rest
                ∧ (∀ j ∈ u.ledger.items, j.stream = i.stream → j.ledger ≤ n → j.settled = true)
                ∧ reg u R.LDG_SETTLES = satAdd 32 (reg s R.LDG_SETTLES) (settledBy s i.stream n).length
                ∧ ∀ j ∈ settledBy s i.stream n, EntryMade u (fun e =>
                    e.etype = 5 ∧ e.stream = i.stream ∧ e.ledger = j.ledger)))
              ∧ ((∃ j ∈ settledBy s i.stream n, j.complete = false) → EndsIn (exec .settlementTaken s) (fun u =>
                  u.queue1.entries = rest ∧ log u 0x70 1 n ∧ u.ledger = s.ledger)))))
    ∧ (clkUp s 20 = true →
        (∀ e rest, queueUp s q = true → frontUnwritten s q = false → queueN s q = e :: rest →
          (q = 3 → (reg s R.DBG_CTRL).testBit 1 = false) → Answers (exec .queuePop s) (fun u =>
            u.regOut.toNat + 2 ^ 32 * reg u R.LDG_QPOP_HI = e.2 % 2 ^ 62 + (if e.1 then 2 ^ 62 else 0)
            ∧ queueN u q = rest ∧ ∀ k, k < 4 → k ≠ q → queueN u k = queueN s k))
        ∧ (queueUp s q = true → queueN s q = [] → Answers (exec .queuePop s) (fun u =>
            u.regOut = 0 ∧ reg u R.LDG_QPOP_HI = 2 ^ 31 ∧ ∀ k, k < 4 → queueN u k = queueN s k))
        ∧ (∀ v : Word32,
            (v.toNat.testBit 0 = true → q < 2 →
              exec (.queueFlush v) s = .next (setReg R.LDG_STAT (reg s R.LDG_STAT ||| 1) s0))
            ∧ (v.toNat.testBit 0 = false ∨ 2 ≤ q → Answers (exec (.queueFlush v) s) (fun u =>
                reg u (qcfgKey q) = v.toNat % 128 ∧ RegsKept [qcfgKey q] s u
                ∧ (v.toNat.testBit 7 = true → queueUp s q = true → queueN u q = []
                    ∧ (q = 0 → u.ledger.packets = announced s))
                ∧ (v.toNat.testBit 7 = false ∨ queueUp s q = false → { u with regs := s.regs } = s0)
                ∧ ∀ k, k < 4 → k ≠ q → queueN u k = queueN s k))))
    ∧ (∀ e rest, s.queue3.entries = e :: rest → dbgUp s = true → (reg s R.DBG_CTRL).testBit 1 = true →
        frontUnwritten s 3 = false → Answers (exec .tracePortDrain s) (fun u =>
          u.trcOut.toNat = e.2 % 2 ^ 62 + (if e.1 then 2 ^ 62 else 0) ∧ u.queue3.entries = rest
          ∧ { u with queue3 := s.queue3, trcOut := s.trcOut } = s))
    ∧ (s.queue0.entries ≠ [] → Answers (exec .srqQueueAge s) (fun u =>
        u = { s with ledger := { s.ledger with
          aged := s.ledger.aged + frontPacket (s.queue0.entries.drop s.ledger.aged) } }
        ∧ srqLevel u 9 = true))

/-- JOURNAL_ENABLE with the window up. EN set before READY or on a crippled block, a first EN under a condition of
R363, or EN cleared while an item is unsettled: only CFG_ERR of LDG_STAT is set. A first EN with FRESH on a LEDGER
that is up: no item, numbers from 1, no stream, and a START entry is made. With FRESH clear: the journal is in
replay and a read of each mirror is under way. EN cleared with no unsettled item: the journal is neither ready nor
in replay. REPLAY_DONE once nothing of the replay is being read any more: it is over, numbering goes on above the
highest number of any copy present, every item with a counting unsettled ACCEPT entry is there, and a START entry is
made. CARRY_FORWARD, while the journal is enabled and no replay runs: with enough free in both rings nothing is
copied; else the ring loses entries from its tail only, the tail number moves with them, and what it gains at its
head are carried copies of entries of the same type, stream and ledger number. Then what waited for room is written.
This is before what follows by itself. That EN on a crippled block sets CFG_ERR, and that opening the journal sets the
streams FREE before it restores them, are the choices of the model (log entries 110 and 48). (R363, R374, R375, R378,
R379, R533) -/
def Obligations.JournalOpensAndCarries : Prop :=
  ∀ s : State,
    (clkUp s 20 = true → ∀ v : Word32,
      let en := v.toNat.testBit 0
      let was := (reg s R.LDG_CTRL).testBit 0
      let fin (t : State) : State := if (reg t R.LDG_CTRL).testBit 0 then t else carryMark t
      let ignored : Prop := exec (.journalEnable v) s
        = .next (sweep (fin (setReg R.LDG_STAT (reg s R.LDG_STAT ||| 1) { s with regOut := 0 })))
      (en = true → (s.boot.phase ≠ 6 ∨ crippledNow s = true) → ignored)
      ∧ (en = true → was = false → journalBad s = true → ignored)
      ∧ (en = false → (∃ i ∈ s.ledger.items, i.settled = false) → ignored)
      ∧ (en = true → was = false → s.boot.phase = 6 → crippledNow s = false → journalBad s = false → ledgerUp s = true →
          EndsIn (exec (.journalEnable v) s) (fun u => reg u R.LDG_CTRL = v.toNat % 4 ∧ u.streams = []
            ∧ u.ledger.items = [] ∧ u.ledger.ready = false
            ∧ (v.toNat.testBit 1 = true → u.ledger.replaying = false ∧ u.ledger.next = 1
                ∧ EntryMade u (fun e => e.etype = 11))
            ∧ (v.toNat.testBit 1 = false → u.ledger.replaying = true
                ∧ ∀ m, m < 2 → ∃ a ∈ u.accesses, a.kind = .read ∧ a.job = .replayRing m)))
      ∧ (en = false → was = true → (∀ i ∈ s.ledger.items, i.settled = true) →
          ∃ t, exec (.journalEnable v) s = .next (sweep (carryMark t)) ∧ t.ledger.ready = false
            ∧ t.ledger.replaying = false ∧ reg t R.LDG_CTRL = v.toNat % 4 ∧ t.streams = s.streams
            ∧ t.ledger.items = s.ledger.items))
    ∧ (ledgerUp s = true → s.ledger.replaying = true → replayBusy s = false →
        EndsIn (exec .replayDone s) (fun u => u.ledger.replaying = false
          ∧ u.ledger.next = (s.ledger.replay.present.map (fun p => p.2.ledger)).foldl max 0 + 1
          ∧ (∀ e ∈ unsettledAccepts (countedEntries s), ∃ i ∈ u.ledger.items,
              i.ledger = e.ledger ∧ i.stream = e.stream ∧ i.settled = false)
          ∧ EntryMade u (fun e => e.etype = 11)))
    ∧ (ledgerUp s = true → s.ledger.replaying = false → (reg s R.LDG_CTRL).testBit 0 = true →
        (ringLow s = false → textLow s = false →
          exec .carryForward s = .next (sweep (drainWaiting s.ledger.waiting.length s)))
        ∧ ∃ v, exec .carryForward s = .next (sweep (drainWaiting v.ledger.waiting.length v))
          ∧ ∃ (k : Nat) (new : List JEntry), v.ledger.ring = (s.ledger.ring ++ new).drop k
            ∧ k ≤ (s.ledger.ring ++ new).length ∧ v.ledger.jtail = s.ledger.jtail + k
            ∧ (∀ c ∈ new, c.carried = true ∧ ∃ e ∈ s.ledger.ring, c.etype = e.etype ∧ c.stream = e.stream ∧ c.ledger = e.ledger)
            ∧ v.ledger.items.map Item.ledger = s.ledger.items.map Item.ledger ∧ v.ledger.next = s.ledger.next
            ∧ v.streams = s.streams ∧ v.threads = s.threads)

/-- While the window is up, the KEY domain runs, READY has come and no command runs: for a command of the form of
Table 12.1 in the window, on a slot in no back-off whose key is there, with the epoch latched, the right tag and a
counter above the mark, while the journal is not ready: the mark becomes the counter, HWM_PEND is set, KCW_DONE
counts, and, before what follows by itself: SET_CEILING in range sets the ceiling and lowers an allowance above it;
SET_HASH with bits 383 to 378 clear and the stack idle sets all nine rows and HASH_LOCK; DEBUG_UNLOCK of 1 to 7
opens those scopes; LOAD_IMAGE with good operands, nothing in conflict and the coins there reads the image; ZEROISE
empties keys, scopes, memory, slots, streams and queues, sets the balance to 0 as Table 13.9 says (R436), stops every
thread, clears EN and zeroes on; a
REPAIR that Table 14.6 admits, with room in the map, is made live and its first map copy is being written: a row is
mapped to a spare row, a unit retires under SPARE_SWAP or at once, a retired unit comes back under SPARE_SWAP or at
once, or a step and rail request are set. While the journal is ready the command waits for its HWM entry. A value
out of range, and a REPAIR of no action of Table 14.5, end with ST_BAD_OP. (R404, R407, R408, R409, R412, R413,
R414, R416, R417, R436, R457, R458) -/
def Obligations.KeyedCommandsTakeEffect : Prop :=
  ∀ (s : State) (k : BitVec 128) (e : Word),
    let r := windowRun s
    let w := operandWord r 0
    let p := readRepair w
    let taken (u : State) : Prop := slotMark u r.slot = r.counter ∧ u.kcw.hwmPend = true
      ∧ reg u R.KCW_DONE = satAdd 32 (reg s R.KCW_DONE) 1
    let done (u : State) (st : Nat) : Prop := u.kcw.run = none ∧ (reg u R.KCW_STAT).testBit 1 = true
      ∧ reg u R.KCW_STAT / 2 ^ 2 % 2 ^ 8 = st ∧ reg u R.KCW_TAG_LO = 0 ∧ reg u R.KCW_TAG_HI = 0
    let at_ (u : State) (st : KcwStage) : Prop := ∃ x, u.kcw.run = some x ∧ x.stage = st ∧ x.opcode = r.opcode ∧ x.ops = r.ops
    let repairs (c : Instr) (P : State → Prop) : Prop :=
      EndsIn (exec c s) (fun u => taken u ∧ at_ u .mapping
        ∧ (∃ a ∈ u.accesses, a.kind = .write ∧ a.job = .mapWrite 0 false ∧ a.lines ≠ []) ∧ P u)
    clkUp s 20 = true → clkUp s 24 = true → s.boot.phase = 6 → s.kcw.run = none → formGood r = true →
    Tab.get false s.kcw.backoff r.slot = false → s.kcw.epoch = some e → slotKey s r.slot = some k →
    cmacTag (keyBytes k) (keyedMessage s r e) = r.tag → slotMark s r.slot < r.counter →
    (s.ledger.ready = true → ∀ c : Instr, (c = .setCeiling ∧ r.opcode = 2 ∨ c = .debugUnlock ∧ r.opcode = 6) →
      EndsIn (exec c s) (fun u => at_ u .journal ∧ slotMark u r.slot = r.counter
        ∧ EntryMade u (fun x => x.etype = 9 ∧ x.param = r.slot + 4 * r.opcode ∧ x.a = r.counter ∧ x.b = e.toNat)))
    ∧ (s.ledger.ready = false →
      (r.opcode = 2 →
        (s.build.size.floor ≤ w → w ≤ s.build.size.ceilMax → w < 2 ^ 16 → EndsIn (exec .setCeiling s) (fun u =>
          taken u ∧ done u 0x00 ∧ reg u R.PUR_CEIL = w ∧ reg u R.PUR_ALLOW = min w (reg s R.PUR_ALLOW)))
        ∧ (w < s.build.size.floor ∨ s.build.size.ceilMax < w ∨ 2 ^ 16 ≤ w → EndsIn (exec .setCeiling s) (fun u =>
            taken u ∧ done u 0x70 ∧ reg u R.PUR_CEIL = reg s R.PUR_CEIL ∧ reg u R.PUR_ALLOW = reg s R.PUR_ALLOW)))
      ∧ (r.opcode = 4 →
          let v := ofLE (r.ops.take 48)
          (v < 2 ^ 378 → stackSettable s = true → EndsIn (exec .setHash s) (fun u => taken u ∧ done u 0x00
            ∧ u.kcw.hashLock = true ∧ ∀ j, j < 9 → hashRow u j = v / 2 ^ (42 * j) % 2 ^ 42))
          ∧ (2 ^ 378 ≤ v ∨ stackSettable s = false → EndsIn (exec .setHash s) (fun u => taken u ∧ done u 0x70
              ∧ u.kcw.hashLock = s.kcw.hashLock ∧ ∀ j, j < 9 → hashRow u j = hashRow s j)))
      ∧ (r.opcode = 6 →
          (w ≠ 0 → w < 8 → EndsIn (exec .debugUnlock s) (fun u => taken u ∧ done u 0x00
            ∧ u.kcw.scopes = s.kcw.scopes ||| w))
          ∧ (w = 0 ∨ 8 ≤ w → EndsIn (exec .debugUnlock s) (fun u => taken u ∧ done u 0x70
              ∧ u.kcw.scopes = s.kcw.scopes)))
      ∧ (r.opcode = 1 →
          let o := readLoad r
          (∀ st, loadRefusal s o = some st → EndsIn (exec .loadImage s) (fun u => taken u ∧ done u st
            ∧ u.reserve = s.reserve))
          ∧ (loadRefusal s o = none → holder s (loadActivity o) = none → CoinsThere s [(10, (o.len + 63) / 64)] →
              EndsIn (exec .loadImage s) (fun u => taken u ∧ at_ u .image
                ∧ u.reserve.acts = s.reserve.acts ++ [loadActivity o]
                ∧ u.purse.balance + unitPrice s 10 * ((o.len + 63) / 64) = s.purse.balance)))
      ∧ (r.opcode = 5 → EndsIn (exec .zeroise s) (fun u => taken u ∧ at_ u .zeroing
          ∧ u.kcw.keys = [] ∧ u.kcw.scopes = 0 ∧ u.kcw.hashLock = false ∧ u.prog = [] ∧ u.scratch = [] ∧ u.streams = []
          ∧ u.hops = [] ∧ u.tenants = [] ∧ u.grammars = [] ∧ u.maskSets = [] ∧ u.clear.tiles = [] ∧ u.clear.rows = []
          ∧ u.reserve.acts = [] ∧ u.purse.balance = 0 ∧ u.purse.queue = [] ∧ (reg u R.LDG_CTRL).testBit 0 = false
          ∧ ∀ x : Who, (thread u x).st ≠ .running))
      ∧ (r.opcode = 3 → (p.action = 0 ∨ 4 < p.action) → EndsIn (exec .malformedKeyedCommand s) (fun u =>
          taken u ∧ done u 0x70 ∧ u.reserve = s.reserve))
      ∧ (r.opcode = 3 → repairForm w = true → repairRange s p = true → repairHolder s p = none → repairBarred s p = false →
          s.reserve.map.length < 4088 →
          (p.action = 1 → repairs .remapRow (fun u => ∀ x, unitOut s (macroClass p.cls) p.idx = false →
            (p.cls, p.idx, p.row) ∉ s.reserve.dead → p.row < 512 →
            (∀ m ∈ s.reserve.rowmap, ¬ (m.1 = p.cls ∧ m.2.1 = p.idx ∧ (m.2.2.1 = p.row ∨ m.2.2.2 = p.row))) →
            spareRow s p.cls p.idx = some x → u.reserve.rowmap = s.reserve.rowmap ++ [(p.cls, p.idx, p.row, x)]))
          ∧ (p.action = 2 → repairs .retire (fun u => unitOut s p.cls p.idx = false →
              (∀ a ∈ s.reserve.acts ++ s.reserve.waits, ¬ (a.code = 3 ∧ a.cls = p.cls ∧ a.res = p.idx)) →
              reg u R.RSV_RETIRED = satAdd 32 (reg s R.RSV_RETIRED) 1
              ∧ (unitOut u p.cls p.idx = true ∨ (⟨3, p.idx, p.cls⟩ : Activity) ∈ u.reserve.acts)))
          ∧ (p.action = 3 → repairs .restore (fun u => unitOut u p.cls p.idx = false
              ∨ (p.cls < 4 ∧ (⟨3, p.idx, p.cls⟩ : Activity) ∈ u.reserve.acts)))
          ∧ (p.action = 4 → repairs .margin (fun u => stepOfDomain u p.cls = p.idx
              ∧ u.reserve.vask = (if s.reserve.vreq = p.row ∧ s.reserve.vask = [] then [] else s.reserve.vask ++ [(p.row, 4)])))))

/-- KEY_EPOCH while the KEY domain runs: the first epoch is latched, a different later one sets EPOCH_ERR, the same
one changes nothing. KEY_DELIVERY and KEY_CLEAR after the epoch, of slots 0 to 3, put the key into the slot or empty
it and change nothing else; otherwise they do nothing. DLOCK closes every scope. TAG_BACKOFF_END of a slot on which
a command waits makes it be checked: without key or epoch it ends with ST_KEY_EMPTY, with a wrong tag with ST_TAG,
counted, the slot in back-off again after eight in a row, with a counter not above the mark with ST_COUNTER.
MALFORMED_KEYED_COMMAND: a command of an opcode outside Table 12.1 ends with ST_BAD_OP and touches no mark.
IMAGE_LOAD_DONE of the load that reads its image: a failed read and a tag that is not that of the operands end it,
with the status of the read and with ST_IMAGE; a program goes into the program memory of every named CLERK whose
domain is up; a grammar image that passes its checks is being written to the GRAM region, a mask set to its extent.
ZEROISE_DONE ends ZEROISE with ST_OK. This is before what follows by itself. Each of LOAD_IMAGE, SET_CEILING, the four
forms of REPAIR, SET_HASH, ZEROISE and DEBUG_UNLOCK, with its command in the window, no command running, and every check
of R404 and R405 passed, is taken: with the journal not ready its mark is raised and pending and it is carried out; with
the journal ready its mark is raised, its HWM entry is journalled, and once that entry is in both mirrors it is carried
out. That back-off is checked after the format and before the key, and that its end does not reset the count of failures,
are the choices of the model (log entry 96). (R58, R400, R403, R404, R405, R406, R407, R408, R410, R411, R417, R531) -/
def Obligations.KeysAndKeyedEnds : Prop :=
  ∀ s : State,
    let done (u : State) (st : Nat) : Prop := u.kcw.run = none ∧ (reg u R.KCW_STAT).testBit 1 = true
      ∧ reg u R.KCW_STAT / 2 ^ 2 % 2 ^ 8 = st ∧ reg u R.KCW_TAG_LO = 0 ∧ reg u R.KCW_TAG_HI = 0
    (∀ e : Word, clkUp s 24 = true →
      (s.kcw.epoch = none → exec (.keyEpoch e) s = .next { s with kcw := { s.kcw with epoch := some e } })
      ∧ (s.kcw.epoch = some e → exec (.keyEpoch e) s = .next s)
      ∧ (∀ x, s.kcw.epoch = some x → x ≠ e →
          exec (.keyEpoch e) s = .next (setReg R.KCW_STAT (reg s R.KCW_STAT ||| 2 ^ 11) s)))
    ∧ (∀ (n : BitVec 3) (k : BitVec 128),
        let sets (c : Instr) (x : Option (BitVec 128)) : Prop := Answers (exec c s) (fun u => slotKey u n.toNat = x
          ∧ (∀ m, m ≠ n.toNat → slotKey u m = slotKey s m) ∧ { u with kcw := { u.kcw with keys := s.kcw.keys } } = s)
        (clkUp s 24 = true → n.toNat < 4 → s.kcw.epoch ≠ none → sets (.keyDelivery n k) (some k) ∧ sets (.keyClear n) none)
        ∧ (clkUp s 24 = false ∨ 4 ≤ n.toNat ∨ s.kcw.epoch = none →
            exec (.keyDelivery n k) s = .next s ∧ exec (.keyClear n) s = .next s))
    ∧ (clkUp s 20 = true → exec .dlock s = .next { s with regOut := 0, kcw := { s.kcw with scopes := 0 } })
    ∧ (∀ (n : BitVec 3) (r : KcwRun), s.kcw.run = some r → r.stage = .backoff → r.slot = n.toNat → s.boot.phase = 6 →
        clkUp s 24 = true → formGood r = true →
        let fails := Tab.get 0 s.kcw.fails r.slot
        ((s.kcw.epoch = none ∨ slotKey s r.slot = none) → EndsIn (exec (.tagBackoffEnd n) s) (fun u =>
          done u 0x32 ∧ Tab.get false u.kcw.backoff r.slot = false))
        ∧ (∀ e k, s.kcw.epoch = some e → slotKey s r.slot = some k →
            (cmacTag (keyBytes k) (keyedMessage s r e) ≠ r.tag → EndsIn (exec (.tagBackoffEnd n) s) (fun u =>
              done u 0x30 ∧ reg u R.KCW_TAGFAIL = satAdd 32 (reg s R.KCW_TAGFAIL) 1
              ∧ Tab.get 0 u.kcw.fails r.slot = min (fails + 1) 8
              ∧ Tab.get false u.kcw.backoff r.slot = decide (8 ≤ fails + 1) ∧ u.kcw.marks = s.kcw.marks))
            ∧ (cmacTag (keyBytes k) (keyedMessage s r e) = r.tag → r.counter ≤ slotMark s r.slot →
                EndsIn (exec (.tagBackoffEnd n) s) (fun u => done u 0x31 ∧ u.kcw.marks = s.kcw.marks
                  ∧ reg u R.KCW_CTRFAIL = satAdd 32 (reg s R.KCW_CTRFAIL) 1 ∧ Tab.get 0 u.kcw.fails r.slot = 0))))
    ∧ (clkUp s 20 = true → clkUp s 24 = true → s.boot.phase = 6 → s.kcw.run = none →
        keyedForm (windowRun s).opcode = none → EndsIn (exec .malformedKeyedCommand s) (fun u =>
          done u 0x70 ∧ u.kcw.marks = s.kcw.marks ∧ u.kcw.fails = s.kcw.fails ∧ u.reserve = s.reserve
          ∧ RegsKept [R.KCW_STAT, R.KCW_TAG_LO, R.KCW_TAG_HI] s u))
    ∧ (∀ (r : KcwRun) (data : List Byte), s.kcw.run = some r → r.opcode = 1 → r.stage = .image →
        let o := readLoad r
        let x := Instr.imageLoadDone data 0x00
        targetInUse r data = false →
        (∀ st : Byte, st = 0x52 ∨ st = 0x53 → EndsIn (exec (.imageLoadDone data st) s) (fun u => done u st.toNat
          ∧ u.prog = s.prog ∧ u.tenants = s.tenants ∧ u.grammars = s.grammars ∧ u.maskSets = s.maskSets))
        ∧ (data.length = o.len → cmacTag (keyBytes r.key) data ≠ o.tag → EndsIn (exec x s) (fun u => done u 0x71
            ∧ u.prog = s.prog ∧ u.tenants = s.tenants ∧ u.grammars = s.grammars ∧ u.maskSets = s.maskSets))
        ∧ (data.length = o.len → cmacTag (keyBytes r.key) data = o.tag →
            (o.kind = 0 → o.len ≤ 65536 → EndsIn (exec x s) (fun u => done u 0x00
              ∧ ∀ c i, c < 8 → o.target.testBit c = true → pdUp s (1 + c / 2) = true → 8 * i + 8 ≤ o.len →
                  Tab.get 0 u.prog (8192 * c + i) = BitVec.ofNat 64 (ofLE ((data.drop (8 * i)).take 8))))
            ∧ (∀ g, o.kind = 2 → gramImage data = some g → grammarRefused s o.target g = none →
                EndsIn (exec x s) (fun u => (∃ y, u.kcw.run = some y ∧ y.stage = .placing)
                  ∧ ∃ a ∈ u.accesses, a.kind = .write ∧ a.job = .placedGrammar o.target g))
            ∧ (∀ im m, o.kind = 3 → setImage data = some im → im.vocab ≤ s.build.size.maxVocab → regionSize s 5 ≠ 0 →
                placeSet s im = some m → (checkBytes m).length ≤ regionSize s 4 → regionSize s 4 ≠ 0 →
                EndsIn (exec x s) (fun u => (∃ y, u.kcw.run = some y ∧ y.stage = .placing)
                  ∧ ∃ a ∈ u.accesses, a.kind = .write ∧ a.job = .placedSet o.target m))))
    ∧ (∀ r : KcwRun, s.kcw.run = some r → r.opcode = 5 → r.stage = .zeroing →
        Answers (exec .zeroiseDone s) (fun u => done u 0x00 ∧ u.kcw.marks = s.kcw.marks ∧ u.streams = s.streams))
    ∧ (∀ (c : Instr) (k : BitVec 128) (e : Word),
        let r := windowRun s
        let action := (readRepair (operandWord r 0)).action
        (c = .loadImage ∧ r.opcode = 1 ∨ c = .setCeiling ∧ r.opcode = 2 ∨ c = .remapRow ∧ r.opcode = 3 ∧ action = 1
          ∨ c = .retire ∧ r.opcode = 3 ∧ action = 2 ∨ c = .restore ∧ r.opcode = 3 ∧ action = 3
          ∨ c = .margin ∧ r.opcode = 3 ∧ action = 4 ∨ c = .setHash ∧ r.opcode = 4 ∨ c = .zeroise ∧ r.opcode = 5
          ∨ c = .debugUnlock ∧ r.opcode = 6) →
        clkUp s 20 = true → clkUp s 24 = true → s.boot.phase = 6 → s.kcw.run = none → formGood r = true →
        Tab.get false s.kcw.backoff r.slot = false → s.kcw.epoch = some e → slotKey s r.slot = some k →
        cmacTag (keyBytes k) (keyedMessage s r e) = r.tag → slotMark s r.slot < r.counter →
        let z : State := setReg R.KCW_DONE (satAdd 32 (reg s R.KCW_DONE) 1) { s with regOut := 0, kcw := { s.kcw with
          run := some { r with key := k }, marks := Tab.set 0 s.kcw.marks r.slot r.counter,
          fails := Tab.set 0 s.kcw.fails r.slot 0 } }
        (s.ledger.ready = false → exec c s = .next (sweep (carryOut { z with kcw := { z.kcw with hwmPend := true } })))
        ∧ (s.ledger.ready = true → EndsIn (exec c s) (fun u =>
            u.kcw.run = some { r with key := k, stage := .journal } ∧ u.kcw.marks = z.kcw.marks
            ∧ EntryMade u (fun x => x.etype = 9 ∧ x.param = r.slot + 4 * r.opcode ∧ x.a = r.counter ∧ x.b = e.toNat)))
        ∧ ∀ u x, u.kcw.run = some x → x.stage = .journal → x.slot = r.slot → x.counter = r.counter →
            runAfter (.hwm r.slot r.counter) u = carryOut u)

/-- PATROL_SCRUB, of a pass that runs and that no activity bars, with its lookups paid: a visit that finds nothing counts and changes nothing
else but what a purchase changes; a correctable word is noted for its row and counted for VAULT; an uncorrectable
VAULT word makes its bank poisoned or absent; of a bank that the scrub has left for a reload nothing is noted; the last
visit ends the pass: RSV_SCRUB_PASS counts and the rows noted become those of the pass before; after a visit what waited
for its reads begins. SCRUB_PASS_START with RESERVE up starts a pass with nothing noted that leaves the banks under
reload, or is refused with ST_BUSY_MAINT while one runs. SLACK_SWEEP starts the sweep of one of the four domains or lets it wait behind
what conflicts; SWEEP_REQUEST does the same for the driver or is refused. SWEEP_END records the slacks of the domain
in the first sweep that runs; with the planner on, a least slack under MARGIN_LO asks for 10 mV more when none is
asked for and VMAX allows it, one above MARGIN_HI takes a clock step back, and one between changes nothing. VREQ_ACK
puts the request in force, with SCALE at the next tick; VREQ_NAK sets VNAK, and a domain below step 3 goes a step
up. PENDING_POP takes the oldest pending entry. (R433, R449, R450, R452, R453, R455, R456, R461, R471) -/
def Obligations.ScrubSweepAndRail : Prop :=
  ∀ s : State,
    let least (u : State) (d : Nat) : Int := slackOf u d (leastCanary u d)
    let visits (xs : List ScrubFinding) (P : State → Prop) : Prop :=
      EndsIn (exec (.patrolScrub xs) s) (fun u => ∃ v, u = startWaiting v ∧ P v)
    (scrubRuns s = true → scrubBarred s = false → clkUp s 3 = true → CoinsThere s (visitBill s) →
      (s.reserve.visits + 1 < passVisits s →
        (∀ xs : List ScrubFinding, (∀ x ∈ xs, findingLeft s x = true) → visits xs (fun u => u.reserve = { s.reserve with visits := s.reserve.visits + 1 }
          ∧ PurseKept s u ∧ RegsKept [R.PUR_SPENT_LO, R.PUR_SPENT_HI] s u
          ∧ { u with reserve := s.reserve, purse := s.purse, regs := s.regs } = s))
        ∧ (∀ f m r, let x := (macroName f.toNat m.toNat, r.toNat)
            findingLeft s (.corrected f m r) = false → visits [.corrected f m r] (fun u =>
              u.reserve.weakNew = (if x ∈ s.reserve.weakNew then s.reserve.weakNew else s.reserve.weakNew ++ [x])
              ∧ reg u R.VLT_CORR = satAdd 32 (reg s R.VLT_CORR) (if f = 0 then 1 else 0)
              ∧ u.reserve.visits = s.reserve.visits + 1))
        ∧ (∀ m r ns b, servedBank s (m.toNat / 96) = some b → findingLeft s (.dead 0 m r ns) = false →
            visits [.dead 0 m r ns] (fun u =>
            (b ∈ u.reserve.poisoned ∨ b ∈ u.reserve.absent) ∧ u.reserve.visits = s.reserve.visits + 1)))
      ∧ (passVisits s ≤ s.reserve.visits + 1 → visits [] (fun u =>
          reg u R.RSV_SCRUB_PASS = satAdd 32 (reg s R.RSV_SCRUB_PASS) 1
          ∧ u.reserve.weakOld = s.reserve.weakNew ∧ u.reserve.weakNew = [] ∧ u.reserve.visits = 0)))
    ∧ (clkUp s 20 = true → reserveUp s = true →
        (holder s scrubAct = none → Answers (exec .scrubPassStart s) (fun u =>
          u.reserve = { s.reserve with
            acts := s.reserve.acts ++ [scrubAct], visits := 0, weakNew := [], dirty := [], left := reloading s }
          ∧ reg u R.RSV_MSTAT / 2 ^ 16 % 2 ^ 8 = 0x00 ∧ RegsKept [R.RSV_MSTAT] s u))
        ∧ (∀ h, holder s scrubAct = some h → Answers (exec .scrubPassStart s) (fun u => u.reserve = s.reserve
            ∧ reg u R.RSV_MSTAT / 2 ^ 16 % 2 ^ 8 = 0x40 ∧ reg u R.RSV_REFUSED = satAdd 32 (reg s R.RSV_REFUSED) 1)))
    ∧ (∀ d : Fin 25, reserveUp s = true → clkUp s 25 = true → d.val < 4 → reg s R.RSV_AGE % 2 ^ 8 ≠ 0 →
        (holder s (sweepAct d.val) = none → exec (.slackSweep d) s
          = .next { s with reserve := { s.reserve with acts := s.reserve.acts ++ [sweepAct d.val] } })
        ∧ (holder s (sweepAct d.val) ≠ none → exec (.slackSweep d) s
          = .next { s with reserve := { s.reserve with waits := s.reserve.waits ++ [sweepAct d.val] } }))
    ∧ (∀ v : Word32, clkUp s 20 = true → reserveUp s = true → clkUp s 25 = true →
        let d := v.toNat / 2 ^ 4 % 4
        (holder s (sweepAct d) = none → Answers (exec (.sweepRequest v) s) (fun u =>
          u.reserve = { s.reserve with acts := s.reserve.acts ++ [sweepAct d] }
          ∧ reg u R.RSV_MSTAT / 2 ^ 16 % 2 ^ 8 = 0x00 ∧ reg u R.RSV_MCTRL = v.toNat % 64))
        ∧ (∀ h, holder s (sweepAct d) = some h → Answers (exec (.sweepRequest v) s) (fun u => u.reserve = s.reserve
            ∧ reg u R.RSV_MSTAT / 2 ^ 16 % 2 ^ 8 = 0x40 ∧ reg u R.RSV_REFUSED = satAdd 32 (reg s R.RSV_REFUSED) 1)))
    ∧ (∀ (a : Activity) (xs : List Slack), sweepUnderWay s = some a → clkUp s 25 = true →
        EndsIn (exec (.sweepEnd xs) s) (fun u => reg u R.RSV_SWEEPS = satAdd 32 (reg s R.RSV_SWEEPS) 1
          ∧ (∀ i x, i < 24 → xs[i]? = some x → Tab.get 0 u.reserve.slack (24 * a.res + i) = x.toNat)
          ∧ let m := least u a.res
            let lo : Int := (reg s R.RSV_AGE / 2 ^ 16 % 2 ^ 8 : Nat)
            let hi : Int := (reg s R.RSV_AGE / 2 ^ 24 % 2 ^ 8 : Nat)
            let still := u.reserve.vask = s.reserve.vask ∧ u.reserve.steps = s.reserve.steps
            ((reg s R.RSV_AGE).testBit 8 = false → still)
            ∧ ((reg s R.RSV_AGE).testBit 8 = true → reserveUp s = true →
                (m < lo → (∀ x ∈ s.reserve.vask, 4 ≤ x.2) → s.reserve.vreq + 10 ≤ vmax s →
                  u.reserve.vask = s.reserve.vask ++ [(0, a.res)] ∧ u.reserve.steps = s.reserve.steps)
                ∧ (m < lo → (∀ x ∈ s.reserve.vask, 4 ≤ x.2) → vmax s < s.reserve.vreq + 10 → stepOfDomain s a.res < 3 →
                    stepOfDomain u a.res = stepOfDomain s a.res + 1 ∧ u.reserve.vask = s.reserve.vask)
                ∧ (lo ≤ m → hi < m → 0 < stepOfDomain s a.res →
                    stepOfDomain u a.res = stepOfDomain s a.res - 1 ∧ u.reserve.vask = s.reserve.vask)
                ∧ (lo ≤ m → m ≤ hi → still))))
    ∧ (∀ mv d rest, s.reserve.vask = (mv, d) :: rest →
        EndsIn (exec .vreqAck s) (fun u => u.reserve.vreq = (if d < 4 then s.reserve.vreq + 10 else mv)
          ∧ u.purse.nextScale = some ((u.reserve.vreq * 2048 + 750) / 1500)
          ∧ reg u R.RSV_VSTEPS = satAdd 32 (reg s R.RSV_VSTEPS) (if d < 4 then 1 else 0))
        ∧ EndsIn (exec .vreqNak s) (fun u => u.reserve.vreq = s.reserve.vreq ∧ (reg u R.RSV_STAT).testBit 6 = true
            ∧ (rest = [] → u.reserve.vask = []
                ∧ (d < 4 → stepOfDomain s d < 3 → stepOfDomain u d = stepOfDomain s d + 1))))
    ∧ (clkUp s 20 = true →
        exec .pendingPop s = .next { s with regOut := 0, reserve := { s.reserve with pending := s.reserve.pending.drop 1 } })

/-- STRIPE_SLOTS_FREED and VAULT_UNITS_FREED keep of the replaced images of a slot just those still in use, by an
open search and by pieces or an open search. SORTER_THERMAL_SAMPLE: a hottest valid input at or above the threshold
of a higher step (95, 100, 105 degrees) raises the step to it, one at 2 degrees or more below the threshold of the
step lowers it by one, and one between keeps it; nine samples without an input change no step, the tenth counts as
105 degrees. VAULT_RELOAD_DONE, once no golden copy of the bank is being read, ends the poison of a poisoned bank
and counts it, before what follows by itself; while one is read nothing changes. TILE_RELOAD_DONE ends the reload of
its tile. SPARE_SWAP_DONE of a class with spares, once its bank is filled: a unit in service is replaced by the
first free spare, which stands in for its function, and a unit out of service is back. UNIT_MISSING in the phases up
to roll call, of a built unit or port not missing yet, marks it missing, a unit with a pending RETIRE entry unless
the ring is full; from roll call on, of a domain that is being switched on again, its unit is noted as silent, which is
the choice of the model (log entry 171). (R192, R195, R198, R224, R392, R425, R439, R470, R490, R504) -/
def Obligations.FillsEndAndUnitsGoMissing : Prop :=
  ∀ s : State,
    (∀ k : BitVec 4,
      (Answers (exec (.stripeSlotsFreed k) s) (fun u => u.tenants = (setTenant k.toNat
          { tenant s k.toNat with oldRows := (tenant s k.toNat).oldRows.filter (fun r => rowsInUse s k.toNat r.gen) } s).tenants
        ∧ tenant u k.toNat
          = { tenant s k.toNat with oldRows := (tenant s k.toNat).oldRows.filter (fun r => rowsInUse s k.toNat r.gen) }
        ∧ (∀ m, m ≠ k.toNat → tenant u m = tenant s m) ∧ { u with tenants := s.tenants } = s))
      ∧ Answers (exec (.vaultUnitsFreed k) s) (fun u => tenant u k.toNat = { tenant s k.toNat with
            oldUnits := (tenant s k.toNat).oldUnits.filter (fun r => tablesInUse s k.toNat r.gen || rowsInUse s k.toNat r.gen) }
          ∧ (∀ m, m ≠ k.toNat → tenant u m = tenant s m) ∧ { u with tenants := s.tenants } = s))
    ∧ (∀ ts : List (BitVec 9),
        let t : Int := if ts.isEmpty then 105 else hottest ts
        let o := exec (.sorterThermalSample ts) s
        (ts = [] → s.sortDead + 1 < 10 → o = .next { s with sortDead := s.sortDead + 1 })
        ∧ ((ts ≠ [] ∨ 10 ≤ s.sortDead + 1) → Answers o (fun u =>
            u.sortTemp = (BitVec.ofInt 9 t).toNat ∧ u.sortDead = (if ts.isEmpty then s.sortDead + 1 else 0)
            ∧ (∀ n : Nat, s.sortStep < n → n ≤ 3 → 90 + 5 * (n : Int) ≤ t → (n = 3 ∨ t < 95 + 5 * (n : Int)) → u.sortStep = n)
            ∧ (s.sortStep ≠ 0 → t ≤ 88 + 5 * (s.sortStep : Int) → u.sortStep = s.sortStep - 1)
            ∧ ((s.sortStep = 0 ∨ 88 + 5 * (s.sortStep : Int) < t) → (3 ≤ s.sortStep ∨ t < 95 + 5 * (s.sortStep : Int)) →
                u.sortStep = s.sortStep))))
    ∧ (∀ (b : BitVec 4) (a : Activity),
        s.reserve.acts.find? (fun a => decide (a.code = 5) && decide (a.res = b.toNat)) = some a →
        (goldenBusy s b.toNat = true → exec (.vaultReloadDone b) s = .next s)
        ∧ (goldenBusy s b.toNat = false → b.toNat ∈ s.reserve.poisoned → EndsIn (exec (.vaultReloadDone b) s) (fun u =>
            b.toNat ∉ u.reserve.poisoned ∧ b.toNat ∉ u.reserve.absent
            ∧ reg u R.AUD_POISON = satAdd 32 (reg s R.AUD_POISON) 1)))
    ∧ (∀ (n : BitVec 7) (a : Activity),
        s.reserve.acts.find? (fun a => decide (a.code = 4) && decide (a.res = n.toNat)) = some a →
        exec (.tileReloadDone n) s = .next (startWaiting { s with reserve := { s.reserve with acts := s.reserve.acts.erase a } })
        ∧ (s.reserve.waits = [] → exec (.tileReloadDone n) s
            = .next { s with reserve := { s.reserve with acts := s.reserve.acts.erase a } }))
    ∧ (∀ a : Activity, s.reserve.acts.find? (fun a => decide (a.code = 3)) = some a → a.cls < 4 →
        (stillFilling s a = true → exec .spareSwapDone s = .next s)
        ∧ (stillFilling s a = false →
            (unitOut s a.cls a.res = true → EndsIn (exec .spareSwapDone s) (fun u => unitOut u a.cls a.res = false))
            ∧ (∀ p rest, unitOut s a.cls a.res = false → (freeSpares s a.cls).filter (· != a.res) = p :: rest →
                EndsIn (exec .spareSwapDone s) (fun u => unitOut u a.cls a.res = true
                  ∧ (a.cls, functionOf s a.cls a.res, p) ∈ u.reserve.stand))))
    ∧ (∀ x : UnitId,
        (1 ≤ s.boot.phase → s.boot.phase ≤ 3 → x.cls.toNat < 11 → portMissing s x.cls.toNat x.idx.toNat = false →
          x.idx.toNat < unitsBuilt s.build.size x.cls.toNat → (x.cls.toNat < 7 → leaving s x.cls.toNat x.idx.toNat = false) →
          (s.boot.phase = 3 →
            Tab.get .off s.power.pds (unitDomain s.build.size x.cls.toNat x.idx.toNat) ≠ .powered) →
          Answers (exec (.unitMissing x) s) (fun u => u.boot.missing = s.boot.missing ++ [x]
            ∧ (x.cls.toNat < 7 → s.reserve.pending.length < 16 →
                (⟨2, x.cls.toNat, x.idx.toNat, 0⟩ : Repair) ∈ u.reserve.pending)))
        ∧ (3 ≤ s.boot.phase → x.cls.toNat < 11 → x.idx.toNat < unitsBuilt s.build.size x.cls.toNat →
            Tab.get .off s.power.pds (unitDomain s.build.size x.cls.toNat x.idx.toNat) = .powered →
            Answers (exec (.unitMissing x) s) (fun u => x ∈ u.power.silent
              ∧ { u with power := s.power } = s)))

/-- While the window is up. REGISTER_WRITE of a register without an effect of its own: stored bits take the value,
bits cleared by a 1 are cleared, no other register and nothing else changes; at a reserved offset nothing happens; a
register whose write is a command of its own takes the effect of that command. PAIR_LO_READ of a latched pair gives
the contents of the low half, and the next read of its high half gives what it was then; of LDG_QPOP_LO it gives
what the pop gives. COUNTER_LO_WRITE changes no register, and the next write of the high half sets both. SRQ_FORCE
adds its bits to SRQ_EVT. WDOG_KICK with 0xA5 reloads the count, any other value does nothing; WDOG_EXPIRE, with a
period set and the count at 1, sets WDOG_EXP, and with HALT every running thread stands HALTED or stops after what
it waits for. IEEE_1687_ACCESS with its domain up: a register read or write under scope bit 2 acts as the window
does and answers ST_OK with what was read, or ST_RESOURCE when it loses the port; a canary read answers its view, or
ST_RESOURCE while a sweep uses it; a scan access in test mode answers ST_OK with a free value and changes nothing else, and
outside test mode answers 0. Each write of the register port leaves read data 0. The layout of an answer and that a free
value stands for what the chains give are the choices of the model (log entries 118 and 190). (R25, R465, R492, R493,
R495, R513, R518, R520, R521) -/
def Obligations.RegistersAndInstruments : Prop :=
  ∀ s : State,
    let s0 : State := { s with regOut := 0 }
    let answer (u : State) (st v : Nat) : Prop := u.testOut.toNat = v + st * 2 ^ 32
    (clkUp s 20 = true →
      (∀ (off : BitVec 16) (v : Word32) (r : RegSpec),
        let o := off.toNat
        ((regSpec o = none ∨ unbuiltReg s o = true) → exec (.registerWrite off v) s = .next s0)
        ∧ (regSpec o = some r → unbuiltReg s o = false → (writeUnits o v.toNat).isNone = true →
            (writeBase o v.toNat).isNone = true → Answers (exec (.registerWrite off v) s) (fun u =>
              (∀ i, i < 32 → (reg u o).testBit i = (!(r.clear.testBit i && v.toNat.testBit i)
                && (if r.store.testBit i then v.toNat.testBit i else (reg s o).testBit i)))
              ∧ RegsKept [o] s u ∧ { u with regs := s.regs } = s0)))
      ∧ (∀ v : Word32,
          exec (.registerWrite (BitVec.ofNat 16 R.PWR_RST) v) s = exec (.pwrRst v) s
          ∧ exec (.registerWrite (BitVec.ofNat 16 R.PWR_PDRETRY) v) s = exec (.pdRetry v) s
          ∧ exec (.registerWrite (BitVec.ofNat 16 R.PWR_PDCTRL) v) s = exec (.pdSwitch v) s
          ∧ exec (.registerWrite (BitVec.ofNat 16 R.PWR_WDOG_KICK) v) s = exec (.wdogKick v) s
          ∧ exec (.registerWrite (BitVec.ofNat 16 R.SRQ_FORCE) v) s = exec (.srqForce v) s
          ∧ exec (.registerWrite (BitVec.ofNat 16 R.LDG_CTRL) v) s = exec (.journalEnable v) s
          ∧ exec (.registerWrite (BitVec.ofNat 16 R.LDG_SETTLED_HI) v) s = exec (.settlePush v) s
          ∧ exec (.registerWrite (BitVec.ofNat 16 R.LDG_QCFG) v) s = exec (.queueFlush v) s
          ∧ exec (.srqForce v) s = .next (setReg R.SRQ_EVT (reg s R.SRQ_EVT ||| v.toNat % 2 ^ 16) s0)
          ∧ exec (.wdogKick v) s = .next (if v = 0xA5
              then { s0 with power := { s.power with wdog := reg s R.PWR_WDOG % 2 ^ 16 } } else s0))
      ∧ (∀ off : BitVec 16,
          (off.toNat ∈ latchedPairs → off.toNat ≠ R.LDG_QPOP_LO → Answers (exec (.pairLoRead off) s) (fun u =>
            u.regOut = BitVec.ofNat 32 (readReg s off.toNat) ∧ { u with regOut := s.regOut, latch := s.latch } = s
            ∧ ∃ t, exec (.pairLoRead (off + 4)) u = .next t ∧ t.regOut = BitVec.ofNat 32 (readReg s (off.toNat + 4))))
          ∧ (off.toNat = R.LDG_QPOP_LO → Answers (exec (.pairLoRead off) s) (fun u => u.regOut = (popQueue s).regOut
              ∧ ∀ q, q < 4 → queueN u q = queueN (popQueue s) q))
          ∧ (off.toNat ∈ counterPairs → ∀ lo : Word32, Answers (exec (.counterLoWrite off lo) s) (fun u =>
              { u with heldLo := s.heldLo } = s0
              ∧ ∀ hi : Word32, Answers (exec (.registerWrite (off + 4) hi) u) (fun t =>
                  reg t off.toNat = lo.toNat ∧ reg t (off.toNat + 4) = hi.toNat
                  ∧ RegsKept [off.toNat, off.toNat + 4] s t)))))
    ∧ (purseUp s = true → reg s R.PWR_WDOG % 2 ^ 16 ≠ 0 → s.power.wdog = 1 →
        let t := setReg R.PWR_STAT (reg s R.PWR_STAT ||| 2 ^ 5) { s with power := { s.power with wdog := 0 } }
        ((reg s R.PWR_WDOG).testBit 16 = false → exec .wdogExpire s = .next t)
        ∧ ((reg s R.PWR_WDOG).testBit 16 = true → EndsIn (exec .wdogExpire s) (fun u =>
            reg u R.PWR_STAT = reg t R.PWR_STAT ∧ u.power = t.power
            ∧ ∀ w : Who, (thread s w).st = .running →
                ((thread s w).wait ≠ .busy → (thread u w).st = .halted ∧ (thread u w).pc = (thread s w).pc)
                ∧ ((thread s w).wait = .busy → thread u w = { thread s w with stopAfter := true }))))
    ∧ (dbgUp s = true →
        (clkUp s 20 = true → s.kcw.scopes.testBit 2 = true →
          (∀ off : BitVec 16, Answers (exec (.ieee1687Access (.regRead off false)) s) (fun u =>
            ∃ t, exec (.pairLoRead off) s = .next t ∧ answer u 0x00 t.regOut.toNat
              ∧ { u with testOut := t.testOut, regOut := t.regOut } = t ∧ u.regOut = s.regOut))
          ∧ (∀ (off : BitVec 16) (v : Word32), Answers (exec (.ieee1687Access (.regWrite off v false)) s) (fun u =>
              ∃ t, exec (.registerWrite off v) s = .next t ∧ answer u 0x00 0
                ∧ { u with testOut := t.testOut, regOut := t.regOut } = t))
          ∧ (∀ (off : BitVec 16) (v : Word32), ∀ a ∈ [TestAccess.regRead off true, TestAccess.regWrite off v true],
              Answers (exec (.ieee1687Access a) s) (fun u => answer u 0x41 0
                ∧ reg u R.PWR_RESCNT = satAdd 32 (reg s R.PWR_RESCNT) 1 ∧ (reg u R.PWR_RES).testBit 3 = true)))
        ∧ (∀ n : BitVec 7,
            (samplerBusy s (n.toNat / 24) = false →
              Answers (exec (.ieee1687Access (.canary n)) s) (fun u => answer u 0x00 (canaryView s n.toNat % 2 ^ 32)
                ∧ { u with testOut := s.testOut } = s))
            ∧ (samplerBusy s (n.toNat / 24) = true →
              Answers (exec (.ieee1687Access (.canary n)) s) (fun u => answer u 0x41 0
                ∧ reg u R.PWR_RESCNT = satAdd 32 (reg s R.PWR_RESCNT) 1)))
        ∧ (s.power.testMode = false → exec (.ieee1687Access .scan) s = .next { s with testOut := 0 })
        ∧ (s.power.testMode = true → Answers (exec (.ieee1687Access .scan) s) (fun u =>
            answer u 0x00 (Config.freeValue s.free % 2 ^ 32)
            ∧ { u with testOut := s.testOut, free := s.free } = s)))
    ∧ (dbgUp s = false → ∀ a, exec (.ieee1687Access a) s = .next { s with testOut := 0 })

/-- BLOCK_RESET leaves every register at its reset value, no thread, stream, item, access or purchase, and every
domain in reset; the waiting commands, the build and the identity stay. PD_BASE_LEAVES_RESET of a block that is down
latches the identity, leaves no mark and no epoch, the beat port frozen with CAUSE 0, and in reset only what an
input holds. DOMAIN_RESET of a domain with a reset input holds it in reset, shows it in PWR_RSTSEEN, freezes the
beat port with CAUSE 0 for BEAT and drops held counter halves for REG; while PD_BASE is down the input is only noted, and
holds the domain when PD_BASE leaves reset. PWR_RST holds every built domain it names,
but for bits 19, 21 and 23, whose clock runs and which is not in such a reset; a domain not named stays up.
RESET_RELEASE and INTERFACE_RESET_RELEASE end their hold; the domain is up when nothing else holds it and its clock
runs. CLOCK_LOST holds the domain in reset, counts, sets PWR_STAT.CLKLOSS and clears PWR_CLKOK; CLOCK_RESTORED sets
it again, and the domain is up unless something holds it. TEST_MODE empties keys and scopes and holds every domain
but DBG in reset. (R7, R474, R477, R480, R481, R482, R494, R526) -/
def Obligations.ResetsAndClocks : Prop :=
  ∀ s : State,
    (Answers (exec .blockReset s) (fun u => (∀ off, reg u off = (regReset s.build off).toNat) ∧ u.threads = []
        ∧ u.streams = [] ∧ u.ledger = LedgerState.closed ∧ u.accesses = [] ∧ u.purse.queue = [] ∧ u.pending = s.pending
        ∧ u.build = s.build ∧ u.instId = s.instId ∧ (∀ d, pdUp u d = false) ∧ ∀ d, 1 ≤ d → d ≤ 25 → clkUp u d = false))
    ∧ (∀ i : Word,
        (pdUp s 0 = true → exec (.pdBaseLeavesReset i) s = .next s)
        ∧ (pdUp s 0 = false → Answers (exec (.pdBaseLeavesReset i) s) (fun u => u.instId = i ∧ u.kcw.epoch = none
            ∧ (∀ n, slotMark u n = 0) ∧ u.beat.frozen = true ∧ u.beat.cause = 0 ∧ u.beat.pos = 0 ∧ pdUp u 0 = true
            ∧ (∀ off, reg u off = (regReset s.build off).toNat)
            ∧ ∀ d, 1 ≤ d → d ≤ 25 → (clkUp u d = true ↔ d ∉ s.power.byPin ∧ d ∉ s.power.lostClk))))
    ∧ (∀ f : Fin 25,
        let d := f.val + 1
        (pdUp s 0 = true →
          (hasPin d = true → d ∉ s.power.byPin → Answers (exec (.domainReset f) s) (fun u =>
            clkUp u d = false ∧ d ∈ u.power.byPin
            ∧ (clkUp s d = true → (reg u R.PWR_RSTSEEN).testBit (d - 1) = true
                ∧ (d = 21 → u.beat.frozen = true ∧ u.beat.cause = 0) ∧ (d = 20 → u.heldLo = []))))
          ∧ (d ∈ s.power.byPin → Answers (exec (.interfaceResetRelease f) s) (fun u => d ∉ u.power.byPin
              ∧ (d ∉ s.power.byReg → s.power.testMode = false → d ∉ s.power.lostClk → clkUp u d = true)
              ∧ (d ∈ s.power.byReg → d ∈ s.power.held → clkUp u d = false)))
          ∧ (d ∉ s.power.lostClk → Answers (exec (.clockLost f) s) (fun u => clkUp u d = false ∧ d ∈ u.power.lostClk
              ∧ reg u R.PWR_CLKLOSS = satAdd 32 (reg s R.PWR_CLKLOSS) 1 ∧ (reg u R.PWR_STAT).testBit 4 = true
              ∧ (reg u R.PWR_CLKOK).testBit (d - 1) = false))
          ∧ (d ∈ s.power.lostClk → Answers (exec (.clockRestored f) s) (fun u => d ∉ u.power.lostClk
              ∧ (reg u R.PWR_CLKOK).testBit (d - 1) = true ∧ (d ∉ s.power.held → clkUp u d = true)
              ∧ (d ∈ s.power.held → clkUp u d = false))))
        ∧ (pdUp s 0 = false → hasPin d = true → Answers (exec (.domainReset f) s) (fun u => d ∈ u.power.byPin
            ∧ { u with power := s.power } = s))
        ∧ (d ∈ s.power.byReg → Answers (exec (.resetRelease f) s) (fun u => d ∉ u.power.byReg
            ∧ (d ∉ s.power.byPin → s.power.testMode = false → d ∉ s.power.lostClk → clkUp u d = true)
            ∧ (d ∈ s.power.byPin → d ∈ s.power.held → clkUp u d = false))))
    ∧ (clkUp s 20 = true → ∀ v : Word32, Answers (exec (.pwrRst v) s) (fun u => ∀ d, 1 ≤ d → d ≤ 25 →
        let named := v.toNat.testBit (d - 1) = true ∧ d ≠ 20 ∧ d ≠ 22 ∧ d ≠ 24 ∧ builtDomain s.build.size d = true
        (named → d ∉ s.power.byReg → d ∉ s.power.lostClk → clkUp u d = false ∧ d ∈ u.power.byReg)
        ∧ (¬ named → clkUp u d = clkUp s d ∧ (d ∈ u.power.byReg ↔ d ∈ s.power.byReg))))
    ∧ (s.power.testMode = false → Answers (exec .testMode s) (fun u => u.power.testMode = true ∧ u.kcw.keys = []
        ∧ u.kcw.scopes = 0 ∧ ∀ d, 1 ≤ d → d ≤ 25 → d ≠ 23 → clkUp u d = false))

/-- POWER_GOOD and PD_RELEASE, with REF running, take a domain from requested to powered and from powered to
released. PG_TIMEOUT of a requested domain makes it failed, sets PD_TIMEOUT and logs it. PG_FAULT of a powered or
released domain does so with PG_FAULT, counted; of a requested one it is a timeout; of PD_BASE it resets the block.
PD_RETRY of a failed domain requests it, or lets it wait while six switch. PD_SWITCH is refused with CFG_ERR when it
would take the spare bank away in use; else PD_DBG, PD_VSPARE and PD_LOGIT go off while their bits are 1, and from
phase ROLL on one that is off and whose bit is 0 comes on. BOOT_GO in IDLE begins phase MAP and switches on the
memory ports; in another phase it does nothing. POWER_GROUP_START in phase POWER, with nothing of the group before
still switching, switches the next group on. BOOT_PHASE_END ends MAP once the map is chosen, POWER with every domain
that has not come up failed, ROLL, BASELINE with the canaries recorded as their baseline, and ZERO: the block is
READY with program memory, scratch and the hold buffer clear, BTIME set and the BOOT event raised, before what follows by
itself. A release from roll call on raises the BOOT event. That a power fault at READY adds no pending entry but for its
banks, and how a domain switched on again takes its roll call, are choices of the model (log entries 109 and 171).
(R485, R487, R488, R489, R490, R491, R499, R500, R501, R503, R505) -/
def Obligations.PowerDomainsAndBringUp : Prop :=
  ∀ s : State,
    let s0 : State := { s with regOut := 0 }
    let pd (u : State) (d : Nat) : PdState := Tab.get .off u.power.pds d
    let asked : PdState := if ((List.range 30).filter (switching s)).length < 6 then .requested else .waiting
    let logged (u : State) (d kind : Nat) : Prop := (reg s R.PWR_PDERR).testBit 31 = false →
      reg u R.PWR_PDERR = d + kind * 2 ^ 5 + 2 ^ 31
    (∀ f : Fin 30,
      let d := f.val
      (clkUp s 22 = true → pd s d = .requested → Answers (exec (.powerGood f) s) (fun u => pd u d = .powered
        ∧ (∀ k, k ≠ d → pd s k ≠ .waiting → pd u k = pd s k) ∧ { u with power := s.power } = s))
      ∧ (clkUp s 22 = true → pd s d = .powered → Answers (exec (.pdRelease f) s) (fun u => pdUp u d = true
          ∧ (3 ≤ s.boot.phase → (reg u R.SRQ_EVT).testBit 0 = true)))
      ∧ (pd s d = .requested → ∀ c ∈ [Instr.pgTimeout f, Instr.pgFault f], d ≠ 0 → Answers (exec c s) (fun u =>
          pd u d = .failed ∧ (reg u R.PWR_STAT).testBit 2 = true ∧ logged u d 1))
      ∧ (d ≠ 0 → (pd s d = .powered ∨ pd s d = .released) → Answers (exec (.pgFault f) s) (fun u =>
          pd u d = .failed ∧ (reg u R.PWR_STAT).testBit 3 = true ∧ logged u d 2
          ∧ reg u R.PWR_PGFAULT = satAdd 32 (reg s R.PWR_PGFAULT) 1))
      ∧ (d = 0 → pdUp s 0 = true → exec (.pgFault f) s = exec .blockReset s))
    ∧ (clkUp s 20 = true →
        (∀ v : Word32,
          let d := v.toNat % 2 ^ 5
          (v.toNat.testBit 31 = true → d < 30 → pd s d = .failed → Answers (exec (.pdRetry v) s) (fun u =>
            pd u d = asked ∧ (∀ k, k ≠ d → pd u k = pd s k) ∧ { u with power := s.power } = s0))
          ∧ (v.toNat.testBit 31 = false ∨ 30 ≤ d ∨ pd s d ≠ .failed → exec (.pdRetry v) s = .next s0)
          ∧ (v.toNat.testBit 1 = true → spareBusy s = true → exec (.pdSwitch v) s
              = .next (sweep (setReg R.PWR_STAT (reg s R.PWR_STAT ||| 1) s0)))
          ∧ (v.toNat.testBit 1 = false ∨ spareBusy s = false → EndsIn (exec (.pdSwitch v) s) (fun u =>
              reg u R.PWR_PDCTRL = v.toNat % 8 ∧ ∀ x ∈ [(29, 0), (19, 1), (28, 2)],
                (v.toNat.testBit x.2 = true → (pd s x.1 ≠ .off ∧ pd s x.1 ≠ .failed) → pd u x.1 = .off)
                ∧ (v.toNat.testBit x.2 = false → pd s x.1 = .off → 3 ≤ s.boot.phase →
                    pd u x.1 = .requested ∨ pd u x.1 = .waiting))))
        ∧ (s.boot.phase = 0 → Answers (exec .bootGo s) (fun u => u.boot.phase = 1 ∧ u.boot.group = 0
            ∧ u.boot.goTick = s.purse.ticks ∧ (∀ d ∈ [26, 27], pd s d = .off → pd u d = .requested ∨ pd u d = .waiting)
            ∧ { u with power := s.power, boot := s.boot } = s0))
        ∧ (s.boot.phase ≠ 0 → exec .bootGo s = .next s0))
    ∧ (s.boot.phase = 2 → s.boot.group < 5 → groupSwitching s s.boot.group = false → clkUp s 22 = true →
        Answers (exec .powerGroupStart s) (fun u => u.boot.group = s.boot.group + 1
          ∧ (∀ d, 1 ≤ d → d ≤ 29 → groupOf d = s.boot.group + 1 → keptOff s d = false → pd s d = .off →
              pd u d = .requested ∨ pd u d = .waiting)
          ∧ { u with power := s.power, boot := s.boot } = s))
    ∧ (pdUp s 0 = true → clkUp s 22 = true → ∀ xs : List (List Slack),
        (s.boot.phase = 1 → mapDone s = true → Answers (exec (.bootPhaseEnd xs) s) (fun u => u.boot.phase = 2
          ∧ ((∀ p ∈ s.reserve.copies, readMap s p.2 = none) → (reg u R.RSV_STAT).testBit 3 = true)))
        ∧ (s.boot.phase = 1 → mapDone s = false → exec (.bootPhaseEnd xs) s = .next s)
        ∧ (s.boot.phase = 2 → Answers (exec (.bootPhaseEnd xs) s) (fun u => u.boot.phase = 3
            ∧ ∀ d, 1 ≤ d → d ≤ 29 → if pd s d = .released then pd u d = .released
                else pd u d = .failed ∨ (pd u d = .off ∧ keptOff s d = true)))
        ∧ (s.boot.phase = 3 → Answers (exec (.bootPhaseEnd xs) s) (fun u => u.boot.phase = 4))
        ∧ (s.boot.phase = 4 → Answers (exec (.bootPhaseEnd xs) s) (fun u => u.boot.phase = 5
            ∧ u.reserve.base = u.reserve.slack
            ∧ ∀ d i ys x, d < 4 → i < 24 → xs[d]? = some ys → ys[i]? = some x →
                Tab.get 0 u.reserve.base (24 * d + i) = x.toNat))
        ∧ (s.boot.phase = 5 → clkUp s 1 = true → EndsIn (exec (.bootPhaseEnd xs) s) (fun u => u.boot.phase = 6
            ∧ u.prog = [] ∧ u.scratch = [] ∧ u.clear.rows = [] ∧ u.clear.port = none ∧ (reg u R.SRQ_EVT).testBit 0 = true
            ∧ reg u R.GBL_BTIME = (s.purse.ticks - s.boot.goTick) % 2 ^ 16)))
end

