-- ==== Sys2Proof/Laws/Carry.lean ====
section
/-!
SUPPORT. A carried automaton state reads back as it was written: the number that stands for a state names no other
(R370, Table 11.23).
-/

namespace Sys2Proof.Machine

theorem exchangeNo_twice (p : Nat × Nat) (n : Nat) : exchangeNo p (exchangeNo p n) = n := by
  unfold exchangeNo
  split <;> split <;> (try split) <;> omega

theorem exchanges_undone (ps : List (Nat × Nat)) (n : Nat) :
    ps.foldr exchangeNo (ps.foldl (fun n p => exchangeNo p n) n) = n := by
  induction ps generalizing n with
  | nil => rfl
  | cons p ps ih =>
    rw [List.foldl_cons, List.foldr_cons, ih, exchangeNo_twice]

/-- The first element of a code is its factors of two, found one at a time. -/
theorem natsOf_twos (a b m f : Nat) (h : 2 ^ b * (2 * m + 1) < 2 ^ (f + 1)) :
    ∃ g, m < 2 ^ g ∧ natsOf (f + 1) a (2 ^ b * (2 * m + 1)) = (a + b) :: natsOf g 0 m := by
  induction b generalizing a f with
  | zero =>
    refine ⟨f, by rw [pow_succ] at h; omega, ?_⟩
    have e : (2 * m + 1) / 2 = m := by omega
    simp [natsOf, e]
  | succ b ih =>
    have p : 0 < 2 ^ b * (2 * m + 1) := by positivity
    have e : 2 ^ (b + 1) * (2 * m + 1) = 2 * (2 ^ b * (2 * m + 1)) := by ring
    rw [e] at h ⊢
    cases f with
    | zero => omega
    | succ f =>
      have k : 2 ^ b * (2 * m + 1) < 2 ^ (f + 1) := by
        rw [pow_succ] at h
        omega
      obtain ⟨g, hm, hg⟩ := ih (a + 1) f k
      refine ⟨g, hm, ?_⟩
      have d : 2 * (2 ^ b * (2 * m + 1)) / 2 = 2 ^ b * (2 * m + 1) := by omega
      have z : 2 * (2 ^ b * (2 * m + 1)) ≠ 0 := by omega
      have o : ¬ 2 * (2 ^ b * (2 * m + 1)) % 2 = 1 := by omega
      rw [natsOf, if_neg z, if_neg o, d, hg]
      congr 1
      omega

theorem natsOf_code (l : List Nat) (f : Nat) (h : natsCode l < 2 ^ f) : natsOf f 0 (natsCode l) = l := by
  induction l generalizing f with
  | nil => cases f <;> rfl
  | cons b l ih =>
    cases f with
    | zero =>
      have p : 0 < natsCode (b :: l) := by unfold natsCode; positivity
      simp only [pow_zero] at h
      omega
    | succ f =>
      obtain ⟨g, hm, hg⟩ := natsOf_twos 0 b (natsCode l) f h
      rw [natsCode, hg, ih g hm, Nat.zero_add]

theorem statesOf_code (x : Nat × List (Option Nat)) : statesOf (statesCode x) = x := by
  obtain ⟨k, l⟩ := x
  unfold statesOf statesCode
  rw [natsOf_code _ _ Nat.lt_log2_self]
  simp only [List.map_map, Prod.mk.injEq, true_and]
  conv_rhs => rw [← List.map_id l]
  refine List.map_congr_left (fun st _ => ?_)
  cases st <;> rfl

/-- What a carry record says of a stripe's automaton is what the replay restores (R370, R16). -/
theorem searchRead_searchState (fp g : Nat) (x : Nat × List (Option Nat)) :
    searchRead fp g (searchState fp g x) = x := by
  unfold searchRead searchState
  rw [exchanges_undone, statesOf_code]

end Sys2Proof.Machine
end

