-- ==== Sys2Proof/Laws/Crypto.lean ====
section
/-!
SUPPORT. Bytes and numbers go back and forth unchanged, and a tag of R398 is eight bytes.
-/

namespace Sys2Proof.Machine

/-- A number of so many bytes is below their range. -/
theorem ofLE_lt (bs : List Byte) : ofLE bs < 256 ^ bs.length := by
  induction bs with
  | nil => simp [ofLE]
  | cons b bs ih =>
    have := b.isLt
    simp only [ofLE, List.length_cons, Nat.pow_succ]
    omega

/-- The bytes of a number that bytes spell are those bytes. -/
theorem toLE_ofLE (bs : List Byte) : toLE bs.length (ofLE bs) = bs := by
  induction bs with
  | nil => rfl
  | cons b bs ih =>
    have := b.isLt
    have h : (b.toNat + 256 * ofLE bs) / 256 = ofLE bs := by omega
    simp only [ofLE, List.length_cons, toLE, h, ih, List.cons.injEq, and_true]
    apply BitVec.eq_of_toNat_eq
    rw [BitVec.toNat_ofNat]
    omega

/-- Four bytes kept in a 32-bit register read back. -/
theorem toLE_four (bs : List Byte) (h : bs.length = 4) : toLE 4 (BitVec.ofNat 32 (ofLE bs)).toNat = bs := by
  have hb := ofLE_lt bs
  rw [h] at hb
  rw [BitVec.toNat_ofNat, Nat.mod_eq_of_lt (by omega)]
  conv_rhs => rw [← toLE_ofLE bs]
  rw [h]

/-! ### Lengths -/

theorem xorBytes_length (a b : List Byte) : (xorBytes a b).length = min a.length b.length := by
  unfold xorBytes
  exact List.length_zipWith

/-- A round key is 16 bytes like the one before it. -/
theorem nextRoundKey_length (k : List Byte) (c : Byte) (h : k.length = 16) : (nextRoundKey k c).length = 16 := by
  have hw (i : Nat) (hi : i ≤ 3) : ((k.drop (4 * i)).take 4).length = 4 := by
    rw [List.length_take, List.length_drop]
    omega
  unfold nextRoundKey
  simp only [List.length_append, xorBytes_length, hw 0 (by omega), hw 1 (by omega), hw 2 (by omega), hw 3 (by omega)]
  split <;> rename_i heq
  · rfl
  · simp [hw 3 (by omega)]

/-- A block is enciphered to 16 bytes. -/
theorem aesRounds_length (fuel : Nat) : ∀ (k : List Byte) (c : Byte) (x : List Byte), k.length = 16 →
    (aesRounds fuel k c x).length = 16 := by
  induction fuel with
  | zero =>
    intro k c x h
    unfold aesRounds
    simp [xorBytes_length, nextRoundKey_length k c h, aesShift]
  | succ f ih =>
    intro k c x h
    unfold aesRounds
    exact ih _ _ _ (nextRoundKey_length k c h)

theorem aes_length (k x : List Byte) (h : k.length = 16) : (aes k x).length = 16 := aesRounds_length 9 k 1 _ h

theorem cmacBlocks_length (k k1 k2 : List Byte) (h : k.length = 16) (fuel : Nat) :
    ∀ acc m : List Byte, acc.length = 16 → (cmacBlocks k k1 k2 fuel acc m).length = 16 := by
  induction fuel with
  | zero =>
    intro acc m ha
    exact ha
  | succ f ih =>
    intro acc m ha
    unfold cmacBlocks
    split
    · exact ih _ _ (aes_length _ _ h)
    · split <;> exact aes_length _ _ h

/-- A tag under a key of 16 bytes is eight bytes (R398). -/
theorem cmacTag_length (k m : List Byte) (h : k.length = 16) : (cmacTag k m).length = 8 := by
  unfold cmacTag cmac
  rw [List.length_take, cmacBlocks_length k _ _ h _ _ _ (by simp)]
  rfl

end Sys2Proof.Machine
end

