-- ==== Sys2Proof/Laws/Decode.lean ====
section
/-!
SUPPORT. The fields of a Lambiop word: what Table 2.4 packs is read back, and a word is the packing of its fields.
-/

namespace Sys2Proof

theorem wordOp_encodeWord {op : Nat} (h : op < 256) (f : Fields) : wordOp (encodeWord op f) = op := by
  have e : (encodeWord op f).extractLsb' 56 8 = BitVec.ofNat 8 op := by
    apply BitVec.eq_of_getLsbD_eq
    intro i hi
    simp only [encodeWord, BitVec.getLsbD_extractLsb', BitVec.getLsbD_append, hi, decide_true, Bool.true_and]
    rw [if_neg (by omega), if_neg (by omega), if_neg (by omega), if_neg (by omega), if_neg (by omega)]
    congr 1
    omega
  rw [wordOp, e, BitVec.toNat_ofNat, Nat.mod_eq_of_lt h]

theorem wordFields_encodeWord (op : Nat) (f : Fields) : wordFields (encodeWord op f) = f := by
  obtain ⟨d, a, b, p, m⟩ := f
  unfold wordFields encodeWord
  congr 1 <;> (apply BitVec.eq_of_getLsbD_eq; intro i hi) <;>
    simp only [BitVec.getLsbD_extractLsb', BitVec.getLsbD_append, hi, decide_true, Bool.true_and]
  · rw [if_neg (by omega), if_neg (by omega), if_neg (by omega), if_neg (by omega), if_pos (by omega)]
    congr 1
    omega
  · rw [if_neg (by omega), if_neg (by omega), if_neg (by omega), if_pos (by omega)]
    congr 1
    omega
  · rw [if_neg (by omega), if_neg (by omega), if_pos (by omega)]
    congr 1
    omega
  · rw [if_neg (by omega), if_pos (by omega)]
    congr 1
    omega
  · rw [if_pos (by omega)]
    congr 1
    omega

/-- A word is the packing of its opcode and its fields: no bit is dropped. -/
theorem encodeWord_fields (x : Word) : encodeWord (wordOp x) (wordFields x) = x := by
  apply BitVec.eq_of_getLsbD_eq
  intro i hi
  simp only [encodeWord, wordOp, wordFields, BitVec.getLsbD_append, BitVec.ofNat_toNat, BitVec.setWidth_eq,
    BitVec.getLsbD_extractLsb']
  split
  · rw [decide_eq_true (by omega), Bool.true_and]
    congr 1
    omega
  · split
    · rw [decide_eq_true (by omega), Bool.true_and]
      congr 1
      omega
    · split
      · rw [decide_eq_true (by omega), Bool.true_and]
        congr 1
        omega
      · split
        · rw [decide_eq_true (by omega), Bool.true_and]
          congr 1
          omega
        · split
          · rw [decide_eq_true (by omega), Bool.true_and]
            congr 1
            omega
          · rw [decide_eq_true (by omega), Bool.true_and]
            congr 1
            omega

end Sys2Proof
end

