-- ==== Sys2Proof/Laws/Tab.lean ====
section
/-!
SUPPORT. The laws of the sparse tables: what is read after a write, and that every operation keeps the canonical form.
-/

namespace Sys2Proof.Machine

variable {α : Type}

/-! ### Keys of sorted tables -/

/-- A sorted table's keys lie above its bound. -/
theorem Tab.sortedFrom_lt {b : Nat} {t : Tab α} (h : Tab.sortedFrom (some b) t = true) :
    ∀ p ∈ t, b < p.1 := by
  induction t generalizing b with
  | nil => simp
  | cons q t ih =>
    obtain ⟨k, v⟩ := q
    simp only [Tab.sortedFrom, Bool.and_eq_true, decide_eq_true_eq] at h
    intro p hp
    rcases List.mem_cons.1 hp with rfl | hp
    · exact h.1
    · exact Nat.lt_trans h.1 (ih h.2 p hp)

/-- A table sorted above a bound is sorted above any lower one. -/
theorem Tab.sortedFrom_mono {b c : Nat} {t : Tab α} (hc : c ≤ b) (h : Tab.sortedFrom (some b) t = true) :
    Tab.sortedFrom (some c) t = true := by
  cases t with
  | nil => rfl
  | cons q t =>
    obtain ⟨k, v⟩ := q
    simp only [Tab.sortedFrom, Bool.and_eq_true, decide_eq_true_eq] at h ⊢
    exact ⟨Nat.lt_of_le_of_lt hc h.1, h.2⟩

/-- Without a bound, a table whose keys rise. -/
theorem Tab.sortedFrom_none {b : Nat} {t : Tab α} (h : Tab.sortedFrom (some b) t = true) :
    Tab.sortedFrom none t = true := by
  cases t with
  | nil => rfl
  | cons q t =>
    obtain ⟨k, v⟩ := q
    simp only [Tab.sortedFrom, Bool.and_eq_true] at h ⊢
    exact h.2

/-! ### Reads after writes -/

/-- A read of the key just inserted. -/
@[simp] theorem Tab.get_insert_same (d : α) (t : Tab α) (n : Nat) (x : α) : Tab.get d (Tab.insert t n x) n = x := by
  induction t with
  | nil => simp [Tab.insert, Tab.get]
  | cons q t ih =>
    simp only [Tab.insert]
    split
    · simp [Tab.get]
    · split
      · simp [Tab.get]
      · rename_i h1 h2
        simp only [Tab.get, if_neg h1]
        exact ih

/-- A read of another key than the one inserted. -/
theorem Tab.get_insert_other (d : α) (t : Tab α) {n m : Nat} (x : α) (h : m ≠ n) :
    Tab.get d (Tab.insert t n x) m = Tab.get d t m := by
  induction t with
  | nil => simp [Tab.insert, Tab.get, h]
  | cons q t ih =>
    simp only [Tab.insert]
    split
    · rename_i e
      subst e
      simp only [Tab.get, if_neg h]
    · split
      · simp only [Tab.get, if_neg h]
      · simp only [Tab.get, ih]

/-- A read of the key just erased. -/
@[simp] theorem Tab.get_erase_same (d : α) (t : Tab α) (n : Nat) : Tab.get d (Tab.erase t n) n = d := by
  induction t with
  | nil => rfl
  | cons q t ih =>
    simp only [Tab.erase]
    split
    · exact ih
    · rename_i h
      simp only [Tab.get, if_neg h, ih]

/-- A read of another key than the one erased. -/
theorem Tab.get_erase_other (d : α) (t : Tab α) {n m : Nat} (h : m ≠ n) :
    Tab.get d (Tab.erase t n) m = Tab.get d t m := by
  induction t with
  | nil => rfl
  | cons q t ih =>
    simp only [Tab.erase]
    split
    · rename_i e
      subst e
      rw [ih]
      simp only [Tab.get, if_neg h]
    · simp only [Tab.get, ih]

/-- A read of the key just set. -/
@[simp] theorem Tab.get_set_same [DecidableEq α] (d : α) (t : Tab α) (n : Nat) (x : α) :
    Tab.get d (Tab.set d t n x) n = x := by
  unfold Tab.set
  split
  · rename_i e
    rw [Tab.get_erase_same, e]
  · exact Tab.get_insert_same d t n x

/-- A read of another key than the one set. -/
theorem Tab.get_set_other [DecidableEq α] {e : α} (d : α) (t : Tab α) {n m : Nat} (x : α) (h : m ≠ n) :
    Tab.get e (Tab.set d t n x) m = Tab.get e t m := by
  unfold Tab.set
  split
  · exact Tab.get_erase_other e t h
  · exact Tab.get_insert_other e t x h

/-- A read of a key after a write. -/
theorem Tab.get_set [DecidableEq α] (d : α) (t : Tab α) (n m : Nat) (x : α) :
    Tab.get d (Tab.set d t n x) m = if m = n then x else Tab.get d t m := by
  split
  · rename_i e
    subst e
    exact Tab.get_set_same d t m x
  · rename_i h
    exact Tab.get_set_other d t x h

/-! ### The canonical form -/

/-- Erasing keeps keys rising. -/
theorem Tab.sorted_erase {b : Option Nat} {t : Tab α} (n : Nat) (h : Tab.sortedFrom b t = true) :
    Tab.sortedFrom b (Tab.erase t n) = true := by
  induction t generalizing b with
  | nil => exact h
  | cons q t ih =>
    obtain ⟨k, v⟩ := q
    simp only [Tab.erase]
    cases b with
    | none =>
      simp only [Tab.sortedFrom] at h
      split
      · exact ih (Tab.sortedFrom_none h)
      · exact ih h
    | some b =>
      simp only [Tab.sortedFrom, Bool.and_eq_true, decide_eq_true_eq] at h
      split
      · exact ih (Tab.sortedFrom_mono (Nat.le_of_lt h.1) h.2)
      · simp only [Tab.sortedFrom, Bool.and_eq_true, decide_eq_true_eq]
        exact ⟨h.1, ih h.2⟩

/-- Inserting keeps keys rising. -/
theorem Tab.sorted_insert {b : Option Nat} {t : Tab α} (n : Nat) (x : α) (h : Tab.sortedFrom b t = true)
    (hb : ∀ k, b = some k → k < n) : Tab.sortedFrom b (Tab.insert t n x) = true := by
  induction t generalizing b with
  | nil =>
    cases b with
    | none => rfl
    | some b => simp [Tab.insert, Tab.sortedFrom, hb b rfl]
  | cons q t ih =>
    obtain ⟨k, v⟩ := q
    have ht : Tab.sortedFrom (some k) t = true := by
      cases b <;> simp only [Tab.sortedFrom, Bool.and_eq_true] at h
      · exact h
      · exact h.2
    simp only [Tab.insert]
    split
    · rename_i e
      subst e
      cases b with
      | none => simpa [Tab.sortedFrom] using ht
      | some b => simp [Tab.sortedFrom, ht, hb b rfl]
    · split
      · rename_i h1 h2
        cases b with
        | none => simp [Tab.sortedFrom, ht, h2]
        | some b => simp [Tab.sortedFrom, ht, h2, hb b rfl]
      · rename_i h1 h2
        have hk : Tab.sortedFrom (some k) (Tab.insert t n x) = true :=
          ih ht (fun j e => by cases e; omega)
        cases b with
        | none => simpa [Tab.sortedFrom] using hk
        | some b =>
          simp only [Tab.sortedFrom, Bool.and_eq_true, decide_eq_true_eq] at h ⊢
          exact ⟨h.1, hk⟩

/-- What stands in a table after an erasure stood there before. -/
theorem Tab.mem_erase {t : Tab α} {n : Nat} {p : Nat × α} (h : p ∈ Tab.erase t n) : p ∈ t := by
  induction t with
  | nil => exact h
  | cons q t ih =>
    simp only [Tab.erase] at h
    split at h
    · exact List.mem_cons_of_mem _ (ih h)
    · rcases List.mem_cons.1 h with rfl | h
      · exact List.mem_cons_self
      · exact List.mem_cons_of_mem _ (ih h)

/-- What stands in a table after an insertion is the new entry or stood there before. -/
theorem Tab.mem_insert {t : Tab α} {n : Nat} {x : α} {p : Nat × α} (h : p ∈ Tab.insert t n x) :
    p = (n, x) ∨ p ∈ t := by
  induction t with
  | nil => exact Or.inl (by simpa [Tab.insert] using h)
  | cons q t ih =>
    obtain ⟨k, v⟩ := q
    simp only [Tab.insert] at h
    split at h
    · rcases List.mem_cons.1 h with rfl | h
      · exact Or.inl rfl
      · exact Or.inr (List.mem_cons_of_mem _ h)
    · split at h
      · rcases List.mem_cons.1 h with rfl | h
        · exact Or.inl rfl
        · exact Or.inr h
      · rcases List.mem_cons.1 h with rfl | h
        · exact Or.inr List.mem_cons_self
        · rcases ih h with e | h
          · exact Or.inl e
          · exact Or.inr (List.mem_cons_of_mem _ h)

/-- Setting a key keeps the canonical form. -/
theorem Tab.wf_set [DecidableEq α] (d : α) (t : Tab α) (n : Nat) (x : α) (h : Tab.wf (fun _ => d) t = true) :
    Tab.wf (fun _ => d) (Tab.set d t n x) = true := by
  simp only [Tab.wf, Bool.and_eq_true, List.all_eq_true, decide_eq_true_eq] at h ⊢
  unfold Tab.set
  split
  · exact ⟨Tab.sorted_erase n h.1, fun p hp => h.2 p (Tab.mem_erase hp)⟩
  · rename_i hx
    refine ⟨Tab.sorted_insert n x h.1 (fun k e => by cases e), fun p hp => ?_⟩
    rcases Tab.mem_insert hp with rfl | hp
    · exact hx
    · exact h.2 p hp

/-- Keeping some of the entries keeps keys rising. -/
theorem Tab.sorted_filter {b : Option Nat} {t : Tab α} (f : Nat × α → Bool) (h : Tab.sortedFrom b t = true) :
    Tab.sortedFrom b (t.filter f) = true := by
  induction t generalizing b with
  | nil => exact h
  | cons q t ih =>
    obtain ⟨k, v⟩ := q
    have ht : Tab.sortedFrom (some k) t = true := by
      cases b <;> simp only [Tab.sortedFrom, Bool.and_eq_true] at h
      · exact h
      · exact h.2
    simp only [List.filter_cons]
    split
    · cases b with
      | none => simpa [Tab.sortedFrom] using ih ht
      | some b =>
        simp only [Tab.sortedFrom, Bool.and_eq_true, decide_eq_true_eq] at h ⊢
        exact ⟨h.1, ih ht⟩
    · cases b with
      | none => exact ih (Tab.sortedFrom_none ht)
      | some b =>
        simp only [Tab.sortedFrom, Bool.and_eq_true, decide_eq_true_eq] at h
        exact ih (Tab.sortedFrom_mono (Nat.le_of_lt h.1) ht)

/-- Keeping some of the entries keeps the canonical form. -/
theorem Tab.wf_filter [DecidableEq α] (d : Nat → α) (t : Tab α) (f : Nat × α → Bool) (h : Tab.wf d t = true) :
    Tab.wf d (t.filter f) = true := by
  simp only [Tab.wf, Bool.and_eq_true, List.all_eq_true, decide_eq_true_eq] at h ⊢
  exact ⟨Tab.sorted_filter f h.1, fun p hp => h.2 p (List.mem_filter.1 hp).1⟩

/-! ### Scratch -/

/-- Writing a run of bytes keeps the canonical form. -/
theorem placeBytes_wf (m : List Host.Cell) (a : Nat) (bs : List Byte) (h : Memory.wf m = true) :
    Memory.wf (placeBytes m a bs) = true := by
  induction bs generalizing m a with
  | nil => exact h
  | cons b bs ih => exact ih _ _ (Tab.wf_set scratchDefault m a b h)

/-- A byte outside a run of bytes reads as before the run was written. -/
theorem placeBytes_other (m : List Host.Cell) (a x : Nat) (bs : List Byte) (hx : x < a ∨ a + bs.length ≤ x) :
    Tab.get scratchDefault (placeBytes m a bs) x = Tab.get scratchDefault m x := by
  induction bs generalizing m a with
  | nil => rfl
  | cons b bs ih =>
    simp only [List.length_cons] at hx
    simp only [placeBytes]
    rw [ih _ _ (by omega)]
    exact Tab.get_set_other scratchDefault m b (by omega)

/-- Byte `i` of a run of bytes reads as it was written. -/
theorem placeBytes_at (m : List Host.Cell) (a i : Nat) (bs : List Byte) (hi : i < bs.length) :
    Tab.get scratchDefault (placeBytes m a bs) (a + i) = bs[i] := by
  induction bs generalizing m a i with
  | nil => simp at hi
  | cons b bs ih =>
    simp only [placeBytes]
    cases i with
    | zero =>
      rw [placeBytes_other _ _ _ _ (by omega)]
      exact Tab.get_set_same scratchDefault m a b
    | succ i =>
      have := ih (Tab.set scratchDefault m a b) (a + 1) i (by simpa using hi)
      rw [Nat.add_right_comm, Nat.add_assoc] at this
      simpa using this

end Sys2Proof.Machine
end

