-- ==== Sys2Proof/Laws/State.lean ====
section
/-!
SUPPORT. The small laws of State: what each update leaves as it was, field by field, and what each read gives after an
update. They are all a later proof needs of a record update.
-/

namespace Sys2Proof.Machine

/-! ### setReg -/

@[simp] theorem setReg_pending (off v : Nat) (s : State) : (setReg off v s).pending = s.pending := rfl
@[simp] theorem setReg_build (off v : Nat) (s : State) : (setReg off v s).build = s.build := rfl
@[simp] theorem setReg_free (off v : Nat) (s : State) : (setReg off v s).free = s.free := rfl
@[simp] theorem setReg_emitted (off v : Nat) (s : State) : (setReg off v s).emitted = s.emitted := rfl
@[simp] theorem setReg_issueNo (off v : Nat) (s : State) : (setReg off v s).issueNo = s.issueNo := rfl
@[simp] theorem setReg_stores (off v : Nat) (s : State) : (setReg off v s).stores = s.stores := rfl
@[simp] theorem setReg_instId (off v : Nat) (s : State) : (setReg off v s).instId = s.instId := rfl
@[simp] theorem setReg_latch (off v : Nat) (s : State) : (setReg off v s).latch = s.latch := rfl
@[simp] theorem setReg_heldLo (off v : Nat) (s : State) : (setReg off v s).heldLo = s.heldLo := rfl
@[simp] theorem setReg_regOut (off v : Nat) (s : State) : (setReg off v s).regOut = s.regOut := rfl
@[simp] theorem setReg_threads (off v : Nat) (s : State) : (setReg off v s).threads = s.threads := rfl
@[simp] theorem setReg_prog (off v : Nat) (s : State) : (setReg off v s).prog = s.prog := rfl
@[simp] theorem setReg_scratch (off v : Nat) (s : State) : (setReg off v s).scratch = s.scratch := rfl
@[simp] theorem setReg_tickets (off v : Nat) (s : State) : (setReg off v s).tickets = s.tickets := rfl
@[simp] theorem setReg_ticketNext (off v : Nat) (s : State) : (setReg off v s).ticketNext = s.ticketNext := rfl
@[simp] theorem setReg_lastIssued (off v : Nat) (s : State) : (setReg off v s).lastIssued = s.lastIssued := rfl
@[simp] theorem setReg_clerkFatal (off v : Nat) (s : State) : (setReg off v s).clerkFatal = s.clerkFatal := rfl
@[simp] theorem setReg_streams (off v : Nat) (s : State) : (setReg off v s).streams = s.streams := rfl
@[simp] theorem setReg_beat (off v : Nat) (s : State) : (setReg off v s).beat = s.beat := rfl
@[simp] theorem setReg_day (off v : Nat) (s : State) : (setReg off v s).day = s.day := rfl
@[simp] theorem setReg_teller (off v : Nat) (s : State) : (setReg off v s).teller = s.teller := rfl
@[simp] theorem setReg_hops (off v : Nat) (s : State) : (setReg off v s).hops = s.hops := rfl
@[simp] theorem setReg_tenants (off v : Nat) (s : State) : (setReg off v s).tenants = s.tenants := rfl
@[simp] theorem setReg_genNext (off v : Nat) (s : State) : (setReg off v s).genNext = s.genNext := rfl
@[simp] theorem setReg_prefetch (off v : Nat) (s : State) : (setReg off v s).prefetch = s.prefetch := rfl
@[simp] theorem setReg_grammars (off v : Nat) (s : State) : (setReg off v s).grammars = s.grammars := rfl
@[simp] theorem setReg_maskSets (off v : Nat) (s : State) : (setReg off v s).maskSets = s.maskSets := rfl
@[simp] theorem setReg_sortStep (off v : Nat) (s : State) : (setReg off v s).sortStep = s.sortStep := rfl
@[simp] theorem setReg_sortTemp (off v : Nat) (s : State) : (setReg off v s).sortTemp = s.sortTemp := rfl
@[simp] theorem setReg_sortDead (off v : Nat) (s : State) : (setReg off v s).sortDead = s.sortDead := rfl
@[simp] theorem setReg_clear (off v : Nat) (s : State) : (setReg off v s).clear = s.clear := rfl
@[simp] theorem setReg_egress0 (off v : Nat) (s : State) : (setReg off v s).egress0 = s.egress0 := rfl
@[simp] theorem setReg_egress1 (off v : Nat) (s : State) : (setReg off v s).egress1 = s.egress1 := rfl
@[simp] theorem setReg_accesses (off v : Nat) (s : State) : (setReg off v s).accesses = s.accesses := rfl
@[simp] theorem setReg_nextAccess (off v : Nat) (s : State) : (setReg off v s).nextAccess = s.nextAccess := rfl
@[simp] theorem setReg_ledger (off v : Nat) (s : State) : (setReg off v s).ledger = s.ledger := rfl
@[simp] theorem setReg_queue0 (off v : Nat) (s : State) : (setReg off v s).queue0 = s.queue0 := rfl
@[simp] theorem setReg_queue1 (off v : Nat) (s : State) : (setReg off v s).queue1 = s.queue1 := rfl
@[simp] theorem setReg_queue2 (off v : Nat) (s : State) : (setReg off v s).queue2 = s.queue2 := rfl
@[simp] theorem setReg_queue3 (off v : Nat) (s : State) : (setReg off v s).queue3 = s.queue3 := rfl
@[simp] theorem setReg_kcw (off v : Nat) (s : State) : (setReg off v s).kcw = s.kcw := rfl
@[simp] theorem setReg_purse (off v : Nat) (s : State) : (setReg off v s).purse = s.purse := rfl
@[simp] theorem setReg_reserve (off v : Nat) (s : State) : (setReg off v s).reserve = s.reserve := rfl
@[simp] theorem setReg_power (off v : Nat) (s : State) : (setReg off v s).power = s.power := rfl
@[simp] theorem setReg_boot (off v : Nat) (s : State) : (setReg off v s).boot = s.boot := rfl
@[simp] theorem setReg_trcOut (off v : Nat) (s : State) : (setReg off v s).trcOut = s.trcOut := rfl
@[simp] theorem setReg_testOut (off v : Nat) (s : State) : (setReg off v s).testOut = s.testOut := rfl

@[simp] theorem thread_setReg (off v : Nat) (v₁ : Who) (s : State) : thread (setReg off v s) v₁ = thread s v₁ := rfl
@[simp] theorem stream_setReg (off v : Nat) (i₁ : Nat) (s : State) : stream (setReg off v s) i₁ = stream s i₁ := rfl
@[simp] theorem tenant_setReg (off v : Nat) (i₁ : Nat) (s : State) : tenant (setReg off v s) i₁ = tenant s i₁ := rfl
@[simp] theorem queueAt_setReg (off v : Nat) (i₁ : Nat) (s : State) : queueAt (setReg off v s) i₁ = queueAt s i₁ := rfl
@[simp] theorem scratchByte_setReg (off v : Nat) (i₁ i₂ : Nat) (s : State) : scratchByte (setReg off v s) i₁ i₂ = scratchByte s i₁ i₂ := rfl
@[simp] theorem clkUp_setReg (off v : Nat) (i₁ : Nat) (s : State) : clkUp (setReg off v s) i₁ = clkUp s i₁ := rfl
@[simp] theorem pdUp_setReg (off v : Nat) (i₁ : Nat) (s : State) : pdUp (setReg off v s) i₁ = pdUp s i₁ := rfl

/-! ### setThread -/

@[simp] theorem setThread_pending (w : Who) (t : Thread) (s : State) : (setThread w t s).pending = s.pending := rfl
@[simp] theorem setThread_build (w : Who) (t : Thread) (s : State) : (setThread w t s).build = s.build := rfl
@[simp] theorem setThread_free (w : Who) (t : Thread) (s : State) : (setThread w t s).free = s.free := rfl
@[simp] theorem setThread_emitted (w : Who) (t : Thread) (s : State) : (setThread w t s).emitted = s.emitted := rfl
@[simp] theorem setThread_issueNo (w : Who) (t : Thread) (s : State) : (setThread w t s).issueNo = s.issueNo := rfl
@[simp] theorem setThread_stores (w : Who) (t : Thread) (s : State) : (setThread w t s).stores = s.stores := rfl
@[simp] theorem setThread_instId (w : Who) (t : Thread) (s : State) : (setThread w t s).instId = s.instId := rfl
@[simp] theorem setThread_regs (w : Who) (t : Thread) (s : State) : (setThread w t s).regs = s.regs := rfl
@[simp] theorem setThread_latch (w : Who) (t : Thread) (s : State) : (setThread w t s).latch = s.latch := rfl
@[simp] theorem setThread_heldLo (w : Who) (t : Thread) (s : State) : (setThread w t s).heldLo = s.heldLo := rfl
@[simp] theorem setThread_regOut (w : Who) (t : Thread) (s : State) : (setThread w t s).regOut = s.regOut := rfl
@[simp] theorem setThread_prog (w : Who) (t : Thread) (s : State) : (setThread w t s).prog = s.prog := rfl
@[simp] theorem setThread_scratch (w : Who) (t : Thread) (s : State) : (setThread w t s).scratch = s.scratch := rfl
@[simp] theorem setThread_tickets (w : Who) (t : Thread) (s : State) : (setThread w t s).tickets = s.tickets := rfl
@[simp] theorem setThread_ticketNext (w : Who) (t : Thread) (s : State) : (setThread w t s).ticketNext = s.ticketNext := rfl
@[simp] theorem setThread_lastIssued (w : Who) (t : Thread) (s : State) : (setThread w t s).lastIssued = s.lastIssued := rfl
@[simp] theorem setThread_clerkFatal (w : Who) (t : Thread) (s : State) : (setThread w t s).clerkFatal = s.clerkFatal := rfl
@[simp] theorem setThread_streams (w : Who) (t : Thread) (s : State) : (setThread w t s).streams = s.streams := rfl
@[simp] theorem setThread_beat (w : Who) (t : Thread) (s : State) : (setThread w t s).beat = s.beat := rfl
@[simp] theorem setThread_day (w : Who) (t : Thread) (s : State) : (setThread w t s).day = s.day := rfl
@[simp] theorem setThread_teller (w : Who) (t : Thread) (s : State) : (setThread w t s).teller = s.teller := rfl
@[simp] theorem setThread_hops (w : Who) (t : Thread) (s : State) : (setThread w t s).hops = s.hops := rfl
@[simp] theorem setThread_tenants (w : Who) (t : Thread) (s : State) : (setThread w t s).tenants = s.tenants := rfl
@[simp] theorem setThread_genNext (w : Who) (t : Thread) (s : State) : (setThread w t s).genNext = s.genNext := rfl
@[simp] theorem setThread_prefetch (w : Who) (t : Thread) (s : State) : (setThread w t s).prefetch = s.prefetch := rfl
@[simp] theorem setThread_grammars (w : Who) (t : Thread) (s : State) : (setThread w t s).grammars = s.grammars := rfl
@[simp] theorem setThread_maskSets (w : Who) (t : Thread) (s : State) : (setThread w t s).maskSets = s.maskSets := rfl
@[simp] theorem setThread_sortStep (w : Who) (t : Thread) (s : State) : (setThread w t s).sortStep = s.sortStep := rfl
@[simp] theorem setThread_sortTemp (w : Who) (t : Thread) (s : State) : (setThread w t s).sortTemp = s.sortTemp := rfl
@[simp] theorem setThread_sortDead (w : Who) (t : Thread) (s : State) : (setThread w t s).sortDead = s.sortDead := rfl
@[simp] theorem setThread_clear (w : Who) (t : Thread) (s : State) : (setThread w t s).clear = s.clear := rfl
@[simp] theorem setThread_egress0 (w : Who) (t : Thread) (s : State) : (setThread w t s).egress0 = s.egress0 := rfl
@[simp] theorem setThread_egress1 (w : Who) (t : Thread) (s : State) : (setThread w t s).egress1 = s.egress1 := rfl
@[simp] theorem setThread_accesses (w : Who) (t : Thread) (s : State) : (setThread w t s).accesses = s.accesses := rfl
@[simp] theorem setThread_nextAccess (w : Who) (t : Thread) (s : State) : (setThread w t s).nextAccess = s.nextAccess := rfl
@[simp] theorem setThread_ledger (w : Who) (t : Thread) (s : State) : (setThread w t s).ledger = s.ledger := rfl
@[simp] theorem setThread_queue0 (w : Who) (t : Thread) (s : State) : (setThread w t s).queue0 = s.queue0 := rfl
@[simp] theorem setThread_queue1 (w : Who) (t : Thread) (s : State) : (setThread w t s).queue1 = s.queue1 := rfl
@[simp] theorem setThread_queue2 (w : Who) (t : Thread) (s : State) : (setThread w t s).queue2 = s.queue2 := rfl
@[simp] theorem setThread_queue3 (w : Who) (t : Thread) (s : State) : (setThread w t s).queue3 = s.queue3 := rfl
@[simp] theorem setThread_kcw (w : Who) (t : Thread) (s : State) : (setThread w t s).kcw = s.kcw := rfl
@[simp] theorem setThread_purse (w : Who) (t : Thread) (s : State) : (setThread w t s).purse = s.purse := rfl
@[simp] theorem setThread_reserve (w : Who) (t : Thread) (s : State) : (setThread w t s).reserve = s.reserve := rfl
@[simp] theorem setThread_power (w : Who) (t : Thread) (s : State) : (setThread w t s).power = s.power := rfl
@[simp] theorem setThread_boot (w : Who) (t : Thread) (s : State) : (setThread w t s).boot = s.boot := rfl
@[simp] theorem setThread_trcOut (w : Who) (t : Thread) (s : State) : (setThread w t s).trcOut = s.trcOut := rfl
@[simp] theorem setThread_testOut (w : Who) (t : Thread) (s : State) : (setThread w t s).testOut = s.testOut := rfl

@[simp] theorem reg_setThread (w : Who) (t : Thread) (i₁ : Nat) (s : State) : reg (setThread w t s) i₁ = reg s i₁ := rfl
@[simp] theorem stream_setThread (w : Who) (t : Thread) (i₁ : Nat) (s : State) : stream (setThread w t s) i₁ = stream s i₁ := rfl
@[simp] theorem tenant_setThread (w : Who) (t : Thread) (i₁ : Nat) (s : State) : tenant (setThread w t s) i₁ = tenant s i₁ := rfl
@[simp] theorem queueAt_setThread (w : Who) (t : Thread) (i₁ : Nat) (s : State) : queueAt (setThread w t s) i₁ = queueAt s i₁ := rfl
@[simp] theorem scratchByte_setThread (w : Who) (t : Thread) (i₁ i₂ : Nat) (s : State) : scratchByte (setThread w t s) i₁ i₂ = scratchByte s i₁ i₂ := rfl
@[simp] theorem clkUp_setThread (w : Who) (t : Thread) (i₁ : Nat) (s : State) : clkUp (setThread w t s) i₁ = clkUp s i₁ := rfl
@[simp] theorem pdUp_setThread (w : Who) (t : Thread) (i₁ : Nat) (s : State) : pdUp (setThread w t s) i₁ = pdUp s i₁ := rfl

/-! ### onThread -/

@[simp] theorem onThread_pending (w : Who) (f : Thread → Thread) (s : State) : (onThread w f s).pending = s.pending := rfl
@[simp] theorem onThread_build (w : Who) (f : Thread → Thread) (s : State) : (onThread w f s).build = s.build := rfl
@[simp] theorem onThread_free (w : Who) (f : Thread → Thread) (s : State) : (onThread w f s).free = s.free := rfl
@[simp] theorem onThread_emitted (w : Who) (f : Thread → Thread) (s : State) : (onThread w f s).emitted = s.emitted := rfl
@[simp] theorem onThread_issueNo (w : Who) (f : Thread → Thread) (s : State) : (onThread w f s).issueNo = s.issueNo := rfl
@[simp] theorem onThread_stores (w : Who) (f : Thread → Thread) (s : State) : (onThread w f s).stores = s.stores := rfl
@[simp] theorem onThread_instId (w : Who) (f : Thread → Thread) (s : State) : (onThread w f s).instId = s.instId := rfl
@[simp] theorem onThread_regs (w : Who) (f : Thread → Thread) (s : State) : (onThread w f s).regs = s.regs := rfl
@[simp] theorem onThread_latch (w : Who) (f : Thread → Thread) (s : State) : (onThread w f s).latch = s.latch := rfl
@[simp] theorem onThread_heldLo (w : Who) (f : Thread → Thread) (s : State) : (onThread w f s).heldLo = s.heldLo := rfl
@[simp] theorem onThread_regOut (w : Who) (f : Thread → Thread) (s : State) : (onThread w f s).regOut = s.regOut := rfl
@[simp] theorem onThread_prog (w : Who) (f : Thread → Thread) (s : State) : (onThread w f s).prog = s.prog := rfl
@[simp] theorem onThread_scratch (w : Who) (f : Thread → Thread) (s : State) : (onThread w f s).scratch = s.scratch := rfl
@[simp] theorem onThread_tickets (w : Who) (f : Thread → Thread) (s : State) : (onThread w f s).tickets = s.tickets := rfl
@[simp] theorem onThread_ticketNext (w : Who) (f : Thread → Thread) (s : State) : (onThread w f s).ticketNext = s.ticketNext := rfl
@[simp] theorem onThread_lastIssued (w : Who) (f : Thread → Thread) (s : State) : (onThread w f s).lastIssued = s.lastIssued := rfl
@[simp] theorem onThread_clerkFatal (w : Who) (f : Thread → Thread) (s : State) : (onThread w f s).clerkFatal = s.clerkFatal := rfl
@[simp] theorem onThread_streams (w : Who) (f : Thread → Thread) (s : State) : (onThread w f s).streams = s.streams := rfl
@[simp] theorem onThread_beat (w : Who) (f : Thread → Thread) (s : State) : (onThread w f s).beat = s.beat := rfl
@[simp] theorem onThread_day (w : Who) (f : Thread → Thread) (s : State) : (onThread w f s).day = s.day := rfl
@[simp] theorem onThread_teller (w : Who) (f : Thread → Thread) (s : State) : (onThread w f s).teller = s.teller := rfl
@[simp] theorem onThread_hops (w : Who) (f : Thread → Thread) (s : State) : (onThread w f s).hops = s.hops := rfl
@[simp] theorem onThread_tenants (w : Who) (f : Thread → Thread) (s : State) : (onThread w f s).tenants = s.tenants := rfl
@[simp] theorem onThread_genNext (w : Who) (f : Thread → Thread) (s : State) : (onThread w f s).genNext = s.genNext := rfl
@[simp] theorem onThread_prefetch (w : Who) (f : Thread → Thread) (s : State) : (onThread w f s).prefetch = s.prefetch := rfl
@[simp] theorem onThread_grammars (w : Who) (f : Thread → Thread) (s : State) : (onThread w f s).grammars = s.grammars := rfl
@[simp] theorem onThread_maskSets (w : Who) (f : Thread → Thread) (s : State) : (onThread w f s).maskSets = s.maskSets := rfl
@[simp] theorem onThread_sortStep (w : Who) (f : Thread → Thread) (s : State) : (onThread w f s).sortStep = s.sortStep := rfl
@[simp] theorem onThread_sortTemp (w : Who) (f : Thread → Thread) (s : State) : (onThread w f s).sortTemp = s.sortTemp := rfl
@[simp] theorem onThread_sortDead (w : Who) (f : Thread → Thread) (s : State) : (onThread w f s).sortDead = s.sortDead := rfl
@[simp] theorem onThread_clear (w : Who) (f : Thread → Thread) (s : State) : (onThread w f s).clear = s.clear := rfl
@[simp] theorem onThread_egress0 (w : Who) (f : Thread → Thread) (s : State) : (onThread w f s).egress0 = s.egress0 := rfl
@[simp] theorem onThread_egress1 (w : Who) (f : Thread → Thread) (s : State) : (onThread w f s).egress1 = s.egress1 := rfl
@[simp] theorem onThread_accesses (w : Who) (f : Thread → Thread) (s : State) : (onThread w f s).accesses = s.accesses := rfl
@[simp] theorem onThread_nextAccess (w : Who) (f : Thread → Thread) (s : State) : (onThread w f s).nextAccess = s.nextAccess := rfl
@[simp] theorem onThread_ledger (w : Who) (f : Thread → Thread) (s : State) : (onThread w f s).ledger = s.ledger := rfl
@[simp] theorem onThread_queue0 (w : Who) (f : Thread → Thread) (s : State) : (onThread w f s).queue0 = s.queue0 := rfl
@[simp] theorem onThread_queue1 (w : Who) (f : Thread → Thread) (s : State) : (onThread w f s).queue1 = s.queue1 := rfl
@[simp] theorem onThread_queue2 (w : Who) (f : Thread → Thread) (s : State) : (onThread w f s).queue2 = s.queue2 := rfl
@[simp] theorem onThread_queue3 (w : Who) (f : Thread → Thread) (s : State) : (onThread w f s).queue3 = s.queue3 := rfl
@[simp] theorem onThread_kcw (w : Who) (f : Thread → Thread) (s : State) : (onThread w f s).kcw = s.kcw := rfl
@[simp] theorem onThread_purse (w : Who) (f : Thread → Thread) (s : State) : (onThread w f s).purse = s.purse := rfl
@[simp] theorem onThread_reserve (w : Who) (f : Thread → Thread) (s : State) : (onThread w f s).reserve = s.reserve := rfl
@[simp] theorem onThread_power (w : Who) (f : Thread → Thread) (s : State) : (onThread w f s).power = s.power := rfl
@[simp] theorem onThread_boot (w : Who) (f : Thread → Thread) (s : State) : (onThread w f s).boot = s.boot := rfl
@[simp] theorem onThread_trcOut (w : Who) (f : Thread → Thread) (s : State) : (onThread w f s).trcOut = s.trcOut := rfl
@[simp] theorem onThread_testOut (w : Who) (f : Thread → Thread) (s : State) : (onThread w f s).testOut = s.testOut := rfl

@[simp] theorem reg_onThread (w : Who) (f : Thread → Thread) (i₁ : Nat) (s : State) : reg (onThread w f s) i₁ = reg s i₁ := rfl
@[simp] theorem stream_onThread (w : Who) (f : Thread → Thread) (i₁ : Nat) (s : State) : stream (onThread w f s) i₁ = stream s i₁ := rfl
@[simp] theorem tenant_onThread (w : Who) (f : Thread → Thread) (i₁ : Nat) (s : State) : tenant (onThread w f s) i₁ = tenant s i₁ := rfl
@[simp] theorem queueAt_onThread (w : Who) (f : Thread → Thread) (i₁ : Nat) (s : State) : queueAt (onThread w f s) i₁ = queueAt s i₁ := rfl
@[simp] theorem scratchByte_onThread (w : Who) (f : Thread → Thread) (i₁ i₂ : Nat) (s : State) : scratchByte (onThread w f s) i₁ i₂ = scratchByte s i₁ i₂ := rfl
@[simp] theorem clkUp_onThread (w : Who) (f : Thread → Thread) (i₁ : Nat) (s : State) : clkUp (onThread w f s) i₁ = clkUp s i₁ := rfl
@[simp] theorem pdUp_onThread (w : Who) (f : Thread → Thread) (i₁ : Nat) (s : State) : pdUp (onThread w f s) i₁ = pdUp s i₁ := rfl

/-! ### setStream -/

@[simp] theorem setStream_pending (n : Nat) (x : Stream) (s : State) : (setStream n x s).pending = s.pending := rfl
@[simp] theorem setStream_build (n : Nat) (x : Stream) (s : State) : (setStream n x s).build = s.build := rfl
@[simp] theorem setStream_free (n : Nat) (x : Stream) (s : State) : (setStream n x s).free = s.free := rfl
@[simp] theorem setStream_emitted (n : Nat) (x : Stream) (s : State) : (setStream n x s).emitted = s.emitted := rfl
@[simp] theorem setStream_issueNo (n : Nat) (x : Stream) (s : State) : (setStream n x s).issueNo = s.issueNo := rfl
@[simp] theorem setStream_stores (n : Nat) (x : Stream) (s : State) : (setStream n x s).stores = s.stores := rfl
@[simp] theorem setStream_instId (n : Nat) (x : Stream) (s : State) : (setStream n x s).instId = s.instId := rfl
@[simp] theorem setStream_regs (n : Nat) (x : Stream) (s : State) : (setStream n x s).regs = s.regs := rfl
@[simp] theorem setStream_latch (n : Nat) (x : Stream) (s : State) : (setStream n x s).latch = s.latch := rfl
@[simp] theorem setStream_heldLo (n : Nat) (x : Stream) (s : State) : (setStream n x s).heldLo = s.heldLo := rfl
@[simp] theorem setStream_regOut (n : Nat) (x : Stream) (s : State) : (setStream n x s).regOut = s.regOut := rfl
@[simp] theorem setStream_threads (n : Nat) (x : Stream) (s : State) : (setStream n x s).threads = s.threads := rfl
@[simp] theorem setStream_prog (n : Nat) (x : Stream) (s : State) : (setStream n x s).prog = s.prog := rfl
@[simp] theorem setStream_scratch (n : Nat) (x : Stream) (s : State) : (setStream n x s).scratch = s.scratch := rfl
@[simp] theorem setStream_tickets (n : Nat) (x : Stream) (s : State) : (setStream n x s).tickets = s.tickets := rfl
@[simp] theorem setStream_ticketNext (n : Nat) (x : Stream) (s : State) : (setStream n x s).ticketNext = s.ticketNext := rfl
@[simp] theorem setStream_lastIssued (n : Nat) (x : Stream) (s : State) : (setStream n x s).lastIssued = s.lastIssued := rfl
@[simp] theorem setStream_clerkFatal (n : Nat) (x : Stream) (s : State) : (setStream n x s).clerkFatal = s.clerkFatal := rfl
@[simp] theorem setStream_beat (n : Nat) (x : Stream) (s : State) : (setStream n x s).beat = s.beat := rfl
@[simp] theorem setStream_day (n : Nat) (x : Stream) (s : State) : (setStream n x s).day = s.day := rfl
@[simp] theorem setStream_teller (n : Nat) (x : Stream) (s : State) : (setStream n x s).teller = s.teller := rfl
@[simp] theorem setStream_hops (n : Nat) (x : Stream) (s : State) : (setStream n x s).hops = s.hops := rfl
@[simp] theorem setStream_tenants (n : Nat) (x : Stream) (s : State) : (setStream n x s).tenants = s.tenants := rfl
@[simp] theorem setStream_genNext (n : Nat) (x : Stream) (s : State) : (setStream n x s).genNext = s.genNext := rfl
@[simp] theorem setStream_prefetch (n : Nat) (x : Stream) (s : State) : (setStream n x s).prefetch = s.prefetch := rfl
@[simp] theorem setStream_grammars (n : Nat) (x : Stream) (s : State) : (setStream n x s).grammars = s.grammars := rfl
@[simp] theorem setStream_maskSets (n : Nat) (x : Stream) (s : State) : (setStream n x s).maskSets = s.maskSets := rfl
@[simp] theorem setStream_sortStep (n : Nat) (x : Stream) (s : State) : (setStream n x s).sortStep = s.sortStep := rfl
@[simp] theorem setStream_sortTemp (n : Nat) (x : Stream) (s : State) : (setStream n x s).sortTemp = s.sortTemp := rfl
@[simp] theorem setStream_sortDead (n : Nat) (x : Stream) (s : State) : (setStream n x s).sortDead = s.sortDead := rfl
@[simp] theorem setStream_clear (n : Nat) (x : Stream) (s : State) : (setStream n x s).clear = s.clear := rfl
@[simp] theorem setStream_egress0 (n : Nat) (x : Stream) (s : State) : (setStream n x s).egress0 = s.egress0 := rfl
@[simp] theorem setStream_egress1 (n : Nat) (x : Stream) (s : State) : (setStream n x s).egress1 = s.egress1 := rfl
@[simp] theorem setStream_accesses (n : Nat) (x : Stream) (s : State) : (setStream n x s).accesses = s.accesses := rfl
@[simp] theorem setStream_nextAccess (n : Nat) (x : Stream) (s : State) : (setStream n x s).nextAccess = s.nextAccess := rfl
@[simp] theorem setStream_ledger (n : Nat) (x : Stream) (s : State) : (setStream n x s).ledger = s.ledger := rfl
@[simp] theorem setStream_queue0 (n : Nat) (x : Stream) (s : State) : (setStream n x s).queue0 = s.queue0 := rfl
@[simp] theorem setStream_queue1 (n : Nat) (x : Stream) (s : State) : (setStream n x s).queue1 = s.queue1 := rfl
@[simp] theorem setStream_queue2 (n : Nat) (x : Stream) (s : State) : (setStream n x s).queue2 = s.queue2 := rfl
@[simp] theorem setStream_queue3 (n : Nat) (x : Stream) (s : State) : (setStream n x s).queue3 = s.queue3 := rfl
@[simp] theorem setStream_kcw (n : Nat) (x : Stream) (s : State) : (setStream n x s).kcw = s.kcw := rfl
@[simp] theorem setStream_purse (n : Nat) (x : Stream) (s : State) : (setStream n x s).purse = s.purse := rfl
@[simp] theorem setStream_reserve (n : Nat) (x : Stream) (s : State) : (setStream n x s).reserve = s.reserve := rfl
@[simp] theorem setStream_power (n : Nat) (x : Stream) (s : State) : (setStream n x s).power = s.power := rfl
@[simp] theorem setStream_boot (n : Nat) (x : Stream) (s : State) : (setStream n x s).boot = s.boot := rfl
@[simp] theorem setStream_trcOut (n : Nat) (x : Stream) (s : State) : (setStream n x s).trcOut = s.trcOut := rfl
@[simp] theorem setStream_testOut (n : Nat) (x : Stream) (s : State) : (setStream n x s).testOut = s.testOut := rfl

@[simp] theorem reg_setStream (n : Nat) (x : Stream) (i₁ : Nat) (s : State) : reg (setStream n x s) i₁ = reg s i₁ := rfl
@[simp] theorem thread_setStream (n : Nat) (x : Stream) (v₁ : Who) (s : State) : thread (setStream n x s) v₁ = thread s v₁ := rfl
@[simp] theorem tenant_setStream (n : Nat) (x : Stream) (i₁ : Nat) (s : State) : tenant (setStream n x s) i₁ = tenant s i₁ := rfl
@[simp] theorem queueAt_setStream (n : Nat) (x : Stream) (i₁ : Nat) (s : State) : queueAt (setStream n x s) i₁ = queueAt s i₁ := rfl
@[simp] theorem scratchByte_setStream (n : Nat) (x : Stream) (i₁ i₂ : Nat) (s : State) : scratchByte (setStream n x s) i₁ i₂ = scratchByte s i₁ i₂ := rfl
@[simp] theorem clkUp_setStream (n : Nat) (x : Stream) (i₁ : Nat) (s : State) : clkUp (setStream n x s) i₁ = clkUp s i₁ := rfl
@[simp] theorem pdUp_setStream (n : Nat) (x : Stream) (i₁ : Nat) (s : State) : pdUp (setStream n x s) i₁ = pdUp s i₁ := rfl

/-! ### onStream -/

@[simp] theorem onStream_pending (n : Nat) (f : Stream → Stream) (s : State) : (onStream n f s).pending = s.pending := rfl
@[simp] theorem onStream_build (n : Nat) (f : Stream → Stream) (s : State) : (onStream n f s).build = s.build := rfl
@[simp] theorem onStream_free (n : Nat) (f : Stream → Stream) (s : State) : (onStream n f s).free = s.free := rfl
@[simp] theorem onStream_emitted (n : Nat) (f : Stream → Stream) (s : State) : (onStream n f s).emitted = s.emitted := rfl
@[simp] theorem onStream_issueNo (n : Nat) (f : Stream → Stream) (s : State) : (onStream n f s).issueNo = s.issueNo := rfl
@[simp] theorem onStream_stores (n : Nat) (f : Stream → Stream) (s : State) : (onStream n f s).stores = s.stores := rfl
@[simp] theorem onStream_instId (n : Nat) (f : Stream → Stream) (s : State) : (onStream n f s).instId = s.instId := rfl
@[simp] theorem onStream_regs (n : Nat) (f : Stream → Stream) (s : State) : (onStream n f s).regs = s.regs := rfl
@[simp] theorem onStream_latch (n : Nat) (f : Stream → Stream) (s : State) : (onStream n f s).latch = s.latch := rfl
@[simp] theorem onStream_heldLo (n : Nat) (f : Stream → Stream) (s : State) : (onStream n f s).heldLo = s.heldLo := rfl
@[simp] theorem onStream_regOut (n : Nat) (f : Stream → Stream) (s : State) : (onStream n f s).regOut = s.regOut := rfl
@[simp] theorem onStream_threads (n : Nat) (f : Stream → Stream) (s : State) : (onStream n f s).threads = s.threads := rfl
@[simp] theorem onStream_prog (n : Nat) (f : Stream → Stream) (s : State) : (onStream n f s).prog = s.prog := rfl
@[simp] theorem onStream_scratch (n : Nat) (f : Stream → Stream) (s : State) : (onStream n f s).scratch = s.scratch := rfl
@[simp] theorem onStream_tickets (n : Nat) (f : Stream → Stream) (s : State) : (onStream n f s).tickets = s.tickets := rfl
@[simp] theorem onStream_ticketNext (n : Nat) (f : Stream → Stream) (s : State) : (onStream n f s).ticketNext = s.ticketNext := rfl
@[simp] theorem onStream_lastIssued (n : Nat) (f : Stream → Stream) (s : State) : (onStream n f s).lastIssued = s.lastIssued := rfl
@[simp] theorem onStream_clerkFatal (n : Nat) (f : Stream → Stream) (s : State) : (onStream n f s).clerkFatal = s.clerkFatal := rfl
@[simp] theorem onStream_beat (n : Nat) (f : Stream → Stream) (s : State) : (onStream n f s).beat = s.beat := rfl
@[simp] theorem onStream_day (n : Nat) (f : Stream → Stream) (s : State) : (onStream n f s).day = s.day := rfl
@[simp] theorem onStream_teller (n : Nat) (f : Stream → Stream) (s : State) : (onStream n f s).teller = s.teller := rfl
@[simp] theorem onStream_hops (n : Nat) (f : Stream → Stream) (s : State) : (onStream n f s).hops = s.hops := rfl
@[simp] theorem onStream_tenants (n : Nat) (f : Stream → Stream) (s : State) : (onStream n f s).tenants = s.tenants := rfl
@[simp] theorem onStream_genNext (n : Nat) (f : Stream → Stream) (s : State) : (onStream n f s).genNext = s.genNext := rfl
@[simp] theorem onStream_prefetch (n : Nat) (f : Stream → Stream) (s : State) : (onStream n f s).prefetch = s.prefetch := rfl
@[simp] theorem onStream_grammars (n : Nat) (f : Stream → Stream) (s : State) : (onStream n f s).grammars = s.grammars := rfl
@[simp] theorem onStream_maskSets (n : Nat) (f : Stream → Stream) (s : State) : (onStream n f s).maskSets = s.maskSets := rfl
@[simp] theorem onStream_sortStep (n : Nat) (f : Stream → Stream) (s : State) : (onStream n f s).sortStep = s.sortStep := rfl
@[simp] theorem onStream_sortTemp (n : Nat) (f : Stream → Stream) (s : State) : (onStream n f s).sortTemp = s.sortTemp := rfl
@[simp] theorem onStream_sortDead (n : Nat) (f : Stream → Stream) (s : State) : (onStream n f s).sortDead = s.sortDead := rfl
@[simp] theorem onStream_clear (n : Nat) (f : Stream → Stream) (s : State) : (onStream n f s).clear = s.clear := rfl
@[simp] theorem onStream_egress0 (n : Nat) (f : Stream → Stream) (s : State) : (onStream n f s).egress0 = s.egress0 := rfl
@[simp] theorem onStream_egress1 (n : Nat) (f : Stream → Stream) (s : State) : (onStream n f s).egress1 = s.egress1 := rfl
@[simp] theorem onStream_accesses (n : Nat) (f : Stream → Stream) (s : State) : (onStream n f s).accesses = s.accesses := rfl
@[simp] theorem onStream_nextAccess (n : Nat) (f : Stream → Stream) (s : State) : (onStream n f s).nextAccess = s.nextAccess := rfl
@[simp] theorem onStream_ledger (n : Nat) (f : Stream → Stream) (s : State) : (onStream n f s).ledger = s.ledger := rfl
@[simp] theorem onStream_queue0 (n : Nat) (f : Stream → Stream) (s : State) : (onStream n f s).queue0 = s.queue0 := rfl
@[simp] theorem onStream_queue1 (n : Nat) (f : Stream → Stream) (s : State) : (onStream n f s).queue1 = s.queue1 := rfl
@[simp] theorem onStream_queue2 (n : Nat) (f : Stream → Stream) (s : State) : (onStream n f s).queue2 = s.queue2 := rfl
@[simp] theorem onStream_queue3 (n : Nat) (f : Stream → Stream) (s : State) : (onStream n f s).queue3 = s.queue3 := rfl
@[simp] theorem onStream_kcw (n : Nat) (f : Stream → Stream) (s : State) : (onStream n f s).kcw = s.kcw := rfl
@[simp] theorem onStream_purse (n : Nat) (f : Stream → Stream) (s : State) : (onStream n f s).purse = s.purse := rfl
@[simp] theorem onStream_reserve (n : Nat) (f : Stream → Stream) (s : State) : (onStream n f s).reserve = s.reserve := rfl
@[simp] theorem onStream_power (n : Nat) (f : Stream → Stream) (s : State) : (onStream n f s).power = s.power := rfl
@[simp] theorem onStream_boot (n : Nat) (f : Stream → Stream) (s : State) : (onStream n f s).boot = s.boot := rfl
@[simp] theorem onStream_trcOut (n : Nat) (f : Stream → Stream) (s : State) : (onStream n f s).trcOut = s.trcOut := rfl
@[simp] theorem onStream_testOut (n : Nat) (f : Stream → Stream) (s : State) : (onStream n f s).testOut = s.testOut := rfl

@[simp] theorem reg_onStream (n : Nat) (f : Stream → Stream) (i₁ : Nat) (s : State) : reg (onStream n f s) i₁ = reg s i₁ := rfl
@[simp] theorem thread_onStream (n : Nat) (f : Stream → Stream) (v₁ : Who) (s : State) : thread (onStream n f s) v₁ = thread s v₁ := rfl
@[simp] theorem tenant_onStream (n : Nat) (f : Stream → Stream) (i₁ : Nat) (s : State) : tenant (onStream n f s) i₁ = tenant s i₁ := rfl
@[simp] theorem queueAt_onStream (n : Nat) (f : Stream → Stream) (i₁ : Nat) (s : State) : queueAt (onStream n f s) i₁ = queueAt s i₁ := rfl
@[simp] theorem scratchByte_onStream (n : Nat) (f : Stream → Stream) (i₁ i₂ : Nat) (s : State) : scratchByte (onStream n f s) i₁ i₂ = scratchByte s i₁ i₂ := rfl
@[simp] theorem clkUp_onStream (n : Nat) (f : Stream → Stream) (i₁ : Nat) (s : State) : clkUp (onStream n f s) i₁ = clkUp s i₁ := rfl
@[simp] theorem pdUp_onStream (n : Nat) (f : Stream → Stream) (i₁ : Nat) (s : State) : pdUp (onStream n f s) i₁ = pdUp s i₁ := rfl

/-! ### setTenant -/

@[simp] theorem setTenant_pending (k : Nat) (x : Tenant) (s : State) : (setTenant k x s).pending = s.pending := rfl
@[simp] theorem setTenant_build (k : Nat) (x : Tenant) (s : State) : (setTenant k x s).build = s.build := rfl
@[simp] theorem setTenant_free (k : Nat) (x : Tenant) (s : State) : (setTenant k x s).free = s.free := rfl
@[simp] theorem setTenant_emitted (k : Nat) (x : Tenant) (s : State) : (setTenant k x s).emitted = s.emitted := rfl
@[simp] theorem setTenant_issueNo (k : Nat) (x : Tenant) (s : State) : (setTenant k x s).issueNo = s.issueNo := rfl
@[simp] theorem setTenant_stores (k : Nat) (x : Tenant) (s : State) : (setTenant k x s).stores = s.stores := rfl
@[simp] theorem setTenant_instId (k : Nat) (x : Tenant) (s : State) : (setTenant k x s).instId = s.instId := rfl
@[simp] theorem setTenant_regs (k : Nat) (x : Tenant) (s : State) : (setTenant k x s).regs = s.regs := rfl
@[simp] theorem setTenant_latch (k : Nat) (x : Tenant) (s : State) : (setTenant k x s).latch = s.latch := rfl
@[simp] theorem setTenant_heldLo (k : Nat) (x : Tenant) (s : State) : (setTenant k x s).heldLo = s.heldLo := rfl
@[simp] theorem setTenant_regOut (k : Nat) (x : Tenant) (s : State) : (setTenant k x s).regOut = s.regOut := rfl
@[simp] theorem setTenant_threads (k : Nat) (x : Tenant) (s : State) : (setTenant k x s).threads = s.threads := rfl
@[simp] theorem setTenant_prog (k : Nat) (x : Tenant) (s : State) : (setTenant k x s).prog = s.prog := rfl
@[simp] theorem setTenant_scratch (k : Nat) (x : Tenant) (s : State) : (setTenant k x s).scratch = s.scratch := rfl
@[simp] theorem setTenant_tickets (k : Nat) (x : Tenant) (s : State) : (setTenant k x s).tickets = s.tickets := rfl
@[simp] theorem setTenant_ticketNext (k : Nat) (x : Tenant) (s : State) : (setTenant k x s).ticketNext = s.ticketNext := rfl
@[simp] theorem setTenant_lastIssued (k : Nat) (x : Tenant) (s : State) : (setTenant k x s).lastIssued = s.lastIssued := rfl
@[simp] theorem setTenant_clerkFatal (k : Nat) (x : Tenant) (s : State) : (setTenant k x s).clerkFatal = s.clerkFatal := rfl
@[simp] theorem setTenant_streams (k : Nat) (x : Tenant) (s : State) : (setTenant k x s).streams = s.streams := rfl
@[simp] theorem setTenant_beat (k : Nat) (x : Tenant) (s : State) : (setTenant k x s).beat = s.beat := rfl
@[simp] theorem setTenant_day (k : Nat) (x : Tenant) (s : State) : (setTenant k x s).day = s.day := rfl
@[simp] theorem setTenant_teller (k : Nat) (x : Tenant) (s : State) : (setTenant k x s).teller = s.teller := rfl
@[simp] theorem setTenant_hops (k : Nat) (x : Tenant) (s : State) : (setTenant k x s).hops = s.hops := rfl
@[simp] theorem setTenant_genNext (k : Nat) (x : Tenant) (s : State) : (setTenant k x s).genNext = s.genNext := rfl
@[simp] theorem setTenant_prefetch (k : Nat) (x : Tenant) (s : State) : (setTenant k x s).prefetch = s.prefetch := rfl
@[simp] theorem setTenant_grammars (k : Nat) (x : Tenant) (s : State) : (setTenant k x s).grammars = s.grammars := rfl
@[simp] theorem setTenant_maskSets (k : Nat) (x : Tenant) (s : State) : (setTenant k x s).maskSets = s.maskSets := rfl
@[simp] theorem setTenant_sortStep (k : Nat) (x : Tenant) (s : State) : (setTenant k x s).sortStep = s.sortStep := rfl
@[simp] theorem setTenant_sortTemp (k : Nat) (x : Tenant) (s : State) : (setTenant k x s).sortTemp = s.sortTemp := rfl
@[simp] theorem setTenant_sortDead (k : Nat) (x : Tenant) (s : State) : (setTenant k x s).sortDead = s.sortDead := rfl
@[simp] theorem setTenant_clear (k : Nat) (x : Tenant) (s : State) : (setTenant k x s).clear = s.clear := rfl
@[simp] theorem setTenant_egress0 (k : Nat) (x : Tenant) (s : State) : (setTenant k x s).egress0 = s.egress0 := rfl
@[simp] theorem setTenant_egress1 (k : Nat) (x : Tenant) (s : State) : (setTenant k x s).egress1 = s.egress1 := rfl
@[simp] theorem setTenant_accesses (k : Nat) (x : Tenant) (s : State) : (setTenant k x s).accesses = s.accesses := rfl
@[simp] theorem setTenant_nextAccess (k : Nat) (x : Tenant) (s : State) : (setTenant k x s).nextAccess = s.nextAccess := rfl
@[simp] theorem setTenant_ledger (k : Nat) (x : Tenant) (s : State) : (setTenant k x s).ledger = s.ledger := rfl
@[simp] theorem setTenant_queue0 (k : Nat) (x : Tenant) (s : State) : (setTenant k x s).queue0 = s.queue0 := rfl
@[simp] theorem setTenant_queue1 (k : Nat) (x : Tenant) (s : State) : (setTenant k x s).queue1 = s.queue1 := rfl
@[simp] theorem setTenant_queue2 (k : Nat) (x : Tenant) (s : State) : (setTenant k x s).queue2 = s.queue2 := rfl
@[simp] theorem setTenant_queue3 (k : Nat) (x : Tenant) (s : State) : (setTenant k x s).queue3 = s.queue3 := rfl
@[simp] theorem setTenant_kcw (k : Nat) (x : Tenant) (s : State) : (setTenant k x s).kcw = s.kcw := rfl
@[simp] theorem setTenant_purse (k : Nat) (x : Tenant) (s : State) : (setTenant k x s).purse = s.purse := rfl
@[simp] theorem setTenant_reserve (k : Nat) (x : Tenant) (s : State) : (setTenant k x s).reserve = s.reserve := rfl
@[simp] theorem setTenant_power (k : Nat) (x : Tenant) (s : State) : (setTenant k x s).power = s.power := rfl
@[simp] theorem setTenant_boot (k : Nat) (x : Tenant) (s : State) : (setTenant k x s).boot = s.boot := rfl
@[simp] theorem setTenant_trcOut (k : Nat) (x : Tenant) (s : State) : (setTenant k x s).trcOut = s.trcOut := rfl
@[simp] theorem setTenant_testOut (k : Nat) (x : Tenant) (s : State) : (setTenant k x s).testOut = s.testOut := rfl

@[simp] theorem reg_setTenant (k : Nat) (x : Tenant) (i₁ : Nat) (s : State) : reg (setTenant k x s) i₁ = reg s i₁ := rfl
@[simp] theorem thread_setTenant (k : Nat) (x : Tenant) (v₁ : Who) (s : State) : thread (setTenant k x s) v₁ = thread s v₁ := rfl
@[simp] theorem stream_setTenant (k : Nat) (x : Tenant) (i₁ : Nat) (s : State) : stream (setTenant k x s) i₁ = stream s i₁ := rfl
@[simp] theorem queueAt_setTenant (k : Nat) (x : Tenant) (i₁ : Nat) (s : State) : queueAt (setTenant k x s) i₁ = queueAt s i₁ := rfl
@[simp] theorem scratchByte_setTenant (k : Nat) (x : Tenant) (i₁ i₂ : Nat) (s : State) : scratchByte (setTenant k x s) i₁ i₂ = scratchByte s i₁ i₂ := rfl
@[simp] theorem clkUp_setTenant (k : Nat) (x : Tenant) (i₁ : Nat) (s : State) : clkUp (setTenant k x s) i₁ = clkUp s i₁ := rfl
@[simp] theorem pdUp_setTenant (k : Nat) (x : Tenant) (i₁ : Nat) (s : State) : pdUp (setTenant k x s) i₁ = pdUp s i₁ := rfl

/-! ### setQueueAt -/

@[simp] theorem setQueueAt_pending (h : Nat) (q : List Tile) (s : State) : (setQueueAt h q s).pending = s.pending := rfl
@[simp] theorem setQueueAt_build (h : Nat) (q : List Tile) (s : State) : (setQueueAt h q s).build = s.build := rfl
@[simp] theorem setQueueAt_free (h : Nat) (q : List Tile) (s : State) : (setQueueAt h q s).free = s.free := rfl
@[simp] theorem setQueueAt_emitted (h : Nat) (q : List Tile) (s : State) : (setQueueAt h q s).emitted = s.emitted := rfl
@[simp] theorem setQueueAt_issueNo (h : Nat) (q : List Tile) (s : State) : (setQueueAt h q s).issueNo = s.issueNo := rfl
@[simp] theorem setQueueAt_stores (h : Nat) (q : List Tile) (s : State) : (setQueueAt h q s).stores = s.stores := rfl
@[simp] theorem setQueueAt_instId (h : Nat) (q : List Tile) (s : State) : (setQueueAt h q s).instId = s.instId := rfl
@[simp] theorem setQueueAt_regs (h : Nat) (q : List Tile) (s : State) : (setQueueAt h q s).regs = s.regs := rfl
@[simp] theorem setQueueAt_latch (h : Nat) (q : List Tile) (s : State) : (setQueueAt h q s).latch = s.latch := rfl
@[simp] theorem setQueueAt_heldLo (h : Nat) (q : List Tile) (s : State) : (setQueueAt h q s).heldLo = s.heldLo := rfl
@[simp] theorem setQueueAt_regOut (h : Nat) (q : List Tile) (s : State) : (setQueueAt h q s).regOut = s.regOut := rfl
@[simp] theorem setQueueAt_threads (h : Nat) (q : List Tile) (s : State) : (setQueueAt h q s).threads = s.threads := rfl
@[simp] theorem setQueueAt_prog (h : Nat) (q : List Tile) (s : State) : (setQueueAt h q s).prog = s.prog := rfl
@[simp] theorem setQueueAt_scratch (h : Nat) (q : List Tile) (s : State) : (setQueueAt h q s).scratch = s.scratch := rfl
@[simp] theorem setQueueAt_tickets (h : Nat) (q : List Tile) (s : State) : (setQueueAt h q s).tickets = s.tickets := rfl
@[simp] theorem setQueueAt_ticketNext (h : Nat) (q : List Tile) (s : State) : (setQueueAt h q s).ticketNext = s.ticketNext := rfl
@[simp] theorem setQueueAt_lastIssued (h : Nat) (q : List Tile) (s : State) : (setQueueAt h q s).lastIssued = s.lastIssued := rfl
@[simp] theorem setQueueAt_clerkFatal (h : Nat) (q : List Tile) (s : State) : (setQueueAt h q s).clerkFatal = s.clerkFatal := rfl
@[simp] theorem setQueueAt_streams (h : Nat) (q : List Tile) (s : State) : (setQueueAt h q s).streams = s.streams := rfl
@[simp] theorem setQueueAt_beat (h : Nat) (q : List Tile) (s : State) : (setQueueAt h q s).beat = s.beat := rfl
@[simp] theorem setQueueAt_day (h : Nat) (q : List Tile) (s : State) : (setQueueAt h q s).day = s.day := rfl
@[simp] theorem setQueueAt_teller (h : Nat) (q : List Tile) (s : State) : (setQueueAt h q s).teller = s.teller := rfl
@[simp] theorem setQueueAt_tenants (h : Nat) (q : List Tile) (s : State) : (setQueueAt h q s).tenants = s.tenants := rfl
@[simp] theorem setQueueAt_genNext (h : Nat) (q : List Tile) (s : State) : (setQueueAt h q s).genNext = s.genNext := rfl
@[simp] theorem setQueueAt_prefetch (h : Nat) (q : List Tile) (s : State) : (setQueueAt h q s).prefetch = s.prefetch := rfl
@[simp] theorem setQueueAt_grammars (h : Nat) (q : List Tile) (s : State) : (setQueueAt h q s).grammars = s.grammars := rfl
@[simp] theorem setQueueAt_maskSets (h : Nat) (q : List Tile) (s : State) : (setQueueAt h q s).maskSets = s.maskSets := rfl
@[simp] theorem setQueueAt_sortStep (h : Nat) (q : List Tile) (s : State) : (setQueueAt h q s).sortStep = s.sortStep := rfl
@[simp] theorem setQueueAt_sortTemp (h : Nat) (q : List Tile) (s : State) : (setQueueAt h q s).sortTemp = s.sortTemp := rfl
@[simp] theorem setQueueAt_sortDead (h : Nat) (q : List Tile) (s : State) : (setQueueAt h q s).sortDead = s.sortDead := rfl
@[simp] theorem setQueueAt_clear (h : Nat) (q : List Tile) (s : State) : (setQueueAt h q s).clear = s.clear := rfl
@[simp] theorem setQueueAt_egress0 (h : Nat) (q : List Tile) (s : State) : (setQueueAt h q s).egress0 = s.egress0 := rfl
@[simp] theorem setQueueAt_egress1 (h : Nat) (q : List Tile) (s : State) : (setQueueAt h q s).egress1 = s.egress1 := rfl
@[simp] theorem setQueueAt_accesses (h : Nat) (q : List Tile) (s : State) : (setQueueAt h q s).accesses = s.accesses := rfl
@[simp] theorem setQueueAt_nextAccess (h : Nat) (q : List Tile) (s : State) : (setQueueAt h q s).nextAccess = s.nextAccess := rfl
@[simp] theorem setQueueAt_ledger (h : Nat) (q : List Tile) (s : State) : (setQueueAt h q s).ledger = s.ledger := rfl
@[simp] theorem setQueueAt_queue0 (h : Nat) (q : List Tile) (s : State) : (setQueueAt h q s).queue0 = s.queue0 := rfl
@[simp] theorem setQueueAt_queue1 (h : Nat) (q : List Tile) (s : State) : (setQueueAt h q s).queue1 = s.queue1 := rfl
@[simp] theorem setQueueAt_queue2 (h : Nat) (q : List Tile) (s : State) : (setQueueAt h q s).queue2 = s.queue2 := rfl
@[simp] theorem setQueueAt_queue3 (h : Nat) (q : List Tile) (s : State) : (setQueueAt h q s).queue3 = s.queue3 := rfl
@[simp] theorem setQueueAt_kcw (h : Nat) (q : List Tile) (s : State) : (setQueueAt h q s).kcw = s.kcw := rfl
@[simp] theorem setQueueAt_purse (h : Nat) (q : List Tile) (s : State) : (setQueueAt h q s).purse = s.purse := rfl
@[simp] theorem setQueueAt_reserve (h : Nat) (q : List Tile) (s : State) : (setQueueAt h q s).reserve = s.reserve := rfl
@[simp] theorem setQueueAt_power (h : Nat) (q : List Tile) (s : State) : (setQueueAt h q s).power = s.power := rfl
@[simp] theorem setQueueAt_boot (h : Nat) (q : List Tile) (s : State) : (setQueueAt h q s).boot = s.boot := rfl
@[simp] theorem setQueueAt_trcOut (h : Nat) (q : List Tile) (s : State) : (setQueueAt h q s).trcOut = s.trcOut := rfl
@[simp] theorem setQueueAt_testOut (h : Nat) (q : List Tile) (s : State) : (setQueueAt h q s).testOut = s.testOut := rfl

@[simp] theorem reg_setQueueAt (h : Nat) (q : List Tile) (i₁ : Nat) (s : State) : reg (setQueueAt h q s) i₁ = reg s i₁ := rfl
@[simp] theorem thread_setQueueAt (h : Nat) (q : List Tile) (v₁ : Who) (s : State) : thread (setQueueAt h q s) v₁ = thread s v₁ := rfl
@[simp] theorem stream_setQueueAt (h : Nat) (q : List Tile) (i₁ : Nat) (s : State) : stream (setQueueAt h q s) i₁ = stream s i₁ := rfl
@[simp] theorem tenant_setQueueAt (h : Nat) (q : List Tile) (i₁ : Nat) (s : State) : tenant (setQueueAt h q s) i₁ = tenant s i₁ := rfl
@[simp] theorem scratchByte_setQueueAt (h : Nat) (q : List Tile) (i₁ i₂ : Nat) (s : State) : scratchByte (setQueueAt h q s) i₁ i₂ = scratchByte s i₁ i₂ := rfl
@[simp] theorem clkUp_setQueueAt (h : Nat) (q : List Tile) (i₁ : Nat) (s : State) : clkUp (setQueueAt h q s) i₁ = clkUp s i₁ := rfl
@[simp] theorem pdUp_setQueueAt (h : Nat) (q : List Tile) (i₁ : Nat) (s : State) : pdUp (setQueueAt h q s) i₁ = pdUp s i₁ := rfl

/-! ### enqueue -/

@[simp] theorem enqueue_pending (h : Nat) (t : Tile) (s : State) : (enqueue h t s).pending = s.pending := rfl
@[simp] theorem enqueue_build (h : Nat) (t : Tile) (s : State) : (enqueue h t s).build = s.build := rfl
@[simp] theorem enqueue_free (h : Nat) (t : Tile) (s : State) : (enqueue h t s).free = s.free := rfl
@[simp] theorem enqueue_emitted (h : Nat) (t : Tile) (s : State) : (enqueue h t s).emitted = s.emitted := rfl
@[simp] theorem enqueue_issueNo (h : Nat) (t : Tile) (s : State) : (enqueue h t s).issueNo = s.issueNo := rfl
@[simp] theorem enqueue_stores (h : Nat) (t : Tile) (s : State) : (enqueue h t s).stores = s.stores := rfl
@[simp] theorem enqueue_instId (h : Nat) (t : Tile) (s : State) : (enqueue h t s).instId = s.instId := rfl
@[simp] theorem enqueue_regs (h : Nat) (t : Tile) (s : State) : (enqueue h t s).regs = s.regs := rfl
@[simp] theorem enqueue_latch (h : Nat) (t : Tile) (s : State) : (enqueue h t s).latch = s.latch := rfl
@[simp] theorem enqueue_heldLo (h : Nat) (t : Tile) (s : State) : (enqueue h t s).heldLo = s.heldLo := rfl
@[simp] theorem enqueue_regOut (h : Nat) (t : Tile) (s : State) : (enqueue h t s).regOut = s.regOut := rfl
@[simp] theorem enqueue_threads (h : Nat) (t : Tile) (s : State) : (enqueue h t s).threads = s.threads := rfl
@[simp] theorem enqueue_prog (h : Nat) (t : Tile) (s : State) : (enqueue h t s).prog = s.prog := rfl
@[simp] theorem enqueue_scratch (h : Nat) (t : Tile) (s : State) : (enqueue h t s).scratch = s.scratch := rfl
@[simp] theorem enqueue_tickets (h : Nat) (t : Tile) (s : State) : (enqueue h t s).tickets = s.tickets := rfl
@[simp] theorem enqueue_ticketNext (h : Nat) (t : Tile) (s : State) : (enqueue h t s).ticketNext = s.ticketNext := rfl
@[simp] theorem enqueue_lastIssued (h : Nat) (t : Tile) (s : State) : (enqueue h t s).lastIssued = s.lastIssued := rfl
@[simp] theorem enqueue_clerkFatal (h : Nat) (t : Tile) (s : State) : (enqueue h t s).clerkFatal = s.clerkFatal := rfl
@[simp] theorem enqueue_streams (h : Nat) (t : Tile) (s : State) : (enqueue h t s).streams = s.streams := rfl
@[simp] theorem enqueue_beat (h : Nat) (t : Tile) (s : State) : (enqueue h t s).beat = s.beat := rfl
@[simp] theorem enqueue_day (h : Nat) (t : Tile) (s : State) : (enqueue h t s).day = s.day := rfl
@[simp] theorem enqueue_teller (h : Nat) (t : Tile) (s : State) : (enqueue h t s).teller = s.teller := rfl
@[simp] theorem enqueue_tenants (h : Nat) (t : Tile) (s : State) : (enqueue h t s).tenants = s.tenants := rfl
@[simp] theorem enqueue_genNext (h : Nat) (t : Tile) (s : State) : (enqueue h t s).genNext = s.genNext := rfl
@[simp] theorem enqueue_prefetch (h : Nat) (t : Tile) (s : State) : (enqueue h t s).prefetch = s.prefetch := rfl
@[simp] theorem enqueue_grammars (h : Nat) (t : Tile) (s : State) : (enqueue h t s).grammars = s.grammars := rfl
@[simp] theorem enqueue_maskSets (h : Nat) (t : Tile) (s : State) : (enqueue h t s).maskSets = s.maskSets := rfl
@[simp] theorem enqueue_sortStep (h : Nat) (t : Tile) (s : State) : (enqueue h t s).sortStep = s.sortStep := rfl
@[simp] theorem enqueue_sortTemp (h : Nat) (t : Tile) (s : State) : (enqueue h t s).sortTemp = s.sortTemp := rfl
@[simp] theorem enqueue_sortDead (h : Nat) (t : Tile) (s : State) : (enqueue h t s).sortDead = s.sortDead := rfl
@[simp] theorem enqueue_clear (h : Nat) (t : Tile) (s : State) : (enqueue h t s).clear = s.clear := rfl
@[simp] theorem enqueue_egress0 (h : Nat) (t : Tile) (s : State) : (enqueue h t s).egress0 = s.egress0 := rfl
@[simp] theorem enqueue_egress1 (h : Nat) (t : Tile) (s : State) : (enqueue h t s).egress1 = s.egress1 := rfl
@[simp] theorem enqueue_accesses (h : Nat) (t : Tile) (s : State) : (enqueue h t s).accesses = s.accesses := rfl
@[simp] theorem enqueue_nextAccess (h : Nat) (t : Tile) (s : State) : (enqueue h t s).nextAccess = s.nextAccess := rfl
@[simp] theorem enqueue_ledger (h : Nat) (t : Tile) (s : State) : (enqueue h t s).ledger = s.ledger := rfl
@[simp] theorem enqueue_queue0 (h : Nat) (t : Tile) (s : State) : (enqueue h t s).queue0 = s.queue0 := rfl
@[simp] theorem enqueue_queue1 (h : Nat) (t : Tile) (s : State) : (enqueue h t s).queue1 = s.queue1 := rfl
@[simp] theorem enqueue_queue2 (h : Nat) (t : Tile) (s : State) : (enqueue h t s).queue2 = s.queue2 := rfl
@[simp] theorem enqueue_queue3 (h : Nat) (t : Tile) (s : State) : (enqueue h t s).queue3 = s.queue3 := rfl
@[simp] theorem enqueue_kcw (h : Nat) (t : Tile) (s : State) : (enqueue h t s).kcw = s.kcw := rfl
@[simp] theorem enqueue_purse (h : Nat) (t : Tile) (s : State) : (enqueue h t s).purse = s.purse := rfl
@[simp] theorem enqueue_reserve (h : Nat) (t : Tile) (s : State) : (enqueue h t s).reserve = s.reserve := rfl
@[simp] theorem enqueue_power (h : Nat) (t : Tile) (s : State) : (enqueue h t s).power = s.power := rfl
@[simp] theorem enqueue_boot (h : Nat) (t : Tile) (s : State) : (enqueue h t s).boot = s.boot := rfl
@[simp] theorem enqueue_trcOut (h : Nat) (t : Tile) (s : State) : (enqueue h t s).trcOut = s.trcOut := rfl
@[simp] theorem enqueue_testOut (h : Nat) (t : Tile) (s : State) : (enqueue h t s).testOut = s.testOut := rfl

@[simp] theorem reg_enqueue (h : Nat) (t : Tile) (i₁ : Nat) (s : State) : reg (enqueue h t s) i₁ = reg s i₁ := rfl
@[simp] theorem thread_enqueue (h : Nat) (t : Tile) (v₁ : Who) (s : State) : thread (enqueue h t s) v₁ = thread s v₁ := rfl
@[simp] theorem stream_enqueue (h : Nat) (t : Tile) (i₁ : Nat) (s : State) : stream (enqueue h t s) i₁ = stream s i₁ := rfl
@[simp] theorem tenant_enqueue (h : Nat) (t : Tile) (i₁ : Nat) (s : State) : tenant (enqueue h t s) i₁ = tenant s i₁ := rfl
@[simp] theorem scratchByte_enqueue (h : Nat) (t : Tile) (i₁ i₂ : Nat) (s : State) : scratchByte (enqueue h t s) i₁ i₂ = scratchByte s i₁ i₂ := rfl
@[simp] theorem clkUp_enqueue (h : Nat) (t : Tile) (i₁ : Nat) (s : State) : clkUp (enqueue h t s) i₁ = clkUp s i₁ := rfl
@[simp] theorem pdUp_enqueue (h : Nat) (t : Tile) (i₁ : Nat) (s : State) : pdUp (enqueue h t s) i₁ = pdUp s i₁ := rfl

/-! ### onItem -/

@[simp] theorem onItem_pending (n : Nat) (f : Item → Item) (s : State) : (onItem n f s).pending = s.pending := rfl
@[simp] theorem onItem_build (n : Nat) (f : Item → Item) (s : State) : (onItem n f s).build = s.build := rfl
@[simp] theorem onItem_free (n : Nat) (f : Item → Item) (s : State) : (onItem n f s).free = s.free := rfl
@[simp] theorem onItem_emitted (n : Nat) (f : Item → Item) (s : State) : (onItem n f s).emitted = s.emitted := rfl
@[simp] theorem onItem_issueNo (n : Nat) (f : Item → Item) (s : State) : (onItem n f s).issueNo = s.issueNo := rfl
@[simp] theorem onItem_stores (n : Nat) (f : Item → Item) (s : State) : (onItem n f s).stores = s.stores := rfl
@[simp] theorem onItem_instId (n : Nat) (f : Item → Item) (s : State) : (onItem n f s).instId = s.instId := rfl
@[simp] theorem onItem_regs (n : Nat) (f : Item → Item) (s : State) : (onItem n f s).regs = s.regs := rfl
@[simp] theorem onItem_latch (n : Nat) (f : Item → Item) (s : State) : (onItem n f s).latch = s.latch := rfl
@[simp] theorem onItem_heldLo (n : Nat) (f : Item → Item) (s : State) : (onItem n f s).heldLo = s.heldLo := rfl
@[simp] theorem onItem_regOut (n : Nat) (f : Item → Item) (s : State) : (onItem n f s).regOut = s.regOut := rfl
@[simp] theorem onItem_threads (n : Nat) (f : Item → Item) (s : State) : (onItem n f s).threads = s.threads := rfl
@[simp] theorem onItem_prog (n : Nat) (f : Item → Item) (s : State) : (onItem n f s).prog = s.prog := rfl
@[simp] theorem onItem_scratch (n : Nat) (f : Item → Item) (s : State) : (onItem n f s).scratch = s.scratch := rfl
@[simp] theorem onItem_tickets (n : Nat) (f : Item → Item) (s : State) : (onItem n f s).tickets = s.tickets := rfl
@[simp] theorem onItem_ticketNext (n : Nat) (f : Item → Item) (s : State) : (onItem n f s).ticketNext = s.ticketNext := rfl
@[simp] theorem onItem_lastIssued (n : Nat) (f : Item → Item) (s : State) : (onItem n f s).lastIssued = s.lastIssued := rfl
@[simp] theorem onItem_clerkFatal (n : Nat) (f : Item → Item) (s : State) : (onItem n f s).clerkFatal = s.clerkFatal := rfl
@[simp] theorem onItem_streams (n : Nat) (f : Item → Item) (s : State) : (onItem n f s).streams = s.streams := rfl
@[simp] theorem onItem_beat (n : Nat) (f : Item → Item) (s : State) : (onItem n f s).beat = s.beat := rfl
@[simp] theorem onItem_day (n : Nat) (f : Item → Item) (s : State) : (onItem n f s).day = s.day := rfl
@[simp] theorem onItem_teller (n : Nat) (f : Item → Item) (s : State) : (onItem n f s).teller = s.teller := rfl
@[simp] theorem onItem_hops (n : Nat) (f : Item → Item) (s : State) : (onItem n f s).hops = s.hops := rfl
@[simp] theorem onItem_tenants (n : Nat) (f : Item → Item) (s : State) : (onItem n f s).tenants = s.tenants := rfl
@[simp] theorem onItem_genNext (n : Nat) (f : Item → Item) (s : State) : (onItem n f s).genNext = s.genNext := rfl
@[simp] theorem onItem_prefetch (n : Nat) (f : Item → Item) (s : State) : (onItem n f s).prefetch = s.prefetch := rfl
@[simp] theorem onItem_grammars (n : Nat) (f : Item → Item) (s : State) : (onItem n f s).grammars = s.grammars := rfl
@[simp] theorem onItem_maskSets (n : Nat) (f : Item → Item) (s : State) : (onItem n f s).maskSets = s.maskSets := rfl
@[simp] theorem onItem_sortStep (n : Nat) (f : Item → Item) (s : State) : (onItem n f s).sortStep = s.sortStep := rfl
@[simp] theorem onItem_sortTemp (n : Nat) (f : Item → Item) (s : State) : (onItem n f s).sortTemp = s.sortTemp := rfl
@[simp] theorem onItem_sortDead (n : Nat) (f : Item → Item) (s : State) : (onItem n f s).sortDead = s.sortDead := rfl
@[simp] theorem onItem_clear (n : Nat) (f : Item → Item) (s : State) : (onItem n f s).clear = s.clear := rfl
@[simp] theorem onItem_egress0 (n : Nat) (f : Item → Item) (s : State) : (onItem n f s).egress0 = s.egress0 := rfl
@[simp] theorem onItem_egress1 (n : Nat) (f : Item → Item) (s : State) : (onItem n f s).egress1 = s.egress1 := rfl
@[simp] theorem onItem_accesses (n : Nat) (f : Item → Item) (s : State) : (onItem n f s).accesses = s.accesses := rfl
@[simp] theorem onItem_nextAccess (n : Nat) (f : Item → Item) (s : State) : (onItem n f s).nextAccess = s.nextAccess := rfl
@[simp] theorem onItem_queue0 (n : Nat) (f : Item → Item) (s : State) : (onItem n f s).queue0 = s.queue0 := rfl
@[simp] theorem onItem_queue1 (n : Nat) (f : Item → Item) (s : State) : (onItem n f s).queue1 = s.queue1 := rfl
@[simp] theorem onItem_queue2 (n : Nat) (f : Item → Item) (s : State) : (onItem n f s).queue2 = s.queue2 := rfl
@[simp] theorem onItem_queue3 (n : Nat) (f : Item → Item) (s : State) : (onItem n f s).queue3 = s.queue3 := rfl
@[simp] theorem onItem_kcw (n : Nat) (f : Item → Item) (s : State) : (onItem n f s).kcw = s.kcw := rfl
@[simp] theorem onItem_purse (n : Nat) (f : Item → Item) (s : State) : (onItem n f s).purse = s.purse := rfl
@[simp] theorem onItem_reserve (n : Nat) (f : Item → Item) (s : State) : (onItem n f s).reserve = s.reserve := rfl
@[simp] theorem onItem_power (n : Nat) (f : Item → Item) (s : State) : (onItem n f s).power = s.power := rfl
@[simp] theorem onItem_boot (n : Nat) (f : Item → Item) (s : State) : (onItem n f s).boot = s.boot := rfl
@[simp] theorem onItem_trcOut (n : Nat) (f : Item → Item) (s : State) : (onItem n f s).trcOut = s.trcOut := rfl
@[simp] theorem onItem_testOut (n : Nat) (f : Item → Item) (s : State) : (onItem n f s).testOut = s.testOut := rfl

@[simp] theorem reg_onItem (n : Nat) (f : Item → Item) (i₁ : Nat) (s : State) : reg (onItem n f s) i₁ = reg s i₁ := rfl
@[simp] theorem thread_onItem (n : Nat) (f : Item → Item) (v₁ : Who) (s : State) : thread (onItem n f s) v₁ = thread s v₁ := rfl
@[simp] theorem stream_onItem (n : Nat) (f : Item → Item) (i₁ : Nat) (s : State) : stream (onItem n f s) i₁ = stream s i₁ := rfl
@[simp] theorem tenant_onItem (n : Nat) (f : Item → Item) (i₁ : Nat) (s : State) : tenant (onItem n f s) i₁ = tenant s i₁ := rfl
@[simp] theorem queueAt_onItem (n : Nat) (f : Item → Item) (i₁ : Nat) (s : State) : queueAt (onItem n f s) i₁ = queueAt s i₁ := rfl
@[simp] theorem scratchByte_onItem (n : Nat) (f : Item → Item) (i₁ i₂ : Nat) (s : State) : scratchByte (onItem n f s) i₁ i₂ = scratchByte s i₁ i₂ := rfl
@[simp] theorem clkUp_onItem (n : Nat) (f : Item → Item) (i₁ : Nat) (s : State) : clkUp (onItem n f s) i₁ = clkUp s i₁ := rfl
@[simp] theorem pdUp_onItem (n : Nat) (f : Item → Item) (i₁ : Nat) (s : State) : pdUp (onItem n f s) i₁ = pdUp s i₁ := rfl

/-! ### onTicket -/

@[simp] theorem onTicket_pending (c t : Nat) (f : Ticket → Ticket) (s : State) : (onTicket c t f s).pending = s.pending := rfl
@[simp] theorem onTicket_build (c t : Nat) (f : Ticket → Ticket) (s : State) : (onTicket c t f s).build = s.build := rfl
@[simp] theorem onTicket_free (c t : Nat) (f : Ticket → Ticket) (s : State) : (onTicket c t f s).free = s.free := rfl
@[simp] theorem onTicket_emitted (c t : Nat) (f : Ticket → Ticket) (s : State) : (onTicket c t f s).emitted = s.emitted := rfl
@[simp] theorem onTicket_issueNo (c t : Nat) (f : Ticket → Ticket) (s : State) : (onTicket c t f s).issueNo = s.issueNo := rfl
@[simp] theorem onTicket_stores (c t : Nat) (f : Ticket → Ticket) (s : State) : (onTicket c t f s).stores = s.stores := rfl
@[simp] theorem onTicket_instId (c t : Nat) (f : Ticket → Ticket) (s : State) : (onTicket c t f s).instId = s.instId := rfl
@[simp] theorem onTicket_regs (c t : Nat) (f : Ticket → Ticket) (s : State) : (onTicket c t f s).regs = s.regs := rfl
@[simp] theorem onTicket_latch (c t : Nat) (f : Ticket → Ticket) (s : State) : (onTicket c t f s).latch = s.latch := rfl
@[simp] theorem onTicket_heldLo (c t : Nat) (f : Ticket → Ticket) (s : State) : (onTicket c t f s).heldLo = s.heldLo := rfl
@[simp] theorem onTicket_regOut (c t : Nat) (f : Ticket → Ticket) (s : State) : (onTicket c t f s).regOut = s.regOut := rfl
@[simp] theorem onTicket_threads (c t : Nat) (f : Ticket → Ticket) (s : State) : (onTicket c t f s).threads = s.threads := rfl
@[simp] theorem onTicket_prog (c t : Nat) (f : Ticket → Ticket) (s : State) : (onTicket c t f s).prog = s.prog := rfl
@[simp] theorem onTicket_scratch (c t : Nat) (f : Ticket → Ticket) (s : State) : (onTicket c t f s).scratch = s.scratch := rfl
@[simp] theorem onTicket_ticketNext (c t : Nat) (f : Ticket → Ticket) (s : State) : (onTicket c t f s).ticketNext = s.ticketNext := rfl
@[simp] theorem onTicket_lastIssued (c t : Nat) (f : Ticket → Ticket) (s : State) : (onTicket c t f s).lastIssued = s.lastIssued := rfl
@[simp] theorem onTicket_clerkFatal (c t : Nat) (f : Ticket → Ticket) (s : State) : (onTicket c t f s).clerkFatal = s.clerkFatal := rfl
@[simp] theorem onTicket_streams (c t : Nat) (f : Ticket → Ticket) (s : State) : (onTicket c t f s).streams = s.streams := rfl
@[simp] theorem onTicket_beat (c t : Nat) (f : Ticket → Ticket) (s : State) : (onTicket c t f s).beat = s.beat := rfl
@[simp] theorem onTicket_day (c t : Nat) (f : Ticket → Ticket) (s : State) : (onTicket c t f s).day = s.day := rfl
@[simp] theorem onTicket_teller (c t : Nat) (f : Ticket → Ticket) (s : State) : (onTicket c t f s).teller = s.teller := rfl
@[simp] theorem onTicket_hops (c t : Nat) (f : Ticket → Ticket) (s : State) : (onTicket c t f s).hops = s.hops := rfl
@[simp] theorem onTicket_tenants (c t : Nat) (f : Ticket → Ticket) (s : State) : (onTicket c t f s).tenants = s.tenants := rfl
@[simp] theorem onTicket_genNext (c t : Nat) (f : Ticket → Ticket) (s : State) : (onTicket c t f s).genNext = s.genNext := rfl
@[simp] theorem onTicket_prefetch (c t : Nat) (f : Ticket → Ticket) (s : State) : (onTicket c t f s).prefetch = s.prefetch := rfl
@[simp] theorem onTicket_grammars (c t : Nat) (f : Ticket → Ticket) (s : State) : (onTicket c t f s).grammars = s.grammars := rfl
@[simp] theorem onTicket_maskSets (c t : Nat) (f : Ticket → Ticket) (s : State) : (onTicket c t f s).maskSets = s.maskSets := rfl
@[simp] theorem onTicket_sortStep (c t : Nat) (f : Ticket → Ticket) (s : State) : (onTicket c t f s).sortStep = s.sortStep := rfl
@[simp] theorem onTicket_sortTemp (c t : Nat) (f : Ticket → Ticket) (s : State) : (onTicket c t f s).sortTemp = s.sortTemp := rfl
@[simp] theorem onTicket_sortDead (c t : Nat) (f : Ticket → Ticket) (s : State) : (onTicket c t f s).sortDead = s.sortDead := rfl
@[simp] theorem onTicket_clear (c t : Nat) (f : Ticket → Ticket) (s : State) : (onTicket c t f s).clear = s.clear := rfl
@[simp] theorem onTicket_egress0 (c t : Nat) (f : Ticket → Ticket) (s : State) : (onTicket c t f s).egress0 = s.egress0 := rfl
@[simp] theorem onTicket_egress1 (c t : Nat) (f : Ticket → Ticket) (s : State) : (onTicket c t f s).egress1 = s.egress1 := rfl
@[simp] theorem onTicket_accesses (c t : Nat) (f : Ticket → Ticket) (s : State) : (onTicket c t f s).accesses = s.accesses := rfl
@[simp] theorem onTicket_nextAccess (c t : Nat) (f : Ticket → Ticket) (s : State) : (onTicket c t f s).nextAccess = s.nextAccess := rfl
@[simp] theorem onTicket_ledger (c t : Nat) (f : Ticket → Ticket) (s : State) : (onTicket c t f s).ledger = s.ledger := rfl
@[simp] theorem onTicket_queue0 (c t : Nat) (f : Ticket → Ticket) (s : State) : (onTicket c t f s).queue0 = s.queue0 := rfl
@[simp] theorem onTicket_queue1 (c t : Nat) (f : Ticket → Ticket) (s : State) : (onTicket c t f s).queue1 = s.queue1 := rfl
@[simp] theorem onTicket_queue2 (c t : Nat) (f : Ticket → Ticket) (s : State) : (onTicket c t f s).queue2 = s.queue2 := rfl
@[simp] theorem onTicket_queue3 (c t : Nat) (f : Ticket → Ticket) (s : State) : (onTicket c t f s).queue3 = s.queue3 := rfl
@[simp] theorem onTicket_kcw (c t : Nat) (f : Ticket → Ticket) (s : State) : (onTicket c t f s).kcw = s.kcw := rfl
@[simp] theorem onTicket_purse (c t : Nat) (f : Ticket → Ticket) (s : State) : (onTicket c t f s).purse = s.purse := rfl
@[simp] theorem onTicket_reserve (c t : Nat) (f : Ticket → Ticket) (s : State) : (onTicket c t f s).reserve = s.reserve := rfl
@[simp] theorem onTicket_power (c t : Nat) (f : Ticket → Ticket) (s : State) : (onTicket c t f s).power = s.power := rfl
@[simp] theorem onTicket_boot (c t : Nat) (f : Ticket → Ticket) (s : State) : (onTicket c t f s).boot = s.boot := rfl
@[simp] theorem onTicket_trcOut (c t : Nat) (f : Ticket → Ticket) (s : State) : (onTicket c t f s).trcOut = s.trcOut := rfl
@[simp] theorem onTicket_testOut (c t : Nat) (f : Ticket → Ticket) (s : State) : (onTicket c t f s).testOut = s.testOut := rfl

@[simp] theorem reg_onTicket (c t : Nat) (f : Ticket → Ticket) (i₁ : Nat) (s : State) : reg (onTicket c t f s) i₁ = reg s i₁ := rfl
@[simp] theorem thread_onTicket (c t : Nat) (f : Ticket → Ticket) (v₁ : Who) (s : State) : thread (onTicket c t f s) v₁ = thread s v₁ := rfl
@[simp] theorem stream_onTicket (c t : Nat) (f : Ticket → Ticket) (i₁ : Nat) (s : State) : stream (onTicket c t f s) i₁ = stream s i₁ := rfl
@[simp] theorem tenant_onTicket (c t : Nat) (f : Ticket → Ticket) (i₁ : Nat) (s : State) : tenant (onTicket c t f s) i₁ = tenant s i₁ := rfl
@[simp] theorem queueAt_onTicket (c t : Nat) (f : Ticket → Ticket) (i₁ : Nat) (s : State) : queueAt (onTicket c t f s) i₁ = queueAt s i₁ := rfl
@[simp] theorem scratchByte_onTicket (c t : Nat) (f : Ticket → Ticket) (i₁ i₂ : Nat) (s : State) : scratchByte (onTicket c t f s) i₁ i₂ = scratchByte s i₁ i₂ := rfl
@[simp] theorem clkUp_onTicket (c t : Nat) (f : Ticket → Ticket) (i₁ : Nat) (s : State) : clkUp (onTicket c t f s) i₁ = clkUp s i₁ := rfl
@[simp] theorem pdUp_onTicket (c t : Nat) (f : Ticket → Ticket) (i₁ : Nat) (s : State) : pdUp (onTicket c t f s) i₁ = pdUp s i₁ := rfl

/-! ### scratchWrite -/

@[simp] theorem scratchWrite_pending (c x : Nat) (bs : List Byte) (s : State) : (scratchWrite c x bs s).pending = s.pending := rfl
@[simp] theorem scratchWrite_build (c x : Nat) (bs : List Byte) (s : State) : (scratchWrite c x bs s).build = s.build := rfl
@[simp] theorem scratchWrite_free (c x : Nat) (bs : List Byte) (s : State) : (scratchWrite c x bs s).free = s.free := rfl
@[simp] theorem scratchWrite_emitted (c x : Nat) (bs : List Byte) (s : State) : (scratchWrite c x bs s).emitted = s.emitted := rfl
@[simp] theorem scratchWrite_issueNo (c x : Nat) (bs : List Byte) (s : State) : (scratchWrite c x bs s).issueNo = s.issueNo := rfl
@[simp] theorem scratchWrite_stores (c x : Nat) (bs : List Byte) (s : State) : (scratchWrite c x bs s).stores = s.stores := rfl
@[simp] theorem scratchWrite_instId (c x : Nat) (bs : List Byte) (s : State) : (scratchWrite c x bs s).instId = s.instId := rfl
@[simp] theorem scratchWrite_regs (c x : Nat) (bs : List Byte) (s : State) : (scratchWrite c x bs s).regs = s.regs := rfl
@[simp] theorem scratchWrite_latch (c x : Nat) (bs : List Byte) (s : State) : (scratchWrite c x bs s).latch = s.latch := rfl
@[simp] theorem scratchWrite_heldLo (c x : Nat) (bs : List Byte) (s : State) : (scratchWrite c x bs s).heldLo = s.heldLo := rfl
@[simp] theorem scratchWrite_regOut (c x : Nat) (bs : List Byte) (s : State) : (scratchWrite c x bs s).regOut = s.regOut := rfl
@[simp] theorem scratchWrite_threads (c x : Nat) (bs : List Byte) (s : State) : (scratchWrite c x bs s).threads = s.threads := rfl
@[simp] theorem scratchWrite_prog (c x : Nat) (bs : List Byte) (s : State) : (scratchWrite c x bs s).prog = s.prog := rfl
@[simp] theorem scratchWrite_tickets (c x : Nat) (bs : List Byte) (s : State) : (scratchWrite c x bs s).tickets = s.tickets := rfl
@[simp] theorem scratchWrite_ticketNext (c x : Nat) (bs : List Byte) (s : State) : (scratchWrite c x bs s).ticketNext = s.ticketNext := rfl
@[simp] theorem scratchWrite_lastIssued (c x : Nat) (bs : List Byte) (s : State) : (scratchWrite c x bs s).lastIssued = s.lastIssued := rfl
@[simp] theorem scratchWrite_clerkFatal (c x : Nat) (bs : List Byte) (s : State) : (scratchWrite c x bs s).clerkFatal = s.clerkFatal := rfl
@[simp] theorem scratchWrite_streams (c x : Nat) (bs : List Byte) (s : State) : (scratchWrite c x bs s).streams = s.streams := rfl
@[simp] theorem scratchWrite_beat (c x : Nat) (bs : List Byte) (s : State) : (scratchWrite c x bs s).beat = s.beat := rfl
@[simp] theorem scratchWrite_day (c x : Nat) (bs : List Byte) (s : State) : (scratchWrite c x bs s).day = s.day := rfl
@[simp] theorem scratchWrite_teller (c x : Nat) (bs : List Byte) (s : State) : (scratchWrite c x bs s).teller = s.teller := rfl
@[simp] theorem scratchWrite_hops (c x : Nat) (bs : List Byte) (s : State) : (scratchWrite c x bs s).hops = s.hops := rfl
@[simp] theorem scratchWrite_tenants (c x : Nat) (bs : List Byte) (s : State) : (scratchWrite c x bs s).tenants = s.tenants := rfl
@[simp] theorem scratchWrite_genNext (c x : Nat) (bs : List Byte) (s : State) : (scratchWrite c x bs s).genNext = s.genNext := rfl
@[simp] theorem scratchWrite_prefetch (c x : Nat) (bs : List Byte) (s : State) : (scratchWrite c x bs s).prefetch = s.prefetch := rfl
@[simp] theorem scratchWrite_grammars (c x : Nat) (bs : List Byte) (s : State) : (scratchWrite c x bs s).grammars = s.grammars := rfl
@[simp] theorem scratchWrite_maskSets (c x : Nat) (bs : List Byte) (s : State) : (scratchWrite c x bs s).maskSets = s.maskSets := rfl
@[simp] theorem scratchWrite_sortStep (c x : Nat) (bs : List Byte) (s : State) : (scratchWrite c x bs s).sortStep = s.sortStep := rfl
@[simp] theorem scratchWrite_sortTemp (c x : Nat) (bs : List Byte) (s : State) : (scratchWrite c x bs s).sortTemp = s.sortTemp := rfl
@[simp] theorem scratchWrite_sortDead (c x : Nat) (bs : List Byte) (s : State) : (scratchWrite c x bs s).sortDead = s.sortDead := rfl
@[simp] theorem scratchWrite_clear (c x : Nat) (bs : List Byte) (s : State) : (scratchWrite c x bs s).clear = s.clear := rfl
@[simp] theorem scratchWrite_egress0 (c x : Nat) (bs : List Byte) (s : State) : (scratchWrite c x bs s).egress0 = s.egress0 := rfl
@[simp] theorem scratchWrite_egress1 (c x : Nat) (bs : List Byte) (s : State) : (scratchWrite c x bs s).egress1 = s.egress1 := rfl
@[simp] theorem scratchWrite_accesses (c x : Nat) (bs : List Byte) (s : State) : (scratchWrite c x bs s).accesses = s.accesses := rfl
@[simp] theorem scratchWrite_nextAccess (c x : Nat) (bs : List Byte) (s : State) : (scratchWrite c x bs s).nextAccess = s.nextAccess := rfl
@[simp] theorem scratchWrite_ledger (c x : Nat) (bs : List Byte) (s : State) : (scratchWrite c x bs s).ledger = s.ledger := rfl
@[simp] theorem scratchWrite_queue0 (c x : Nat) (bs : List Byte) (s : State) : (scratchWrite c x bs s).queue0 = s.queue0 := rfl
@[simp] theorem scratchWrite_queue1 (c x : Nat) (bs : List Byte) (s : State) : (scratchWrite c x bs s).queue1 = s.queue1 := rfl
@[simp] theorem scratchWrite_queue2 (c x : Nat) (bs : List Byte) (s : State) : (scratchWrite c x bs s).queue2 = s.queue2 := rfl
@[simp] theorem scratchWrite_queue3 (c x : Nat) (bs : List Byte) (s : State) : (scratchWrite c x bs s).queue3 = s.queue3 := rfl
@[simp] theorem scratchWrite_kcw (c x : Nat) (bs : List Byte) (s : State) : (scratchWrite c x bs s).kcw = s.kcw := rfl
@[simp] theorem scratchWrite_purse (c x : Nat) (bs : List Byte) (s : State) : (scratchWrite c x bs s).purse = s.purse := rfl
@[simp] theorem scratchWrite_reserve (c x : Nat) (bs : List Byte) (s : State) : (scratchWrite c x bs s).reserve = s.reserve := rfl
@[simp] theorem scratchWrite_power (c x : Nat) (bs : List Byte) (s : State) : (scratchWrite c x bs s).power = s.power := rfl
@[simp] theorem scratchWrite_boot (c x : Nat) (bs : List Byte) (s : State) : (scratchWrite c x bs s).boot = s.boot := rfl
@[simp] theorem scratchWrite_trcOut (c x : Nat) (bs : List Byte) (s : State) : (scratchWrite c x bs s).trcOut = s.trcOut := rfl
@[simp] theorem scratchWrite_testOut (c x : Nat) (bs : List Byte) (s : State) : (scratchWrite c x bs s).testOut = s.testOut := rfl

@[simp] theorem reg_scratchWrite (c x : Nat) (bs : List Byte) (i₁ : Nat) (s : State) : reg (scratchWrite c x bs s) i₁ = reg s i₁ := rfl
@[simp] theorem thread_scratchWrite (c x : Nat) (bs : List Byte) (v₁ : Who) (s : State) : thread (scratchWrite c x bs s) v₁ = thread s v₁ := rfl
@[simp] theorem stream_scratchWrite (c x : Nat) (bs : List Byte) (i₁ : Nat) (s : State) : stream (scratchWrite c x bs s) i₁ = stream s i₁ := rfl
@[simp] theorem tenant_scratchWrite (c x : Nat) (bs : List Byte) (i₁ : Nat) (s : State) : tenant (scratchWrite c x bs s) i₁ = tenant s i₁ := rfl
@[simp] theorem queueAt_scratchWrite (c x : Nat) (bs : List Byte) (i₁ : Nat) (s : State) : queueAt (scratchWrite c x bs s) i₁ = queueAt s i₁ := rfl
@[simp] theorem clkUp_scratchWrite (c x : Nat) (bs : List Byte) (i₁ : Nat) (s : State) : clkUp (scratchWrite c x bs s) i₁ = clkUp s i₁ := rfl
@[simp] theorem pdUp_scratchWrite (c x : Nat) (bs : List Byte) (i₁ : Nat) (s : State) : pdUp (scratchWrite c x bs s) i₁ = pdUp s i₁ := rfl

/-! ### noteIssue -/

@[simp] theorem noteIssue_pending (w : Who) (s : State) : (noteIssue w s).pending = s.pending := rfl
@[simp] theorem noteIssue_build (w : Who) (s : State) : (noteIssue w s).build = s.build := rfl
@[simp] theorem noteIssue_free (w : Who) (s : State) : (noteIssue w s).free = s.free := rfl
@[simp] theorem noteIssue_emitted (w : Who) (s : State) : (noteIssue w s).emitted = s.emitted := rfl
@[simp] theorem noteIssue_stores (w : Who) (s : State) : (noteIssue w s).stores = s.stores := rfl
@[simp] theorem noteIssue_instId (w : Who) (s : State) : (noteIssue w s).instId = s.instId := rfl
@[simp] theorem noteIssue_regs (w : Who) (s : State) : (noteIssue w s).regs = s.regs := rfl
@[simp] theorem noteIssue_latch (w : Who) (s : State) : (noteIssue w s).latch = s.latch := rfl
@[simp] theorem noteIssue_heldLo (w : Who) (s : State) : (noteIssue w s).heldLo = s.heldLo := rfl
@[simp] theorem noteIssue_regOut (w : Who) (s : State) : (noteIssue w s).regOut = s.regOut := rfl
@[simp] theorem noteIssue_prog (w : Who) (s : State) : (noteIssue w s).prog = s.prog := rfl
@[simp] theorem noteIssue_scratch (w : Who) (s : State) : (noteIssue w s).scratch = s.scratch := rfl
@[simp] theorem noteIssue_tickets (w : Who) (s : State) : (noteIssue w s).tickets = s.tickets := rfl
@[simp] theorem noteIssue_ticketNext (w : Who) (s : State) : (noteIssue w s).ticketNext = s.ticketNext := rfl
@[simp] theorem noteIssue_clerkFatal (w : Who) (s : State) : (noteIssue w s).clerkFatal = s.clerkFatal := rfl
@[simp] theorem noteIssue_streams (w : Who) (s : State) : (noteIssue w s).streams = s.streams := rfl
@[simp] theorem noteIssue_beat (w : Who) (s : State) : (noteIssue w s).beat = s.beat := rfl
@[simp] theorem noteIssue_day (w : Who) (s : State) : (noteIssue w s).day = s.day := rfl
@[simp] theorem noteIssue_teller (w : Who) (s : State) : (noteIssue w s).teller = s.teller := rfl
@[simp] theorem noteIssue_hops (w : Who) (s : State) : (noteIssue w s).hops = s.hops := rfl
@[simp] theorem noteIssue_tenants (w : Who) (s : State) : (noteIssue w s).tenants = s.tenants := rfl
@[simp] theorem noteIssue_genNext (w : Who) (s : State) : (noteIssue w s).genNext = s.genNext := rfl
@[simp] theorem noteIssue_prefetch (w : Who) (s : State) : (noteIssue w s).prefetch = s.prefetch := rfl
@[simp] theorem noteIssue_grammars (w : Who) (s : State) : (noteIssue w s).grammars = s.grammars := rfl
@[simp] theorem noteIssue_maskSets (w : Who) (s : State) : (noteIssue w s).maskSets = s.maskSets := rfl
@[simp] theorem noteIssue_sortStep (w : Who) (s : State) : (noteIssue w s).sortStep = s.sortStep := rfl
@[simp] theorem noteIssue_sortTemp (w : Who) (s : State) : (noteIssue w s).sortTemp = s.sortTemp := rfl
@[simp] theorem noteIssue_sortDead (w : Who) (s : State) : (noteIssue w s).sortDead = s.sortDead := rfl
@[simp] theorem noteIssue_clear (w : Who) (s : State) : (noteIssue w s).clear = s.clear := rfl
@[simp] theorem noteIssue_egress0 (w : Who) (s : State) : (noteIssue w s).egress0 = s.egress0 := rfl
@[simp] theorem noteIssue_egress1 (w : Who) (s : State) : (noteIssue w s).egress1 = s.egress1 := rfl
@[simp] theorem noteIssue_accesses (w : Who) (s : State) : (noteIssue w s).accesses = s.accesses := rfl
@[simp] theorem noteIssue_nextAccess (w : Who) (s : State) : (noteIssue w s).nextAccess = s.nextAccess := rfl
@[simp] theorem noteIssue_ledger (w : Who) (s : State) : (noteIssue w s).ledger = s.ledger := rfl
@[simp] theorem noteIssue_queue0 (w : Who) (s : State) : (noteIssue w s).queue0 = s.queue0 := rfl
@[simp] theorem noteIssue_queue1 (w : Who) (s : State) : (noteIssue w s).queue1 = s.queue1 := rfl
@[simp] theorem noteIssue_queue2 (w : Who) (s : State) : (noteIssue w s).queue2 = s.queue2 := rfl
@[simp] theorem noteIssue_queue3 (w : Who) (s : State) : (noteIssue w s).queue3 = s.queue3 := rfl
@[simp] theorem noteIssue_kcw (w : Who) (s : State) : (noteIssue w s).kcw = s.kcw := rfl
@[simp] theorem noteIssue_purse (w : Who) (s : State) : (noteIssue w s).purse = s.purse := rfl
@[simp] theorem noteIssue_reserve (w : Who) (s : State) : (noteIssue w s).reserve = s.reserve := rfl
@[simp] theorem noteIssue_power (w : Who) (s : State) : (noteIssue w s).power = s.power := rfl
@[simp] theorem noteIssue_boot (w : Who) (s : State) : (noteIssue w s).boot = s.boot := rfl
@[simp] theorem noteIssue_trcOut (w : Who) (s : State) : (noteIssue w s).trcOut = s.trcOut := rfl
@[simp] theorem noteIssue_testOut (w : Who) (s : State) : (noteIssue w s).testOut = s.testOut := rfl

@[simp] theorem reg_noteIssue (w : Who) (i₁ : Nat) (s : State) : reg (noteIssue w s) i₁ = reg s i₁ := rfl
@[simp] theorem stream_noteIssue (w : Who) (i₁ : Nat) (s : State) : stream (noteIssue w s) i₁ = stream s i₁ := rfl
@[simp] theorem tenant_noteIssue (w : Who) (i₁ : Nat) (s : State) : tenant (noteIssue w s) i₁ = tenant s i₁ := rfl
@[simp] theorem queueAt_noteIssue (w : Who) (i₁ : Nat) (s : State) : queueAt (noteIssue w s) i₁ = queueAt s i₁ := rfl
@[simp] theorem scratchByte_noteIssue (w : Who) (i₁ i₂ : Nat) (s : State) : scratchByte (noteIssue w s) i₁ i₂ = scratchByte s i₁ i₂ := rfl
@[simp] theorem clkUp_noteIssue (w : Who) (i₁ : Nat) (s : State) : clkUp (noteIssue w s) i₁ = clkUp s i₁ := rfl
@[simp] theorem pdUp_noteIssue (w : Who) (i₁ : Nat) (s : State) : pdUp (noteIssue w s) i₁ = pdUp s i₁ := rfl

/-! ### Reads of what was written -/

theorem reg_setReg (off k v : Nat) (s : State) : reg (setReg off v s) k = if k = off then v % 2 ^ 32 else reg s k := by
  unfold reg setReg
  dsimp only
  split
  · rename_i e
    subst e
    rw [Tab.get_set_same, BitVec.toNat_ofNat]
  · rename_i h
    rw [Tab.get_set_other _ _ _ h]

@[simp] theorem reg_setReg_same (off v : Nat) (s : State) : reg (setReg off v s) off = v % 2 ^ 32 := by
  rw [reg_setReg, if_pos rfl]

theorem reg_setReg_other {off k : Nat} (v : Nat) (s : State) (h : k ≠ off) : reg (setReg off v s) k = reg s k := by
  rw [reg_setReg, if_neg h]

@[simp] theorem thread_setThread_same (w : Who) (t : Thread) (s : State) : thread (setThread w t s) w = t :=
  Tab.get_set_same _ _ _ _

theorem thread_setThread_other {w v : Who} (t : Thread) (s : State) (h : Who.key v ≠ Who.key w) :
    thread (setThread w t s) v = thread s v := Tab.get_set_other _ _ _ h

@[simp] theorem thread_onThread_same (w : Who) (f : Thread → Thread) (s : State) :
    thread (onThread w f s) w = f (thread s w) := thread_setThread_same _ _ _

theorem thread_onThread_other {w v : Who} (f : Thread → Thread) (s : State) (h : Who.key v ≠ Who.key w) :
    thread (onThread w f s) v = thread s v := thread_setThread_other _ _ h

@[simp] theorem stream_setStream_same (n : Nat) (x : Stream) (s : State) : stream (setStream n x s) n = x :=
  Tab.get_set_same _ _ _ _

theorem stream_setStream_other {n m : Nat} (x : Stream) (s : State) (h : m ≠ n) :
    stream (setStream n x s) m = stream s m := Tab.get_set_other _ _ _ h

@[simp] theorem stream_onStream_same (n : Nat) (f : Stream → Stream) (s : State) :
    stream (onStream n f s) n = f (stream s n) := stream_setStream_same _ _ _

theorem stream_onStream_other {n m : Nat} (f : Stream → Stream) (s : State) (h : m ≠ n) :
    stream (onStream n f s) m = stream s m := stream_setStream_other _ _ h

@[simp] theorem tenant_setTenant_same (n : Nat) (x : Tenant) (s : State) : tenant (setTenant n x s) n = x :=
  Tab.get_set_same _ _ _ _

theorem tenant_setTenant_other {n m : Nat} (x : Tenant) (s : State) (h : m ≠ n) :
    tenant (setTenant n x s) m = tenant s m := Tab.get_set_other _ _ _ h

@[simp] theorem queueAt_setQueueAt_same (h : Nat) (q : List Tile) (s : State) : queueAt (setQueueAt h q s) h = q :=
  Tab.get_set_same _ _ _ _

theorem queueAt_setQueueAt_other {h k : Nat} (q : List Tile) (s : State) (e : k ≠ h) :
    queueAt (setQueueAt h q s) k = queueAt s k := Tab.get_set_other _ _ _ e

@[simp] theorem queueAt_enqueue_same (h : Nat) (t : Tile) (s : State) : queueAt (enqueue h t s) h = queueAt s h ++ [t] :=
  queueAt_setQueueAt_same _ _ _

theorem queueAt_enqueue_other {h k : Nat} (t : Tile) (s : State) (e : k ≠ h) :
    queueAt (enqueue h t s) k = queueAt s k := queueAt_setQueueAt_other _ _ e

/-! ### Scratch -/

/-- Bytes written within a CLERK's scratch read back. -/
theorem scratchByte_scratchWrite_same {c x i : Nat} {bs : List Byte} (s : State) (hi : i < bs.length)
    (hx : x + i < scratchSize) : scratchByte (scratchWrite c x bs s) c (x + i) = bs[i] := by
  have hl : i < (bs.take (scratchSize - x)).length := by
    rw [List.length_take]
    omega
  have := placeBytes_at s.scratch (c * scratchSize + x) i (bs.take (scratchSize - x)) hl
  unfold scratchByte scratchWrite
  dsimp only
  rw [← Nat.add_assoc, this, List.getElem_take]

/-- Every other byte of every CLERK's scratch reads as before. -/
theorem scratchByte_scratchWrite_other {c x d y : Nat} {bs : List Byte} (s : State) (hy : y < scratchSize)
    (h : d ≠ c ∨ y < x ∨ x + bs.length ≤ y) : scratchByte (scratchWrite c x bs s) d y = scratchByte s d y := by
  unfold scratchByte scratchWrite
  dsimp only
  by_cases hx : scratchSize ≤ x
  · rw [Nat.sub_eq_zero_of_le hx, List.take_zero]
    rfl
  · have hl : (bs.take (scratchSize - x)).length ≤ bs.length := by
      rw [List.length_take]
      omega
    have hm : (bs.take (scratchSize - x)).length ≤ scratchSize - x := by
      rw [List.length_take]
      omega
    apply placeBytes_other
    simp only [scratchSize] at *
    rcases h with h | h | h
    · rcases Nat.lt_or_gt_of_ne h with k | k
      · left
        omega
      · right
        omega
    · by_cases e : d = c
      · subst e
        left
        omega
      · rcases Nat.lt_or_gt_of_ne e with k | k
        · left
          omega
        · right
          omega
    · by_cases e : d = c
      · subst e
        right
        omega
      · rcases Nat.lt_or_gt_of_ne e with k | k
        · left
          omega
        · right
          omega

/-- With no store of a later instruction noted, none stands against a write. -/
theorem storedLater_false {s : State} {no : Nat} (h : ∀ e ∈ s.stores, e.no ≤ no) (c a : Nat) :
    storedLater s c no a = false := by
  unfold storedLater
  rw [List.any_eq_false]
  intro e he
  have := h e he
  simp only [Bool.and_eq_true, decide_eq_true_eq]
  omega

/-- Bytes stored by the last instruction issued read back. -/
theorem scratchByte_storeScratch_same {no c x i : Nat} {bs : List Byte} (s : State) (hi : i < bs.length)
    (hx : x + i < scratchSize) (h : ∀ e ∈ s.stores, e.no ≤ no) :
    scratchByte (storeScratch no c x bs s) c (x + i) = bs[i] := by
  have e : scratchByte (storeScratch no c x bs s) c (x + i) = scratchByte (scratchWrite c x
      (bs.mapIdx (fun i b => if storedLater s c no (x + i) then scratchByte s c (x + i) else b)) s) c (x + i) := rfl
  rw [e, scratchByte_scratchWrite_same s (by rw [List.length_mapIdx]; exact hi) hx, List.getElem_mapIdx,
    storedLater_false h]
  rfl

/-- Every byte of scratch outside a store reads as before. -/
theorem scratchByte_storeScratch_other {no c x d y : Nat} {bs : List Byte} (s : State) (hy : y < scratchSize)
    (h : d ≠ c ∨ y < x ∨ x + bs.length ≤ y) :
    scratchByte (storeScratch no c x bs s) d y = scratchByte s d y := by
  have e : scratchByte (storeScratch no c x bs s) d y = scratchByte (scratchWrite c x
      (bs.mapIdx (fun i b => if storedLater s c no (x + i) then scratchByte s c (x + i) else b)) s) d y := rfl
  rw [e, scratchByte_scratchWrite_other s hy (by rw [List.length_mapIdx]; exact h)]

/-! ### Threads -/

@[simp] theorem Thread.reg_zero (t : Thread) : t.reg 0 = 0 := by simp [Thread.reg]

@[simp] theorem Thread.reg_setG_same {r : BitVec 4} (v : Word) (t : Thread) (h : r ≠ 0) : (t.setG r v).reg r = v := by
  unfold Thread.reg Thread.setG
  rw [if_neg h, if_neg h]
  exact Tab.get_set_same _ _ _ _

theorem Thread.reg_setG_other {r q : BitVec 4} (v : Word) (t : Thread) (h : q ≠ r) :
    (t.setG r v).reg q = t.reg q := by
  unfold Thread.reg Thread.setG
  split
  · rfl
  · split
    · rfl
    · exact Tab.get_set_other _ _ _ (fun e => h (BitVec.eq_of_toNat_eq e))

@[simp] theorem Thread.setG_zero (v : Word) (t : Thread) : t.setG 0 v = t := by simp [Thread.setG]

@[simp] theorem Thread.setG_p (r : BitVec 4) (v : Word) (t : Thread) : (t.setG r v).p = t.p := by
  unfold Thread.setG
  split <;> rfl

@[simp] theorem Thread.setP_reg (r : Nat) (v : Bool) (t : Thread) (q : BitVec 4) :
    (t.setP r v).reg q = t.reg q := by
  unfold Thread.setP Thread.reg
  split
  · rfl
  · split <;> rfl

@[simp] theorem Thread.goOn_reg (pc : Nat) (t : Thread) (r : BitVec 4) : (t.goOn pc).reg r = t.reg r := rfl

@[simp] theorem Thread.goOn_pred (pc : Nat) (t : Thread) (r : Nat) : (t.goOn pc).pred r = t.pred r := rfl

@[simp] theorem Thread.goOn_pc (pc : Nat) (t : Thread) : (t.goOn pc).pc = pc := rfl

@[simp] theorem Thread.goOn_wait (pc : Nat) (t : Thread) : (t.goOn pc).wait = .ready := rfl

@[simp] theorem Thread.goOn_stack (pc : Nat) (t : Thread) : (t.goOn pc).stack = t.stack := rfl

end Sys2Proof.Machine
end

