-- ==== Sys2Proof/Laws/Sweep.lean ====
section
/-!
SUPPORT. The frame of `sweep`: what follows from any command by itself touches nothing but what OnlySwept names.
-/

namespace Sys2Proof.Machine

set_option linter.unusedTactic false
set_option linter.unreachableTactic false
set_option linter.unusedSimpArgs false

/-- Nothing is different but what `sweep` may change. -/
structure Swept (s t : State) : Prop where
  only : { t with free := s.free, emitted := s.emitted, stores := s.stores, queue3 := s.queue3,
                  ledger := s.ledger, streams := s.streams, hops := s.hops, scratch := s.scratch, tickets := s.tickets,
                  accesses := s.accesses, nextAccess := s.nextAccess, purse := s.purse, regs := s.regs,
                  teller := { t.teller with cuts := s.teller.cuts } } = s
  regs : RegsKept sweptRegs s t

theorem Swept.refl (s : State) : Swept s s := ⟨rfl, fun _ _ => rfl⟩

theorem Swept.put_iff {s u : State} {x_free x_emitted x_stores x_scratch x_tickets x_streams x_hops x_accesses
      x_nextAccess x_ledger x_queue3 x_purse x_cuts} :
    Swept s (State.mk u.pending u.build x_free x_emitted u.issueNo x_stores u.instId u.regs u.latch u.heldLo
      u.regOut u.threads u.prog x_scratch x_tickets u.ticketNext u.lastIssued u.clerkFatal x_streams u.beat u.day
      (TellerState.mk u.teller.queue u.teller.lanes u.teller.resp u.teller.cut x_cuts) x_hops u.tenants u.genNext u.prefetch u.grammars u.maskSets u.sortStep u.sortTemp u.sortDead u.clear
      u.egress0 u.egress1 x_accesses x_nextAccess x_ledger u.queue0 u.queue1 u.queue2 x_queue3 u.kcw x_purse
      u.reserve u.power u.boot u.trcOut u.testOut)
    ↔ Swept s u :=
  ⟨fun h => ⟨h.only, h.regs⟩, fun h => ⟨h.only, h.regs⟩⟩

theorem Swept.putRest_iff {s u : State} {x_free x_emitted x_stores x_scratch x_tickets x_streams x_hops x_accesses
      x_nextAccess x_ledger x_queue3 x_purse} :
    Swept s (State.mk u.pending u.build x_free x_emitted u.issueNo x_stores u.instId u.regs u.latch u.heldLo
      u.regOut u.threads u.prog x_scratch x_tickets u.ticketNext u.lastIssued u.clerkFatal x_streams u.beat u.day
      u.teller x_hops u.tenants u.genNext u.prefetch u.grammars u.maskSets u.sortStep u.sortTemp u.sortDead u.clear
      u.egress0 u.egress1 x_accesses x_nextAccess x_ledger u.queue0 u.queue1 u.queue2 x_queue3 u.kcw x_purse
      u.reserve u.power u.boot u.trcOut u.testOut)
    ↔ Swept s u :=
  ⟨fun h => ⟨h.only, h.regs⟩, fun h => ⟨h.only, h.regs⟩⟩

theorem Swept.ite {s a b : State} {c : Prop} [Decidable c] (ha : Swept s a) (hb : Swept s b) :
    Swept s (if c then a else b) := by
  split <;> assumption

theorem Swept.fstIte {α : Type} {s : State} {a b : State × α} {c : Prop} [Decidable c] (ha : Swept s a.1)
    (hb : Swept s b.1) : Swept s (if c then a else b).1 := by
  split <;> assumption

theorem Swept.foldl {α : Type} {s u : State} {f : State → α → State} (xs : List α) (h : Swept s u)
    (hf : ∀ t x, Swept s t → Swept s (f t x)) : Swept s (xs.foldl f u) := by
  induction xs generalizing u with
  | nil => exact h
  | cons x xs ih => exact ih (hf _ _ h)

theorem Swept.letGoal {s e : State} {P : State → Prop} (h : Swept s e) (hf : ∀ t, Swept s t → P t) :
    let t := e
    P t := hf e h

theorem Swept.fstOf {α : Type} {s a : State} {b : α} {p : State × α} (h : Swept s p.1) (e : p = (a, b)) :
    Swept s a := by
  rw [e] at h
  exact h

theorem setReg_swept {s0 t : State} {off : Nat} (v : Nat) (h : Swept s0 t) (hoff : off ∈ sweptRegs) :
    Swept s0 (setReg off v t) :=
  ⟨h.only, fun k hk => by
    rw [reg_setReg_other v t (fun e : k = off => hk (by rwa [e]))]
    exact h.regs k hk⟩

theorem bump_swept {s0 t : State} {off : Nat} (n : Nat) (h : Swept s0 t) (hoff : off ∈ sweptRegs) :
    Swept s0 (bump off n t) := by
  unfold bump
  exact Swept.ite h (setReg_swept _ h hoff)

theorem takeFree_swept {s0 t : State} (h : Swept s0 t) :
    Swept s0 (takeFree t).2 := by
  unfold takeFree
  repeat' (first
    | with_reducible assumption | decide | with_reducible apply Swept.ite | with_reducible apply Swept.sndIte
    | ((fail_if_success (fail_if_success with_reducible intro y)); first | with_reducible refine Swept.letGoal (s := s0) ?_ (fun _ _ => ?_) | with_reducible intro y)
    | simp only [Swept.put_iff, Swept.putRest_iff] | lift_lets | split)

theorem scratchWrite_swept {s0 t : State} (c x bs) (h : Swept s0 t) :
    Swept s0 (scratchWrite c x bs t) := by
  unfold scratchWrite
  repeat' (first
    | with_reducible assumption | decide | with_reducible apply Swept.ite
    | ((fail_if_success (fail_if_success with_reducible intro y)); first | with_reducible refine Swept.letGoal (s := s0) ?_ (fun _ _ => ?_) | with_reducible intro y)
    | simp only [Swept.put_iff, Swept.putRest_iff] | lift_lets | split)

theorem noteStore_swept {s0 t : State} (c x n no) (h : Swept s0 t) :
    Swept s0 (noteStore c x n no t) := by
  unfold noteStore
  repeat' (first
    | with_reducible assumption | decide | with_reducible apply Swept.ite
    | ((fail_if_success (fail_if_success with_reducible intro y)); first | with_reducible refine Swept.letGoal (s := s0) ?_ (fun _ _ => ?_) | with_reducible intro y)
    | simp only [Swept.put_iff, Swept.putRest_iff] | lift_lets | split)

theorem storeScratch_swept {s0 t : State} (no c x bs) (h : Swept s0 t) :
    Swept s0 (storeScratch no c x bs t) := by
  unfold storeScratch
  repeat' (first
    | with_reducible assumption | decide | with_reducible apply Swept.ite | with_reducible apply noteStore_swept
    | with_reducible apply scratchWrite_swept
    | ((fail_if_success (fail_if_success with_reducible intro y)); first | with_reducible refine Swept.letGoal (s := s0) ?_ (fun _ _ => ?_) | with_reducible intro y)
    | simp only [Swept.put_iff, Swept.putRest_iff] | lift_lets | split)

theorem setStream_swept {s0 t : State} (n x) (h : Swept s0 t) :
    Swept s0 (setStream n x t) := by
  unfold setStream
  repeat' (first
    | with_reducible assumption | decide | with_reducible apply Swept.ite
    | ((fail_if_success (fail_if_success with_reducible intro y)); first | with_reducible refine Swept.letGoal (s := s0) ?_ (fun _ _ => ?_) | with_reducible intro y)
    | simp only [Swept.put_iff, Swept.putRest_iff] | lift_lets | split)

theorem onStream_swept {s0 t : State} (n f) (h : Swept s0 t) :
    Swept s0 (onStream n f t) := by
  unfold onStream
  repeat' (first
    | with_reducible assumption | decide | with_reducible apply Swept.ite | with_reducible apply setStream_swept
    | ((fail_if_success (fail_if_success with_reducible intro y)); first | with_reducible refine Swept.letGoal (s := s0) ?_ (fun _ _ => ?_) | with_reducible intro y)
    | simp only [Swept.put_iff, Swept.putRest_iff] | lift_lets | split)

theorem setQueueAt_swept {s0 t : State} (h' q) (h : Swept s0 t) :
    Swept s0 (setQueueAt h' q t) := by
  unfold setQueueAt
  repeat' (first
    | with_reducible assumption | decide | with_reducible apply Swept.ite
    | ((fail_if_success (fail_if_success with_reducible intro y)); first | with_reducible refine Swept.letGoal (s := s0) ?_ (fun _ _ => ?_) | with_reducible intro y)
    | simp only [Swept.put_iff, Swept.putRest_iff] | lift_lets | split)

theorem enqueue_swept {s0 t : State} (h' t') (h : Swept s0 t) :
    Swept s0 (enqueue h' t' t) := by
  unfold enqueue
  repeat' (first
    | with_reducible assumption | decide | with_reducible apply Swept.ite | with_reducible apply setQueueAt_swept
    | ((fail_if_success (fail_if_success with_reducible intro y)); first | with_reducible refine Swept.letGoal (s := s0) ?_ (fun _ _ => ?_) | with_reducible intro y)
    | simp only [Swept.put_iff, Swept.putRest_iff] | lift_lets | split)

theorem setQueueN_swept {s0 t : State} (es) (h : Swept s0 t) : Swept s0 (setQueueN 3 es t) :=
  Swept.putRest_iff.2 h

theorem setUnwritten_swept {s0 t : State} (n) (h : Swept s0 t) : Swept s0 (setUnwritten 3 n t) :=
  Swept.putRest_iff.2 h

theorem cutThrough_swept {s0 t : State} (m) (h : Swept s0 t) : Swept s0 (cutThrough 3 m t) := by
  unfold cutThrough
  dsimp only
  split
  · exact setUnwritten_swept _ h
  · exact setUnwritten_swept _ (takeFree_swept h)

theorem writePacket_swept {s0 t : State} (es) (h : Swept s0 t) : Swept s0 (writePacket 3 es t) := by
  unfold writePacket
  dsimp only
  split
  · exact h
  · split
    · exact cutThrough_swept _ (setQueueN_swept _ h)
    · split
      · exact bump_swept _ (cutThrough_swept _ (setQueueN_swept _ h)) (by decide)
      · exact setReg_swept _ h (by decide)

theorem noteLoss_swept {s0 t : State} (i) (h : Swept s0 t) : Swept s0 (noteLoss i t) := by
  unfold noteLoss
  dsimp only
  split
  · exact bump_swept _ h (by decide)
  · exact setReg_swept _ (bump_swept _ h (by decide)) (by decide)

theorem writeTrace_swept {s0 t : State} (es) (h : Swept s0 t) : Swept s0 (writeTrace es t) := by
  unfold writeTrace
  dsimp only
  split
  · exact writePacket_swept _ h
  · split
    · exact writePacket_swept _ (takeFree_swept h)
    · exact noteLoss_swept _ (bump_swept _ (setReg_swept _ (takeFree_swept h) (by decide)) (by decide))

theorem trace_swept {s0 t : State} (k n head es) (h : Swept s0 t) :
    Swept s0 (trace k n head es t) := by
  unfold trace
  repeat' (first
    | with_reducible assumption | decide | with_reducible apply Swept.ite | with_reducible apply writeTrace_swept
    | ((fail_if_success (fail_if_success with_reducible intro y)); first | with_reducible refine Swept.letGoal (s := s0) ?_ (fun _ _ => ?_) | with_reducible intro y)
    | simp only [Swept.put_iff, Swept.putRest_iff] | lift_lets | split)

theorem traceTile_swept {s0 t : State} (hop t') (h : Swept s0 t) :
    Swept s0 (traceTile hop t' t) := by
  unfold traceTile
  repeat' (first
    | with_reducible assumption | decide | with_reducible apply Swept.ite | with_reducible apply trace_swept
    | ((fail_if_success (fail_if_success with_reducible intro y)); first | with_reducible refine Swept.letGoal (s := s0) ?_ (fun _ _ => ?_) | with_reducible intro y)
    | simp only [Swept.put_iff, Swept.putRest_iff] | lift_lets | split)

theorem passOn_swept {s0 t : State} (hop t') (h : Swept s0 t) :
    Swept s0 (passOn hop t' t) := by
  unfold passOn
  repeat' (first
    | with_reducible assumption | decide | with_reducible apply Swept.ite | with_reducible apply enqueue_swept
    | with_reducible apply traceTile_swept
    | ((fail_if_success (fail_if_success with_reducible intro y)); first | with_reducible refine Swept.letGoal (s := s0) ?_ (fun _ _ => ?_) | with_reducible intro y)
    | simp only [Swept.put_iff, Swept.putRest_iff] | lift_lets | split)

theorem onItem_swept {s0 t : State} (n f) (h : Swept s0 t) :
    Swept s0 (onItem n f t) := by
  unfold onItem
  repeat' (first
    | with_reducible assumption | decide | with_reducible apply Swept.ite
    | ((fail_if_success (fail_if_success with_reducible intro y)); first | with_reducible refine Swept.letGoal (s := s0) ?_ (fun _ _ => ?_) | with_reducible intro y)
    | simp only [Swept.put_iff, Swept.putRest_iff] | lift_lets | split)

theorem noteEmission_swept {s0 t : State} (part ledger data) (h : Swept s0 t) :
    Swept s0 (noteEmission part ledger data t) := by
  unfold noteEmission
  repeat' (first
    | with_reducible assumption | decide | with_reducible apply Swept.ite | with_reducible apply onItem_swept
    | ((fail_if_success (fail_if_success with_reducible intro y)); first | with_reducible refine Swept.letGoal (s := s0) ?_ (fun _ _ => ?_) | with_reducible intro y)
    | simp only [Swept.put_iff, Swept.putRest_iff] | lift_lets | split)

theorem onTicket_swept {s0 t : State} (c t' f) (h : Swept s0 t) :
    Swept s0 (onTicket c t' f t) := by
  unfold onTicket
  repeat' (first
    | with_reducible assumption | decide | with_reducible apply Swept.ite
    | ((fail_if_success (fail_if_success with_reducible intro y)); first | with_reducible refine Swept.letGoal (s := s0) ?_ (fun _ _ => ?_) | with_reducible intro y)
    | simp only [Swept.put_iff, Swept.putRest_iff] | lift_lets | split)

theorem reportTicket_swept {s0 t : State} (c t' status flags) (h : Swept s0 t) :
    Swept s0 (reportTicket c t' status flags t) := by
  unfold reportTicket
  repeat' (first
    | with_reducible assumption | decide | with_reducible apply Swept.ite | with_reducible apply onTicket_swept
    | ((fail_if_success (fail_if_success with_reducible intro y)); first | with_reducible refine Swept.letGoal (s := s0) ?_ (fun _ _ => ?_) | with_reducible intro y)
    | simp only [Swept.put_iff, Swept.putRest_iff] | lift_lets | split)

theorem reportItem_swept {s0 t : State} (n status flags) (h : Swept s0 t) :
    Swept s0 (reportItem n status flags t) := by
  unfold reportItem
  repeat' (first
    | with_reducible assumption | decide | with_reducible apply Swept.ite | with_reducible apply onItem_swept
    | ((fail_if_success (fail_if_success with_reducible intro y)); first | with_reducible refine Swept.letGoal (s := s0) ?_ (fun _ _ => ?_) | with_reducible intro y)
    | simp only [Swept.put_iff, Swept.putRest_iff] | lift_lets | split)

theorem report_swept {s0 t : State} (t' status flags) (h : Swept s0 t) :
    Swept s0 (report t' status flags t) := by
  unfold report
  repeat' (first
    | with_reducible assumption | decide | with_reducible apply Swept.ite | with_reducible apply reportTicket_swept
    | with_reducible apply reportItem_swept
    | ((fail_if_success (fail_if_success with_reducible intro y)); first | with_reducible refine Swept.letGoal (s := s0) ?_ (fun _ _ => ?_) | with_reducible intro y)
    | simp only [Swept.put_iff, Swept.putRest_iff] | lift_lets | split)

theorem spend_swept {s0 t : State} (c) (h : Swept s0 t) : Swept s0 (spend c t) := by
  unfold spend bump64
  refine Swept.ite (Swept.putRest_iff.2 h) (setReg_swept _ (setReg_swept _ (Swept.putRest_iff.2 h) (by decide)) (by decide))

theorem payBill_swept {s0 t : State} (y0) (h : Swept s0 t) :
    Swept s0 (payBill y0 t).1 := by
  induction y0 generalizing t with
  | nil => exact h
  | cons x xs ih =>
    unfold payBill
    repeat' (first
      | with_reducible assumption | decide | with_reducible apply Swept.ite | with_reducible apply Swept.fstIte
      | with_reducible apply spend_swept | with_reducible apply ih | cases ‹_ + 1 = Nat.succ _›
      | ((fail_if_success (fail_if_success with_reducible intro y)); first | with_reducible refine Swept.letGoal (s := s0) ?_ (fun _ _ => ?_) | with_reducible intro y)
      | simp only [Swept.put_iff, Swept.putRest_iff] | dsimp only | lift_lets | split)

theorem joinPurse_swept {s0 t : State} (p) (h : Swept s0 t) :
    Swept s0 (joinPurse p t) := by
  unfold joinPurse
  repeat' (first
    | with_reducible assumption | decide | with_reducible apply Swept.ite
    | ((fail_if_success (fail_if_success with_reducible intro y)); first | with_reducible refine Swept.letGoal (s := s0) ?_ (fun _ _ => ?_) | with_reducible intro y)
    | simp only [Swept.put_iff, Swept.putRest_iff] | lift_lets | split)

theorem sendPart_swept {s0 t : State} (ahead) (h : Swept s0 t) :
    Swept s0 (sendPart ahead t) := by
  unfold sendPart
  exact Swept.putRest_iff.2 h

theorem sendAll_swept {s0 t : State} (h : Swept s0 t) :
    Swept s0 (sendAll t) := by
  unfold sendAll
  repeat' (first
    | with_reducible assumption | decide | with_reducible apply Swept.ite
    | with_reducible apply sendPart_swept
    | ((fail_if_success (fail_if_success with_reducible intro y)); first | with_reducible refine Swept.letGoal (s := s0) ?_ (fun _ _ => ?_) | with_reducible intro y)
    | simp only [Swept.put_iff] | lift_lets | split)

theorem issuedLines_swept {s0 t : State} (job lines) (h : Swept s0 t) : Swept s0 (issuedLines job lines t).2 := by
  unfold issuedLines
  split
  · exact takeFree_swept h
  · exact h

theorem startAccess_swept {s0 t : State} (cls bill kind req lines job) (h : Swept s0 t) :
    Swept s0 (startAccess cls bill kind req lines job t) := by
  unfold startAccess
  repeat' (first
    | with_reducible assumption | decide | with_reducible apply Swept.ite | with_reducible apply joinPurse_swept
    | with_reducible apply payBill_swept
    | (refine Swept.fstOf ?_ ‹payBill _ _ = (_, _)›; with_reducible apply payBill_swept)
    | with_reducible apply issuedLines_swept | with_reducible apply sendAll_swept
    | ((fail_if_success (fail_if_success with_reducible intro y)); first | with_reducible refine Swept.letGoal (s := s0) ?_ (fun _ _ => ?_) | with_reducible intro y)
    | simp only [Swept.put_iff, Swept.putRest_iff] | lift_lets | split)

theorem placeEntry_swept {s0 t : State} (e) (h : Swept s0 t) :
    Swept s0 (placeEntry e t).2 := by
  unfold placeEntry
  repeat' (first
    | with_reducible assumption | decide | with_reducible apply Swept.ite | with_reducible apply Swept.sndIte
    | ((fail_if_success (fail_if_success with_reducible intro y)); first | with_reducible refine Swept.letGoal (s := s0) ?_ (fun _ _ => ?_) | with_reducible intro y)
    | simp only [Swept.put_iff, Swept.putRest_iff] | lift_lets | split)

theorem writeEntry_swept {s0 t : State} (e next) (h : Swept s0 t) :
    Swept s0 (writeEntry e next t) := by
  unfold writeEntry
  repeat' (first
    | with_reducible assumption | decide | with_reducible apply Swept.ite | with_reducible apply placeEntry_swept
    | (refine Swept.sndOf ?_ ‹placeEntry _ _ = (_, _)›; with_reducible apply placeEntry_swept)
    | with_reducible apply startAccess_swept
    | ((fail_if_success (fail_if_success with_reducible intro y)); first | with_reducible refine Swept.letGoal (s := s0) ?_ (fun _ _ => ?_) | with_reducible intro y)
    | simp only [Swept.put_iff, Swept.putRest_iff] | lift_lets | split)

theorem writeRecord_swept {s0 t : State} (e log next) (h : Swept s0 t) :
    Swept s0 (writeRecord e log next t) := by
  unfold writeRecord
  repeat' (first
    | with_reducible assumption | decide | with_reducible apply Swept.ite | with_reducible apply placeEntry_swept
    | (refine Swept.sndOf ?_ ‹placeEntry _ _ = (_, _)›; with_reducible apply placeEntry_swept)
    | with_reducible apply startAccess_swept
    | ((fail_if_success (fail_if_success with_reducible intro y)); first | with_reducible refine Swept.letGoal (s := s0) ?_ (fun _ _ => ?_) | with_reducible intro y)
    | simp only [Swept.put_iff, Swept.putRest_iff] | lift_lets | split)

theorem writeNow_swept {s0 t : State} (e log next) (h : Swept s0 t) :
    Swept s0 (writeNow e log next t) := by
  unfold writeNow
  repeat' (first
    | with_reducible assumption | decide | with_reducible apply Swept.ite | with_reducible apply writeEntry_swept
    | with_reducible apply writeRecord_swept
    | ((fail_if_success (fail_if_success with_reducible intro y)); first | with_reducible refine Swept.letGoal (s := s0) ?_ (fun _ _ => ?_) | with_reducible intro y)
    | simp only [Swept.put_iff, Swept.putRest_iff] | lift_lets | split)

theorem journal_swept {s0 t : State} (e log next) (h : Swept s0 t) :
    Swept s0 (journal e log next t) := by
  unfold journal
  repeat' (first
    | with_reducible assumption | decide | with_reducible apply Swept.ite | with_reducible apply writeNow_swept
    | ((fail_if_success (fail_if_success with_reducible intro y)); first | with_reducible refine Swept.letGoal (s := s0) ?_ (fun _ _ => ?_) | with_reducible intro y)
    | simp only [Swept.put_iff, Swept.putRest_iff] | lift_lets | split)

theorem completeAs_swept {s0 t : State} (n status next) (h : Swept s0 t) :
    Swept s0 (completeAs n status next t) := by
  unfold completeAs
  repeat' (first
    | with_reducible assumption | decide | with_reducible apply Swept.ite | with_reducible apply onItem_swept
    | with_reducible apply journal_swept
    | ((fail_if_success (fail_if_success with_reducible intro y)); first | with_reducible refine Swept.letGoal (s := s0) ?_ (fun _ _ => ?_) | with_reducible intro y)
    | simp only [Swept.put_iff, Swept.putRest_iff] | lift_lets | split)

theorem completeItem_swept {s0 t : State} (n status next) (h : Swept s0 t) :
    Swept s0 (completeItem n status next t) := by
  unfold completeItem
  repeat' (first
    | with_reducible assumption | decide | with_reducible apply Swept.ite | with_reducible apply completeAs_swept
    | ((fail_if_success (fail_if_success with_reducible intro y)); first | with_reducible refine Swept.letGoal (s := s0) ?_ (fun _ _ => ?_) | with_reducible intro y)
    | simp only [Swept.put_iff, Swept.putRest_iff] | lift_lets | split)

theorem unqueue_swept {s0 t : State} (h' t') (h : Swept s0 t) :
    Swept s0 (unqueue h' t' t) := by
  unfold unqueue
  repeat' (first
    | with_reducible assumption | decide | with_reducible apply Swept.ite | with_reducible apply setQueueAt_swept
    | ((fail_if_success (fail_if_success with_reducible intro y)); first | with_reducible refine Swept.letGoal (s := s0) ?_ (fun _ _ => ?_) | with_reducible intro y)
    | simp only [Swept.put_iff, Swept.putRest_iff] | lift_lets | split)

theorem numberTile_swept {s0 t : State} (h' t') (h : Swept s0 t) :
    Swept s0 (numberTile h' t' t).2 := by
  unfold numberTile
  repeat' (first
    | with_reducible assumption | decide | with_reducible apply Swept.ite | with_reducible apply Swept.sndIte
    | with_reducible apply onItem_swept
    | ((fail_if_success (fail_if_success with_reducible intro y)); first | with_reducible refine Swept.letGoal (s := s0) ?_ (fun _ _ => ?_) | with_reducible intro y)
    | simp only [Swept.put_iff, Swept.putRest_iff] | lift_lets | split)

theorem emitTile_swept {s0 t : State} (h' t') (h : Swept s0 t) :
    Swept s0 (emitTile h' t' t) := by
  unfold emitTile
  repeat' (first
    | with_reducible assumption | decide | with_reducible apply Swept.ite | with_reducible apply numberTile_swept
    | (refine Swept.sndOf ?_ ‹numberTile _ _ _ = (_, _)›; with_reducible apply numberTile_swept)
    | with_reducible apply passOn_swept
    | ((fail_if_success (fail_if_success with_reducible intro y)); first | with_reducible refine Swept.letGoal (s := s0) ?_ (fun _ _ => ?_) | with_reducible intro y)
    | simp only [Swept.put_iff, Swept.putRest_iff] | lift_lets | split)

theorem setBuilding_swept {s0 t : State} (n h' ledger t') (h : Swept s0 t) :
    Swept s0 (setBuilding n h' ledger t' t) := by
  unfold setBuilding
  repeat' (first
    | with_reducible assumption | decide | with_reducible apply Swept.ite | with_reducible apply onStream_swept
    | ((fail_if_success (fail_if_success with_reducible intro y)); first | with_reducible refine Swept.letGoal (s := s0) ?_ (fun _ _ => ?_) | with_reducible intro y)
    | simp only [Swept.put_iff, Swept.putRest_iff] | lift_lets | split)

theorem sendTokens_swept {s0 t : State} (t') (h : Swept s0 t) :
    Swept s0 (sendTokens t' t) := by
  unfold sendTokens
  repeat' (first
    | with_reducible assumption | decide | with_reducible apply Swept.ite | with_reducible apply numberTile_swept
    | (refine Swept.sndOf ?_ ‹numberTile _ _ _ = (_, _)›; with_reducible apply numberTile_swept)
    | with_reducible apply passOn_swept | with_reducible apply noteEmission_swept
    | ((fail_if_success (fail_if_success with_reducible intro y)); first | with_reducible refine Swept.letGoal (s := s0) ?_ (fun _ _ => ?_) | with_reducible intro y)
    | simp only [Swept.put_iff, Swept.putRest_iff] | lift_lets | split)

theorem sendText_swept {s0 t : State} (t') (h : Swept s0 t) :
    Swept s0 (sendText t' t) := by
  unfold sendText
  repeat' (first
    | with_reducible assumption | decide | with_reducible apply Swept.ite | with_reducible apply numberTile_swept
    | (refine Swept.sndOf ?_ ‹numberTile _ _ _ = (_, _)›; with_reducible apply numberTile_swept)
    | with_reducible apply passOn_swept | with_reducible apply noteEmission_swept
    | ((fail_if_success (fail_if_success with_reducible intro y)); first | with_reducible refine Swept.letGoal (s := s0) ?_ (fun _ _ => ?_) | with_reducible intro y)
    | simp only [Swept.put_iff, Swept.putRest_iff] | lift_lets | split)

theorem emitLast_swept {s0 t : State} (t') (h : Swept s0 t) :
    Swept s0 (emitLast t' t) := by
  unfold emitLast
  repeat' (first
    | with_reducible assumption | decide | with_reducible apply Swept.ite | with_reducible apply sendText_swept
    | ((fail_if_success (fail_if_success with_reducible intro y)); first | with_reducible refine Swept.letGoal (s := s0) ?_ (fun _ _ => ?_) | with_reducible intro y)
    | simp only [Swept.put_iff, Swept.putRest_iff] | lift_lets | split)

theorem discardAssay_swept {s0 t : State} (n) (h : Swept s0 t) :
    Swept s0 (discardAssay n t) := by
  unfold discardAssay
  repeat' (first
    | with_reducible assumption | decide | with_reducible apply Swept.ite
    | with_reducible apply bump_swept
    | with_reducible apply onStream_swept
    | ((fail_if_success (fail_if_success with_reducible intro y)); first | with_reducible refine Swept.letGoal (s := s0) ?_ (fun _ _ => ?_) | with_reducible intro y)
    | simp only [Swept.put_iff] | lift_lets | split)

theorem discardSorter_swept {s0 t : State} (n) (h : Swept s0 t) :
    Swept s0 (discardSorter n t) := by
  unfold discardSorter
  repeat' (first
    | with_reducible assumption | decide | with_reducible apply Swept.ite
    | with_reducible apply bump_swept
    | with_reducible apply onStream_swept
    | ((fail_if_success (fail_if_success with_reducible intro y)); first | with_reducible refine Swept.letGoal (s := s0) ?_ (fun _ _ => ?_) | with_reducible intro y)
    | simp only [Swept.put_iff] | lift_lets | split)

theorem discardHolds_swept {s0 t : State} (n) (h : Swept s0 t) :
    Swept s0 (discardHolds n t) := by
  unfold discardHolds
  repeat' (first
    | with_reducible assumption | decide | with_reducible apply Swept.ite
    | with_reducible apply discardSorter_swept
    | with_reducible apply discardAssay_swept
    | ((fail_if_success (fail_if_success with_reducible intro y)); first | with_reducible refine Swept.letGoal (s := s0) ?_ (fun _ _ => ?_) | with_reducible intro y)
    | simp only [Swept.put_iff] | lift_lets | split)

theorem closeStream_swept {s0 t : State} (n reason next) (h : Swept s0 t) :
    Swept s0 (closeStream n reason next t) := by
  unfold closeStream
  repeat' (first
    | with_reducible assumption | decide | with_reducible apply Swept.ite | with_reducible apply onStream_swept
    | with_reducible apply journal_swept
    | ((fail_if_success (fail_if_success with_reducible intro y)); first | with_reducible refine Swept.letGoal (s := s0) ?_ (fun _ _ => ?_) | with_reducible intro y)
    | simp only [Swept.put_iff, Swept.putRest_iff] | lift_lets | split)

theorem clearPending_swept {s0 t : State} (n ledger) (h : Swept s0 t) :
    Swept s0 (clearPending n ledger t) := by
  unfold clearPending
  repeat' (first
    | with_reducible assumption | decide | with_reducible apply Swept.ite
    | with_reducible apply onStream_swept
    | ((fail_if_success (fail_if_success with_reducible intro y)); first | with_reducible refine Swept.letGoal (s := s0) ?_ (fun _ _ => ?_) | with_reducible intro y)
    | simp only [Swept.put_iff] | lift_lets | split)

theorem endDead_swept {s0 t : State} (h' t') (h : Swept s0 t) :
    Swept s0 (endDead h' t' t) := by
  unfold endDead
  repeat' (first
    | with_reducible assumption | decide | with_reducible apply Swept.ite
    | with_reducible apply report_swept
    | with_reducible apply unqueue_swept
    | with_reducible apply clearPending_swept
    | ((fail_if_success (fail_if_success with_reducible intro y)); first | with_reducible refine Swept.letGoal (s := s0) ?_ (fun _ _ => ?_) | with_reducible intro y)
    | simp only [Swept.put_iff] | lift_lets | split)

theorem dropWaiting_swept {s0 t : State} (n) (h : Swept s0 t) :
    Swept s0 (dropWaiting n t) := by
  unfold dropWaiting
  repeat' (first
    | with_reducible assumption | decide | with_reducible apply Swept.ite | with_reducible apply endDead_swept
    | with_reducible refine Swept.foldl _ ?_ (fun _ _ _ => ?_)
    | ((fail_if_success (fail_if_success with_reducible intro y)); first | with_reducible refine Swept.letGoal (s := s0) ?_ (fun _ _ => ?_) | with_reducible intro y)
    | simp only [Swept.put_iff, Swept.putRest_iff] | lift_lets | split)

theorem countLate_swept {s0 t : State} (t') (h : Swept s0 t) :
    Swept s0 (countLate t' t) := by
  unfold countLate
  repeat' (first
    | with_reducible assumption | decide | with_reducible apply Swept.ite | with_reducible apply bump_swept
    | ((fail_if_success (fail_if_success with_reducible intro y)); first | with_reducible refine Swept.letGoal (s := s0) ?_ (fun _ _ => ?_) | with_reducible intro y)
    | simp only [Swept.put_iff, Swept.putRest_iff] | lift_lets | split)

theorem sweepItems_swept {s0 t : State} (h : Swept s0 t) :
    Swept s0 (sweepItems t) := by
  unfold sweepItems
  repeat' (first
    | with_reducible assumption | decide | with_reducible apply Swept.ite | with_reducible apply completeItem_swept
    | with_reducible refine Swept.foldl _ ?_ (fun _ _ _ => ?_)
    | ((fail_if_success (fail_if_success with_reducible intro y)); first | with_reducible refine Swept.letGoal (s := s0) ?_ (fun _ _ => ?_) | with_reducible intro y)
    | simp only [Swept.put_iff, Swept.putRest_iff] | lift_lets | split)

theorem endFill_swept {s0 t : State} (n h' t') (h : Swept s0 t) :
    Swept s0 (endFill n h' t' t) := by
  unfold endFill
  repeat' (first
    | with_reducible assumption | decide | with_reducible apply Swept.ite | with_reducible apply setBuilding_swept
    | with_reducible apply emitLast_swept | with_reducible apply emitTile_swept
    | with_reducible apply sendTokens_swept
    | ((fail_if_success (fail_if_success with_reducible intro y)); first | with_reducible refine Swept.letGoal (s := s0) ?_ (fun _ _ => ?_) | with_reducible intro y)
    | simp only [Swept.put_iff, Swept.putRest_iff] | lift_lets | split)

theorem endFills_swept {s0 t : State} (h : Swept s0 t) :
    Swept s0 (endFills t) := by
  unfold endFills
  repeat' (first
    | with_reducible assumption | decide | with_reducible apply Swept.ite | with_reducible apply endFill_swept
    | with_reducible refine Swept.foldl _ ?_ (fun _ _ _ => ?_)
    | ((fail_if_success (fail_if_success with_reducible intro y)); first | with_reducible refine Swept.letGoal (s := s0) ?_ (fun _ _ => ?_) | with_reducible intro y)
    | simp only [Swept.put_iff, Swept.putRest_iff] | lift_lets | split)

theorem sweepStreams_swept {s0 t : State} (h : Swept s0 t) :
    Swept s0 (sweepStreams t) := by
  unfold sweepStreams
  repeat' (first
    | with_reducible assumption | decide | with_reducible apply Swept.ite | with_reducible apply dropWaiting_swept
    | with_reducible apply onStream_swept | with_reducible apply discardHolds_swept
    | with_reducible apply journal_swept | with_reducible refine Swept.foldl _ ?_ (fun _ _ _ => ?_)
    | ((fail_if_success (fail_if_success with_reducible intro y)); first | with_reducible refine Swept.letGoal (s := s0) ?_ (fun _ _ => ?_) | with_reducible intro y)
    | simp only [Swept.put_iff, Swept.putRest_iff] | lift_lets | split)

theorem closeReplayed_swept {s0 t : State} (h : Swept s0 t) :
    Swept s0 (closeReplayed t) := by
  unfold closeReplayed
  repeat' (first
    | with_reducible assumption | decide | with_reducible apply Swept.ite | with_reducible apply closeStream_swept
    | with_reducible apply onStream_swept | with_reducible refine Swept.foldl _ ?_ (fun _ _ _ => ?_)
    | ((fail_if_success (fail_if_success with_reducible intro y)); first | with_reducible refine Swept.letGoal (s := s0) ?_ (fun _ _ => ?_) | with_reducible intro y)
    | simp only [Swept.put_iff, Swept.putRest_iff] | lift_lets | split)

theorem dropSettled_swept {s0 t : State} (h : Swept s0 t) :
    Swept s0 (dropSettled t) := by
  unfold dropSettled
  repeat' (first
    | with_reducible assumption | decide | with_reducible apply Swept.ite
    | ((fail_if_success (fail_if_success with_reducible intro y)); first | with_reducible refine Swept.letGoal (s := s0) ?_ (fun _ _ => ?_) | with_reducible intro y)
    | simp only [Swept.put_iff, Swept.putRest_iff] | lift_lets | split)

theorem clerkSink_swept {s0 t : State} (t') (h : Swept s0 t) :
    Swept s0 (clerkSink t' t) := by
  unfold clerkSink
  repeat' (first
    | with_reducible assumption | decide | with_reducible apply Swept.ite | with_reducible apply report_swept
    | with_reducible apply countLate_swept | with_reducible apply onTicket_swept
    | with_reducible apply storeScratch_swept
    | ((fail_if_success (fail_if_success with_reducible intro y)); first | with_reducible refine Swept.letGoal (s := s0) ?_ (fun _ _ => ?_) | with_reducible intro y)
    | simp only [Swept.put_iff, Swept.putRest_iff] | lift_lets | split)

theorem sinkClerks_swept {s0 t : State} (fuel) (h : Swept s0 t) :
    Swept s0 (sinkClerks fuel t) := by
  induction fuel generalizing t with
  | zero => exact h
  | succ fuel ih =>
    unfold sinkClerks
    repeat' (first
      | with_reducible assumption | decide | with_reducible apply Swept.ite | with_reducible apply clerkSink_swept
      | with_reducible apply unqueue_swept | with_reducible apply ih | cases ‹_ + 1 = Nat.succ _›
      | ((fail_if_success (fail_if_success with_reducible intro y)); first | with_reducible refine Swept.letGoal (s := s0) ?_ (fun _ _ => ?_) | with_reducible intro y)
      | simp only [Swept.put_iff, Swept.putRest_iff] | lift_lets | split)

theorem tellerEmit_swept {s0 t : State} (t' data) (h : Swept s0 t) :
    Swept s0 (tellerEmit t' data t) := by
  unfold tellerEmit
  repeat' (first
    | with_reducible assumption | decide | with_reducible apply Swept.ite
    | with_reducible apply passOn_swept
    | ((fail_if_success (fail_if_success with_reducible intro y)); first | with_reducible refine Swept.letGoal (s := s0) ?_ (fun _ _ => ?_) | with_reducible intro y)
    | simp only [Swept.put_iff] | lift_lets | split)

theorem readLog_swept {s0 t : State} (m off len job) (h : Swept s0 t) :
    Swept s0 (readLog m off len job t) := by
  unfold readLog
  repeat' (first
    | with_reducible assumption | decide | with_reducible apply Swept.ite
    | with_reducible apply startAccess_swept
    | ((fail_if_success (fail_if_success with_reducible intro y)); first | with_reducible refine Swept.letGoal (s := s0) ?_ (fun _ _ => ?_) | with_reducible intro y)
    | simp only [Swept.put_iff] | lift_lets | split)

theorem cutOne_swept {s0 t : State} (log i t' k) (h : Swept s0 t) :
    Swept s0 (cutOne log i t' k t) := by
  unfold cutOne
  repeat' (first
    | with_reducible assumption | decide | with_reducible apply Swept.ite
    | with_reducible apply readLog_swept
    | with_reducible apply tellerEmit_swept
    | with_reducible apply startAccess_swept
    | ((fail_if_success (fail_if_success with_reducible intro y)); first | with_reducible refine Swept.letGoal (s := s0) ?_ (fun _ _ => ?_) | with_reducible intro y)
    | simp only [Swept.put_iff] | lift_lets | split)

theorem feedCuts_swept {s0 t : State} (fuel) (h : Swept s0 t) : Swept s0 (feedCuts fuel t) := by
  induction fuel generalizing t with
  | zero => exact h
  | succ fuel ih =>
    unfold feedCuts
    repeat' (first
      | with_reducible assumption | decide | with_reducible apply Swept.ite | with_reducible apply ih
      | with_reducible apply cutOne_swept | cases ‹_ + 1 = Nat.succ _›
      | ((fail_if_success (fail_if_success with_reducible intro y)); first | with_reducible refine Swept.letGoal (s := s0) ?_ (fun _ _ => ?_) | with_reducible intro y)
      | simp only [Swept.put_iff, Swept.putRest_iff] | lift_lets | split)

theorem feedAll_swept {s0 t : State} (h : Swept s0 t) :
    Swept s0 (feedAll t) := by
  unfold feedAll
  repeat' (first
    | with_reducible assumption | decide | with_reducible apply Swept.ite
    | with_reducible apply feedCuts_swept
    | ((fail_if_success (fail_if_success with_reducible intro y)); first | with_reducible refine Swept.letGoal (s := s0) ?_ (fun _ _ => ?_) | with_reducible intro y)
    | simp only [Swept.put_iff] | lift_lets | split)

theorem sweep_swept {s0 t : State} (h : Swept s0 t) :
    Swept s0 (sweep t) := by
  unfold sweep
  repeat' (first
    | with_reducible assumption | decide | with_reducible apply Swept.ite | with_reducible apply sendAll_swept
    | with_reducible apply feedAll_swept | with_reducible apply dropSettled_swept | with_reducible apply sweepStreams_swept
    | with_reducible apply closeReplayed_swept | with_reducible apply sweepItems_swept
    | with_reducible apply endFills_swept | with_reducible apply sinkClerks_swept
    | ((fail_if_success (fail_if_success with_reducible intro y)); first | with_reducible refine Swept.letGoal (s := s0) ?_ (fun _ _ => ?_) | with_reducible intro y)
    | simp only [Swept.put_iff, Swept.putRest_iff] | lift_lets | split)

/-- The frame of `sweep`. -/
theorem sweep_only (s : State) : OnlySwept s (sweep s) :=
  ⟨(sweep_swept (Swept.refl s)).only, (sweep_swept (Swept.refl s)).regs⟩

theorem Swept.pending {s t : State} (h : Swept s t) : t.pending = s.pending := by
  have e := congrArg (fun u : State => u.pending) h.only
  exact e

@[simp] theorem sweep_pending (s : State) : (sweep s).pending = s.pending := (sweep_swept (Swept.refl s)).pending

theorem Swept.build {s t : State} (h : Swept s t) : t.build = s.build := by
  have e := congrArg (fun u : State => u.build) h.only
  exact e

@[simp] theorem sweep_build (s : State) : (sweep s).build = s.build := (sweep_swept (Swept.refl s)).build

theorem Swept.issueNo {s t : State} (h : Swept s t) : t.issueNo = s.issueNo := by
  have e := congrArg (fun u : State => u.issueNo) h.only
  exact e

@[simp] theorem sweep_issueNo (s : State) : (sweep s).issueNo = s.issueNo := (sweep_swept (Swept.refl s)).issueNo

theorem Swept.instId {s t : State} (h : Swept s t) : t.instId = s.instId := by
  have e := congrArg (fun u : State => u.instId) h.only
  exact e

@[simp] theorem sweep_instId (s : State) : (sweep s).instId = s.instId := (sweep_swept (Swept.refl s)).instId

theorem Swept.latch {s t : State} (h : Swept s t) : t.latch = s.latch := by
  have e := congrArg (fun u : State => u.latch) h.only
  exact e

@[simp] theorem sweep_latch (s : State) : (sweep s).latch = s.latch := (sweep_swept (Swept.refl s)).latch

theorem Swept.heldLo {s t : State} (h : Swept s t) : t.heldLo = s.heldLo := by
  have e := congrArg (fun u : State => u.heldLo) h.only
  exact e

@[simp] theorem sweep_heldLo (s : State) : (sweep s).heldLo = s.heldLo := (sweep_swept (Swept.refl s)).heldLo

theorem Swept.regOut {s t : State} (h : Swept s t) : t.regOut = s.regOut := by
  have e := congrArg (fun u : State => u.regOut) h.only
  exact e

@[simp] theorem sweep_regOut (s : State) : (sweep s).regOut = s.regOut := (sweep_swept (Swept.refl s)).regOut

theorem Swept.threads {s t : State} (h : Swept s t) : t.threads = s.threads := by
  have e := congrArg (fun u : State => u.threads) h.only
  exact e

@[simp] theorem sweep_threads (s : State) : (sweep s).threads = s.threads := (sweep_swept (Swept.refl s)).threads

theorem Swept.prog {s t : State} (h : Swept s t) : t.prog = s.prog := by
  have e := congrArg (fun u : State => u.prog) h.only
  exact e

@[simp] theorem sweep_prog (s : State) : (sweep s).prog = s.prog := (sweep_swept (Swept.refl s)).prog

theorem Swept.ticketNext {s t : State} (h : Swept s t) : t.ticketNext = s.ticketNext := by
  have e := congrArg (fun u : State => u.ticketNext) h.only
  exact e

@[simp] theorem sweep_ticketNext (s : State) : (sweep s).ticketNext = s.ticketNext := (sweep_swept (Swept.refl s)).ticketNext

theorem Swept.lastIssued {s t : State} (h : Swept s t) : t.lastIssued = s.lastIssued := by
  have e := congrArg (fun u : State => u.lastIssued) h.only
  exact e

@[simp] theorem sweep_lastIssued (s : State) : (sweep s).lastIssued = s.lastIssued := (sweep_swept (Swept.refl s)).lastIssued

theorem Swept.clerkFatal {s t : State} (h : Swept s t) : t.clerkFatal = s.clerkFatal := by
  have e := congrArg (fun u : State => u.clerkFatal) h.only
  exact e

@[simp] theorem sweep_clerkFatal (s : State) : (sweep s).clerkFatal = s.clerkFatal := (sweep_swept (Swept.refl s)).clerkFatal

theorem Swept.beat {s t : State} (h : Swept s t) : t.beat = s.beat := by
  have e := congrArg (fun u : State => u.beat) h.only
  exact e

@[simp] theorem sweep_beat (s : State) : (sweep s).beat = s.beat := (sweep_swept (Swept.refl s)).beat

theorem Swept.day {s t : State} (h : Swept s t) : t.day = s.day := by
  have e := congrArg (fun u : State => u.day) h.only
  exact e

@[simp] theorem sweep_day (s : State) : (sweep s).day = s.day := (sweep_swept (Swept.refl s)).day

theorem Swept.teller {s t : State} (h : Swept s t) : { t.teller with cuts := s.teller.cuts } = s.teller := by
  have e := congrArg (fun u : State => u.teller) h.only
  exact e

theorem sweep_teller (s : State) : { (sweep s).teller with cuts := s.teller.cuts } = s.teller :=
  (sweep_swept (Swept.refl s)).teller

theorem Swept.tenants {s t : State} (h : Swept s t) : t.tenants = s.tenants := by
  have e := congrArg (fun u : State => u.tenants) h.only
  exact e

@[simp] theorem sweep_tenants (s : State) : (sweep s).tenants = s.tenants := (sweep_swept (Swept.refl s)).tenants

theorem Swept.genNext {s t : State} (h : Swept s t) : t.genNext = s.genNext := by
  have e := congrArg (fun u : State => u.genNext) h.only
  exact e

@[simp] theorem sweep_genNext (s : State) : (sweep s).genNext = s.genNext := (sweep_swept (Swept.refl s)).genNext

theorem Swept.prefetch {s t : State} (h : Swept s t) : t.prefetch = s.prefetch := by
  have e := congrArg (fun u : State => u.prefetch) h.only
  exact e

@[simp] theorem sweep_prefetch (s : State) : (sweep s).prefetch = s.prefetch := (sweep_swept (Swept.refl s)).prefetch

theorem Swept.grammars {s t : State} (h : Swept s t) : t.grammars = s.grammars := by
  have e := congrArg (fun u : State => u.grammars) h.only
  exact e

@[simp] theorem sweep_grammars (s : State) : (sweep s).grammars = s.grammars := (sweep_swept (Swept.refl s)).grammars

theorem Swept.maskSets {s t : State} (h : Swept s t) : t.maskSets = s.maskSets := by
  have e := congrArg (fun u : State => u.maskSets) h.only
  exact e

@[simp] theorem sweep_maskSets (s : State) : (sweep s).maskSets = s.maskSets := (sweep_swept (Swept.refl s)).maskSets

theorem Swept.sortStep {s t : State} (h : Swept s t) : t.sortStep = s.sortStep := by
  have e := congrArg (fun u : State => u.sortStep) h.only
  exact e

@[simp] theorem sweep_sortStep (s : State) : (sweep s).sortStep = s.sortStep := (sweep_swept (Swept.refl s)).sortStep

theorem Swept.sortTemp {s t : State} (h : Swept s t) : t.sortTemp = s.sortTemp := by
  have e := congrArg (fun u : State => u.sortTemp) h.only
  exact e

@[simp] theorem sweep_sortTemp (s : State) : (sweep s).sortTemp = s.sortTemp := (sweep_swept (Swept.refl s)).sortTemp

theorem Swept.sortDead {s t : State} (h : Swept s t) : t.sortDead = s.sortDead := by
  have e := congrArg (fun u : State => u.sortDead) h.only
  exact e

@[simp] theorem sweep_sortDead (s : State) : (sweep s).sortDead = s.sortDead := (sweep_swept (Swept.refl s)).sortDead

theorem Swept.clear {s t : State} (h : Swept s t) : t.clear = s.clear := by
  have e := congrArg (fun u : State => u.clear) h.only
  exact e

@[simp] theorem sweep_clear (s : State) : (sweep s).clear = s.clear := (sweep_swept (Swept.refl s)).clear

theorem Swept.egress0 {s t : State} (h : Swept s t) : t.egress0 = s.egress0 := by
  have e := congrArg (fun u : State => u.egress0) h.only
  exact e

@[simp] theorem sweep_egress0 (s : State) : (sweep s).egress0 = s.egress0 := (sweep_swept (Swept.refl s)).egress0

theorem Swept.egress1 {s t : State} (h : Swept s t) : t.egress1 = s.egress1 := by
  have e := congrArg (fun u : State => u.egress1) h.only
  exact e

@[simp] theorem sweep_egress1 (s : State) : (sweep s).egress1 = s.egress1 := (sweep_swept (Swept.refl s)).egress1

theorem Swept.queue0 {s t : State} (h : Swept s t) : t.queue0 = s.queue0 := by
  have e := congrArg (fun u : State => u.queue0) h.only
  exact e

@[simp] theorem sweep_queue0 (s : State) : (sweep s).queue0 = s.queue0 := (sweep_swept (Swept.refl s)).queue0

theorem Swept.queue1 {s t : State} (h : Swept s t) : t.queue1 = s.queue1 := by
  have e := congrArg (fun u : State => u.queue1) h.only
  exact e

@[simp] theorem sweep_queue1 (s : State) : (sweep s).queue1 = s.queue1 := (sweep_swept (Swept.refl s)).queue1

theorem Swept.queue2 {s t : State} (h : Swept s t) : t.queue2 = s.queue2 := by
  have e := congrArg (fun u : State => u.queue2) h.only
  exact e

@[simp] theorem sweep_queue2 (s : State) : (sweep s).queue2 = s.queue2 := (sweep_swept (Swept.refl s)).queue2

theorem Swept.kcw {s t : State} (h : Swept s t) : t.kcw = s.kcw := by
  have e := congrArg (fun u : State => u.kcw) h.only
  exact e

@[simp] theorem sweep_kcw (s : State) : (sweep s).kcw = s.kcw := (sweep_swept (Swept.refl s)).kcw

theorem Swept.reserve {s t : State} (h : Swept s t) : t.reserve = s.reserve := by
  have e := congrArg (fun u : State => u.reserve) h.only
  exact e

@[simp] theorem sweep_reserve (s : State) : (sweep s).reserve = s.reserve := (sweep_swept (Swept.refl s)).reserve

theorem Swept.power {s t : State} (h : Swept s t) : t.power = s.power := by
  have e := congrArg (fun u : State => u.power) h.only
  exact e

@[simp] theorem sweep_power (s : State) : (sweep s).power = s.power := (sweep_swept (Swept.refl s)).power

theorem Swept.boot {s t : State} (h : Swept s t) : t.boot = s.boot := by
  have e := congrArg (fun u : State => u.boot) h.only
  exact e

@[simp] theorem sweep_boot (s : State) : (sweep s).boot = s.boot := (sweep_swept (Swept.refl s)).boot

theorem Swept.trcOut {s t : State} (h : Swept s t) : t.trcOut = s.trcOut := by
  have e := congrArg (fun u : State => u.trcOut) h.only
  exact e

@[simp] theorem sweep_trcOut (s : State) : (sweep s).trcOut = s.trcOut := (sweep_swept (Swept.refl s)).trcOut

theorem Swept.testOut {s t : State} (h : Swept s t) : t.testOut = s.testOut := by
  have e := congrArg (fun u : State => u.testOut) h.only
  exact e

@[simp] theorem sweep_testOut (s : State) : (sweep s).testOut = s.testOut := (sweep_swept (Swept.refl s)).testOut

@[simp] theorem thread_sweep (s : State) (w : Who) : thread (sweep s) w = thread s w := by
  unfold thread
  rw [sweep_threads]

@[simp] theorem tenant_sweep (s : State) (k : Nat) : tenant (sweep s) k = tenant s k := by
  unfold tenant
  rw [sweep_tenants]

theorem reg_sweep {off : Nat} (s : State) (h : off ∉ sweptRegs) : reg (sweep s) off = reg s off := (sweep_only s).2 off h

end Sys2Proof.Machine
end

