-- ==== Sys2Proof/Laws/Issue.lean ====
section
/-!
SUPPORT. The one operation by which a CLERK issues: an instruction that its thread may issue, and whose coins are there, is
paid for and takes effect.
-/

namespace Sys2Proof.Machine

/-- The state of an instruction of a thread that has been issued and bought for a base price, before its effect. -/
abbrev bought (w : Who) (c : Nat) (s : State) : State := spend (priceNow s c) (noteIssue w s)

/-! ### What an issue and a purchase leave -/

@[simp] theorem thread_noteIssue_same (w : Who) (s : State) : thread (noteIssue w s) w = issuedThread s w := by
  unfold noteIssue
  rw [thread_onThread_same]
  rfl

theorem thread_noteIssue_other {w v : Who} (s : State) (h : Who.key v ≠ Who.key w) :
    thread (noteIssue w s) v = thread s v := by
  unfold noteIssue
  rw [thread_onThread_other _ _ h]
  rfl

@[simp] theorem spend_threads (c : Nat) (s : State) : (spend c s).threads = s.threads := by
  unfold spend bump64
  split <;> rfl

@[simp] theorem spend_thread (c : Nat) (w : Who) (s : State) : thread (spend c s) w = thread s w := by
  unfold spend bump64
  split <;> rfl

@[simp] theorem spend_scratch (c : Nat) (s : State) : (spend c s).scratch = s.scratch := by
  unfold spend bump64
  split <;> rfl

@[simp] theorem spend_stores (c : Nat) (s : State) : (spend c s).stores = s.stores := by
  unfold spend bump64
  split <;> rfl

@[simp] theorem spend_balance (c : Nat) (s : State) : (spend c s).purse.balance = s.purse.balance - c := by
  unfold spend bump64
  split <;> rfl

theorem spend_regs (c : Nat) (s : State) : RegsKept [R.PUR_SPENT_LO, R.PUR_SPENT_HI] s (spend c s) := by
  intro k hk
  simp only [List.mem_cons, List.not_mem_nil, or_false, not_or] at hk
  unfold spend bump64
  split
  · rfl
  · rw [reg_setReg_other _ _ (by simpa using hk.2), reg_setReg_other _ _ hk.1]
    rfl

/-- The thread of an instruction that has been bought. -/
@[simp] theorem thread_bought (s : State) (w : Who) (c : Nat) : thread (bought w c s) w = issuedThread s w := by
  rw [spend_thread, thread_noteIssue_same]

/-- What a purchase by a thread changes. -/
theorem bought_spec (w : Who) (c : Nat) (s : State) (h : priceNow s c ≤ s.purse.balance) :
    Bought w c s (bought w c s) := by
  have hr := spend_regs (priceNow s c) (noteIssue w s)
  refine ⟨thread_bought s w c, ⟨⟨?_, hr, ?_, ?_⟩, ?_, ?_, ?_⟩, ?_, ?_⟩
  · intro v hv
    rw [spend_thread, thread_noteIssue_other s hv]
  · unfold bought spend bump64 PurseKept
    split <;> rfl
  · unfold bought spend bump64
    split <;> rfl
  · rw [spend_scratch, noteIssue_scratch]
  · rw [spend_stores, noteIssue_stores]
  · intro c x
    unfold bought spend bump64
    split <;> rfl
  · rw [spend_balance, noteIssue_purse]
    omega
  · unfold bought spend bump64
    split <;> rfl

/-! ### Issue -/

/-- A second base price of 0 adds nothing. -/
theorem unitPrice_one (s : State) {c : Nat} (h : c < 65536) : unitPrice s c = priceNow s c := by
  unfold unitPrice
  rw [Nat.mod_eq_of_lt h, Nat.div_eq_of_lt h]
  simp [priceNow, ceilDiv]

/-- A bill of one item that the balance covers is bought whole. -/
theorem payBill_one {s : State} {c : Nat} (hr : clkUp s 22 = true) (hb : priceNow s c ≤ s.purse.balance)
    (hc : c < 65536 := by omega) : payBill [(c, 1)] s = (spend (priceNow s c) s, []) := by
  have key : (if priceNow s c = 0 then 1
      else if clkUp s 22 then min 1 (s.purse.balance / priceNow s c) else 0) = 1 := by
    rw [if_pos hr]
    split
    · rfl
    · rename_i h
      have : 1 ≤ s.purse.balance / priceNow s c := (Nat.le_div_iff_mul_le (Nat.pos_of_ne_zero h)).2 (by omega)
      omega
  simp only [payBill, unitPrice_one s hc, key, Nat.one_mul, if_true]

/-- An instruction that may issue is paid for and takes effect. -/
theorem issue_pays {s : State} {w : Who} {f : Fields} {c : Nat} {cmd : Instr} {op : Op}
    (h : Issues s w f op.code c) (hb : op.bill = [(c, 1)]) (hc : 0 < c) (hm : c < 65536 := by omega) :
    issue w f cmd op s = op.act (bought w c s) := by
  obtain ⟨h1, h2, h3, h4, h5, h6, h7, h8, h9, h10, h11⟩ := h
  have hp : payBill [(c, 1)] (noteIssue w s) = (bought w c s, []) :=
    payBill_one (s := noteIssue w s) h10 h11 hm
  have e : takeEffect w f op (bought w c s) = op.act (bought w c s) := by
    have hq : predHolds (issuedThread s w) f = true := h8
    have hn : (issuedThread s w).pc < 8191 := h6
    unfold takeEffect
    simp only [thread_bought, hq, Bool.true_and]
    rw [if_neg (by simp; omega), if_pos trivial]
  unfold issue buy
  simp only [h1, h2, h3, h7, Thread.canIssue, hb, hp]
  simp [h9, mustWait, Nat.pos_iff_ne_zero.1 hc]
  exact e

/-! ### Instructions whose effect is a change of their thread -/

/-- An instruction that ends in a change of its thread after its purchase changes nothing else. -/
theorem threadEffect_of_onThread {w : Who} {c : Nat} {s : State} {f : Thread → Thread}
    {o : Host.Outcome State Fault Refusal} (h : priceNow s c ≤ s.purse.balance)
    (ho : o = .next (onThread w f (bought w c s))) :
    ThreadEffect w c s (f (issuedThread s w)) o := by
  obtain ⟨_, ⟨⟨b2, b3, b4, b5⟩, b6, b7, b8⟩, b9, _⟩ := bought_spec w c s h
  refine ⟨_, ho, ?_, ⟨⟨?_, ?_, b4, b5⟩, b6, b7, b8⟩, b9⟩
  · rw [thread_onThread_same, thread_bought]
  · intro v hv
    rw [thread_onThread_other _ _ hv]
    exact b2 v hv
  · intro k hk
    rw [reg_onThread]
    exact b3 k hk

/-- The end of an instruction of a thread that may issue moves its program counter alone. -/
theorem goOn_of_issues {s : State} {w : Who} {f : Fields} {op c : Nat} (h : Issues s w f op c) (pc : Nat) (t : Thread)
    (h1 : t.st = (thread s w).st) (h2 : t.wait = (thread s w).wait) (h3 : t.stepping = (thread s w).stepping)
    (h4 : t.stopAfter = (thread s w).stopAfter) : t.goOn pc = { t with pc := pc } := by
  obtain ⟨_, a2, a3, a4, a5, _⟩ := h
  cases t
  simp only at h1 h2 h3 h4
  subst h1 h2 h3 h4
  simp [Thread.goOn, a2, a3, a4, a5]

theorem goOn_setG_of_issues {s : State} {w : Who} {f : Fields} {op c : Nat} (h : Issues s w f op c) (pc : Nat)
    (d : BitVec 4) (v : Word) :
    ((issuedThread s w).setG d v).goOn pc = { (issuedThread s w).setG d v with pc := pc } := by
  apply goOn_of_issues h <;> (unfold Thread.setG; split <;> rfl)

theorem goOn_setP_of_issues {s : State} {w : Who} {f : Fields} {op c : Nat} (h : Issues s w f op c) (pc d : Nat)
    (v : Bool) : ((issuedThread s w).setP d v).goOn pc = { (issuedThread s w).setP d v with pc := pc } := by
  apply goOn_of_issues h <;> (unfold Thread.setP; split <;> rfl)

/-- The coins of an instruction that may issue are there. -/
theorem Issues.balance {s : State} {w : Who} {f : Fields} {op c : Nat} (h : Issues s w f op c) :
    priceNow s c ≤ s.purse.balance := h.2.2.2.2.2.2.2.2.2.2

/-- An instruction over the thread's registers that writes one g register. -/
theorem aluOp_effect {s : State} {w : Who} {f : Fields} {op c : Nat} {cmd : Instr} {value : Thread → Word}
    (h : Issues s w f op c) (hp : (opPrice op).getD 0 = c) (hc : 0 < c) (hm : c < 65536 := by omega) :
    ThreadEffect w c s { (issuedThread s w).setG f.d (value (issuedThread s w)) with pc := (thread s w).pc + 1 }
      (.next (issue w f cmd (aluOp w f op value) s)) := by
  have hb : (aluOp w f op value).bill = [(c, 1)] := by simp [aluOp, plainOp, pricedOp, hp]
  have e := threadEffect_of_onThread (w := w) (c := c) (s := s)
    (f := fun t => (t.setG f.d (value (issuedThread s w))).goOn (t.pc + 1)) h.balance
    (o := .next (issue w f cmd (aluOp w f op value) s)) (by
      rw [issue_pays (c := c) (f := f) (op := aluOp w f op value) h hb hc hm]
      simp only [aluOp, plainOp, pricedOp, putG, thread_bought])
  rwa [goOn_setG_of_issues h] at e

/-- An instruction that writes one p register. -/
theorem predicateOp_effect {s : State} {w : Who} {f : Fields} {op c : Nat} {cmd : Instr} {value : Thread → Bool}
    (h : Issues s w f op c) (hp : (opPrice op).getD 0 = c) (hc : 0 < c) (hm : c < 65536 := by omega) :
    ThreadEffect w c s
      { (issuedThread s w).setP f.d.toNat (value (issuedThread s w)) with pc := (thread s w).pc + 1 }
      (.next (issue w f cmd (predicateOp w f op value) s)) := by
  have hb : (predicateOp w f op value).bill = [(c, 1)] := by simp [predicateOp, plainOp, pricedOp, hp]
  have e := threadEffect_of_onThread (w := w) (c := c) (s := s)
    (f := fun t => (t.setP f.d.toNat (value (issuedThread s w))).goOn (t.pc + 1)) h.balance
    (o := .next (issue w f cmd (predicateOp w f op value) s)) (by
      rw [issue_pays (c := c) (f := f) (op := predicateOp w f op value) h hb hc hm]
      simp only [predicateOp, plainOp, pricedOp, putP, thread_bought])
  rwa [goOn_setP_of_issues h] at e

/-- A purchase leaves every byte of scratch as it is. -/
@[simp] theorem scratchByte_bought (s : State) (w : Who) (c d x : Nat) :
    scratchByte (bought w c s) d x = scratchByte s d x := by
  unfold scratchByte
  rw [spend_scratch, noteIssue_scratch]

/-- What is read of scratch depends on scratch alone. -/
theorem scratchRead_congr {s t : State} (h : t.scratch = s.scratch) (c x n : Nat) :
    scratchRead t c x n = scratchRead s c x n := by
  induction n generalizing x with
  | zero => rfl
  | succ n ih => simp only [scratchRead, ih, scratchByte, h]

/-- A purchase leaves every run of scratch as it is. -/
@[simp] theorem scratchRead_bought (s : State) (w : Who) (c d x n : Nat) :
    scratchRead (bought w c s) d x n = scratchRead s d x n :=
  scratchRead_congr (by rw [spend_scratch, noteIssue_scratch]) d x n

/-- An instruction that may issue takes its effect on the state after its purchase. -/
theorem exec_pays {s : State} {w : Who} {f : Fields} {c : Nat} {i : Instr} {op : Op} (h : Issues s w f op.code c)
    (hb : op.bill = [(c, 1)]) (hc : 0 < c) (hx : exec i s = .next (issue w f i op s))
    (hm : c < 65536 := by omega) :
    exec i s = .next (op.act (bought w c s)) := by
  rw [hx, issue_pays h hb hc hm]

/-- An instruction that ends by writing g[d] after its purchase changes nothing else. -/
theorem writes_putG {s : State} {w : Who} {f : Fields} {op c : Nat} (h : Issues s w f op c) (v : Word)
    {o : Host.Outcome State Fault Refusal} (ho : o = .next (putG w f.d v (bought w c s))) : Writes w f c s v o := by
  have e := threadEffect_of_onThread (w := w) (c := c) (s := s) (f := fun t => (t.setG f.d v).goOn (t.pc + 1))
    h.balance ho
  rwa [goOn_setG_of_issues h] at e

/-- An instruction that only sends its thread to wait after its purchase changes nothing else. -/
theorem waits_onThread {s : State} {w : Who} {f : Fields} {op c : Nat} (h : Issues s w f op c) (x : Wait)
    {o : Host.Outcome State Fault Refusal}
    (ho : o = .next (onThread w (fun t => { t with wait := x }) (bought w c s))) :
    LeavesWaiting w c s x o :=
  threadEffect_of_onThread (w := w) (c := c) (s := s) (f := fun t => { t with wait := x }) h.balance ho

/-- A thread changed and its items left to R94 after a purchase: nothing else is different. -/
theorem endOwned_bought {s : State} {w : Who} {c : Nat} (h : priceNow s c ≤ s.purse.balance) (f : Thread → Thread)
    (st : Nat) :
    let u := endOwned w st (onThread w f (bought w c s))
    thread u w = f (issuedThread s w) ∧ u.ledger = { s.ledger with items := itemsLeft w st s.ledger.items }
      ∧ OnlyThread w s { u with ledger := s.ledger } := by
  obtain ⟨_, ⟨⟨b2, b3, b4, b5⟩, b6, b7, b8⟩, _, b9⟩ := bought_spec w c s h
  intro u
  refine ⟨?_, ?_, ⟨⟨?_, b3, b4, ?_⟩, b6, b7, b8⟩⟩
  · have : thread u w = thread (onThread w f (bought w c s)) w := rfl
    rw [this, thread_onThread_same, thread_bought]
  · have e : (onThread w f (bought w c s)).ledger = s.ledger := b9
    show ({ (onThread w f (bought w c s)).ledger with items := _ } : LedgerState) = _
    rw [e]
    rfl
  · intro v hv
    exact (thread_onThread_other f _ hv).trans (b2 v hv)
  · refine Eq.trans ?_ b5
    rw [← b9]
    rfl

end Sys2Proof.Machine
end

