-- ==== Sys2Proof/Laws/Keep/Base.lean ====
section
/-!
SUPPORT. The relation every meaning keeps between the state it finds and the state it leaves: the build is fixed, the
queue of waiting commands is untouched, and what was in canonical form stays so. One lemma for each way a definition is
built from others.
-/

namespace Sys2Proof.Machine

/-- What every command leaves as it was: the build, the waiting commands, and the canonical form. -/
structure Keeps (s t : State) : Prop where
  build : t.build = s.build
  pending : t.pending = s.pending
  inv : Inv s → Inv t

/-- An outcome keeps what a next state of it keeps. -/
structure OKeeps (s : State) (o : Host.Outcome State Fault Refusal) : Prop where
  out : ∀ t, o = .next t → Keeps s t

theorem Keeps.refl (s : State) : Keeps s s := ⟨rfl, rfl, id⟩

theorem Keeps.trans {s t u : State} (h : Keeps s t) (k : Keeps t u) : Keeps s u :=
  ⟨k.build.trans h.build, k.pending.trans h.pending, fun i => k.inv (h.inv i)⟩

/-- An update of fields other than these. -/
theorem Keeps.upd {s u v : State} (h : Keeps s u) (h1 : v.build = u.build) (h2 : v.pending = u.pending)
    (h3 : v.scratch = u.scratch) (h4 : v.prog = u.prog) (h5 : v.stores = u.stores) (h6 : v.issueNo = u.issueNo) :
    Keeps s v :=
  ⟨h1.trans h.build, h2.trans h.pending, fun i => by
    have := h.inv i
    unfold Inv storesIssued at *
    rw [h3, h4, h5, h6]
    exact this⟩

/-- One more instruction is issued. -/
theorem Keeps.nextNo {s u : State} (h : Keeps s u) : Keeps s { u with issueNo := u.issueNo + 1 } :=
  ⟨h.build, h.pending, fun i => ⟨(h.inv i).1, (h.inv i).2.1, by
    have k := (h.inv i).2.2
    simp only [storesIssued, List.all_eq_true, decide_eq_true_eq] at k ⊢
    exact fun e he => Nat.le_succ_of_le (k e he)⟩⟩

theorem Keeps.ite {s a b : State} {c : Prop} [Decidable c] (ha : Keeps s a) (hb : Keeps s b) :
    Keeps s (if c then a else b) := by
  split <;> assumption

theorem Keeps.fstIte {α : Type} {s : State} {a b : State × α} {c : Prop} [Decidable c] (ha : Keeps s a.1)
    (hb : Keeps s b.1) : Keeps s (if c then a else b).1 := by
  split <;> assumption

theorem Keeps.sndIte {α : Type} {s : State} {a b : α × State} {c : Prop} [Decidable c] (ha : Keeps s a.2)
    (hb : Keeps s b.2) : Keeps s (if c then a else b).2 := by
  split <;> assumption

theorem Keeps.idf {s u : State} (h : Keeps s u) : Keeps s (id u) := h

theorem Keeps.foldl {α : Type} {s u : State} {f : State → α → State} (xs : List α) (h : Keeps s u)
    (hf : ∀ t x, Keeps s t → Keeps s (f t x)) : Keeps s (xs.foldl f u) := by
  induction xs generalizing u with
  | nil => exact h
  | cons x xs ih => exact ih (hf _ _ h)

theorem Keeps.foldSnd {α β : Type} {s : State} {p : β × State} {f : β × State → α → β × State} (xs : List α)
    (h : Keeps s p.2) (hf : ∀ q x, Keeps s q.2 → Keeps s (f q x).2) : Keeps s (xs.foldl f p).2 := by
  induction xs generalizing p with
  | nil => exact h
  | cons x xs ih => exact ih (hf _ _ h)

/-- A record update of fields other than these. -/
theorem Keeps.put {s u : State} (h : Keeps s u)
    {x_free x_emitted x_instId x_regs x_latch x_heldLo x_regOut x_threads x_tickets x_ticketNext x_lastIssued
    x_clerkFatal x_streams x_beat x_day x_teller x_hops x_tenants x_genNext x_prefetch x_grammars x_maskSets x_sortStep x_sortTemp
    x_sortDead x_clear x_egress0 x_egress1 x_accesses x_nextAccess x_ledger x_queue0 x_queue1 x_queue2 x_queue3
    x_kcw x_purse x_reserve x_power x_boot x_trcOut x_testOut} :
    Keeps s (State.mk u.pending u.build x_free x_emitted u.issueNo u.stores x_instId x_regs x_latch x_heldLo x_regOut x_threads
        u.prog u.scratch x_tickets x_ticketNext x_lastIssued x_clerkFatal x_streams x_beat x_day x_teller x_hops x_tenants x_genNext x_prefetch
        x_grammars x_maskSets x_sortStep x_sortTemp x_sortDead x_clear x_egress0 x_egress1 x_accesses
        x_nextAccess x_ledger x_queue0 x_queue1 x_queue2 x_queue3 x_kcw x_purse x_reserve x_power x_boot x_trcOut
        x_testOut) :=
  h.upd rfl rfl rfl rfl rfl rfl

theorem Keeps.put_iff {s u : State}
    {x_free x_emitted x_instId x_regs x_latch x_heldLo x_regOut x_threads x_tickets x_ticketNext x_lastIssued
    x_clerkFatal x_streams x_beat x_day x_teller x_hops x_tenants x_genNext x_prefetch x_grammars x_maskSets x_sortStep x_sortTemp
    x_sortDead x_clear x_egress0 x_egress1 x_accesses x_nextAccess x_ledger x_queue0 x_queue1 x_queue2 x_queue3
    x_kcw x_purse x_reserve x_power x_boot x_trcOut x_testOut} :
    Keeps s (State.mk u.pending u.build x_free x_emitted u.issueNo u.stores x_instId x_regs x_latch x_heldLo x_regOut x_threads
        u.prog u.scratch x_tickets x_ticketNext x_lastIssued x_clerkFatal x_streams x_beat x_day x_teller x_hops x_tenants x_genNext x_prefetch
        x_grammars x_maskSets x_sortStep x_sortTemp x_sortDead x_clear x_egress0 x_egress1 x_accesses
        x_nextAccess x_ledger x_queue0 x_queue1 x_queue2 x_queue3 x_kcw x_purse x_reserve x_power x_boot x_trcOut
        x_testOut) ↔ Keeps s u :=
  ⟨fun h => ⟨h.build, h.pending, h.inv⟩, fun h => h.put⟩

/-- A state named on the way. -/
theorem Keeps.letGoal {s e : State} {P : State → Prop} (h : Keeps s e) (hf : ∀ t, Keeps s t → P t) :
    let t := e
    P t := hf e h

theorem Keeps.fstOf {α : Type} {s a : State} {b : α} {p : State × α} (h : Keeps s p.1) (e : p = (a, b)) :
    Keeps s a := by
  rw [e] at h
  exact h

theorem Keeps.sndOf {α : Type} {s a : State} {b : α} {p : α × State} (h : Keeps s p.2) (e : p = (b, a)) :
    Keeps s a := by
  rw [e] at h
  exact h

/-- An outcome's state named on the way. -/
theorem OKeeps.match_some {α : Type} {s : State} {x : Option α} {a : Host.Outcome State Fault Refusal}
    {f : α → Host.Outcome State Fault Refusal} (ha : OKeeps s a) (hf : ∀ y, OKeeps s (f y)) :
    OKeeps s (match x with
      | none => a
      | some y => f y) := by
  cases x
  · exact ha
  · exact hf _

theorem OKeeps.next {s t : State} (h : Keeps s t) : OKeeps s (.next t) := ⟨fun _ e => by
  cases e
  exact h⟩

theorem OKeeps.refused {s : State} (r : Refusal) : OKeeps s (.refused r) := ⟨fun _ e => by cases e⟩

theorem OKeeps.fault {s : State} (r : Fault) : OKeeps s (.fault r) := ⟨fun _ e => by cases e⟩

theorem OKeeps.ite {s : State} {a b : Host.Outcome State Fault Refusal} {c : Prop} [Decidable c] (ha : OKeeps s a)
    (hb : OKeeps s b) : OKeeps s (if c then a else b) := by
  split <;> assumption

/-- What a choice of effects keeps. -/
structure FKeeps (s t : State) (o : Option (State → State)) : Prop where
  out : ∀ f, o = some f → Keeps s (f t)

theorem FKeeps.some {s t : State} {f : State → State} (h : Keeps s (f t)) : FKeeps s t (some f) := ⟨fun _ e => by
  cases e
  exact h⟩

theorem FKeeps.none {s t : State} : FKeeps s t none := ⟨fun _ e => by cases e⟩

theorem FKeeps.ite {s t : State} {a b : Option (State → State)} {c : Prop} [Decidable c] (ha : FKeeps s t a)
    (hb : FKeeps s t b) : FKeeps s t (if c then a else b) := by
  split <;> assumption

end Sys2Proof.Machine
end

