-- ==== Sys2Proof/Laws/Keep/Ops.lean ====
section
/-!
SUPPORT. What the definitions of Machine/Ops.lean leave as it was.
-/

namespace Sys2Proof.Machine

set_option linter.unusedTactic false
set_option linter.unreachableTactic false
set_option linter.unusedSimpArgs false

theorem setReg_keeps {s0 t : State} (off v) (h : Keeps s0 t) :
    Keeps s0 (setReg off v t) := by
  unfold setReg
  repeat' (first
    | with_reducible assumption | with_reducible apply Keeps.ite
    | ((fail_if_success (fail_if_success with_reducible intro y)); first | with_reducible refine Keeps.letGoal (s := s0) ?_ (fun _ _ => ?_) | with_reducible intro y)
    | simp only [Keeps.put_iff] | lift_lets | split)

theorem setRegBit_keeps {s0 t : State} (off i) (h : Keeps s0 t) :
    Keeps s0 (setRegBit off i t) := by
  unfold setRegBit
  repeat' (first
    | with_reducible assumption | with_reducible apply Keeps.ite | with_reducible apply setReg_keeps
    | ((fail_if_success (fail_if_success with_reducible intro y)); first | with_reducible refine Keeps.letGoal (s := s0) ?_ (fun _ _ => ?_) | with_reducible intro y)
    | simp only [Keeps.put_iff] | lift_lets | split)

theorem clearRegBit_keeps {s0 t : State} (off i) (h : Keeps s0 t) :
    Keeps s0 (clearRegBit off i t) := by
  unfold clearRegBit
  repeat' (first
    | with_reducible assumption | with_reducible apply Keeps.ite | with_reducible apply setReg_keeps
    | ((fail_if_success (fail_if_success with_reducible intro y)); first | with_reducible refine Keeps.letGoal (s := s0) ?_ (fun _ _ => ?_) | with_reducible intro y)
    | simp only [Keeps.put_iff] | lift_lets | split)

theorem bump_keeps {s0 t : State} (off n) (h : Keeps s0 t) :
    Keeps s0 (bump off n t) := by
  unfold bump
  repeat' (first
    | with_reducible assumption | with_reducible apply Keeps.ite | with_reducible apply setReg_keeps
    | ((fail_if_success (fail_if_success with_reducible intro y)); first | with_reducible refine Keeps.letGoal (s := s0) ?_ (fun _ _ => ?_) | with_reducible intro y)
    | simp only [Keeps.put_iff] | lift_lets | split)

theorem bump64_keeps {s0 t : State} (off n) (h : Keeps s0 t) :
    Keeps s0 (bump64 off n t) := by
  unfold bump64
  repeat' (first
    | with_reducible assumption | with_reducible apply Keeps.ite | with_reducible apply setReg_keeps
    | ((fail_if_success (fail_if_success with_reducible intro y)); first | with_reducible refine Keeps.letGoal (s := s0) ?_ (fun _ _ => ?_) | with_reducible intro y)
    | simp only [Keeps.put_iff] | lift_lets | split)

theorem logFirst_keeps {s0 t : State} (lo vlo hi vhi) (h : Keeps s0 t) :
    Keeps s0 (logFirst lo vlo hi vhi t) := by
  unfold logFirst
  repeat' (first
    | with_reducible assumption | with_reducible apply Keeps.ite | with_reducible apply setReg_keeps
    | ((fail_if_success (fail_if_success with_reducible intro y)); first | with_reducible refine Keeps.letGoal (s := s0) ?_ (fun _ _ => ?_) | with_reducible intro y)
    | simp only [Keeps.put_iff] | lift_lets | split)

theorem takeFree_keeps {s0 t : State} (h : Keeps s0 t) :
    Keeps s0 (takeFree t).2 := by
  unfold takeFree
  repeat' (first
    | with_reducible assumption | with_reducible apply Keeps.ite | with_reducible apply Keeps.sndIte
    | ((fail_if_success (fail_if_success with_reducible intro y)); first | with_reducible refine Keeps.letGoal (s := s0) ?_ (fun _ _ => ?_) | with_reducible intro y)
    | simp only [Keeps.put_iff] | lift_lets | split)

theorem bumpFree_keeps {s0 t : State} (off) (h : Keeps s0 t) :
    Keeps s0 (bumpFree off t) := by
  unfold bumpFree
  repeat' (first
    | with_reducible assumption | with_reducible apply Keeps.ite | with_reducible apply takeFree_keeps
    | (refine Keeps.sndOf ?_ ‹takeFree _ = (_, _)›; with_reducible apply takeFree_keeps)
    | with_reducible apply bump_keeps
    | ((fail_if_success (fail_if_success with_reducible intro y)); first | with_reducible refine Keeps.letGoal (s := s0) ?_ (fun _ _ => ?_) | with_reducible intro y)
    | simp only [Keeps.put_iff] | lift_lets | split)

theorem scratchWrite_keeps {s0 t : State} (c x bs) (h : Keeps s0 t) :
    Keeps s0 (scratchWrite c x bs t) :=
  ⟨h.build, h.pending, fun i => ⟨placeBytes_wf _ _ _ (h.inv i).1, (h.inv i).2⟩⟩

theorem setThread_keeps {s0 t : State} (w t') (h : Keeps s0 t) :
    Keeps s0 (setThread w t' t) := by
  unfold setThread
  repeat' (first
    | with_reducible assumption | with_reducible apply Keeps.ite
    | ((fail_if_success (fail_if_success with_reducible intro y)); first | with_reducible refine Keeps.letGoal (s := s0) ?_ (fun _ _ => ?_) | with_reducible intro y)
    | simp only [Keeps.put_iff] | lift_lets | split)

theorem onThread_keeps {s0 t : State} (w f) (h : Keeps s0 t) :
    Keeps s0 (onThread w f t) := by
  unfold onThread
  repeat' (first
    | with_reducible assumption | with_reducible apply Keeps.ite | with_reducible apply setThread_keeps
    | ((fail_if_success (fail_if_success with_reducible intro y)); first | with_reducible refine Keeps.letGoal (s := s0) ?_ (fun _ _ => ?_) | with_reducible intro y)
    | simp only [Keeps.put_iff] | lift_lets | split)

theorem noteStore_keeps {s0 t : State} (c x n no) (h : Keeps s0 t) :
    Keeps s0 (noteStore c x n no t) := by
  refine ⟨h.build, h.pending, fun i => ⟨(h.inv i).1, (h.inv i).2.1, ?_⟩⟩
  have k := (h.inv i).2.2
  simp only [storesIssued, List.all_eq_true, decide_eq_true_eq] at k ⊢
  intro e he
  unfold noteStore at he ⊢
  dsimp only at he ⊢
  split at he
  · rcases List.mem_cons.1 he with rfl | he
    · exact Nat.min_le_right _ _
    · exact k e (List.mem_filter.1 he).1
  · exact k e (List.mem_filter.1 he).1

theorem storeScratch_keeps {s0 t : State} (no c x bs) (h : Keeps s0 t) :
    Keeps s0 (storeScratch no c x bs t) := by
  unfold storeScratch
  repeat' (first
    | with_reducible assumption | with_reducible apply Keeps.ite | with_reducible apply noteStore_keeps
    | with_reducible apply scratchWrite_keeps
    | ((fail_if_success (fail_if_success with_reducible intro y)); first | with_reducible refine Keeps.letGoal (s := s0) ?_ (fun _ _ => ?_) | with_reducible intro y)
    | simp only [Keeps.put_iff] | lift_lets | split)

theorem setStream_keeps {s0 t : State} (n x) (h : Keeps s0 t) :
    Keeps s0 (setStream n x t) := by
  unfold setStream
  repeat' (first
    | with_reducible assumption | with_reducible apply Keeps.ite
    | ((fail_if_success (fail_if_success with_reducible intro y)); first | with_reducible refine Keeps.letGoal (s := s0) ?_ (fun _ _ => ?_) | with_reducible intro y)
    | simp only [Keeps.put_iff] | lift_lets | split)

theorem onStream_keeps {s0 t : State} (n f) (h : Keeps s0 t) :
    Keeps s0 (onStream n f t) := by
  unfold onStream
  repeat' (first
    | with_reducible assumption | with_reducible apply Keeps.ite | with_reducible apply setStream_keeps
    | ((fail_if_success (fail_if_success with_reducible intro y)); first | with_reducible refine Keeps.letGoal (s := s0) ?_ (fun _ _ => ?_) | with_reducible intro y)
    | simp only [Keeps.put_iff] | lift_lets | split)

theorem setTenant_keeps {s0 t : State} (k t') (h : Keeps s0 t) :
    Keeps s0 (setTenant k t' t) := by
  unfold setTenant
  repeat' (first
    | with_reducible assumption | with_reducible apply Keeps.ite
    | ((fail_if_success (fail_if_success with_reducible intro y)); first | with_reducible refine Keeps.letGoal (s := s0) ?_ (fun _ _ => ?_) | with_reducible intro y)
    | simp only [Keeps.put_iff] | lift_lets | split)

theorem setQueueAt_keeps {s0 t : State} (h' q) (h : Keeps s0 t) :
    Keeps s0 (setQueueAt h' q t) := by
  unfold setQueueAt
  repeat' (first
    | with_reducible assumption | with_reducible apply Keeps.ite
    | ((fail_if_success (fail_if_success with_reducible intro y)); first | with_reducible refine Keeps.letGoal (s := s0) ?_ (fun _ _ => ?_) | with_reducible intro y)
    | simp only [Keeps.put_iff] | lift_lets | split)

theorem enqueue_keeps {s0 t : State} (h' t') (h : Keeps s0 t) :
    Keeps s0 (enqueue h' t' t) := by
  unfold enqueue
  repeat' (first
    | with_reducible assumption | with_reducible apply Keeps.ite | with_reducible apply setQueueAt_keeps
    | ((fail_if_success (fail_if_success with_reducible intro y)); first | with_reducible refine Keeps.letGoal (s := s0) ?_ (fun _ _ => ?_) | with_reducible intro y)
    | simp only [Keeps.put_iff] | lift_lets | split)

theorem setQueueN_keeps {s0 t : State} (q es) (h : Keeps s0 t) :
    Keeps s0 (setQueueN q es t) := by
  unfold setQueueN
  repeat' (first
    | with_reducible assumption | with_reducible apply Keeps.ite
    | ((fail_if_success (fail_if_success with_reducible intro y)); first | with_reducible refine Keeps.letGoal (s := s0) ?_ (fun _ _ => ?_) | with_reducible intro y)
    | simp only [Keeps.put_iff] | lift_lets | split)

theorem setUnwritten_keeps {s0 t : State} (q n) (h : Keeps s0 t) :
    Keeps s0 (setUnwritten q n t) := by
  unfold setUnwritten
  repeat' (first
    | with_reducible assumption | with_reducible apply Keeps.ite
    | ((fail_if_success (fail_if_success with_reducible intro y)); first | with_reducible refine Keeps.letGoal (s := s0) ?_ (fun _ _ => ?_) | with_reducible intro y)
    | simp only [Keeps.put_iff] | lift_lets | split)

theorem cutThrough_keeps {s0 t : State} (q m) (h : Keeps s0 t) :
    Keeps s0 (cutThrough q m t) := by
  unfold cutThrough
  repeat' (first
    | with_reducible assumption | with_reducible apply Keeps.ite | with_reducible apply setUnwritten_keeps
    | with_reducible apply takeFree_keeps
    | (refine Keeps.sndOf ?_ ‹takeFree _ = (_, _)›; with_reducible apply takeFree_keeps)
    | ((fail_if_success (fail_if_success with_reducible intro y)); first | with_reducible refine Keeps.letGoal (s := s0) ?_ (fun _ _ => ?_) | with_reducible intro y)
    | simp only [Keeps.put_iff] | lift_lets | split)

theorem writePacket_keeps {s0 t : State} (q es) (h : Keeps s0 t) :
    Keeps s0 (writePacket q es t) := by
  unfold writePacket
  repeat' (first
    | with_reducible assumption | with_reducible apply Keeps.ite | with_reducible apply cutThrough_keeps
    | with_reducible apply setQueueN_keeps | with_reducible apply bump_keeps | with_reducible apply setReg_keeps
    | ((fail_if_success (fail_if_success with_reducible intro y)); first | with_reducible refine Keeps.letGoal (s := s0) ?_ (fun _ _ => ?_) | with_reducible intro y)
    | simp only [Keeps.put_iff] | lift_lets | split)

theorem noteLoss_keeps {s0 t : State} (i) (h : Keeps s0 t) :
    Keeps s0 (noteLoss i t) := by
  unfold noteLoss
  repeat' (first
    | with_reducible assumption | with_reducible apply Keeps.ite | with_reducible apply bump_keeps
    | with_reducible apply setReg_keeps
    | ((fail_if_success (fail_if_success with_reducible intro y)); first | with_reducible refine Keeps.letGoal (s := s0) ?_ (fun _ _ => ?_) | with_reducible intro y)
    | simp only [Keeps.put_iff] | lift_lets | split)

theorem writeTrace_keeps {s0 t : State} (es) (h : Keeps s0 t) :
    Keeps s0 (writeTrace es t) := by
  unfold writeTrace
  repeat' (first
    | with_reducible assumption | with_reducible apply Keeps.ite | with_reducible apply writePacket_keeps
    | with_reducible apply takeFree_keeps
    | (refine Keeps.sndOf ?_ ‹takeFree _ = (_, _)›; with_reducible apply takeFree_keeps)
    | with_reducible apply noteLoss_keeps | with_reducible apply bump_keeps | with_reducible apply setRegBit_keeps
    | ((fail_if_success (fail_if_success with_reducible intro y)); first | with_reducible refine Keeps.letGoal (s := s0) ?_ (fun _ _ => ?_) | with_reducible intro y)
    | simp only [Keeps.put_iff] | lift_lets | split)

theorem trace_keeps {s0 t : State} (k n head es) (h : Keeps s0 t) :
    Keeps s0 (trace k n head es t) := by
  unfold trace
  repeat' (first
    | with_reducible assumption | with_reducible apply Keeps.ite | with_reducible apply writePacket_keeps
    | with_reducible apply writeTrace_keeps
    | ((fail_if_success (fail_if_success with_reducible intro y)); first | with_reducible refine Keeps.letGoal (s := s0) ?_ (fun _ _ => ?_) | with_reducible intro y)
    | simp only [Keeps.put_iff] | lift_lets | split)

theorem traceTile_keeps {s0 t : State} (hop t') (h : Keeps s0 t) :
    Keeps s0 (traceTile hop t' t) := by
  unfold traceTile
  repeat' (first
    | with_reducible assumption | with_reducible apply Keeps.ite | with_reducible apply trace_keeps
    | ((fail_if_success (fail_if_success with_reducible intro y)); first | with_reducible refine Keeps.letGoal (s := s0) ?_ (fun _ _ => ?_) | with_reducible intro y)
    | simp only [Keeps.put_iff] | lift_lets | split)

theorem passOn_keeps {s0 t : State} (hop t') (h : Keeps s0 t) :
    Keeps s0 (passOn hop t' t) := by
  unfold passOn
  repeat' (first
    | with_reducible assumption | with_reducible apply Keeps.ite | with_reducible apply enqueue_keeps
    | with_reducible apply traceTile_keeps
    | ((fail_if_success (fail_if_success with_reducible intro y)); first | with_reducible refine Keeps.letGoal (s := s0) ?_ (fun _ _ => ?_) | with_reducible intro y)
    | simp only [Keeps.put_iff] | lift_lets | split)

theorem onItem_keeps {s0 t : State} (n f) (h : Keeps s0 t) :
    Keeps s0 (onItem n f t) := by
  unfold onItem
  repeat' (first
    | with_reducible assumption | with_reducible apply Keeps.ite
    | ((fail_if_success (fail_if_success with_reducible intro y)); first | with_reducible refine Keeps.letGoal (s := s0) ?_ (fun _ _ => ?_) | with_reducible intro y)
    | simp only [Keeps.put_iff] | lift_lets | split)

theorem noteEmission_keeps {s0 t : State} (part ledger data) (h : Keeps s0 t) :
    Keeps s0 (noteEmission part ledger data t) := by
  unfold noteEmission
  repeat' (first
    | with_reducible assumption | with_reducible apply Keeps.ite | with_reducible apply onItem_keeps
    | ((fail_if_success (fail_if_success with_reducible intro y)); first | with_reducible refine Keeps.letGoal (s := s0) ?_ (fun _ _ => ?_) | with_reducible intro y)
    | simp only [Keeps.put_iff] | lift_lets | split)

theorem addItem_keeps {s0 t : State} (i) (h : Keeps s0 t) :
    Keeps s0 (addItem i t) := by
  unfold addItem
  repeat' (first
    | with_reducible assumption | with_reducible apply Keeps.ite
    | ((fail_if_success (fail_if_success with_reducible intro y)); first | with_reducible refine Keeps.letGoal (s := s0) ?_ (fun _ _ => ?_) | with_reducible intro y)
    | simp only [Keeps.put_iff] | lift_lets | split)

theorem takeTicket_keeps {s0 t : State} (c n ledger) (h : Keeps s0 t) :
    ∀ k u, takeTicket c n ledger t = some (k, u) → Keeps s0 u := by
  intro k u e
  unfold takeTicket at e
  split at e
  · cases e
  · cases e
    exact ⟨h.build, h.pending, h.inv⟩

theorem onTicket_keeps {s0 t : State} (c t' f) (h : Keeps s0 t) :
    Keeps s0 (onTicket c t' f t) := by
  unfold onTicket
  repeat' (first
    | with_reducible assumption | with_reducible apply Keeps.ite
    | ((fail_if_success (fail_if_success with_reducible intro y)); first | with_reducible refine Keeps.letGoal (s := s0) ?_ (fun _ _ => ?_) | with_reducible intro y)
    | simp only [Keeps.put_iff] | lift_lets | split)

theorem reportTicket_keeps {s0 t : State} (c t' status flags) (h : Keeps s0 t) :
    Keeps s0 (reportTicket c t' status flags t) := by
  unfold reportTicket
  repeat' (first
    | with_reducible assumption | with_reducible apply Keeps.ite | with_reducible apply onTicket_keeps
    | ((fail_if_success (fail_if_success with_reducible intro y)); first | with_reducible refine Keeps.letGoal (s := s0) ?_ (fun _ _ => ?_) | with_reducible intro y)
    | simp only [Keeps.put_iff] | lift_lets | split)

theorem reportItem_keeps {s0 t : State} (n status flags) (h : Keeps s0 t) :
    Keeps s0 (reportItem n status flags t) := by
  unfold reportItem
  repeat' (first
    | with_reducible assumption | with_reducible apply Keeps.ite | with_reducible apply onItem_keeps
    | ((fail_if_success (fail_if_success with_reducible intro y)); first | with_reducible refine Keeps.letGoal (s := s0) ?_ (fun _ _ => ?_) | with_reducible intro y)
    | simp only [Keeps.put_iff] | lift_lets | split)

theorem report_keeps {s0 t : State} (t' status flags) (h : Keeps s0 t) :
    Keeps s0 (report t' status flags t) := by
  unfold report
  repeat' (first
    | with_reducible assumption | with_reducible apply Keeps.ite | with_reducible apply reportTicket_keeps
    | with_reducible apply reportItem_keeps
    | ((fail_if_success (fail_if_success with_reducible intro y)); first | with_reducible refine Keeps.letGoal (s := s0) ?_ (fun _ _ => ?_) | with_reducible intro y)
    | simp only [Keeps.put_iff] | lift_lets | split)

theorem raise_keeps {s0 t : State} (line) (h : Keeps s0 t) :
    Keeps s0 (raise line t) := by
  unfold raise
  repeat' (first
    | with_reducible assumption | with_reducible apply Keeps.ite | with_reducible apply setRegBit_keeps
    | ((fail_if_success (fail_if_success with_reducible intro y)); first | with_reducible refine Keeps.letGoal (s := s0) ?_ (fun _ _ => ?_) | with_reducible intro y)
    | simp only [Keeps.put_iff] | lift_lets | split)

theorem viaPort_keeps {s0 t : State} {f : State → Host.Outcome State Fault Refusal} (h : Keeps s0 t)
    (hf : ∀ u, Keeps s0 u → OKeeps s0 (f u)) : OKeeps s0 (viaPort t f) := by
  unfold viaPort
  split
  · exact hf _ h.put
  · exact OKeeps.next h

theorem viaRead_keeps {s0 t : State} {o : Host.Outcome State Fault Refusal} (h : Keeps s0 t) (ho : OKeeps s0 o) :
    OKeeps s0 (viaRead t o) := by
  unfold viaRead
  split
  · exact ho
  · exact OKeeps.next h

end Sys2Proof.Machine
end

