-- ==== Sys2Proof/Laws/Keep/Coins.lean ====
section
/-!
SUPPORT. What the definitions of Machine/Coins.lean leave as it was.
-/

namespace Sys2Proof.Machine

set_option linter.unusedTactic false
set_option linter.unreachableTactic false
set_option linter.unusedSimpArgs false

theorem spend_keeps {s0 t : State} (c) (h : Keeps s0 t) :
    Keeps s0 (spend c t) := by
  unfold spend
  repeat' (first
    | with_reducible assumption | with_reducible apply Keeps.ite | with_reducible apply bump64_keeps
    | ((fail_if_success (fail_if_success with_reducible intro y)); first | with_reducible refine Keeps.letGoal (s := s0) ?_ (fun _ _ => ?_) | with_reducible intro y)
    | simp only [Keeps.put_iff] | lift_lets | split)

theorem payBill_keeps {s0 t : State} (y0) (h : Keeps s0 t) :
    Keeps s0 (payBill y0 t).1 := by
  induction y0 generalizing t with
  | nil => exact h
  | cons x xs ih =>
    unfold payBill
    exact Keeps.fstIte (ih (spend_keeps _ h)) (spend_keeps _ h)

theorem joinPurse_keeps {s0 t : State} (p) (h : Keeps s0 t) :
    Keeps s0 (joinPurse p t) := by
  unfold joinPurse
  repeat' (first
    | with_reducible assumption | with_reducible apply Keeps.ite
    | ((fail_if_success (fail_if_success with_reducible intro y)); first | with_reducible refine Keeps.letGoal (s := s0) ?_ (fun _ _ => ?_) | with_reducible intro y)
    | simp only [Keeps.put_iff] | lift_lets | split)

theorem buy_keeps {s0 t : State} (cls bill cmd onWait body) (h : Keeps s0 t) (honWait : ∀ u, Keeps s0 u → Keeps s0 (onWait u)) (hbody : ∀ u, Keeps s0 u → Keeps s0 (body u)) :
    Keeps s0 (buy cls bill cmd onWait body t) := by
  unfold buy
  repeat' (first
    | with_reducible assumption | with_reducible apply Keeps.ite | with_reducible apply bump_keeps
    | with_reducible apply joinPurse_keeps | with_reducible apply payBill_keeps
    | (refine Keeps.fstOf ?_ ‹payBill _ _ = (_, _)›; with_reducible apply payBill_keeps)
    | with_reducible apply honWait | with_reducible apply hbody
    | ((fail_if_success (fail_if_success with_reducible intro y)); first | with_reducible refine Keeps.letGoal (s := s0) ?_ (fun _ _ => ?_) | with_reducible intro y)
    | simp only [Keeps.put_iff] | lift_lets | split)

end Sys2Proof.Machine
end

