-- ==== Sys2Proof/Laws/Keep/Stack.lean ====
section
/-!
SUPPORT. What the definitions of Machine/Stack.lean leave as it was.
-/

namespace Sys2Proof.Machine

set_option linter.unusedTactic false
set_option linter.unreachableTactic false
set_option linter.unusedSimpArgs false

theorem sendPart_keeps {s0 t : State} (ahead) (h : Keeps s0 t) :
    Keeps s0 (sendPart ahead t) := by
  unfold sendPart
  repeat' (first
    | with_reducible assumption | with_reducible apply Keeps.ite
    | ((fail_if_success (fail_if_success with_reducible intro y)); first | with_reducible refine Keeps.letGoal (s := s0) ?_ (fun _ _ => ?_) | with_reducible intro y)
    | simp only [Keeps.put_iff] | lift_lets | split)

theorem sendAll_keeps {s0 t : State} (h : Keeps s0 t) :
    Keeps s0 (sendAll t) := by
  unfold sendAll
  repeat' (first
    | with_reducible assumption | with_reducible apply Keeps.ite | with_reducible apply sendPart_keeps
    | ((fail_if_success (fail_if_success with_reducible intro y)); first | with_reducible refine Keeps.letGoal (s := s0) ?_ (fun _ _ => ?_) | with_reducible intro y)
    | simp only [Keeps.put_iff] | lift_lets | split)

theorem issuedLines_keeps {s0 t : State} (job lines) (h : Keeps s0 t) :
    Keeps s0 (issuedLines job lines t).2 := by
  unfold issuedLines
  repeat' (first
    | with_reducible assumption | with_reducible apply Keeps.ite | with_reducible apply Keeps.sndIte | with_reducible apply takeFree_keeps
    | (refine Keeps.sndOf ?_ ‹takeFree _ = (_, _)›; with_reducible apply takeFree_keeps)
    | ((fail_if_success (fail_if_success with_reducible intro y)); first | with_reducible refine Keeps.letGoal (s := s0) ?_ (fun _ _ => ?_) | with_reducible intro y)
    | simp only [Keeps.put_iff] | lift_lets | split)

theorem startAccess_keeps {s0 t : State} (cls bill kind req lines job) (h : Keeps s0 t) :
    Keeps s0 (startAccess cls bill kind req lines job t) := by
  unfold startAccess
  repeat' (first
    | with_reducible assumption | with_reducible apply Keeps.ite | with_reducible apply joinPurse_keeps
    | with_reducible apply payBill_keeps
    | (refine Keeps.fstOf ?_ ‹payBill _ _ = (_, _)›; with_reducible apply payBill_keeps)
    | with_reducible apply sendAll_keeps | with_reducible apply issuedLines_keeps
    | (refine Keeps.sndOf ?_ ‹issuedLines _ _ _ = (_, _)›; with_reducible apply issuedLines_keeps)
    | ((fail_if_success (fail_if_success with_reducible intro y)); first | with_reducible refine Keeps.letGoal (s := s0) ?_ (fun _ _ => ?_) | with_reducible intro y)
    | simp only [Keeps.put_iff] | lift_lets | split)

theorem dropAccesses_keeps {s0 t : State} (p) (h : Keeps s0 t) :
    Keeps s0 (dropAccesses p t) := by
  unfold dropAccesses
  repeat' (first
    | with_reducible assumption | with_reducible apply Keeps.ite
    | ((fail_if_success (fail_if_success with_reducible intro y)); first | with_reducible refine Keeps.letGoal (s := s0) ?_ (fun _ _ => ?_) | with_reducible intro y)
    | simp only [Keeps.put_iff] | lift_lets | split)

theorem logFailure_keeps {s0 t : State} (req status l) (h : Keeps s0 t) :
    Keeps s0 (logFailure req status l t) := by
  unfold logFailure
  repeat' (first
    | with_reducible assumption | with_reducible apply Keeps.ite | with_reducible apply bump_keeps
    | with_reducible apply logFirst_keeps
    | ((fail_if_success (fail_if_success with_reducible intro y)); first | with_reducible refine Keeps.letGoal (s := s0) ?_ (fun _ _ => ?_) | with_reducible intro y)
    | simp only [Keeps.put_iff] | lift_lets | split)

end Sys2Proof.Machine
end

