-- ==== Sys2Proof/Laws/Keep/Journal.lean ====
section
/-!
SUPPORT. What the definitions of Machine/Journal.lean leave as it was.
-/

namespace Sys2Proof.Machine

set_option linter.unusedTactic false
set_option linter.unreachableTactic false
set_option linter.unusedSimpArgs false

theorem placeEntry_keeps {s0 t : State} (e) (h : Keeps s0 t) :
    Keeps s0 (placeEntry e t).2 := by
  unfold placeEntry
  repeat' (first
    | with_reducible assumption | with_reducible apply Keeps.ite | with_reducible apply Keeps.sndIte
    | ((fail_if_success (fail_if_success with_reducible intro y)); first | with_reducible refine Keeps.letGoal (s := s0) ?_ (fun _ _ => ?_) | with_reducible intro y)
    | simp only [Keeps.put_iff] | lift_lets | split)

theorem writeEntry_keeps {s0 t : State} (e next) (h : Keeps s0 t) :
    Keeps s0 (writeEntry e next t) := by
  unfold writeEntry
  repeat' (first
    | with_reducible assumption | with_reducible apply Keeps.ite | with_reducible apply placeEntry_keeps
    | (refine Keeps.sndOf ?_ ‹placeEntry _ _ = (_, _)›; with_reducible apply placeEntry_keeps)
    | with_reducible apply startAccess_keeps | with_reducible apply journal_keeps
    | ((fail_if_success (fail_if_success with_reducible intro y)); first | with_reducible refine Keeps.letGoal (s := s0) ?_ (fun _ _ => ?_) | with_reducible intro y)
    | simp only [Keeps.put_iff] | lift_lets | split)

theorem writeRecord_keeps {s0 t : State} (e log next) (h : Keeps s0 t) :
    Keeps s0 (writeRecord e log next t) := by
  unfold writeRecord
  repeat' (first
    | with_reducible assumption | with_reducible apply Keeps.ite | with_reducible apply placeEntry_keeps
    | (refine Keeps.sndOf ?_ ‹placeEntry _ _ = (_, _)›; with_reducible apply placeEntry_keeps)
    | with_reducible apply startAccess_keeps
    | ((fail_if_success (fail_if_success with_reducible intro y)); first | with_reducible refine Keeps.letGoal (s := s0) ?_ (fun _ _ => ?_) | with_reducible intro y)
    | simp only [Keeps.put_iff] | lift_lets | split)

theorem writeNow_keeps {s0 t : State} (e log next) (h : Keeps s0 t) :
    Keeps s0 (writeNow e log next t) := by
  unfold writeNow
  repeat' (first
    | with_reducible assumption | with_reducible apply Keeps.ite | with_reducible apply writeEntry_keeps
    | with_reducible apply writeRecord_keeps
    | ((fail_if_success (fail_if_success with_reducible intro y)); first | with_reducible refine Keeps.letGoal (s := s0) ?_ (fun _ _ => ?_) | with_reducible intro y)
    | simp only [Keeps.put_iff] | lift_lets | split)

theorem journal_keeps {s0 t : State} (e log next) (h : Keeps s0 t) :
    Keeps s0 (journal e log next t) := by
  unfold journal
  repeat' (first
    | with_reducible assumption | with_reducible apply Keeps.ite | with_reducible apply writeNow_keeps
    | ((fail_if_success (fail_if_success with_reducible intro y)); first | with_reducible refine Keeps.letGoal (s := s0) ?_ (fun _ _ => ?_) | with_reducible intro y)
    | simp only [Keeps.put_iff] | lift_lets | split)

theorem drainWaiting_keeps {s0 t : State} (fuel) (h : Keeps s0 t) :
    Keeps s0 (drainWaiting fuel t) := by
  induction fuel generalizing t with
  | zero => exact h
  | succ fuel ih =>
    unfold drainWaiting
    repeat' (first
      | with_reducible assumption | with_reducible apply Keeps.ite | with_reducible apply writeNow_keeps
      | with_reducible apply ih | cases ‹_ + 1 = Nat.succ _›
      | ((fail_if_success (fail_if_success with_reducible intro y)); first | with_reducible refine Keeps.letGoal (s := s0) ?_ (fun _ _ => ?_) | with_reducible intro y)
      | simp only [Keeps.put_iff] | lift_lets | split)

theorem carryEntry_keeps {s0 t : State} (h : Keeps s0 t) :
    Keeps s0 (carryEntry t) := by
  unfold carryEntry
  repeat' (first
    | with_reducible assumption | with_reducible apply Keeps.ite | with_reducible apply bump_keeps
    | with_reducible apply writeEntry_keeps
    | ((fail_if_success (fail_if_success with_reducible intro y)); first | with_reducible refine Keeps.letGoal (s := s0) ?_ (fun _ _ => ?_) | with_reducible intro y)
    | simp only [Keeps.put_iff] | lift_lets | split)

theorem carryText_keeps {s0 t : State} (h : Keeps s0 t) :
    Keeps s0 (carryText t) := by
  unfold carryText
  repeat' (first
    | with_reducible assumption | with_reducible apply Keeps.ite | with_reducible apply onItem_keeps
    | with_reducible apply bump_keeps | with_reducible apply writeRecord_keeps
    | ((fail_if_success (fail_if_success with_reducible intro y)); first | with_reducible refine Keeps.letGoal (s := s0) ?_ (fun _ _ => ?_) | with_reducible intro y)
    | simp only [Keeps.put_iff] | lift_lets | split)

theorem noteCarry_keeps {s0 t : State} (ledger f) (h : Keeps s0 t) :
    Keeps s0 (noteCarry ledger f t) := by
  unfold noteCarry
  repeat' (first
    | with_reducible assumption | with_reducible apply Keeps.ite | with_reducible apply onItem_keeps
    | ((fail_if_success (fail_if_success with_reducible intro y)); first | with_reducible refine Keeps.letGoal (s := s0) ?_ (fun _ _ => ?_) | with_reducible intro y)
    | simp only [Keeps.put_iff] | lift_lets | split)

theorem completeAs_keeps {s0 t : State} (n status next) (h : Keeps s0 t) :
    Keeps s0 (completeAs n status next t) := by
  unfold completeAs
  repeat' (first
    | with_reducible assumption | with_reducible apply Keeps.ite | with_reducible apply onItem_keeps
    | with_reducible apply journal_keeps
    | ((fail_if_success (fail_if_success with_reducible intro y)); first | with_reducible refine Keeps.letGoal (s := s0) ?_ (fun _ _ => ?_) | with_reducible intro y)
    | simp only [Keeps.put_iff] | lift_lets | split)

theorem completeItem_keeps {s0 t : State} (n status next) (h : Keeps s0 t) :
    Keeps s0 (completeItem n status next t) := by
  unfold completeItem
  repeat' (first
    | with_reducible assumption | with_reducible apply Keeps.ite | with_reducible apply completeAs_keeps
    | ((fail_if_success (fail_if_success with_reducible intro y)); first | with_reducible refine Keeps.letGoal (s := s0) ?_ (fun _ _ => ?_) | with_reducible intro y)
    | simp only [Keeps.put_iff] | lift_lets | split)

end Sys2Proof.Machine
end

