-- ==== Sys2Proof/Laws/Keep/Flow.lean ====
section
/-!
SUPPORT. What the definitions of Machine/Flow.lean leave as it was.
-/

namespace Sys2Proof.Machine

set_option linter.unusedTactic false
set_option linter.unreachableTactic false
set_option linter.unusedSimpArgs false

theorem unqueue_keeps {s0 t : State} (h' t') (h : Keeps s0 t) :
    Keeps s0 (unqueue h' t' t) := by
  unfold unqueue
  repeat' (first
    | with_reducible assumption | with_reducible apply Keeps.ite | with_reducible apply setQueueAt_keeps
    | ((fail_if_success (fail_if_success with_reducible intro y)); first | with_reducible refine Keeps.letGoal (s := s0) ?_ (fun _ _ => ?_) | with_reducible intro y)
    | simp only [Keeps.put_iff] | lift_lets | split)

theorem numberTile_keeps {s0 t : State} (h' t') (h : Keeps s0 t) :
    Keeps s0 (numberTile h' t' t).2 := by
  unfold numberTile
  repeat' (first
    | with_reducible assumption | with_reducible apply Keeps.ite | with_reducible apply Keeps.sndIte
    | with_reducible apply onItem_keeps
    | ((fail_if_success (fail_if_success with_reducible intro y)); first | with_reducible refine Keeps.letGoal (s := s0) ?_ (fun _ _ => ?_) | with_reducible intro y)
    | simp only [Keeps.put_iff] | lift_lets | split)

theorem emitTile_keeps {s0 t : State} (h' t') (h : Keeps s0 t) :
    Keeps s0 (emitTile h' t' t) := by
  unfold emitTile
  repeat' (first
    | with_reducible assumption | with_reducible apply Keeps.ite | with_reducible apply numberTile_keeps
    | (refine Keeps.sndOf ?_ ‹numberTile _ _ _ = (_, _)›; with_reducible apply numberTile_keeps)
    | with_reducible apply passOn_keeps
    | ((fail_if_success (fail_if_success with_reducible intro y)); first | with_reducible refine Keeps.letGoal (s := s0) ?_ (fun _ _ => ?_) | with_reducible intro y)
    | simp only [Keeps.put_iff] | lift_lets | split)

theorem emitTiles_keeps {s0 t : State} (h' ts) (h : Keeps s0 t) :
    Keeps s0 (emitTiles h' ts t) := by
  unfold emitTiles
  repeat' (first
    | with_reducible assumption | with_reducible apply Keeps.ite | with_reducible apply emitTile_keeps
    | with_reducible refine Keeps.foldl _ ?_ (fun _ _ _ => ?_)
    | ((fail_if_success (fail_if_success with_reducible intro y)); first | with_reducible refine Keeps.letGoal (s := s0) ?_ (fun _ _ => ?_) | with_reducible intro y)
    | simp only [Keeps.put_iff] | lift_lets | split)

theorem setBuilding_keeps {s0 t : State} (n h' ledger t') (h : Keeps s0 t) :
    Keeps s0 (setBuilding n h' ledger t' t) := by
  unfold setBuilding
  repeat' (first
    | with_reducible assumption | with_reducible apply Keeps.ite | with_reducible apply onStream_keeps
    | ((fail_if_success (fail_if_success with_reducible intro y)); first | with_reducible refine Keeps.letGoal (s := s0) ?_ (fun _ _ => ?_) | with_reducible intro y)
    | simp only [Keeps.put_iff] | lift_lets | split)

theorem sendTokens_keeps {s0 t : State} (t') (h : Keeps s0 t) :
    Keeps s0 (sendTokens t' t) := by
  unfold sendTokens
  repeat' (first
    | with_reducible assumption | with_reducible apply Keeps.ite | with_reducible apply numberTile_keeps
    | (refine Keeps.sndOf ?_ ‹numberTile _ _ _ = (_, _)›; with_reducible apply numberTile_keeps)
    | with_reducible apply passOn_keeps | with_reducible apply noteEmission_keeps
    | ((fail_if_success (fail_if_success with_reducible intro y)); first | with_reducible refine Keeps.letGoal (s := s0) ?_ (fun _ _ => ?_) | with_reducible intro y)
    | simp only [Keeps.put_iff] | lift_lets | split)

theorem sendText_keeps {s0 t : State} (t') (h : Keeps s0 t) :
    Keeps s0 (sendText t' t) := by
  unfold sendText
  repeat' (first
    | with_reducible assumption | with_reducible apply Keeps.ite | with_reducible apply numberTile_keeps
    | (refine Keeps.sndOf ?_ ‹numberTile _ _ _ = (_, _)›; with_reducible apply numberTile_keeps)
    | with_reducible apply passOn_keeps | with_reducible apply noteEmission_keeps
    | ((fail_if_success (fail_if_success with_reducible intro y)); first | with_reducible refine Keeps.letGoal (s := s0) ?_ (fun _ _ => ?_) | with_reducible intro y)
    | simp only [Keeps.put_iff] | lift_lets | split)

theorem emitLast_keeps {s0 t : State} (t') (h : Keeps s0 t) :
    Keeps s0 (emitLast t' t) := by
  unfold emitLast
  repeat' (first
    | with_reducible assumption | with_reducible apply Keeps.ite | with_reducible apply sendText_keeps
    | ((fail_if_success (fail_if_success with_reducible intro y)); first | with_reducible refine Keeps.letGoal (s := s0) ?_ (fun _ _ => ?_) | with_reducible intro y)
    | simp only [Keeps.put_iff] | lift_lets | split)

theorem holdStream_keeps {s0 t : State} (n h' item) (h : Keeps s0 t) :
    Keeps s0 (holdStream n h' item t) := by
  unfold holdStream
  repeat' (first
    | with_reducible assumption | with_reducible apply Keeps.ite | with_reducible apply onStream_keeps
    | ((fail_if_success (fail_if_success with_reducible intro y)); first | with_reducible refine Keeps.letGoal (s := s0) ?_ (fun _ _ => ?_) | with_reducible intro y)
    | simp only [Keeps.put_iff] | lift_lets | split)

theorem refuseTile_keeps {s0 t : State} (h' t' status) (h : Keeps s0 t) :
    Keeps s0 (refuseTile h' t' status t) := by
  unfold refuseTile
  repeat' (first
    | with_reducible assumption | with_reducible apply Keeps.ite | with_reducible apply holdStream_keeps
    | with_reducible apply report_keeps
    | ((fail_if_success (fail_if_success with_reducible intro y)); first | with_reducible refine Keeps.letGoal (s := s0) ?_ (fun _ _ => ?_) | with_reducible intro y)
    | simp only [Keeps.put_iff] | lift_lets | split)

theorem audFault_keeps {s0 t : State} (cls idx status ledger) (h : Keeps s0 t) :
    Keeps s0 (audFault cls idx status ledger t) := by
  unfold audFault
  repeat' (first
    | with_reducible assumption | with_reducible apply Keeps.ite | with_reducible apply logFirst_keeps
    | ((fail_if_success (fail_if_success with_reducible intro y)); first | with_reducible refine Keeps.letGoal (s := s0) ?_ (fun _ _ => ?_) | with_reducible intro y)
    | simp only [Keeps.put_iff] | lift_lets | split)

theorem discardAssay_keeps {s0 t : State} (n) (h : Keeps s0 t) :
    Keeps s0 (discardAssay n t) := by
  unfold discardAssay
  repeat' (first
    | with_reducible assumption | with_reducible apply Keeps.ite | with_reducible apply bump_keeps
    | with_reducible apply onStream_keeps
    | ((fail_if_success (fail_if_success with_reducible intro y)); first | with_reducible refine Keeps.letGoal (s := s0) ?_ (fun _ _ => ?_) | with_reducible intro y)
    | simp only [Keeps.put_iff] | lift_lets | split)

theorem discardSorter_keeps {s0 t : State} (n) (h : Keeps s0 t) :
    Keeps s0 (discardSorter n t) := by
  unfold discardSorter
  repeat' (first
    | with_reducible assumption | with_reducible apply Keeps.ite | with_reducible apply bump_keeps
    | with_reducible apply onStream_keeps
    | ((fail_if_success (fail_if_success with_reducible intro y)); first | with_reducible refine Keeps.letGoal (s := s0) ?_ (fun _ _ => ?_) | with_reducible intro y)
    | simp only [Keeps.put_iff] | lift_lets | split)

theorem discardHolds_keeps {s0 t : State} (n) (h : Keeps s0 t) :
    Keeps s0 (discardHolds n t) := by
  unfold discardHolds
  repeat' (first
    | with_reducible assumption | with_reducible apply Keeps.ite | with_reducible apply bump_keeps
    | with_reducible apply onStream_keeps | with_reducible apply discardSorter_keeps
    | with_reducible apply discardAssay_keeps
    | ((fail_if_success (fail_if_success with_reducible intro y)); first | with_reducible refine Keeps.letGoal (s := s0) ?_ (fun _ _ => ?_) | with_reducible intro y)
    | simp only [Keeps.put_iff] | lift_lets | split)

theorem discardIdle_keeps {s0 t : State} (n) (h : Keeps s0 t) :
    Keeps s0 (discardIdle n t) := by
  unfold discardIdle
  repeat' (first
    | with_reducible assumption | with_reducible apply Keeps.ite | with_reducible apply discardAssay_keeps
    | with_reducible apply discardSorter_keeps
    | ((fail_if_success (fail_if_success with_reducible intro y)); first | with_reducible refine Keeps.letGoal (s := s0) ?_ (fun _ _ => ?_) | with_reducible intro y)
    | simp only [Keeps.put_iff] | lift_lets | split)

theorem closeStream_keeps {s0 t : State} (n reason next) (h : Keeps s0 t) :
    Keeps s0 (closeStream n reason next t) := by
  unfold closeStream
  repeat' (first
    | with_reducible assumption | with_reducible apply Keeps.ite | with_reducible apply onStream_keeps
    | with_reducible apply journal_keeps
    | ((fail_if_success (fail_if_success with_reducible intro y)); first | with_reducible refine Keeps.letGoal (s := s0) ?_ (fun _ _ => ?_) | with_reducible intro y)
    | simp only [Keeps.put_iff] | lift_lets | split)

theorem clearPending_keeps {s0 t : State} (n ledger) (h : Keeps s0 t) :
    Keeps s0 (clearPending n ledger t) := by
  unfold clearPending
  repeat' (first
    | with_reducible assumption | with_reducible apply Keeps.ite | with_reducible apply onStream_keeps
    | ((fail_if_success (fail_if_success with_reducible intro y)); first | with_reducible refine Keeps.letGoal (s := s0) ?_ (fun _ _ => ?_) | with_reducible intro y)
    | simp only [Keeps.put_iff] | lift_lets | split)

theorem endDead_keeps {s0 t : State} (h' t') (h : Keeps s0 t) :
    Keeps s0 (endDead h' t' t) := by
  unfold endDead
  repeat' (first
    | with_reducible assumption | with_reducible apply Keeps.ite | with_reducible apply report_keeps
    | with_reducible apply unqueue_keeps | with_reducible apply clearPending_keeps
    | ((fail_if_success (fail_if_success with_reducible intro y)); first | with_reducible refine Keeps.letGoal (s := s0) ?_ (fun _ _ => ?_) | with_reducible intro y)
    | simp only [Keeps.put_iff] | lift_lets | split)

theorem dropWaiting_keeps {s0 t : State} (n) (h : Keeps s0 t) :
    Keeps s0 (dropWaiting n t) := by
  unfold dropWaiting
  repeat' (first
    | with_reducible assumption | with_reducible apply Keeps.ite | with_reducible apply endDead_keeps
    | with_reducible refine Keeps.foldl _ ?_ (fun _ _ _ => ?_)
    | ((fail_if_success (fail_if_success with_reducible intro y)); first | with_reducible refine Keeps.letGoal (s := s0) ?_ (fun _ _ => ?_) | with_reducible intro y)
    | simp only [Keeps.put_iff] | lift_lets | split)

theorem countLate_keeps {s0 t : State} (t') (h : Keeps s0 t) :
    Keeps s0 (countLate t' t) := by
  unfold countLate
  repeat' (first
    | with_reducible assumption | with_reducible apply Keeps.ite | with_reducible apply bump_keeps
    | ((fail_if_success (fail_if_success with_reducible intro y)); first | with_reducible refine Keeps.letGoal (s := s0) ?_ (fun _ _ => ?_) | with_reducible intro y)
    | simp only [Keeps.put_iff] | lift_lets | split)

theorem writePaid_keeps {s0 t : State} (n) (h : Keeps s0 t) :
    Keeps s0 (writePaid n t) := by
  unfold writePaid
  repeat' (first
    | with_reducible assumption | with_reducible apply Keeps.ite | with_reducible apply onStream_keeps
    | with_reducible apply journal_keeps
    | ((fail_if_success (fail_if_success with_reducible intro y)); first | with_reducible refine Keeps.letGoal (s := s0) ?_ (fun _ _ => ?_) | with_reducible intro y)
    | simp only [Keeps.put_iff] | lift_lets | split)

theorem advanceMark_keeps {s0 t : State} (n) (h : Keeps s0 t) :
    Keeps s0 (advanceMark n t) := by
  unfold advanceMark
  repeat' (first
    | with_reducible assumption | with_reducible apply Keeps.ite | with_reducible apply writePaid_keeps
    | with_reducible apply onStream_keeps
    | ((fail_if_success (fail_if_success with_reducible intro y)); first | with_reducible refine Keeps.letGoal (s := s0) ?_ (fun _ _ => ?_) | with_reducible intro y)
    | simp only [Keeps.put_iff] | lift_lets | split)

theorem countTile_keeps {s0 t : State} (t') (h : Keeps s0 t) :
    Keeps s0 (countTile t' t) := by
  unfold countTile
  repeat' (first
    | with_reducible assumption | with_reducible apply Keeps.ite | with_reducible apply onTicket_keeps
    | ((fail_if_success (fail_if_success with_reducible intro y)); first | with_reducible refine Keeps.letGoal (s := s0) ?_ (fun _ _ => ?_) | with_reducible intro y)
    | simp only [Keeps.put_iff] | lift_lets | split)

theorem deliverRecord_keeps {s0 t : State} (t') (h : Keeps s0 t) :
    Keeps s0 (deliverRecord t' t) := by
  unfold deliverRecord
  repeat' (first
    | with_reducible assumption | with_reducible apply Keeps.ite | with_reducible apply onItem_keeps
    | with_reducible apply advanceMark_keeps | with_reducible apply countTile_keeps
    | with_reducible apply countLate_keeps
    | ((fail_if_success (fail_if_success with_reducible intro y)); first | with_reducible refine Keeps.letGoal (s := s0) ?_ (fun _ _ => ?_) | with_reducible intro y)
    | simp only [Keeps.put_iff] | lift_lets | split)

theorem tellerEmit_keeps {s0 t : State} (t' data) (h : Keeps s0 t) :
    Keeps s0 (tellerEmit t' data t) := by
  unfold tellerEmit
  repeat' (first
    | with_reducible assumption | with_reducible apply Keeps.ite | with_reducible apply passOn_keeps
    | ((fail_if_success (fail_if_success with_reducible intro y)); first | with_reducible refine Keeps.letGoal (s := s0) ?_ (fun _ _ => ?_) | with_reducible intro y)
    | simp only [Keeps.put_iff] | lift_lets | split)

theorem readLog_keeps {s0 t : State} (m off len job) (h : Keeps s0 t) :
    Keeps s0 (readLog m off len job t) := by
  unfold readLog
  repeat' (first
    | with_reducible assumption | with_reducible apply Keeps.ite | with_reducible apply startAccess_keeps
    | ((fail_if_success (fail_if_success with_reducible intro y)); first | with_reducible refine Keeps.letGoal (s := s0) ?_ (fun _ _ => ?_) | with_reducible intro y)
    | simp only [Keeps.put_iff] | lift_lets | split)

theorem cutOne_keeps {s0 t : State} (log i t' k) (h : Keeps s0 t) :
    Keeps s0 (cutOne log i t' k t) := by
  unfold cutOne
  repeat' (first
    | with_reducible assumption | with_reducible apply Keeps.ite | with_reducible apply readLog_keeps
    | with_reducible apply tellerEmit_keeps | with_reducible apply startAccess_keeps
    | ((fail_if_success (fail_if_success with_reducible intro y)); first | with_reducible refine Keeps.letGoal (s := s0) ?_ (fun _ _ => ?_) | with_reducible intro y)
    | simp only [Keeps.put_iff] | lift_lets | split)

theorem feedCuts_keeps {s0 t : State} (fuel) (h : Keeps s0 t) :
    Keeps s0 (feedCuts fuel t) := by
  induction fuel generalizing t with
  | zero => exact h
  | succ f ih =>
    unfold feedCuts
    repeat' (first
      | with_reducible assumption | with_reducible apply Keeps.ite | with_reducible apply cutOne_keeps
      | with_reducible apply ih
      | ((fail_if_success (fail_if_success with_reducible intro y)); first | with_reducible refine Keeps.letGoal (s := s0) ?_ (fun _ _ => ?_) | with_reducible intro y)
      | simp only [Keeps.put_iff] | lift_lets | split)

theorem feedAll_keeps {s0 t : State} (h : Keeps s0 t) :
    Keeps s0 (feedAll t) := by
  unfold feedAll
  repeat' (first
    | with_reducible assumption | with_reducible apply Keeps.ite | with_reducible apply feedCuts_keeps
    | ((fail_if_success (fail_if_success with_reducible intro y)); first | with_reducible refine Keeps.letGoal (s := s0) ?_ (fun _ _ => ?_) | with_reducible intro y)
    | simp only [Keeps.put_iff] | lift_lets | split)

theorem cutItem_keeps {s0 t : State} (log i clerk ticket) (h : Keeps s0 t) :
    Keeps s0 (cutItem log i clerk ticket t) := by
  unfold cutItem
  repeat' (first
    | with_reducible assumption | with_reducible apply Keeps.ite | with_reducible apply cutOne_keeps
    | with_reducible refine Keeps.foldl _ ?_ (fun _ _ _ => ?_) | with_reducible apply feedAll_keeps
    | ((fail_if_success (fail_if_success with_reducible intro y)); first | with_reducible refine Keeps.letGoal (s := s0) ?_ (fun _ _ => ?_) | with_reducible intro y)
    | simp only [Keeps.put_iff] | lift_lets | split)

theorem discardTiles_keeps {s0 t : State} (n) (h : Keeps s0 t) :
    Keeps s0 (discardTiles n t) := by
  unfold discardTiles
  repeat' (first
    | with_reducible assumption | with_reducible apply Keeps.ite | with_reducible apply dropAccesses_keeps
    | with_reducible apply onStream_keeps | with_reducible apply journal_keeps
    | ((fail_if_success (fail_if_success with_reducible intro y)); first | with_reducible refine Keeps.letGoal (s := s0) ?_ (fun _ _ => ?_) | with_reducible intro y)
    | simp only [Keeps.put_iff] | lift_lets | split)

theorem restoreStream_keeps {s0 t : State} (n) (h : Keeps s0 t) :
    Keeps s0 (restoreStream n t) := by
  unfold restoreStream
  repeat' (first
    | with_reducible assumption | with_reducible apply Keeps.ite | with_reducible apply onStream_keeps
    | ((fail_if_success (fail_if_success with_reducible intro y)); first | with_reducible refine Keeps.letGoal (s := s0) ?_ (fun _ _ => ?_) | with_reducible intro y)
    | simp only [Keeps.put_iff] | lift_lets | split)

theorem deliverAgain_keeps {s0 t : State} (n bs) (h : Keeps s0 t) :
    Keeps s0 (deliverAgain n bs t) := by
  unfold deliverAgain
  repeat' (first
    | with_reducible assumption | with_reducible apply Keeps.ite | with_reducible apply onItem_keeps
    | ((fail_if_success (fail_if_success with_reducible intro y)); first | with_reducible refine Keeps.letGoal (s := s0) ?_ (fun _ _ => ?_) | with_reducible intro y)
    | simp only [Keeps.put_iff] | lift_lets | split)

theorem reissue_keeps {s0 t : State} (log n) (h : Keeps s0 t) :
    Keeps s0 (reissue log n t) := by
  unfold reissue
  repeat' (first
    | with_reducible assumption | with_reducible apply Keeps.ite | with_reducible apply bump_keeps
    | with_reducible apply onItem_keeps | with_reducible apply readLog_keeps
    | with_reducible apply deliverAgain_keeps | with_reducible apply cutItem_keeps
    | ((fail_if_success (fail_if_success with_reducible intro y)); first | with_reducible refine Keeps.letGoal (s := s0) ?_ (fun _ _ => ?_) | with_reducible intro y)
    | simp only [Keeps.put_iff] | lift_lets | split)

theorem readCkpt_keeps {s0 t : State} (n) (h : Keeps s0 t) :
    Keeps s0 (readCkpt n t) := by
  unfold readCkpt
  repeat' (first
    | with_reducible assumption | with_reducible apply Keeps.ite | with_reducible apply startAccess_keeps
    | with_reducible apply ckptBack_keeps
    | ((fail_if_success (fail_if_success with_reducible intro y)); first | with_reducible refine Keeps.letGoal (s := s0) ?_ (fun _ _ => ?_) | with_reducible intro y)
    | simp only [Keeps.put_iff] | lift_lets | split)

theorem replayStream_keeps {s0 t : State} (n) (h : Keeps s0 t) :
    Keeps s0 (replayStream n t) := by
  unfold replayStream
  repeat' (first
    | with_reducible assumption | with_reducible apply Keeps.ite | with_reducible apply readCkpt_keeps
    | with_reducible apply restoreStream_keeps | with_reducible apply discardTiles_keeps
    | with_reducible apply reissue_keeps | with_reducible refine Keeps.foldl _ ?_ (fun _ _ _ => ?_)
    | ((fail_if_success (fail_if_success with_reducible intro y)); first | with_reducible refine Keeps.letGoal (s := s0) ?_ (fun _ _ => ?_) | with_reducible intro y)
    | simp only [Keeps.put_iff] | lift_lets | split)

theorem replayItem.discardItem_keeps {s0 t : State} (n) (h : Keeps s0 t) :
    Keeps s0 (replayItem.discardItem n t) := by
  unfold replayItem.discardItem
  repeat' (first
    | with_reducible assumption | with_reducible apply Keeps.ite | with_reducible apply dropAccesses_keeps
    | ((fail_if_success (fail_if_success with_reducible intro y)); first | with_reducible refine Keeps.letGoal (s := s0) ?_ (fun _ _ => ?_) | with_reducible intro y)
    | simp only [Keeps.put_iff] | lift_lets | split)

theorem replayItem_keeps {s0 t : State} (n status stack) (h : Keeps s0 t) :
    Keeps s0 (replayItem n status stack t) := by
  unfold replayItem
  repeat' (first
    | with_reducible assumption | with_reducible apply Keeps.ite | with_reducible apply onItem_keeps
    | with_reducible apply replayStream_keeps | with_reducible apply bump_keeps
    | with_reducible apply replayItem.discardItem_keeps | with_reducible apply holdStream_keeps
    | with_reducible apply completeItem_keeps | with_reducible apply reportItem_keeps
    | with_reducible apply dropAccesses_keeps
    | ((fail_if_success (fail_if_success with_reducible intro y)); first | with_reducible refine Keeps.letGoal (s := s0) ?_ (fun _ _ => ?_) | with_reducible intro y)
    | simp only [Keeps.put_iff] | lift_lets | split)

theorem checkFailed_keeps {s0 t : State} (link t') (h : Keeps s0 t) :
    Keeps s0 (checkFailed link t' t) := by
  unfold checkFailed
  repeat' (first
    | with_reducible assumption | with_reducible apply Keeps.ite | with_reducible apply replayItem_keeps
    | with_reducible apply bump_keeps
    | ((fail_if_success (fail_if_success with_reducible intro y)); first | with_reducible refine Keeps.letGoal (s := s0) ?_ (fun _ _ => ?_) | with_reducible intro y)
    | simp only [Keeps.put_iff] | lift_lets | split)

theorem sweepItems_keeps {s0 t : State} (h : Keeps s0 t) :
    Keeps s0 (sweepItems t) := by
  unfold sweepItems
  repeat' (first
    | with_reducible assumption | with_reducible apply Keeps.ite | with_reducible apply completeItem_keeps
    | with_reducible refine Keeps.foldl _ ?_ (fun _ _ _ => ?_)
    | ((fail_if_success (fail_if_success with_reducible intro y)); first | with_reducible refine Keeps.letGoal (s := s0) ?_ (fun _ _ => ?_) | with_reducible intro y)
    | simp only [Keeps.put_iff] | lift_lets | split)

theorem reachTeller_keeps {s0 t : State} (c) (h : Keeps s0 t) :
    Keeps s0 (reachTeller c t) := by
  unfold reachTeller
  dsimp only
  split
  · exact (Keeps.nextNo (onStream_keeps _ _ h)).put
  · exact h.nextNo.put

theorem endFill_keeps {s0 t : State} (n h' t') (h : Keeps s0 t) :
    Keeps s0 (endFill n h' t' t) := by
  unfold endFill
  repeat' (first
    | with_reducible assumption | with_reducible apply Keeps.ite | with_reducible apply setBuilding_keeps
    | with_reducible apply emitLast_keeps | with_reducible apply emitTile_keeps
    | with_reducible apply sendTokens_keeps
    | ((fail_if_success (fail_if_success with_reducible intro y)); first | with_reducible refine Keeps.letGoal (s := s0) ?_ (fun _ _ => ?_) | with_reducible intro y)
    | simp only [Keeps.put_iff] | lift_lets | split)

theorem endFills_keeps {s0 t : State} (h : Keeps s0 t) :
    Keeps s0 (endFills t) := by
  unfold endFills
  repeat' (first
    | with_reducible assumption | with_reducible apply Keeps.ite | with_reducible apply endFill_keeps
    | with_reducible refine Keeps.foldl _ ?_ (fun _ _ _ => ?_)
    | ((fail_if_success (fail_if_success with_reducible intro y)); first | with_reducible refine Keeps.letGoal (s := s0) ?_ (fun _ _ => ?_) | with_reducible intro y)
    | simp only [Keeps.put_iff] | lift_lets | split)

theorem sweepStreams_keeps {s0 t : State} (h : Keeps s0 t) :
    Keeps s0 (sweepStreams t) := by
  unfold sweepStreams
  repeat' (first
    | with_reducible assumption | with_reducible apply Keeps.ite | with_reducible apply dropWaiting_keeps
    | with_reducible apply onStream_keeps | with_reducible apply discardHolds_keeps
    | with_reducible apply journal_keeps | with_reducible refine Keeps.foldl _ ?_ (fun _ _ _ => ?_)
    | ((fail_if_success (fail_if_success with_reducible intro y)); first | with_reducible refine Keeps.letGoal (s := s0) ?_ (fun _ _ => ?_) | with_reducible intro y)
    | simp only [Keeps.put_iff] | lift_lets | split)

theorem closeReplayed_keeps {s0 t : State} (h : Keeps s0 t) :
    Keeps s0 (closeReplayed t) := by
  unfold closeReplayed
  repeat' (first
    | with_reducible assumption | with_reducible apply Keeps.ite | with_reducible apply closeStream_keeps
    | with_reducible apply onStream_keeps | with_reducible refine Keeps.foldl _ ?_ (fun _ _ _ => ?_)
    | ((fail_if_success (fail_if_success with_reducible intro y)); first | with_reducible refine Keeps.letGoal (s := s0) ?_ (fun _ _ => ?_) | with_reducible intro y)
    | simp only [Keeps.put_iff] | lift_lets | split)

theorem dropSettled_keeps {s0 t : State} (h : Keeps s0 t) :
    Keeps s0 (dropSettled t) := by
  unfold dropSettled
  repeat' (first
    | with_reducible assumption | with_reducible apply Keeps.ite
    | ((fail_if_success (fail_if_success with_reducible intro y)); first | with_reducible refine Keeps.letGoal (s := s0) ?_ (fun _ _ => ?_) | with_reducible intro y)
    | simp only [Keeps.put_iff] | lift_lets | split)

theorem clerkSink_keeps {s0 t : State} (t') (h : Keeps s0 t) :
    Keeps s0 (clerkSink t' t) := by
  unfold clerkSink
  repeat' (first
    | with_reducible assumption | with_reducible apply Keeps.ite | with_reducible apply report_keeps
    | with_reducible apply countLate_keeps | with_reducible apply onTicket_keeps
    | with_reducible apply storeScratch_keeps
    | ((fail_if_success (fail_if_success with_reducible intro y)); first | with_reducible refine Keeps.letGoal (s := s0) ?_ (fun _ _ => ?_) | with_reducible intro y)
    | simp only [Keeps.put_iff] | lift_lets | split)

theorem sinkClerks_keeps {s0 t : State} (fuel) (h : Keeps s0 t) :
    Keeps s0 (sinkClerks fuel t) := by
  induction fuel generalizing t with
  | zero => exact h
  | succ fuel ih =>
    unfold sinkClerks
    repeat' (first
      | with_reducible assumption | with_reducible apply Keeps.ite | with_reducible apply clerkSink_keeps
      | with_reducible apply unqueue_keeps | with_reducible apply ih | cases ‹_ + 1 = Nat.succ _›
      | ((fail_if_success (fail_if_success with_reducible intro y)); first | with_reducible refine Keeps.letGoal (s := s0) ?_ (fun _ _ => ?_) | with_reducible intro y)
      | simp only [Keeps.put_iff] | lift_lets | split)

theorem sweep_keeps {s0 t : State} (h : Keeps s0 t) :
    Keeps s0 (sweep t) := by
  unfold sweep
  repeat' (first
    | with_reducible assumption | with_reducible apply Keeps.ite | with_reducible apply sendAll_keeps
    | with_reducible apply dropSettled_keeps | with_reducible apply sweepStreams_keeps
    | with_reducible apply closeReplayed_keeps | with_reducible apply sweepItems_keeps
    | with_reducible apply endFills_keeps | with_reducible apply sinkClerks_keeps | with_reducible apply feedAll_keeps
    | ((fail_if_success (fail_if_success with_reducible intro y)); first | with_reducible refine Keeps.letGoal (s := s0) ?_ (fun _ _ => ?_) | with_reducible intro y)
    | simp only [Keeps.put_iff] | lift_lets | split)

end Sys2Proof.Machine
end

