-- ==== Sys2Proof/Laws/Keep/Assay.lean ====
section
/-!
SUPPORT. What the definitions of Machine/Assay.lean leave as it was.
-/

namespace Sys2Proof.Machine

set_option linter.unusedTactic false
set_option linter.unreachableTactic false
set_option linter.unusedSimpArgs false

theorem assayEmit_keeps {s0 t : State} (t' acc) (h : Keeps s0 t) :
    Keeps s0 (assayEmit t' acc t) := by
  unfold assayEmit
  repeat' (first
    | with_reducible assumption | with_reducible apply Keeps.ite | with_reducible apply emitTiles_keeps
    | with_reducible apply setBuilding_keeps | with_reducible apply emitTile_keeps
    | ((fail_if_success (fail_if_success with_reducible intro y)); first | with_reducible refine Keeps.letGoal (s := s0) ?_ (fun _ _ => ?_) | with_reducible intro y)
    | simp only [Keeps.put_iff] | lift_lets | split)

theorem assayWork_keeps {s0 t : State} (t') (h : Keeps s0 t) :
    Keeps s0 (assayWork t' t) := by
  unfold assayWork
  repeat' (first
    | with_reducible assumption | with_reducible apply Keeps.ite | with_reducible apply refuseTile_keeps
    | with_reducible apply bump_keeps | with_reducible apply onStream_keeps | with_reducible apply noteCarry_keeps
    | with_reducible apply assayEmit_keeps
    | ((fail_if_success (fail_if_success with_reducible intro y)); first | with_reducible refine Keeps.letGoal (s := s0) ?_ (fun _ _ => ?_) | with_reducible intro y)
    | simp only [Keeps.put_iff] | lift_lets | split)

theorem assayBody_keeps {s0 t : State} (n hw) (h : Keeps s0 t) :
    Keeps s0 (assayBody n hw t) := by
  unfold assayBody
  repeat' (first
    | with_reducible assumption | with_reducible apply Keeps.ite | with_reducible apply unqueue_keeps
    | with_reducible apply checkFailed_keeps | with_reducible apply assayWork_keeps
    | ((fail_if_success (fail_if_success with_reducible intro y)); first | with_reducible refine Keeps.letGoal (s := s0) ?_ (fun _ _ => ?_) | with_reducible intro y)
    | simp only [Keeps.put_iff] | lift_lets | split)

theorem execAssayTile_keeps {s0 t : State} (n hw) (h : Keeps s0 t) :
    OKeeps s0 (execAssayTile n hw t) := by
  unfold execAssayTile
  repeat' (first
    | with_reducible assumption | with_reducible apply OKeeps.next | with_reducible exact OKeeps.refused _
    | with_reducible apply OKeeps.ite | with_reducible apply Keeps.ite | with_reducible apply sweep_keeps
    | with_reducible apply buy_keeps | with_reducible apply assayBody_keeps | with_reducible apply Keeps.idf
    | ((fail_if_success (fail_if_success with_reducible intro y)); first | with_reducible refine Keeps.letGoal (s := s0) ?_ (fun _ _ => ?_) | with_reducible intro y)
    | with_reducible intro _ _ | simp only [Keeps.put_iff] | lift_lets | split)

end Sys2Proof.Machine
end

