-- ==== Sys2Proof/Laws/Keep/Maint.lean ====
section
/-!
SUPPORT. What the definitions of Machine/Maint.lean leave as it was.
-/

namespace Sys2Proof.Machine

set_option linter.unusedTactic false
set_option linter.unreachableTactic false
set_option linter.unusedSimpArgs false

theorem readGolden_keeps {s0 t : State} (bank) (h : Keeps s0 t) :
    Keeps s0 (readGolden bank t) := by
  unfold readGolden
  repeat' (first
    | with_reducible assumption | with_reducible apply Keeps.ite | with_reducible apply startAccess_keeps
    | ((fail_if_success (fail_if_success with_reducible intro y)); first | with_reducible refine Keeps.letGoal (s := s0) ?_ (fun _ _ => ?_) | with_reducible intro y)
    | simp only [Keeps.put_iff] | lift_lets | split)

theorem setPd_keeps {s0 t : State} (d x) (h : Keeps s0 t) :
    Keeps s0 (setPd d x t) := by
  unfold setPd
  repeat' (first
    | with_reducible assumption | with_reducible apply Keeps.ite
    | ((fail_if_success (fail_if_success with_reducible intro y)); first | with_reducible refine Keeps.letGoal (s := s0) ?_ (fun _ _ => ?_) | with_reducible intro y)
    | simp only [Keeps.put_iff] | lift_lets | split)

theorem askPd_keeps {s0 t : State} (d) (h : Keeps s0 t) :
    Keeps s0 (askPd d t) := by
  unfold askPd
  repeat' (first
    | with_reducible assumption | with_reducible apply Keeps.ite | with_reducible apply setPd_keeps
    | ((fail_if_success (fail_if_success with_reducible intro y)); first | with_reducible refine Keeps.letGoal (s := s0) ?_ (fun _ _ => ?_) | with_reducible intro y)
    | simp only [Keeps.put_iff] | lift_lets | split)

theorem startPds_keeps {s0 t : State} (h : Keeps s0 t) :
    Keeps s0 (startPds t) := by
  unfold startPds
  repeat' (first
    | with_reducible assumption | with_reducible apply Keeps.ite | with_reducible apply askPd_keeps
    | with_reducible refine Keeps.foldl _ ?_ (fun _ _ _ => ?_)
    | ((fail_if_success (fail_if_success with_reducible intro y)); first | with_reducible refine Keeps.letGoal (s := s0) ?_ (fun _ _ => ?_) | with_reducible intro y)
    | simp only [Keeps.put_iff] | lift_lets | split)

theorem wakeSpare_keeps {s0 t : State} (h : Keeps s0 t) :
    Keeps s0 (wakeSpare t) := by
  unfold wakeSpare
  repeat' (first
    | with_reducible assumption | with_reducible apply Keeps.ite | with_reducible apply clearRegBit_keeps
    | with_reducible apply askPd_keeps
    | ((fail_if_success (fail_if_success with_reducible intro y)); first | with_reducible refine Keeps.letGoal (s := s0) ?_ (fun _ _ => ?_) | with_reducible intro y)
    | simp only [Keeps.put_iff] | lift_lets | split)

theorem fillFor_keeps {s0 t : State} (a) (h : Keeps s0 t) :
    Keeps s0 (fillFor a t) := by
  unfold fillFor
  repeat' (first
    | with_reducible assumption | with_reducible apply Keeps.ite | with_reducible apply wakeSpare_keeps
    | with_reducible apply readGolden_keeps
    | ((fail_if_success (fail_if_success with_reducible intro y)); first | with_reducible refine Keeps.letGoal (s := s0) ?_ (fun _ _ => ?_) | with_reducible intro y)
    | simp only [Keeps.put_iff] | lift_lets | split)

theorem leaveBanks_keeps {s0 t : State} (a) (h : Keeps s0 t) :
    Keeps s0 (leaveBanks a t) := by
  unfold leaveBanks
  repeat' (first
    | with_reducible assumption | with_reducible apply Keeps.ite
    | ((fail_if_success (fail_if_success with_reducible intro y)); first | with_reducible refine Keeps.letGoal (s := s0) ?_ (fun _ _ => ?_) | with_reducible intro y)
    | simp only [Keeps.put_iff] | lift_lets | split)

theorem beginActivity_keeps {s0 t : State} (a) (h : Keeps s0 t) :
    Keeps s0 (beginActivity a t) := by
  unfold beginActivity
  repeat' (first
    | with_reducible assumption | with_reducible apply Keeps.ite | with_reducible apply fillFor_keeps
    | with_reducible apply leaveBanks_keeps
    | ((fail_if_success (fail_if_success with_reducible intro y)); first | with_reducible refine Keeps.letGoal (s := s0) ?_ (fun _ _ => ?_) | with_reducible intro y)
    | simp only [Keeps.put_iff] | lift_lets | split)

theorem startOrWait_keeps {s0 t : State} (a) (h : Keeps s0 t) :
    Keeps s0 (startOrWait a t) := by
  unfold startOrWait
  repeat' (first
    | with_reducible assumption | with_reducible apply Keeps.ite | with_reducible apply beginActivity_keeps
    | ((fail_if_success (fail_if_success with_reducible intro y)); first | with_reducible refine Keeps.letGoal (s := s0) ?_ (fun _ _ => ?_) | with_reducible intro y)
    | simp only [Keeps.put_iff] | lift_lets | split)

theorem startWaiting_keeps {s0 t : State} (h : Keeps s0 t) :
    Keeps s0 (startWaiting t) := by
  unfold startWaiting
  repeat' (first
    | with_reducible assumption | with_reducible apply Keeps.ite | with_reducible apply beginActivity_keeps
    | with_reducible refine Keeps.foldl _ ?_ (fun _ _ _ => ?_)
    | ((fail_if_success (fail_if_success with_reducible intro y)); first | with_reducible refine Keeps.letGoal (s := s0) ?_ (fun _ _ => ?_) | with_reducible intro y)
    | simp only [Keeps.put_iff] | lift_lets | split)

theorem endActivity_keeps {s0 t : State} (a) (h : Keeps s0 t) :
    Keeps s0 (endActivity a t) := by
  unfold endActivity
  repeat' (first
    | with_reducible assumption | with_reducible apply Keeps.ite | with_reducible apply startWaiting_keeps
    | ((fail_if_success (fail_if_success with_reducible intro y)); first | with_reducible refine Keeps.letGoal (s := s0) ?_ (fun _ _ => ?_) | with_reducible intro y)
    | simp only [Keeps.put_iff] | lift_lets | split)

theorem beginPass_keeps {s0 t : State} (h : Keeps s0 t) :
    Keeps s0 (beginPass t) := by
  unfold beginPass
  repeat' (first
    | with_reducible assumption | with_reducible apply Keeps.ite
    | ((fail_if_success (fail_if_success with_reducible intro y)); first | with_reducible refine Keeps.letGoal (s := s0) ?_ (fun _ _ => ?_) | with_reducible intro y)
    | simp only [Keeps.put_iff] | lift_lets | split)

theorem automaticPass_keeps {s0 t : State} (h : Keeps s0 t) :
    Keeps s0 (automaticPass t) := by
  unfold automaticPass
  repeat' (first
    | with_reducible assumption | with_reducible apply Keeps.ite | with_reducible apply startOrWait_keeps
    | with_reducible apply beginPass_keeps
    | ((fail_if_success (fail_if_success with_reducible intro y)); first | with_reducible refine Keeps.letGoal (s := s0) ?_ (fun _ _ => ?_) | with_reducible intro y)
    | simp only [Keeps.put_iff] | lift_lets | split)

theorem refuseStart_keeps {s0 t : State} (h' req) (h : Keeps s0 t) :
    Keeps s0 (refuseStart h' req t) := by
  unfold refuseStart
  repeat' (first
    | with_reducible assumption | with_reducible apply Keeps.ite | with_reducible apply bump_keeps
    | with_reducible apply setReg_keeps
    | ((fail_if_success (fail_if_success with_reducible intro y)); first | with_reducible refine Keeps.letGoal (s := s0) ?_ (fun _ _ => ?_) | with_reducible intro y)
    | simp only [Keeps.put_iff] | lift_lets | split)

theorem rsvEvent_keeps {s0 t : State} (status cls idx macro_ row) (h : Keeps s0 t) :
    Keeps s0 (rsvEvent status cls idx macro_ row t) := by
  unfold rsvEvent
  repeat' (first
    | with_reducible assumption | with_reducible apply Keeps.ite | with_reducible apply logFirst_keeps
    | ((fail_if_success (fail_if_success with_reducible intro y)); first | with_reducible refine Keeps.letGoal (s := s0) ?_ (fun _ _ => ?_) | with_reducible intro y)
    | simp only [Keeps.put_iff] | lift_lets | split)

theorem addPending_keeps {s0 t : State} (r) (h : Keeps s0 t) :
    Keeps s0 (addPending r t) := by
  unfold addPending
  repeat' (first
    | with_reducible assumption | with_reducible apply Keeps.ite | with_reducible apply setRegBit_keeps
    | ((fail_if_success (fail_if_success with_reducible intro y)); first | with_reducible refine Keeps.letGoal (s := s0) ?_ (fun _ _ => ?_) | with_reducible intro y)
    | simp only [Keeps.put_iff] | lift_lets | split)

end Sys2Proof.Machine
end

