-- ==== Sys2Proof/Laws/Keep/Vault.lean ====
section
/-!
SUPPORT. What the definitions of Machine/Vault.lean leave as it was.
-/

namespace Sys2Proof.Machine

set_option linter.unusedTactic false
set_option linter.unreachableTactic false
set_option linter.unusedSimpArgs false

theorem noteBanks_keeps {s0 t : State} (ledger r) (h : Keeps s0 t) :
    Keeps s0 (noteBanks ledger r t) := by
  unfold noteBanks
  repeat' (first
    | with_reducible assumption | with_reducible apply Keeps.ite | with_reducible apply onItem_keeps
    | ((fail_if_success (fail_if_success with_reducible intro y)); first | with_reducible refine Keeps.letGoal (s := s0) ?_ (fun _ _ => ?_) | with_reducible intro y)
    | simp only [Keeps.put_iff] | lift_lets | split)

theorem countReads_keeps {s0 t : State} (ledger r) (h : Keeps s0 t) :
    Keeps s0 (countReads ledger r t) := by
  unfold countReads
  repeat' (first
    | with_reducible assumption | with_reducible apply Keeps.ite | with_reducible apply bump64_keeps
    | with_reducible apply bumpFree_keeps | with_reducible apply onItem_keeps | with_reducible apply noteBanks_keeps
    | ((fail_if_success (fail_if_success with_reducible intro y)); first | with_reducible refine Keeps.letGoal (s := s0) ?_ (fun _ _ => ?_) | with_reducible intro y)
    | simp only [Keeps.put_iff] | lift_lets | split)

theorem execVaultUnitsFreed_keeps {s0 t : State} (k) (h : Keeps s0 t) :
    OKeeps s0 (execVaultUnitsFreed k t) := by
  unfold execVaultUnitsFreed
  repeat' (first
    | with_reducible assumption | with_reducible apply OKeeps.next | with_reducible exact OKeeps.refused _
    | with_reducible apply OKeeps.ite | with_reducible apply Keeps.ite | with_reducible apply setTenant_keeps
    | ((fail_if_success (fail_if_success with_reducible intro y)); first | with_reducible refine Keeps.letGoal (s := s0) ?_ (fun _ _ => ?_) | with_reducible intro y)
    | simp only [Keeps.put_iff] | lift_lets | split)

end Sys2Proof.Machine
end

