-- ==== Sys2Proof/Laws/Keep/Units.lean ====
section
/-!
SUPPORT. What the definitions of Machine/Units.lean leave as it was.
-/

namespace Sys2Proof.Machine

set_option linter.unusedTactic false
set_option linter.unreachableTactic false
set_option linter.unusedSimpArgs false

theorem standIn_keeps {s0 t : State} (cls u p) (h : Keeps s0 t) :
    Keeps s0 (standIn cls u p t) := by
  unfold standIn
  repeat' (first
    | with_reducible assumption | with_reducible apply Keeps.ite
    | ((fail_if_success (fail_if_success with_reducible intro y)); first | with_reducible refine Keeps.letGoal (s := s0) ?_ (fun _ _ => ?_) | with_reducible intro y)
    | simp only [Keeps.put_iff] | lift_lets | split)

theorem takeOut_keeps {s0 t : State} (cls i) (h : Keeps s0 t) :
    Keeps s0 (takeOut cls i t) := by
  unfold takeOut
  repeat' (first
    | with_reducible assumption | with_reducible apply Keeps.ite
    | ((fail_if_success (fail_if_success with_reducible intro y)); first | with_reducible refine Keeps.letGoal (s := s0) ?_ (fun _ _ => ?_) | with_reducible intro y)
    | simp only [Keeps.put_iff] | lift_lets | split)

theorem spareOut_keeps {s0 t : State} (cls i) (h : Keeps s0 t) :
    Keeps s0 (spareOut cls i t) := by
  unfold spareOut
  repeat' (first
    | with_reducible assumption | with_reducible apply Keeps.ite | with_reducible apply rsvEvent_keeps
    | ((fail_if_success (fail_if_success with_reducible intro y)); first | with_reducible refine Keeps.letGoal (s := s0) ?_ (fun _ _ => ?_) | with_reducible intro y)
    | simp only [Keeps.put_iff] | lift_lets | split)

theorem cleanCheck_keeps {s0 t : State} (b) (h : Keeps s0 t) :
    Keeps s0 (cleanCheck b t) := by
  unfold cleanCheck
  repeat' (first
    | with_reducible assumption | with_reducible apply Keeps.ite
    | ((fail_if_success (fail_if_success with_reducible intro y)); first | with_reducible refine Keeps.letGoal (s := s0) ?_ (fun _ _ => ?_) | with_reducible intro y)
    | simp only [Keeps.put_iff] | lift_lets | split)

theorem clearPoison_keeps {s0 t : State} (b) (h : Keeps s0 t) :
    Keeps s0 (clearPoison b t) := by
  unfold clearPoison
  repeat' (first
    | with_reducible assumption | with_reducible apply Keeps.ite | with_reducible apply cleanCheck_keeps
    | with_reducible apply replayStream_keeps | with_reducible apply bump_keeps
    | with_reducible apply audFault_keeps | with_reducible refine Keeps.foldl _ ?_ (fun _ _ _ => ?_)
    | ((fail_if_success (fail_if_success with_reducible intro y)); first | with_reducible refine Keeps.letGoal (s := s0) ?_ (fun _ _ => ?_) | with_reducible intro y)
    | simp only [Keeps.put_iff] | lift_lets | split)

theorem startReload_keeps {s0 t : State} (k) (h : Keeps s0 t) :
    Keeps s0 (startReload k t) := by
  unfold startReload
  repeat' (first
    | with_reducible assumption | with_reducible apply Keeps.ite | with_reducible apply startAccess_keeps
    | ((fail_if_success (fail_if_success with_reducible intro y)); first | with_reducible refine Keeps.letGoal (s := s0) ?_ (fun _ _ => ?_) | with_reducible intro y)
    | simp only [Keeps.put_iff] | lift_lets | split)

theorem bankBack_keeps {s0 t : State} (b) (h : Keeps s0 t) :
    Keeps s0 (bankBack b t) := by
  unfold bankBack
  repeat' (first
    | with_reducible assumption | with_reducible apply Keeps.ite
    | ((fail_if_success (fail_if_success with_reducible intro y)); first | with_reducible refine Keeps.letGoal (s := s0) ?_ (fun _ _ => ?_) | with_reducible intro y)
    | simp only [Keeps.put_iff] | lift_lets | split)

theorem bankAbsent_keeps {s0 t : State} (b) (h : Keeps s0 t) :
    Keeps s0 (bankAbsent b t) := by
  unfold bankAbsent
  repeat' (first
    | with_reducible assumption | with_reducible apply Keeps.ite | with_reducible apply clearPoison_keeps
    | with_reducible apply startReload_keeps | with_reducible refine Keeps.foldl _ ?_ (fun _ _ _ => ?_)
    | ((fail_if_success (fail_if_success with_reducible intro y)); first | with_reducible refine Keeps.letGoal (s := s0) ?_ (fun _ _ => ?_) | with_reducible intro y)
    | simp only [Keeps.put_iff] | lift_lets | split)

theorem poisonBank_keeps {s0 t : State} (b) (h : Keeps s0 t) :
    Keeps s0 (poisonBank b t) := by
  unfold poisonBank
  repeat' (first
    | with_reducible assumption | with_reducible apply Keeps.ite | with_reducible apply startOrWait_keeps
    | ((fail_if_success (fail_if_success with_reducible intro y)); first | with_reducible refine Keeps.letGoal (s := s0) ?_ (fun _ _ => ?_) | with_reducible intro y)
    | simp only [Keeps.put_iff] | lift_lets | split)

theorem retireClerk_keeps {s0 t : State} (c) (h : Keeps s0 t) :
    Keeps s0 (retireClerk c t) := by
  unfold retireClerk
  repeat' (first
    | with_reducible assumption | with_reducible apply Keeps.ite | with_reducible apply onThread_keeps
    | with_reducible apply discardTiles_keeps | with_reducible apply completeItem_keeps
    | with_reducible refine Keeps.foldl _ ?_ (fun _ _ _ => ?_)
    | ((fail_if_success (fail_if_success with_reducible intro y)); first | with_reducible refine Keeps.letGoal (s := s0) ?_ (fun _ _ => ?_) | with_reducible intro y)
    | simp only [Keeps.put_iff] | lift_lets | split)

theorem moveStreams_keeps {s0 t : State} (cls old) (h : Keeps s0 t) :
    Keeps s0 (moveStreams cls old t) := by
  unfold moveStreams
  repeat' (first
    | with_reducible assumption | with_reducible apply Keeps.ite | with_reducible apply replayStream_keeps
    | with_reducible refine Keeps.foldl _ ?_ (fun _ _ _ => ?_)
    | ((fail_if_success (fail_if_success with_reducible intro y)); first | with_reducible refine Keeps.letGoal (s := s0) ?_ (fun _ _ => ?_) | with_reducible intro y)
    | simp only [Keeps.put_iff] | lift_lets | split)

theorem retireUnit_keeps {s0 t : State} (cls i) (h : Keeps s0 t) :
    Keeps s0 (retireUnit cls i t).1 := by
  unfold retireUnit
  repeat' (first
    | with_reducible assumption | with_reducible apply Keeps.ite | with_reducible apply Keeps.fstIte
    | with_reducible apply bump_keeps | with_reducible apply takeOut_keeps | with_reducible apply startOrWait_keeps
    | with_reducible apply standIn_keeps | with_reducible apply wakeSpare_keeps
    | with_reducible apply spareOut_keeps | with_reducible apply bankAbsent_keeps
    | with_reducible apply retireClerk_keeps | with_reducible apply moveStreams_keeps
    | ((fail_if_success (fail_if_success with_reducible intro y)); first | with_reducible refine Keeps.letGoal (s := s0) ?_ (fun _ _ => ?_) | with_reducible intro y)
    | simp only [Keeps.put_iff] | dsimp only | lift_lets | split)

theorem retireLive_keeps {s0 t : State} (cls i) (h : Keeps s0 t) :
    Keeps s0 (retireLive cls i t) := by
  unfold retireLive
  repeat' (first
    | with_reducible assumption | with_reducible apply Keeps.ite | with_reducible apply addPending_keeps
    | with_reducible apply retireUnit_keeps
    | (refine Keeps.fstOf ?_ ‹retireUnit _ _ _ = (_, _)›; with_reducible apply retireUnit_keeps)
    | ((fail_if_success (fail_if_success with_reducible intro y)); first | with_reducible refine Keeps.letGoal (s := s0) ?_ (fun _ _ => ?_) | with_reducible intro y)
    | simp only [Keeps.put_iff] | lift_lets | split)

theorem someUnit_keeps {s0 t : State} (cls) (h : Keeps s0 t) :
    Keeps s0 (someUnit t cls).2 := by
  unfold someUnit
  repeat' (first
    | with_reducible assumption | with_reducible apply Keeps.ite | with_reducible apply Keeps.sndIte
    | with_reducible apply takeFree_keeps
    | (refine Keeps.sndOf ?_ ‹takeFree _ = (_, _)›; with_reducible apply takeFree_keeps)
    | ((fail_if_success (fail_if_success with_reducible intro y)); first | with_reducible refine Keeps.letGoal (s := s0) ?_ (fun _ _ => ?_) | with_reducible intro y)
    | simp only [Keeps.put_iff] | lift_lets | split)

theorem checkedBy_keeps {s0 t : State} (t') (h : Keeps s0 t) :
    Keeps s0 (checkedBy t' t).2 := by
  unfold checkedBy
  repeat' (first
    | with_reducible assumption | with_reducible apply Keeps.ite | with_reducible apply Keeps.sndIte
    | with_reducible apply someUnit_keeps
    | (refine Keeps.sndOf ?_ ‹someUnit _ _ = (_, _)›; with_reducible apply someUnit_keeps)
    | ((fail_if_success (fail_if_success with_reducible intro y)); first | with_reducible refine Keeps.letGoal (s := s0) ?_ (fun _ _ => ?_) | with_reducible intro y)
    | simp only [Keeps.put_iff] | lift_lets | split)

theorem unitFailed_keeps {s0 t : State} (u ledger) (h : Keeps s0 t) :
    Keeps s0 (unitFailed u ledger t) := by
  unfold unitFailed
  repeat' (first
    | with_reducible assumption | with_reducible apply Keeps.ite | with_reducible apply retireLive_keeps
    | with_reducible apply audFault_keeps
    | ((fail_if_success (fail_if_success with_reducible intro y)); first | with_reducible refine Keeps.letGoal (s := s0) ?_ (fun _ _ => ?_) | with_reducible intro y)
    | simp only [Keeps.put_iff] | lift_lets | split)

theorem checkFails_keeps {s0 t : State} (link t') (h : Keeps s0 t) :
    Keeps s0 (checkFails link t' t) := by
  unfold checkFails
  repeat' (first
    | with_reducible assumption | with_reducible apply Keeps.ite | with_reducible apply checkedBy_keeps
    | (refine Keeps.sndOf ?_ ‹checkedBy _ _ = (_, _)›; with_reducible apply checkedBy_keeps)
    | with_reducible apply checkFailed_keeps | with_reducible apply unitFailed_keeps
    | ((fail_if_success (fail_if_success with_reducible intro y)); first | with_reducible refine Keeps.letGoal (s := s0) ?_ (fun _ _ => ?_) | with_reducible intro y)
    | simp only [Keeps.put_iff] | lift_lets | split)

theorem mapRow_keeps {s0 t : State} (f m row spare) (h : Keeps s0 t) :
    Keeps s0 (mapRow f m row spare t) := by
  unfold mapRow
  repeat' (first
    | with_reducible assumption | with_reducible apply Keeps.ite
    | ((fail_if_success (fail_if_success with_reducible intro y)); first | with_reducible refine Keeps.letGoal (s := s0) ?_ (fun _ _ => ?_) | with_reducible intro y)
    | simp only [Keeps.put_iff] | lift_lets | split)

theorem spentMacro_keeps {s0 t : State} (f m row live) (h : Keeps s0 t) :
    Keeps s0 (spentMacro f m row live t).1 := by
  unfold spentMacro
  repeat' (first
    | with_reducible assumption | with_reducible apply Keeps.ite | with_reducible apply Keeps.fstIte
    | with_reducible apply retireUnit_keeps
    | (refine Keeps.fstOf ?_ ‹retireUnit _ _ _ = (_, _)›; with_reducible apply retireUnit_keeps)
    | with_reducible apply addPending_keeps | with_reducible apply rsvEvent_keeps
    | with_reducible apply setRegBit_keeps | with_reducible apply takeOut_keeps | with_reducible apply bump_keeps
    | with_reducible apply startOrWait_keeps | with_reducible apply retireLive_keeps
    | ((fail_if_success (fail_if_success with_reducible intro y)); first | with_reducible refine Keeps.letGoal (s := s0) ?_ (fun _ _ => ?_) | with_reducible intro y)
    | simp only [Keeps.put_iff] | dsimp only | lift_lets | split)

theorem remapRow_keeps {s0 t : State} (f m row live) (h : Keeps s0 t) :
    Keeps s0 (remapRow f m row live t).1 := by
  unfold remapRow
  repeat' (first
    | with_reducible assumption | with_reducible apply Keeps.ite | with_reducible apply Keeps.fstIte
    | with_reducible apply addPending_keeps | with_reducible apply bump_keeps | with_reducible apply mapRow_keeps
    | with_reducible apply spentMacro_keeps
    | (refine Keeps.fstOf ?_ ‹spentMacro _ _ _ _ _ = (_, _)›; with_reducible apply spentMacro_keeps)
    | ((fail_if_success (fail_if_success with_reducible intro y)); first | with_reducible refine Keeps.letGoal (s := s0) ?_ (fun _ _ => ?_) | with_reducible intro y)
    | simp only [Keeps.put_iff] | dsimp only | lift_lets | split)

theorem vaultError_keeps {s0 t : State} (hw ledger) (h : Keeps s0 t) :
    Keeps s0 (vaultError hw ledger t) := by
  unfold vaultError
  repeat' (first
    | with_reducible assumption | with_reducible apply Keeps.ite | with_reducible apply bump_keeps
    | with_reducible apply onItem_keeps | with_reducible apply remapRow_keeps
    | (refine Keeps.fstOf ?_ ‹remapRow _ _ _ _ _ = (_, _)›; with_reducible apply remapRow_keeps)
    | with_reducible apply poisonBank_keeps
    | ((fail_if_success (fail_if_success with_reducible intro y)); first | with_reducible refine Keeps.letGoal (s := s0) ?_ (fun _ _ => ?_) | with_reducible intro y)
    | simp only [Keeps.put_iff] | lift_lets | split)

theorem readError_keeps {s0 t : State} (r ledger) (h : Keeps s0 t) :
    Keeps s0 (readError r ledger t) := by
  unfold readError
  repeat' (first
    | with_reducible assumption | with_reducible apply Keeps.ite | with_reducible apply takeFree_keeps
    | (refine Keeps.sndOf ?_ ‹takeFree _ = (_, _)›; with_reducible apply takeFree_keeps)
    | with_reducible apply vaultError_keeps
    | ((fail_if_success (fail_if_success with_reducible intro y)); first | with_reducible refine Keeps.letGoal (s := s0) ?_ (fun _ _ => ?_) | with_reducible intro y)
    | simp only [Keeps.put_iff] | lift_lets | split)

end Sys2Proof.Machine
end

