-- ==== Sys2Proof/Laws/Keep/Notary.lean ====
section
/-!
SUPPORT. What the definitions of Machine/Notary.lean leave as it was.
-/

namespace Sys2Proof.Machine

set_option linter.unusedTactic false
set_option linter.unreachableTactic false
set_option linter.unusedSimpArgs false

theorem moveChip_keeps {s0 t : State} (n ledger pop push before after) (h : Keeps s0 t) :
    Keeps s0 (moveChip n ledger pop push before after t).1 := by
  unfold moveChip
  repeat' (first
    | with_reducible assumption | with_reducible apply Keeps.ite | with_reducible apply Keeps.fstIte
    | with_reducible apply onStream_keeps | with_reducible apply bump_keeps | with_reducible apply startAccess_keeps
    | ((fail_if_success (fail_if_success with_reducible intro y)); first | with_reducible refine Keeps.letGoal (s := s0) ?_ (fun _ _ => ?_) | with_reducible intro y)
    | simp only [Keeps.put_iff] | dsimp only | lift_lets | split)

theorem writeCheckpoint_keeps {s0 t : State} (n slot ledger commitNo c) (h : Keeps s0 t) :
    Keeps s0 (writeCheckpoint n slot ledger commitNo c t) := by
  unfold writeCheckpoint
  repeat' (first
    | with_reducible assumption | with_reducible apply Keeps.ite | with_reducible apply startAccess_keeps
    | ((fail_if_success (fail_if_success with_reducible intro y)); first | with_reducible refine Keeps.letGoal (s := s0) ?_ (fun _ _ => ?_) | with_reducible intro y)
    | simp only [Keeps.put_iff] | lift_lets | split)

theorem writePatch_keeps {s0 t : State} (n ledger slot patch) (h : Keeps s0 t) :
    Keeps s0 (writePatch n ledger slot patch t) := by
  unfold writePatch
  repeat' (first
    | with_reducible assumption | with_reducible apply Keeps.ite | with_reducible apply startAccess_keeps
    | ((fail_if_success (fail_if_success with_reducible intro y)); first | with_reducible refine Keeps.letGoal (s := s0) ?_ (fun _ _ => ?_) | with_reducible intro y)
    | simp only [Keeps.put_iff] | lift_lets | split)

theorem restorePatch_keeps {s0 t : State} (n ledger) (h : Keeps s0 t) :
    Keeps s0 (restorePatch n ledger t) := by
  unfold restorePatch
  repeat' (first
    | with_reducible assumption | with_reducible apply Keeps.ite | with_reducible apply writePatch_keeps
    | with_reducible apply onStream_keeps
    | ((fail_if_success (fail_if_success with_reducible intro y)); first | with_reducible refine Keeps.letGoal (s := s0) ?_ (fun _ _ => ?_) | with_reducible intro y)
    | simp only [Keeps.put_iff] | lift_lets | split)

theorem readTransition_keeps {s0 t : State} (cls c t' job) (h : Keeps s0 t) :
    Keeps s0 (readTransition cls c t' job t) := by
  unfold readTransition
  repeat' (first
    | with_reducible assumption | with_reducible apply Keeps.ite | with_reducible apply takeFree_keeps
    | (refine Keeps.sndOf ?_ ‹takeFree _ = (_, _)›; with_reducible apply takeFree_keeps)
    | with_reducible apply startAccess_keeps | with_reducible apply bump_keeps
    | ((fail_if_success (fail_if_success with_reducible intro y)); first | with_reducible refine Keeps.letGoal (s := s0) ?_ (fun _ _ => ?_) | with_reducible intro y)
    | simp only [Keeps.put_iff] | lift_lets | split)

theorem countAdvance_keeps {s0 t : State} (a) (h : Keeps s0 t) :
    Keeps s0 (countAdvance a t) := by
  unfold countAdvance
  repeat' (first
    | with_reducible assumption | with_reducible apply Keeps.ite | with_reducible apply bump_keeps
    | ((fail_if_success (fail_if_success with_reducible intro y)); first | with_reducible refine Keeps.letGoal (s := s0) ?_ (fun _ _ => ?_) | with_reducible intro y)
    | simp only [Keeps.put_iff] | lift_lets | split)

theorem markDead_keeps {s0 t : State} (n) (h : Keeps s0 t) :
    Keeps s0 (markDead n t) := by
  unfold markDead
  repeat' (first
    | with_reducible assumption | with_reducible apply Keeps.ite | with_reducible apply onStream_keeps
    | ((fail_if_success (fail_if_success with_reducible intro y)); first | with_reducible refine Keeps.letGoal (s := s0) ?_ (fun _ _ => ?_) | with_reducible intro y)
    | simp only [Keeps.put_iff] | lift_lets | split)

theorem notaryOverflow_keeps {s0 t : State} (k r job) (h : Keeps s0 t) :
    Keeps s0 (notaryOverflow k r job t) := by
  unfold notaryOverflow
  repeat' (first
    | with_reducible assumption | with_reducible apply Keeps.ite | with_reducible apply startAccess_keeps
    | ((fail_if_success (fail_if_success with_reducible intro y)); first | with_reducible refine Keeps.letGoal (s := s0) ?_ (fun _ _ => ?_) | with_reducible intro y)
    | simp only [Keeps.put_iff] | lift_lets | split)

theorem makeAdvance_keeps {s0 t : State} (n ledger t') (h : Keeps s0 t) :
    Keeps s0 (makeAdvance n ledger t' t) := by
  unfold makeAdvance
  repeat' (first
    | with_reducible assumption | with_reducible apply Keeps.ite | with_reducible apply bump_keeps
    | with_reducible apply countAdvance_keeps | with_reducible apply countReads_keeps
    | with_reducible apply readTransition_keeps | with_reducible apply moveChip_keeps
    | (refine Keeps.fstOf ?_ ‹moveChip _ _ _ _ _ _ _ = (_, _)›; with_reducible apply moveChip_keeps)
    | with_reducible apply onStream_keeps | with_reducible apply notaryOverflow_keeps
    | with_reducible apply writePatch_keeps | with_reducible apply startAccess_keeps
    | with_reducible apply writeCheckpoint_keeps | with_reducible apply onItem_keeps
    | with_reducible apply reportItem_keeps | with_reducible apply markDead_keeps
    | ((fail_if_success (fail_if_success with_reducible intro y)); first | with_reducible refine Keeps.letGoal (s := s0) ?_ (fun _ _ => ?_) | with_reducible intro y)
    | simp only [Keeps.put_iff] | lift_lets | split)

theorem makeAdvances_keeps {s0 t : State} (n ledger ts) (h : Keeps s0 t) :
    Keeps s0 (makeAdvances n ledger ts t) := by
  unfold makeAdvances
  repeat' (first
    | with_reducible assumption | with_reducible apply Keeps.ite | with_reducible apply makeAdvance_keeps
    | with_reducible refine Keeps.foldl _ ?_ (fun _ _ _ => ?_)
    | ((fail_if_success (fail_if_success with_reducible intro y)); first | with_reducible refine Keeps.letGoal (s := s0) ?_ (fun _ _ => ?_) | with_reducible intro y)
    | simp only [Keeps.put_iff] | lift_lets | split)

theorem lookupError_keeps {s0 t : State} (n ledger ts) (h : Keeps s0 t) :
    Keeps s0 (lookupError n ledger ts t) := by
  unfold lookupError
  repeat' (first
    | with_reducible assumption | with_reducible apply Keeps.ite | with_reducible apply readError_keeps
    | ((fail_if_success (fail_if_success with_reducible intro y)); first | with_reducible refine Keeps.letGoal (s := s0) ?_ (fun _ _ => ?_) | with_reducible intro y)
    | simp only [Keeps.put_iff] | lift_lets | split)

theorem passDecision_keeps {s0 t : State} (n t') (h : Keeps s0 t) :
    Keeps s0 (passDecision n t' t) := by
  unfold passDecision
  repeat' (first
    | with_reducible assumption | with_reducible apply Keeps.ite | with_reducible apply onStream_keeps
    | with_reducible apply passOn_keeps | with_reducible apply noteEmission_keeps
    | with_reducible apply emitTile_keeps
    | ((fail_if_success (fail_if_success with_reducible intro y)); first | with_reducible refine Keeps.letGoal (s := s0) ?_ (fun _ _ => ?_) | with_reducible intro y)
    | simp only [Keeps.put_iff] | lift_lets | split)

theorem execNotaryDecisionTile_keeps {s0 t : State} (n hw) (h : Keeps s0 t) :
    OKeeps s0 (execNotaryDecisionTile n hw t) := by
  unfold execNotaryDecisionTile
  repeat' (first
    | with_reducible assumption | with_reducible apply OKeeps.next | with_reducible exact OKeeps.refused _
    | with_reducible apply OKeeps.ite | with_reducible apply Keeps.ite | with_reducible apply sweep_keeps
    | with_reducible apply checkFails_keeps | with_reducible apply unqueue_keeps
    | with_reducible apply refuseTile_keeps | with_reducible apply passDecision_keeps
    | ((fail_if_success (fail_if_success with_reducible intro y)); first | with_reducible refine Keeps.letGoal (s := s0) ?_ (fun _ _ => ?_) | with_reducible intro y)
    | simp only [Keeps.put_iff] | lift_lets | split)

theorem tokenTileBody_keeps {s0 t : State} (n hw) (h : Keeps s0 t) :
    Keeps s0 (tokenTileBody n hw t) := by
  unfold tokenTileBody
  repeat' (first
    | with_reducible assumption | with_reducible apply Keeps.ite | with_reducible apply unqueue_keeps
    | with_reducible apply checkFails_keeps | with_reducible apply refuseTile_keeps
    | with_reducible apply vaultError_keeps | with_reducible apply reportTicket_keeps
    | with_reducible apply makeAdvances_keeps | with_reducible apply passOn_keeps
    | with_reducible apply noteEmission_keeps | with_reducible apply emitTile_keeps
    | ((fail_if_success (fail_if_success with_reducible intro y)); first | with_reducible refine Keeps.letGoal (s := s0) ?_ (fun _ _ => ?_) | with_reducible intro y)
    | simp only [Keeps.put_iff] | lift_lets | split)

theorem execNotaryTokenTile_keeps {s0 t : State} (n hw) (h : Keeps s0 t) :
    OKeeps s0 (execNotaryTokenTile n hw t) := by
  unfold execNotaryTokenTile
  repeat' (first
    | with_reducible assumption | with_reducible apply OKeeps.next | with_reducible exact OKeeps.refused _
    | with_reducible apply OKeeps.ite | with_reducible apply Keeps.ite | with_reducible apply sweep_keeps
    | with_reducible apply buy_keeps | with_reducible apply tokenTileBody_keeps | with_reducible apply Keeps.idf
    | ((fail_if_success (fail_if_success with_reducible intro y)); first | with_reducible refine Keeps.letGoal (s := s0) ?_ (fun _ _ => ?_) | with_reducible intro y)
    | with_reducible intro _ _ | simp only [Keeps.put_iff] | lift_lets | split)

theorem advanceBody_keeps {s0 t : State} (n hw) (h : Keeps s0 t) :
    Keeps s0 (advanceBody n hw t) := by
  unfold advanceBody
  repeat' (first
    | with_reducible assumption | with_reducible apply Keeps.ite | with_reducible apply vaultError_keeps
    | with_reducible apply onStream_keeps | with_reducible apply bump_keeps | with_reducible apply reportItem_keeps
    | with_reducible apply reportTicket_keeps | with_reducible apply makeAdvance_keeps
    | ((fail_if_success (fail_if_success with_reducible intro y)); first | with_reducible refine Keeps.letGoal (s := s0) ?_ (fun _ _ => ?_) | with_reducible intro y)
    | simp only [Keeps.put_iff] | lift_lets | split)

theorem execNotaryAdvance_keeps {s0 t : State} (a) (h : Keeps s0 t) :
    OKeeps s0 (execNotaryAdvance a t) := by
  unfold execNotaryAdvance
  repeat' (first
    | with_reducible assumption | with_reducible apply OKeeps.next | with_reducible exact OKeeps.refused _
    | with_reducible apply OKeeps.ite | with_reducible apply Keeps.ite | with_reducible apply sweep_keeps
    | with_reducible apply buy_keeps | with_reducible apply advanceBody_keeps | with_reducible apply Keeps.idf
    | ((fail_if_success (fail_if_success with_reducible intro y)); first | with_reducible refine Keeps.letGoal (s := s0) ?_ (fun _ _ => ?_) | with_reducible intro y)
    | with_reducible intro _ _ | simp only [Keeps.put_iff] | lift_lets | split)

theorem resolved_keeps {s0 t : State} (n t') (h : Keeps s0 t) :
    Keeps s0 (resolved n t' t) := by
  unfold resolved
  repeat' (first
    | with_reducible assumption | with_reducible apply Keeps.ite | with_reducible apply onStream_keeps
    | ((fail_if_success (fail_if_success with_reducible intro y)); first | with_reducible refine Keeps.letGoal (s := s0) ?_ (fun _ _ => ?_) | with_reducible intro y)
    | simp only [Keeps.put_iff] | lift_lets | split)

theorem aheadBody_keeps {s0 t : State} (n t') (h : Keeps s0 t) :
    Keeps s0 (aheadBody n t' t) := by
  unfold aheadBody
  repeat' (first
    | with_reducible assumption | with_reducible apply Keeps.ite | with_reducible apply resolved_keeps
    | with_reducible apply takeFree_keeps
    | (refine Keeps.sndOf ?_ ‹takeFree _ = (_, _)›; with_reducible apply takeFree_keeps)
    | with_reducible apply bump_keeps | with_reducible apply payBill_keeps
    | (refine Keeps.fstOf ?_ ‹payBill _ _ = (_, _)›; with_reducible apply payBill_keeps)
    | with_reducible apply startAccess_keeps
    | ((fail_if_success (fail_if_success with_reducible intro y)); first | with_reducible refine Keeps.letGoal (s := s0) ?_ (fun _ _ => ?_) | with_reducible intro y)
    | simp only [Keeps.put_iff] | lift_lets | split)

theorem execRunaheadResolve_keeps {s0 t : State} (n t') (h : Keeps s0 t) :
    OKeeps s0 (execRunaheadResolve n t' t) := by
  unfold execRunaheadResolve
  repeat' (first
    | with_reducible assumption | with_reducible apply OKeeps.next | with_reducible exact OKeeps.refused _
    | with_reducible apply OKeeps.ite | with_reducible apply Keeps.ite | with_reducible apply buy_keeps
    | with_reducible apply aheadBody_keeps | with_reducible apply Keeps.idf
    | ((fail_if_success (fail_if_success with_reducible intro y)); first | with_reducible refine Keeps.letGoal (s := s0) ?_ (fun _ _ => ?_) | with_reducible intro y)
    | with_reducible intro _ _ | simp only [Keeps.put_iff] | lift_lets | split)

end Sys2Proof.Machine
end

