-- ==== Sys2Proof/Laws/Keep/Clearing.lean ====
section
/-!
SUPPORT. What the definitions of Machine/Clearing.lean leave as it was.
-/

namespace Sys2Proof.Machine

set_option linter.unusedTactic false
set_option linter.unreachableTactic false
set_option linter.unusedSimpArgs false

theorem onClear_keeps {s0 t : State} (n f) (h : Keeps s0 t) :
    Keeps s0 (onClear n f t) := by
  unfold onClear
  repeat' (first
    | with_reducible assumption | with_reducible apply Keeps.ite
    | ((fail_if_success (fail_if_success with_reducible intro y)); first | with_reducible refine Keeps.letGoal (s := s0) ?_ (fun _ _ => ?_) | with_reducible intro y)
    | simp only [Keeps.put_iff] | lift_lets | split)

theorem dropRows_keeps {s0 t : State} (n step) (h : Keeps s0 t) :
    Keeps s0 (dropRows n step t) := by
  unfold dropRows
  repeat' (first
    | with_reducible assumption | with_reducible apply Keeps.ite
    | ((fail_if_success (fail_if_success with_reducible intro y)); first | with_reducible refine Keeps.letGoal (s := s0) ?_ (fun _ _ => ?_) | with_reducible intro y)
    | simp only [Keeps.put_iff] | lift_lets | split)

theorem clearMarks_keeps {s0 t : State} (n step) (h : Keeps s0 t) :
    Keeps s0 (clearMarks n step t) := by
  unfold clearMarks
  repeat' (first
    | with_reducible assumption | with_reducible apply Keeps.ite
    | ((fail_if_success (fail_if_success with_reducible intro y)); first | with_reducible refine Keeps.letGoal (s := s0) ?_ (fun _ _ => ?_) | with_reducible intro y)
    | simp only [Keeps.put_iff] | lift_lets | split)

theorem markStep_keeps {s0 t : State} (n step k) (h : Keeps s0 t) :
    Keeps s0 (markStep n step k t) := by
  unfold markStep
  repeat' (first
    | with_reducible assumption | with_reducible apply Keeps.ite
    | ((fail_if_success (fail_if_success with_reducible intro y)); first | with_reducible refine Keeps.letGoal (s := s0) ?_ (fun _ _ => ?_) | with_reducible intro y)
    | simp only [Keeps.put_iff] | lift_lets | split)

theorem stepLost_keeps {s0 t : State} (n step) (h : Keeps s0 t) :
    Keeps s0 (stepLost n step t) := by
  unfold stepLost
  repeat' (first
    | with_reducible assumption | with_reducible apply Keeps.ite | with_reducible apply markStep_keeps
    | ((fail_if_success (fail_if_success with_reducible intro y)); first | with_reducible refine Keeps.letGoal (s := s0) ?_ (fun _ _ => ?_) | with_reducible intro y)
    | simp only [Keeps.put_iff] | lift_lets | split)

theorem clgErr_keeps {s0 t : State} (n status step) (h : Keeps s0 t) :
    Keeps s0 (clgErr n status step t) := by
  unfold clgErr
  repeat' (first
    | with_reducible assumption | with_reducible apply Keeps.ite | with_reducible apply logFirst_keeps
    | ((fail_if_success (fail_if_success with_reducible intro y)); first | with_reducible refine Keeps.letGoal (s := s0) ?_ (fun _ _ => ?_) | with_reducible intro y)
    | simp only [Keeps.put_iff] | lift_lets | split)

theorem dropClearWork_keeps {s0 t : State} (n) (h : Keeps s0 t) :
    Keeps s0 (dropClearWork n t) := by
  unfold dropClearWork
  repeat' (first
    | with_reducible assumption | with_reducible apply Keeps.ite | with_reducible apply dropAccesses_keeps
    | ((fail_if_success (fail_if_success with_reducible intro y)); first | with_reducible refine Keeps.letGoal (s := s0) ?_ (fun _ _ => ?_) | with_reducible intro y)
    | simp only [Keeps.put_iff] | lift_lets | split)

theorem leaveClearing_keeps {s0 t : State} (n c as) (h : Keeps s0 t) :
    Keeps s0 (leaveClearing n c as t) := by
  unfold leaveClearing
  repeat' (first
    | with_reducible assumption | with_reducible apply Keeps.ite | with_reducible apply dropClearWork_keeps
    | with_reducible apply markStep_keeps | with_reducible apply clearMarks_keeps
    | with_reducible apply dropRows_keeps | with_reducible apply onStream_keeps
    | ((fail_if_success (fail_if_success with_reducible intro y)); first | with_reducible refine Keeps.letGoal (s := s0) ?_ (fun _ _ => ?_) | with_reducible intro y)
    | simp only [Keeps.put_iff] | lift_lets | split)

theorem undoCommits_keeps {s0 t : State} (n c) (h : Keeps s0 t) :
    Keeps s0 (undoCommits n c t) := by
  unfold undoCommits
  repeat' (first
    | with_reducible assumption | with_reducible apply Keeps.ite | with_reducible apply onStream_keeps
    | ((fail_if_success (fail_if_success with_reducible intro y)); first | with_reducible refine Keeps.letGoal (s := s0) ?_ (fun _ _ => ?_) | with_reducible intro y)
    | simp only [Keeps.put_iff] | lift_lets | split)

theorem endWithheld_keeps {s0 t : State} (c status) (h : Keeps s0 t) :
    Keeps s0 (endWithheld c status t) := by
  unfold endWithheld
  repeat' (first
    | with_reducible assumption | with_reducible apply Keeps.ite | with_reducible apply passOn_keeps
    | with_reducible apply noteEmission_keeps
    | ((fail_if_success (fail_if_success with_reducible intro y)); first | with_reducible refine Keeps.letGoal (s := s0) ?_ (fun _ _ => ?_) | with_reducible intro y)
    | simp only [Keeps.put_iff] | lift_lets | split)

theorem withhold_keeps {s0 t : State} (n c status) (h : Keeps s0 t) :
    Keeps s0 (withhold n c status t) := by
  unfold withhold
  repeat' (first
    | with_reducible assumption | with_reducible apply Keeps.ite | with_reducible apply undoCommits_keeps
    | with_reducible apply leaveClearing_keeps | with_reducible apply bump_keeps
    | with_reducible apply endWithheld_keeps | with_reducible apply completeItem_keeps
    | with_reducible apply report_keeps
    | ((fail_if_success (fail_if_success with_reducible intro y)); first | with_reducible refine Keeps.letGoal (s := s0) ?_ (fun _ _ => ?_) | with_reducible intro y)
    | simp only [Keeps.put_iff] | lift_lets | split)

theorem refuseClear_keeps {s0 t : State} (n c status) (h : Keeps s0 t) :
    Keeps s0 (refuseClear n c status t) := by
  unfold refuseClear
  repeat' (first
    | with_reducible assumption | with_reducible apply Keeps.ite | with_reducible apply leaveClearing_keeps
    | with_reducible apply refuseTile_keeps | with_reducible apply clgErr_keeps
    | ((fail_if_success (fail_if_success with_reducible intro y)); first | with_reducible refine Keeps.letGoal (s := s0) ?_ (fun _ _ => ?_) | with_reducible intro y)
    | simp only [Keeps.put_iff] | lift_lets | split)

theorem finishSelect_keeps {s0 t : State} (n c bytes status tie list) (h : Keeps s0 t) :
    Keeps s0 (finishSelect n c bytes status tie list t) := by
  unfold finishSelect
  repeat' (first
    | with_reducible assumption | with_reducible apply Keeps.ite | with_reducible apply leaveClearing_keeps
    | with_reducible apply bump_keeps | with_reducible apply report_keeps | with_reducible apply noteEmission_keeps
    | with_reducible apply passOn_keeps | with_reducible apply startAccess_keeps
    | with_reducible apply numberTile_keeps
    | (refine Keeps.sndOf ?_ ‹numberTile _ _ _ = (_, _)›; with_reducible apply numberTile_keeps)
    | ((fail_if_success (fail_if_success with_reducible intro y)); first | with_reducible refine Keeps.letGoal (s := s0) ?_ (fun _ _ => ?_) | with_reducible intro y)
    | simp only [Keeps.put_iff] | lift_lets | split)

theorem commitToken_keeps {s0 t : State} (n c t') (h : Keeps s0 t) :
    Keeps s0 (commitToken n c t' t) := by
  unfold commitToken
  repeat' (first
    | with_reducible assumption | with_reducible apply Keeps.ite | with_reducible apply bump_keeps
    | with_reducible apply onStream_keeps
    | ((fail_if_success (fail_if_success with_reducible intro y)); first | with_reducible refine Keeps.letGoal (s := s0) ?_ (fun _ _ => ?_) | with_reducible intro y)
    | simp only [Keeps.put_iff] | lift_lets | split)

theorem endSelection_keeps {s0 t : State} (n c p) (h : Keeps s0 t) :
    Keeps s0 (endSelection n c p t) := by
  unfold endSelection
  repeat' (first
    | with_reducible assumption | with_reducible apply Keeps.ite | with_reducible apply bump_keeps
    | with_reducible apply commitToken_keeps | with_reducible apply finishSelect_keeps
    | with_reducible refine Keeps.foldl _ ?_ (fun _ _ _ => ?_)
    | ((fail_if_success (fail_if_success with_reducible intro y)); first | with_reducible refine Keeps.letGoal (s := s0) ?_ (fun _ _ => ?_) | with_reducible intro y)
    | simp only [Keeps.put_iff] | lift_lets | split)

theorem endDraft_keeps {s0 t : State} (n c status tie) (h : Keeps s0 t) :
    Keeps s0 (endDraft n c status tie t) := by
  unfold endDraft
  repeat' (first
    | with_reducible assumption | with_reducible apply Keeps.ite | with_reducible apply finishSelect_keeps
    | ((fail_if_success (fail_if_success with_reducible intro y)); first | with_reducible refine Keeps.letGoal (s := s0) ?_ (fun _ _ => ?_) | with_reducible intro y)
    | simp only [Keeps.put_iff] | lift_lets | split)

theorem stopDraft_keeps {s0 t : State} (n c) (h : Keeps s0 t) :
    Keeps s0 (stopDraft n c t) := by
  unfold stopDraft
  repeat' (first
    | with_reducible assumption | with_reducible apply Keeps.ite | with_reducible apply endDraft_keeps
    | with_reducible apply clgErr_keeps | with_reducible apply bump_keeps | with_reducible apply setRegBit_keeps
    | with_reducible apply noteLoss_keeps
    | ((fail_if_success (fail_if_success with_reducible intro y)); first | with_reducible refine Keeps.letGoal (s := s0) ?_ (fun _ _ => ?_) | with_reducible intro y)
    | simp only [Keeps.put_iff] | lift_lets | split)

theorem draftPosition_keeps {s0 t : State} (n c p) (h : Keeps s0 t) :
    Keeps s0 (draftPosition n c p t) := by
  unfold draftPosition
  repeat' (first
    | with_reducible assumption | with_reducible apply Keeps.ite | with_reducible apply bump_keeps
    | with_reducible apply endDraft_keeps | with_reducible apply commitToken_keeps
    | with_reducible apply onClear_keeps
    | ((fail_if_success (fail_if_success with_reducible intro y)); first | with_reducible refine Keeps.letGoal (s := s0) ?_ (fun _ _ => ?_) | with_reducible intro y)
    | simp only [Keeps.put_iff] | lift_lets | split)

theorem selectRow_keeps {s0 t : State} (n) (h : Keeps s0 t) :
    Keeps s0 (selectRow n t) := by
  unfold selectRow
  repeat' (first
    | with_reducible assumption | with_reducible apply Keeps.ite | with_reducible apply onStream_keeps
    | with_reducible apply endSelection_keeps | with_reducible apply draftPosition_keeps
    | ((fail_if_success (fail_if_success with_reducible intro y)); first | with_reducible refine Keeps.letGoal (s := s0) ?_ (fun _ _ => ?_) | with_reducible intro y)
    | simp only [Keeps.put_iff] | lift_lets | split)

theorem runLanes_keeps {s0 t : State} (fuel) (h : Keeps s0 t) :
    Keeps s0 (runLanes fuel t) := by
  induction fuel generalizing t with
  | zero => exact h
  | succ fuel ih =>
    unfold runLanes
    repeat' (first
      | with_reducible assumption | with_reducible apply Keeps.ite | with_reducible apply buy_keeps
      | with_reducible apply selectRow_keeps | with_reducible apply Keeps.idf | with_reducible apply ih
      | ((fail_if_success (fail_if_success with_reducible intro y)); first | with_reducible refine Keeps.letGoal (s := s0) ?_ (fun _ _ => ?_) | with_reducible intro y)
      | with_reducible intro _ _ | simp only [Keeps.put_iff] | lift_lets | split)

theorem runRows_keeps {s0 t : State} (h : Keeps s0 t) : Keeps s0 (runRows t) := runLanes_keeps _ h

theorem keepRow_keeps {s0 t : State} (r held) (h : Keeps s0 t) :
    Keeps s0 (keepRow r held t) := by
  unfold keepRow
  repeat' (first
    | with_reducible assumption | with_reducible apply Keeps.ite
    | ((fail_if_success (fail_if_success with_reducible intro y)); first | with_reducible refine Keeps.letGoal (s := s0) ?_ (fun _ _ => ?_) | with_reducible intro y)
    | simp only [Keeps.put_iff] | lift_lets | split)

theorem holdPort_keeps {s0 t : State} (r) (h : Keeps s0 t) :
    Keeps s0 (holdPort r t) := by
  unfold holdPort
  repeat' (first
    | with_reducible assumption | with_reducible apply Keeps.ite
    | ((fail_if_success (fail_if_success with_reducible intro y)); first | with_reducible refine Keeps.letGoal (s := s0) ?_ (fun _ _ => ?_) | with_reducible intro y)
    | simp only [Keeps.put_iff] | lift_lets | split)

theorem discardEarly_keeps {s0 t : State} (r) (h : Keeps s0 t) :
    Keeps s0 (discardEarly t r) := by
  unfold discardEarly
  repeat' (first
    | with_reducible assumption | with_reducible apply Keeps.ite | with_reducible apply withhold_keeps
    | with_reducible apply stepLost_keeps
    | ((fail_if_success (fail_if_success with_reducible intro y)); first | with_reducible refine Keeps.letGoal (s := s0) ?_ (fun _ _ => ?_) | with_reducible intro y)
    | simp only [Keeps.put_iff] | lift_lets | split)

theorem earlyRow_keeps {s0 t : State} (r) (h : Keeps s0 t) :
    Keeps s0 (earlyRow r t) := by
  unfold earlyRow
  repeat' (first
    | with_reducible assumption | with_reducible apply Keeps.ite | with_reducible apply stepLost_keeps
    | with_reducible apply clearMarks_keeps | with_reducible apply bump_keeps
    | with_reducible apply discardEarly_keeps | with_reducible apply markStep_keeps
    | with_reducible apply keepRow_keeps | with_reducible apply holdPort_keeps
    | ((fail_if_success (fail_if_success with_reducible intro y)); first | with_reducible refine Keeps.letGoal (s := s0) ?_ (fun _ _ => ?_) | with_reducible intro y)
    | simp only [Keeps.put_iff] | lift_lets | split)

theorem matchedRow_keeps {s0 t : State} (c r) (h : Keeps s0 t) :
    Keeps s0 (matchedRow c r t) := by
  unfold matchedRow
  repeat' (first
    | with_reducible assumption | with_reducible apply Keeps.ite | with_reducible apply withhold_keeps
    | with_reducible apply clgErr_keeps | with_reducible apply runRows_keeps | with_reducible apply keepRow_keeps
    | with_reducible apply stopDraft_keeps | with_reducible apply holdPort_keeps
    | ((fail_if_success (fail_if_success with_reducible intro y)); first | with_reducible refine Keeps.letGoal (s := s0) ?_ (fun _ _ => ?_) | with_reducible intro y)
    | simp only [Keeps.put_iff] | lift_lets | split)

theorem placeRow_keeps {s0 t : State} (r) (h : Keeps s0 t) :
    Keeps s0 (placeRow r t) := by
  unfold placeRow
  repeat' (first
    | with_reducible assumption | with_reducible apply Keeps.ite | with_reducible apply bump_keeps
    | with_reducible apply matchedRow_keeps | with_reducible apply earlyRow_keeps
    | ((fail_if_success (fail_if_success with_reducible intro y)); first | with_reducible refine Keeps.letGoal (s := s0) ?_ (fun _ _ => ?_) | with_reducible intro y)
    | simp only [Keeps.put_iff] | lift_lets | split)

theorem retryPort_keeps {s0 t : State} (h : Keeps s0 t) :
    Keeps s0 (retryPort t) := by
  unfold retryPort
  repeat' (first
    | with_reducible assumption | with_reducible apply Keeps.ite | with_reducible apply placeRow_keeps
    | with_reducible apply runRows_keeps
    | ((fail_if_success (fail_if_success with_reducible intro y)); first | with_reducible refine Keeps.letGoal (s := s0) ?_ (fun _ _ => ?_) | with_reducible intro y)
    | simp only [Keeps.put_iff] | lift_lets | split)

theorem execLogitRow_keeps {s0 t : State} (header data beats) (h : Keeps s0 t) :
    OKeeps s0 (execLogitRow header data beats t) := by
  unfold execLogitRow
  repeat' (first
    | with_reducible assumption | with_reducible apply OKeeps.next | with_reducible exact OKeeps.refused _
    | with_reducible apply OKeeps.ite | with_reducible apply Keeps.ite | with_reducible apply sweep_keeps
    | with_reducible apply retryPort_keeps | with_reducible apply placeRow_keeps
    | ((fail_if_success (fail_if_success with_reducible intro y)); first | with_reducible refine Keeps.letGoal (s := s0) ?_ (fun _ _ => ?_) | with_reducible intro y)
    | simp only [Keeps.put_iff] | lift_lets | split)

theorem maskReady_keeps {s0 t : State} (n pos mask) (h : Keeps s0 t) :
    Keeps s0 (maskReady n pos mask t) := by
  unfold maskReady
  repeat' (first
    | with_reducible assumption | with_reducible apply Keeps.ite | with_reducible apply withhold_keeps
    | with_reducible apply runRows_keeps | with_reducible apply onClear_keeps
    | ((fail_if_success (fail_if_success with_reducible intro y)); first | with_reducible refine Keeps.letGoal (s := s0) ?_ (fun _ _ => ?_) | with_reducible intro y)
    | simp only [Keeps.put_iff] | lift_lets | split)

theorem startMask_keeps {s0 t : State} (n pos) (h : Keeps s0 t) :
    Keeps s0 (startMask n pos t) := by
  unfold startMask
  repeat' (first
    | with_reducible assumption | with_reducible apply Keeps.ite | with_reducible apply refuseClear_keeps
    | with_reducible apply maskReady_keeps | with_reducible apply startAccess_keeps | with_reducible apply plan_keeps
    | ((fail_if_success (fail_if_success with_reducible intro y)); first | with_reducible refine Keeps.letGoal (s := s0) ?_ (fun _ _ => ?_) | with_reducible intro y)
    | simp only [Keeps.put_iff] | lift_lets | split)

theorem maskArrived_keeps {s0 t : State} (n ledger pos again lines) (h : Keeps s0 t) :
    Keeps s0 (maskArrived n ledger pos again lines t) := by
  unfold maskArrived
  repeat' (first
    | with_reducible assumption | with_reducible apply Keeps.ite | with_reducible apply bump_keeps
    | with_reducible apply maskReady_keeps | with_reducible apply replayItem_keeps
    | with_reducible apply logFailure_keeps | with_reducible apply startAccess_keeps | with_reducible apply plan_keeps
    | ((fail_if_success (fail_if_success with_reducible intro y)); first | with_reducible refine Keeps.letGoal (s := s0) ?_ (fun _ _ => ?_) | with_reducible intro y)
    | simp only [Keeps.put_iff] | lift_lets | split)

theorem checkEarly_keeps {s0 t : State} (n) (h : Keeps s0 t) :
    Keeps s0 (checkEarly n t) := by
  unfold checkEarly
  repeat' (first
    | with_reducible assumption | with_reducible apply Keeps.ite | with_reducible apply withhold_keeps
    | with_reducible apply clgErr_keeps | with_reducible apply stopDraft_keeps
    | ((fail_if_success (fail_if_success with_reducible intro y)); first | with_reducible refine Keeps.letGoal (s := s0) ?_ (fun _ _ => ?_) | with_reducible intro y)
    | simp only [Keeps.put_iff] | lift_lets | split)

theorem startReads_keeps {s0 t : State} (n) (h : Keeps s0 t) :
    Keeps s0 (startReads n t) := by
  unfold startReads
  repeat' (first
    | with_reducible assumption | with_reducible apply Keeps.ite | with_reducible apply startAccess_keeps
    | with_reducible apply startMask_keeps
    | ((fail_if_success (fail_if_success with_reducible intro y)); first | with_reducible refine Keeps.letGoal (s := s0) ?_ (fun _ _ => ?_) | with_reducible intro y)
    | simp only [Keeps.put_iff] | lift_lets | split)

theorem admitDense_keeps {s0 t : State} (n) (h : Keeps s0 t) :
    Keeps s0 (admitDense n t) := by
  unfold admitDense
  repeat' (first
    | with_reducible assumption | with_reducible apply Keeps.ite | with_reducible apply onClear_keeps
    | with_reducible apply refuseClear_keeps | with_reducible apply stopDraft_keeps
    | with_reducible apply startReads_keeps | with_reducible apply checkEarly_keeps
    | ((fail_if_success (fail_if_success with_reducible intro y)); first | with_reducible refine Keeps.letGoal (s := s0) ?_ (fun _ _ => ?_) | with_reducible intro y)
    | simp only [Keeps.put_iff] | lift_lets | split)

theorem draftArrived_keeps {s0 t : State} (n data) (h : Keeps s0 t) :
    Keeps s0 (draftArrived n data t) := by
  unfold draftArrived
  repeat' (first
    | with_reducible assumption | with_reducible apply Keeps.ite | with_reducible apply refuseClear_keeps
    | with_reducible apply onClear_keeps | with_reducible apply runRows_keeps | with_reducible apply startMask_keeps
    | with_reducible refine Keeps.foldl _ ?_ (fun _ _ _ => ?_)
    | ((fail_if_success (fail_if_success with_reducible intro y)); first | with_reducible refine Keeps.letGoal (s := s0) ?_ (fun _ _ => ?_) | with_reducible intro y)
    | simp only [Keeps.put_iff] | lift_lets | split)

theorem sendMessage_keeps {s0 t : State} (n bank) (h : Keeps s0 t) :
    Keeps s0 (sendMessage n bank t) := by
  unfold sendMessage
  repeat' (first
    | with_reducible assumption | with_reducible apply Keeps.ite | with_reducible apply bump_keeps
    | with_reducible apply startAccess_keeps
    | ((fail_if_success (fail_if_success with_reducible intro y)); first | with_reducible refine Keeps.letGoal (s := s0) ?_ (fun _ _ => ?_) | with_reducible intro y)
    | simp only [Keeps.put_iff] | lift_lets | split)

theorem sendMessages_keeps {s0 t : State} (n) (h : Keeps s0 t) :
    Keeps s0 (sendMessages n t) := by
  unfold sendMessages
  repeat' (first
    | with_reducible assumption | with_reducible apply Keeps.ite | with_reducible apply onClear_keeps
    | with_reducible apply sendMessage_keeps | with_reducible refine Keeps.foldl _ ?_ (fun _ _ _ => ?_)
    | ((fail_if_success (fail_if_success with_reducible intro y)); first | with_reducible refine Keeps.letGoal (s := s0) ?_ (fun _ _ => ?_) | with_reducible intro y)
    | simp only [Keeps.put_iff] | lift_lets | split)

theorem trySend_keeps {s0 t : State} (n) (h : Keeps s0 t) :
    Keeps s0 (trySend n t) := by
  unfold trySend
  repeat' (first
    | with_reducible assumption | with_reducible apply Keeps.ite | with_reducible apply refuseClear_keeps
    | with_reducible apply onClear_keeps | with_reducible apply sendMessages_keeps
    | ((fail_if_success (fail_if_success with_reducible intro y)); first | with_reducible refine Keeps.letGoal (s := s0) ?_ (fun _ _ => ?_) | with_reducible intro y)
    | simp only [Keeps.put_iff] | lift_lets | split)

theorem thinDone_keeps {s0 t : State} (n) (h : Keeps s0 t) :
    Keeps s0 (thinDone n t) := by
  unfold thinDone
  repeat' (first
    | with_reducible assumption | with_reducible apply Keeps.ite | with_reducible apply withhold_keeps
    | with_reducible apply endSelection_keeps
    | ((fail_if_success (fail_if_success with_reducible intro y)); first | with_reducible refine Keeps.letGoal (s := s0) ?_ (fun _ _ => ?_) | with_reducible intro y)
    | simp only [Keeps.put_iff] | lift_lets | split)

theorem dropAnswered_keeps {s0 t : State} (ident) (h : Keeps s0 t) :
    Keeps s0 (dropAnswered ident t) := by
  unfold dropAnswered
  repeat' (first
    | with_reducible assumption | with_reducible apply Keeps.ite
    | ((fail_if_success (fail_if_success with_reducible intro y)); first | with_reducible refine Keeps.letGoal (s := s0) ?_ (fun _ _ => ?_) | with_reducible intro y)
    | simp only [Keeps.put_iff] | lift_lets | split)

theorem listConflict_keeps {s0 t : State} (n c) (h : Keeps s0 t) :
    Keeps s0 (listConflict n c t) := by
  unfold listConflict
  repeat' (first
    | with_reducible assumption | with_reducible apply Keeps.ite | with_reducible apply dropAccesses_keeps
    | with_reducible apply sendMessages_keeps | with_reducible apply onClear_keeps | with_reducible apply bump_keeps
    | with_reducible apply withhold_keeps | with_reducible apply clgErr_keeps
    | ((fail_if_success (fail_if_success with_reducible intro y)); first | with_reducible refine Keeps.letGoal (s := s0) ?_ (fun _ _ => ?_) | with_reducible intro y)
    | simp only [Keeps.put_iff] | lift_lets | split)

theorem takeList_keeps {s0 t : State} (n data) (h : Keeps s0 t) :
    Keeps s0 (takeList n data t) := by
  unfold takeList
  repeat' (first
    | with_reducible assumption | with_reducible apply Keeps.ite | with_reducible apply bump_keeps
    | with_reducible apply sendMessage_keeps | with_reducible apply onClear_keeps
    | with_reducible apply listConflict_keeps | with_reducible apply thinDone_keeps
    | ((fail_if_success (fail_if_success with_reducible intro y)); first | with_reducible refine Keeps.letGoal (s := s0) ?_ (fun _ _ => ?_) | with_reducible intro y)
    | simp only [Keeps.put_iff] | lift_lets | split)

theorem listBody_keeps {s0 t : State} (data) (h : Keeps s0 t) :
    Keeps s0 (listBody data t) := by
  unfold listBody
  repeat' (first
    | with_reducible assumption | with_reducible apply Keeps.ite | with_reducible apply bump_keeps
    | with_reducible apply takeList_keeps
    | ((fail_if_success (fail_if_success with_reducible intro y)); first | with_reducible refine Keeps.letGoal (s := s0) ?_ (fun _ _ => ?_) | with_reducible intro y)
    | simp only [Keeps.put_iff] | lift_lets | split)

theorem execNearBankList_keeps {s0 t : State} (port data) (h : Keeps s0 t) :
    OKeeps s0 (execNearBankList port data t) := by
  unfold execNearBankList
  repeat' (first
    | with_reducible assumption | with_reducible apply OKeeps.next | with_reducible exact OKeeps.refused _
    | with_reducible apply OKeeps.ite | with_reducible apply Keeps.ite | with_reducible apply dropAnswered_keeps
    | with_reducible apply bump_keeps | with_reducible apply sweep_keeps | with_reducible apply retryPort_keeps
    | with_reducible apply buy_keeps | with_reducible apply listBody_keeps | with_reducible apply Keeps.idf
    | ((fail_if_success (fail_if_success with_reducible intro y)); first | with_reducible refine Keeps.letGoal (s := s0) ?_ (fun _ _ => ?_) | with_reducible intro y)
    | with_reducible intro _ _ | simp only [Keeps.put_iff] | lift_lets | split)

theorem takeDecision_keeps {s0 t : State} (n t') (h : Keeps s0 t) :
    Keeps s0 (takeDecision n t' t) := by
  unfold takeDecision
  repeat' (first
    | with_reducible assumption | with_reducible apply Keeps.ite | with_reducible apply refuseClear_keeps
    | with_reducible apply endWithheld_keeps | with_reducible apply leaveClearing_keeps
    | with_reducible apply withhold_keeps | with_reducible apply trySend_keeps
    | with_reducible apply admitDense_keeps
    | ((fail_if_success (fail_if_success with_reducible intro y)); first | with_reducible refine Keeps.letGoal (s := s0) ?_ (fun _ _ => ?_) | with_reducible intro y)
    | simp only [Keeps.put_iff] | lift_lets | split)

theorem execClearingDescriptor_keeps {s0 t : State} (n hw) (h : Keeps s0 t) :
    OKeeps s0 (execClearingDescriptor n hw t) := by
  unfold execClearingDescriptor
  repeat' (first
    | with_reducible assumption | with_reducible apply OKeeps.next | with_reducible exact OKeeps.refused _
    | with_reducible apply OKeeps.ite | with_reducible apply Keeps.ite | with_reducible apply unqueue_keeps
    | with_reducible apply sweep_keeps | with_reducible apply checkFails_keeps
    | with_reducible apply refuseTile_keeps | with_reducible apply retryPort_keeps
    | with_reducible apply takeDecision_keeps
    | ((fail_if_success (fail_if_success with_reducible intro y)); first | with_reducible refine Keeps.letGoal (s := s0) ?_ (fun _ _ => ?_) | with_reducible intro y)
    | simp only [Keeps.put_iff] | lift_lets | split)

theorem execMaskPagesFreed_keeps {s0 t : State} (n) (h : Keeps s0 t) :
    OKeeps s0 (execMaskPagesFreed n t) := by
  unfold execMaskPagesFreed
  repeat' (first
    | with_reducible assumption | with_reducible apply OKeeps.next | with_reducible exact OKeeps.refused _
    | with_reducible apply OKeeps.ite | with_reducible apply Keeps.ite | with_reducible apply sweep_keeps
    | with_reducible apply retryPort_keeps | with_reducible apply admitDense_keeps
    | ((fail_if_success (fail_if_success with_reducible intro y)); first | with_reducible refine Keeps.letGoal (s := s0) ?_ (fun _ _ => ?_) | with_reducible intro y)
    | simp only [Keeps.put_iff] | lift_lets | split)

theorem dropEarly_keeps {s0 t : State} (n) (h : Keeps s0 t) :
    Keeps s0 (dropEarly n t) := by
  unfold dropEarly
  repeat' (first
    | with_reducible assumption | with_reducible apply Keeps.ite | with_reducible apply discardEarly_keeps
    | with_reducible refine Keeps.foldl _ ?_ (fun _ _ _ => ?_)
    | ((fail_if_success (fail_if_success with_reducible intro y)); first | with_reducible refine Keeps.letGoal (s := s0) ?_ (fun _ _ => ?_) | with_reducible intro y)
    | simp only [Keeps.put_iff] | lift_lets | split)

theorem execGraceEnd_keeps {s0 t : State} (n) (h : Keeps s0 t) :
    OKeeps s0 (execGraceEnd n t) := by
  unfold execGraceEnd
  repeat' (first
    | with_reducible assumption | with_reducible apply OKeeps.next | with_reducible exact OKeeps.refused _
    | with_reducible apply OKeeps.ite | with_reducible apply Keeps.ite | with_reducible apply dropEarly_keeps
    | with_reducible apply sweep_keeps | with_reducible apply retryPort_keeps | with_reducible apply withhold_keeps
    | ((fail_if_success (fail_if_success with_reducible intro y)); first | with_reducible refine Keeps.letGoal (s := s0) ?_ (fun _ _ => ?_) | with_reducible intro y)
    | simp only [Keeps.put_iff] | lift_lets | split)

theorem execThinGraceEnd_keeps {s0 t : State} (n) (h : Keeps s0 t) :
    OKeeps s0 (execThinGraceEnd n t) := by
  unfold execThinGraceEnd
  repeat' (first
    | with_reducible assumption | with_reducible apply OKeeps.next | with_reducible exact OKeeps.refused _
    | with_reducible apply OKeeps.ite | with_reducible apply Keeps.ite | with_reducible apply sweep_keeps
    | with_reducible apply retryPort_keeps | with_reducible apply withhold_keeps
    | ((fail_if_success (fail_if_success with_reducible intro y)); first | with_reducible refine Keeps.letGoal (s := s0) ?_ (fun _ _ => ?_) | with_reducible intro y)
    | simp only [Keeps.put_iff] | lift_lets | split)

end Sys2Proof.Machine
end

