-- ==== Sys2Proof/Laws/Keep/Teller.lean ====
section
/-!
SUPPORT. What the definitions of Machine/Teller.lean leave as it was.
-/

namespace Sys2Proof.Machine

set_option linter.unusedTactic false
set_option linter.unreachableTactic false
set_option linter.unusedSimpArgs false

theorem answerLane_keeps {s0 t : State} (c status n) (h : Keeps s0 t) :
    Keeps s0 (answerLane c status n t) := by
  unfold answerLane
  repeat' (first
    | with_reducible assumption | with_reducible apply Keeps.ite
    | ((fail_if_success (fail_if_success with_reducible intro y)); first | with_reducible refine Keeps.letGoal (s := s0) ?_ (fun _ _ => ?_) | with_reducible intro y)
    | simp only [Keeps.put_iff] | lift_lets | split)

theorem dayError_keeps {s0 t : State} (slot clerk status step) (h : Keeps s0 t) :
    Keeps s0 (dayError slot clerk status step t) := by
  unfold dayError
  repeat' (first
    | with_reducible assumption | with_reducible apply Keeps.ite | with_reducible apply logFirst_keeps
    | with_reducible apply bump_keeps
    | ((fail_if_success (fail_if_success with_reducible intro y)); first | with_reducible refine Keeps.letGoal (s := s0) ?_ (fun _ _ => ?_) | with_reducible intro y)
    | simp only [Keeps.put_iff] | lift_lets | split)

theorem refuseChunk_keeps {s0 t : State} (c status holds) (h : Keeps s0 t) :
    Keeps s0 (refuseChunk c status holds t) := by
  unfold refuseChunk
  repeat' (first
    | with_reducible assumption | with_reducible apply Keeps.ite | with_reducible apply bump_keeps
    | with_reducible apply logFirst_keeps | with_reducible apply answerLane_keeps
    | with_reducible apply dayError_keeps | with_reducible apply reportTicket_keeps
    | with_reducible apply journal_keeps | with_reducible apply holdStream_keeps
    | ((fail_if_success (fail_if_success with_reducible intro y)); first | with_reducible refine Keeps.letGoal (s := s0) ?_ (fun _ _ => ?_) | with_reducible intro y)
    | simp only [Keeps.put_iff] | lift_lets | split)

theorem acceptChunk_keeps {s0 t : State} (c) (h : Keeps s0 t) :
    Keeps s0 (acceptChunk c t) := by
  unfold acceptChunk
  repeat' (first
    | with_reducible assumption | with_reducible apply Keeps.ite | with_reducible apply journal_keeps
    | ((fail_if_success (fail_if_success with_reducible intro y)); first | with_reducible refine Keeps.letGoal (s := s0) ?_ (fun _ _ => ?_) | with_reducible intro y)
    | simp only [Keeps.put_iff] | lift_lets | split)

theorem admitChunk_keeps {s0 t : State} (c) (h : Keeps s0 t) :
    Keeps s0 (admitChunk c t) := by
  unfold admitChunk
  repeat' (first
    | with_reducible assumption | with_reducible apply Keeps.ite | with_reducible apply startAccess_keeps
    | with_reducible apply refuseChunk_keeps | with_reducible apply acceptChunk_keeps
    | ((fail_if_success (fail_if_success with_reducible intro y)); first | with_reducible refine Keeps.letGoal (s := s0) ?_ (fun _ _ => ?_) | with_reducible intro y)
    | simp only [Keeps.put_iff] | lift_lets | split)

theorem acceptDone_keeps {s0 t : State} (c n) (h : Keeps s0 t) :
    Keeps s0 (acceptDone c n t) := by
  unfold acceptDone
  repeat' (first
    | with_reducible assumption | with_reducible apply Keeps.ite | with_reducible apply bump_keeps
    | with_reducible apply addItem_keeps | with_reducible apply onStream_keeps
    | with_reducible apply answerLane_keeps | with_reducible apply onTicket_keeps
    | with_reducible apply cutItem_keeps | with_reducible apply closeStream_keeps
    | ((fail_if_success (fail_if_success with_reducible intro y)); first | with_reducible refine Keeps.letGoal (s := s0) ?_ (fun _ _ => ?_) | with_reducible intro y)
    | simp only [Keeps.put_iff] | lift_lets | split)

theorem setLane_keeps {s0 t : State} (l q) (h : Keeps s0 t) :
    Keeps s0 (setLane l q t) := by
  unfold setLane
  repeat' (first
    | with_reducible assumption | with_reducible apply Keeps.ite
    | ((fail_if_success (fail_if_success with_reducible intro y)); first | with_reducible refine Keeps.letGoal (s := s0) ?_ (fun _ _ => ?_) | with_reducible intro y)
    | simp only [Keeps.put_iff] | lift_lets | split)

theorem laneAccept_keeps {s0 t : State} (l) (h : Keeps s0 t) :
    Keeps s0 (laneAccept l t) := by
  unfold laneAccept
  repeat' (first
    | with_reducible assumption | with_reducible apply Keeps.ite | with_reducible apply admitChunk_keeps
    | with_reducible apply setLane_keeps
    | ((fail_if_success (fail_if_success with_reducible intro y)); first | with_reducible refine Keeps.letGoal (s := s0) ?_ (fun _ _ => ?_) | with_reducible intro y)
    | simp only [Keeps.put_iff] | lift_lets | split)

theorem payLane_keeps {s0 t : State} (l) (h : Keeps s0 t) :
    Keeps s0 (payLane l t) := by
  unfold payLane
  repeat' (first
    | with_reducible assumption | with_reducible apply Keeps.ite | with_reducible apply setLane_keeps
    | ((fail_if_success (fail_if_success with_reducible intro y)); first | with_reducible refine Keeps.letGoal (s := s0) ?_ (fun _ _ => ?_) | with_reducible intro y)
    | simp only [Keeps.put_iff] | lift_lets | split)

theorem drainLane_keeps {s0 t : State} (fuel l) (h : Keeps s0 t) :
    Keeps s0 (drainLane fuel l t) := by
  induction fuel generalizing t with
  | zero => exact h
  | succ fuel ih =>
    unfold drainLane
    repeat' (first
      | with_reducible assumption | with_reducible apply Keeps.ite | with_reducible apply buy_keeps
      | with_reducible apply laneAccept_keeps | with_reducible apply setLane_keeps
      | with_reducible apply refuseChunk_keeps | with_reducible apply Keeps.idf | with_reducible apply ih
      | cases ‹_ + 1 = Nat.succ _›
      | ((fail_if_success (fail_if_success with_reducible intro y)); first | with_reducible refine Keeps.letGoal (s := s0) ?_ (fun _ _ => ?_) | with_reducible intro y)
      | with_reducible intro _ _ | simp only [Keeps.put_iff] | lift_lets | split)

theorem drainLanes_keeps {s0 t : State} (h : Keeps s0 t) :
    Keeps s0 (drainLanes t) := by
  unfold drainLanes
  repeat' (first
    | with_reducible assumption | with_reducible apply Keeps.ite | with_reducible apply drainLane_keeps
    | with_reducible refine Keeps.foldl _ ?_ (fun _ _ _ => ?_)
    | ((fail_if_success (fail_if_success with_reducible intro y)); first | with_reducible refine Keeps.letGoal (s := s0) ?_ (fun _ _ => ?_) | with_reducible intro y)
    | simp only [Keeps.put_iff] | lift_lets | split)

theorem execLaneChunk_keeps {s0 t : State} (lane header words) (h : Keeps s0 t) :
    OKeeps s0 (execLaneChunk lane header words t) := by
  unfold execLaneChunk
  repeat' (first
    | with_reducible assumption | with_reducible apply OKeeps.next | with_reducible exact OKeeps.refused _
    | with_reducible apply OKeeps.ite | with_reducible apply Keeps.ite | with_reducible apply setLane_keeps
    | with_reducible apply sweep_keeps | with_reducible apply drainLane_keeps
    | ((fail_if_success (fail_if_success with_reducible intro y)); first | with_reducible refine Keeps.letGoal (s := s0) ?_ (fun _ _ => ?_) | with_reducible intro y)
    | with_reducible exact Keeps.nextNo ‹_› | simp only [Keeps.put_iff] | lift_lets | split)

theorem tellerBody_keeps {s0 t : State} (h : Keeps s0 t) :
    Keeps s0 (tellerBody t) := by
  unfold tellerBody
  repeat' (first
    | with_reducible assumption | with_reducible apply Keeps.ite | with_reducible apply admitChunk_keeps
    | ((fail_if_success (fail_if_success with_reducible intro y)); first | with_reducible refine Keeps.letGoal (s := s0) ?_ (fun _ _ => ?_) | with_reducible intro y)
    | simp only [Keeps.put_iff] | lift_lets | split)

theorem payTeller_keeps {s0 t : State} (h : Keeps s0 t) :
    Keeps s0 (payTeller t) := by
  unfold payTeller
  repeat' (first
    | with_reducible assumption | with_reducible apply Keeps.ite
    | ((fail_if_success (fail_if_success with_reducible intro y)); first | with_reducible refine Keeps.letGoal (s := s0) ?_ (fun _ _ => ?_) | with_reducible intro y)
    | simp only [Keeps.put_iff] | lift_lets | split)

theorem takeChunk_keeps {s0 t : State} (h : Keeps s0 t) :
    Keeps s0 (takeChunk t) := by
  unfold takeChunk
  repeat' (first
    | with_reducible assumption | with_reducible apply Keeps.ite | with_reducible apply refuseChunk_keeps
    | with_reducible apply tellerBody_keeps | with_reducible apply buy_keeps | with_reducible apply Keeps.idf
    | ((fail_if_success (fail_if_success with_reducible intro y)); first | with_reducible refine Keeps.letGoal (s := s0) ?_ (fun _ _ => ?_) | with_reducible intro y)
    | with_reducible intro _ _ | simp only [Keeps.put_iff] | lift_lets | split)

theorem execTellerChunk_keeps {s0 t : State} (h : Keeps s0 t) :
    OKeeps s0 (execTellerChunk t) := by
  unfold execTellerChunk
  repeat' (first
    | with_reducible assumption | with_reducible apply OKeeps.next | with_reducible exact OKeeps.refused _
    | with_reducible apply OKeeps.ite | with_reducible apply Keeps.ite | with_reducible apply sweep_keeps
    | with_reducible apply drainLanes_keeps | with_reducible apply takeChunk_keeps
    | ((fail_if_success (fail_if_success with_reducible intro y)); first | with_reducible refine Keeps.letGoal (s := s0) ?_ (fun _ _ => ?_) | with_reducible intro y)
    | simp only [Keeps.put_iff] | lift_lets | split)

theorem execTelReissue_keeps {s0 t : State} (n) (h : Keeps s0 t) :
    OKeeps s0 (execTelReissue n t) := by
  unfold execTelReissue
  repeat' (first
    | with_reducible assumption | with_reducible apply OKeeps.next | with_reducible exact OKeeps.refused _
    | with_reducible apply OKeeps.ite | with_reducible apply Keeps.ite | with_reducible apply viaPort_keeps
    | with_reducible apply onStream_keeps
    | ((fail_if_success (fail_if_success with_reducible intro y)); first | with_reducible refine Keeps.letGoal (s := s0) ?_ (fun _ _ => ?_) | with_reducible intro y)
    | simp only [Keeps.put_iff] | lift_lets | split)

theorem execIngressResponseTaken_keeps {s0 t : State} (port words) (h : Keeps s0 t) :
    OKeeps s0 (execIngressResponseTaken port words t) := by
  unfold execIngressResponseTaken
  repeat' (first
    | with_reducible assumption | with_reducible apply OKeeps.next | with_reducible exact OKeeps.refused _
    | with_reducible apply OKeeps.ite | with_reducible apply Keeps.ite | with_reducible apply sweep_keeps
    | with_reducible apply drainLanes_keeps
    | ((fail_if_success (fail_if_success with_reducible intro y)); first | with_reducible refine Keeps.letGoal (s := s0) ?_ (fun _ _ => ?_) | with_reducible intro y)
    | simp only [Keeps.put_iff] | lift_lets | split)

end Sys2Proof.Machine
end

