-- ==== Sys2Proof/Laws/Keep/Clerk.lean ====
section
/-!
SUPPORT. What the definitions of Machine/Clerk.lean leave as it was.
-/

namespace Sys2Proof.Machine

set_option linter.unusedTactic false
set_option linter.unreachableTactic false
set_option linter.unusedSimpArgs false

theorem endOwned_keeps {s0 t : State} (w status) (h : Keeps s0 t) :
    Keeps s0 (endOwned w status t) := by
  unfold endOwned
  repeat' (first
    | with_reducible assumption | with_reducible apply Keeps.ite
    | ((fail_if_success (fail_if_success with_reducible intro y)); first | with_reducible refine Keeps.letGoal (s := s0) ?_ (fun _ _ => ?_) | with_reducible intro y)
    | simp only [Keeps.put_iff] | lift_lets | split)

theorem logFault_keeps {s0 t : State} (w pc status) (h : Keeps s0 t) :
    Keeps s0 (logFault w pc status t) := by
  unfold logFault
  repeat' (first
    | with_reducible assumption | with_reducible apply Keeps.ite | with_reducible apply setReg_keeps
    | ((fail_if_success (fail_if_success with_reducible intro y)); first | with_reducible refine Keeps.letGoal (s := s0) ?_ (fun _ _ => ?_) | with_reducible intro y)
    | simp only [Keeps.put_iff] | lift_lets | split)

theorem faultThread_keeps {s0 t : State} (w status) (h : Keeps s0 t) :
    Keeps s0 (faultThread w status t) := by
  unfold faultThread
  repeat' (first
    | with_reducible assumption | with_reducible apply Keeps.ite | with_reducible apply logFault_keeps
    | with_reducible apply sweep_keeps | with_reducible apply endOwned_keeps | with_reducible apply onThread_keeps
    | ((fail_if_success (fail_if_success with_reducible intro y)); first | with_reducible refine Keeps.letGoal (s := s0) ?_ (fun _ _ => ?_) | with_reducible intro y)
    | simp only [Keeps.put_iff] | lift_lets | split)

theorem advancePc_keeps {s0 t : State} (w) (h : Keeps s0 t) :
    Keeps s0 (advancePc w t) := by
  unfold advancePc
  repeat' (first
    | with_reducible assumption | with_reducible apply Keeps.ite | with_reducible apply onThread_keeps
    | ((fail_if_success (fail_if_success with_reducible intro y)); first | with_reducible refine Keeps.letGoal (s := s0) ?_ (fun _ _ => ?_) | with_reducible intro y)
    | simp only [Keeps.put_iff] | lift_lets | split)

theorem putG_keeps {s0 t : State} (w d v) (h : Keeps s0 t) :
    Keeps s0 (putG w d v t) := by
  unfold putG
  repeat' (first
    | with_reducible assumption | with_reducible apply Keeps.ite | with_reducible apply onThread_keeps
    | with_reducible apply goOn_keeps
    | ((fail_if_success (fail_if_success with_reducible intro y)); first | with_reducible refine Keeps.letGoal (s := s0) ?_ (fun _ _ => ?_) | with_reducible intro y)
    | simp only [Keeps.put_iff] | lift_lets | split)

theorem putP_keeps {s0 t : State} (w d v) (h : Keeps s0 t) :
    Keeps s0 (putP w d v t) := by
  unfold putP
  repeat' (first
    | with_reducible assumption | with_reducible apply Keeps.ite | with_reducible apply onThread_keeps
    | with_reducible apply goOn_keeps
    | ((fail_if_success (fail_if_success with_reducible intro y)); first | with_reducible refine Keeps.letGoal (s := s0) ?_ (fun _ _ => ?_) | with_reducible intro y)
    | simp only [Keeps.put_iff] | lift_lets | split)

theorem putStatus_keeps {s0 t : State} (w d status) (h : Keeps s0 t) :
    Keeps s0 (putStatus w d status t) := by
  unfold putStatus
  repeat' (first
    | with_reducible assumption | with_reducible apply Keeps.ite | with_reducible apply putG_keeps
    | ((fail_if_success (fail_if_success with_reducible intro y)); first | with_reducible refine Keeps.letGoal (s := s0) ?_ (fun _ _ => ?_) | with_reducible intro y)
    | simp only [Keeps.put_iff] | lift_lets | split)

theorem waitRetry_keeps {s0 t : State} (w cmd) (h : Keeps s0 t) :
    Keeps s0 (waitRetry w cmd t) := by
  unfold waitRetry
  repeat' (first
    | with_reducible assumption | with_reducible apply Keeps.ite | with_reducible apply onThread_keeps
    | ((fail_if_success (fail_if_success with_reducible intro y)); first | with_reducible refine Keeps.letGoal (s := s0) ?_ (fun _ _ => ?_) | with_reducible intro y)
    | simp only [Keeps.put_iff] | lift_lets | split)

theorem waitCoins_keeps {s0 t : State} (w) (h : Keeps s0 t) :
    Keeps s0 (waitCoins w t) := by
  unfold waitCoins
  repeat' (first
    | with_reducible assumption | with_reducible apply Keeps.ite | with_reducible apply onThread_keeps
    | ((fail_if_success (fail_if_success with_reducible intro y)); first | with_reducible refine Keeps.letGoal (s := s0) ?_ (fun _ _ => ?_) | with_reducible intro y)
    | simp only [Keeps.put_iff] | lift_lets | split)

theorem waitBusy_keeps {s0 t : State} (w) (h : Keeps s0 t) :
    Keeps s0 (waitBusy w t) := by
  unfold waitBusy
  repeat' (first
    | with_reducible assumption | with_reducible apply Keeps.ite | with_reducible apply onThread_keeps
    | ((fail_if_success (fail_if_success with_reducible intro y)); first | with_reducible refine Keeps.letGoal (s := s0) ?_ (fun _ _ => ?_) | with_reducible intro y)
    | simp only [Keeps.put_iff] | lift_lets | split)

theorem takeEffect_keeps {s0 t : State} (w f op) (h : Keeps s0 t) (hop : ∀ u, Keeps s0 u → Keeps s0 (op.act u)) :
    Keeps s0 (takeEffect w f op t) := by
  unfold takeEffect
  repeat' (first
    | with_reducible assumption | with_reducible apply Keeps.ite | with_reducible apply faultThread_keeps
    | with_reducible apply advancePc_keeps | with_reducible apply hop
    | ((fail_if_success (fail_if_success with_reducible intro y)); first | with_reducible refine Keeps.letGoal (s := s0) ?_ (fun _ _ => ?_) | with_reducible intro y)
    | simp only [Keeps.put_iff] | lift_lets | split)

theorem noteIssue_keeps {s0 t : State} (w) (h : Keeps s0 t) :
    Keeps s0 (noteIssue w t) := by
  unfold noteIssue
  exact onThread_keeps _ _ h.nextNo.put

theorem issue_keeps {s0 t : State} (w f cmd op) (h : Keeps s0 t) (hop : ∀ u, Keeps s0 u → Keeps s0 (op.act u)) :
    Keeps s0 (issue w f cmd op t) := by
  unfold issue
  repeat' (first
    | with_reducible assumption | with_reducible apply Keeps.ite | with_reducible apply faultThread_keeps
    | with_reducible apply noteIssue_keeps | with_reducible apply buy_keeps | with_reducible apply waitCoins_keeps
    | with_reducible apply takeEffect_keeps | with_reducible apply Keeps.idf | with_reducible apply hop
    | ((fail_if_success (fail_if_success with_reducible intro y)); first | with_reducible refine Keeps.letGoal (s := s0) ?_ (fun _ _ => ?_) | with_reducible intro y)
    | with_reducible intro _ _ | simp only [Keeps.put_iff] | lift_lets | split)

theorem resumePaid_keeps {s0 t : State} (w f op) (h : Keeps s0 t) (hop : ∀ u, Keeps s0 u → Keeps s0 (op.act u)) :
    Keeps s0 (resumePaid w f op t) := by
  unfold resumePaid
  repeat' (first
    | with_reducible assumption | with_reducible apply Keeps.ite | with_reducible apply takeEffect_keeps
    | with_reducible apply onThread_keeps | with_reducible apply Keeps.idf | with_reducible apply hop
    | ((fail_if_success (fail_if_success with_reducible intro y)); first | with_reducible refine Keeps.letGoal (s := s0) ?_ (fun _ _ => ?_) | with_reducible intro y)
    | with_reducible intro _ _ | simp only [Keeps.put_iff] | lift_lets | split)

end Sys2Proof.Machine
end

