-- ==== Sys2Proof/Laws/Keep/Xfer.lean ====
section
/-!
SUPPORT. What the definitions of Machine/Xfer.lean leave as it was.
-/

namespace Sys2Proof.Machine

set_option linter.unusedTactic false
set_option linter.unreachableTactic false
set_option linter.unusedSimpArgs false

theorem actLdx_keeps {s0 t : State} (w f) (h : Keeps s0 t) :
    Keeps s0 (actLdx w f t) := by
  unfold actLdx
  repeat' (first
    | with_reducible assumption | with_reducible apply Keeps.ite | with_reducible apply putStatus_keeps
    | with_reducible apply startAccess_keeps | with_reducible apply waitBusy_keeps
    | ((fail_if_success (fail_if_success with_reducible intro y)); first | with_reducible refine Keeps.letGoal (s := s0) ?_ (fun _ _ => ?_) | with_reducible intro y)
    | simp only [Keeps.put_iff] | lift_lets | split)

theorem actStx_keeps {s0 t : State} (w f) (h : Keeps s0 t) :
    Keeps s0 (actStx w f t) := by
  unfold actStx
  repeat' (first
    | with_reducible assumption | with_reducible apply Keeps.ite | with_reducible apply putStatus_keeps
    | with_reducible apply startAccess_keeps | with_reducible apply waitBusy_keeps
    | ((fail_if_success (fail_if_success with_reducible intro y)); first | with_reducible refine Keeps.letGoal (s := s0) ?_ (fun _ _ => ?_) | with_reducible intro y)
    | simp only [Keeps.put_iff] | lift_lets | split)

theorem opLdx_keeps {s0 t : State} (w f) (h : Keeps s0 t) :
    Keeps s0 ((opLdx w f).act t) := by
  unfold opLdx
  dsimp only [pricedOp, plainOp, jumpOp, aluOp, predicateOp]
  repeat' (first
    | with_reducible assumption | with_reducible apply Keeps.ite | with_reducible apply actLdx_keeps
    | ((fail_if_success (fail_if_success with_reducible intro y)); first | with_reducible refine Keeps.letGoal (s := s0) ?_ (fun _ _ => ?_) | with_reducible intro y)
    | simp only [Keeps.put_iff] | lift_lets | split)

theorem opStx_keeps {s0 t : State} (w f) (h : Keeps s0 t) :
    Keeps s0 ((opStx w f).act t) := by
  unfold opStx
  dsimp only [pricedOp, plainOp, jumpOp, aluOp, predicateOp]
  repeat' (first
    | with_reducible assumption | with_reducible apply Keeps.ite | with_reducible apply actStx_keeps
    | ((fail_if_success (fail_if_success with_reducible intro y)); first | with_reducible refine Keeps.letGoal (s := s0) ?_ (fun _ _ => ?_) | with_reducible intro y)
    | simp only [Keeps.put_iff] | lift_lets | split)

theorem execLdx_keeps {s0 t : State} (w f) (h : Keeps s0 t) :
    OKeeps s0 (execLdx w f t) := by
  unfold execLdx
  repeat' (first
    | with_reducible assumption | with_reducible apply OKeeps.next | with_reducible exact OKeeps.refused _
    | with_reducible apply OKeeps.ite | with_reducible apply Keeps.ite | with_reducible apply issue_keeps
    | with_reducible apply opLdx_keeps | with_reducible apply Keeps.idf
    | ((fail_if_success (fail_if_success with_reducible intro y)); first | with_reducible refine Keeps.letGoal (s := s0) ?_ (fun _ _ => ?_) | with_reducible intro y)
    | with_reducible intro _ _ | simp only [Keeps.put_iff] | lift_lets | split)

theorem execStx_keeps {s0 t : State} (w f) (h : Keeps s0 t) :
    OKeeps s0 (execStx w f t) := by
  unfold execStx
  repeat' (first
    | with_reducible assumption | with_reducible apply OKeeps.next | with_reducible exact OKeeps.refused _
    | with_reducible apply OKeeps.ite | with_reducible apply Keeps.ite | with_reducible apply issue_keeps
    | with_reducible apply opStx_keeps | with_reducible apply Keeps.idf
    | ((fail_if_success (fail_if_success with_reducible intro y)); first | with_reducible refine Keeps.letGoal (s := s0) ?_ (fun _ _ => ?_) | with_reducible intro y)
    | with_reducible intro _ _ | simp only [Keeps.put_iff] | lift_lets | split)

theorem answerThread_keeps {s0 t : State} (w d v) (h : Keeps s0 t) :
    Keeps s0 (answerThread w d v t) := by
  unfold answerThread
  repeat' (first
    | with_reducible assumption | with_reducible apply Keeps.ite | with_reducible apply putG_keeps
    | with_reducible apply endOwned_keeps
    | ((fail_if_success (fail_if_success with_reducible intro y)); first | with_reducible refine Keeps.letGoal (s := s0) ?_ (fun _ _ => ?_) | with_reducible intro y)
    | simp only [Keeps.put_iff] | lift_lets | split)

theorem finishLdx_keeps {s0 t : State} (w d dst n status data) (h : Keeps s0 t) :
    Keeps s0 (finishLdx w d dst n status data t) := by
  unfold finishLdx
  repeat' (first
    | with_reducible assumption | with_reducible apply Keeps.ite | with_reducible apply storeScratch_keeps
    | with_reducible apply answerThread_keeps
    | ((fail_if_success (fail_if_success with_reducible intro y)); first | with_reducible refine Keeps.letGoal (s := s0) ?_ (fun _ _ => ?_) | with_reducible intro y)
    | simp only [Keeps.put_iff] | lift_lets | split)

theorem finishStx_keeps {s0 t : State} (w d n status) (h : Keeps s0 t) :
    Keeps s0 (finishStx w d n status t) := by
  unfold finishStx
  repeat' (first
    | with_reducible assumption | with_reducible apply Keeps.ite | with_reducible apply answerThread_keeps
    | ((fail_if_success (fail_if_success with_reducible intro y)); first | with_reducible refine Keeps.letGoal (s := s0) ?_ (fun _ _ => ?_) | with_reducible intro y)
    | simp only [Keeps.put_iff] | lift_lets | split)

end Sys2Proof.Machine
end

