-- ==== Sys2Proof/Laws/Keep/Streams.lean ====
section
/-!
SUPPORT. What the definitions of Machine/Streams.lean leave as it was.
-/

namespace Sys2Proof.Machine

set_option linter.unusedTactic false
set_option linter.unreachableTactic false
set_option linter.unusedSimpArgs false

theorem waitOpen_keeps {s0 t : State} (w cmd) (h : Keeps s0 t) :
    Keeps s0 (waitOpen w cmd t) := by
  unfold waitOpen
  repeat' (first
    | with_reducible assumption | with_reducible apply Keeps.ite | with_reducible apply waitRetry_keeps
    | ((fail_if_success (fail_if_success with_reducible intro y)); first | with_reducible refine Keeps.letGoal (s := s0) ?_ (fun _ _ => ?_) | with_reducible intro y)
    | simp only [Keeps.put_iff] | lift_lets | split)

theorem installStream_keeps {s0 t : State} (n b stops) (h : Keeps s0 t) :
    Keeps s0 (installStream n b stops t) := by
  unfold installStream
  repeat' (first
    | with_reducible assumption | with_reducible apply Keeps.ite | with_reducible apply setStream_keeps
    | with_reducible apply readError_keeps | with_reducible apply countReads_keeps
    | with_reducible apply countAdvance_keeps | with_reducible apply writeCheckpoint_keeps
    | with_reducible apply writePatch_keeps | with_reducible apply notaryOverflow_keeps
    | ((fail_if_success (fail_if_success with_reducible intro y)); first | with_reducible refine Keeps.letGoal (s := s0) ?_ (fun _ _ => ?_) | with_reducible intro y)
    | simp only [Keeps.put_iff] | lift_lets | split)

theorem openBody_keeps {s0 t : State} (w f) (h : Keeps s0 t) :
    Keeps s0 (openBody w f t) := by
  unfold openBody
  repeat' (first
    | with_reducible assumption | with_reducible apply Keeps.ite | with_reducible apply putStatus_keeps
    | with_reducible apply installStream_keeps | with_reducible apply journal_keeps
    | with_reducible apply waitBusy_keeps
    | ((fail_if_success (fail_if_success with_reducible intro y)); first | with_reducible refine Keeps.letGoal (s := s0) ?_ (fun _ _ => ?_) | with_reducible intro y)
    | simp only [Keeps.put_iff] | lift_lets | split)

theorem actSopen_keeps {s0 t : State} (w f) (h : Keeps s0 t) :
    Keeps s0 (actSopen w f t) := by
  unfold actSopen
  repeat' (first
    | with_reducible assumption | with_reducible apply Keeps.ite | with_reducible apply putStatus_keeps
    | with_reducible apply waitOpen_keeps | with_reducible apply waitRetry_keeps
    | with_reducible apply installStream_keeps | with_reducible apply journal_keeps
    | with_reducible apply waitBusy_keeps | with_reducible apply buy_keeps | with_reducible apply openBody_keeps
    | ((fail_if_success (fail_if_success with_reducible intro y)); first | with_reducible refine Keeps.letGoal (s := s0) ?_ (fun _ _ => ?_) | with_reducible intro y)
    | simp only [Keeps.put_iff] | lift_lets | split)

theorem opSopen_keeps {s0 t : State} (w f) (h : Keeps s0 t) :
    Keeps s0 ((opSopen w f).act t) := by
  unfold opSopen
  dsimp only [pricedOp, plainOp, jumpOp, aluOp, predicateOp]
  repeat' (first
    | with_reducible assumption | with_reducible apply Keeps.ite | with_reducible apply actSopen_keeps
    | ((fail_if_success (fail_if_success with_reducible intro y)); first | with_reducible refine Keeps.letGoal (s := s0) ?_ (fun _ _ => ?_) | with_reducible intro y)
    | simp only [Keeps.put_iff] | lift_lets | split)

theorem execSopen_keeps {s0 t : State} (w f) (h : Keeps s0 t) :
    OKeeps s0 (execSopen w f t) := by
  unfold execSopen
  repeat' (first
    | with_reducible assumption | with_reducible apply OKeeps.next | with_reducible exact OKeeps.refused _
    | with_reducible apply OKeeps.ite | with_reducible apply Keeps.ite | with_reducible apply issue_keeps
    | with_reducible apply opSopen_keeps | with_reducible apply Keeps.idf
    | ((fail_if_success (fail_if_success with_reducible intro y)); first | with_reducible refine Keeps.letGoal (s := s0) ?_ (fun _ _ => ?_) | with_reducible intro y)
    | with_reducible intro _ _ | simp only [Keeps.put_iff] | lift_lets | split)

theorem actSclose_keeps {s0 t : State} (w f) (h : Keeps s0 t) :
    Keeps s0 (actSclose w f t) := by
  unfold actSclose
  repeat' (first
    | with_reducible assumption | with_reducible apply Keeps.ite | with_reducible apply putStatus_keeps
    | with_reducible apply waitOpen_keeps | with_reducible apply discardHolds_keeps | with_reducible apply sweep_keeps
    | with_reducible apply closeStream_keeps | with_reducible apply waitBusy_keeps
    | with_reducible apply discardIdle_keeps
    | ((fail_if_success (fail_if_success with_reducible intro y)); first | with_reducible refine Keeps.letGoal (s := s0) ?_ (fun _ _ => ?_) | with_reducible intro y)
    | simp only [Keeps.put_iff] | lift_lets | split)

theorem opSclose_keeps {s0 t : State} (w f) (h : Keeps s0 t) :
    Keeps s0 ((opSclose w f).act t) := by
  unfold opSclose
  dsimp only [pricedOp, plainOp, jumpOp, aluOp, predicateOp]
  repeat' (first
    | with_reducible assumption | with_reducible apply Keeps.ite | with_reducible apply actSclose_keeps
    | ((fail_if_success (fail_if_success with_reducible intro y)); first | with_reducible refine Keeps.letGoal (s := s0) ?_ (fun _ _ => ?_) | with_reducible intro y)
    | simp only [Keeps.put_iff] | lift_lets | split)

theorem execSclose_keeps {s0 t : State} (w f) (h : Keeps s0 t) :
    OKeeps s0 (execSclose w f t) := by
  unfold execSclose
  repeat' (first
    | with_reducible assumption | with_reducible apply OKeeps.next | with_reducible exact OKeeps.refused _
    | with_reducible apply OKeeps.ite | with_reducible apply Keeps.ite | with_reducible apply issue_keeps
    | with_reducible apply opSclose_keeps | with_reducible apply Keeps.idf
    | ((fail_if_success (fail_if_success with_reducible intro y)); first | with_reducible refine Keeps.letGoal (s := s0) ?_ (fun _ _ => ?_) | with_reducible intro y)
    | with_reducible intro _ _ | simp only [Keeps.put_iff] | lift_lets | split)

theorem putTicket_keeps {s0 t : State} (w d t') (h : Keeps s0 t) :
    Keeps s0 (putTicket w d t' t) := by
  unfold putTicket
  repeat' (first
    | with_reducible assumption | with_reducible apply Keeps.ite | with_reducible apply putG_keeps
    | with_reducible apply onThread_keeps | with_reducible apply onTicket_keeps
    | ((fail_if_success (fail_if_success with_reducible intro y)); first | with_reducible refine Keeps.letGoal (s := s0) ?_ (fun _ _ => ?_) | with_reducible intro y)
    | simp only [Keeps.put_iff] | lift_lets | split)

theorem actSfeed_keeps {s0 t : State} (w f room) (h : Keeps s0 t) :
    Keeps s0 (actSfeed w f room t) := by
  unfold actSfeed
  repeat' (first
    | with_reducible assumption | with_reducible apply Keeps.ite | with_reducible apply waitOpen_keeps
    | with_reducible apply putStatus_keeps | with_reducible apply waitRetry_keeps
    | with_reducible refine takeTicket_keeps _ _ _ ?_ _ _ ‹takeTicket _ _ _ _ = some (_, _)›
    | with_reducible apply putTicket_keeps | with_reducible apply reachTeller_keeps
    | ((fail_if_success (fail_if_success with_reducible intro y)); first | with_reducible refine Keeps.letGoal (s := s0) ?_ (fun _ _ => ?_) | with_reducible intro y)
    | simp only [Keeps.put_iff] | lift_lets | split)

theorem opSfeed_keeps {s0 t : State} (w f) (h : Keeps s0 t) :
    Keeps s0 ((opSfeed w f).act t) := by
  unfold opSfeed
  dsimp only [pricedOp, plainOp, jumpOp, aluOp, predicateOp]
  repeat' (first
    | with_reducible assumption | with_reducible apply Keeps.ite | with_reducible apply actSfeed_keeps
    | ((fail_if_success (fail_if_success with_reducible intro y)); first | with_reducible refine Keeps.letGoal (s := s0) ?_ (fun _ _ => ?_) | with_reducible intro y)
    | simp only [Keeps.put_iff] | lift_lets | split)

theorem execSfeed_keeps {s0 t : State} (w f) (h : Keeps s0 t) :
    OKeeps s0 (execSfeed w f t) := by
  unfold execSfeed
  repeat' (first
    | with_reducible assumption | with_reducible apply OKeeps.next | with_reducible exact OKeeps.refused _
    | with_reducible apply OKeeps.ite | with_reducible apply Keeps.ite | with_reducible apply issue_keeps
    | with_reducible apply opSfeed_keeps | with_reducible apply Keeps.idf
    | ((fail_if_success (fail_if_success with_reducible intro y)); first | with_reducible refine Keeps.letGoal (s := s0) ?_ (fun _ _ => ?_) | with_reducible intro y)
    | with_reducible intro _ _ | simp only [Keeps.put_iff] | lift_lets | split)

theorem issueTile_keeps {s0 t : State} (t' data) (h : Keeps s0 t) :
    Keeps s0 (issueTile t' data t) := by
  unfold issueTile
  repeat' (first
    | with_reducible assumption | with_reducible apply Keeps.ite | with_reducible apply enqueue_keeps
    | ((fail_if_success (fail_if_success with_reducible intro y)); first | with_reducible refine Keeps.letGoal (s := s0) ?_ (fun _ _ => ?_) | with_reducible intro y)
    | simp only [Keeps.put_iff] | lift_lets | split)

theorem sendFlow_keeps {s0 t : State} (w f b k) (h : Keeps s0 t) :
    Keeps s0 (sendFlow w f b k t) := by
  unfold sendFlow
  repeat' (first
    | with_reducible assumption | with_reducible apply Keeps.ite | with_reducible apply onTicket_keeps
    | with_reducible apply putTicket_keeps | with_reducible apply reachTeller_keeps
    | with_reducible apply onStream_keeps | with_reducible apply startAccess_keeps
    | with_reducible apply issueTile_keeps
    | ((fail_if_success (fail_if_success with_reducible intro y)); first | with_reducible refine Keeps.letGoal (s := s0) ?_ (fun _ _ => ?_) | with_reducible intro y)
    | simp only [Keeps.put_iff] | lift_lets | split)

theorem actFlow_keeps {s0 t : State} (w f room) (h : Keeps s0 t) :
    Keeps s0 (actFlow w f room t) := by
  unfold actFlow
  repeat' (first
    | with_reducible assumption | with_reducible apply Keeps.ite | with_reducible apply waitOpen_keeps
    | with_reducible apply putStatus_keeps | with_reducible apply waitRetry_keeps
    | with_reducible refine takeTicket_keeps _ _ _ ?_ _ _ ‹takeTicket _ _ _ _ = some (_, _)›
    | with_reducible apply sendFlow_keeps
    | ((fail_if_success (fail_if_success with_reducible intro y)); first | with_reducible refine Keeps.letGoal (s := s0) ?_ (fun _ _ => ?_) | with_reducible intro y)
    | simp only [Keeps.put_iff] | lift_lets | split)

theorem opFlow_keeps {s0 t : State} (w f) (h : Keeps s0 t) :
    Keeps s0 ((opFlow w f).act t) := by
  unfold opFlow
  dsimp only [pricedOp, plainOp, jumpOp, aluOp, predicateOp]
  repeat' (first
    | with_reducible assumption | with_reducible apply Keeps.ite | with_reducible apply actFlow_keeps
    | ((fail_if_success (fail_if_success with_reducible intro y)); first | with_reducible refine Keeps.letGoal (s := s0) ?_ (fun _ _ => ?_) | with_reducible intro y)
    | simp only [Keeps.put_iff] | lift_lets | split)

theorem execFlow_keeps {s0 t : State} (w f) (h : Keeps s0 t) :
    OKeeps s0 (execFlow w f t) := by
  unfold execFlow
  repeat' (first
    | with_reducible assumption | with_reducible apply OKeeps.next | with_reducible exact OKeeps.refused _
    | with_reducible apply OKeeps.ite | with_reducible apply Keeps.ite | with_reducible apply issue_keeps
    | with_reducible apply opFlow_keeps | with_reducible apply Keeps.idf
    | ((fail_if_success (fail_if_success with_reducible intro y)); first | with_reducible refine Keeps.letGoal (s := s0) ?_ (fun _ _ => ?_) | with_reducible intro y)
    | with_reducible intro _ _ | simp only [Keeps.put_iff] | lift_lets | split)

theorem actEmit_keeps {s0 t : State} (w f room) (h : Keeps s0 t) :
    Keeps s0 (actEmit w f room t) := by
  unfold actEmit
  repeat' (first
    | with_reducible assumption | with_reducible apply Keeps.ite | with_reducible apply putStatus_keeps
    | with_reducible apply waitOpen_keeps | with_reducible apply waitRetry_keeps
    | with_reducible refine takeTicket_keeps _ _ _ ?_ _ _ ‹takeTicket _ _ _ _ = some (_, _)›
    | with_reducible apply takeFree_keeps
    | (refine Keeps.sndOf ?_ ‹takeFree _ = (_, _)›; with_reducible apply takeFree_keeps)
    | with_reducible apply putTicket_keeps | with_reducible apply enqueue_keeps
    | ((fail_if_success (fail_if_success with_reducible intro y)); first | with_reducible refine Keeps.letGoal (s := s0) ?_ (fun _ _ => ?_) | with_reducible intro y)
    | simp only [Keeps.put_iff] | lift_lets | split)

theorem opEmit_keeps {s0 t : State} (w f) (h : Keeps s0 t) :
    Keeps s0 ((opEmit w f).act t) := by
  unfold opEmit
  dsimp only [pricedOp, plainOp, jumpOp, aluOp, predicateOp]
  repeat' (first
    | with_reducible assumption | with_reducible apply Keeps.ite | with_reducible apply actEmit_keeps
    | ((fail_if_success (fail_if_success with_reducible intro y)); first | with_reducible refine Keeps.letGoal (s := s0) ?_ (fun _ _ => ?_) | with_reducible intro y)
    | simp only [Keeps.put_iff] | lift_lets | split)

theorem execEmit_keeps {s0 t : State} (w f) (h : Keeps s0 t) :
    OKeeps s0 (execEmit w f t) := by
  unfold execEmit
  repeat' (first
    | with_reducible assumption | with_reducible apply OKeeps.next | with_reducible exact OKeeps.refused _
    | with_reducible apply OKeeps.ite | with_reducible apply Keeps.ite | with_reducible apply issue_keeps
    | with_reducible apply opEmit_keeps | with_reducible apply Keeps.idf
    | ((fail_if_success (fail_if_success with_reducible intro y)); first | with_reducible refine Keeps.letGoal (s := s0) ?_ (fun _ _ => ?_) | with_reducible intro y)
    | with_reducible intro _ _ | simp only [Keeps.put_iff] | lift_lets | split)

end Sys2Proof.Machine
end

