-- ==== Sys2Proof/Laws/Keep/Choice.lean ====
section
/-!
SUPPORT. What the definitions of Machine/Choice.lean leave as it was.
-/

namespace Sys2Proof.Machine

set_option linter.unusedTactic false
set_option linter.unreachableTactic false
set_option linter.unusedSimpArgs false

theorem actMask_keeps {s0 t : State} (w f) (h : Keeps s0 t) :
    Keeps s0 (actMask w f t) := by
  unfold actMask
  repeat' (first
    | with_reducible assumption | with_reducible apply Keeps.ite | with_reducible apply waitOpen_keeps
    | with_reducible apply putStatus_keeps | with_reducible apply waitRetry_keeps | with_reducible apply putG_keeps
    | ((fail_if_success (fail_if_success with_reducible intro y)); first | with_reducible refine Keeps.letGoal (s := s0) ?_ (fun _ _ => ?_) | with_reducible intro y)
    | simp only [Keeps.put_iff] | lift_lets | split)

theorem opMask_keeps {s0 t : State} (w f) (h : Keeps s0 t) :
    Keeps s0 ((opMask w f).act t) := by
  unfold opMask
  dsimp only [pricedOp, plainOp, jumpOp, aluOp, predicateOp]
  repeat' (first
    | with_reducible assumption | with_reducible apply Keeps.ite | with_reducible apply actMask_keeps
    | ((fail_if_success (fail_if_success with_reducible intro y)); first | with_reducible refine Keeps.letGoal (s := s0) ?_ (fun _ _ => ?_) | with_reducible intro y)
    | simp only [Keeps.put_iff] | lift_lets | split)

theorem execMask_keeps {s0 t : State} (w f) (h : Keeps s0 t) :
    OKeeps s0 (execMask w f t) := by
  unfold execMask
  repeat' (first
    | with_reducible assumption | with_reducible apply OKeeps.next | with_reducible exact OKeeps.refused _
    | with_reducible apply OKeeps.ite | with_reducible apply Keeps.ite | with_reducible apply issue_keeps
    | with_reducible apply opMask_keeps | with_reducible apply Keeps.idf
    | ((fail_if_success (fail_if_success with_reducible intro y)); first | with_reducible refine Keeps.letGoal (s := s0) ?_ (fun _ _ => ?_) | with_reducible intro y)
    | with_reducible intro _ _ | simp only [Keeps.put_iff] | lift_lets | split)

theorem dropCands_keeps {s0 t : State} (n) (h : Keeps s0 t) :
    Keeps s0 (dropCands n t) := by
  unfold dropCands
  repeat' (first
    | with_reducible assumption | with_reducible apply Keeps.ite | with_reducible apply onStream_keeps
    | ((fail_if_success (fail_if_success with_reducible intro y)); first | with_reducible refine Keeps.letGoal (s := s0) ?_ (fun _ _ => ?_) | with_reducible intro y)
    | simp only [Keeps.put_iff] | lift_lets | split)

theorem nextBody_keeps {s0 t : State} (w f) (h : Keeps s0 t) :
    Keeps s0 (nextBody w f t) := by
  unfold nextBody
  repeat' (first
    | with_reducible assumption | with_reducible apply Keeps.ite | with_reducible apply putStatus_keeps
    | with_reducible apply lookupError_keeps | with_reducible apply dropCands_keeps
    | with_reducible apply makeAdvance_keeps | with_reducible apply putG_keeps
    | ((fail_if_success (fail_if_success with_reducible intro y)); first | with_reducible refine Keeps.letGoal (s := s0) ?_ (fun _ _ => ?_) | with_reducible intro y)
    | simp only [Keeps.put_iff] | lift_lets | split)

theorem actNext_keeps {s0 t : State} (w f) (h : Keeps s0 t) :
    Keeps s0 (actNext w f t) := by
  unfold actNext
  repeat' (first
    | with_reducible assumption | with_reducible apply Keeps.ite | with_reducible apply waitOpen_keeps
    | with_reducible apply putStatus_keeps | with_reducible apply waitRetry_keeps | with_reducible apply buy_keeps
    | with_reducible apply nextBody_keeps | with_reducible apply Keeps.idf
    | ((fail_if_success (fail_if_success with_reducible intro y)); first | with_reducible refine Keeps.letGoal (s := s0) ?_ (fun _ _ => ?_) | with_reducible intro y)
    | with_reducible intro _ _ | simp only [Keeps.put_iff] | lift_lets | split)

theorem opNext_keeps {s0 t : State} (w f) (h : Keeps s0 t) :
    Keeps s0 ((opNext w f).act t) := by
  unfold opNext
  dsimp only [pricedOp, plainOp, jumpOp, aluOp, predicateOp]
  repeat' (first
    | with_reducible assumption | with_reducible apply Keeps.ite | with_reducible apply actNext_keeps
    | ((fail_if_success (fail_if_success with_reducible intro y)); first | with_reducible refine Keeps.letGoal (s := s0) ?_ (fun _ _ => ?_) | with_reducible intro y)
    | simp only [Keeps.put_iff] | lift_lets | split)

theorem execNext_keeps {s0 t : State} (w f) (h : Keeps s0 t) :
    OKeeps s0 (execNext w f t) := by
  unfold execNext
  repeat' (first
    | with_reducible assumption | with_reducible apply OKeeps.next | with_reducible exact OKeeps.refused _
    | with_reducible apply OKeeps.ite | with_reducible apply Keeps.ite | with_reducible apply issue_keeps
    | with_reducible apply opNext_keeps | with_reducible apply Keeps.idf
    | ((fail_if_success (fail_if_success with_reducible intro y)); first | with_reducible refine Keeps.letGoal (s := s0) ?_ (fun _ _ => ?_) | with_reducible intro y)
    | with_reducible intro _ _ | simp only [Keeps.put_iff] | lift_lets | split)

theorem draftBody_keeps {s0 t : State} (w f) (h : Keeps s0 t) :
    Keeps s0 (draftBody w f t) := by
  unfold draftBody
  repeat' (first
    | with_reducible assumption | with_reducible apply Keeps.ite | with_reducible apply storeScratch_keeps
    | with_reducible apply bump_keeps | with_reducible apply onStream_keeps | with_reducible apply lookupError_keeps
    | with_reducible apply dropCands_keeps | with_reducible apply makeAdvances_keeps
    | with_reducible apply putG_keeps
    | ((fail_if_success (fail_if_success with_reducible intro y)); first | with_reducible refine Keeps.letGoal (s := s0) ?_ (fun _ _ => ?_) | with_reducible intro y)
    | simp only [Keeps.put_iff] | lift_lets | split)

theorem actDraft_keeps {s0 t : State} (w f) (h : Keeps s0 t) :
    Keeps s0 (actDraft w f t) := by
  unfold actDraft
  repeat' (first
    | with_reducible assumption | with_reducible apply Keeps.ite | with_reducible apply waitOpen_keeps
    | with_reducible apply putStatus_keeps | with_reducible apply waitRetry_keeps | with_reducible apply buy_keeps
    | with_reducible apply draftBody_keeps | with_reducible apply Keeps.idf
    | ((fail_if_success (fail_if_success with_reducible intro y)); first | with_reducible refine Keeps.letGoal (s := s0) ?_ (fun _ _ => ?_) | with_reducible intro y)
    | with_reducible intro _ _ | simp only [Keeps.put_iff] | lift_lets | split)

theorem opDraft_keeps {s0 t : State} (w f u') (h : Keeps s0 t) :
    Keeps s0 ((opDraft w f u').act t) := by
  unfold opDraft
  dsimp only [pricedOp, plainOp, jumpOp, aluOp, predicateOp]
  repeat' (first
    | with_reducible assumption | with_reducible apply Keeps.ite | with_reducible apply actDraft_keeps
    | ((fail_if_success (fail_if_success with_reducible intro y)); first | with_reducible refine Keeps.letGoal (s := s0) ?_ (fun _ _ => ?_) | with_reducible intro y)
    | simp only [Keeps.put_iff] | lift_lets | split)

theorem execDraft_keeps {s0 t : State} (w f) (h : Keeps s0 t) :
    OKeeps s0 (execDraft w f t) := by
  unfold execDraft
  repeat' (first
    | with_reducible assumption | with_reducible apply OKeeps.next | with_reducible exact OKeeps.refused _
    | with_reducible apply OKeeps.ite | with_reducible apply Keeps.ite | with_reducible apply issue_keeps
    | with_reducible apply opDraft_keeps | with_reducible apply Keeps.idf
    | ((fail_if_success (fail_if_success with_reducible intro y)); first | with_reducible refine Keeps.letGoal (s := s0) ?_ (fun _ _ => ?_) | with_reducible intro y)
    | with_reducible intro _ _ | simp only [Keeps.put_iff] | lift_lets | split)

theorem actPick_keeps {s0 t : State} (w f) (h : Keeps s0 t) :
    Keeps s0 (actPick w f t) := by
  unfold actPick
  repeat' (first
    | with_reducible assumption | with_reducible apply Keeps.ite | with_reducible apply putStatus_keeps
    | with_reducible apply storeScratch_keeps
    | ((fail_if_success (fail_if_success with_reducible intro y)); first | with_reducible refine Keeps.letGoal (s := s0) ?_ (fun _ _ => ?_) | with_reducible intro y)
    | simp only [Keeps.put_iff] | lift_lets | split)

theorem opPick_keeps {s0 t : State} (w f) (h : Keeps s0 t) :
    Keeps s0 ((opPick w f).act t) := by
  unfold opPick
  dsimp only [pricedOp, plainOp, jumpOp, aluOp, predicateOp]
  repeat' (first
    | with_reducible assumption | with_reducible apply Keeps.ite | with_reducible apply actPick_keeps
    | ((fail_if_success (fail_if_success with_reducible intro y)); first | with_reducible refine Keeps.letGoal (s := s0) ?_ (fun _ _ => ?_) | with_reducible intro y)
    | simp only [Keeps.put_iff] | lift_lets | split)

theorem execPick_keeps {s0 t : State} (w f) (h : Keeps s0 t) :
    OKeeps s0 (execPick w f t) := by
  unfold execPick
  repeat' (first
    | with_reducible assumption | with_reducible apply OKeeps.next | with_reducible exact OKeeps.refused _
    | with_reducible apply OKeeps.ite | with_reducible apply Keeps.ite | with_reducible apply issue_keeps
    | with_reducible apply opPick_keeps | with_reducible apply Keeps.idf
    | ((fail_if_success (fail_if_success with_reducible intro y)); first | with_reducible refine Keeps.letGoal (s := s0) ?_ (fun _ _ => ?_) | with_reducible intro y)
    | with_reducible intro _ _ | simp only [Keeps.put_iff] | lift_lets | split)

theorem actPrice_keeps {s0 t : State} (w f) (h : Keeps s0 t) :
    Keeps s0 (actPrice w f t) := by
  unfold actPrice
  repeat' (first
    | with_reducible assumption | with_reducible apply Keeps.ite | with_reducible apply putG_keeps
    | with_reducible apply putStatus_keeps
    | ((fail_if_success (fail_if_success with_reducible intro y)); first | with_reducible refine Keeps.letGoal (s := s0) ?_ (fun _ _ => ?_) | with_reducible intro y)
    | simp only [Keeps.put_iff] | lift_lets | split)

theorem opPrice1_keeps {s0 t : State} (w f) (h : Keeps s0 t) :
    Keeps s0 ((opPrice1 w f).act t) := by
  unfold opPrice1
  dsimp only [pricedOp, plainOp, jumpOp, aluOp, predicateOp]
  repeat' (first
    | with_reducible assumption | with_reducible apply Keeps.ite | with_reducible apply actPrice_keeps
    | ((fail_if_success (fail_if_success with_reducible intro y)); first | with_reducible refine Keeps.letGoal (s := s0) ?_ (fun _ _ => ?_) | with_reducible intro y)
    | simp only [Keeps.put_iff] | lift_lets | split)

theorem execPrice_keeps {s0 t : State} (w f) (h : Keeps s0 t) :
    OKeeps s0 (execPrice w f t) := by
  unfold execPrice
  repeat' (first
    | with_reducible assumption | with_reducible apply OKeeps.next | with_reducible exact OKeeps.refused _
    | with_reducible apply OKeeps.ite | with_reducible apply Keeps.ite | with_reducible apply issue_keeps
    | with_reducible apply opPrice1_keeps | with_reducible apply Keeps.idf
    | ((fail_if_success (fail_if_success with_reducible intro y)); first | with_reducible refine Keeps.letGoal (s := s0) ?_ (fun _ _ => ?_) | with_reducible intro y)
    | with_reducible intro _ _ | simp only [Keeps.put_iff] | lift_lets | split)

end Sys2Proof.Machine
end

