-- ==== Sys2Proof/Laws/Keep/Work.lean ====
section
/-!
SUPPORT. What the definitions of Machine/Work.lean leave as it was.
-/

namespace Sys2Proof.Machine

set_option linter.unusedTactic false
set_option linter.unreachableTactic false
set_option linter.unusedSimpArgs false

theorem takeItem_keeps {s0 t : State} (w stream n) (h : Keeps s0 t) :
    Keeps s0 (takeItem w stream n t) := by
  unfold takeItem
  repeat' (first
    | with_reducible assumption | with_reducible apply Keeps.ite | with_reducible apply endOwned_keeps
    | with_reducible apply onItem_keeps | with_reducible apply onThread_keeps
    | ((fail_if_success (fail_if_success with_reducible intro y)); first | with_reducible refine Keeps.letGoal (s := s0) ?_ (fun _ _ => ?_) | with_reducible intro y)
    | simp only [Keeps.put_iff] | lift_lets | split)

theorem actPost_keeps {s0 t : State} (w f) (h : Keeps s0 t) :
    Keeps s0 (actPost w f t) := by
  unfold actPost
  repeat' (first
    | with_reducible assumption | with_reducible apply Keeps.ite | with_reducible apply faultThread_keeps
    | with_reducible apply putStatus_keeps | with_reducible apply sweep_keeps | with_reducible apply putG_keeps
    | with_reducible apply takeItem_keeps | with_reducible apply waitOpen_keeps | with_reducible apply journal_keeps
    | with_reducible apply waitBusy_keeps
    | ((fail_if_success (fail_if_success with_reducible intro y)); first | with_reducible refine Keeps.letGoal (s := s0) ?_ (fun _ _ => ?_) | with_reducible intro y)
    | simp only [Keeps.put_iff] | lift_lets | split)

theorem opPost_keeps {s0 t : State} (w f) (h : Keeps s0 t) :
    Keeps s0 ((opPost w f).act t) := by
  unfold opPost
  dsimp only [pricedOp, plainOp, jumpOp, aluOp, predicateOp]
  repeat' (first
    | with_reducible assumption | with_reducible apply Keeps.ite | with_reducible apply actPost_keeps
    | ((fail_if_success (fail_if_success with_reducible intro y)); first | with_reducible refine Keeps.letGoal (s := s0) ?_ (fun _ _ => ?_) | with_reducible intro y)
    | simp only [Keeps.put_iff] | lift_lets | split)

theorem execPost_keeps {s0 t : State} (w f) (h : Keeps s0 t) :
    OKeeps s0 (execPost w f t) := by
  unfold execPost
  repeat' (first
    | with_reducible assumption | with_reducible apply OKeeps.next | with_reducible exact OKeeps.refused _
    | with_reducible apply OKeeps.ite | with_reducible apply Keeps.ite | with_reducible apply issue_keeps
    | with_reducible apply opPost_keeps | with_reducible apply Keeps.idf
    | ((fail_if_success (fail_if_success with_reducible intro y)); first | with_reducible refine Keeps.letGoal (s := s0) ?_ (fun _ _ => ?_) | with_reducible intro y)
    | with_reducible intro _ _ | simp only [Keeps.put_iff] | lift_lets | split)

theorem postDone_keeps {s0 t : State} (w d n) (h : Keeps s0 t) :
    Keeps s0 (postDone w d n t) := by
  unfold postDone
  repeat' (first
    | with_reducible assumption | with_reducible apply Keeps.ite | with_reducible apply bump_keeps
    | with_reducible apply addItem_keeps | with_reducible apply onStream_keeps
    | with_reducible apply answerThread_keeps | with_reducible apply takeItem_keeps
    | with_reducible apply onItem_keeps
    | ((fail_if_success (fail_if_success with_reducible intro y)); first | with_reducible refine Keeps.letGoal (s := s0) ?_ (fun _ _ => ?_) | with_reducible intro y)
    | simp only [Keeps.put_iff] | lift_lets | split)

theorem actPay_keeps {s0 t : State} (w f) (h : Keeps s0 t) :
    Keeps s0 (actPay w f t) := by
  unfold actPay
  repeat' (first
    | with_reducible assumption | with_reducible apply Keeps.ite | with_reducible apply putStatus_keeps
    | with_reducible apply waitOpen_keeps | with_reducible apply journal_keeps | with_reducible apply onStream_keeps
    | with_reducible apply waitBusy_keeps
    | ((fail_if_success (fail_if_success with_reducible intro y)); first | with_reducible refine Keeps.letGoal (s := s0) ?_ (fun _ _ => ?_) | with_reducible intro y)
    | simp only [Keeps.put_iff] | lift_lets | split)

theorem opPay_keeps {s0 t : State} (w f) (h : Keeps s0 t) :
    Keeps s0 ((opPay w f).act t) := by
  unfold opPay
  dsimp only [pricedOp, plainOp, jumpOp, aluOp, predicateOp]
  repeat' (first
    | with_reducible assumption | with_reducible apply Keeps.ite | with_reducible apply actPay_keeps
    | ((fail_if_success (fail_if_success with_reducible intro y)); first | with_reducible refine Keeps.letGoal (s := s0) ?_ (fun _ _ => ?_) | with_reducible intro y)
    | simp only [Keeps.put_iff] | lift_lets | split)

theorem execPay_keeps {s0 t : State} (w f) (h : Keeps s0 t) :
    OKeeps s0 (execPay w f t) := by
  unfold execPay
  repeat' (first
    | with_reducible assumption | with_reducible apply OKeeps.next | with_reducible exact OKeeps.refused _
    | with_reducible apply OKeeps.ite | with_reducible apply Keeps.ite | with_reducible apply issue_keeps
    | with_reducible apply opPay_keeps | with_reducible apply Keeps.idf
    | ((fail_if_success (fail_if_success with_reducible intro y)); first | with_reducible refine Keeps.letGoal (s := s0) ?_ (fun _ _ => ?_) | with_reducible intro y)
    | with_reducible intro _ _ | simp only [Keeps.put_iff] | lift_lets | split)

theorem dropItem_keeps {s0 t : State} (w n) (h : Keeps s0 t) :
    Keeps s0 (dropItem w n t) := by
  unfold dropItem
  repeat' (first
    | with_reducible assumption | with_reducible apply Keeps.ite | with_reducible apply onItem_keeps
    | with_reducible apply onThread_keeps
    | ((fail_if_success (fail_if_success with_reducible intro y)); first | with_reducible refine Keeps.letGoal (s := s0) ?_ (fun _ _ => ?_) | with_reducible intro y)
    | simp only [Keeps.put_iff] | lift_lets | split)

theorem settleDone_keeps {s0 t : State} (w d n) (h : Keeps s0 t) :
    Keeps s0 (settleDone w d n t) := by
  unfold settleDone
  repeat' (first
    | with_reducible assumption | with_reducible apply Keeps.ite | with_reducible apply answerThread_keeps
    | with_reducible apply dropItem_keeps | with_reducible apply onItem_keeps
    | ((fail_if_success (fail_if_success with_reducible intro y)); first | with_reducible refine Keeps.letGoal (s := s0) ?_ (fun _ _ => ?_) | with_reducible intro y)
    | simp only [Keeps.put_iff] | lift_lets | split)

theorem actSettle_keeps {s0 t : State} (w f) (h : Keeps s0 t) :
    Keeps s0 (actSettle w f t) := by
  unfold actSettle
  repeat' (first
    | with_reducible assumption | with_reducible apply Keeps.ite | with_reducible apply putStatus_keeps
    | with_reducible apply waitOpen_keeps | with_reducible apply sweep_keeps | with_reducible apply completeAs_keeps
    | with_reducible apply waitBusy_keeps | with_reducible apply dropItem_keeps
    | ((fail_if_success (fail_if_success with_reducible intro y)); first | with_reducible refine Keeps.letGoal (s := s0) ?_ (fun _ _ => ?_) | with_reducible intro y)
    | simp only [Keeps.put_iff] | lift_lets | split)

theorem opSettle_keeps {s0 t : State} (w f) (h : Keeps s0 t) :
    Keeps s0 ((opSettle w f).act t) := by
  unfold opSettle
  dsimp only [pricedOp, plainOp, jumpOp, aluOp, predicateOp]
  repeat' (first
    | with_reducible assumption | with_reducible apply Keeps.ite | with_reducible apply actSettle_keeps
    | ((fail_if_success (fail_if_success with_reducible intro y)); first | with_reducible refine Keeps.letGoal (s := s0) ?_ (fun _ _ => ?_) | with_reducible intro y)
    | simp only [Keeps.put_iff] | lift_lets | split)

theorem execSettle_keeps {s0 t : State} (w f) (h : Keeps s0 t) :
    OKeeps s0 (execSettle w f t) := by
  unfold execSettle
  repeat' (first
    | with_reducible assumption | with_reducible apply OKeeps.next | with_reducible exact OKeeps.refused _
    | with_reducible apply OKeeps.ite | with_reducible apply Keeps.ite | with_reducible apply issue_keeps
    | with_reducible apply opSettle_keeps | with_reducible apply Keeps.idf
    | ((fail_if_success (fail_if_success with_reducible intro y)); first | with_reducible refine Keeps.letGoal (s := s0) ?_ (fun _ _ => ?_) | with_reducible intro y)
    | with_reducible intro _ _ | simp only [Keeps.put_iff] | lift_lets | split)

theorem takeEntry_keeps {s0 t : State} (w f) (h : Keeps s0 t) :
    Keeps s0 (takeEntry w f t) := by
  unfold takeEntry
  repeat' (first
    | with_reducible assumption | with_reducible apply Keeps.ite | with_reducible apply waitRetry_keeps
    | with_reducible apply putG_keeps | with_reducible apply faultThread_keeps
    | with_reducible apply storeScratch_keeps
    | ((fail_if_success (fail_if_success with_reducible intro y)); first | with_reducible refine Keeps.letGoal (s := s0) ?_ (fun _ _ => ?_) | with_reducible intro y)
    | simp only [Keeps.put_iff] | lift_lets | split)

theorem actDnext_keeps {s0 t : State} (w f) (h : Keeps s0 t) :
    Keeps s0 (actDnext w f t) := by
  unfold actDnext
  repeat' (first
    | with_reducible assumption | with_reducible apply Keeps.ite | with_reducible apply waitRetry_keeps
    | with_reducible apply putG_keeps | with_reducible apply faultThread_keeps
    | with_reducible apply storeScratch_keeps | with_reducible apply takeEntry_keeps
    | with_reducible refine Keeps.foldl _ ?_ (fun _ _ _ => ?_)
    | ((fail_if_success (fail_if_success with_reducible intro y)); first | with_reducible refine Keeps.letGoal (s := s0) ?_ (fun _ _ => ?_) | with_reducible intro y)
    | simp only [Keeps.put_iff] | lift_lets | split)

theorem opDnext_keeps {s0 t : State} (w f) (h : Keeps s0 t) :
    Keeps s0 ((opDnext w f).act t) := by
  unfold opDnext
  dsimp only [pricedOp, plainOp, jumpOp, aluOp, predicateOp]
  repeat' (first
    | with_reducible assumption | with_reducible apply Keeps.ite | with_reducible apply actDnext_keeps
    | ((fail_if_success (fail_if_success with_reducible intro y)); first | with_reducible refine Keeps.letGoal (s := s0) ?_ (fun _ _ => ?_) | with_reducible intro y)
    | simp only [Keeps.put_iff] | lift_lets | split)

theorem execDnext_keeps {s0 t : State} (w f) (h : Keeps s0 t) :
    OKeeps s0 (execDnext w f t) := by
  unfold execDnext
  repeat' (first
    | with_reducible assumption | with_reducible apply OKeeps.next | with_reducible exact OKeeps.refused _
    | with_reducible apply OKeeps.ite | with_reducible apply Keeps.ite | with_reducible apply issue_keeps
    | with_reducible apply opDnext_keeps | with_reducible apply Keeps.idf
    | ((fail_if_success (fail_if_success with_reducible intro y)); first | with_reducible refine Keeps.letGoal (s := s0) ?_ (fun _ _ => ?_) | with_reducible intro y)
    | with_reducible intro _ _ | simp only [Keeps.put_iff] | lift_lets | split)

theorem actWaitt_keeps {s0 t : State} (w f) (h : Keeps s0 t) :
    Keeps s0 (actWaitt w f t) := by
  unfold actWaitt
  repeat' (first
    | with_reducible assumption | with_reducible apply Keeps.ite | with_reducible apply putStatus_keeps
    | with_reducible apply putG_keeps | with_reducible apply waitRetry_keeps
    | ((fail_if_success (fail_if_success with_reducible intro y)); first | with_reducible refine Keeps.letGoal (s := s0) ?_ (fun _ _ => ?_) | with_reducible intro y)
    | simp only [Keeps.put_iff] | lift_lets | split)

theorem opWaitt_keeps {s0 t : State} (w f) (h : Keeps s0 t) :
    Keeps s0 ((opWaitt w f).act t) := by
  unfold opWaitt
  dsimp only [pricedOp, plainOp, jumpOp, aluOp, predicateOp]
  repeat' (first
    | with_reducible assumption | with_reducible apply Keeps.ite | with_reducible apply actWaitt_keeps
    | ((fail_if_success (fail_if_success with_reducible intro y)); first | with_reducible refine Keeps.letGoal (s := s0) ?_ (fun _ _ => ?_) | with_reducible intro y)
    | simp only [Keeps.put_iff] | lift_lets | split)

theorem execWaitt_keeps {s0 t : State} (w f) (h : Keeps s0 t) :
    OKeeps s0 (execWaitt w f t) := by
  unfold execWaitt
  repeat' (first
    | with_reducible assumption | with_reducible apply OKeeps.next | with_reducible exact OKeeps.refused _
    | with_reducible apply OKeeps.ite | with_reducible apply Keeps.ite | with_reducible apply issue_keeps
    | with_reducible apply opWaitt_keeps | with_reducible apply Keeps.idf
    | ((fail_if_success (fail_if_success with_reducible intro y)); first | with_reducible refine Keeps.letGoal (s := s0) ?_ (fun _ _ => ?_) | with_reducible intro y)
    | with_reducible intro _ _ | simp only [Keeps.put_iff] | lift_lets | split)

theorem actTpoll_keeps {s0 t : State} (w f) (h : Keeps s0 t) :
    Keeps s0 (actTpoll w f t) := by
  unfold actTpoll
  repeat' (first
    | with_reducible assumption | with_reducible apply Keeps.ite | with_reducible apply putStatus_keeps
    | with_reducible apply putG_keeps
    | ((fail_if_success (fail_if_success with_reducible intro y)); first | with_reducible refine Keeps.letGoal (s := s0) ?_ (fun _ _ => ?_) | with_reducible intro y)
    | simp only [Keeps.put_iff] | lift_lets | split)

theorem opTpoll_keeps {s0 t : State} (w f) (h : Keeps s0 t) :
    Keeps s0 ((opTpoll w f).act t) := by
  unfold opTpoll
  dsimp only [pricedOp, plainOp, jumpOp, aluOp, predicateOp]
  repeat' (first
    | with_reducible assumption | with_reducible apply Keeps.ite | with_reducible apply actTpoll_keeps
    | ((fail_if_success (fail_if_success with_reducible intro y)); first | with_reducible refine Keeps.letGoal (s := s0) ?_ (fun _ _ => ?_) | with_reducible intro y)
    | simp only [Keeps.put_iff] | lift_lets | split)

theorem execTpoll_keeps {s0 t : State} (w f) (h : Keeps s0 t) :
    OKeeps s0 (execTpoll w f t) := by
  unfold execTpoll
  repeat' (first
    | with_reducible assumption | with_reducible apply OKeeps.next | with_reducible exact OKeeps.refused _
    | with_reducible apply OKeeps.ite | with_reducible apply Keeps.ite | with_reducible apply issue_keeps
    | with_reducible apply opTpoll_keeps | with_reducible apply Keeps.idf
    | ((fail_if_success (fail_if_success with_reducible intro y)); first | with_reducible refine Keeps.letGoal (s := s0) ?_ (fun _ _ => ?_) | with_reducible intro y)
    | with_reducible intro _ _ | simp only [Keeps.put_iff] | lift_lets | split)

theorem actWaitb_keeps {s0 t : State} (w f) (h : Keeps s0 t) :
    Keeps s0 (actWaitb w f t) := by
  unfold actWaitb
  repeat' (first
    | with_reducible assumption | with_reducible apply Keeps.ite | with_reducible apply putStatus_keeps
    | with_reducible apply waitRetry_keeps
    | ((fail_if_success (fail_if_success with_reducible intro y)); first | with_reducible refine Keeps.letGoal (s := s0) ?_ (fun _ _ => ?_) | with_reducible intro y)
    | simp only [Keeps.put_iff] | lift_lets | split)

theorem opWaitb_keeps {s0 t : State} (w f) (h : Keeps s0 t) :
    Keeps s0 ((opWaitb w f).act t) := by
  unfold opWaitb
  dsimp only [pricedOp, plainOp, jumpOp, aluOp, predicateOp]
  repeat' (first
    | with_reducible assumption | with_reducible apply Keeps.ite | with_reducible apply actWaitb_keeps
    | ((fail_if_success (fail_if_success with_reducible intro y)); first | with_reducible refine Keeps.letGoal (s := s0) ?_ (fun _ _ => ?_) | with_reducible intro y)
    | simp only [Keeps.put_iff] | lift_lets | split)

theorem execWaitb_keeps {s0 t : State} (w f) (h : Keeps s0 t) :
    OKeeps s0 (execWaitb w f t) := by
  unfold execWaitb
  repeat' (first
    | with_reducible assumption | with_reducible apply OKeeps.next | with_reducible exact OKeeps.refused _
    | with_reducible apply OKeeps.ite | with_reducible apply Keeps.ite | with_reducible apply issue_keeps
    | with_reducible apply opWaitb_keeps | with_reducible apply Keeps.idf
    | ((fail_if_success (fail_if_success with_reducible intro y)); first | with_reducible refine Keeps.letGoal (s := s0) ?_ (fun _ _ => ?_) | with_reducible intro y)
    | with_reducible intro _ _ | simp only [Keeps.put_iff] | lift_lets | split)

theorem retryAct_keeps {s0 t : State} (i) (h : Keeps s0 t) :
    Keeps s0 (retryAct i t) := by
  unfold retryAct
  repeat' (first
    | with_reducible assumption | with_reducible apply Keeps.ite | with_reducible apply actSopen_keeps
    | with_reducible apply actSfeed_keeps | with_reducible apply actSclose_keeps
    | with_reducible apply actFlow_keeps | with_reducible apply actEmit_keeps | with_reducible apply actMask_keeps
    | with_reducible apply actNext_keeps | with_reducible apply actDraft_keeps | with_reducible apply actPost_keeps
    | with_reducible apply actPay_keeps | with_reducible apply actSettle_keeps | with_reducible apply actDnext_keeps
    | with_reducible apply actWaitt_keeps | with_reducible apply actWaitb_keeps
    | ((fail_if_success (fail_if_success with_reducible intro y)); first | with_reducible refine Keeps.letGoal (s := s0) ?_ (fun _ _ => ?_) | with_reducible intro y)
    | simp only [Keeps.put_iff] | lift_lets | split)

theorem wakeThread_keeps {s0 t : State} (p w) (h : Keeps s0 t) :
    Keeps s0 (wakeThread p t w) := by
  unfold wakeThread
  repeat' (first
    | with_reducible assumption | with_reducible apply Keeps.ite | with_reducible apply retryAct_keeps
    | ((fail_if_success (fail_if_success with_reducible intro y)); first | with_reducible refine Keeps.letGoal (s := s0) ?_ (fun _ _ => ?_) | with_reducible intro y)
    | simp only [Keeps.put_iff] | lift_lets | split)

theorem wakeClerk_keeps {s0 t : State} (p c) (h : Keeps s0 t) :
    Keeps s0 (wakeClerk p c t) := by
  unfold wakeClerk
  repeat' (first
    | with_reducible assumption | with_reducible apply Keeps.ite | with_reducible apply wakeThread_keeps
    | with_reducible refine Keeps.foldl _ ?_ (fun _ _ _ => ?_)
    | ((fail_if_success (fail_if_success with_reducible intro y)); first | with_reducible refine Keeps.letGoal (s := s0) ?_ (fun _ _ => ?_) | with_reducible intro y)
    | simp only [Keeps.put_iff] | lift_lets | split)

theorem wakeAll_keeps {s0 t : State} (p) (h : Keeps s0 t) :
    Keeps s0 (wakeAll p t) := by
  unfold wakeAll
  repeat' (first
    | with_reducible assumption | with_reducible apply Keeps.ite | with_reducible apply wakeThread_keeps
    | with_reducible refine Keeps.foldl _ ?_ (fun _ _ _ => ?_)
    | ((fail_if_success (fail_if_success with_reducible intro y)); first | with_reducible refine Keeps.letGoal (s := s0) ?_ (fun _ _ => ?_) | with_reducible intro y)
    | simp only [Keeps.put_iff] | lift_lets | split)

end Sys2Proof.Machine
end

