-- ==== Sys2Proof/Laws/Keep/Daybook.lean ====
section
/-!
SUPPORT. What the definitions of Machine/Daybook.lean leave as it was.
-/

namespace Sys2Proof.Machine

set_option linter.unusedTactic false
set_option linter.unreachableTactic false
set_option linter.unusedSimpArgs false

theorem onFetch_keeps {s0 t : State} (k g) (h : Keeps s0 t) :
    Keeps s0 (onFetch k g t) := by
  unfold onFetch
  repeat' (first
    | with_reducible assumption | with_reducible apply Keeps.ite
    | ((fail_if_success (fail_if_success with_reducible intro y)); first | with_reducible refine Keeps.letGoal (s := s0) ?_ (fun _ _ => ?_) | with_reducible intro y)
    | simp only [Keeps.put_iff] | lift_lets | split)

theorem readPage_keeps {s0 t : State} (c) (h : Keeps s0 t) :
    Keeps s0 (readPage c t) := by
  unfold readPage
  repeat' (first
    | with_reducible assumption | with_reducible apply Keeps.ite | with_reducible apply startAccess_keeps
    | with_reducible apply onFetch_keeps
    | ((fail_if_success (fail_if_success with_reducible intro y)); first | with_reducible refine Keeps.letGoal (s := s0) ?_ (fun _ _ => ?_) | with_reducible intro y)
    | simp only [Keeps.put_iff] | lift_lets | split)

theorem endFetch_keeps {s0 t : State} (f) (h : Keeps s0 t) :
    Keeps s0 (endFetch f t) := by
  unfold endFetch
  repeat' (first
    | with_reducible assumption | with_reducible apply Keeps.ite | with_reducible apply readPage_keeps
    | ((fail_if_success (fail_if_success with_reducible intro y)); first | with_reducible refine Keeps.letGoal (s := s0) ?_ (fun _ _ => ?_) | with_reducible intro y)
    | simp only [Keeps.put_iff] | lift_lets | split)

theorem nextSlot_keeps {s0 t : State} (f) (h : Keeps s0 t) :
    Keeps s0 (nextSlot f t) := by
  unfold nextSlot
  repeat' (first
    | with_reducible assumption | with_reducible apply Keeps.ite | with_reducible apply endFetch_keeps
    | with_reducible apply readPage_keeps | with_reducible apply onFetch_keeps
    | ((fail_if_success (fail_if_success with_reducible intro y)); first | with_reducible refine Keeps.letGoal (s := s0) ?_ (fun _ _ => ?_) | with_reducible intro y)
    | simp only [Keeps.put_iff] | lift_lets | split)

theorem openPage_keeps {s0 t : State} (c step) (h : Keeps s0 t) :
    Keeps s0 (openPage c step t) := by
  unfold openPage
  repeat' (first
    | with_reducible assumption | with_reducible apply Keeps.ite | with_reducible apply readPage_keeps
    | ((fail_if_success (fail_if_success with_reducible intro y)); first | with_reducible refine Keeps.letGoal (s := s0) ?_ (fun _ _ => ?_) | with_reducible intro y)
    | simp only [Keeps.put_iff] | lift_lets | split)

theorem openReached_keeps {s0 t : State} (p c) (h : Keeps s0 t) :
    Keeps s0 (openReached p t c) := by
  unfold openReached
  repeat' (first
    | with_reducible assumption | with_reducible apply Keeps.ite | with_reducible apply bump_keeps
    | ((fail_if_success (fail_if_success with_reducible intro y)); first | with_reducible refine Keeps.letGoal (s := s0) ?_ (fun _ _ => ?_) | with_reducible intro y)
    | simp only [Keeps.put_iff] | lift_lets | split)

theorem markOpened_keeps {s0 t : State} (p) (h : Keeps s0 t) :
    Keeps s0 (markOpened p t) := by
  unfold markOpened
  repeat' (first
    | with_reducible assumption | with_reducible apply Keeps.ite | with_reducible apply openReached_keeps
    | with_reducible refine Keeps.foldl _ ?_ (fun _ _ _ => ?_)
    | ((fail_if_success (fail_if_success with_reducible intro y)); first | with_reducible refine Keeps.letGoal (s := s0) ?_ (fun _ _ => ?_) | with_reducible intro y)
    | simp only [Keeps.put_iff] | lift_lets | split)

theorem deferEntry_keeps {s0 t : State} (f bs) (h : Keeps s0 t) :
    Keeps s0 (deferEntry f bs t) := by
  unfold deferEntry
  repeat' (first
    | with_reducible assumption | with_reducible apply Keeps.ite | with_reducible apply bump_keeps
    | with_reducible apply onFetch_keeps
    | ((fail_if_success (fail_if_success with_reducible intro y)); first | with_reducible refine Keeps.letGoal (s := s0) ?_ (fun _ _ => ?_) | with_reducible intro y)
    | simp only [Keeps.put_iff] | lift_lets | split)

theorem offerEntry_keeps {s0 t : State} (f bs room) (h : Keeps s0 t) :
    Keeps s0 (offerEntry f bs room t) := by
  unfold offerEntry
  repeat' (first
    | with_reducible assumption | with_reducible apply Keeps.ite | with_reducible apply nextSlot_keeps
    | with_reducible apply reachTeller_keeps | with_reducible apply deferEntry_keeps
    | with_reducible apply wakeClerk_keeps | with_reducible apply dayError_keeps
    | ((fail_if_success (fail_if_success with_reducible intro y)); first | with_reducible refine Keeps.letGoal (s := s0) ?_ (fun _ _ => ?_) | with_reducible intro y)
    | simp only [Keeps.put_iff] | lift_lets | split)

theorem pageLine_keeps {s0 t : State} (k slot status data) (h : Keeps s0 t) :
    Keeps s0 (pageLine k slot status data t) := by
  unfold pageLine
  repeat' (first
    | with_reducible assumption | with_reducible apply Keeps.ite | with_reducible apply nextSlot_keeps
    | with_reducible apply dayError_keeps | with_reducible apply endFetch_keeps | with_reducible apply bump_keeps
    | with_reducible apply offerEntry_keeps
    | ((fail_if_success (fail_if_success with_reducible intro y)); first | with_reducible refine Keeps.letGoal (s := s0) ?_ (fun _ _ => ?_) | with_reducible intro y)
    | simp only [Keeps.put_iff] | lift_lets | split)

theorem resumeFetch_keeps {s0 t : State} (room c) (h : Keeps s0 t) :
    Keeps s0 (resumeFetch room c t) := by
  unfold resumeFetch
  repeat' (first
    | with_reducible assumption | with_reducible apply Keeps.ite | with_reducible apply offerEntry_keeps
    | ((fail_if_success (fail_if_success with_reducible intro y)); first | with_reducible refine Keeps.letGoal (s := s0) ?_ (fun _ _ => ?_) | with_reducible intro y)
    | simp only [Keeps.put_iff] | lift_lets | split)

theorem execDaybookFetchResume_keeps {s0 t : State} (c) (h : Keeps s0 t) :
    OKeeps s0 (execDaybookFetchResume c t) := by
  unfold execDaybookFetchResume
  repeat' (first
    | with_reducible assumption | with_reducible apply OKeeps.next | with_reducible exact OKeeps.refused _
    | with_reducible apply OKeeps.ite | with_reducible apply Keeps.ite | with_reducible apply sweep_keeps
    | with_reducible apply resumeFetch_keeps
    | ((fail_if_success (fail_if_success with_reducible intro y)); first | with_reducible refine Keeps.letGoal (s := s0) ?_ (fun _ _ => ?_) | with_reducible intro y)
    | simp only [Keeps.put_iff] | lift_lets | split)

theorem roomAct_keeps {s0 t : State} (i) (h : Keeps s0 t) :
    Keeps s0 (roomAct i t) := by
  unfold roomAct
  repeat' (first
    | with_reducible assumption | with_reducible apply Keeps.ite | with_reducible apply actSfeed_keeps
    | with_reducible apply actFlow_keeps | with_reducible apply actEmit_keeps
    | ((fail_if_success (fail_if_success with_reducible intro y)); first | with_reducible refine Keeps.letGoal (s := s0) ?_ (fun _ _ => ?_) | with_reducible intro y)
    | simp only [Keeps.put_iff] | lift_lets | split)

theorem execInputQueueRoom_keeps {s0 t : State} (h') (h : Keeps s0 t) :
    OKeeps s0 (execInputQueueRoom h' t) := by
  unfold execInputQueueRoom
  repeat' (first
    | with_reducible assumption | with_reducible apply OKeeps.next | with_reducible exact OKeeps.refused _
    | with_reducible apply OKeeps.ite | with_reducible apply Keeps.ite | with_reducible apply sweep_keeps
    | with_reducible apply roomAct_keeps | with_reducible apply resumeFetch_keeps
    | ((fail_if_success (fail_if_success with_reducible intro y)); first | with_reducible refine Keeps.letGoal (s := s0) ?_ (fun _ _ => ?_) | with_reducible intro y)
    | simp only [Keeps.put_iff] | lift_lets | split)

end Sys2Proof.Machine
end

