-- ==== Sys2Proof/Laws/Keep/Beats.lean ====
section
/-!
SUPPORT. What the definitions of Machine/Beats.lean leave as it was.
-/

namespace Sys2Proof.Machine

set_option linter.unusedTactic false
set_option linter.unreachableTactic false
set_option linter.unusedSimpArgs false

theorem storeReg_keeps {s0 t : State} (off v) (h : Keeps s0 t) :
    Keeps s0 (storeReg off v t) := by
  unfold storeReg
  repeat' (first
    | with_reducible assumption | with_reducible apply Keeps.ite | with_reducible apply setReg_keeps
    | ((fail_if_success (fail_if_success with_reducible intro y)); first | with_reducible refine Keeps.letGoal (s := s0) ?_ (fun _ _ => ?_) | with_reducible intro y)
    | simp only [Keeps.put_iff] | lift_lets | split)

theorem BeatEvent.run_keeps {s0 t : State} (e) (h : Keeps s0 t) :
    Keeps s0 (BeatEvent.run e t) := by
  unfold BeatEvent.run
  repeat' (first
    | with_reducible assumption | with_reducible apply Keeps.ite | with_reducible apply openPage_keeps
    | with_reducible apply trySend_keeps | with_reducible apply retryPort_keeps
    | with_reducible apply wakeThread_keeps
    | ((fail_if_success (fail_if_success with_reducible intro y)); first | with_reducible refine Keeps.letGoal (s := s0) ?_ (fun _ _ => ?_) | with_reducible intro y)
    | simp only [Keeps.put_iff] | lift_lets | split)

theorem applyPosition_keeps {s0 t : State} (p) (h : Keeps s0 t) :
    Keeps s0 (applyPosition p t) := by
  unfold applyPosition
  repeat' (first
    | with_reducible assumption | with_reducible apply Keeps.ite | with_reducible apply wakeAll_keeps
    | with_reducible apply retryPort_keeps | with_reducible apply markOpened_keeps | with_reducible apply BeatEvent.run_keeps
    | with_reducible refine Keeps.foldl _ ?_ (fun _ _ _ => ?_)
    | ((fail_if_success (fail_if_success with_reducible intro y)); first | with_reducible refine Keeps.letGoal (s := s0) ?_ (fun _ _ => ?_) | with_reducible intro y)
    | simp only [Keeps.put_iff] | lift_lets | split)

theorem freeze_keeps {s0 t : State} (cause) (h : Keeps s0 t) :
    Keeps s0 (freeze cause t) := by
  unfold freeze
  repeat' (first
    | with_reducible assumption | with_reducible apply Keeps.ite | with_reducible apply wakeAll_keeps
    | ((fail_if_success (fail_if_success with_reducible intro y)); first | with_reducible refine Keeps.letGoal (s := s0) ?_ (fun _ _ => ?_) | with_reducible intro y)
    | simp only [Keeps.put_iff] | lift_lets | split)

theorem tracePosition_keeps {s0 t : State} (p) (h : Keeps s0 t) :
    Keeps s0 (tracePosition p t) := by
  unfold tracePosition
  repeat' (first
    | with_reducible assumption | with_reducible apply Keeps.ite | with_reducible apply writePacket_keeps
    | with_reducible apply writeTrace_keeps
    | ((fail_if_success (fail_if_success with_reducible intro y)); first | with_reducible refine Keeps.letGoal (s := s0) ?_ (fun _ _ => ?_) | with_reducible intro y)
    | simp only [Keeps.put_iff] | lift_lets | split)

theorem takePosition_keeps {s0 t : State} (p) (h : Keeps s0 t) :
    Keeps s0 (takePosition p t) := by
  unfold takePosition
  repeat' (first
    | with_reducible assumption | with_reducible apply Keeps.ite | with_reducible apply freeze_keeps
    | with_reducible apply setReg_keeps | with_reducible apply tracePosition_keeps
    | with_reducible apply applyPosition_keeps
    | ((fail_if_success (fail_if_success with_reducible intro y)); first | with_reducible refine Keeps.letGoal (s := s0) ?_ (fun _ _ => ?_) | with_reducible intro y)
    | simp only [Keeps.put_iff] | lift_lets | split)

theorem execBeatPositionTaken_keeps {s0 t : State} (p) (h : Keeps s0 t) :
    OKeeps s0 (execBeatPositionTaken p t) := by
  unfold execBeatPositionTaken
  repeat' (first
    | with_reducible assumption | with_reducible apply OKeeps.next | with_reducible exact OKeeps.refused _
    | with_reducible apply OKeeps.ite | with_reducible apply Keeps.ite | with_reducible apply sweep_keeps
    | with_reducible apply takePosition_keeps
    | ((fail_if_success (fail_if_success with_reducible intro y)); first | with_reducible refine Keeps.letGoal (s := s0) ?_ (fun _ _ => ?_) | with_reducible intro y)
    | simp only [Keeps.put_iff] | lift_lets | split)

theorem execBeatFreeze_keeps {s0 t : State} (h : Keeps s0 t) :
    OKeeps s0 (execBeatFreeze t) := by
  unfold execBeatFreeze
  repeat' (first
    | with_reducible assumption | with_reducible apply OKeeps.next | with_reducible exact OKeeps.refused _
    | with_reducible apply OKeeps.ite | with_reducible apply Keeps.ite | with_reducible apply viaPort_keeps
    | with_reducible apply sweep_keeps | with_reducible apply freeze_keeps
    | ((fail_if_success (fail_if_success with_reducible intro y)); first | with_reducible refine Keeps.letGoal (s := s0) ?_ (fun _ _ => ?_) | with_reducible intro y)
    | simp only [Keeps.put_iff] | lift_lets | split)

theorem withholdAhead_keeps {s0 t : State} (t') (h : Keeps s0 t) :
    Keeps s0 (withholdAhead t t') := by
  unfold withholdAhead
  repeat' (first
    | with_reducible assumption | with_reducible apply Keeps.ite | with_reducible apply completeItem_keeps
    | with_reducible apply report_keeps | with_reducible apply bump_keeps
    | ((fail_if_success (fail_if_success with_reducible intro y)); first | with_reducible refine Keeps.letGoal (s := s0) ?_ (fun _ _ => ?_) | with_reducible intro y)
    | simp only [Keeps.put_iff] | lift_lets | split)

theorem withholdHeld_keeps {s0 t : State} (h : Keeps s0 t) :
    Keeps s0 (withholdHeld t) := by
  unfold withholdHeld
  repeat' (first
    | with_reducible assumption | with_reducible apply Keeps.ite | with_reducible apply withhold_keeps
    | with_reducible apply discardEarly_keeps | with_reducible apply withholdAhead_keeps
    | with_reducible refine Keeps.foldl _ ?_ (fun _ _ _ => ?_)
    | ((fail_if_success (fail_if_success with_reducible intro y)); first | with_reducible refine Keeps.letGoal (s := s0) ?_ (fun _ _ => ?_) | with_reducible intro y)
    | simp only [Keeps.put_iff] | lift_lets | split)

theorem setNext_keeps {s0 t : State} (p) (h : Keeps s0 t) :
    Keeps s0 (setNext p t) := by
  unfold setNext
  repeat' (first
    | with_reducible assumption | with_reducible apply Keeps.ite
    | with_reducible refine Keeps.foldl _ ?_ (fun _ _ _ => ?_)
    | ((fail_if_success (fail_if_success with_reducible intro y)); first | with_reducible refine Keeps.letGoal (s := s0) ?_ (fun _ _ => ?_) | with_reducible intro y)
    | simp only [Keeps.put_iff] | lift_lets | split)

theorem rearm_keeps {s0 t : State} (h : Keeps s0 t) :
    Keeps s0 (rearm t) := by
  unfold rearm
  repeat' (first
    | with_reducible assumption | with_reducible apply Keeps.ite | with_reducible apply withholdHeld_keeps
    | with_reducible apply applyPosition_keeps | with_reducible apply setNext_keeps
    | ((fail_if_success (fail_if_success with_reducible intro y)); first | with_reducible refine Keeps.letGoal (s := s0) ?_ (fun _ _ => ?_) | with_reducible intro y)
    | simp only [Keeps.put_iff] | lift_lets | split)

theorem execBeatArm_keeps {s0 t : State} (h : Keeps s0 t) :
    OKeeps s0 (execBeatArm t) := by
  unfold execBeatArm
  repeat' (first
    | with_reducible assumption | with_reducible apply OKeeps.next | with_reducible exact OKeeps.refused _
    | with_reducible apply OKeeps.ite | with_reducible apply Keeps.ite | with_reducible apply viaPort_keeps
    | with_reducible apply sweep_keeps | with_reducible apply rearm_keeps
    | ((fail_if_success (fail_if_success with_reducible intro y)); first | with_reducible refine Keeps.letGoal (s := s0) ?_ (fun _ _ => ?_) | with_reducible intro y)
    | simp only [Keeps.put_iff] | lift_lets | split)

theorem writeBeatCfg_keeps {s0 t : State} (v) (h : Keeps s0 t) :
    Keeps s0 (writeBeatCfg v t) := by
  unfold writeBeatCfg
  repeat' (first
    | with_reducible assumption | with_reducible apply Keeps.ite | with_reducible apply storeReg_keeps
    | with_reducible apply setRegBit_keeps
    | ((fail_if_success (fail_if_success with_reducible intro y)); first | with_reducible refine Keeps.letGoal (s := s0) ?_ (fun _ _ => ?_) | with_reducible intro y)
    | simp only [Keeps.put_iff] | lift_lets | split)

theorem execBeatCfgWrite_keeps {s0 t : State} (v) (h : Keeps s0 t) :
    OKeeps s0 (execBeatCfgWrite v t) := by
  unfold execBeatCfgWrite
  repeat' (first
    | with_reducible assumption | with_reducible apply OKeeps.next | with_reducible exact OKeeps.refused _
    | with_reducible apply OKeeps.ite | with_reducible apply Keeps.ite | with_reducible apply viaPort_keeps
    | with_reducible apply writeBeatCfg_keeps
    | ((fail_if_success (fail_if_success with_reducible intro y)); first | with_reducible refine Keeps.letGoal (s := s0) ?_ (fun _ _ => ?_) | with_reducible intro y)
    | simp only [Keeps.put_iff] | lift_lets | split)

theorem writeDay_keeps {s0 t : State} (off v) (h : Keeps s0 t) :
    Keeps s0 (writeDay off v t) := by
  unfold writeDay
  repeat' (first
    | with_reducible assumption | with_reducible apply Keeps.ite | with_reducible apply setRegBit_keeps
    | with_reducible apply storeReg_keeps
    | ((fail_if_success (fail_if_success with_reducible intro y)); first | with_reducible refine Keeps.letGoal (s := s0) ?_ (fun _ _ => ?_) | with_reducible intro y)
    | simp only [Keeps.put_iff] | lift_lets | split)

theorem execDaybookConfigWrite_keeps {s0 t : State} (off v) (h : Keeps s0 t) :
    OKeeps s0 (execDaybookConfigWrite off v t) := by
  unfold execDaybookConfigWrite
  repeat' (first
    | with_reducible assumption | with_reducible apply OKeeps.next | with_reducible exact OKeeps.refused _
    | with_reducible apply OKeeps.ite | with_reducible apply Keeps.ite | with_reducible apply viaPort_keeps
    | with_reducible apply writeDay_keeps
    | ((fail_if_success (fail_if_success with_reducible intro y)); first | with_reducible refine Keeps.letGoal (s := s0) ?_ (fun _ _ => ?_) | with_reducible intro y)
    | simp only [Keeps.put_iff] | lift_lets | split)

end Sys2Proof.Machine
end

