-- ==== Sys2Proof/Laws/Keep/Window.lean ====
section
/-!
SUPPORT. What the definitions of Machine/Window.lean leave as it was.
-/

namespace Sys2Proof.Machine

set_option linter.unusedTactic false
set_option linter.unreachableTactic false
set_option linter.unusedSimpArgs false

theorem onRun_keeps {s0 t : State} (f) (h : Keeps s0 t) :
    Keeps s0 (onRun f t) := by
  unfold onRun
  repeat' (first
    | with_reducible assumption | with_reducible apply Keeps.ite
    | ((fail_if_success (fail_if_success with_reducible intro y)); first | with_reducible refine Keeps.letGoal (s := s0) ?_ (fun _ _ => ?_) | with_reducible intro y)
    | simp only [Keeps.put_iff] | lift_lets | split)

theorem setStage_keeps {s0 t : State} (st) (h : Keeps s0 t) :
    Keeps s0 (setStage st t) := by
  unfold setStage
  repeat' (first
    | with_reducible assumption | with_reducible apply Keeps.ite | with_reducible apply onRun_keeps
    | ((fail_if_success (fail_if_success with_reducible intro y)); first | with_reducible refine Keeps.letGoal (s := s0) ?_ (fun _ _ => ?_) | with_reducible intro y)
    | simp only [Keeps.put_iff] | lift_lets | split)

theorem endKeyed_keeps {s0 t : State} (status) (h : Keeps s0 t) :
    Keeps s0 (endKeyed status t) := by
  unfold endKeyed
  repeat' (first
    | with_reducible assumption | with_reducible apply Keeps.ite | with_reducible apply setReg_keeps
    | ((fail_if_success (fail_if_success with_reducible intro y)); first | with_reducible refine Keeps.letGoal (s := s0) ?_ (fun _ _ => ?_) | with_reducible intro y)
    | simp only [Keeps.put_iff] | lift_lets | split)

end Sys2Proof.Machine
end

