-- ==== Sys2Proof/Laws/Keep/Repair.lean ====
section
/-!
SUPPORT. What the definitions of Machine/Repair.lean leave as it was.
-/

namespace Sys2Proof.Machine

set_option linter.unusedTactic false
set_option linter.unreachableTactic false
set_option linter.unusedSimpArgs false

theorem bringBack_keeps {s0 t : State} (cls i) (h : Keeps s0 t) :
    Keeps s0 (bringBack cls i t) := by
  unfold bringBack
  repeat' (first
    | with_reducible assumption | with_reducible apply Keeps.ite | with_reducible apply bankBack_keeps
    | with_reducible apply moveStreams_keeps
    | ((fail_if_success (fail_if_success with_reducible intro y)); first | with_reducible refine Keeps.letGoal (s := s0) ?_ (fun _ _ => ?_) | with_reducible intro y)
    | simp only [Keeps.put_iff] | lift_lets | split)

theorem restoreUnit_keeps {s0 t : State} (cls i) (h : Keeps s0 t) :
    Keeps s0 (restoreUnit cls i t) := by
  unfold restoreUnit
  repeat' (first
    | with_reducible assumption | with_reducible apply Keeps.ite | with_reducible apply startOrWait_keeps
    | with_reducible apply bringBack_keeps
    | ((fail_if_success (fail_if_success with_reducible intro y)); first | with_reducible refine Keeps.letGoal (s := s0) ?_ (fun _ _ => ?_) | with_reducible intro y)
    | simp only [Keeps.put_iff] | lift_lets | split)

theorem askRail_keeps {s0 t : State} (mv who) (h : Keeps s0 t) :
    Keeps s0 (askRail mv who t) := by
  unfold askRail
  repeat' (first
    | with_reducible assumption | with_reducible apply Keeps.ite
    | ((fail_if_success (fail_if_success with_reducible intro y)); first | with_reducible refine Keeps.letGoal (s := s0) ?_ (fun _ _ => ?_) | with_reducible intro y)
    | simp only [Keeps.put_iff] | lift_lets | split)

theorem setMargin_keeps {s0 t : State} (d step mv) (h : Keeps s0 t) :
    Keeps s0 (setMargin d step mv t) := by
  unfold setMargin
  repeat' (first
    | with_reducible assumption | with_reducible apply Keeps.ite | with_reducible apply askRail_keeps
    | ((fail_if_success (fail_if_success with_reducible intro y)); first | with_reducible refine Keeps.letGoal (s := s0) ?_ (fun _ _ => ?_) | with_reducible intro y)
    | simp only [Keeps.put_iff] | lift_lets | split)

theorem applyRepair_keeps {s0 t : State} (r) (h : Keeps s0 t) :
    Keeps s0 (applyRepair r t).1 := by
  unfold applyRepair
  repeat' (first
    | with_reducible assumption | with_reducible apply Keeps.ite | with_reducible apply Keeps.fstIte
    | with_reducible apply remapRow_keeps
    | (refine Keeps.fstOf ?_ ‹remapRow _ _ _ _ _ = (_, _)›; with_reducible apply remapRow_keeps)
    | with_reducible apply retireUnit_keeps
    | (refine Keeps.fstOf ?_ ‹retireUnit _ _ _ = (_, _)›; with_reducible apply retireUnit_keeps)
    | with_reducible apply restoreUnit_keeps | with_reducible apply setMargin_keeps
    | ((fail_if_success (fail_if_success with_reducible intro y)); first | with_reducible refine Keeps.letGoal (s := s0) ?_ (fun _ _ => ?_) | with_reducible intro y)
    | simp only [Keeps.put_iff] | dsimp only | lift_lets | split)

theorem readCopy_keeps {s0 t : State} (k) (h : Keeps s0 t) :
    Keeps s0 (readCopy k t) := by
  unfold readCopy
  repeat' (first
    | with_reducible assumption | with_reducible apply Keeps.ite | with_reducible apply startAccess_keeps
    | ((fail_if_success (fail_if_success with_reducible intro y)); first | with_reducible refine Keeps.letGoal (s := s0) ?_ (fun _ _ => ?_) | with_reducible intro y)
    | simp only [Keeps.put_iff] | lift_lets | split)

theorem setCopy_keeps {s0 t : State} (k b) (h : Keeps s0 t) :
    Keeps s0 (setCopy k b t) := by
  unfold setCopy
  repeat' (first
    | with_reducible assumption | with_reducible apply Keeps.ite
    | ((fail_if_success (fail_if_success with_reducible intro y)); first | with_reducible refine Keeps.letGoal (s := s0) ?_ (fun _ _ => ?_) | with_reducible intro y)
    | simp only [Keeps.put_iff] | lift_lets | split)

theorem chooseMap_keeps {s0 t : State} (h : Keeps s0 t) :
    Keeps s0 (chooseMap t) := by
  unfold chooseMap
  repeat' (first
    | with_reducible assumption | with_reducible apply Keeps.ite | with_reducible apply setCopy_keeps
    | with_reducible apply setRegBit_keeps
    | ((fail_if_success (fail_if_success with_reducible intro y)); first | with_reducible refine Keeps.letGoal (s := s0) ?_ (fun _ _ => ?_) | with_reducible intro y)
    | simp only [Keeps.put_iff] | lift_lets | split)

theorem writeCopy_keeps {s0 t : State} (k other r) (h : Keeps s0 t) :
    Keeps s0 (writeCopy k other r t) := by
  unfold writeCopy
  repeat' (first
    | with_reducible assumption | with_reducible apply Keeps.ite | with_reducible apply startAccess_keeps
    | ((fail_if_success (fail_if_success with_reducible intro y)); first | with_reducible refine Keeps.letGoal (s := s0) ?_ (fun _ _ => ?_) | with_reducible intro y)
    | simp only [Keeps.put_iff] | lift_lets | split)

theorem commitRepair_keeps {s0 t : State} (r) (h : Keeps s0 t) :
    Keeps s0 (commitRepair r t) := by
  unfold commitRepair
  repeat' (first
    | with_reducible assumption | with_reducible apply Keeps.ite
    | ((fail_if_success (fail_if_success with_reducible intro y)); first | with_reducible refine Keeps.letGoal (s := s0) ?_ (fun _ _ => ?_) | with_reducible intro y)
    | simp only [Keeps.put_iff] | lift_lets | split)

theorem noteTorn_keeps {s0 t : State} (h : Keeps s0 t) :
    Keeps s0 (noteTorn t) := by
  unfold noteTorn
  repeat' (first
    | with_reducible assumption | with_reducible apply Keeps.ite | with_reducible apply setRegBit_keeps
    | ((fail_if_success (fail_if_success with_reducible intro y)); first | with_reducible refine Keeps.letGoal (s := s0) ?_ (fun _ _ => ?_) | with_reducible intro y)
    | simp only [Keeps.put_iff] | lift_lets | split)

theorem copyWritten_keeps {s0 t : State} (k other status) (h : Keeps s0 t) :
    Keeps s0 (copyWritten k other status t) := by
  unfold copyWritten
  repeat' (first
    | with_reducible assumption | with_reducible apply Keeps.ite | with_reducible apply setCopy_keeps
    | with_reducible apply setRegBit_keeps | with_reducible apply writeCopy_keeps
    | with_reducible apply endKeyed_keeps | with_reducible apply commitRepair_keeps
    | with_reducible apply noteTorn_keeps
    | ((fail_if_success (fail_if_success with_reducible intro y)); first | with_reducible refine Keeps.letGoal (s := s0) ?_ (fun _ _ => ?_) | with_reducible intro y)
    | simp only [Keeps.put_iff] | lift_lets | split)

theorem startRepair_keeps {s0 t : State} (run) (h : Keeps s0 t) :
    Keeps s0 (startRepair run t) := by
  unfold startRepair
  repeat' (first
    | with_reducible assumption | with_reducible apply Keeps.ite | with_reducible apply endKeyed_keeps
    | with_reducible apply refuseStart_keeps | with_reducible apply applyRepair_keeps
    | (refine Keeps.fstOf ?_ ‹applyRepair _ _ = (_, _)›; with_reducible apply applyRepair_keeps)
    | with_reducible apply writeCopy_keeps | with_reducible apply setStage_keeps | with_reducible apply onRun_keeps
    | ((fail_if_success (fail_if_success with_reducible intro y)); first | with_reducible refine Keeps.letGoal (s := s0) ?_ (fun _ _ => ?_) | with_reducible intro y)
    | simp only [Keeps.put_iff] | lift_lets | split)

end Sys2Proof.Machine
end

