-- ==== Sys2Proof/Laws/Keep/Mint.lean ====
section
/-!
SUPPORT. What the definitions of Machine/Mint.lean leave as it was.
-/

namespace Sys2Proof.Machine

set_option linter.unusedTactic false
set_option linter.unreachableTactic false
set_option linter.unusedSimpArgs false

theorem lookAhead_keeps {s0 : State} (ledger) (acc : List (List Byte) × State) (x : Resident × List Byte)
    (h : Keeps s0 acc.2) : Keeps s0 (lookAhead ledger acc x).2 := by
  unfold lookAhead
  dsimp only
  split
  · dsimp only
    exact bump_keeps _ _ h
  · split
    · dsimp only
      exact bump_keeps _ _ (bump_keeps _ _ h)
    · split
      · rename_i e
        have k : Keeps s0 _ := Keeps.fstOf (payBill_keeps _ h) e
        split
        · dsimp only
          exact bump_keeps _ _ (takeFree_keeps k)
        · dsimp only
          exact readError_keeps _ _ (noteBanks_keeps _ _ (bump64_keeps _ _ (takeFree_keeps k)))
      · dsimp only
        exact bump_keeps _ _ (bump_keeps _ _ h)

theorem prefetchQueued_keeps {s0 t : State} (h : Keeps s0 t) :
    Keeps s0 (prefetchQueued t) := by
  unfold prefetchQueued
  dsimp only
  split
  · refine Keeps.foldl _ (Keeps.put_iff.2 h) (fun u x k => ?_)
    exact Keeps.put_iff.2 (Keeps.foldSnd _ k (fun q y l => lookAhead_keeps _ q y l))
  · exact Keeps.put_iff.2 h

theorem mintEmit_keeps {s0 t : State} (t' words) (h : Keeps s0 t) :
    Keeps s0 (mintEmit t' words t) := by
  unfold mintEmit
  repeat' (first
    | with_reducible assumption | with_reducible apply Keeps.ite | with_reducible apply sendTokens_keeps
    | with_reducible apply bump_keeps | with_reducible apply setBuilding_keeps
    | with_reducible refine Keeps.foldl _ ?_ (fun _ _ _ => ?_)
    | ((fail_if_success (fail_if_success with_reducible intro y)); first | with_reducible refine Keeps.letGoal (s := s0) ?_ (fun _ _ => ?_) | with_reducible intro y)
    | simp only [Keeps.put_iff] | lift_lets | split)

theorem mintFinish_keeps {s0 t : State} (t' lines) (h : Keeps s0 t) :
    Keeps s0 (mintFinish t' lines t) := by
  unfold mintFinish
  repeat' (first
    | with_reducible assumption | with_reducible apply Keeps.ite | with_reducible apply refuseTile_keeps
    | with_reducible apply mintEmit_keeps
    | ((fail_if_success (fail_if_success with_reducible intro y)); first | with_reducible refine Keeps.letGoal (s := s0) ?_ (fun _ _ => ?_) | with_reducible intro y)
    | simp only [Keeps.put_iff] | lift_lets | split)

theorem countMint_keeps {s0 t : State} (t' x) (h : Keeps s0 t) :
    Keeps s0 (countMint t' x t) := by
  unfold countMint
  repeat' (first
    | with_reducible assumption | with_reducible apply Keeps.ite | with_reducible apply bump_keeps
    | ((fail_if_success (fail_if_success with_reducible intro y)); first | with_reducible refine Keeps.letGoal (s := s0) ?_ (fun _ _ => ?_) | with_reducible intro y)
    | simp only [Keeps.put_iff] | lift_lets | split)

theorem mintWork_keeps {s0 t : State} (t' hw) (h : Keeps s0 t) :
    Keeps s0 (mintWork t' hw t) := by
  unfold mintWork
  repeat' (first
    | with_reducible assumption | with_reducible apply Keeps.ite | with_reducible apply refuseTile_keeps
    | with_reducible apply countMint_keeps | with_reducible apply countReads_keeps
    | with_reducible apply vaultError_keeps | with_reducible apply mintFinish_keeps
    | with_reducible apply startAccess_keeps
    | ((fail_if_success (fail_if_success with_reducible intro y)); first | with_reducible refine Keeps.letGoal (s := s0) ?_ (fun _ _ => ?_) | with_reducible intro y)
    | simp only [Keeps.put_iff] | lift_lets | split)

theorem mintBody_keeps {s0 t : State} (n hw) (h : Keeps s0 t) :
    Keeps s0 (mintBody n hw t) := by
  unfold mintBody
  repeat' (first
    | with_reducible assumption | with_reducible apply Keeps.ite | with_reducible apply checkFails_keeps
    | with_reducible apply unqueue_keeps | with_reducible apply vaultError_keeps
    | with_reducible apply prefetchQueued_keeps | with_reducible apply mintWork_keeps
    | ((fail_if_success (fail_if_success with_reducible intro y)); first | with_reducible refine Keeps.letGoal (s := s0) ?_ (fun _ _ => ?_) | with_reducible intro y)
    | simp only [Keeps.put_iff] | lift_lets | split)

theorem execMintTile_keeps {s0 t : State} (n hw) (h : Keeps s0 t) :
    OKeeps s0 (execMintTile n hw t) := by
  unfold execMintTile
  repeat' (first
    | with_reducible assumption | with_reducible apply Keeps.ite | with_reducible apply OKeeps.next
    | with_reducible exact OKeeps.refused _ | with_reducible apply OKeeps.ite | with_reducible apply sweep_keeps
    | with_reducible apply buy_keeps | with_reducible apply mintBody_keeps | with_reducible apply Keeps.idf
    | with_reducible apply prefetchQueued_keeps
    | ((fail_if_success (fail_if_success with_reducible intro y)); first | with_reducible refine Keeps.letGoal (s := s0) ?_ (fun _ _ => ?_) | with_reducible intro y)
    | with_reducible intro _ _ | simp only [Keeps.put_iff] | lift_lets | split)

end Sys2Proof.Machine
end

