-- ==== Sys2Proof/Laws/Keep/Sorter.lean ====
section
/-!
SUPPORT. What the definitions of Machine/Sorter.lean leave as it was.
-/

namespace Sys2Proof.Machine

set_option linter.unusedTactic false
set_option linter.unreachableTactic false
set_option linter.unusedSimpArgs false

theorem sorterEmit_keeps {s0 t : State} (byMap t' r acc) (h : Keeps s0 t) :
    Keeps s0 (sorterEmit byMap t' r acc t) := by
  unfold sorterEmit
  repeat' (first
    | with_reducible assumption | with_reducible apply Keeps.ite | with_reducible apply emitTiles_keeps
    | with_reducible apply setBuilding_keeps | with_reducible apply emitTile_keeps
    | ((fail_if_success (fail_if_success with_reducible intro y)); first | with_reducible refine Keeps.letGoal (s := s0) ?_ (fun _ _ => ?_) | with_reducible intro y)
    | simp only [Keeps.put_iff] | lift_lets | split)

theorem sorterWork_keeps {s0 t : State} (t') (h : Keeps s0 t) :
    Keeps s0 (sorterWork t' t) := by
  unfold sorterWork
  repeat' (first
    | with_reducible assumption | with_reducible apply Keeps.ite | with_reducible apply refuseTile_keeps
    | with_reducible apply bump_keeps | with_reducible apply onStream_keeps | with_reducible apply noteCarry_keeps
    | with_reducible apply report_keeps | with_reducible apply sorterEmit_keeps
    | ((fail_if_success (fail_if_success with_reducible intro y)); first | with_reducible refine Keeps.letGoal (s := s0) ?_ (fun _ _ => ?_) | with_reducible intro y)
    | simp only [Keeps.put_iff] | lift_lets | split)

theorem rowParity_keeps {s0 t : State} (tile mac row) (h : Keeps s0 t) :
    Keeps s0 (rowParity tile mac row t) := by
  unfold rowParity
  repeat' (first
    | with_reducible assumption | with_reducible apply Keeps.ite | with_reducible apply remapRow_keeps
    | (refine Keeps.fstOf ?_ ‹remapRow _ _ _ _ _ = (_, _)›; with_reducible apply remapRow_keeps)
    | with_reducible apply startOrWait_keeps | with_reducible apply bump_keeps
    | ((fail_if_success (fail_if_success with_reducible intro y)); first | with_reducible refine Keeps.letGoal (s := s0) ?_ (fun _ _ => ?_) | with_reducible intro y)
    | simp only [Keeps.put_iff] | lift_lets | split)

theorem sorterBody_keeps {s0 t : State} (n hw) (h : Keeps s0 t) :
    Keeps s0 (sorterBody n hw t) := by
  unfold sorterBody
  repeat' (first
    | with_reducible assumption | with_reducible apply Keeps.ite | with_reducible apply unqueue_keeps
    | with_reducible apply checkFails_keeps | with_reducible apply prefetchQueued_keeps
    | with_reducible apply sorterWork_keeps | with_reducible apply rowParity_keeps
    | ((fail_if_success (fail_if_success with_reducible intro y)); first | with_reducible refine Keeps.letGoal (s := s0) ?_ (fun _ _ => ?_) | with_reducible intro y)
    | simp only [Keeps.put_iff] | lift_lets | split)

theorem execSorterTile_keeps {s0 t : State} (n hw) (h : Keeps s0 t) :
    OKeeps s0 (execSorterTile n hw t) := by
  unfold execSorterTile
  repeat' (first
    | with_reducible assumption | with_reducible apply OKeeps.next | with_reducible exact OKeeps.refused _
    | with_reducible apply OKeeps.ite | with_reducible apply Keeps.ite | with_reducible apply sweep_keeps
    | with_reducible apply buy_keeps | with_reducible apply sorterBody_keeps | with_reducible apply Keeps.idf
    | ((fail_if_success (fail_if_success with_reducible intro y)); first | with_reducible refine Keeps.letGoal (s := s0) ?_ (fun _ _ => ?_) | with_reducible intro y)
    | with_reducible intro _ _ | simp only [Keeps.put_iff] | lift_lets | split)

theorem execStripeSlotsFreed_keeps {s0 t : State} (k) (h : Keeps s0 t) :
    OKeeps s0 (execStripeSlotsFreed k t) := by
  unfold execStripeSlotsFreed
  repeat' (first
    | with_reducible assumption | with_reducible apply OKeeps.next | with_reducible exact OKeeps.refused _
    | with_reducible apply OKeeps.ite | with_reducible apply Keeps.ite | with_reducible apply setTenant_keeps
    | ((fail_if_success (fail_if_success with_reducible intro y)); first | with_reducible refine Keeps.letGoal (s := s0) ?_ (fun _ _ => ?_) | with_reducible intro y)
    | simp only [Keeps.put_iff] | lift_lets | split)

theorem execSorterThermalSample_keeps {s0 t : State} (samples) (h : Keeps s0 t) :
    OKeeps s0 (execSorterThermalSample samples t) := by
  unfold execSorterThermalSample
  repeat' (first
    | with_reducible assumption | with_reducible apply OKeeps.next | with_reducible exact OKeeps.refused _
    | with_reducible apply OKeeps.ite | with_reducible apply Keeps.ite | with_reducible apply bumpFree_keeps
    | ((fail_if_success (fail_if_success with_reducible intro y)); first | with_reducible refine Keeps.letGoal (s := s0) ?_ (fun _ _ => ?_) | with_reducible intro y)
    | simp only [Keeps.put_iff] | lift_lets | split)

theorem execTileReloadDone_keeps {s0 t : State} (tile) (h : Keeps s0 t) :
    OKeeps s0 (execTileReloadDone tile t) := by
  unfold execTileReloadDone
  repeat' (first
    | with_reducible assumption | with_reducible apply OKeeps.next | with_reducible exact OKeeps.refused _
    | with_reducible apply OKeeps.ite | with_reducible apply Keeps.ite | with_reducible apply endActivity_keeps
    | ((fail_if_success (fail_if_success with_reducible intro y)); first | with_reducible refine Keeps.letGoal (s := s0) ?_ (fun _ _ => ?_) | with_reducible intro y)
    | simp only [Keeps.put_iff] | lift_lets | split)

end Sys2Proof.Machine
end

