-- ==== Sys2Proof/Laws/Keep/Loader.lean ====
section
/-!
SUPPORT. What the definitions of Machine/Loader.lean leave as it was.
-/

namespace Sys2Proof.Machine

set_option linter.unusedTactic false
set_option linter.unreachableTactic false
set_option linter.unusedSimpArgs false

theorem endLoad_keeps {s0 t : State} (o status) (h : Keeps s0 t) :
    Keeps s0 (endLoad o status t) := by
  unfold endLoad
  repeat' (first
    | with_reducible assumption | with_reducible apply Keeps.ite | with_reducible apply endKeyed_keeps
    | with_reducible apply endActivity_keeps
    | ((fail_if_success (fail_if_success with_reducible intro y)); first | with_reducible refine Keeps.letGoal (s := s0) ?_ (fun _ _ => ?_) | with_reducible intro y)
    | simp only [Keeps.put_iff] | lift_lets | split)

theorem startLoad_keeps {s0 t : State} (run) (h : Keeps s0 t) :
    Keeps s0 (startLoad run t) := by
  unfold startLoad
  repeat' (first
    | with_reducible assumption | with_reducible apply Keeps.ite | with_reducible apply endKeyed_keeps
    | with_reducible apply refuseStart_keeps | with_reducible apply buy_keeps | with_reducible apply setStage_keeps
    | with_reducible apply beginActivity_keeps | with_reducible apply Keeps.idf | with_reducible apply onRun_keeps
    | ((fail_if_success (fail_if_success with_reducible intro y)); first | with_reducible refine Keeps.letGoal (s := s0) ?_ (fun _ _ => ?_) | with_reducible intro y)
    | with_reducible intro _ _ | simp only [Keeps.put_iff] | lift_lets | split)

theorem placeProgram_keeps {s0 t : State} (ws c) (h : Keeps s0 t) :
    Keeps s0 (placeProgram ws t c) := by
  have k : ∀ (xs : List (Nat × Nat)) (p : Tab Word), Tab.wf (fun _ => (0 : Word)) p = true →
      Tab.wf (fun _ => (0 : Word)) (xs.foldl (fun t w => Tab.set 0 t (8192 * c + w.2) (BitVec.ofNat 64 w.1)) p)
        = true := by
    intro xs
    induction xs with
    | nil => exact fun _ hp => hp
    | cons x xs ih => exact fun p hp => ih _ (Tab.wf_set 0 p _ _ hp)
  unfold placeProgram
  refine Keeps.ite ⟨h.build, h.pending, fun i => ⟨(h.inv i).1, k _ _ (h.inv i).2.1, (h.inv i).2.2⟩⟩
    ⟨h.build, h.pending, fun i => ⟨(h.inv i).1, k _ _ (h.inv i).2.1, (h.inv i).2.2⟩⟩

theorem installProgram_keeps {s0 t : State} (o data) (h : Keeps s0 t) :
    Keeps s0 (installProgram o data t) := by
  unfold installProgram
  repeat' (first
    | with_reducible assumption | with_reducible apply Keeps.ite | with_reducible apply endLoad_keeps
    | with_reducible apply placeProgram_keeps | with_reducible refine Keeps.foldl _ ?_ (fun _ _ _ => ?_)
    | ((fail_if_success (fail_if_success with_reducible intro y)); first | with_reducible refine Keeps.letGoal (s := s0) ?_ (fun _ _ => ?_) | with_reducible intro y)
    | simp only [Keeps.put_iff] | lift_lets | split)

theorem switchSlot_keeps {s0 t : State} (k r) (h : Keeps s0 t) :
    Keeps s0 (switchSlot k r t) := by
  unfold switchSlot
  repeat' (first
    | with_reducible assumption | with_reducible apply Keeps.ite | with_reducible apply setTenant_keeps
    | ((fail_if_success (fail_if_success with_reducible intro y)); first | with_reducible refine Keeps.letGoal (s := s0) ?_ (fun _ _ => ?_) | with_reducible intro y)
    | simp only [Keeps.put_iff] | lift_lets | split)

theorem startPlacing_keeps {s0 t : State} (lines job) (h : Keeps s0 t) :
    Keeps s0 (startPlacing lines job t) := by
  unfold startPlacing
  repeat' (first
    | with_reducible assumption | with_reducible apply Keeps.ite | with_reducible apply startAccess_keeps
    | with_reducible apply setStage_keeps
    | ((fail_if_success (fail_if_success with_reducible intro y)); first | with_reducible refine Keeps.letGoal (s := s0) ?_ (fun _ _ => ?_) | with_reducible intro y)
    | simp only [Keeps.put_iff] | lift_lets | split)

theorem tokInstall_keeps {s0 t : State} (o key im) (h : Keeps s0 t) :
    Keeps s0 (tokInstall o key im t) := by
  unfold tokInstall
  repeat' (first
    | with_reducible assumption | with_reducible apply Keeps.ite | with_reducible apply startPlacing_keeps
    | with_reducible apply endLoad_keeps
    | ((fail_if_success (fail_if_success with_reducible intro y)); first | with_reducible refine Keeps.letGoal (s := s0) ?_ (fun _ _ => ?_) | with_reducible intro y)
    | simp only [Keeps.put_iff] | lift_lets | split)

theorem endLoading_keeps {s0 t : State} (status) (h : Keeps s0 t) :
    Keeps s0 (endLoading status t) := by
  unfold endLoading
  repeat' (first
    | with_reducible assumption | with_reducible apply Keeps.ite | with_reducible apply endLoad_keeps
    | ((fail_if_success (fail_if_success with_reducible intro y)); first | with_reducible refine Keeps.letGoal (s := s0) ?_ (fun _ _ => ?_) | with_reducible intro y)
    | simp only [Keeps.put_iff] | lift_lets | split)

theorem tokPlaced_keeps {s0 t : State} (k r) (h : Keeps s0 t) :
    Keeps s0 (tokPlaced k r t) := by
  unfold tokPlaced
  repeat' (first
    | with_reducible assumption | with_reducible apply Keeps.ite | with_reducible apply tokInstall_keeps
    | with_reducible apply endLoading_keeps | with_reducible apply switchSlot_keeps
    | with_reducible apply bump_keeps
    | ((fail_if_success (fail_if_success with_reducible intro y)); first | with_reducible refine Keeps.letGoal (s := s0) ?_ (fun _ _ => ?_) | with_reducible intro y)
    | simp only [Keeps.put_iff] | lift_lets | split)

theorem installGrammar_keeps {s0 t : State} (o g) (h : Keeps s0 t) :
    Keeps s0 (installGrammar o g t) := by
  unfold installGrammar
  repeat' (first
    | with_reducible assumption | with_reducible apply Keeps.ite | with_reducible apply endLoad_keeps
    | with_reducible apply startPlacing_keeps
    | ((fail_if_success (fail_if_success with_reducible intro y)); first | with_reducible refine Keeps.letGoal (s := s0) ?_ (fun _ _ => ?_) | with_reducible intro y)
    | simp only [Keeps.put_iff] | lift_lets | split)

theorem grammarPlaced_keeps {s0 t : State} (gid g) (h : Keeps s0 t) :
    Keeps s0 (grammarPlaced gid g t) := by
  unfold grammarPlaced
  repeat' (first
    | with_reducible assumption | with_reducible apply Keeps.ite | with_reducible apply endLoading_keeps
    | ((fail_if_success (fail_if_success with_reducible intro y)); first | with_reducible refine Keeps.letGoal (s := s0) ?_ (fun _ _ => ?_) | with_reducible intro y)
    | simp only [Keeps.put_iff] | lift_lets | split)

theorem installSet_keeps {s0 t : State} (o im) (h : Keeps s0 t) :
    Keeps s0 (installSet o im t) := by
  unfold installSet
  repeat' (first
    | with_reducible assumption | with_reducible apply Keeps.ite | with_reducible apply endLoad_keeps
    | with_reducible apply startPlacing_keeps
    | ((fail_if_success (fail_if_success with_reducible intro y)); first | with_reducible refine Keeps.letGoal (s := s0) ?_ (fun _ _ => ?_) | with_reducible intro y)
    | simp only [Keeps.put_iff] | lift_lets | split)

theorem setPlaced_keeps {s0 t : State} (slot m) (h : Keeps s0 t) :
    Keeps s0 (setPlaced slot m t) := by
  unfold setPlaced
  repeat' (first
    | with_reducible assumption | with_reducible apply Keeps.ite | with_reducible apply endLoading_keeps
    | ((fail_if_success (fail_if_success with_reducible intro y)); first | with_reducible refine Keeps.letGoal (s := s0) ?_ (fun _ _ => ?_) | with_reducible intro y)
    | simp only [Keeps.put_iff] | lift_lets | split)

theorem buyRows_keeps {s0 t : State} (o key im cmd) (h : Keeps s0 t) :
    Keeps s0 (buyRows o key im cmd t) := by
  unfold buyRows
  repeat' (first
    | with_reducible assumption | with_reducible apply Keeps.ite | with_reducible apply endLoad_keeps
    | with_reducible apply buy_keeps | with_reducible apply setStage_keeps | with_reducible apply tokInstall_keeps
    | with_reducible apply Keeps.idf
    | ((fail_if_success (fail_if_success with_reducible intro y)); first | with_reducible refine Keeps.letGoal (s := s0) ?_ (fun _ _ => ?_) | with_reducible intro y)
    | with_reducible intro _ _ | simp only [Keeps.put_iff] | lift_lets | split)

theorem takeImage_keeps {s0 t : State} (run data cmd) (h : Keeps s0 t) :
    Keeps s0 (takeImage run data cmd t) := by
  unfold takeImage
  repeat' (first
    | with_reducible assumption | with_reducible apply Keeps.ite | with_reducible apply endLoad_keeps
    | with_reducible apply installProgram_keeps | with_reducible apply buyRows_keeps
    | with_reducible apply installGrammar_keeps | with_reducible apply installSet_keeps
    | ((fail_if_success (fail_if_success with_reducible intro y)); first | with_reducible refine Keeps.letGoal (s := s0) ?_ (fun _ _ => ?_) | with_reducible intro y)
    | simp only [Keeps.put_iff] | lift_lets | split)

theorem loadFailed_keeps {s0 t : State} (o status) (h : Keeps s0 t) :
    Keeps s0 (loadFailed o status t) := by
  unfold loadFailed
  repeat' (first
    | with_reducible assumption | with_reducible apply Keeps.ite | with_reducible apply takeFree_keeps
    | (refine Keeps.sndOf ?_ ‹takeFree _ = (_, _)›; with_reducible apply takeFree_keeps)
    | with_reducible apply endLoad_keeps | with_reducible apply logFailure_keeps
    | ((fail_if_success (fail_if_success with_reducible intro y)); first | with_reducible refine Keeps.letGoal (s := s0) ?_ (fun _ _ => ?_) | with_reducible intro y)
    | simp only [Keeps.put_iff] | lift_lets | split)

theorem execImageLoadDone_keeps {s0 t : State} (data status) (h : Keeps s0 t) :
    OKeeps s0 (execImageLoadDone data status t) := by
  unfold execImageLoadDone
  repeat' (first
    | with_reducible assumption | with_reducible apply OKeeps.next | with_reducible exact OKeeps.refused _
    | with_reducible apply OKeeps.ite | with_reducible apply Keeps.ite | with_reducible apply sweep_keeps
    | with_reducible apply endLoad_keeps | with_reducible apply loadFailed_keeps
    | with_reducible apply takeImage_keeps
    | ((fail_if_success (fail_if_success with_reducible intro y)); first | with_reducible refine Keeps.letGoal (s := s0) ?_ (fun _ _ => ?_) | with_reducible intro y)
    | simp only [Keeps.put_iff] | lift_lets | split)

theorem loadedBody_keeps {s0 t : State} (data) (h : Keeps s0 t) :
    Keeps s0 (loadedBody data t) := by
  unfold loadedBody
  repeat' (first
    | with_reducible assumption | with_reducible apply Keeps.ite | with_reducible apply tokInstall_keeps
    | ((fail_if_success (fail_if_success with_reducible intro y)); first | with_reducible refine Keeps.letGoal (s := s0) ?_ (fun _ _ => ?_) | with_reducible intro y)
    | simp only [Keeps.put_iff] | lift_lets | split)

theorem emptySlot_keeps {s0 t : State} (k) (h : Keeps s0 t) :
    Keeps s0 (emptySlot k t) := by
  unfold emptySlot
  repeat' (first
    | with_reducible assumption | with_reducible apply Keeps.ite | with_reducible apply rsvEvent_keeps
    | with_reducible apply setTenant_keeps
    | ((fail_if_success (fail_if_success with_reducible intro y)); first | with_reducible refine Keeps.letGoal (s := s0) ?_ (fun _ _ => ?_) | with_reducible intro y)
    | simp only [Keeps.put_iff] | lift_lets | split)

theorem reloadDone_keeps {s0 t : State} (k status lines) (h : Keeps s0 t) :
    Keeps s0 (reloadDone k status lines t) := by
  unfold reloadDone
  repeat' (first
    | with_reducible assumption | with_reducible apply Keeps.ite | with_reducible apply startAccess_keeps
    | with_reducible apply emptySlot_keeps
    | ((fail_if_success (fail_if_success with_reducible intro y)); first | with_reducible refine Keeps.letGoal (s := s0) ?_ (fun _ _ => ?_) | with_reducible intro y)
    | simp only [Keeps.put_iff] | lift_lets | split)

theorem tablesReplaced_keeps {s0 t : State} (k) (h : Keeps s0 t) :
    Keeps s0 (tablesReplaced k t) := by
  unfold tablesReplaced
  repeat' (first
    | with_reducible assumption | with_reducible apply Keeps.ite | with_reducible apply setTenant_keeps
    | ((fail_if_success (fail_if_success with_reducible intro y)); first | with_reducible refine Keeps.letGoal (s := s0) ?_ (fun _ _ => ?_) | with_reducible intro y)
    | simp only [Keeps.put_iff] | lift_lets | split)

end Sys2Proof.Machine
end

