-- ==== Sys2Proof/Laws/Keep/Output.lean ====
section
/-!
SUPPORT. What the definitions of Machine/Output.lean leave as it was.
-/

namespace Sys2Proof.Machine

set_option linter.unusedTactic false
set_option linter.unreachableTactic false
set_option linter.unusedSimpArgs false

theorem journalOutput_keeps {s0 t : State} (t' addr) (h : Keeps s0 t) :
    Keeps s0 (journalOutput t' addr t) := by
  unfold journalOutput
  repeat' (first
    | with_reducible assumption | with_reducible apply Keeps.ite | with_reducible apply onItem_keeps
    | with_reducible apply onStream_keeps | with_reducible apply journal_keeps
    | ((fail_if_success (fail_if_success with_reducible intro y)); first | with_reducible refine Keeps.letGoal (s := s0) ?_ (fun _ _ => ?_) | with_reducible intro y)
    | simp only [Keeps.put_iff] | lift_lets | split)

theorem suppress_keeps {s0 t : State} (t') (h : Keeps s0 t) :
    Keeps s0 (suppress t' t) := by
  unfold suppress
  repeat' (first
    | with_reducible assumption | with_reducible apply Keeps.ite | with_reducible apply bump_keeps
    | with_reducible apply countTile_keeps
    | ((fail_if_success (fail_if_success with_reducible intro y)); first | with_reducible refine Keeps.letGoal (s := s0) ?_ (fun _ _ => ?_) | with_reducible intro y)
    | simp only [Keeps.put_iff] | lift_lets | split)

theorem takeMismatch_keeps {s0 t : State} (t') (h : Keeps s0 t) :
    Keeps s0 (takeMismatch t' t) := by
  unfold takeMismatch
  repeat' (first
    | with_reducible assumption | with_reducible apply Keeps.ite | with_reducible apply suppress_keeps
    | with_reducible apply audFault_keeps | with_reducible apply bump_keeps | with_reducible apply onStream_keeps
    | with_reducible apply completeItem_keeps | with_reducible apply holdStream_keeps
    | ((fail_if_success (fail_if_success with_reducible intro y)); first | with_reducible refine Keeps.letGoal (s := s0) ?_ (fun _ _ => ?_) | with_reducible intro y)
    | simp only [Keeps.put_iff] | lift_lets | split)

theorem unplaceable_keeps {s0 t : State} (t') (h : Keeps s0 t) :
    Keeps s0 (unplaceable t' t) := by
  unfold unplaceable
  repeat' (first
    | with_reducible assumption | with_reducible apply Keeps.ite | with_reducible apply onItem_keeps
    | with_reducible apply report_keeps | with_reducible apply holdStream_keeps
    | with_reducible apply completeItem_keeps
    | ((fail_if_success (fail_if_success with_reducible intro y)); first | with_reducible refine Keeps.letGoal (s := s0) ?_ (fun _ _ => ?_) | with_reducible intro y)
    | simp only [Keeps.put_iff] | lift_lets | split)

theorem hopWork_keeps {s0 t : State} (t') (h : Keeps s0 t) :
    Keeps s0 (hopWork t' t) := by
  unfold hopWork
  repeat' (first
    | with_reducible assumption | with_reducible apply Keeps.ite | with_reducible apply unqueue_keeps
    | with_reducible apply passOn_keeps | with_reducible apply numberTile_keeps
    | (refine Keeps.sndOf ?_ ‹numberTile _ _ _ = (_, _)›; with_reducible apply numberTile_keeps)
    | with_reducible apply report_keeps | with_reducible apply suppress_keeps
    | with_reducible apply takeMismatch_keeps | with_reducible apply journalOutput_keeps
    | with_reducible apply unplaceable_keeps
    | ((fail_if_success (fail_if_success with_reducible intro y)); first | with_reducible refine Keeps.letGoal (s := s0) ?_ (fun _ _ => ?_) | with_reducible intro y)
    | simp only [Keeps.put_iff] | lift_lets | split)

theorem execLedgerHop_keeps {s0 t : State} (n hw) (h : Keeps s0 t) :
    OKeeps s0 (execLedgerHop n hw t) := by
  unfold execLedgerHop
  repeat' (first
    | with_reducible assumption | with_reducible apply OKeeps.next | with_reducible exact OKeeps.refused _
    | with_reducible apply OKeeps.ite | with_reducible apply Keeps.ite | with_reducible apply sweep_keeps
    | with_reducible apply checkFails_keeps | with_reducible apply unqueue_keeps
    | with_reducible apply hopWork_keeps
    | ((fail_if_success (fail_if_success with_reducible intro y)); first | with_reducible refine Keeps.letGoal (s := s0) ?_ (fun _ _ => ?_) | with_reducible intro y)
    | simp only [Keeps.put_iff] | lift_lets | split)

theorem sendRecord_keeps {s0 t : State} (t') (h : Keeps s0 t) :
    Keeps s0 (sendRecord t' t) := by
  unfold sendRecord
  repeat' (first
    | with_reducible assumption | with_reducible apply Keeps.ite | with_reducible apply deliverRecord_keeps
    | with_reducible apply startAccess_keeps | with_reducible apply passOn_keeps
    | ((fail_if_success (fail_if_success with_reducible intro y)); first | with_reducible refine Keeps.letGoal (s := s0) ?_ (fun _ _ => ?_) | with_reducible intro y)
    | simp only [Keeps.put_iff] | lift_lets | split)

theorem setEgress_keeps {s0 t : State} (p e) (h : Keeps s0 t) :
    Keeps s0 (setEgress p e t) := by
  unfold setEgress
  repeat' (first
    | with_reducible assumption | with_reducible apply Keeps.ite
    | ((fail_if_success (fail_if_success with_reducible intro y)); first | with_reducible refine Keeps.letGoal (s := s0) ?_ (fun _ _ => ?_) | with_reducible intro y)
    | simp only [Keeps.put_iff] | lift_lets | split)

theorem finishRecord_keeps {s0 t : State} (p t') (h : Keeps s0 t) :
    Keeps s0 (finishRecord p t' t) := by
  unfold finishRecord
  repeat' (first
    | with_reducible assumption | with_reducible apply Keeps.ite | with_reducible apply setEgress_keeps
    | with_reducible apply deliverRecord_keeps | with_reducible apply bump_keeps
    | ((fail_if_success (fail_if_success with_reducible intro y)); first | with_reducible refine Keeps.letGoal (s := s0) ?_ (fun _ _ => ?_) | with_reducible intro y)
    | simp only [Keeps.put_iff] | lift_lets | split)

theorem execEgressRecord_keeps {s0 t : State} (port beats) (h : Keeps s0 t) :
    OKeeps s0 (execEgressRecord port beats t) := by
  unfold execEgressRecord
  repeat' (first
    | with_reducible assumption | with_reducible apply OKeeps.next | with_reducible exact OKeeps.refused _
    | with_reducible apply OKeeps.ite | with_reducible apply Keeps.ite | with_reducible apply unqueue_keeps
    | with_reducible apply sweep_keeps | with_reducible apply finishRecord_keeps
    | with_reducible apply setEgress_keeps
    | ((fail_if_success (fail_if_success with_reducible intro y)); first | with_reducible refine Keeps.letGoal (s := s0) ?_ (fun _ _ => ?_) | with_reducible intro y)
    | simp only [Keeps.put_iff] | lift_lets | split)

theorem execEgressReady_keeps {s0 t : State} (a) (h : Keeps s0 t) :
    OKeeps s0 (execEgressReady a t) := by
  unfold execEgressReady
  repeat' (first
    | with_reducible assumption | with_reducible apply OKeeps.next | with_reducible exact OKeeps.refused _
    | with_reducible apply OKeeps.ite | with_reducible apply Keeps.ite | with_reducible apply setEgress_keeps
    | with_reducible apply sweep_keeps | with_reducible apply finishRecord_keeps
    | ((fail_if_success (fail_if_success with_reducible intro y)); first | with_reducible refine Keeps.letGoal (s := s0) ?_ (fun _ _ => ?_) | with_reducible intro y)
    | simp only [Keeps.put_iff] | lift_lets | split)

end Sys2Proof.Machine
end

