-- ==== Sys2Proof/Laws/Keep/Queues.lean ====
section
/-!
SUPPORT. What the definitions of Machine/Queues.lean leave as it was.
-/

namespace Sys2Proof.Machine

set_option linter.unusedTactic false
set_option linter.unreachableTactic false
set_option linter.unusedSimpArgs false

theorem execCompletionPacket_keeps {s0 t : State} (h : Keeps s0 t) :
    OKeeps s0 (execCompletionPacket t) := by
  unfold execCompletionPacket
  repeat' (first
    | with_reducible assumption | with_reducible apply OKeeps.next | with_reducible exact OKeeps.refused _
    | with_reducible apply OKeeps.ite | with_reducible apply Keeps.ite | with_reducible apply cutThrough_keeps
    | with_reducible apply setQueueN_keeps
    | ((fail_if_success (fail_if_success with_reducible intro y)); first | with_reducible refine Keeps.letGoal (s := s0) ?_ (fun _ _ => ?_) | with_reducible intro y)
    | simp only [Keeps.put_iff] | lift_lets | split)

theorem ldgErr_keeps {s0 t : State} (status queue ledger) (h : Keeps s0 t) :
    Keeps s0 (ldgErr status queue ledger t) := by
  unfold ldgErr
  repeat' (first
    | with_reducible assumption | with_reducible apply Keeps.ite | with_reducible apply logFirst_keeps
    | ((fail_if_success (fail_if_success with_reducible intro y)); first | with_reducible refine Keeps.letGoal (s := s0) ?_ (fun _ _ => ?_) | with_reducible intro y)
    | simp only [Keeps.put_iff] | lift_lets | split)

theorem execSettlePush_keeps {s0 t : State} (hi) (h : Keeps s0 t) :
    OKeeps s0 (execSettlePush hi t) := by
  unfold execSettlePush
  repeat' (first
    | with_reducible assumption | with_reducible apply OKeeps.next | with_reducible exact OKeeps.refused _
    | with_reducible apply OKeeps.ite | with_reducible apply Keeps.ite | with_reducible apply viaPort_keeps | with_reducible apply viaRead_keeps
    | with_reducible apply ldgErr_keeps | with_reducible apply setReg_keeps | with_reducible apply setQueueN_keeps
    | ((fail_if_success (fail_if_success with_reducible intro y)); first | with_reducible refine Keeps.letGoal (s := s0) ?_ (fun _ _ => ?_) | with_reducible intro y)
    | simp only [Keeps.put_iff] | lift_lets | split)

theorem settleItem_keeps {s0 t : State} (i) (h : Keeps s0 t) :
    Keeps s0 (settleItem t i) := by
  unfold settleItem
  repeat' (first
    | with_reducible assumption | with_reducible apply Keeps.ite | with_reducible apply bump_keeps
    | with_reducible apply onItem_keeps | with_reducible apply onStream_keeps | with_reducible apply journal_keeps
    | ((fail_if_success (fail_if_success with_reducible intro y)); first | with_reducible refine Keeps.letGoal (s := s0) ?_ (fun _ _ => ?_) | with_reducible intro y)
    | simp only [Keeps.put_iff] | lift_lets | split)

theorem takeSettlement_keeps {s0 t : State} (n) (h : Keeps s0 t) :
    Keeps s0 (takeSettlement n t) := by
  unfold takeSettlement
  repeat' (first
    | with_reducible assumption | with_reducible apply Keeps.ite | with_reducible apply ldgErr_keeps
    | with_reducible apply settleItem_keeps | with_reducible refine Keeps.foldl _ ?_ (fun _ _ _ => ?_)
    | ((fail_if_success (fail_if_success with_reducible intro y)); first | with_reducible refine Keeps.letGoal (s := s0) ?_ (fun _ _ => ?_) | with_reducible intro y)
    | simp only [Keeps.put_iff] | lift_lets | split)

theorem execSettlementTaken_keeps {s0 t : State} (h : Keeps s0 t) :
    OKeeps s0 (execSettlementTaken t) := by
  unfold execSettlementTaken
  repeat' (first
    | with_reducible assumption | with_reducible apply OKeeps.next | with_reducible exact OKeeps.refused _
    | with_reducible apply OKeeps.ite | with_reducible apply Keeps.ite | with_reducible apply sweep_keeps
    | with_reducible apply takeSettlement_keeps | with_reducible apply setQueueN_keeps
    | ((fail_if_success (fail_if_success with_reducible intro y)); first | with_reducible refine Keeps.letGoal (s := s0) ?_ (fun _ _ => ?_) | with_reducible intro y)
    | simp only [Keeps.put_iff] | lift_lets | split)

theorem carryOn_keeps {s0 t : State} (fuel) (h : Keeps s0 t) :
    Keeps s0 (carryOn fuel t) := by
  induction fuel generalizing t with
  | zero => exact h
  | succ fuel ih =>
    unfold carryOn
    repeat' (first
      | with_reducible assumption | with_reducible apply Keeps.ite | with_reducible apply carryText_keeps
      | with_reducible apply carryEntry_keeps | with_reducible apply ih | cases ‹_ + 1 = Nat.succ _›
      | ((fail_if_success (fail_if_success with_reducible intro y)); first | with_reducible refine Keeps.letGoal (s := s0) ?_ (fun _ _ => ?_) | with_reducible intro y)
      | simp only [Keeps.put_iff] | lift_lets | split)

theorem execCarryForward_keeps {s0 t : State} (h : Keeps s0 t) :
    OKeeps s0 (execCarryForward t) := by
  unfold execCarryForward
  repeat' (first
    | with_reducible assumption | with_reducible apply OKeeps.next | with_reducible exact OKeeps.refused _
    | with_reducible apply OKeeps.ite | with_reducible apply Keeps.ite | with_reducible apply carryOn_keeps
    | with_reducible apply sweep_keeps | with_reducible apply drainWaiting_keeps
    | ((fail_if_success (fail_if_success with_reducible intro y)); first | with_reducible refine Keeps.letGoal (s := s0) ?_ (fun _ _ => ?_) | with_reducible intro y)
    | simp only [Keeps.put_iff] | lift_lets | split)

theorem latchHi_keeps {s0 t : State} (off v) (h : Keeps s0 t) :
    Keeps s0 (latchHi off v t) := by
  unfold latchHi
  repeat' (first
    | with_reducible assumption | with_reducible apply Keeps.ite
    | ((fail_if_success (fail_if_success with_reducible intro y)); first | with_reducible refine Keeps.letGoal (s := s0) ?_ (fun _ _ => ?_) | with_reducible intro y)
    | simp only [Keeps.put_iff] | lift_lets | split)

theorem popQueue_keeps {s0 t : State} (h : Keeps s0 t) :
    Keeps s0 (popQueue t) := by
  unfold popQueue
  repeat' (first
    | with_reducible assumption | with_reducible apply Keeps.ite | with_reducible apply setReg_keeps
    | with_reducible apply setUnwritten_keeps | with_reducible apply setQueueN_keeps
    | ((fail_if_success (fail_if_success with_reducible intro y)); first | with_reducible refine Keeps.letGoal (s := s0) ?_ (fun _ _ => ?_) | with_reducible intro y)
    | simp only [Keeps.put_iff] | lift_lets | split)

theorem readPop_keeps {s0 t : State} (h : Keeps s0 t) :
    Keeps s0 (readPop t) := by
  unfold readPop
  repeat' (first
    | with_reducible assumption | with_reducible apply Keeps.ite | with_reducible apply popQueue_keeps
    | with_reducible apply latchHi_keeps
    | ((fail_if_success (fail_if_success with_reducible intro y)); first | with_reducible refine Keeps.letGoal (s := s0) ?_ (fun _ _ => ?_) | with_reducible intro y)
    | simp only [Keeps.put_iff] | lift_lets | split)

theorem execQueuePop_keeps {s0 t : State} (h : Keeps s0 t) :
    OKeeps s0 (execQueuePop t) := by
  unfold execQueuePop
  repeat' (first
    | with_reducible assumption | with_reducible apply Keeps.ite | with_reducible apply OKeeps.next
    | with_reducible exact OKeeps.refused _ | with_reducible apply OKeeps.ite | with_reducible apply viaPort_keeps | with_reducible apply viaRead_keeps
    | with_reducible apply popQueue_keeps | with_reducible apply readPop_keeps
    | ((fail_if_success (fail_if_success with_reducible intro y)); first | with_reducible refine Keeps.letGoal (s := s0) ?_ (fun _ _ => ?_) | with_reducible intro y)
    | simp only [Keeps.put_iff] | lift_lets | split)

theorem execQueueFlush_keeps {s0 t : State} (value) (h : Keeps s0 t) :
    OKeeps s0 (execQueueFlush value t) := by
  unfold execQueueFlush
  repeat' (first
    | with_reducible assumption | with_reducible apply OKeeps.next | with_reducible exact OKeeps.refused _
    | with_reducible apply OKeeps.ite | with_reducible apply Keeps.ite | with_reducible apply viaPort_keeps | with_reducible apply viaRead_keeps
    | with_reducible apply setRegBit_keeps | with_reducible apply setReg_keeps
    | with_reducible apply setUnwritten_keeps | with_reducible apply setQueueN_keeps
    | ((fail_if_success (fail_if_success with_reducible intro y)); first | with_reducible refine Keeps.letGoal (s := s0) ?_ (fun _ _ => ?_) | with_reducible intro y)
    | simp only [Keeps.put_iff] | lift_lets | split)

end Sys2Proof.Machine
end

