-- ==== Sys2Proof/Laws/Keep/Replay.lean ====
section
/-!
SUPPORT. What the definitions of Machine/Replay.lean leave as it was.
-/

namespace Sys2Proof.Machine

set_option linter.unusedTactic false
set_option linter.unreachableTactic false
set_option linter.unusedSimpArgs false

theorem writeMarks_keeps {s0 t : State} (es) (h : Keeps s0 t) :
    Keeps s0 (writeMarks es t) := by
  unfold writeMarks
  repeat' (first
    | with_reducible assumption | with_reducible apply Keeps.ite | with_reducible apply takeFree_keeps
    | (refine Keeps.sndOf ?_ ‹takeFree _ = (_, _)›; with_reducible apply takeFree_keeps)
    | with_reducible apply journal_keeps | with_reducible refine Keeps.foldl _ ?_ (fun _ _ _ => ?_)
    | ((fail_if_success (fail_if_success with_reducible intro y)); first | with_reducible refine Keeps.letGoal (s := s0) ?_ (fun _ _ => ?_) | with_reducible intro y)
    | simp only [Keeps.put_iff] | lift_lets | split)

theorem writeStart_keeps {s0 t : State} (es) (h : Keeps s0 t) :
    Keeps s0 (writeStart es t) := by
  unfold writeStart
  repeat' (first
    | with_reducible assumption | with_reducible apply Keeps.ite | with_reducible apply journal_keeps
    | with_reducible apply writeMarks_keeps
    | ((fail_if_success (fail_if_success with_reducible intro y)); first | with_reducible refine Keeps.letGoal (s := s0) ?_ (fun _ _ => ?_) | with_reducible intro y)
    | simp only [Keeps.put_iff] | lift_lets | split)

theorem goOn_keeps {s0 t : State} (x) (h : Keeps s0 t) :
    Keeps s0 (goOn t x) := by
  unfold goOn
  repeat' (first
    | with_reducible assumption | with_reducible apply Keeps.ite | with_reducible apply wakeThread_keeps
    | with_reducible apply takeChunk_keeps | with_reducible apply drainLane_keeps
    | ((fail_if_success (fail_if_success with_reducible intro y)); first | with_reducible refine Keeps.letGoal (s := s0) ?_ (fun _ _ => ?_) | with_reducible intro y)
    | simp only [Keeps.put_iff] | lift_lets | split)

theorem journalOpened_keeps {s0 t : State} (h : Keeps s0 t) :
    Keeps s0 (journalOpened t) := by
  unfold journalOpened
  repeat' (first
    | with_reducible assumption | with_reducible apply Keeps.ite | with_reducible apply writeMarks_keeps
    | with_reducible apply goOn_keeps | with_reducible refine Keeps.foldl _ ?_ (fun _ _ _ => ?_)
    | ((fail_if_success (fail_if_success with_reducible intro y)); first | with_reducible refine Keeps.letGoal (s := s0) ?_ (fun _ _ => ?_) | with_reducible intro y)
    | simp only [Keeps.put_iff] | lift_lets | split)

theorem emptyJournal_keeps {s0 t : State} (h : Keeps s0 t) :
    Keeps s0 (emptyJournal t) := by
  unfold emptyJournal
  repeat' (first
    | with_reducible assumption | with_reducible apply Keeps.ite
    | ((fail_if_success (fail_if_success with_reducible intro y)); first | with_reducible refine Keeps.letGoal (s := s0) ?_ (fun _ _ => ?_) | with_reducible intro y)
    | simp only [Keeps.put_iff] | lift_lets | split)

theorem readRing_keeps {s0 t : State} (m) (h : Keeps s0 t) :
    Keeps s0 (readRing m t) := by
  unfold readRing
  repeat' (first
    | with_reducible assumption | with_reducible apply Keeps.ite | with_reducible apply startAccess_keeps
    | ((fail_if_success (fail_if_success with_reducible intro y)); first | with_reducible refine Keeps.letGoal (s := s0) ?_ (fun _ _ => ?_) | with_reducible intro y)
    | simp only [Keeps.put_iff] | lift_lets | split)

theorem openJournal_keeps {s0 t : State} (fresh) (h : Keeps s0 t) :
    Keeps s0 (openJournal fresh t) := by
  unfold openJournal
  repeat' (first
    | with_reducible assumption | with_reducible apply Keeps.ite | with_reducible apply emptyJournal_keeps
    | with_reducible apply writeStart_keeps | with_reducible apply readRing_keeps
    | ((fail_if_success (fail_if_success with_reducible intro y)); first | with_reducible refine Keeps.letGoal (s := s0) ?_ (fun _ _ => ?_) | with_reducible intro y)
    | simp only [Keeps.put_iff] | lift_lets | split)

theorem closeJournal_keeps {s0 t : State} (h : Keeps s0 t) :
    Keeps s0 (closeJournal t) := by
  unfold closeJournal
  repeat' (first
    | with_reducible assumption | with_reducible apply Keeps.ite | with_reducible apply dropAccesses_keeps
    | ((fail_if_success (fail_if_success with_reducible intro y)); first | with_reducible refine Keeps.letGoal (s := s0) ?_ (fun _ _ => ?_) | with_reducible intro y)
    | simp only [Keeps.put_iff] | lift_lets | split)

theorem openStored_keeps {s0 t : State} (h : Keeps s0 t) :
    Keeps s0 (openStored t) := by
  unfold openStored
  repeat' (first
    | with_reducible assumption | with_reducible apply Keeps.ite | with_reducible apply openJournal_keeps
    | ((fail_if_success (fail_if_success with_reducible intro y)); first | with_reducible refine Keeps.letGoal (s := s0) ?_ (fun _ _ => ?_) | with_reducible intro y)
    | simp only [Keeps.put_iff] | lift_lets | split)

theorem enableJournal_keeps {s0 t : State} (fresh) (h : Keeps s0 t) :
    Keeps s0 (enableJournal fresh t) := by
  unfold enableJournal
  repeat' (first
    | with_reducible assumption | with_reducible apply Keeps.ite | with_reducible apply openJournal_keeps
    | ((fail_if_success (fail_if_success with_reducible intro y)); first | with_reducible refine Keeps.letGoal (s := s0) ?_ (fun _ _ => ?_) | with_reducible intro y)
    | simp only [Keeps.put_iff] | lift_lets | split)

theorem writeLdgCtrl_keeps {s0 t : State} (v) (h : Keeps s0 t) :
    Keeps s0 (writeLdgCtrl v t) := by
  unfold writeLdgCtrl
  repeat' (first
    | with_reducible assumption | with_reducible apply Keeps.ite | with_reducible apply setRegBit_keeps
    | with_reducible apply setReg_keeps | with_reducible apply enableJournal_keeps
    | with_reducible apply closeJournal_keeps
    | ((fail_if_success (fail_if_success with_reducible intro y)); first | with_reducible refine Keeps.letGoal (s := s0) ?_ (fun _ _ => ?_) | with_reducible intro y)
    | simp only [Keeps.put_iff] | lift_lets | split)

theorem readRecord_keeps {s0 t : State} (m off len) (h : Keeps s0 t) :
    Keeps s0 (readRecord m off len t) := by
  unfold readRecord
  repeat' (first
    | with_reducible assumption | with_reducible apply Keeps.ite | with_reducible apply startAccess_keeps
    | ((fail_if_success (fail_if_success with_reducible intro y)); first | with_reducible refine Keeps.letGoal (s := s0) ?_ (fun _ _ => ?_) | with_reducible intro y)
    | simp only [Keeps.put_iff] | lift_lets | split)

theorem readCheckpoints_keeps {s0 t : State} (h : Keeps s0 t) :
    Keeps s0 (readCheckpoints t) := by
  unfold readCheckpoints
  repeat' (first
    | with_reducible assumption | with_reducible apply Keeps.ite | with_reducible apply startAccess_keeps
    | with_reducible refine Keeps.foldl _ ?_ (fun _ _ _ => ?_)
    | ((fail_if_success (fail_if_success with_reducible intro y)); first | with_reducible refine Keeps.letGoal (s := s0) ?_ (fun _ _ => ?_) | with_reducible intro y)
    | simp only [Keeps.put_iff] | lift_lets | split)

theorem ringsRead_keeps {s0 t : State} (h : Keeps s0 t) :
    Keeps s0 (ringsRead t) := by
  unfold ringsRead
  repeat' (first
    | with_reducible assumption | with_reducible apply Keeps.ite | with_reducible apply readCheckpoints_keeps
    | with_reducible apply readRecord_keeps | with_reducible refine Keeps.foldl _ ?_ (fun _ _ _ => ?_)
    | ((fail_if_success (fail_if_success with_reducible intro y)); first | with_reducible refine Keeps.letGoal (s := s0) ?_ (fun _ _ => ?_) | with_reducible intro y)
    | simp only [Keeps.put_iff] | lift_lets | split)

theorem ringRead_keeps {s0 t : State} (m lines) (h : Keeps s0 t) :
    Keeps s0 (ringRead m lines t) := by
  unfold ringRead
  repeat' (first
    | with_reducible assumption | with_reducible apply Keeps.ite | with_reducible apply ringsRead_keeps
    | with_reducible refine Keeps.foldl _ ?_ (fun _ _ _ => ?_)
    | ((fail_if_success (fail_if_success with_reducible intro y)); first | with_reducible refine Keeps.letGoal (s := s0) ?_ (fun _ _ => ?_) | with_reducible intro y)
    | simp only [Keeps.put_iff] | lift_lets | split)

theorem recRead_keeps {s0 t : State} (m off status lines) (h : Keeps s0 t) :
    Keeps s0 (recRead m off status lines t) := by
  unfold recRead
  repeat' (first
    | with_reducible assumption | with_reducible apply Keeps.ite | with_reducible apply readRecord_keeps
    | with_reducible apply readCheckpoints_keeps
    | ((fail_if_success (fail_if_success with_reducible intro y)); first | with_reducible refine Keeps.letGoal (s := s0) ?_ (fun _ _ => ?_) | with_reducible intro y)
    | simp only [Keeps.put_iff] | lift_lets | split)

theorem ckptRead_keeps {s0 t : State} (n status lines) (h : Keeps s0 t) :
    Keeps s0 (ckptRead n status lines t) := by
  unfold ckptRead
  repeat' (first
    | with_reducible assumption | with_reducible apply Keeps.ite
    | ((fail_if_success (fail_if_success with_reducible intro y)); first | with_reducible refine Keeps.letGoal (s := s0) ?_ (fun _ _ => ?_) | with_reducible intro y)
    | simp only [Keeps.put_iff] | lift_lets | split)

theorem ckptBack_keeps {s0 t : State} (n ledger data) (h : Keeps s0 t) :
    Keeps s0 (ckptBack n ledger data t) := by
  unfold ckptBack
  repeat' (first
    | with_reducible assumption | with_reducible apply Keeps.ite | with_reducible apply onStream_keeps
    | with_reducible apply restorePatch_keeps
    | ((fail_if_success (fail_if_success with_reducible intro y)); first | with_reducible refine Keeps.letGoal (s := s0) ?_ (fun _ _ => ?_) | with_reducible intro y)
    | simp only [Keeps.put_iff] | lift_lets | split)

theorem outOf_keeps {s0 t : State} (mark e) (h : Keeps s0 t) :
    Keeps s0 (outOf mark e t).2 := by
  unfold outOf
  repeat' (first
    | with_reducible assumption | with_reducible apply Keeps.ite | with_reducible apply Keeps.sndIte
    | with_reducible apply takeFree_keeps
    | (refine Keeps.sndOf ?_ ‹takeFree _ = (_, _)›; with_reducible apply takeFree_keeps)
    | ((fail_if_success (fail_if_success with_reducible intro y)); first | with_reducible refine Keeps.letGoal (s := s0) ?_ (fun _ _ => ?_) | with_reducible intro y)
    | simp only [Keeps.put_iff] | lift_lets | split)

theorem itemOf_keeps {s0 t : State} (es e) (h : Keeps s0 t) :
    Keeps s0 (itemOf es e t) := by
  unfold itemOf
  exact addItem_keeps _ (Keeps.foldSnd _ h (fun q x k => outOf_keeps (markIn es e.stream) x k))

theorem writeEnd_keeps {s0 t : State} (es n start) (h : Keeps s0 t) :
    Keeps s0 (writeEnd es n start t).2 := by
  unfold writeEnd
  repeat' (first
    | with_reducible assumption | with_reducible apply Keeps.ite | with_reducible apply Keeps.sndIte
    | with_reducible apply outOf_keeps
    | (refine Keeps.sndOf ?_ ‹outOf _ _ _ = (_, _)›; with_reducible apply outOf_keeps)
    | ((fail_if_success (fail_if_success with_reducible intro y)); first | with_reducible refine Keeps.letGoal (s := s0) ?_ (fun _ _ => ?_) | with_reducible intro y)
    | simp only [Keeps.put_iff] | lift_lets | split)

theorem restoreOpen_keeps {s0 t : State} (es n) (h : Keeps s0 t) :
    Keeps s0 (restoreOpen es n t) := by
  unfold restoreOpen
  repeat' (first
    | with_reducible assumption | with_reducible apply Keeps.ite | with_reducible apply setStream_keeps
    | with_reducible refine Keeps.foldl _ ?_ (fun _ _ _ => ?_)
    | ((fail_if_success (fail_if_success with_reducible intro y)); first | with_reducible refine Keeps.letGoal (s := s0) ?_ (fun _ _ => ?_) | with_reducible intro y)
    | simp only [Keeps.put_iff] | lift_lets | split)

theorem replayAccept_keeps {s0 t : State} (es e) (h : Keeps s0 t) :
    Keeps s0 (replayAccept es t e) := by
  unfold replayAccept
  repeat' (first
    | with_reducible assumption | with_reducible apply Keeps.ite | with_reducible apply completeItem_keeps
    | with_reducible apply reissue_keeps
    | ((fail_if_success (fail_if_success with_reducible intro y)); first | with_reducible refine Keeps.letGoal (s := s0) ?_ (fun _ _ => ?_) | with_reducible intro y)
    | simp only [Keeps.put_iff] | lift_lets | split)

theorem restoreMarks_keeps {s0 t : State} (es) (h : Keeps s0 t) :
    Keeps s0 (restoreMarks es t) := by
  unfold restoreMarks
  repeat' (first
    | with_reducible assumption | with_reducible apply Keeps.ite
    | with_reducible refine Keeps.foldl _ ?_ (fun _ _ _ => ?_)
    | ((fail_if_success (fail_if_success with_reducible intro y)); first | with_reducible refine Keeps.letGoal (s := s0) ?_ (fun _ _ => ?_) | with_reducible intro y)
    | simp only [Keeps.put_iff] | lift_lets | split)

theorem replayAll_keeps {s0 t : State} (h : Keeps s0 t) :
    Keeps s0 (replayAll t) := by
  unfold replayAll
  repeat' (first
    | with_reducible assumption | with_reducible apply Keeps.ite | with_reducible apply restoreOpen_keeps
    | with_reducible apply itemOf_keeps | with_reducible apply writeEnd_keeps
    | (refine Keeps.sndOf ?_ ‹writeEnd _ _ _ _ = (_, _)›; with_reducible apply writeEnd_keeps)
    | with_reducible apply onStream_keeps | with_reducible apply restoreMarks_keeps
    | with_reducible apply replayAccept_keeps | with_reducible refine Keeps.foldl _ ?_ (fun _ _ _ => ?_)
    | with_reducible apply restorePatch_keeps
    | ((fail_if_success (fail_if_success with_reducible intro y)); first | with_reducible refine Keeps.letGoal (s := s0) ?_ (fun _ _ => ?_) | with_reducible intro y)
    | simp only [Keeps.put_iff] | lift_lets | split)

theorem execReplayDone_keeps {s0 t : State} (h : Keeps s0 t) :
    OKeeps s0 (execReplayDone t) := by
  unfold execReplayDone
  repeat' (first
    | with_reducible assumption | with_reducible apply OKeeps.next | with_reducible exact OKeeps.refused _
    | with_reducible apply OKeeps.ite | with_reducible apply Keeps.ite | with_reducible apply replayAll_keeps
    | with_reducible apply sweep_keeps | with_reducible apply writeStart_keeps
    | ((fail_if_success (fail_if_success with_reducible intro y)); first | with_reducible refine Keeps.letGoal (s := s0) ?_ (fun _ _ => ?_) | with_reducible intro y)
    | simp only [Keeps.put_iff] | lift_lets | split)

end Sys2Proof.Machine
end

