-- ==== Sys2Proof/Laws/Keep/Resets.lean ====
section
/-!
SUPPORT. What the definitions of Machine/Resets.lean leave as it was.
-/

namespace Sys2Proof.Machine

set_option linter.unusedTactic false
set_option linter.unreachableTactic false
set_option linter.unusedSimpArgs false

theorem cutChunk_keeps {s0 t : State} (c) (h : Keeps s0 t) :
    Keeps s0 (cutChunk t c) := by
  unfold cutChunk
  repeat' (first
    | with_reducible assumption | with_reducible apply Keeps.ite | with_reducible apply logFirst_keeps
    | with_reducible apply bump_keeps
    | ((fail_if_success (fail_if_success with_reducible intro y)); first | with_reducible refine Keeps.letGoal (s := s0) ?_ (fun _ _ => ?_) | with_reducible intro y)
    | simp only [Keeps.put_iff] | lift_lets | split)

theorem cutLane_keeps {s0 t : State} (l) (h : Keeps s0 t) :
    Keeps s0 (cutLane t l) := by
  unfold cutLane
  repeat' (first
    | with_reducible assumption | with_reducible apply Keeps.ite | with_reducible apply setLane_keeps
    | with_reducible apply cutChunk_keeps | with_reducible refine Keeps.foldl _ ?_ (fun _ _ _ => ?_)
    | ((fail_if_success (fail_if_success with_reducible intro y)); first | with_reducible refine Keeps.letGoal (s := s0) ?_ (fun _ _ => ?_) | with_reducible intro y)
    | simp only [Keeps.put_iff] | lift_lets | split)

theorem keepTags_keeps {s0 t : State} (l) (h : Keeps s0 t) :
    Keeps s0 (keepTags t l) := by
  unfold keepTags
  repeat' (first
    | with_reducible assumption | with_reducible apply Keeps.ite
    | ((fail_if_success (fail_if_success with_reducible intro y)); first | with_reducible refine Keeps.letGoal (s := s0) ?_ (fun _ _ => ?_) | with_reducible intro y)
    | simp only [Keeps.put_iff] | lift_lets | split)

theorem answerCut_keeps {s0 t : State} (l) (h : Keeps s0 t) :
    Keeps s0 (answerCut t l) := by
  unfold answerCut
  repeat' (first
    | with_reducible assumption | with_reducible apply Keeps.ite | with_reducible apply answerLane_keeps
    | with_reducible refine Keeps.foldl _ ?_ (fun _ _ _ => ?_)
    | ((fail_if_success (fail_if_success with_reducible intro y)); first | with_reducible refine Keeps.letGoal (s := s0) ?_ (fun _ _ => ?_) | with_reducible intro y)
    | simp only [Keeps.put_iff] | lift_lets | split)

theorem resetIngress_keeps {s0 t : State} (p) (h : Keeps s0 t) :
    Keeps s0 (resetIngress p t) := by
  unfold resetIngress
  repeat' (first
    | with_reducible assumption | with_reducible apply Keeps.ite | with_reducible apply cutLane_keeps
    | ((fail_if_success (fail_if_success with_reducible intro y)); first | with_reducible refine Keeps.letGoal (s := s0) ?_ (fun _ _ => ?_) | with_reducible intro y)
    | simp only [Keeps.put_iff] | lift_lets | split)

theorem replayStreams_keeps {s0 t : State} (ns) (h : Keeps s0 t) :
    Keeps s0 (replayStreams ns t) := by
  unfold replayStreams
  repeat' (first
    | with_reducible assumption | with_reducible apply Keeps.ite | with_reducible apply replayStream_keeps
    | with_reducible refine Keeps.foldl _ ?_ (fun _ _ _ => ?_)
    | ((fail_if_success (fail_if_success with_reducible intro y)); first | with_reducible refine Keeps.letGoal (s := s0) ?_ (fun _ _ => ?_) | with_reducible intro y)
    | simp only [Keeps.put_iff] | lift_lets | split)

theorem rowsAgain_keeps {s0 t : State} (h : Keeps s0 t) :
    Keeps s0 (rowsAgain t) := by
  unfold rowsAgain
  repeat' (first
    | with_reducible assumption | with_reducible apply Keeps.ite
    | ((fail_if_success (fail_if_success with_reducible intro y)); first | with_reducible refine Keeps.letGoal (s := s0) ?_ (fun _ _ => ?_) | with_reducible intro y)
    | simp only [Keeps.put_iff] | lift_lets | split)

theorem resetMatch_keeps {s0 t : State} (h : Keeps s0 t) :
    Keeps s0 (resetMatch t) := by
  unfold resetMatch
  repeat' (first
    | with_reducible assumption | with_reducible apply Keeps.ite | with_reducible apply rowsAgain_keeps
    | with_reducible apply replayStreams_keeps
    | ((fail_if_success (fail_if_success with_reducible intro y)); first | with_reducible refine Keeps.letGoal (s := s0) ?_ (fun _ _ => ?_) | with_reducible intro y)
    | simp only [Keeps.put_iff] | lift_lets | split)

theorem restartScrub_keeps {s0 t : State} (h : Keeps s0 t) :
    Keeps s0 (restartScrub t) := by
  unfold restartScrub
  repeat' (first
    | with_reducible assumption | with_reducible apply Keeps.ite
    | ((fail_if_success (fail_if_success with_reducible intro y)); first | with_reducible refine Keeps.letGoal (s := s0) ?_ (fun _ _ => ?_) | with_reducible intro y)
    | simp only [Keeps.put_iff] | lift_lets | split)

theorem dropVisits_keeps {s0 t : State} (h : Keeps s0 t) :
    Keeps s0 (dropVisits t) := by
  unfold dropVisits
  repeat' (first
    | with_reducible assumption | with_reducible apply Keeps.ite
    | ((fail_if_success (fail_if_success with_reducible intro y)); first | with_reducible refine Keeps.letGoal (s := s0) ?_ (fun _ _ => ?_) | with_reducible intro y)
    | simp only [Keeps.put_iff] | lift_lets | split)

theorem resetVault_keeps {s0 t : State} (h : Keeps s0 t) :
    Keeps s0 (resetVault t) := by
  unfold resetVault
  repeat' (first
    | with_reducible assumption | with_reducible apply Keeps.ite | with_reducible apply restartScrub_keeps
    | with_reducible apply replayStreams_keeps | with_reducible apply startWaiting_keeps
    | with_reducible apply dropVisits_keeps
    | ((fail_if_success (fail_if_success with_reducible intro y)); first | with_reducible refine Keeps.letGoal (s := s0) ?_ (fun _ _ => ?_) | with_reducible intro y)
    | simp only [Keeps.put_iff] | lift_lets | split)

theorem resetRow_keeps {s0 t : State} (r) (h : Keeps s0 t) :
    Keeps s0 (resetRow t r) := by
  unfold resetRow
  repeat' (first
    | with_reducible assumption | with_reducible apply Keeps.ite | with_reducible apply stepLost_keeps
    | ((fail_if_success (fail_if_success with_reducible intro y)); first | with_reducible refine Keeps.letGoal (s := s0) ?_ (fun _ _ => ?_) | with_reducible intro y)
    | simp only [Keeps.put_iff] | lift_lets | split)

theorem resetClear_keeps {s0 t : State} (h : Keeps s0 t) :
    Keeps s0 (resetClear t) := by
  unfold resetClear
  repeat' (first
    | with_reducible assumption | with_reducible apply Keeps.ite | with_reducible apply resetRow_keeps
    | with_reducible apply replayStreams_keeps | with_reducible refine Keeps.foldl _ ?_ (fun _ _ _ => ?_)
    | ((fail_if_success (fail_if_success with_reducible intro y)); first | with_reducible refine Keeps.letGoal (s := s0) ?_ (fun _ _ => ?_) | with_reducible intro y)
    | simp only [Keeps.put_iff] | lift_lets | split)

theorem resetLogit_keeps {s0 t : State} (h : Keeps s0 t) :
    Keeps s0 (resetLogit t) := by
  unfold resetLogit
  repeat' (first
    | with_reducible assumption | with_reducible apply Keeps.ite | with_reducible apply replayStream_keeps
    | with_reducible apply stepLost_keeps | with_reducible refine Keeps.foldl _ ?_ (fun _ _ _ => ?_)
    | ((fail_if_success (fail_if_success with_reducible intro y)); first | with_reducible refine Keeps.letGoal (s := s0) ?_ (fun _ _ => ?_) | with_reducible intro y)
    | simp only [Keeps.put_iff] | lift_lets | split)

theorem resetEgress_keeps {s0 t : State} (p) (h : Keeps s0 t) :
    Keeps s0 (resetEgress p t) := by
  unfold resetEgress
  repeat' (first
    | with_reducible assumption | with_reducible apply Keeps.ite | with_reducible apply setEgress_keeps
    | with_reducible apply setQueueAt_keeps
    | ((fail_if_success (fail_if_success with_reducible intro y)); first | with_reducible refine Keeps.letGoal (s := s0) ?_ (fun _ _ => ?_) | with_reducible intro y)
    | simp only [Keeps.put_iff] | lift_lets | split)

theorem resetMemPort_keeps {s0 t : State} (p) (h : Keeps s0 t) :
    Keeps s0 (resetMemPort p t) := by
  unfold resetMemPort
  repeat' (first
    | with_reducible assumption | with_reducible apply Keeps.ite | with_reducible apply bump_keeps
    | ((fail_if_success (fail_if_success with_reducible intro y)); first | with_reducible refine Keeps.letGoal (s := s0) ?_ (fun _ _ => ?_) | with_reducible intro y)
    | simp only [Keeps.put_iff] | lift_lets | split)

theorem resetBeat_keeps {s0 t : State} (h : Keeps s0 t) :
    Keeps s0 (resetBeat t) := by
  unfold resetBeat
  repeat' (first
    | with_reducible assumption | with_reducible apply Keeps.ite | with_reducible apply freeze_keeps
    | ((fail_if_success (fail_if_success with_reducible intro y)); first | with_reducible refine Keeps.letGoal (s := s0) ?_ (fun _ _ => ?_) | with_reducible intro y)
    | simp only [Keeps.put_iff] | lift_lets | split)

theorem emptyDebug_keeps {s0 t : State} (h : Keeps s0 t) :
    Keeps s0 (emptyDebug t) := by
  unfold emptyDebug
  repeat' (first
    | with_reducible assumption | with_reducible apply Keeps.ite
    | ((fail_if_success (fail_if_success with_reducible intro y)); first | with_reducible refine Keeps.letGoal (s := s0) ?_ (fun _ _ => ?_) | with_reducible intro y)
    | simp only [Keeps.put_iff] | lift_lets | split)

theorem resetDebug_keeps {s0 t : State} (h : Keeps s0 t) :
    Keeps s0 (resetDebug t) := by
  unfold resetDebug
  repeat' (first
    | with_reducible assumption | with_reducible apply Keeps.ite | with_reducible apply emptyDebug_keeps
    | ((fail_if_success (fail_if_success with_reducible intro y)); first | with_reducible refine Keeps.letGoal (s := s0) ?_ (fun _ _ => ?_) | with_reducible intro y)
    | simp only [Keeps.put_iff] | lift_lets | split)

theorem resetMon_keeps {s0 t : State} (h : Keeps s0 t) :
    Keeps s0 (resetMon t) := by
  unfold resetMon
  repeat' (first
    | with_reducible assumption | with_reducible apply Keeps.ite | with_reducible apply endActivity_keeps
    | with_reducible refine Keeps.foldl _ ?_ (fun _ _ _ => ?_)
    | ((fail_if_success (fail_if_success with_reducible intro y)); first | with_reducible refine Keeps.letGoal (s := s0) ?_ (fun _ _ => ?_) | with_reducible intro y)
    | simp only [Keeps.put_iff] | lift_lets | split)

theorem resetCore_keeps {s0 t : State} (h : Keeps s0 t) :
    Keeps s0 (resetCore t) := by
  unfold resetCore
  repeat' (first
    | with_reducible assumption | with_reducible apply Keeps.ite | with_reducible apply keepTags_keeps
    | with_reducible apply cutLane_keeps | with_reducible apply dropAccesses_keeps
    | with_reducible refine Keeps.foldl _ ?_ (fun _ _ _ => ?_)
    | ((fail_if_success (fail_if_success with_reducible intro y)); first | with_reducible refine Keeps.letGoal (s := s0) ?_ (fun _ _ => ?_) | with_reducible intro y)
    | simp only [Keeps.put_iff] | lift_lets | split)

theorem releaseCore_keeps {s0 t : State} (h : Keeps s0 t) :
    Keeps s0 (releaseCore t) := by
  unfold releaseCore
  repeat' (first
    | with_reducible assumption | with_reducible apply Keeps.ite | with_reducible apply openStored_keeps
    | with_reducible apply answerCut_keeps | with_reducible refine Keeps.foldl _ ?_ (fun _ _ _ => ?_)
    | ((fail_if_success (fail_if_success with_reducible intro y)); first | with_reducible refine Keeps.letGoal (s := s0) ?_ (fun _ _ => ?_) | with_reducible intro y)
    | simp only [Keeps.put_iff] | lift_lets | split)

theorem resetEffect_keeps {s0 t : State} (d) (h : Keeps s0 t) :
    Keeps s0 (resetEffect d t) := by
  unfold resetEffect
  repeat' (first
    | with_reducible assumption | with_reducible apply Keeps.ite | with_reducible apply resetCore_keeps
    | with_reducible apply resetMatch_keeps | with_reducible apply resetVault_keeps
    | with_reducible apply resetClear_keeps | with_reducible apply resetMemPort_keeps
    | with_reducible apply resetIngress_keeps | with_reducible apply resetEgress_keeps
    | with_reducible apply resetLogit_keeps | with_reducible apply resetBeat_keeps
    | with_reducible apply resetDebug_keeps | with_reducible apply resetMon_keeps
    | ((fail_if_success (fail_if_success with_reducible intro y)); first | with_reducible refine Keeps.letGoal (s := s0) ?_ (fun _ _ => ?_) | with_reducible intro y)
    | simp only [Keeps.put_iff] | lift_lets | split)

theorem enterReset_keeps {s0 t : State} (d) (h : Keeps s0 t) :
    Keeps s0 (enterReset d t) := by
  unfold enterReset
  repeat' (first
    | with_reducible assumption | with_reducible apply Keeps.ite | with_reducible apply setRegBit_keeps
    | with_reducible apply resetEffect_keeps
    | ((fail_if_success (fail_if_success with_reducible intro y)); first | with_reducible refine Keeps.letGoal (s := s0) ?_ (fun _ _ => ?_) | with_reducible intro y)
    | simp only [Keeps.put_iff] | lift_lets | split)

theorem leaveReset_keeps {s0 t : State} (d) (h : Keeps s0 t) :
    Keeps s0 (leaveReset d t) := by
  unfold leaveReset
  repeat' (first
    | with_reducible assumption | with_reducible apply Keeps.ite | with_reducible apply releaseCore_keeps
    | ((fail_if_success (fail_if_success with_reducible intro y)); first | with_reducible refine Keeps.letGoal (s := s0) ?_ (fun _ _ => ?_) | with_reducible intro y)
    | simp only [Keeps.put_iff] | lift_lets | split)

end Sys2Proof.Machine
end

