-- ==== Sys2Proof/Laws/Keep/Keyed.lean ====
section
/-!
SUPPORT. What the definitions of Machine/Keyed.lean leave as it was.
-/

namespace Sys2Proof.Machine

set_option linter.unusedTactic false
set_option linter.unreachableTactic false
set_option linter.unusedSimpArgs false

theorem setCeiling_keeps {s0 t : State} (r) (h : Keeps s0 t) :
    Keeps s0 (setCeiling r t) := by
  unfold setCeiling
  repeat' (first
    | with_reducible assumption | with_reducible apply Keeps.ite | with_reducible apply endKeyed_keeps
    | with_reducible apply setReg_keeps
    | ((fail_if_success (fail_if_success with_reducible intro y)); first | with_reducible refine Keeps.letGoal (s := s0) ?_ (fun _ _ => ?_) | with_reducible intro y)
    | simp only [Keeps.put_iff] | lift_lets | split)

theorem setHashRow_keeps {s0 t : State} (j v) (h : Keeps s0 t) :
    Keeps s0 (setHashRow j v t) := by
  unfold setHashRow
  repeat' (first
    | with_reducible assumption | with_reducible apply Keeps.ite | with_reducible apply setReg_keeps
    | ((fail_if_success (fail_if_success with_reducible intro y)); first | with_reducible refine Keeps.letGoal (s := s0) ?_ (fun _ _ => ?_) | with_reducible intro y)
    | simp only [Keeps.put_iff] | lift_lets | split)

theorem setHash_keeps {s0 t : State} (r) (h : Keeps s0 t) :
    Keeps s0 (setHash r t) := by
  unfold setHash
  repeat' (first
    | with_reducible assumption | with_reducible apply Keeps.ite | with_reducible apply endKeyed_keeps
    | with_reducible apply setHashRow_keeps | with_reducible refine Keeps.foldl _ ?_ (fun _ _ _ => ?_)
    | ((fail_if_success (fail_if_success with_reducible intro y)); first | with_reducible refine Keeps.letGoal (s := s0) ?_ (fun _ _ => ?_) | with_reducible intro y)
    | simp only [Keeps.put_iff] | lift_lets | split)

theorem endActivities_keeps {s0 t : State} (h : Keeps s0 t) :
    Keeps s0 (endActivities t) := by
  unfold endActivities
  repeat' (first
    | with_reducible assumption | with_reducible apply Keeps.ite
    | ((fail_if_success (fail_if_success with_reducible intro y)); first | with_reducible refine Keeps.letGoal (s := s0) ?_ (fun _ _ => ?_) | with_reducible intro y)
    | simp only [Keeps.put_iff] | lift_lets | split)

theorem zeroContents_keeps {s0 t : State} (h : Keeps s0 t) :
    Keeps s0 (zeroContents t) :=
  ⟨h.build, h.pending, fun i => ⟨rfl, rfl, (h.inv i).2.2⟩⟩

theorem startZeroise_keeps {s0 t : State} (h : Keeps s0 t) :
    Keeps s0 (startZeroise t) := by
  unfold startZeroise
  repeat' (first
    | with_reducible assumption | with_reducible apply Keeps.ite | with_reducible apply resetEffect_keeps
    | with_reducible apply answerCut_keeps | with_reducible apply endActivities_keeps
    | with_reducible apply dropAccesses_keeps | with_reducible apply setStage_keeps
    | with_reducible apply clearRegBit_keeps | with_reducible apply zeroContents_keeps
    | with_reducible refine Keeps.foldl _ ?_ (fun _ _ _ => ?_)
    | ((fail_if_success (fail_if_success with_reducible intro y)); first | with_reducible refine Keeps.letGoal (s := s0) ?_ (fun _ _ => ?_) | with_reducible intro y)
    | simp only [Keeps.put_iff] | lift_lets | split)

theorem debugUnlock_keeps {s0 t : State} (r) (h : Keeps s0 t) :
    Keeps s0 (debugUnlock r t) := by
  unfold debugUnlock
  repeat' (first
    | with_reducible assumption | with_reducible apply Keeps.ite | with_reducible apply endKeyed_keeps
    | ((fail_if_success (fail_if_success with_reducible intro y)); first | with_reducible refine Keeps.letGoal (s := s0) ?_ (fun _ _ => ?_) | with_reducible intro y)
    | simp only [Keeps.put_iff] | lift_lets | split)

theorem carryOut_keeps {s0 t : State} (h : Keeps s0 t) :
    Keeps s0 (carryOut t) := by
  unfold carryOut
  repeat' (first
    | with_reducible assumption | with_reducible apply Keeps.ite | with_reducible apply startLoad_keeps
    | with_reducible apply setCeiling_keeps | with_reducible apply startRepair_keeps
    | with_reducible apply setHash_keeps | with_reducible apply startZeroise_keeps
    | with_reducible apply debugUnlock_keeps
    | ((fail_if_success (fail_if_success with_reducible intro y)); first | with_reducible refine Keeps.letGoal (s := s0) ?_ (fun _ _ => ?_) | with_reducible intro y)
    | simp only [Keeps.put_iff] | lift_lets | split)

theorem takeKeyed_keeps {s0 t : State} (r key) (h : Keeps s0 t) :
    Keeps s0 (takeKeyed r key t) := by
  unfold takeKeyed
  repeat' (first
    | with_reducible assumption | with_reducible apply Keeps.ite | with_reducible apply bump_keeps
    | with_reducible apply onRun_keeps | with_reducible apply journal_keeps | with_reducible apply setStage_keeps
    | with_reducible apply carryOut_keeps
    | ((fail_if_success (fail_if_success with_reducible intro y)); first | with_reducible refine Keeps.letGoal (s := s0) ?_ (fun _ _ => ?_) | with_reducible intro y)
    | simp only [Keeps.put_iff] | lift_lets | split)

theorem tagFailed_keeps {s0 t : State} (r) (h : Keeps s0 t) :
    Keeps s0 (tagFailed r t) := by
  unfold tagFailed
  repeat' (first
    | with_reducible assumption | with_reducible apply Keeps.ite | with_reducible apply endKeyed_keeps
    | with_reducible apply bump_keeps
    | ((fail_if_success (fail_if_success with_reducible intro y)); first | with_reducible refine Keeps.letGoal (s := s0) ?_ (fun _ _ => ?_) | with_reducible intro y)
    | simp only [Keeps.put_iff] | lift_lets | split)

theorem checkKeyed_keeps {s0 t : State} (r) (h : Keeps s0 t) :
    Keeps s0 (checkKeyed r t) := by
  unfold checkKeyed
  repeat' (first
    | with_reducible assumption | with_reducible apply Keeps.ite | with_reducible apply tagFailed_keeps
    | with_reducible apply endKeyed_keeps | with_reducible apply bump_keeps | with_reducible apply takeKeyed_keeps
    | ((fail_if_success (fail_if_success with_reducible intro y)); first | with_reducible refine Keeps.letGoal (s := s0) ?_ (fun _ _ => ?_) | with_reducible intro y)
    | simp only [Keeps.put_iff] | lift_lets | split)

theorem checkHeld_keeps {s0 t : State} (h : Keeps s0 t) :
    Keeps s0 (checkHeld t) := by
  unfold checkHeld
  repeat' (first
    | with_reducible assumption | with_reducible apply Keeps.ite | with_reducible apply endKeyed_keeps
    | with_reducible apply setStage_keeps | with_reducible apply checkKeyed_keeps
    | ((fail_if_success (fail_if_success with_reducible intro y)); first | with_reducible refine Keeps.letGoal (s := s0) ?_ (fun _ _ => ?_) | with_reducible intro y)
    | simp only [Keeps.put_iff] | lift_lets | split)

theorem goKeyed_keeps {s0 t : State} (h : Keeps s0 t) :
    Keeps s0 (goKeyed t) := by
  unfold goKeyed
  repeat' (first
    | with_reducible assumption | with_reducible apply Keeps.ite | with_reducible apply checkHeld_keeps
    | ((fail_if_success (fail_if_success with_reducible intro y)); first | with_reducible refine Keeps.letGoal (s := s0) ?_ (fun _ _ => ?_) | with_reducible intro y)
    | simp only [Keeps.put_iff] | lift_lets | split)

theorem goWith_keeps {s0 t : State} (p) (h : Keeps s0 t) :
    OKeeps s0 (goWith p t) := by
  unfold goWith
  repeat' (first
    | with_reducible assumption | with_reducible apply OKeeps.next | with_reducible exact OKeeps.refused _
    | with_reducible apply OKeeps.ite | with_reducible apply Keeps.ite | with_reducible apply viaPort_keeps
    | with_reducible apply sweep_keeps | with_reducible apply goKeyed_keeps
    | ((fail_if_success (fail_if_success with_reducible intro y)); first | with_reducible refine Keeps.letGoal (s := s0) ?_ (fun _ _ => ?_) | with_reducible intro y)
    | simp only [Keeps.put_iff] | lift_lets | split)

theorem execLoadImage_keeps {s0 t : State} (h : Keeps s0 t) :
    OKeeps s0 (execLoadImage t) := by
  unfold execLoadImage
  repeat' (first
    | with_reducible assumption | with_reducible apply OKeeps.next | with_reducible exact OKeeps.refused _
    | with_reducible apply OKeeps.ite | with_reducible apply Keeps.ite | with_reducible apply goWith_keeps
    | ((fail_if_success (fail_if_success with_reducible intro y)); first | with_reducible refine Keeps.letGoal (s := s0) ?_ (fun _ _ => ?_) | with_reducible intro y)
    | simp only [Keeps.put_iff] | lift_lets | split)

theorem execSetCeiling_keeps {s0 t : State} (h : Keeps s0 t) :
    OKeeps s0 (execSetCeiling t) := by
  unfold execSetCeiling
  repeat' (first
    | with_reducible assumption | with_reducible apply OKeeps.next | with_reducible exact OKeeps.refused _
    | with_reducible apply OKeeps.ite | with_reducible apply Keeps.ite | with_reducible apply goWith_keeps
    | ((fail_if_success (fail_if_success with_reducible intro y)); first | with_reducible refine Keeps.letGoal (s := s0) ?_ (fun _ _ => ?_) | with_reducible intro y)
    | simp only [Keeps.put_iff] | lift_lets | split)

theorem execRemapRow_keeps {s0 t : State} (h : Keeps s0 t) :
    OKeeps s0 (execRemapRow t) := by
  unfold execRemapRow
  repeat' (first
    | with_reducible assumption | with_reducible apply OKeeps.next | with_reducible exact OKeeps.refused _
    | with_reducible apply OKeeps.ite | with_reducible apply Keeps.ite | with_reducible apply goWith_keeps
    | ((fail_if_success (fail_if_success with_reducible intro y)); first | with_reducible refine Keeps.letGoal (s := s0) ?_ (fun _ _ => ?_) | with_reducible intro y)
    | simp only [Keeps.put_iff] | lift_lets | split)

theorem execRetire_keeps {s0 t : State} (h : Keeps s0 t) :
    OKeeps s0 (execRetire t) := by
  unfold execRetire
  repeat' (first
    | with_reducible assumption | with_reducible apply OKeeps.next | with_reducible exact OKeeps.refused _
    | with_reducible apply OKeeps.ite | with_reducible apply Keeps.ite | with_reducible apply goWith_keeps
    | ((fail_if_success (fail_if_success with_reducible intro y)); first | with_reducible refine Keeps.letGoal (s := s0) ?_ (fun _ _ => ?_) | with_reducible intro y)
    | simp only [Keeps.put_iff] | lift_lets | split)

theorem execRestore_keeps {s0 t : State} (h : Keeps s0 t) :
    OKeeps s0 (execRestore t) := by
  unfold execRestore
  repeat' (first
    | with_reducible assumption | with_reducible apply OKeeps.next | with_reducible exact OKeeps.refused _
    | with_reducible apply OKeeps.ite | with_reducible apply Keeps.ite | with_reducible apply goWith_keeps
    | ((fail_if_success (fail_if_success with_reducible intro y)); first | with_reducible refine Keeps.letGoal (s := s0) ?_ (fun _ _ => ?_) | with_reducible intro y)
    | simp only [Keeps.put_iff] | lift_lets | split)

theorem execMargin_keeps {s0 t : State} (h : Keeps s0 t) :
    OKeeps s0 (execMargin t) := by
  unfold execMargin
  repeat' (first
    | with_reducible assumption | with_reducible apply OKeeps.next | with_reducible exact OKeeps.refused _
    | with_reducible apply OKeeps.ite | with_reducible apply Keeps.ite | with_reducible apply goWith_keeps
    | ((fail_if_success (fail_if_success with_reducible intro y)); first | with_reducible refine Keeps.letGoal (s := s0) ?_ (fun _ _ => ?_) | with_reducible intro y)
    | simp only [Keeps.put_iff] | lift_lets | split)

theorem execSetHash_keeps {s0 t : State} (h : Keeps s0 t) :
    OKeeps s0 (execSetHash t) := by
  unfold execSetHash
  repeat' (first
    | with_reducible assumption | with_reducible apply OKeeps.next | with_reducible exact OKeeps.refused _
    | with_reducible apply OKeeps.ite | with_reducible apply Keeps.ite | with_reducible apply goWith_keeps
    | ((fail_if_success (fail_if_success with_reducible intro y)); first | with_reducible refine Keeps.letGoal (s := s0) ?_ (fun _ _ => ?_) | with_reducible intro y)
    | simp only [Keeps.put_iff] | lift_lets | split)

theorem execZeroise_keeps {s0 t : State} (h : Keeps s0 t) :
    OKeeps s0 (execZeroise t) := by
  unfold execZeroise
  repeat' (first
    | with_reducible assumption | with_reducible apply OKeeps.next | with_reducible exact OKeeps.refused _
    | with_reducible apply OKeeps.ite | with_reducible apply Keeps.ite | with_reducible apply goWith_keeps
    | ((fail_if_success (fail_if_success with_reducible intro y)); first | with_reducible refine Keeps.letGoal (s := s0) ?_ (fun _ _ => ?_) | with_reducible intro y)
    | simp only [Keeps.put_iff] | lift_lets | split)

theorem execDebugUnlock_keeps {s0 t : State} (h : Keeps s0 t) :
    OKeeps s0 (execDebugUnlock t) := by
  unfold execDebugUnlock
  repeat' (first
    | with_reducible assumption | with_reducible apply OKeeps.next | with_reducible exact OKeeps.refused _
    | with_reducible apply OKeeps.ite | with_reducible apply Keeps.ite | with_reducible apply goWith_keeps
    | ((fail_if_success (fail_if_success with_reducible intro y)); first | with_reducible refine Keeps.letGoal (s := s0) ?_ (fun _ _ => ?_) | with_reducible intro y)
    | simp only [Keeps.put_iff] | lift_lets | split)

theorem execMalformedKeyedCommand_keeps {s0 t : State} (h : Keeps s0 t) :
    OKeeps s0 (execMalformedKeyedCommand t) := by
  unfold execMalformedKeyedCommand
  repeat' (first
    | with_reducible assumption | with_reducible apply OKeeps.next | with_reducible exact OKeeps.refused _
    | with_reducible apply OKeeps.ite | with_reducible apply Keeps.ite | with_reducible apply goWith_keeps
    | ((fail_if_success (fail_if_success with_reducible intro y)); first | with_reducible refine Keeps.letGoal (s := s0) ?_ (fun _ _ => ?_) | with_reducible intro y)
    | simp only [Keeps.put_iff] | lift_lets | split)

theorem execZeroiseDone_keeps {s0 t : State} (h : Keeps s0 t) :
    OKeeps s0 (execZeroiseDone t) := by
  unfold execZeroiseDone
  repeat' (first
    | with_reducible assumption | with_reducible apply OKeeps.next | with_reducible exact OKeeps.refused _
    | with_reducible apply OKeeps.ite | with_reducible apply Keeps.ite | with_reducible apply automaticPass_keeps
    | with_reducible apply endKeyed_keeps
    | ((fail_if_success (fail_if_success with_reducible intro y)); first | with_reducible refine Keeps.letGoal (s := s0) ?_ (fun _ _ => ?_) | with_reducible intro y)
    | simp only [Keeps.put_iff] | lift_lets | split)

theorem lockDebug_keeps {s0 t : State} (h : Keeps s0 t) :
    Keeps s0 (lockDebug t) := by
  unfold lockDebug
  repeat' (first
    | with_reducible assumption | with_reducible apply Keeps.ite
    | ((fail_if_success (fail_if_success with_reducible intro y)); first | with_reducible refine Keeps.letGoal (s := s0) ?_ (fun _ _ => ?_) | with_reducible intro y)
    | simp only [Keeps.put_iff] | lift_lets | split)

theorem execDlock_keeps {s0 t : State} (h : Keeps s0 t) :
    OKeeps s0 (execDlock t) := by
  unfold execDlock
  repeat' (first
    | with_reducible assumption | with_reducible apply OKeeps.next | with_reducible exact OKeeps.refused _
    | with_reducible apply OKeeps.ite | with_reducible apply Keeps.ite | with_reducible apply viaPort_keeps
    | with_reducible apply lockDebug_keeps
    | ((fail_if_success (fail_if_success with_reducible intro y)); first | with_reducible refine Keeps.letGoal (s := s0) ?_ (fun _ _ => ?_) | with_reducible intro y)
    | simp only [Keeps.put_iff] | lift_lets | split)

theorem execKeyEpoch_keeps {s0 t : State} (e) (h : Keeps s0 t) :
    OKeeps s0 (execKeyEpoch e t) := by
  unfold execKeyEpoch
  repeat' (first
    | with_reducible assumption | with_reducible apply OKeeps.next | with_reducible exact OKeeps.refused _
    | with_reducible apply OKeeps.ite | with_reducible apply Keeps.ite | with_reducible apply setRegBit_keeps
    | ((fail_if_success (fail_if_success with_reducible intro y)); first | with_reducible refine Keeps.letGoal (s := s0) ?_ (fun _ _ => ?_) | with_reducible intro y)
    | simp only [Keeps.put_iff] | lift_lets | split)

theorem setKey_keeps {s0 t : State} (slot k) (h : Keeps s0 t) :
    Keeps s0 (setKey slot k t) := by
  unfold setKey
  repeat' (first
    | with_reducible assumption | with_reducible apply Keeps.ite
    | ((fail_if_success (fail_if_success with_reducible intro y)); first | with_reducible refine Keeps.letGoal (s := s0) ?_ (fun _ _ => ?_) | with_reducible intro y)
    | simp only [Keeps.put_iff] | lift_lets | split)

theorem execKeyDelivery_keeps {s0 t : State} (slot key) (h : Keeps s0 t) :
    OKeeps s0 (execKeyDelivery slot key t) := by
  unfold execKeyDelivery
  repeat' (first
    | with_reducible assumption | with_reducible apply OKeeps.next | with_reducible exact OKeeps.refused _
    | with_reducible apply OKeeps.ite | with_reducible apply Keeps.ite | with_reducible apply setKey_keeps
    | ((fail_if_success (fail_if_success with_reducible intro y)); first | with_reducible refine Keeps.letGoal (s := s0) ?_ (fun _ _ => ?_) | with_reducible intro y)
    | simp only [Keeps.put_iff] | lift_lets | split)

theorem execKeyClear_keeps {s0 t : State} (slot) (h : Keeps s0 t) :
    OKeeps s0 (execKeyClear slot t) := by
  unfold execKeyClear
  repeat' (first
    | with_reducible assumption | with_reducible apply OKeeps.next | with_reducible exact OKeeps.refused _
    | with_reducible apply OKeeps.ite | with_reducible apply Keeps.ite | with_reducible apply setKey_keeps
    | ((fail_if_success (fail_if_success with_reducible intro y)); first | with_reducible refine Keeps.letGoal (s := s0) ?_ (fun _ _ => ?_) | with_reducible intro y)
    | simp only [Keeps.put_iff] | lift_lets | split)

theorem execTagBackoffEnd_keeps {s0 t : State} (slot) (h : Keeps s0 t) :
    OKeeps s0 (execTagBackoffEnd slot t) := by
  unfold execTagBackoffEnd
  repeat' (first
    | with_reducible assumption | with_reducible apply OKeeps.next | with_reducible exact OKeeps.refused _
    | with_reducible apply OKeeps.ite | with_reducible apply Keeps.ite | with_reducible apply sweep_keeps
    | with_reducible apply checkHeld_keeps
    | ((fail_if_success (fail_if_success with_reducible intro y)); first | with_reducible refine Keeps.letGoal (s := s0) ?_ (fun _ _ => ?_) | with_reducible intro y)
    | simp only [Keeps.put_iff] | lift_lets | split)

end Sys2Proof.Machine
end

