-- ==== Sys2Proof/Laws/Keep/Finish.lean ====
section
/-!
SUPPORT. What the definitions of Machine/Finish.lean leave as it was.
-/

namespace Sys2Proof.Machine

set_option linter.unusedTactic false
set_option linter.unreachableTactic false
set_option linter.unusedSimpArgs false

theorem markLost_keeps {s0 t : State} (m) (h : Keeps s0 t) :
    Keeps s0 (markLost m t) := by
  unfold markLost
  repeat' (first
    | with_reducible assumption | with_reducible apply Keeps.ite
    | ((fail_if_success (fail_if_success with_reducible intro y)); first | with_reducible refine Keeps.letGoal (s := s0) ?_ (fun _ _ => ?_) | with_reducible intro y)
    | simp only [Keeps.put_iff] | lift_lets | split)

theorem noteFailure_keeps {s0 t : State} (a) (h : Keeps s0 t) :
    Keeps s0 (noteFailure a t) := by
  unfold noteFailure
  repeat' (first
    | with_reducible assumption | with_reducible apply Keeps.ite | with_reducible apply takeFree_keeps
    | (refine Keeps.sndOf ?_ ‹takeFree _ = (_, _)›; with_reducible apply takeFree_keeps)
    | with_reducible apply logFailure_keeps | with_reducible apply audFault_keeps
    | ((fail_if_success (fail_if_success with_reducible intro y)); first | with_reducible refine Keeps.letGoal (s := s0) ?_ (fun _ _ => ?_) | with_reducible intro y)
    | simp only [Keeps.put_iff] | lift_lets | split)

theorem loseMirror_keeps {s0 t : State} (m status) (h : Keeps s0 t) :
    Keeps s0 (loseMirror m status t) := by
  unfold loseMirror
  repeat' (first
    | with_reducible assumption | with_reducible apply Keeps.ite | with_reducible apply audFault_keeps
    | with_reducible apply markLost_keeps | with_reducible apply journal_keeps
    | ((fail_if_success (fail_if_success with_reducible intro y)); first | with_reducible refine Keeps.letGoal (s := s0) ?_ (fun _ _ => ?_) | with_reducible intro y)
    | simp only [Keeps.put_iff] | lift_lets | split)

theorem loseMirrors_keeps {s0 t : State} (a) (h : Keeps s0 t) :
    Keeps s0 (loseMirrors a t) := by
  unfold loseMirrors
  repeat' (first
    | with_reducible assumption | with_reducible apply Keeps.ite | with_reducible apply loseMirror_keeps
    | with_reducible refine Keeps.foldl _ ?_ (fun _ _ _ => ?_)
    | ((fail_if_success (fail_if_success with_reducible intro y)); first | with_reducible refine Keeps.letGoal (s := s0) ?_ (fun _ _ => ?_) | with_reducible intro y)
    | simp only [Keeps.put_iff] | lift_lets | split)

theorem loseFailed_keeps {s0 t : State} (h : Keeps s0 t) :
    Keeps s0 (loseFailed t) := by
  unfold loseFailed
  repeat' (first
    | with_reducible assumption | with_reducible apply Keeps.ite | with_reducible apply loseMirrors_keeps
    | with_reducible refine Keeps.foldl _ ?_ (fun _ _ _ => ?_)
    | ((fail_if_success (fail_if_success with_reducible intro y)); first | with_reducible refine Keeps.letGoal (s := s0) ?_ (fun _ _ => ?_) | with_reducible intro y)
    | simp only [Keeps.put_iff] | lift_lets | split)

theorem completed_keeps {s0 t : State} (n) (h : Keeps s0 t) :
    Keeps s0 (completed n t) := by
  unfold completed
  repeat' (first
    | with_reducible assumption | with_reducible apply Keeps.ite | with_reducible apply onItem_keeps
    | with_reducible apply advanceMark_keeps
    | ((fail_if_success (fail_if_success with_reducible intro y)); first | with_reducible refine Keeps.letGoal (s := s0) ?_ (fun _ _ => ?_) | with_reducible intro y)
    | simp only [Keeps.put_iff] | lift_lets | split)

theorem closeDone_keeps {s0 t : State} (n) (h : Keeps s0 t) :
    Keeps s0 (closeDone n t) := by
  unfold closeDone
  repeat' (first
    | with_reducible assumption | with_reducible apply Keeps.ite | with_reducible apply bump_keeps
    | with_reducible apply setStream_keeps
    | ((fail_if_success (fail_if_success with_reducible intro y)); first | with_reducible refine Keeps.letGoal (s := s0) ?_ (fun _ _ => ?_) | with_reducible intro y)
    | simp only [Keeps.put_iff] | lift_lets | split)

theorem markWritten_keeps {s0 t : State} (n) (h : Keeps s0 t) :
    Keeps s0 (markWritten n t) := by
  unfold markWritten
  repeat' (first
    | with_reducible assumption | with_reducible apply Keeps.ite | with_reducible apply onStream_keeps
    | with_reducible apply writePaid_keeps
    | ((fail_if_success (fail_if_success with_reducible intro y)); first | with_reducible refine Keeps.letGoal (s := s0) ?_ (fun _ _ => ?_) | with_reducible intro y)
    | simp only [Keeps.put_iff] | lift_lets | split)

theorem runAfter_keeps {s0 t : State} (next) (h : Keeps s0 t) :
    Keeps s0 (runAfter next t) := by
  unfold runAfter
  repeat' (first
    | with_reducible assumption | with_reducible apply Keeps.ite | with_reducible apply drainLanes_keeps
    | with_reducible apply acceptDone_keeps | with_reducible apply postDone_keeps
    | with_reducible apply answerThread_keeps | with_reducible apply settleDone_keeps
    | with_reducible apply closeDone_keeps | with_reducible apply sendRecord_keeps
    | with_reducible apply markWritten_keeps | with_reducible apply carryOut_keeps
    | with_reducible apply journalOpened_keeps
    | ((fail_if_success (fail_if_success with_reducible intro y)); first | with_reducible refine Keeps.letGoal (s := s0) ?_ (fun _ _ => ?_) | with_reducible intro y)
    | simp only [Keeps.put_iff] | lift_lets | split)

theorem entryWritten_keeps {s0 t : State} (e next) (h : Keeps s0 t) :
    Keeps s0 (entryWritten e next t) := by
  unfold entryWritten
  repeat' (first
    | with_reducible assumption | with_reducible apply Keeps.ite | with_reducible apply runAfter_keeps
    | with_reducible apply completed_keeps
    | ((fail_if_success (fail_if_success with_reducible intro y)); first | with_reducible refine Keeps.letGoal (s := s0) ?_ (fun _ _ => ?_) | with_reducible intro y)
    | simp only [Keeps.put_iff] | lift_lets | split)

theorem recordWritten_keeps {s0 t : State} (e next) (h : Keeps s0 t) :
    Keeps s0 (recordWritten e next t) := by
  unfold recordWritten
  repeat' (first
    | with_reducible assumption | with_reducible apply Keeps.ite | with_reducible apply writeEntry_keeps
    | with_reducible apply drainWaiting_keeps
    | ((fail_if_success (fail_if_success with_reducible intro y)); first | with_reducible refine Keeps.letGoal (s := s0) ?_ (fun _ _ => ?_) | with_reducible intro y)
    | simp only [Keeps.put_iff] | lift_lets | split)

theorem failItem_keeps {s0 t : State} (ledger status) (h : Keeps s0 t) :
    Keeps s0 (failItem ledger status t) := by
  unfold failItem
  repeat' (first
    | with_reducible assumption | with_reducible apply Keeps.ite | with_reducible apply replayItem_keeps
    | ((fail_if_success (fail_if_success with_reducible intro y)); first | with_reducible refine Keeps.letGoal (s := s0) ?_ (fun _ _ => ?_) | with_reducible intro y)
    | simp only [Keeps.put_iff] | lift_lets | split)

theorem putBack_keeps {s0 t : State} (c) (h : Keeps s0 t) :
    Keeps s0 (putBack c t) := by
  unfold putBack
  repeat' (first
    | with_reducible assumption | with_reducible apply Keeps.ite | with_reducible apply setLane_keeps
    | ((fail_if_success (fail_if_success with_reducible intro y)); first | with_reducible refine Keeps.letGoal (s := s0) ?_ (fun _ _ => ?_) | with_reducible intro y)
    | simp only [Keeps.put_iff] | lift_lets | split)

theorem preReadDone_keeps {s0 t : State} (c a) (h : Keeps s0 t) :
    Keeps s0 (preReadDone c a t) := by
  unfold preReadDone
  repeat' (first
    | with_reducible assumption | with_reducible apply Keeps.ite | with_reducible apply drainLanes_keeps
    | with_reducible apply refuseChunk_keeps | with_reducible apply acceptChunk_keeps
    | with_reducible apply putBack_keeps
    | ((fail_if_success (fail_if_success with_reducible intro y)); first | with_reducible refine Keeps.letGoal (s := s0) ?_ (fun _ _ => ?_) | with_reducible intro y)
    | simp only [Keeps.put_iff] | lift_lets | split)

theorem goldenLost_keeps {s0 t : State} (bank) (h : Keeps s0 t) :
    Keeps s0 (goldenLost bank t) := by
  unfold goldenLost
  repeat' (first
    | with_reducible assumption | with_reducible apply Keeps.ite | with_reducible apply bump_keeps
    | with_reducible apply endActivity_keeps | with_reducible apply retireLive_keeps
    | with_reducible apply bankAbsent_keeps | with_reducible apply spareOut_keeps
    | with_reducible apply takeOut_keeps | with_reducible refine Keeps.foldl _ ?_ (fun _ _ _ => ?_)
    | ((fail_if_success (fail_if_success with_reducible intro y)); first | with_reducible refine Keeps.letGoal (s := s0) ?_ (fun _ _ => ?_) | with_reducible intro y)
    | simp only [Keeps.put_iff] | lift_lets | split)

theorem goldenDone_keeps {s0 t : State} (bank copy a) (h : Keeps s0 t) :
    Keeps s0 (goldenDone bank copy a t) := by
  unfold goldenDone
  repeat' (first
    | with_reducible assumption | with_reducible apply Keeps.ite | with_reducible apply goldenLost_keeps
    | with_reducible apply startAccess_keeps
    | ((fail_if_success (fail_if_success with_reducible intro y)); first | with_reducible refine Keeps.letGoal (s := s0) ?_ (fun _ _ => ?_) | with_reducible intro y)
    | simp only [Keeps.put_iff] | lift_lets | split)

theorem messageFailed_keeps {s0 t : State} (mtag status) (h : Keeps s0 t) :
    Keeps s0 (messageFailed mtag status t) := by
  unfold messageFailed
  repeat' (first
    | with_reducible assumption | with_reducible apply Keeps.ite | with_reducible apply retryPort_keeps
    | with_reducible apply failItem_keeps
    | ((fail_if_success (fail_if_success with_reducible intro y)); first | with_reducible refine Keeps.letGoal (s := s0) ?_ (fun _ _ => ?_) | with_reducible intro y)
    | simp only [Keeps.put_iff] | lift_lets | split)

theorem jobDone_keeps {s0 t : State} (a) (h : Keeps s0 t) :
    Keeps s0 (jobDone a t) := by
  unfold jobDone
  repeat' (first
    | with_reducible assumption | with_reducible apply Keeps.ite | with_reducible apply finishLdx_keeps
    | with_reducible apply finishStx_keeps | with_reducible apply entryWritten_keeps
    | with_reducible apply loseMirrors_keeps | with_reducible apply recordWritten_keeps
    | with_reducible apply preReadDone_keeps | with_reducible apply tellerEmit_keeps
    | with_reducible apply issueTile_keeps | with_reducible apply deliverAgain_keeps
    | with_reducible apply pageLine_keeps | with_reducible apply mintFinish_keeps
    | with_reducible apply writePatch_keeps | with_reducible apply resolved_keeps
    | with_reducible apply ckptBack_keeps | with_reducible apply retryPort_keeps
    | with_reducible apply draftArrived_keeps | with_reducible apply maskArrived_keeps
    | with_reducible apply passOn_keeps | with_reducible apply deliverRecord_keeps
    | with_reducible apply copyWritten_keeps | with_reducible apply goldenDone_keeps
    | with_reducible apply reloadDone_keeps | with_reducible apply tokPlaced_keeps
    | with_reducible apply tablesReplaced_keeps | with_reducible apply grammarPlaced_keeps
    | with_reducible apply setPlaced_keeps | with_reducible apply ringRead_keeps | with_reducible apply recRead_keeps
    | with_reducible apply ckptRead_keeps | with_reducible apply journal_keeps
    | ((fail_if_success (fail_if_success with_reducible intro y)); first | with_reducible refine Keeps.letGoal (s := s0) ?_ (fun _ _ => ?_) | with_reducible intro y)
    | simp only [Keeps.put_iff] | lift_lets | split)

theorem jobFailed_keeps {s0 t : State} (a) (h : Keeps s0 t) :
    Keeps s0 (jobFailed a t) := by
  unfold jobFailed
  repeat' (first
    | with_reducible assumption | with_reducible apply Keeps.ite | with_reducible apply failItem_keeps
    | with_reducible apply readLog_keeps | with_reducible apply retryPort_keeps
    | with_reducible apply messageFailed_keeps | with_reducible apply endLoading_keeps
    | with_reducible apply emptySlot_keeps | with_reducible apply jobDone_keeps | with_reducible apply ckptBack_keeps
    | ((fail_if_success (fail_if_success with_reducible intro y)); first | with_reducible refine Keeps.letGoal (s := s0) ?_ (fun _ _ => ?_) | with_reducible intro y)
    | simp only [Keeps.put_iff] | lift_lets | split)

theorem endAccess_keeps {s0 t : State} (a) (h : Keeps s0 t) :
    Keeps s0 (endAccess a t) := by
  unfold endAccess
  repeat' (first
    | with_reducible assumption | with_reducible apply Keeps.ite | with_reducible apply noteFailure_keeps
    | with_reducible apply jobDone_keeps | with_reducible apply jobFailed_keeps
    | ((fail_if_success (fail_if_success with_reducible intro y)); first | with_reducible refine Keeps.letGoal (s := s0) ?_ (fun _ _ => ?_) | with_reducible intro y)
    | simp only [Keeps.put_iff] | lift_lets | split)

theorem endAccesses_keeps {s0 t : State} (fuel) (h : Keeps s0 t) :
    Keeps s0 (endAccesses fuel t) := by
  induction fuel generalizing t with
  | zero => exact h
  | succ fuel ih =>
    unfold endAccesses
    repeat' (first
      | with_reducible assumption | with_reducible apply Keeps.ite | with_reducible apply endAccess_keeps
      | with_reducible apply ih | cases ‹_ + 1 = Nat.succ _›
      | ((fail_if_success (fail_if_success with_reducible intro y)); first | with_reducible refine Keeps.letGoal (s := s0) ?_ (fun _ _ => ?_) | with_reducible intro y)
      | simp only [Keeps.put_iff] | lift_lets | split)

theorem settleAccesses_keeps {s0 t : State} (h : Keeps s0 t) :
    Keeps s0 (settleAccesses t) := by
  unfold settleAccesses
  repeat' (first
    | with_reducible assumption | with_reducible apply Keeps.ite | with_reducible apply sweep_keeps
    | with_reducible apply endAccesses_keeps | with_reducible apply loseFailed_keeps
    | ((fail_if_success (fail_if_success with_reducible intro y)); first | with_reducible refine Keeps.letGoal (s := s0) ?_ (fun _ _ => ?_) | with_reducible intro y)
    | simp only [Keeps.put_iff] | lift_lets | split)

theorem onLine_keeps {s0 t : State} (p f) (h : Keeps s0 t) :
    Keeps s0 (onLine p f t) := by
  unfold onLine
  repeat' (first
    | with_reducible assumption | with_reducible apply Keeps.ite
    | ((fail_if_success (fail_if_success with_reducible intro y)); first | with_reducible refine Keeps.letGoal (s := s0) ?_ (fun _ _ => ?_) | with_reducible intro y)
    | simp only [Keeps.put_iff] | lift_lets | split)

theorem takeResponse_keeps {s0 t : State} (p t' k data) (h : Keeps s0 t) :
    Keeps s0 (takeResponse p t' k data t) := by
  unfold takeResponse
  repeat' (first
    | with_reducible assumption | with_reducible apply Keeps.ite | with_reducible apply settleAccesses_keeps
    | with_reducible apply onLine_keeps | with_reducible apply bump_keeps
    | ((fail_if_success (fail_if_success with_reducible intro y)); first | with_reducible refine Keeps.letGoal (s := s0) ?_ (fun _ _ => ?_) | with_reducible intro y)
    | simp only [Keeps.put_iff] | lift_lets | split)

theorem execMemoryResponse_keeps {s0 t : State} (port tag kind data) (h : Keeps s0 t) :
    OKeeps s0 (execMemoryResponse port tag kind data t) := by
  unfold execMemoryResponse
  repeat' (first
    | with_reducible assumption | with_reducible apply OKeeps.next | with_reducible exact OKeeps.refused _
    | with_reducible apply OKeeps.ite | with_reducible apply Keeps.ite | with_reducible apply takeResponse_keeps
    | ((fail_if_success (fail_if_success with_reducible intro y)); first | with_reducible refine Keeps.letGoal (s := s0) ?_ (fun _ _ => ?_) | with_reducible intro y)
    | simp only [Keeps.put_iff] | lift_lets | split)

theorem execDeferredRetry_keeps {s0 t : State} (port tag) (h : Keeps s0 t) :
    OKeeps s0 (execDeferredRetry port tag t) := by
  unfold execDeferredRetry
  repeat' (first
    | with_reducible assumption | with_reducible apply OKeeps.next | with_reducible exact OKeeps.refused _
    | with_reducible apply OKeeps.ite | with_reducible apply Keeps.ite | with_reducible apply sendAll_keeps
    | with_reducible apply onLine_keeps
    | ((fail_if_success (fail_if_success with_reducible intro y)); first | with_reducible refine Keeps.letGoal (s := s0) ?_ (fun _ _ => ?_) | with_reducible intro y)
    | simp only [Keeps.put_iff] | lift_lets | split)

theorem startStatus_keeps {s0 t : State} (st) (h : Keeps s0 t) :
    Keeps s0 (startStatus st t) := by
  unfold startStatus
  repeat' (first
    | with_reducible assumption | with_reducible apply Keeps.ite | with_reducible apply setReg_keeps
    | ((fail_if_success (fail_if_success with_reducible intro y)); first | with_reducible refine Keeps.letGoal (s := s0) ?_ (fun _ _ => ?_) | with_reducible intro y)
    | simp only [Keeps.put_iff] | lift_lets | split)

theorem driverStart_keeps {s0 t : State} (a run) (h : Keeps s0 t) (hrun : ∀ u, Keeps s0 u → Keeps s0 (run u)) :
    Keeps s0 (driverStart a run t) := by
  unfold driverStart
  repeat' (first
    | with_reducible assumption | with_reducible apply Keeps.ite | with_reducible apply startStatus_keeps
    | with_reducible apply refuseStart_keeps | with_reducible apply beginActivity_keeps | with_reducible apply hrun
    | ((fail_if_success (fail_if_success with_reducible intro y)); first | with_reducible refine Keeps.letGoal (s := s0) ?_ (fun _ _ => ?_) | with_reducible intro y)
    | simp only [Keeps.put_iff] | lift_lets | split)

theorem startDraining_keeps {s0 t : State} (h : Keeps s0 t) :
    Keeps s0 (startDraining t) := by
  unfold startDraining
  repeat' (first
    | with_reducible assumption | with_reducible apply Keeps.ite | with_reducible apply onLine_keeps
    | ((fail_if_success (fail_if_success with_reducible intro y)); first | with_reducible refine Keeps.letGoal (s := s0) ?_ (fun _ _ => ?_) | with_reducible intro y)
    | simp only [Keeps.put_iff] | lift_lets | split)

theorem execChannelQuiesce_keeps {s0 t : State} (h : Keeps s0 t) :
    OKeeps s0 (execChannelQuiesce t) := by
  unfold execChannelQuiesce
  repeat' (first
    | with_reducible assumption | with_reducible apply OKeeps.next | with_reducible exact OKeeps.refused _
    | with_reducible apply OKeeps.ite | with_reducible apply Keeps.ite | with_reducible apply viaPort_keeps
    | with_reducible apply driverStart_keeps | with_reducible apply startDraining_keeps
    | with_reducible apply Keeps.idf
    | ((fail_if_success (fail_if_success with_reducible intro y)); first | with_reducible refine Keeps.letGoal (s := s0) ?_ (fun _ _ => ?_) | with_reducible intro y)
    | with_reducible intro _ _ | simp only [Keeps.put_iff] | lift_lets | split)

theorem execChannelQuiesceDrained_keeps {s0 t : State} (h : Keeps s0 t) :
    OKeeps s0 (execChannelQuiesceDrained t) := by
  unfold execChannelQuiesceDrained
  repeat' (first
    | with_reducible assumption | with_reducible apply OKeeps.next | with_reducible exact OKeeps.refused _
    | with_reducible apply OKeeps.ite | with_reducible apply Keeps.ite
    | ((fail_if_success (fail_if_success with_reducible intro y)); first | with_reducible refine Keeps.letGoal (s := s0) ?_ (fun _ _ => ?_) | with_reducible intro y)
    | simp only [Keeps.put_iff] | lift_lets | split)

theorem endQuiesce_keeps {s0 t : State} (h : Keeps s0 t) :
    Keeps s0 (endQuiesce t) := by
  unfold endQuiesce
  repeat' (first
    | with_reducible assumption | with_reducible apply Keeps.ite | with_reducible apply sendAll_keeps
    | with_reducible apply endActivity_keeps
    | ((fail_if_success (fail_if_success with_reducible intro y)); first | with_reducible refine Keeps.letGoal (s := s0) ?_ (fun _ _ => ?_) | with_reducible intro y)
    | simp only [Keeps.put_iff] | lift_lets | split)

theorem execQuiesceEnd_keeps {s0 t : State} (h : Keeps s0 t) :
    OKeeps s0 (execQuiesceEnd t) := by
  unfold execQuiesceEnd
  repeat' (first
    | with_reducible assumption | with_reducible apply OKeeps.next | with_reducible exact OKeeps.refused _
    | with_reducible apply OKeeps.ite | with_reducible apply Keeps.ite | with_reducible apply viaPort_keeps
    | with_reducible apply endQuiesce_keeps
    | ((fail_if_success (fail_if_success with_reducible intro y)); first | with_reducible refine Keeps.letGoal (s := s0) ?_ (fun _ _ => ?_) | with_reducible intro y)
    | simp only [Keeps.put_iff] | lift_lets | split)

theorem stkError_keeps {s0 t : State} (h : Keeps s0 t) :
    Keeps s0 (stkError t) := by
  unfold stkError
  repeat' (first
    | with_reducible assumption | with_reducible apply Keeps.ite | with_reducible apply setRegBit_keeps
    | ((fail_if_success (fail_if_success with_reducible intro y)); first | with_reducible refine Keeps.letGoal (s := s0) ?_ (fun _ _ => ?_) | with_reducible intro y)
    | simp only [Keeps.put_iff] | lift_lets | split)

theorem writeHash_keeps {s0 t : State} (h' v) (h : Keeps s0 t) :
    Keeps s0 (writeHash h' v t) := by
  unfold writeHash
  repeat' (first
    | with_reducible assumption | with_reducible apply Keeps.ite | with_reducible apply stkError_keeps
    | with_reducible apply setReg_keeps
    | ((fail_if_success (fail_if_success with_reducible intro y)); first | with_reducible refine Keeps.letGoal (s := s0) ?_ (fun _ _ => ?_) | with_reducible intro y)
    | simp only [Keeps.put_iff] | lift_lets | split)

theorem writeStk_keeps {s0 t : State} (off v) (h : Keeps s0 t) :
    Keeps s0 (writeStk off v t) := by
  unfold writeStk
  repeat' (first
    | with_reducible assumption | with_reducible apply Keeps.ite | with_reducible apply stkError_keeps
    | with_reducible apply storeReg_keeps | with_reducible apply writeHash_keeps | with_reducible apply setReg_keeps
    | ((fail_if_success (fail_if_success with_reducible intro y)); first | with_reducible refine Keeps.letGoal (s := s0) ?_ (fun _ _ => ?_) | with_reducible intro y)
    | simp only [Keeps.put_iff] | lift_lets | split)

theorem execStkConfigWrite_keeps {s0 t : State} (off v) (h : Keeps s0 t) :
    OKeeps s0 (execStkConfigWrite off v t) := by
  unfold execStkConfigWrite
  repeat' (first
    | with_reducible assumption | with_reducible apply OKeeps.next | with_reducible exact OKeeps.refused _
    | with_reducible apply OKeeps.ite | with_reducible apply Keeps.ite | with_reducible apply viaPort_keeps
    | with_reducible apply writeStk_keeps
    | ((fail_if_success (fail_if_success with_reducible intro y)); first | with_reducible refine Keeps.letGoal (s := s0) ?_ (fun _ _ => ?_) | with_reducible intro y)
    | simp only [Keeps.put_iff] | lift_lets | split)

end Sys2Proof.Machine
end

