-- ==== Sys2Proof/Laws/Keep/Scalar.lean ====
section
/-!
SUPPORT. What the definitions of Machine/Scalar.lean leave as it was.
-/

namespace Sys2Proof.Machine

set_option linter.unusedTactic false
set_option linter.unreachableTactic false
set_option linter.unusedSimpArgs false

theorem opAdd_keeps {s0 t : State} (w f) (h : Keeps s0 t) :
    Keeps s0 ((opAdd w f).act t) := by
  unfold opAdd
  dsimp only [pricedOp, plainOp, jumpOp, aluOp, predicateOp]
  repeat' (first
    | with_reducible assumption | with_reducible apply Keeps.ite | with_reducible apply putG_keeps
    | ((fail_if_success (fail_if_success with_reducible intro y)); first | with_reducible refine Keeps.letGoal (s := s0) ?_ (fun _ _ => ?_) | with_reducible intro y)
    | simp only [Keeps.put_iff] | lift_lets | split)

theorem execAdd_keeps {s0 t : State} (w f) (h : Keeps s0 t) :
    OKeeps s0 (execAdd w f t) := by
  unfold execAdd
  repeat' (first
    | with_reducible assumption | with_reducible apply OKeeps.next | with_reducible exact OKeeps.refused _
    | with_reducible apply OKeeps.ite | with_reducible apply Keeps.ite | with_reducible apply issue_keeps
    | with_reducible apply opAdd_keeps | with_reducible apply Keeps.idf
    | ((fail_if_success (fail_if_success with_reducible intro y)); first | with_reducible refine Keeps.letGoal (s := s0) ?_ (fun _ _ => ?_) | with_reducible intro y)
    | with_reducible intro _ _ | simp only [Keeps.put_iff] | lift_lets | split)

theorem opSub_keeps {s0 t : State} (w f) (h : Keeps s0 t) :
    Keeps s0 ((opSub w f).act t) := by
  unfold opSub
  dsimp only [pricedOp, plainOp, jumpOp, aluOp, predicateOp]
  repeat' (first
    | with_reducible assumption | with_reducible apply Keeps.ite | with_reducible apply putG_keeps
    | ((fail_if_success (fail_if_success with_reducible intro y)); first | with_reducible refine Keeps.letGoal (s := s0) ?_ (fun _ _ => ?_) | with_reducible intro y)
    | simp only [Keeps.put_iff] | lift_lets | split)

theorem execSub_keeps {s0 t : State} (w f) (h : Keeps s0 t) :
    OKeeps s0 (execSub w f t) := by
  unfold execSub
  repeat' (first
    | with_reducible assumption | with_reducible apply OKeeps.next | with_reducible exact OKeeps.refused _
    | with_reducible apply OKeeps.ite | with_reducible apply Keeps.ite | with_reducible apply issue_keeps
    | with_reducible apply opSub_keeps | with_reducible apply Keeps.idf
    | ((fail_if_success (fail_if_success with_reducible intro y)); first | with_reducible refine Keeps.letGoal (s := s0) ?_ (fun _ _ => ?_) | with_reducible intro y)
    | with_reducible intro _ _ | simp only [Keeps.put_iff] | lift_lets | split)

theorem opMul_keeps {s0 t : State} (w f) (h : Keeps s0 t) :
    Keeps s0 ((opMul w f).act t) := by
  unfold opMul
  dsimp only [pricedOp, plainOp, jumpOp, aluOp, predicateOp]
  repeat' (first
    | with_reducible assumption | with_reducible apply Keeps.ite | with_reducible apply putG_keeps
    | ((fail_if_success (fail_if_success with_reducible intro y)); first | with_reducible refine Keeps.letGoal (s := s0) ?_ (fun _ _ => ?_) | with_reducible intro y)
    | simp only [Keeps.put_iff] | lift_lets | split)

theorem execMul_keeps {s0 t : State} (w f) (h : Keeps s0 t) :
    OKeeps s0 (execMul w f t) := by
  unfold execMul
  repeat' (first
    | with_reducible assumption | with_reducible apply OKeeps.next | with_reducible exact OKeeps.refused _
    | with_reducible apply OKeeps.ite | with_reducible apply Keeps.ite | with_reducible apply issue_keeps
    | with_reducible apply opMul_keeps | with_reducible apply Keeps.idf
    | ((fail_if_success (fail_if_success with_reducible intro y)); first | with_reducible refine Keeps.letGoal (s := s0) ?_ (fun _ _ => ?_) | with_reducible intro y)
    | with_reducible intro _ _ | simp only [Keeps.put_iff] | lift_lets | split)

theorem opAnd_keeps {s0 t : State} (w f) (h : Keeps s0 t) :
    Keeps s0 ((opAnd w f).act t) := by
  unfold opAnd
  dsimp only [pricedOp, plainOp, jumpOp, aluOp, predicateOp]
  repeat' (first
    | with_reducible assumption | with_reducible apply Keeps.ite | with_reducible apply putG_keeps
    | ((fail_if_success (fail_if_success with_reducible intro y)); first | with_reducible refine Keeps.letGoal (s := s0) ?_ (fun _ _ => ?_) | with_reducible intro y)
    | simp only [Keeps.put_iff] | lift_lets | split)

theorem execAnd_keeps {s0 t : State} (w f) (h : Keeps s0 t) :
    OKeeps s0 (execAnd w f t) := by
  unfold execAnd
  repeat' (first
    | with_reducible assumption | with_reducible apply OKeeps.next | with_reducible exact OKeeps.refused _
    | with_reducible apply OKeeps.ite | with_reducible apply Keeps.ite | with_reducible apply issue_keeps
    | with_reducible apply opAnd_keeps | with_reducible apply Keeps.idf
    | ((fail_if_success (fail_if_success with_reducible intro y)); first | with_reducible refine Keeps.letGoal (s := s0) ?_ (fun _ _ => ?_) | with_reducible intro y)
    | with_reducible intro _ _ | simp only [Keeps.put_iff] | lift_lets | split)

theorem opOr_keeps {s0 t : State} (w f) (h : Keeps s0 t) :
    Keeps s0 ((opOr w f).act t) := by
  unfold opOr
  dsimp only [pricedOp, plainOp, jumpOp, aluOp, predicateOp]
  repeat' (first
    | with_reducible assumption | with_reducible apply Keeps.ite | with_reducible apply putG_keeps
    | ((fail_if_success (fail_if_success with_reducible intro y)); first | with_reducible refine Keeps.letGoal (s := s0) ?_ (fun _ _ => ?_) | with_reducible intro y)
    | simp only [Keeps.put_iff] | lift_lets | split)

theorem execOr_keeps {s0 t : State} (w f) (h : Keeps s0 t) :
    OKeeps s0 (execOr w f t) := by
  unfold execOr
  repeat' (first
    | with_reducible assumption | with_reducible apply OKeeps.next | with_reducible exact OKeeps.refused _
    | with_reducible apply OKeeps.ite | with_reducible apply Keeps.ite | with_reducible apply issue_keeps
    | with_reducible apply opOr_keeps | with_reducible apply Keeps.idf
    | ((fail_if_success (fail_if_success with_reducible intro y)); first | with_reducible refine Keeps.letGoal (s := s0) ?_ (fun _ _ => ?_) | with_reducible intro y)
    | with_reducible intro _ _ | simp only [Keeps.put_iff] | lift_lets | split)

theorem opXor_keeps {s0 t : State} (w f) (h : Keeps s0 t) :
    Keeps s0 ((opXor w f).act t) := by
  unfold opXor
  dsimp only [pricedOp, plainOp, jumpOp, aluOp, predicateOp]
  repeat' (first
    | with_reducible assumption | with_reducible apply Keeps.ite | with_reducible apply putG_keeps
    | ((fail_if_success (fail_if_success with_reducible intro y)); first | with_reducible refine Keeps.letGoal (s := s0) ?_ (fun _ _ => ?_) | with_reducible intro y)
    | simp only [Keeps.put_iff] | lift_lets | split)

theorem execXor_keeps {s0 t : State} (w f) (h : Keeps s0 t) :
    OKeeps s0 (execXor w f t) := by
  unfold execXor
  repeat' (first
    | with_reducible assumption | with_reducible apply OKeeps.next | with_reducible exact OKeeps.refused _
    | with_reducible apply OKeeps.ite | with_reducible apply Keeps.ite | with_reducible apply issue_keeps
    | with_reducible apply opXor_keeps | with_reducible apply Keeps.idf
    | ((fail_if_success (fail_if_success with_reducible intro y)); first | with_reducible refine Keeps.letGoal (s := s0) ?_ (fun _ _ => ?_) | with_reducible intro y)
    | with_reducible intro _ _ | simp only [Keeps.put_iff] | lift_lets | split)

theorem opShl_keeps {s0 t : State} (w f) (h : Keeps s0 t) :
    Keeps s0 ((opShl w f).act t) := by
  unfold opShl
  dsimp only [pricedOp, plainOp, jumpOp, aluOp, predicateOp]
  repeat' (first
    | with_reducible assumption | with_reducible apply Keeps.ite | with_reducible apply putG_keeps
    | ((fail_if_success (fail_if_success with_reducible intro y)); first | with_reducible refine Keeps.letGoal (s := s0) ?_ (fun _ _ => ?_) | with_reducible intro y)
    | simp only [Keeps.put_iff] | lift_lets | split)

theorem execShl_keeps {s0 t : State} (w f) (h : Keeps s0 t) :
    OKeeps s0 (execShl w f t) := by
  unfold execShl
  repeat' (first
    | with_reducible assumption | with_reducible apply OKeeps.next | with_reducible exact OKeeps.refused _
    | with_reducible apply OKeeps.ite | with_reducible apply Keeps.ite | with_reducible apply issue_keeps
    | with_reducible apply opShl_keeps | with_reducible apply Keeps.idf
    | ((fail_if_success (fail_if_success with_reducible intro y)); first | with_reducible refine Keeps.letGoal (s := s0) ?_ (fun _ _ => ?_) | with_reducible intro y)
    | with_reducible intro _ _ | simp only [Keeps.put_iff] | lift_lets | split)

theorem opShr_keeps {s0 t : State} (w f) (h : Keeps s0 t) :
    Keeps s0 ((opShr w f).act t) := by
  unfold opShr
  dsimp only [pricedOp, plainOp, jumpOp, aluOp, predicateOp]
  repeat' (first
    | with_reducible assumption | with_reducible apply Keeps.ite | with_reducible apply putG_keeps
    | ((fail_if_success (fail_if_success with_reducible intro y)); first | with_reducible refine Keeps.letGoal (s := s0) ?_ (fun _ _ => ?_) | with_reducible intro y)
    | simp only [Keeps.put_iff] | lift_lets | split)

theorem execShr_keeps {s0 t : State} (w f) (h : Keeps s0 t) :
    OKeeps s0 (execShr w f t) := by
  unfold execShr
  repeat' (first
    | with_reducible assumption | with_reducible apply OKeeps.next | with_reducible exact OKeeps.refused _
    | with_reducible apply OKeeps.ite | with_reducible apply Keeps.ite | with_reducible apply issue_keeps
    | with_reducible apply opShr_keeps | with_reducible apply Keeps.idf
    | ((fail_if_success (fail_if_success with_reducible intro y)); first | with_reducible refine Keeps.letGoal (s := s0) ?_ (fun _ _ => ?_) | with_reducible intro y)
    | with_reducible intro _ _ | simp only [Keeps.put_iff] | lift_lets | split)

theorem opSar_keeps {s0 t : State} (w f) (h : Keeps s0 t) :
    Keeps s0 ((opSar w f).act t) := by
  unfold opSar
  dsimp only [pricedOp, plainOp, jumpOp, aluOp, predicateOp]
  repeat' (first
    | with_reducible assumption | with_reducible apply Keeps.ite | with_reducible apply putG_keeps
    | ((fail_if_success (fail_if_success with_reducible intro y)); first | with_reducible refine Keeps.letGoal (s := s0) ?_ (fun _ _ => ?_) | with_reducible intro y)
    | simp only [Keeps.put_iff] | lift_lets | split)

theorem execSar_keeps {s0 t : State} (w f) (h : Keeps s0 t) :
    OKeeps s0 (execSar w f t) := by
  unfold execSar
  repeat' (first
    | with_reducible assumption | with_reducible apply OKeeps.next | with_reducible exact OKeeps.refused _
    | with_reducible apply OKeeps.ite | with_reducible apply Keeps.ite | with_reducible apply issue_keeps
    | with_reducible apply opSar_keeps | with_reducible apply Keeps.idf
    | ((fail_if_success (fail_if_success with_reducible intro y)); first | with_reducible refine Keeps.letGoal (s := s0) ?_ (fun _ _ => ?_) | with_reducible intro y)
    | with_reducible intro _ _ | simp only [Keeps.put_iff] | lift_lets | split)

theorem opAddi_keeps {s0 t : State} (w f) (h : Keeps s0 t) :
    Keeps s0 ((opAddi w f).act t) := by
  unfold opAddi
  dsimp only [pricedOp, plainOp, jumpOp, aluOp, predicateOp]
  repeat' (first
    | with_reducible assumption | with_reducible apply Keeps.ite | with_reducible apply putG_keeps
    | ((fail_if_success (fail_if_success with_reducible intro y)); first | with_reducible refine Keeps.letGoal (s := s0) ?_ (fun _ _ => ?_) | with_reducible intro y)
    | simp only [Keeps.put_iff] | lift_lets | split)

theorem execAddi_keeps {s0 t : State} (w f) (h : Keeps s0 t) :
    OKeeps s0 (execAddi w f t) := by
  unfold execAddi
  repeat' (first
    | with_reducible assumption | with_reducible apply OKeeps.next | with_reducible exact OKeeps.refused _
    | with_reducible apply OKeeps.ite | with_reducible apply Keeps.ite | with_reducible apply issue_keeps
    | with_reducible apply opAddi_keeps | with_reducible apply Keeps.idf
    | ((fail_if_success (fail_if_success with_reducible intro y)); first | with_reducible refine Keeps.letGoal (s := s0) ?_ (fun _ _ => ?_) | with_reducible intro y)
    | with_reducible intro _ _ | simp only [Keeps.put_iff] | lift_lets | split)

theorem opAndi_keeps {s0 t : State} (w f) (h : Keeps s0 t) :
    Keeps s0 ((opAndi w f).act t) := by
  unfold opAndi
  dsimp only [pricedOp, plainOp, jumpOp, aluOp, predicateOp]
  repeat' (first
    | with_reducible assumption | with_reducible apply Keeps.ite | with_reducible apply putG_keeps
    | ((fail_if_success (fail_if_success with_reducible intro y)); first | with_reducible refine Keeps.letGoal (s := s0) ?_ (fun _ _ => ?_) | with_reducible intro y)
    | simp only [Keeps.put_iff] | lift_lets | split)

theorem execAndi_keeps {s0 t : State} (w f) (h : Keeps s0 t) :
    OKeeps s0 (execAndi w f t) := by
  unfold execAndi
  repeat' (first
    | with_reducible assumption | with_reducible apply OKeeps.next | with_reducible exact OKeeps.refused _
    | with_reducible apply OKeeps.ite | with_reducible apply Keeps.ite | with_reducible apply issue_keeps
    | with_reducible apply opAndi_keeps | with_reducible apply Keeps.idf
    | ((fail_if_success (fail_if_success with_reducible intro y)); first | with_reducible refine Keeps.letGoal (s := s0) ?_ (fun _ _ => ?_) | with_reducible intro y)
    | with_reducible intro _ _ | simp only [Keeps.put_iff] | lift_lets | split)

theorem opLui_keeps {s0 t : State} (w f) (h : Keeps s0 t) :
    Keeps s0 ((opLui w f).act t) := by
  unfold opLui
  dsimp only [pricedOp, plainOp, jumpOp, aluOp, predicateOp]
  repeat' (first
    | with_reducible assumption | with_reducible apply Keeps.ite | with_reducible apply putG_keeps
    | ((fail_if_success (fail_if_success with_reducible intro y)); first | with_reducible refine Keeps.letGoal (s := s0) ?_ (fun _ _ => ?_) | with_reducible intro y)
    | simp only [Keeps.put_iff] | lift_lets | split)

theorem execLui_keeps {s0 t : State} (w f) (h : Keeps s0 t) :
    OKeeps s0 (execLui w f t) := by
  unfold execLui
  repeat' (first
    | with_reducible assumption | with_reducible apply OKeeps.next | with_reducible exact OKeeps.refused _
    | with_reducible apply OKeeps.ite | with_reducible apply Keeps.ite | with_reducible apply issue_keeps
    | with_reducible apply opLui_keeps | with_reducible apply Keeps.idf
    | ((fail_if_success (fail_if_success with_reducible intro y)); first | with_reducible refine Keeps.letGoal (s := s0) ?_ (fun _ _ => ?_) | with_reducible intro y)
    | with_reducible intro _ _ | simp only [Keeps.put_iff] | lift_lets | split)

theorem opCmp_keeps {s0 t : State} (w f) (h : Keeps s0 t) :
    Keeps s0 ((opCmp w f).act t) := by
  unfold opCmp
  dsimp only [pricedOp, plainOp, jumpOp, aluOp, predicateOp]
  repeat' (first
    | with_reducible assumption | with_reducible apply Keeps.ite | with_reducible apply putP_keeps
    | ((fail_if_success (fail_if_success with_reducible intro y)); first | with_reducible refine Keeps.letGoal (s := s0) ?_ (fun _ _ => ?_) | with_reducible intro y)
    | simp only [Keeps.put_iff] | lift_lets | split)

theorem execCmp_keeps {s0 t : State} (w f) (h : Keeps s0 t) :
    OKeeps s0 (execCmp w f t) := by
  unfold execCmp
  repeat' (first
    | with_reducible assumption | with_reducible apply OKeeps.next | with_reducible exact OKeeps.refused _
    | with_reducible apply OKeeps.ite | with_reducible apply Keeps.ite | with_reducible apply issue_keeps
    | with_reducible apply opCmp_keeps | with_reducible apply Keeps.idf
    | ((fail_if_success (fail_if_success with_reducible intro y)); first | with_reducible refine Keeps.letGoal (s := s0) ?_ (fun _ _ => ?_) | with_reducible intro y)
    | with_reducible intro _ _ | simp only [Keeps.put_iff] | lift_lets | split)

theorem opCmpi_keeps {s0 t : State} (w f) (h : Keeps s0 t) :
    Keeps s0 ((opCmpi w f).act t) := by
  unfold opCmpi
  dsimp only [pricedOp, plainOp, jumpOp, aluOp, predicateOp]
  repeat' (first
    | with_reducible assumption | with_reducible apply Keeps.ite | with_reducible apply putP_keeps
    | ((fail_if_success (fail_if_success with_reducible intro y)); first | with_reducible refine Keeps.letGoal (s := s0) ?_ (fun _ _ => ?_) | with_reducible intro y)
    | simp only [Keeps.put_iff] | lift_lets | split)

theorem execCmpi_keeps {s0 t : State} (w f) (h : Keeps s0 t) :
    OKeeps s0 (execCmpi w f t) := by
  unfold execCmpi
  repeat' (first
    | with_reducible assumption | with_reducible apply OKeeps.next | with_reducible exact OKeeps.refused _
    | with_reducible apply OKeeps.ite | with_reducible apply Keeps.ite | with_reducible apply issue_keeps
    | with_reducible apply opCmpi_keeps | with_reducible apply Keeps.idf
    | ((fail_if_success (fail_if_success with_reducible intro y)); first | with_reducible refine Keeps.letGoal (s := s0) ?_ (fun _ _ => ?_) | with_reducible intro y)
    | with_reducible intro _ _ | simp only [Keeps.put_iff] | lift_lets | split)

theorem opSel_keeps {s0 t : State} (w f) (h : Keeps s0 t) :
    Keeps s0 ((opSel w f).act t) := by
  unfold opSel
  dsimp only [pricedOp, plainOp, jumpOp, aluOp, predicateOp]
  repeat' (first
    | with_reducible assumption | with_reducible apply Keeps.ite | with_reducible apply putG_keeps
    | ((fail_if_success (fail_if_success with_reducible intro y)); first | with_reducible refine Keeps.letGoal (s := s0) ?_ (fun _ _ => ?_) | with_reducible intro y)
    | simp only [Keeps.put_iff] | lift_lets | split)

theorem execSel_keeps {s0 t : State} (w f) (h : Keeps s0 t) :
    OKeeps s0 (execSel w f t) := by
  unfold execSel
  repeat' (first
    | with_reducible assumption | with_reducible apply OKeeps.next | with_reducible exact OKeeps.refused _
    | with_reducible apply OKeeps.ite | with_reducible apply Keeps.ite | with_reducible apply issue_keeps
    | with_reducible apply opSel_keeps | with_reducible apply Keeps.idf
    | ((fail_if_success (fail_if_success with_reducible intro y)); first | with_reducible refine Keeps.letGoal (s := s0) ?_ (fun _ _ => ?_) | with_reducible intro y)
    | with_reducible intro _ _ | simp only [Keeps.put_iff] | lift_lets | split)

theorem opPset_keeps {s0 t : State} (w f) (h : Keeps s0 t) :
    Keeps s0 ((opPset w f).act t) := by
  unfold opPset
  dsimp only [pricedOp, plainOp, jumpOp, aluOp, predicateOp]
  repeat' (first
    | with_reducible assumption | with_reducible apply Keeps.ite | with_reducible apply putP_keeps
    | ((fail_if_success (fail_if_success with_reducible intro y)); first | with_reducible refine Keeps.letGoal (s := s0) ?_ (fun _ _ => ?_) | with_reducible intro y)
    | simp only [Keeps.put_iff] | lift_lets | split)

theorem execPset_keeps {s0 t : State} (w f) (h : Keeps s0 t) :
    OKeeps s0 (execPset w f t) := by
  unfold execPset
  repeat' (first
    | with_reducible assumption | with_reducible apply OKeeps.next | with_reducible exact OKeeps.refused _
    | with_reducible apply OKeeps.ite | with_reducible apply Keeps.ite | with_reducible apply issue_keeps
    | with_reducible apply opPset_keeps | with_reducible apply Keeps.idf
    | ((fail_if_success (fail_if_success with_reducible intro y)); first | with_reducible refine Keeps.letGoal (s := s0) ?_ (fun _ _ => ?_) | with_reducible intro y)
    | with_reducible intro _ _ | simp only [Keeps.put_iff] | lift_lets | split)

theorem actCrc_keeps {s0 t : State} (w f) (h : Keeps s0 t) :
    Keeps s0 (actCrc w f t) := by
  unfold actCrc
  repeat' (first
    | with_reducible assumption | with_reducible apply Keeps.ite | with_reducible apply faultThread_keeps
    | with_reducible apply putG_keeps
    | ((fail_if_success (fail_if_success with_reducible intro y)); first | with_reducible refine Keeps.letGoal (s := s0) ?_ (fun _ _ => ?_) | with_reducible intro y)
    | simp only [Keeps.put_iff] | lift_lets | split)

theorem opCrc_keeps {s0 t : State} (w f u') (h : Keeps s0 t) :
    Keeps s0 ((opCrc w f u').act t) := by
  unfold opCrc
  dsimp only [pricedOp, plainOp, jumpOp, aluOp, predicateOp]
  repeat' (first
    | with_reducible assumption | with_reducible apply Keeps.ite | with_reducible apply actCrc_keeps
    | ((fail_if_success (fail_if_success with_reducible intro y)); first | with_reducible refine Keeps.letGoal (s := s0) ?_ (fun _ _ => ?_) | with_reducible intro y)
    | simp only [Keeps.put_iff] | lift_lets | split)

theorem execCrc_keeps {s0 t : State} (w f) (h : Keeps s0 t) :
    OKeeps s0 (execCrc w f t) := by
  unfold execCrc
  repeat' (first
    | with_reducible assumption | with_reducible apply OKeeps.next | with_reducible exact OKeeps.refused _
    | with_reducible apply OKeeps.ite | with_reducible apply Keeps.ite | with_reducible apply issue_keeps
    | with_reducible apply opCrc_keeps | with_reducible apply Keeps.idf
    | ((fail_if_success (fail_if_success with_reducible intro y)); first | with_reducible refine Keeps.letGoal (s := s0) ?_ (fun _ _ => ?_) | with_reducible intro y)
    | with_reducible intro _ _ | simp only [Keeps.put_iff] | lift_lets | split)

theorem jumpTo_keeps {s0 t : State} (w pc) (h : Keeps s0 t) :
    Keeps s0 (jumpTo w pc t) := by
  unfold jumpTo
  repeat' (first
    | with_reducible assumption | with_reducible apply Keeps.ite | with_reducible apply onThread_keeps
    | ((fail_if_success (fail_if_success with_reducible intro y)); first | with_reducible refine Keeps.letGoal (s := s0) ?_ (fun _ _ => ?_) | with_reducible intro y)
    | simp only [Keeps.put_iff] | lift_lets | split)

theorem opB_keeps {s0 t : State} (w f) (h : Keeps s0 t) :
    Keeps s0 ((opB w f).act t) := by
  unfold opB
  dsimp only [pricedOp, plainOp, jumpOp, aluOp, predicateOp]
  repeat' (first
    | with_reducible assumption | with_reducible apply Keeps.ite | with_reducible apply jumpTo_keeps
    | ((fail_if_success (fail_if_success with_reducible intro y)); first | with_reducible refine Keeps.letGoal (s := s0) ?_ (fun _ _ => ?_) | with_reducible intro y)
    | simp only [Keeps.put_iff] | lift_lets | split)

theorem execB_keeps {s0 t : State} (w f) (h : Keeps s0 t) :
    OKeeps s0 (execB w f t) := by
  unfold execB
  repeat' (first
    | with_reducible assumption | with_reducible apply OKeeps.next | with_reducible exact OKeeps.refused _
    | with_reducible apply OKeeps.ite | with_reducible apply Keeps.ite | with_reducible apply issue_keeps
    | with_reducible apply opB_keeps | with_reducible apply Keeps.idf
    | ((fail_if_success (fail_if_success with_reducible intro y)); first | with_reducible refine Keeps.letGoal (s := s0) ?_ (fun _ _ => ?_) | with_reducible intro y)
    | with_reducible intro _ _ | simp only [Keeps.put_iff] | lift_lets | split)

theorem actBp_keeps {s0 t : State} (w f) (h : Keeps s0 t) :
    Keeps s0 (actBp w f t) := by
  unfold actBp
  repeat' (first
    | with_reducible assumption | with_reducible apply Keeps.ite | with_reducible apply faultThread_keeps
    | with_reducible apply jumpTo_keeps
    | ((fail_if_success (fail_if_success with_reducible intro y)); first | with_reducible refine Keeps.letGoal (s := s0) ?_ (fun _ _ => ?_) | with_reducible intro y)
    | simp only [Keeps.put_iff] | lift_lets | split)

theorem opBp_keeps {s0 t : State} (w f) (h : Keeps s0 t) :
    Keeps s0 ((opBp w f).act t) := by
  unfold opBp
  dsimp only [pricedOp, plainOp, jumpOp, aluOp, predicateOp]
  repeat' (first
    | with_reducible assumption | with_reducible apply Keeps.ite | with_reducible apply actBp_keeps
    | ((fail_if_success (fail_if_success with_reducible intro y)); first | with_reducible refine Keeps.letGoal (s := s0) ?_ (fun _ _ => ?_) | with_reducible intro y)
    | simp only [Keeps.put_iff] | lift_lets | split)

theorem execBp_keeps {s0 t : State} (w f) (h : Keeps s0 t) :
    OKeeps s0 (execBp w f t) := by
  unfold execBp
  repeat' (first
    | with_reducible assumption | with_reducible apply OKeeps.next | with_reducible exact OKeeps.refused _
    | with_reducible apply OKeeps.ite | with_reducible apply Keeps.ite | with_reducible apply issue_keeps
    | with_reducible apply opBp_keeps | with_reducible apply Keeps.idf
    | ((fail_if_success (fail_if_success with_reducible intro y)); first | with_reducible refine Keeps.letGoal (s := s0) ?_ (fun _ _ => ?_) | with_reducible intro y)
    | with_reducible intro _ _ | simp only [Keeps.put_iff] | lift_lets | split)

theorem actCall_keeps {s0 t : State} (w f) (h : Keeps s0 t) :
    Keeps s0 (actCall w f t) := by
  unfold actCall
  repeat' (first
    | with_reducible assumption | with_reducible apply Keeps.ite | with_reducible apply faultThread_keeps
    | with_reducible apply onThread_keeps | with_reducible apply goOn_keeps
    | ((fail_if_success (fail_if_success with_reducible intro y)); first | with_reducible refine Keeps.letGoal (s := s0) ?_ (fun _ _ => ?_) | with_reducible intro y)
    | simp only [Keeps.put_iff] | lift_lets | split)

theorem opCall_keeps {s0 t : State} (w f) (h : Keeps s0 t) :
    Keeps s0 ((opCall w f).act t) := by
  unfold opCall
  dsimp only [pricedOp, plainOp, jumpOp, aluOp, predicateOp]
  repeat' (first
    | with_reducible assumption | with_reducible apply Keeps.ite | with_reducible apply actCall_keeps
    | ((fail_if_success (fail_if_success with_reducible intro y)); first | with_reducible refine Keeps.letGoal (s := s0) ?_ (fun _ _ => ?_) | with_reducible intro y)
    | simp only [Keeps.put_iff] | lift_lets | split)

theorem execCall_keeps {s0 t : State} (w f) (h : Keeps s0 t) :
    OKeeps s0 (execCall w f t) := by
  unfold execCall
  repeat' (first
    | with_reducible assumption | with_reducible apply OKeeps.next | with_reducible exact OKeeps.refused _
    | with_reducible apply OKeeps.ite | with_reducible apply Keeps.ite | with_reducible apply issue_keeps
    | with_reducible apply opCall_keeps | with_reducible apply Keeps.idf
    | ((fail_if_success (fail_if_success with_reducible intro y)); first | with_reducible refine Keeps.letGoal (s := s0) ?_ (fun _ _ => ?_) | with_reducible intro y)
    | with_reducible intro _ _ | simp only [Keeps.put_iff] | lift_lets | split)

theorem actRet_keeps {s0 t : State} (w) (h : Keeps s0 t) :
    Keeps s0 (actRet w t) := by
  unfold actRet
  repeat' (first
    | with_reducible assumption | with_reducible apply Keeps.ite | with_reducible apply faultThread_keeps
    | with_reducible apply onThread_keeps | with_reducible apply goOn_keeps
    | ((fail_if_success (fail_if_success with_reducible intro y)); first | with_reducible refine Keeps.letGoal (s := s0) ?_ (fun _ _ => ?_) | with_reducible intro y)
    | simp only [Keeps.put_iff] | lift_lets | split)

theorem opRet_keeps {s0 t : State} (w _f) (h : Keeps s0 t) :
    Keeps s0 ((opRet w _f).act t) := by
  unfold opRet
  dsimp only [pricedOp, plainOp, jumpOp, aluOp, predicateOp]
  repeat' (first
    | with_reducible assumption | with_reducible apply Keeps.ite | with_reducible apply actRet_keeps
    | ((fail_if_success (fail_if_success with_reducible intro y)); first | with_reducible refine Keeps.letGoal (s := s0) ?_ (fun _ _ => ?_) | with_reducible intro y)
    | simp only [Keeps.put_iff] | lift_lets | split)

theorem execRet_keeps {s0 t : State} (w f) (h : Keeps s0 t) :
    OKeeps s0 (execRet w f t) := by
  unfold execRet
  repeat' (first
    | with_reducible assumption | with_reducible apply OKeeps.next | with_reducible exact OKeeps.refused _
    | with_reducible apply OKeeps.ite | with_reducible apply Keeps.ite | with_reducible apply issue_keeps
    | with_reducible apply opRet_keeps | with_reducible apply Keeps.idf
    | ((fail_if_success (fail_if_success with_reducible intro y)); first | with_reducible refine Keeps.letGoal (s := s0) ?_ (fun _ _ => ?_) | with_reducible intro y)
    | with_reducible intro _ _ | simp only [Keeps.put_iff] | lift_lets | split)

theorem opYield_keeps {s0 t : State} (w _f) (h : Keeps s0 t) :
    Keeps s0 ((opYield w _f).act t) := by
  unfold opYield
  dsimp only [pricedOp, plainOp, jumpOp, aluOp, predicateOp]
  repeat' (first
    | with_reducible assumption | with_reducible apply Keeps.ite | with_reducible apply onThread_keeps
    | ((fail_if_success (fail_if_success with_reducible intro y)); first | with_reducible refine Keeps.letGoal (s := s0) ?_ (fun _ _ => ?_) | with_reducible intro y)
    | simp only [Keeps.put_iff] | lift_lets | split)

theorem execYield_keeps {s0 t : State} (w f) (h : Keeps s0 t) :
    OKeeps s0 (execYield w f t) := by
  unfold execYield
  repeat' (first
    | with_reducible assumption | with_reducible apply OKeeps.next | with_reducible exact OKeeps.refused _
    | with_reducible apply OKeeps.ite | with_reducible apply Keeps.ite | with_reducible apply issue_keeps
    | with_reducible apply opYield_keeps | with_reducible apply Keeps.idf
    | ((fail_if_success (fail_if_success with_reducible intro y)); first | with_reducible refine Keeps.letGoal (s := s0) ?_ (fun _ _ => ?_) | with_reducible intro y)
    | with_reducible intro _ _ | simp only [Keeps.put_iff] | lift_lets | split)

theorem actHalt_keeps {s0 t : State} (w) (h : Keeps s0 t) :
    Keeps s0 (actHalt w t) := by
  unfold actHalt
  repeat' (first
    | with_reducible assumption | with_reducible apply Keeps.ite | with_reducible apply sweep_keeps
    | with_reducible apply endOwned_keeps | with_reducible apply onThread_keeps
    | ((fail_if_success (fail_if_success with_reducible intro y)); first | with_reducible refine Keeps.letGoal (s := s0) ?_ (fun _ _ => ?_) | with_reducible intro y)
    | simp only [Keeps.put_iff] | lift_lets | split)

theorem opHalt_keeps {s0 t : State} (w _f) (h : Keeps s0 t) :
    Keeps s0 ((opHalt w _f).act t) := by
  unfold opHalt
  dsimp only [pricedOp, plainOp, jumpOp, aluOp, predicateOp]
  repeat' (first
    | with_reducible assumption | with_reducible apply Keeps.ite | with_reducible apply actHalt_keeps
    | ((fail_if_success (fail_if_success with_reducible intro y)); first | with_reducible refine Keeps.letGoal (s := s0) ?_ (fun _ _ => ?_) | with_reducible intro y)
    | simp only [Keeps.put_iff] | lift_lets | split)

theorem execHalt_keeps {s0 t : State} (w f) (h : Keeps s0 t) :
    OKeeps s0 (execHalt w f t) := by
  unfold execHalt
  repeat' (first
    | with_reducible assumption | with_reducible apply OKeeps.next | with_reducible exact OKeeps.refused _
    | with_reducible apply OKeeps.ite | with_reducible apply Keeps.ite | with_reducible apply issue_keeps
    | with_reducible apply opHalt_keeps | with_reducible apply Keeps.idf
    | ((fail_if_success (fail_if_success with_reducible intro y)); first | with_reducible refine Keeps.letGoal (s := s0) ?_ (fun _ _ => ?_) | with_reducible intro y)
    | with_reducible intro _ _ | simp only [Keeps.put_iff] | lift_lets | split)

theorem actBrk_keeps {s0 t : State} (w) (h : Keeps s0 t) :
    Keeps s0 (actBrk w t) := by
  unfold actBrk
  repeat' (first
    | with_reducible assumption | with_reducible apply Keeps.ite | with_reducible apply onThread_keeps
    | with_reducible apply advancePc_keeps
    | ((fail_if_success (fail_if_success with_reducible intro y)); first | with_reducible refine Keeps.letGoal (s := s0) ?_ (fun _ _ => ?_) | with_reducible intro y)
    | simp only [Keeps.put_iff] | lift_lets | split)

theorem opBrk_keeps {s0 t : State} (w _f) (h : Keeps s0 t) :
    Keeps s0 ((opBrk w _f).act t) := by
  unfold opBrk
  dsimp only [pricedOp, plainOp, jumpOp, aluOp, predicateOp]
  repeat' (first
    | with_reducible assumption | with_reducible apply Keeps.ite | with_reducible apply actBrk_keeps
    | ((fail_if_success (fail_if_success with_reducible intro y)); first | with_reducible refine Keeps.letGoal (s := s0) ?_ (fun _ _ => ?_) | with_reducible intro y)
    | simp only [Keeps.put_iff] | lift_lets | split)

theorem execBrk_keeps {s0 t : State} (w f) (h : Keeps s0 t) :
    OKeeps s0 (execBrk w f t) := by
  unfold execBrk
  repeat' (first
    | with_reducible assumption | with_reducible apply OKeeps.next | with_reducible exact OKeeps.refused _
    | with_reducible apply OKeeps.ite | with_reducible apply Keeps.ite | with_reducible apply issue_keeps
    | with_reducible apply opBrk_keeps | with_reducible apply Keeps.idf
    | ((fail_if_success (fail_if_success with_reducible intro y)); first | with_reducible refine Keeps.letGoal (s := s0) ?_ (fun _ _ => ?_) | with_reducible intro y)
    | with_reducible intro _ _ | simp only [Keeps.put_iff] | lift_lets | split)

theorem opNop_keeps {s0 t : State} (w _f) (h : Keeps s0 t) :
    Keeps s0 ((opNop w _f).act t) := by
  unfold opNop
  dsimp only [pricedOp, plainOp, jumpOp, aluOp, predicateOp]
  repeat' (first
    | with_reducible assumption | with_reducible apply Keeps.ite | with_reducible apply advancePc_keeps
    | ((fail_if_success (fail_if_success with_reducible intro y)); first | with_reducible refine Keeps.letGoal (s := s0) ?_ (fun _ _ => ?_) | with_reducible intro y)
    | simp only [Keeps.put_iff] | lift_lets | split)

theorem execNop_keeps {s0 t : State} (w f) (h : Keeps s0 t) :
    OKeeps s0 (execNop w f t) := by
  unfold execNop
  repeat' (first
    | with_reducible assumption | with_reducible apply OKeeps.next | with_reducible exact OKeeps.refused _
    | with_reducible apply OKeeps.ite | with_reducible apply Keeps.ite | with_reducible apply issue_keeps
    | with_reducible apply opNop_keeps | with_reducible apply Keeps.idf
    | ((fail_if_success (fail_if_success with_reducible intro y)); first | with_reducible refine Keeps.letGoal (s := s0) ?_ (fun _ _ => ?_) | with_reducible intro y)
    | with_reducible intro _ _ | simp only [Keeps.put_iff] | lift_lets | split)

theorem opRds_keeps {s0 t : State} (w f) (h : Keeps s0 t) :
    Keeps s0 ((opRds w f).act t) := by
  unfold opRds
  dsimp only [pricedOp, plainOp, jumpOp, aluOp, predicateOp]
  repeat' (first
    | with_reducible assumption | with_reducible apply Keeps.ite | with_reducible apply putG_keeps
    | ((fail_if_success (fail_if_success with_reducible intro y)); first | with_reducible refine Keeps.letGoal (s := s0) ?_ (fun _ _ => ?_) | with_reducible intro y)
    | simp only [Keeps.put_iff] | lift_lets | split)

theorem execRds_keeps {s0 t : State} (w f) (h : Keeps s0 t) :
    OKeeps s0 (execRds w f t) := by
  unfold execRds
  repeat' (first
    | with_reducible assumption | with_reducible apply OKeeps.next | with_reducible exact OKeeps.refused _
    | with_reducible apply OKeeps.ite | with_reducible apply Keeps.ite | with_reducible apply issue_keeps
    | with_reducible apply opRds_keeps | with_reducible apply Keeps.idf
    | ((fail_if_success (fail_if_success with_reducible intro y)); first | with_reducible refine Keeps.letGoal (s := s0) ?_ (fun _ _ => ?_) | with_reducible intro y)
    | with_reducible intro _ _ | simp only [Keeps.put_iff] | lift_lets | split)

theorem actWrs_keeps {s0 t : State} (w f) (h : Keeps s0 t) :
    Keeps s0 (actWrs w f t) := by
  unfold actWrs
  repeat' (first
    | with_reducible assumption | with_reducible apply Keeps.ite | with_reducible apply faultThread_keeps
    | with_reducible apply sweep_keeps | with_reducible apply endOwned_keeps | with_reducible apply onThread_keeps
    | with_reducible apply goOn_keeps
    | ((fail_if_success (fail_if_success with_reducible intro y)); first | with_reducible refine Keeps.letGoal (s := s0) ?_ (fun _ _ => ?_) | with_reducible intro y)
    | simp only [Keeps.put_iff] | lift_lets | split)

theorem opWrs_keeps {s0 t : State} (w f) (h : Keeps s0 t) :
    Keeps s0 ((opWrs w f).act t) := by
  unfold opWrs
  dsimp only [pricedOp, plainOp, jumpOp, aluOp, predicateOp]
  repeat' (first
    | with_reducible assumption | with_reducible apply Keeps.ite | with_reducible apply actWrs_keeps
    | ((fail_if_success (fail_if_success with_reducible intro y)); first | with_reducible refine Keeps.letGoal (s := s0) ?_ (fun _ _ => ?_) | with_reducible intro y)
    | simp only [Keeps.put_iff] | lift_lets | split)

theorem execWrs_keeps {s0 t : State} (w f) (h : Keeps s0 t) :
    OKeeps s0 (execWrs w f t) := by
  unfold execWrs
  repeat' (first
    | with_reducible assumption | with_reducible apply OKeeps.next | with_reducible exact OKeeps.refused _
    | with_reducible apply OKeeps.ite | with_reducible apply Keeps.ite | with_reducible apply issue_keeps
    | with_reducible apply opWrs_keeps | with_reducible apply Keeps.idf
    | ((fail_if_success (fail_if_success with_reducible intro y)); first | with_reducible refine Keeps.letGoal (s := s0) ?_ (fun _ _ => ?_) | with_reducible intro y)
    | with_reducible intro _ _ | simp only [Keeps.put_iff] | lift_lets | split)

theorem actLd_keeps {s0 t : State} (w f) (h : Keeps s0 t) :
    Keeps s0 (actLd w f t) := by
  unfold actLd
  repeat' (first
    | with_reducible assumption | with_reducible apply Keeps.ite | with_reducible apply putG_keeps
    | with_reducible apply faultThread_keeps
    | ((fail_if_success (fail_if_success with_reducible intro y)); first | with_reducible refine Keeps.letGoal (s := s0) ?_ (fun _ _ => ?_) | with_reducible intro y)
    | simp only [Keeps.put_iff] | lift_lets | split)

theorem opLd_keeps {s0 t : State} (w f) (h : Keeps s0 t) :
    Keeps s0 ((opLd w f).act t) := by
  unfold opLd
  dsimp only [pricedOp, plainOp, jumpOp, aluOp, predicateOp]
  repeat' (first
    | with_reducible assumption | with_reducible apply Keeps.ite | with_reducible apply actLd_keeps
    | ((fail_if_success (fail_if_success with_reducible intro y)); first | with_reducible refine Keeps.letGoal (s := s0) ?_ (fun _ _ => ?_) | with_reducible intro y)
    | simp only [Keeps.put_iff] | lift_lets | split)

theorem execLd_keeps {s0 t : State} (w f) (h : Keeps s0 t) :
    OKeeps s0 (execLd w f t) := by
  unfold execLd
  repeat' (first
    | with_reducible assumption | with_reducible apply OKeeps.next | with_reducible exact OKeeps.refused _
    | with_reducible apply OKeeps.ite | with_reducible apply Keeps.ite | with_reducible apply issue_keeps
    | with_reducible apply opLd_keeps | with_reducible apply Keeps.idf
    | ((fail_if_success (fail_if_success with_reducible intro y)); first | with_reducible refine Keeps.letGoal (s := s0) ?_ (fun _ _ => ?_) | with_reducible intro y)
    | with_reducible intro _ _ | simp only [Keeps.put_iff] | lift_lets | split)

theorem actSt_keeps {s0 t : State} (w f) (h : Keeps s0 t) :
    Keeps s0 (actSt w f t) := by
  unfold actSt
  repeat' (first
    | with_reducible assumption | with_reducible apply Keeps.ite | with_reducible apply advancePc_keeps
    | with_reducible apply storeScratch_keeps | with_reducible apply faultThread_keeps
    | ((fail_if_success (fail_if_success with_reducible intro y)); first | with_reducible refine Keeps.letGoal (s := s0) ?_ (fun _ _ => ?_) | with_reducible intro y)
    | simp only [Keeps.put_iff] | lift_lets | split)

theorem opSt_keeps {s0 t : State} (w f) (h : Keeps s0 t) :
    Keeps s0 ((opSt w f).act t) := by
  unfold opSt
  dsimp only [pricedOp, plainOp, jumpOp, aluOp, predicateOp]
  repeat' (first
    | with_reducible assumption | with_reducible apply Keeps.ite | with_reducible apply actSt_keeps
    | ((fail_if_success (fail_if_success with_reducible intro y)); first | with_reducible refine Keeps.letGoal (s := s0) ?_ (fun _ _ => ?_) | with_reducible intro y)
    | simp only [Keeps.put_iff] | lift_lets | split)

theorem execSt_keeps {s0 t : State} (w f) (h : Keeps s0 t) :
    OKeeps s0 (execSt w f t) := by
  unfold execSt
  repeat' (first
    | with_reducible assumption | with_reducible apply OKeeps.next | with_reducible exact OKeeps.refused _
    | with_reducible apply OKeeps.ite | with_reducible apply Keeps.ite | with_reducible apply issue_keeps
    | with_reducible apply opSt_keeps | with_reducible apply Keeps.idf
    | ((fail_if_success (fail_if_success with_reducible intro y)); first | with_reducible refine Keeps.letGoal (s := s0) ?_ (fun _ _ => ?_) | with_reducible intro y)
    | with_reducible intro _ _ | simp only [Keeps.put_iff] | lift_lets | split)

end Sys2Proof.Machine
end

