-- ==== Sys2Proof/Laws/Keep/Threads.lean ====
section
/-!
SUPPORT. What the definitions of Machine/Threads.lean leave as it was.
-/

namespace Sys2Proof.Machine

set_option linter.unusedTactic false
set_option linter.unreachableTactic false
set_option linter.unusedSimpArgs false

theorem opOf_keeps {s0 u : State} {t : State} {i : Instr} {op : Op} (e : opOf t i = some op) (h : Keeps s0 u) :
    Keeps s0 (op.act u) := by
  unfold opOf at e
  split at e
  · cases e
    exact opAdd_keeps _ _ h
  · cases e
    exact opSub_keeps _ _ h
  · cases e
    exact opMul_keeps _ _ h
  · cases e
    exact opAnd_keeps _ _ h
  · cases e
    exact opOr_keeps _ _ h
  · cases e
    exact opXor_keeps _ _ h
  · cases e
    exact opShl_keeps _ _ h
  · cases e
    exact opShr_keeps _ _ h
  · cases e
    exact opSar_keeps _ _ h
  · cases e
    exact opAddi_keeps _ _ h
  · cases e
    exact opAndi_keeps _ _ h
  · cases e
    exact opLui_keeps _ _ h
  · cases e
    exact opCmp_keeps _ _ h
  · cases e
    exact opCmpi_keeps _ _ h
  · cases e
    exact opSel_keeps _ _ h
  · cases e
    exact opPset_keeps _ _ h
  · cases e
    exact opCrc_keeps _ _ _ h
  · cases e
    exact opB_keeps _ _ h
  · cases e
    exact opBp_keeps _ _ h
  · cases e
    exact opCall_keeps _ _ h
  · cases e
    exact opRet_keeps _ _ h
  · cases e
    exact opYield_keeps _ _ h
  · cases e
    exact opHalt_keeps _ _ h
  · cases e
    exact opBrk_keeps _ _ h
  · cases e
    exact opNop_keeps _ _ h
  · cases e
    exact opRds_keeps _ _ h
  · cases e
    exact opWrs_keeps _ _ h
  · cases e
    exact opLd_keeps _ _ h
  · cases e
    exact opSt_keeps _ _ h
  · cases e
    exact opLdx_keeps _ _ h
  · cases e
    exact opStx_keeps _ _ h
  · cases e
    exact opSopen_keeps _ _ h
  · cases e
    exact opSfeed_keeps _ _ h
  · cases e
    exact opSclose_keeps _ _ h
  · cases e
    exact opFlow_keeps _ _ h
  · cases e
    exact opDnext_keeps _ _ h
  · cases e
    exact opWaitt_keeps _ _ h
  · cases e
    exact opWaitb_keeps _ _ h
  · cases e
    exact opTpoll_keeps _ _ h
  · cases e
    exact opPost_keeps _ _ h
  · cases e
    exact opPay_keeps _ _ h
  · cases e
    exact opSettle_keeps _ _ h
  · cases e
    exact opMask_keeps _ _ h
  · cases e
    exact opNext_keeps _ _ h
  · cases e
    exact opDraft_keeps _ _ _ h
  · cases e
    exact opPick_keeps _ _ h
  · cases e
    exact opEmit_keeps _ _ h
  · cases e
    exact opPrice1_keeps _ _ h
  · cases e

theorem resumeLambiop_keeps {s0 t : State} (i) (h : Keeps s0 t) :
    Keeps s0 (resumeLambiop i t) := by
  unfold resumeLambiop
  split
  · refine Keeps.ite (resumePaid_keeps _ _ _ h (fun _ k => opOf_keeps ‹_› k)) (Keeps.ite h ?_)
    split
    · exact openBody_keeps _ _ h
    · exact nextBody_keeps _ _ h
    · exact draftBody_keeps _ _ h
    · exact h
  · exact h

theorem startClerk_keeps {s0 t : State} (c) (h : Keeps s0 t) :
    Keeps s0 (startClerk c t) := by
  unfold startClerk
  repeat' (first
    | with_reducible assumption | with_reducible apply Keeps.ite | with_reducible apply setThread_keeps
    | with_reducible apply endOwned_keeps | with_reducible apply sweep_keeps
    | with_reducible refine Keeps.foldl _ ?_ (fun _ _ _ => ?_)
    | ((fail_if_success (fail_if_success with_reducible intro y)); first | with_reducible refine Keeps.letGoal (s := s0) ?_ (fun _ _ => ?_) | with_reducible intro y)
    | simp only [Keeps.put_iff] | lift_lets | split)

theorem execClerkStart_keeps {s0 t : State} (cs) (h : Keeps s0 t) :
    OKeeps s0 (execClerkStart cs t) := by
  unfold execClerkStart
  repeat' (first
    | with_reducible assumption | with_reducible apply OKeeps.next | with_reducible exact OKeeps.refused _
    | with_reducible apply OKeeps.ite | with_reducible apply Keeps.ite | with_reducible apply viaPort_keeps
    | with_reducible apply startClerk_keeps | with_reducible refine Keeps.foldl _ ?_ (fun _ _ _ => ?_)
    | ((fail_if_success (fail_if_success with_reducible intro y)); first | with_reducible refine Keeps.letGoal (s := s0) ?_ (fun _ _ => ?_) | with_reducible intro y)
    | simp only [Keeps.put_iff] | lift_lets | split)

theorem dropWaits_keeps {s0 t : State} (w) (h : Keeps s0 t) :
    Keeps s0 (dropWaits w t) := by
  unfold dropWaits
  repeat' (first
    | with_reducible assumption | with_reducible apply Keeps.ite
    | ((fail_if_success (fail_if_success with_reducible intro y)); first | with_reducible refine Keeps.letGoal (s := s0) ?_ (fun _ _ => ?_) | with_reducible intro y)
    | simp only [Keeps.put_iff] | lift_lets | split)

theorem stopClerk_keeps {s0 t : State} (c) (h : Keeps s0 t) :
    Keeps s0 (stopClerk c t) := by
  unfold stopClerk
  repeat' (first
    | with_reducible assumption | with_reducible apply Keeps.ite | with_reducible apply dropWaits_keeps
    | with_reducible apply onThread_keeps | with_reducible refine Keeps.foldl _ ?_ (fun _ _ _ => ?_)
    | ((fail_if_success (fail_if_success with_reducible intro y)); first | with_reducible refine Keeps.letGoal (s := s0) ?_ (fun _ _ => ?_) | with_reducible intro y)
    | simp only [Keeps.put_iff] | lift_lets | split)

theorem haltThread_keeps {s0 t : State} (w) (h : Keeps s0 t) :
    Keeps s0 (haltThread w t) := by
  unfold haltThread
  repeat' (first
    | with_reducible assumption | with_reducible apply Keeps.ite | with_reducible apply onThread_keeps
    | with_reducible apply endOwned_keeps | with_reducible apply dropWaits_keeps
    | ((fail_if_success (fail_if_success with_reducible intro y)); first | with_reducible refine Keeps.letGoal (s := s0) ?_ (fun _ _ => ?_) | with_reducible intro y)
    | simp only [Keeps.put_iff] | lift_lets | split)

theorem haltClerk_keeps {s0 t : State} (c) (h : Keeps s0 t) :
    Keeps s0 (haltClerk c t) := by
  unfold haltClerk
  repeat' (first
    | with_reducible assumption | with_reducible apply Keeps.ite | with_reducible apply haltThread_keeps
    | with_reducible refine Keeps.foldl _ ?_ (fun _ _ _ => ?_)
    | ((fail_if_success (fail_if_success with_reducible intro y)); first | with_reducible refine Keeps.letGoal (s := s0) ?_ (fun _ _ => ?_) | with_reducible intro y)
    | simp only [Keeps.put_iff] | lift_lets | split)

theorem execClerkHalt_keeps {s0 t : State} (cs) (h : Keeps s0 t) :
    OKeeps s0 (execClerkHalt cs t) := by
  unfold execClerkHalt
  repeat' (first
    | with_reducible assumption | with_reducible apply OKeeps.next | with_reducible exact OKeeps.refused _
    | with_reducible apply OKeeps.ite | with_reducible apply Keeps.ite | with_reducible apply viaPort_keeps
    | with_reducible apply sweep_keeps | with_reducible apply haltClerk_keeps
    | with_reducible refine Keeps.foldl _ ?_ (fun _ _ _ => ?_)
    | ((fail_if_success (fail_if_success with_reducible intro y)); first | with_reducible refine Keeps.letGoal (s := s0) ?_ (fun _ _ => ?_) | with_reducible intro y)
    | simp only [Keeps.put_iff] | lift_lets | split)

theorem execThreadRestart_keeps {s0 t : State} (w) (h : Keeps s0 t) :
    OKeeps s0 (execThreadRestart w t) := by
  unfold execThreadRestart
  repeat' (first
    | with_reducible assumption | with_reducible apply OKeeps.next | with_reducible exact OKeeps.refused _
    | with_reducible apply OKeeps.ite | with_reducible apply Keeps.ite | with_reducible apply viaPort_keeps
    | with_reducible apply sweep_keeps | with_reducible apply setThread_keeps | with_reducible apply endOwned_keeps
    | ((fail_if_success (fail_if_success with_reducible intro y)); first | with_reducible refine Keeps.letGoal (s := s0) ?_ (fun _ _ => ?_) | with_reducible intro y)
    | simp only [Keeps.put_iff] | lift_lets | split)

theorem leaveDebug_keeps {s0 t : State} (w step) (h : Keeps s0 t) :
    Keeps s0 (leaveDebug w step t) := by
  unfold leaveDebug
  repeat' (first
    | with_reducible assumption | with_reducible apply Keeps.ite | with_reducible apply onThread_keeps
    | ((fail_if_success (fail_if_success with_reducible intro y)); first | with_reducible refine Keeps.letGoal (s := s0) ?_ (fun _ _ => ?_) | with_reducible intro y)
    | simp only [Keeps.put_iff] | lift_lets | split)

theorem execDebugResume_keeps {s0 t : State} (w) (h : Keeps s0 t) :
    OKeeps s0 (execDebugResume w t) := by
  unfold execDebugResume
  repeat' (first
    | with_reducible assumption | with_reducible apply OKeeps.next | with_reducible exact OKeeps.refused _
    | with_reducible apply OKeeps.ite | with_reducible apply Keeps.ite | with_reducible apply viaPort_keeps
    | with_reducible apply leaveDebug_keeps
    | ((fail_if_success (fail_if_success with_reducible intro y)); first | with_reducible refine Keeps.letGoal (s := s0) ?_ (fun _ _ => ?_) | with_reducible intro y)
    | simp only [Keeps.put_iff] | lift_lets | split)

theorem execDebugStep_keeps {s0 t : State} (w) (h : Keeps s0 t) :
    OKeeps s0 (execDebugStep w t) := by
  unfold execDebugStep
  repeat' (first
    | with_reducible assumption | with_reducible apply OKeeps.next | with_reducible exact OKeeps.refused _
    | with_reducible apply OKeeps.ite | with_reducible apply Keeps.ite | with_reducible apply viaPort_keeps
    | with_reducible apply leaveDebug_keeps
    | ((fail_if_success (fail_if_success with_reducible intro y)); first | with_reducible refine Keeps.letGoal (s := s0) ?_ (fun _ _ => ?_) | with_reducible intro y)
    | simp only [Keeps.put_iff] | lift_lets | split)

theorem execUndefinedOpcode_keeps {s0 t : State} (w word) (h : Keeps s0 t) :
    OKeeps s0 (execUndefinedOpcode w word t) := by
  unfold execUndefinedOpcode
  repeat' (first
    | with_reducible assumption | with_reducible apply OKeeps.next | with_reducible exact OKeeps.refused _
    | with_reducible apply OKeeps.ite | with_reducible apply Keeps.ite | with_reducible apply faultThread_keeps
    | with_reducible apply noteIssue_keeps
    | ((fail_if_success (fail_if_success with_reducible intro y)); first | with_reducible refine Keeps.letGoal (s := s0) ?_ (fun _ _ => ?_) | with_reducible intro y)
    | simp only [Keeps.put_iff] | lift_lets | split)

theorem execTicketComplete_keeps {s0 t : State} (c k) (h : Keeps s0 t) :
    OKeeps s0 (execTicketComplete c k t) := by
  unfold execTicketComplete
  repeat' (first
    | with_reducible assumption | with_reducible apply OKeeps.next | with_reducible exact OKeeps.refused _
    | with_reducible apply OKeeps.ite | with_reducible apply Keeps.ite | with_reducible apply sweep_keeps
    | with_reducible apply wakeClerk_keeps | with_reducible apply onTicket_keeps
    | ((fail_if_success (fail_if_success with_reducible intro y)); first | with_reducible refine Keeps.letGoal (s := s0) ?_ (fun _ _ => ?_) | with_reducible intro y)
    | simp only [Keeps.put_iff] | lift_lets | split)

end Sys2Proof.Machine
end

