-- ==== Sys2Proof/Laws/Keep/Reserve.lean ====
section
/-!
SUPPORT. What the definitions of Machine/Reserve.lean leave as it was.
-/

namespace Sys2Proof.Machine

set_option linter.unusedTactic false
set_option linter.unreachableTactic false
set_option linter.unusedSimpArgs false

theorem macroDead_keeps {s0 t : State} (f m row ns) (h : Keeps s0 t) :
    Keeps s0 (macroDead f m row ns t) := by
  unfold macroDead
  repeat' (first
    | with_reducible assumption | with_reducible apply Keeps.ite | with_reducible apply audFault_keeps
    | with_reducible apply stopClerk_keeps | with_reducible apply replayStreams_keeps
    | with_reducible apply remapRow_keeps
    | (refine Keeps.fstOf ?_ ‹remapRow _ _ _ _ _ = (_, _)›; with_reducible apply remapRow_keeps)
    | ((fail_if_success (fail_if_success with_reducible intro y)); first | with_reducible refine Keeps.letGoal (s := s0) ?_ (fun _ _ => ?_) | with_reducible intro y)
    | simp only [Keeps.put_iff] | lift_lets | split)

theorem takeFinding_keeps {s0 t : State} (x) (h : Keeps s0 t) :
    Keeps s0 (takeFinding t x) := by
  unfold takeFinding
  repeat' (first
    | with_reducible assumption | with_reducible apply Keeps.ite | with_reducible apply bump_keeps
    | with_reducible apply poisonBank_keeps | with_reducible apply remapRow_keeps
    | (refine Keeps.fstOf ?_ ‹remapRow _ _ _ _ _ = (_, _)›; with_reducible apply remapRow_keeps)
    | with_reducible apply macroDead_keeps
    | ((fail_if_success (fail_if_success with_reducible intro y)); first | with_reducible refine Keeps.letGoal (s := s0) ?_ (fun _ _ => ?_) | with_reducible intro y)
    | simp only [Keeps.put_iff] | lift_lets | split)

theorem mapWeak_keeps {s0 t : State} (h : Keeps s0 t) :
    Keeps s0 (mapWeak t) := by
  unfold mapWeak
  repeat' (first
    | with_reducible assumption | with_reducible apply Keeps.ite | with_reducible apply remapRow_keeps
    | (refine Keeps.fstOf ?_ ‹remapRow _ _ _ _ _ = (_, _)›; with_reducible apply remapRow_keeps)
    | with_reducible refine Keeps.foldl _ ?_ (fun _ _ _ => ?_)
    | ((fail_if_success (fail_if_success with_reducible intro y)); first | with_reducible refine Keeps.letGoal (s := s0) ?_ (fun _ _ => ?_) | with_reducible intro y)
    | simp only [Keeps.put_iff] | lift_lets | split)

theorem endPass_keeps {s0 t : State} (h : Keeps s0 t) :
    Keeps s0 (endPass t) := by
  unfold endPass
  repeat' (first
    | with_reducible assumption | with_reducible apply Keeps.ite | with_reducible apply bump_keeps
    | with_reducible apply cleanCheck_keeps | with_reducible apply mapWeak_keeps
    | with_reducible apply automaticPass_keeps | with_reducible apply endActivity_keeps
    | with_reducible refine Keeps.foldl _ ?_ (fun _ _ _ => ?_)
    | ((fail_if_success (fail_if_success with_reducible intro y)); first | with_reducible refine Keeps.letGoal (s := s0) ?_ (fun _ _ => ?_) | with_reducible intro y)
    | simp only [Keeps.put_iff] | lift_lets | split)

theorem visitBody_keeps {s0 t : State} (findings) (h : Keeps s0 t) :
    Keeps s0 (visitBody findings t) := by
  unfold visitBody
  repeat' (first
    | with_reducible assumption | with_reducible apply Keeps.ite | with_reducible apply takeFinding_keeps
    | with_reducible apply endPass_keeps | with_reducible refine Keeps.foldl _ ?_ (fun _ _ _ => ?_)
    | with_reducible apply startWaiting_keeps
    | ((fail_if_success (fail_if_success with_reducible intro y)); first | with_reducible refine Keeps.letGoal (s := s0) ?_ (fun _ _ => ?_) | with_reducible intro y)
    | simp only [Keeps.put_iff] | lift_lets | split)

theorem execPatrolScrub_keeps {s0 t : State} (findings) (h : Keeps s0 t) :
    OKeeps s0 (execPatrolScrub findings t) := by
  unfold execPatrolScrub
  repeat' (first
    | with_reducible assumption | with_reducible apply OKeeps.next | with_reducible exact OKeeps.refused _
    | with_reducible apply OKeeps.ite | with_reducible apply Keeps.ite | with_reducible apply sweep_keeps
    | with_reducible apply buy_keeps | with_reducible apply visitBody_keeps | with_reducible apply Keeps.idf
    | ((fail_if_success (fail_if_success with_reducible intro y)); first | with_reducible refine Keeps.letGoal (s := s0) ?_ (fun _ _ => ?_) | with_reducible intro y)
    | with_reducible intro _ _ | simp only [Keeps.put_iff] | lift_lets | split)

theorem execScrubPassStart_keeps {s0 t : State} (h : Keeps s0 t) :
    OKeeps s0 (execScrubPassStart t) := by
  unfold execScrubPassStart
  repeat' (first
    | with_reducible assumption | with_reducible apply OKeeps.next | with_reducible exact OKeeps.refused _
    | with_reducible apply OKeeps.ite | with_reducible apply Keeps.ite | with_reducible apply viaPort_keeps
    | with_reducible apply driverStart_keeps | with_reducible apply beginPass_keeps | with_reducible apply Keeps.idf
    | ((fail_if_success (fail_if_success with_reducible intro y)); first | with_reducible refine Keeps.letGoal (s := s0) ?_ (fun _ _ => ?_) | with_reducible intro y)
    | with_reducible intro _ _ | simp only [Keeps.put_iff] | lift_lets | split)

theorem execSlackSweep_keeps {s0 t : State} (domain) (h : Keeps s0 t) :
    OKeeps s0 (execSlackSweep domain t) := by
  unfold execSlackSweep
  repeat' (first
    | with_reducible assumption | with_reducible apply OKeeps.next | with_reducible exact OKeeps.refused _
    | with_reducible apply OKeeps.ite | with_reducible apply Keeps.ite | with_reducible apply startOrWait_keeps
    | ((fail_if_success (fail_if_success with_reducible intro y)); first | with_reducible refine Keeps.letGoal (s := s0) ?_ (fun _ _ => ?_) | with_reducible intro y)
    | simp only [Keeps.put_iff] | lift_lets | split)

theorem execSweepRequest_keeps {s0 t : State} (value) (h : Keeps s0 t) :
    OKeeps s0 (execSweepRequest value t) := by
  unfold execSweepRequest
  repeat' (first
    | with_reducible assumption | with_reducible apply OKeeps.next | with_reducible exact OKeeps.refused _
    | with_reducible apply OKeeps.ite | with_reducible apply Keeps.ite | with_reducible apply viaPort_keeps
    | with_reducible apply setReg_keeps | with_reducible apply driverStart_keeps | with_reducible apply Keeps.idf
    | ((fail_if_success (fail_if_success with_reducible intro y)); first | with_reducible refine Keeps.letGoal (s := s0) ?_ (fun _ _ => ?_) | with_reducible intro y)
    | with_reducible intro _ _ | simp only [Keeps.put_iff] | lift_lets | split)

theorem noteMargin_keeps {s0 t : State} (d) (h : Keeps s0 t) :
    Keeps s0 (noteMargin d t) := by
  unfold noteMargin
  repeat' (first
    | with_reducible assumption | with_reducible apply Keeps.ite | with_reducible apply addPending_keeps
    | ((fail_if_success (fail_if_success with_reducible intro y)); first | with_reducible refine Keeps.letGoal (s := s0) ?_ (fun _ _ => ?_) | with_reducible intro y)
    | simp only [Keeps.put_iff] | lift_lets | split)

theorem changeStep_keeps {s0 t : State} (d k) (h : Keeps s0 t) :
    Keeps s0 (changeStep d k t) := by
  unfold changeStep
  repeat' (first
    | with_reducible assumption | with_reducible apply Keeps.ite | with_reducible apply noteMargin_keeps
    | ((fail_if_success (fail_if_success with_reducible intro y)); first | with_reducible refine Keeps.letGoal (s := s0) ?_ (fun _ _ => ?_) | with_reducible intro y)
    | simp only [Keeps.put_iff] | lift_lets | split)

theorem planWithout_keeps {s0 t : State} (d) (h : Keeps s0 t) :
    Keeps s0 (planWithout d t) := by
  unfold planWithout
  repeat' (first
    | with_reducible assumption | with_reducible apply Keeps.ite | with_reducible apply changeStep_keeps
    | with_reducible apply bump_keeps | with_reducible apply retireLive_keeps | with_reducible apply rsvEvent_keeps
    | with_reducible apply setRegBit_keeps
    | ((fail_if_success (fail_if_success with_reducible intro y)); first | with_reducible refine Keeps.letGoal (s := s0) ?_ (fun _ _ => ?_) | with_reducible intro y)
    | simp only [Keeps.put_iff] | lift_lets | split)

theorem nextAsk_keeps {s0 t : State} (fuel) (h : Keeps s0 t) :
    Keeps s0 (nextAsk fuel t) := by
  induction fuel generalizing t with
  | zero => exact h
  | succ fuel ih =>
    unfold nextAsk
    repeat' (first
      | with_reducible assumption | with_reducible apply Keeps.ite | with_reducible apply planWithout_keeps
      | with_reducible apply ih | cases ‹_ + 1 = Nat.succ _›
      | ((fail_if_success (fail_if_success with_reducible intro y)); first | with_reducible refine Keeps.letGoal (s := s0) ?_ (fun _ _ => ?_) | with_reducible intro y)
      | simp only [Keeps.put_iff] | lift_lets | split)

theorem plan_keeps {s0 t : State} (d) (h : Keeps s0 t) :
    Keeps s0 (plan d t) := by
  unfold plan
  repeat' (first
    | with_reducible assumption | with_reducible apply Keeps.ite | with_reducible apply askRail_keeps
    | with_reducible apply planWithout_keeps | with_reducible apply changeStep_keeps
    | ((fail_if_success (fail_if_success with_reducible intro y)); first | with_reducible refine Keeps.letGoal (s := s0) ?_ (fun _ _ => ?_) | with_reducible intro y)
    | simp only [Keeps.put_iff] | lift_lets | split)

theorem execSweepEnd_keeps {s0 t : State} (slacks) (h : Keeps s0 t) :
    OKeeps s0 (execSweepEnd slacks t) := by
  unfold execSweepEnd
  repeat' (first
    | with_reducible assumption | with_reducible apply OKeeps.next | with_reducible exact OKeeps.refused _
    | with_reducible apply OKeeps.ite | with_reducible apply Keeps.ite | with_reducible apply bump_keeps
    | with_reducible apply endActivity_keeps | with_reducible apply sweep_keeps | with_reducible apply plan_keeps
    | ((fail_if_success (fail_if_success with_reducible intro y)); first | with_reducible refine Keeps.letGoal (s := s0) ?_ (fun _ _ => ?_) | with_reducible intro y)
    | simp only [Keeps.put_iff] | lift_lets | split)

theorem execVreqAck_keeps {s0 t : State} (h : Keeps s0 t) :
    OKeeps s0 (execVreqAck t) := by
  unfold execVreqAck
  repeat' (first
    | with_reducible assumption | with_reducible apply OKeeps.next | with_reducible exact OKeeps.refused _
    | with_reducible apply OKeeps.ite | with_reducible apply Keeps.ite | with_reducible apply raise_keeps
    | with_reducible apply noteMargin_keeps | with_reducible apply bump_keeps | with_reducible apply sweep_keeps
    | with_reducible apply nextAsk_keeps
    | ((fail_if_success (fail_if_success with_reducible intro y)); first | with_reducible refine Keeps.letGoal (s := s0) ?_ (fun _ _ => ?_) | with_reducible intro y)
    | simp only [Keeps.put_iff] | lift_lets | split)

theorem execVreqNak_keeps {s0 t : State} (h : Keeps s0 t) :
    OKeeps s0 (execVreqNak t) := by
  unfold execVreqNak
  repeat' (first
    | with_reducible assumption | with_reducible apply OKeeps.next | with_reducible exact OKeeps.refused _
    | with_reducible apply OKeeps.ite | with_reducible apply Keeps.ite | with_reducible apply setRegBit_keeps
    | with_reducible apply planWithout_keeps | with_reducible apply sweep_keeps | with_reducible apply nextAsk_keeps
    | ((fail_if_success (fail_if_success with_reducible intro y)); first | with_reducible refine Keeps.letGoal (s := s0) ?_ (fun _ _ => ?_) | with_reducible intro y)
    | simp only [Keeps.put_iff] | lift_lets | split)

theorem bankFull_keeps {s0 t : State} (b) (h : Keeps s0 t) :
    Keeps s0 (bankFull b t) := by
  unfold bankFull
  repeat' (first
    | with_reducible assumption | with_reducible apply Keeps.ite | with_reducible apply bankBack_keeps
    | with_reducible apply clearPoison_keeps | with_reducible apply cleanCheck_keeps
    | ((fail_if_success (fail_if_success with_reducible intro y)); first | with_reducible refine Keeps.letGoal (s := s0) ?_ (fun _ _ => ?_) | with_reducible intro y)
    | simp only [Keeps.put_iff] | lift_lets | split)

theorem swapIn_keeps {s0 t : State} (cls i) (h : Keeps s0 t) :
    Keeps s0 (swapIn cls i t) := by
  unfold swapIn
  repeat' (first
    | with_reducible assumption | with_reducible apply Keeps.ite | with_reducible apply standIn_keeps
    | with_reducible apply takeOut_keeps | with_reducible apply bankFull_keeps | with_reducible apply spareOut_keeps
    | with_reducible apply bankAbsent_keeps | with_reducible apply bankBack_keeps
    | ((fail_if_success (fail_if_success with_reducible intro y)); first | with_reducible refine Keeps.letGoal (s := s0) ?_ (fun _ _ => ?_) | with_reducible intro y)
    | simp only [Keeps.put_iff] | lift_lets | split)

theorem swapDone_keeps {s0 t : State} (a) (h : Keeps s0 t) :
    Keeps s0 (swapDone a t) := by
  unfold swapDone
  repeat' (first
    | with_reducible assumption | with_reducible apply Keeps.ite | with_reducible apply takeOut_keeps
    | with_reducible apply bringBack_keeps | with_reducible apply bankFull_keeps | with_reducible apply swapIn_keeps
    | ((fail_if_success (fail_if_success with_reducible intro y)); first | with_reducible refine Keeps.letGoal (s := s0) ?_ (fun _ _ => ?_) | with_reducible intro y)
    | simp only [Keeps.put_iff] | lift_lets | split)

theorem execSpareSwapDone_keeps {s0 t : State} (h : Keeps s0 t) :
    OKeeps s0 (execSpareSwapDone t) := by
  unfold execSpareSwapDone
  repeat' (first
    | with_reducible assumption | with_reducible apply OKeeps.next | with_reducible exact OKeeps.refused _
    | with_reducible apply OKeeps.ite | with_reducible apply Keeps.ite | with_reducible apply sweep_keeps
    | with_reducible apply endActivity_keeps | with_reducible apply swapDone_keeps
    | ((fail_if_success (fail_if_success with_reducible intro y)); first | with_reducible refine Keeps.letGoal (s := s0) ?_ (fun _ _ => ?_) | with_reducible intro y)
    | simp only [Keeps.put_iff] | lift_lets | split)

theorem execVaultReloadDone_keeps {s0 t : State} (bank) (h : Keeps s0 t) :
    OKeeps s0 (execVaultReloadDone bank t) := by
  unfold execVaultReloadDone
  repeat' (first
    | with_reducible assumption | with_reducible apply OKeeps.next | with_reducible exact OKeeps.refused _
    | with_reducible apply OKeeps.ite | with_reducible apply Keeps.ite | with_reducible apply sweep_keeps
    | with_reducible apply endActivity_keeps | with_reducible apply bankFull_keeps
    | ((fail_if_success (fail_if_success with_reducible intro y)); first | with_reducible refine Keeps.letGoal (s := s0) ?_ (fun _ _ => ?_) | with_reducible intro y)
    | simp only [Keeps.put_iff] | lift_lets | split)

theorem execPendingPop_keeps {s0 t : State} (h : Keeps s0 t) :
    OKeeps s0 (execPendingPop t) := by
  unfold execPendingPop
  repeat' (first
    | with_reducible assumption | with_reducible apply OKeeps.next | with_reducible exact OKeeps.refused _
    | with_reducible apply OKeeps.ite | with_reducible apply Keeps.ite | with_reducible apply viaPort_keeps
    | ((fail_if_success (fail_if_success with_reducible intro y)); first | with_reducible refine Keeps.letGoal (s := s0) ?_ (fun _ _ => ?_) | with_reducible intro y)
    | simp only [Keeps.put_iff] | lift_lets | split)

end Sys2Proof.Machine
end

