-- ==== Sys2Proof/Laws/Keep/Purse.lean ====
section
/-!
SUPPORT. What the definitions of Machine/Purse.lean leave as it was.
-/

namespace Sys2Proof.Machine

set_option linter.unusedTactic false
set_option linter.unreachableTactic false
set_option linter.unusedSimpArgs false

theorem tickScale_keeps {s0 t : State} (h : Keeps s0 t) :
    Keeps s0 (tickScale t) := by
  unfold tickScale
  repeat' (first
    | with_reducible assumption | with_reducible apply Keeps.ite | with_reducible apply setRegBit_keeps
    | ((fail_if_success (fail_if_success with_reducible intro y)); first | with_reducible refine Keeps.letGoal (s := s0) ?_ (fun _ _ => ?_) | with_reducible intro y)
    | simp only [Keeps.put_iff] | lift_lets | split)

theorem tickThermal_keeps {s0 t : State} (therm) (h : Keeps s0 t) :
    Keeps s0 (tickThermal therm t) := by
  unfold tickThermal
  repeat' (first
    | with_reducible assumption | with_reducible apply Keeps.ite
    | ((fail_if_success (fail_if_success with_reducible intro y)); first | with_reducible refine Keeps.letGoal (s := s0) ?_ (fun _ _ => ?_) | with_reducible intro y)
    | simp only [Keeps.put_iff] | lift_lets | split)

theorem tickLeak_keeps {s0 t : State} (itel valid) (h : Keeps s0 t) :
    Keeps s0 (tickLeak itel valid t) := by
  unfold tickLeak
  repeat' (first
    | with_reducible assumption | with_reducible apply Keeps.ite
    | ((fail_if_success (fail_if_success with_reducible intro y)); first | with_reducible refine Keeps.letGoal (s := s0) ?_ (fun _ _ => ?_) | with_reducible intro y)
    | simp only [Keeps.put_iff] | lift_lets | split)

theorem tickGrant_keeps {s0 t : State} (h : Keeps s0 t) :
    Keeps s0 (tickGrant t) := by
  unfold tickGrant
  repeat' (first
    | with_reducible assumption | with_reducible apply Keeps.ite
    | ((fail_if_success (fail_if_success with_reducible intro y)); first | with_reducible refine Keeps.letGoal (s := s0) ?_ (fun _ _ => ?_) | with_reducible intro y)
    | simp only [Keeps.put_iff] | lift_lets | split)

theorem tickCount_keeps {s0 t : State} (h : Keeps s0 t) :
    Keeps s0 (tickCount t) := by
  unfold tickCount
  repeat' (first
    | with_reducible assumption | with_reducible apply Keeps.ite | with_reducible apply bump_keeps
    | ((fail_if_success (fail_if_success with_reducible intro y)); first | with_reducible refine Keeps.letGoal (s := s0) ?_ (fun _ _ => ?_) | with_reducible intro y)
    | simp only [Keeps.put_iff] | lift_lets | split)

theorem tickWatchdog_keeps {s0 t : State} (h : Keeps s0 t) :
    Keeps s0 (tickWatchdog t) := by
  unfold tickWatchdog
  repeat' (first
    | with_reducible assumption | with_reducible apply Keeps.ite | with_reducible apply takeFree_keeps
    | (refine Keeps.sndOf ?_ ‹takeFree _ = (_, _)›; with_reducible apply takeFree_keeps)
    | with_reducible apply bump_keeps | with_reducible apply setRegBit_keeps | with_reducible apply setReg_keeps
    | with_reducible apply noteLoss_keeps
    | ((fail_if_success (fail_if_success with_reducible intro y)); first | with_reducible refine Keeps.letGoal (s := s0) ?_ (fun _ _ => ?_) | with_reducible intro y)
    | simp only [Keeps.put_iff] | lift_lets | split)

theorem tickClocks_keeps {s0 t : State} (h : Keeps s0 t) :
    Keeps s0 (tickClocks t) := by
  unfold tickClocks
  repeat' (first
    | with_reducible assumption | with_reducible apply Keeps.ite | with_reducible apply setReg_keeps
    | ((fail_if_success (fail_if_success with_reducible intro y)); first | with_reducible refine Keeps.letGoal (s := s0) ?_ (fun _ _ => ?_) | with_reducible intro y)
    | simp only [Keeps.put_iff] | lift_lets | split)

theorem execPurseTick_keeps {s0 t : State} (therm itel valid) (h : Keeps s0 t) :
    OKeeps s0 (execPurseTick therm itel valid t) := by
  unfold execPurseTick
  repeat' (first
    | with_reducible assumption | with_reducible apply OKeeps.next | with_reducible exact OKeeps.refused _
    | with_reducible apply OKeeps.ite | with_reducible apply Keeps.ite | with_reducible apply tickWatchdog_keeps
    | with_reducible apply tickClocks_keeps | with_reducible apply tickGrant_keeps
    | with_reducible apply tickCount_keeps | with_reducible apply tickLeak_keeps
    | with_reducible apply tickThermal_keeps | with_reducible apply tickScale_keeps
    | ((fail_if_success (fail_if_success with_reducible intro y)); first | with_reducible refine Keeps.letGoal (s := s0) ?_ (fun _ _ => ?_) | with_reducible intro y)
    | simp only [Keeps.put_iff] | lift_lets | split)

theorem execPurseTelemetryPacket_keeps {s0 t : State} (h : Keeps s0 t) :
    OKeeps s0 (execPurseTelemetryPacket t) := by
  unfold execPurseTelemetryPacket
  repeat' (first
    | with_reducible assumption | with_reducible apply OKeeps.next | with_reducible exact OKeeps.refused _
    | with_reducible apply OKeeps.ite | with_reducible apply Keeps.ite | with_reducible apply writePacket_keeps
    | ((fail_if_success (fail_if_success with_reducible intro y)); first | with_reducible refine Keeps.letGoal (s := s0) ?_ (fun _ _ => ?_) | with_reducible intro y)
    | simp only [Keeps.put_iff] | lift_lets | split)

theorem writeAllow_keeps {s0 t : State} (v) (h : Keeps s0 t) :
    Keeps s0 (writeAllow v t) := by
  unfold writeAllow
  repeat' (first
    | with_reducible assumption | with_reducible apply Keeps.ite | with_reducible apply setReg_keeps
    | with_reducible apply setRegBit_keeps
    | ((fail_if_success (fail_if_success with_reducible intro y)); first | with_reducible refine Keeps.letGoal (s := s0) ?_ (fun _ _ => ?_) | with_reducible intro y)
    | simp only [Keeps.put_iff] | lift_lets | split)

theorem execPurAllowWrite_keeps {s0 t : State} (v) (h : Keeps s0 t) :
    OKeeps s0 (execPurAllowWrite v t) := by
  unfold execPurAllowWrite
  repeat' (first
    | with_reducible assumption | with_reducible apply OKeeps.next | with_reducible exact OKeeps.refused _
    | with_reducible apply OKeeps.ite | with_reducible apply Keeps.ite | with_reducible apply viaPort_keeps
    | with_reducible apply writeAllow_keeps
    | ((fail_if_success (fail_if_success with_reducible intro y)); first | with_reducible refine Keeps.letGoal (s := s0) ?_ (fun _ _ => ?_) | with_reducible intro y)
    | simp only [Keeps.put_iff] | lift_lets | split)

theorem leavePurse_keeps {s0 t : State} (p) (h : Keeps s0 t) :
    Keeps s0 (leavePurse p t) := by
  unfold leavePurse
  repeat' (first
    | with_reducible assumption | with_reducible apply Keeps.ite
    | ((fail_if_success (fail_if_success with_reducible intro y)); first | with_reducible refine Keeps.letGoal (s := s0) ?_ (fun _ _ => ?_) | with_reducible intro y)
    | simp only [Keeps.put_iff] | lift_lets | split)

end Sys2Proof.Machine
end

