-- ==== Sys2Proof/Laws/Keep/Power.lean ====
section
/-!
SUPPORT. What the definitions of Machine/Power.lean leave as it was.
-/

namespace Sys2Proof.Machine

set_option linter.unusedTactic false
set_option linter.unreachableTactic false
set_option linter.unusedSimpArgs false

theorem holdDomain_keeps {s0 t : State} (d) (h : Keeps s0 t) :
    Keeps s0 (holdDomain d t) := by
  unfold holdDomain
  repeat' (first
    | with_reducible assumption | with_reducible apply Keeps.ite
    | ((fail_if_success (fail_if_success with_reducible intro y)); first | with_reducible refine Keeps.letGoal (s := s0) ?_ (fun _ _ => ?_) | with_reducible intro y)
    | simp only [Keeps.put_iff] | lift_lets | split)

theorem carryMark_keeps {s0 t : State} (h : Keeps s0 t) :
    Keeps s0 (carryMark t) := by
  unfold carryMark
  repeat' (first
    | with_reducible assumption | with_reducible apply Keeps.ite | with_reducible apply carryOut_keeps
    | ((fail_if_success (fail_if_success with_reducible intro y)); first | with_reducible refine Keeps.letGoal (s := s0) ?_ (fun _ _ => ?_) | with_reducible intro y)
    | simp only [Keeps.put_iff] | lift_lets | split)

theorem execJournalEnable_keeps {s0 t : State} (v) (h : Keeps s0 t) :
    OKeeps s0 (execJournalEnable v t) := by
  unfold execJournalEnable
  repeat' (first
    | with_reducible assumption | with_reducible apply OKeeps.next | with_reducible exact OKeeps.refused _
    | with_reducible apply OKeeps.ite | with_reducible apply Keeps.ite | with_reducible apply writeLdgCtrl_keeps
    | with_reducible apply viaPort_keeps | with_reducible apply sweep_keeps | with_reducible apply carryMark_keeps
    | ((fail_if_success (fail_if_success with_reducible intro y)); first | with_reducible refine Keeps.letGoal (s := s0) ?_ (fun _ _ => ?_) | with_reducible intro y)
    | simp only [Keeps.put_iff] | lift_lets | split)

theorem afterReset_keeps {s0 t : State} (d) (h : Keeps s0 t) :
    Keeps s0 (afterReset d t) := by
  unfold afterReset
  repeat' (first
    | with_reducible assumption | with_reducible apply Keeps.ite | with_reducible apply settleAccesses_keeps
    | with_reducible apply carryMark_keeps
    | ((fail_if_success (fail_if_success with_reducible intro y)); first | with_reducible refine Keeps.letGoal (s := s0) ?_ (fun _ _ => ?_) | with_reducible intro y)
    | simp only [Keeps.put_iff] | lift_lets | split)

theorem assertReset_keeps {s0 t : State} (d) (h : Keeps s0 t) :
    Keeps s0 (assertReset d t) := by
  unfold assertReset
  repeat' (first
    | with_reducible assumption | with_reducible apply Keeps.ite | with_reducible apply holdDomain_keeps
    | with_reducible apply afterReset_keeps | with_reducible apply enterReset_keeps
    | ((fail_if_success (fail_if_success with_reducible intro y)); first | with_reducible refine Keeps.letGoal (s := s0) ?_ (fun _ _ => ?_) | with_reducible intro y)
    | simp only [Keeps.put_iff] | lift_lets | split)

theorem wakeDomain_keeps {s0 t : State} (d) (h : Keeps s0 t) :
    Keeps s0 (wakeDomain d t) := by
  unfold wakeDomain
  repeat' (first
    | with_reducible assumption | with_reducible apply Keeps.ite | with_reducible apply sweep_keeps
    | with_reducible apply checkHeld_keeps | with_reducible apply leaveReset_keeps
    | ((fail_if_success (fail_if_success with_reducible intro y)); first | with_reducible refine Keeps.letGoal (s := s0) ?_ (fun _ _ => ?_) | with_reducible intro y)
    | simp only [Keeps.put_iff] | lift_lets | split)

theorem freeDomain_keeps {s0 t : State} (d) (h : Keeps s0 t) :
    Keeps s0 (freeDomain d t) := by
  unfold freeDomain
  repeat' (first
    | with_reducible assumption | with_reducible apply Keeps.ite | with_reducible apply wakeDomain_keeps
    | ((fail_if_success (fail_if_success with_reducible intro y)); first | with_reducible refine Keeps.letGoal (s := s0) ?_ (fun _ _ => ?_) | with_reducible intro y)
    | simp only [Keeps.put_iff] | lift_lets | split)

theorem assertPin_keeps {s0 t : State} (d) (h : Keeps s0 t) :
    Keeps s0 (assertPin d t) := by
  unfold assertPin
  repeat' (first
    | with_reducible assumption | with_reducible apply Keeps.ite | with_reducible apply assertReset_keeps
    | ((fail_if_success (fail_if_success with_reducible intro y)); first | with_reducible refine Keeps.letGoal (s := s0) ?_ (fun _ _ => ?_) | with_reducible intro y)
    | simp only [Keeps.put_iff] | lift_lets | split)

theorem notePin_keeps {s0 t : State} (d) (h : Keeps s0 t) :
    Keeps s0 (notePin d t) := by
  unfold notePin
  repeat' (first
    | with_reducible assumption | with_reducible apply Keeps.ite
    | ((fail_if_success (fail_if_success with_reducible intro y)); first | with_reducible refine Keeps.letGoal (s := s0) ?_ (fun _ _ => ?_) | with_reducible intro y)
    | simp only [Keeps.put_iff] | lift_lets | split)

theorem execDomainReset_keeps {s0 t : State} (domain) (h : Keeps s0 t) :
    OKeeps s0 (execDomainReset domain t) := by
  unfold execDomainReset
  repeat' (first
    | with_reducible assumption | with_reducible apply Keeps.ite | with_reducible apply OKeeps.next
    | with_reducible exact OKeeps.refused _ | with_reducible apply OKeeps.ite | with_reducible apply assertPin_keeps
    | with_reducible apply notePin_keeps
    | ((fail_if_success (fail_if_success with_reducible intro y)); first | with_reducible refine Keeps.letGoal (s := s0) ?_ (fun _ _ => ?_) | with_reducible intro y)
    | simp only [Keeps.put_iff] | lift_lets | split)

theorem execInterfaceResetRelease_keeps {s0 t : State} (domain) (h : Keeps s0 t) :
    OKeeps s0 (execInterfaceResetRelease domain t) := by
  unfold execInterfaceResetRelease
  repeat' (first
    | with_reducible assumption | with_reducible apply OKeeps.next | with_reducible exact OKeeps.refused _
    | with_reducible apply OKeeps.ite | with_reducible apply Keeps.ite | with_reducible apply freeDomain_keeps
    | ((fail_if_success (fail_if_success with_reducible intro y)); first | with_reducible refine Keeps.letGoal (s := s0) ?_ (fun _ _ => ?_) | with_reducible intro y)
    | simp only [Keeps.put_iff] | lift_lets | split)

theorem regReset1_keeps {s0 t : State} (d) (h : Keeps s0 t) :
    Keeps s0 (regReset1 d t) := by
  unfold regReset1
  repeat' (first
    | with_reducible assumption | with_reducible apply Keeps.ite | with_reducible apply assertReset_keeps
    | ((fail_if_success (fail_if_success with_reducible intro y)); first | with_reducible refine Keeps.letGoal (s := s0) ?_ (fun _ _ => ?_) | with_reducible intro y)
    | simp only [Keeps.put_iff] | lift_lets | split)

theorem execPwrRst_keeps {s0 t : State} (value) (h : Keeps s0 t) :
    OKeeps s0 (execPwrRst value t) := by
  unfold execPwrRst
  repeat' (first
    | with_reducible assumption | with_reducible apply OKeeps.next | with_reducible exact OKeeps.refused _
    | with_reducible apply OKeeps.ite | with_reducible apply Keeps.ite | with_reducible apply viaPort_keeps
    | with_reducible apply regReset1_keeps | with_reducible refine Keeps.foldl _ ?_ (fun _ _ _ => ?_)
    | ((fail_if_success (fail_if_success with_reducible intro y)); first | with_reducible refine Keeps.letGoal (s := s0) ?_ (fun _ _ => ?_) | with_reducible intro y)
    | simp only [Keeps.put_iff] | lift_lets | split)

theorem execResetRelease_keeps {s0 t : State} (domain) (h : Keeps s0 t) :
    OKeeps s0 (execResetRelease domain t) := by
  unfold execResetRelease
  repeat' (first
    | with_reducible assumption | with_reducible apply OKeeps.next | with_reducible exact OKeeps.refused _
    | with_reducible apply OKeeps.ite | with_reducible apply Keeps.ite | with_reducible apply freeDomain_keeps
    | ((fail_if_success (fail_if_success with_reducible intro y)); first | with_reducible refine Keeps.letGoal (s := s0) ?_ (fun _ _ => ?_) | with_reducible intro y)
    | simp only [Keeps.put_iff] | lift_lets | split)

theorem loseClock_keeps {s0 t : State} (d) (h : Keeps s0 t) :
    Keeps s0 (loseClock d t) := by
  unfold loseClock
  repeat' (first
    | with_reducible assumption | with_reducible apply Keeps.ite | with_reducible apply bump_keeps
    | with_reducible apply setRegBit_keeps | with_reducible apply clearRegBit_keeps
    | with_reducible apply audFault_keeps | with_reducible apply afterReset_keeps
    | with_reducible apply enterReset_keeps
    | ((fail_if_success (fail_if_success with_reducible intro y)); first | with_reducible refine Keeps.letGoal (s := s0) ?_ (fun _ _ => ?_) | with_reducible intro y)
    | simp only [Keeps.put_iff] | lift_lets | split)

theorem execClockLost_keeps {s0 t : State} (domain) (h : Keeps s0 t) :
    OKeeps s0 (execClockLost domain t) := by
  unfold execClockLost
  repeat' (first
    | with_reducible assumption | with_reducible apply OKeeps.next | with_reducible exact OKeeps.refused _
    | with_reducible apply OKeeps.ite | with_reducible apply Keeps.ite | with_reducible apply loseClock_keeps
    | ((fail_if_success (fail_if_success with_reducible intro y)); first | with_reducible refine Keeps.letGoal (s := s0) ?_ (fun _ _ => ?_) | with_reducible intro y)
    | simp only [Keeps.put_iff] | lift_lets | split)

theorem findClock_keeps {s0 t : State} (d) (h : Keeps s0 t) :
    Keeps s0 (findClock d t) := by
  unfold findClock
  repeat' (first
    | with_reducible assumption | with_reducible apply Keeps.ite | with_reducible apply setRegBit_keeps
    | with_reducible apply wakeDomain_keeps
    | ((fail_if_success (fail_if_success with_reducible intro y)); first | with_reducible refine Keeps.letGoal (s := s0) ?_ (fun _ _ => ?_) | with_reducible intro y)
    | simp only [Keeps.put_iff] | lift_lets | split)

theorem execClockRestored_keeps {s0 t : State} (domain) (h : Keeps s0 t) :
    OKeeps s0 (execClockRestored domain t) := by
  unfold execClockRestored
  repeat' (first
    | with_reducible assumption | with_reducible apply OKeeps.next | with_reducible exact OKeeps.refused _
    | with_reducible apply OKeeps.ite | with_reducible apply Keeps.ite | with_reducible apply findClock_keeps
    | ((fail_if_success (fail_if_success with_reducible intro y)); first | with_reducible refine Keeps.letGoal (s := s0) ?_ (fun _ _ => ?_) | with_reducible intro y)
    | simp only [Keeps.put_iff] | lift_lets | split)

theorem blockDown_keeps {s0 t : State} (h : Keeps s0 t) :
    Keeps s0 (blockDown t) :=
  ⟨h.build, h.pending, fun _ => ⟨rfl, rfl, rfl⟩⟩

theorem execBlockReset_keeps {s0 t : State} (h : Keeps s0 t) :
    OKeeps s0 (execBlockReset t) := by
  unfold execBlockReset
  repeat' (first
    | with_reducible assumption | with_reducible apply OKeeps.next | with_reducible exact OKeeps.refused _
    | with_reducible apply OKeeps.ite | with_reducible apply Keeps.ite | with_reducible apply blockDown_keeps
    | ((fail_if_success (fail_if_success with_reducible intro y)); first | with_reducible refine Keeps.letGoal (s := s0) ?_ (fun _ _ => ?_) | with_reducible intro y)
    | simp only [Keeps.put_iff] | lift_lets | split)

theorem execPdBaseLeavesReset_keeps {s0 t : State} (instId) (h : Keeps s0 t) :
    OKeeps s0 (execPdBaseLeavesReset instId t) := by
  unfold execPdBaseLeavesReset
  repeat' (first
    | with_reducible assumption | with_reducible apply OKeeps.next | with_reducible exact OKeeps.refused _
    | with_reducible apply OKeeps.ite | with_reducible apply Keeps.ite | with_reducible apply blockDown_keeps
    | ((fail_if_success (fail_if_success with_reducible intro y)); first | with_reducible refine Keeps.letGoal (s := s0) ?_ (fun _ _ => ?_) | with_reducible intro y)
    | simp only [Keeps.put_iff] | lift_lets | split)

theorem markMissing_keeps {s0 t : State} (cls i) (h : Keeps s0 t) :
    Keeps s0 (markMissing cls i t) := by
  unfold markMissing
  repeat' (first
    | with_reducible assumption | with_reducible apply Keeps.ite | with_reducible apply audFault_keeps
    | with_reducible apply retireLive_keeps
    | ((fail_if_success (fail_if_success with_reducible intro y)); first | with_reducible refine Keeps.letGoal (s := s0) ?_ (fun _ _ => ?_) | with_reducible intro y)
    | simp only [Keeps.put_iff] | lift_lets | split)

theorem applyMap_keeps {s0 t : State} (d) (h : Keeps s0 t) :
    Keeps s0 (applyMap d t) := by
  unfold applyMap
  repeat' (first
    | with_reducible assumption | with_reducible apply Keeps.ite | with_reducible apply applyRepair_keeps
    | (refine Keeps.fstOf ?_ ‹applyRepair _ _ = (_, _)›; with_reducible apply applyRepair_keeps)
    | with_reducible refine Keeps.foldl _ ?_ (fun _ _ _ => ?_)
    | ((fail_if_success (fail_if_success with_reducible intro y)); first | with_reducible refine Keeps.letGoal (s := s0) ?_ (fun _ _ => ?_) | with_reducible intro y)
    | simp only [Keeps.put_iff] | lift_lets | split)

theorem stayMissing_keeps {s0 t : State} (cls i) (h : Keeps s0 t) :
    Keeps s0 (stayMissing cls i t) := by
  unfold stayMissing
  repeat' (first
    | with_reducible assumption | with_reducible apply Keeps.ite | with_reducible apply audFault_keeps
    | with_reducible apply retireLive_keeps | with_reducible apply markMissing_keeps
    | ((fail_if_success (fail_if_success with_reducible intro y)); first | with_reducible refine Keeps.letGoal (s := s0) ?_ (fun _ _ => ?_) | with_reducible intro y)
    | simp only [Keeps.put_iff] | lift_lets | split)

theorem missDomain_keeps {s0 t : State} (d) (h : Keeps s0 t) :
    Keeps s0 (missDomain d t) := by
  unfold missDomain
  repeat' (first
    | with_reducible assumption | with_reducible apply Keeps.ite | with_reducible apply markMissing_keeps
    | with_reducible refine Keeps.foldl _ ?_ (fun _ _ _ => ?_) | with_reducible apply applyMap_keeps
    | with_reducible apply stayMissing_keeps
    | ((fail_if_success (fail_if_success with_reducible intro y)); first | with_reducible refine Keeps.letGoal (s := s0) ?_ (fun _ _ => ?_) | with_reducible intro y)
    | simp only [Keeps.put_iff] | lift_lets | split)

theorem pdError_keeps {s0 t : State} (d kind) (h : Keeps s0 t) :
    Keeps s0 (pdError d kind t) := by
  unfold pdError
  repeat' (first
    | with_reducible assumption | with_reducible apply Keeps.ite | with_reducible apply setReg_keeps
    | ((fail_if_success (fail_if_success with_reducible intro y)); first | with_reducible refine Keeps.letGoal (s := s0) ?_ (fun _ _ => ?_) | with_reducible intro y)
    | simp only [Keeps.put_iff] | lift_lets | split)

theorem retireWith_keeps {s0 t : State} (cls is) (h : Keeps s0 t) :
    Keeps s0 (retireWith cls is t) := by
  unfold retireWith
  repeat' (first
    | with_reducible assumption | with_reducible apply Keeps.ite | with_reducible apply retireUnit_keeps
    | (refine Keeps.fstOf ?_ ‹retireUnit _ _ _ = (_, _)›; with_reducible apply retireUnit_keeps)
    | with_reducible refine Keeps.foldl _ ?_ (fun _ _ _ => ?_) | with_reducible apply retireLive_keeps
    | ((fail_if_success (fail_if_success with_reducible intro y)); first | with_reducible refine Keeps.letGoal (s := s0) ?_ (fun _ _ => ?_) | with_reducible intro y)
    | simp only [Keeps.put_iff] | lift_lets | split)

theorem bankGone_keeps {s0 t : State} (p) (h : Keeps s0 t) :
    Keeps s0 (bankGone p t) := by
  unfold bankGone
  repeat' (first
    | with_reducible assumption | with_reducible apply Keeps.ite
    | ((fail_if_success (fail_if_success with_reducible intro y)); first | with_reducible refine Keeps.letGoal (s := s0) ?_ (fun _ _ => ?_) | with_reducible intro y)
    | simp only [Keeps.put_iff] | lift_lets | split)

theorem loseMemory_keeps {s0 t : State} (c) (h : Keeps s0 t) :
    Keeps s0 (loseMemory c t) := by
  have k : ∀ (v : Nat → Word) (xs : List Nat) (p : Tab Word), Tab.wf (fun _ => (0 : Word)) p = true →
      Tab.wf (fun _ => (0 : Word)) (xs.foldl (fun t i => Tab.set 0 t (8192 * c + i) (v i)) p) = true := by
    intro v xs
    induction xs with
    | nil => exact fun _ hp => hp
    | cons x xs ih => exact fun p hp => ih _ (Tab.wf_set 0 p _ _ hp)
  unfold loseMemory
  extract_lets v
  refine ⟨h.build, h.pending, fun i => ⟨?_, ?_, (h.inv i).2.2⟩⟩
  · dsimp only
    exact placeBytes_wf _ _ _ (h.inv i).1
  · dsimp only
    exact k _ _ _ (h.inv i).2.1

theorem loseClerk_keeps {s0 t : State} (c) (h : Keeps s0 t) :
    Keeps s0 (loseClerk c t) := by
  unfold loseClerk
  repeat' (first
    | with_reducible assumption | with_reducible apply Keeps.ite | with_reducible apply stopClerk_keeps
    | with_reducible apply loseMemory_keeps
    | ((fail_if_success (fail_if_success with_reducible intro y)); first | with_reducible refine Keeps.letGoal (s := s0) ?_ (fun _ _ => ?_) | with_reducible intro y)
    | simp only [Keeps.put_iff] | lift_lets | split)

theorem loseLedger_keeps {s0 t : State} (h : Keeps s0 t) :
    Keeps s0 (loseLedger t) := by
  unfold loseLedger
  repeat' (first
    | with_reducible assumption | with_reducible apply Keeps.ite | with_reducible apply resetEgress_keeps
    | with_reducible apply carryMark_keeps
    | ((fail_if_success (fail_if_success with_reducible intro y)); first | with_reducible refine Keeps.letGoal (s := s0) ?_ (fun _ _ => ?_) | with_reducible intro y)
    | simp only [Keeps.put_iff] | lift_lets | split)

theorem moveLines_keeps {s0 t : State} (p) (h : Keeps s0 t) :
    Keeps s0 (moveLines p t) := by
  unfold moveLines
  repeat' (first
    | with_reducible assumption | with_reducible apply Keeps.ite | with_reducible apply sendAll_keeps
    | with_reducible apply onLine_keeps
    | ((fail_if_success (fail_if_success with_reducible intro y)); first | with_reducible refine Keeps.letGoal (s := s0) ?_ (fun _ _ => ?_) | with_reducible intro y)
    | simp only [Keeps.put_iff] | lift_lets | split)

theorem domainLost_keeps {s0 t : State} (d) (h : Keeps s0 t) :
    Keeps s0 (domainLost d t) := by
  unfold domainLost
  repeat' (first
    | with_reducible assumption | with_reducible apply Keeps.ite | with_reducible apply loseClerk_keeps
    | with_reducible apply resetIngress_keeps | with_reducible apply resetMatch_keeps
    | with_reducible apply retireWith_keeps | with_reducible apply replayStreams_keeps
    | with_reducible apply bankGone_keeps | with_reducible apply resetClear_keeps
    | with_reducible apply loseLedger_keeps | with_reducible apply moveLines_keeps
    | with_reducible apply resetLogit_keeps | with_reducible apply resetDebug_keeps
    | with_reducible refine Keeps.foldl _ ?_ (fun _ _ _ => ?_)
    | ((fail_if_success (fail_if_success with_reducible intro y)); first | with_reducible refine Keeps.letGoal (s := s0) ?_ (fun _ _ => ?_) | with_reducible intro y)
    | simp only [Keeps.put_iff] | lift_lets | split)

theorem domainFails_keeps {s0 t : State} (d) (h : Keeps s0 t) :
    Keeps s0 (domainFails d t) := by
  unfold domainFails
  repeat' (first
    | with_reducible assumption | with_reducible apply Keeps.ite | with_reducible apply setPd_keeps
    | with_reducible apply sweep_keeps | with_reducible apply domainLost_keeps
    | with_reducible apply missDomain_keeps
    | ((fail_if_success (fail_if_success with_reducible intro y)); first | with_reducible refine Keeps.letGoal (s := s0) ?_ (fun _ _ => ?_) | with_reducible intro y)
    | simp only [Keeps.put_iff] | lift_lets | split)

theorem timeOut_keeps {s0 t : State} (d) (h : Keeps s0 t) :
    Keeps s0 (timeOut d t) := by
  unfold timeOut
  repeat' (first
    | with_reducible assumption | with_reducible apply Keeps.ite | with_reducible apply startPds_keeps
    | with_reducible apply setPd_keeps | with_reducible apply pdError_keeps | with_reducible apply setRegBit_keeps
    | with_reducible apply sweep_keeps | with_reducible apply retireWith_keeps | with_reducible apply missDomain_keeps
    | ((fail_if_success (fail_if_success with_reducible intro y)); first | with_reducible refine Keeps.letGoal (s := s0) ?_ (fun _ _ => ?_) | with_reducible intro y)
    | simp only [Keeps.put_iff] | lift_lets | split)

theorem execPgTimeout_keeps {s0 t : State} (pd) (h : Keeps s0 t) :
    OKeeps s0 (execPgTimeout pd t) := by
  unfold execPgTimeout
  repeat' (first
    | with_reducible assumption | with_reducible apply OKeeps.next | with_reducible exact OKeeps.refused _
    | with_reducible apply OKeeps.ite | with_reducible apply Keeps.ite | with_reducible apply timeOut_keeps
    | ((fail_if_success (fail_if_success with_reducible intro y)); first | with_reducible refine Keeps.letGoal (s := s0) ?_ (fun _ _ => ?_) | with_reducible intro y)
    | simp only [Keeps.put_iff] | lift_lets | split)

theorem execPgFault_keeps {s0 t : State} (pd) (h : Keeps s0 t) :
    OKeeps s0 (execPgFault pd t) := by
  unfold execPgFault
  repeat' (first
    | with_reducible assumption | with_reducible apply OKeeps.next | with_reducible exact OKeeps.refused _
    | with_reducible apply OKeeps.ite | with_reducible apply Keeps.ite | with_reducible apply blockDown_keeps
    | with_reducible apply timeOut_keeps | with_reducible apply domainFails_keeps
    | with_reducible apply audFault_keeps | with_reducible apply bump_keeps | with_reducible apply setRegBit_keeps
    | with_reducible apply pdError_keeps
    | ((fail_if_success (fail_if_success with_reducible intro y)); first | with_reducible refine Keeps.letGoal (s := s0) ?_ (fun _ _ => ?_) | with_reducible intro y)
    | simp only [Keeps.put_iff] | lift_lets | split)

theorem execPowerGood_keeps {s0 t : State} (pd) (h : Keeps s0 t) :
    OKeeps s0 (execPowerGood pd t) := by
  unfold execPowerGood
  repeat' (first
    | with_reducible assumption | with_reducible apply OKeeps.next | with_reducible exact OKeeps.refused _
    | with_reducible apply OKeeps.ite | with_reducible apply Keeps.ite | with_reducible apply startPds_keeps
    | with_reducible apply setPd_keeps
    | ((fail_if_success (fail_if_success with_reducible intro y)); first | with_reducible refine Keeps.letGoal (s := s0) ?_ (fun _ _ => ?_) | with_reducible intro y)
    | simp only [Keeps.put_iff] | lift_lets | split)

theorem dropSwap_keeps {s0 t : State} (cls i) (h : Keeps s0 t) :
    Keeps s0 (dropSwap cls i t) := by
  unfold dropSwap
  repeat' (first
    | with_reducible assumption | with_reducible apply Keeps.ite | with_reducible apply takeOut_keeps
    | with_reducible apply endActivity_keeps | with_reducible refine Keeps.foldl _ ?_ (fun _ _ _ => ?_)
    | ((fail_if_success (fail_if_success with_reducible intro y)); first | with_reducible refine Keeps.letGoal (s := s0) ?_ (fun _ _ => ?_) | with_reducible intro y)
    | simp only [Keeps.put_iff] | lift_lets | split)

theorem unitBack_keeps {s0 t : State} (cls i) (h : Keeps s0 t) :
    Keeps s0 (unitBack cls i t) := by
  unfold unitBack
  repeat' (first
    | with_reducible assumption | with_reducible apply Keeps.ite | with_reducible apply restoreUnit_keeps
    | with_reducible apply dropSwap_keeps
    | ((fail_if_success (fail_if_success with_reducible intro y)); first | with_reducible refine Keeps.letGoal (s := s0) ?_ (fun _ _ => ?_) | with_reducible intro y)
    | simp only [Keeps.put_iff] | lift_lets | split)

theorem rollCallAgain_keeps {s0 t : State} (d) (h : Keeps s0 t) :
    Keeps s0 (rollCallAgain d t) := by
  unfold rollCallAgain
  repeat' (first
    | with_reducible assumption | with_reducible apply Keeps.ite | with_reducible apply stayMissing_keeps
    | with_reducible apply unitBack_keeps | with_reducible refine Keeps.foldl _ ?_ (fun _ _ _ => ?_)
    | ((fail_if_success (fail_if_success with_reducible intro y)); first | with_reducible refine Keeps.letGoal (s := s0) ?_ (fun _ _ => ?_) | with_reducible intro y)
    | simp only [Keeps.put_iff] | lift_lets | split)

theorem cutThread_keeps {s0 t : State} (w) (h : Keeps s0 t) :
    Keeps s0 (cutThread t w) := by
  unfold cutThread
  repeat' (first
    | with_reducible assumption | with_reducible apply Keeps.ite | with_reducible apply onThread_keeps
    | ((fail_if_success (fail_if_success with_reducible intro y)); first | with_reducible refine Keeps.letGoal (s := s0) ?_ (fun _ _ => ?_) | with_reducible intro y)
    | simp only [Keeps.put_iff] | lift_lets | split)

theorem ledgerBack_keeps {s0 t : State} (h : Keeps s0 t) :
    Keeps s0 (ledgerBack t) := by
  unfold ledgerBack
  repeat' (first
    | with_reducible assumption | with_reducible apply Keeps.ite | with_reducible apply cutThread_keeps
    | with_reducible apply discardTiles_keeps | with_reducible apply carryMark_keeps
    | with_reducible apply dropAccesses_keeps | with_reducible apply openStored_keeps
    | with_reducible refine Keeps.foldl _ ?_ (fun _ _ _ => ?_)
    | ((fail_if_success (fail_if_success with_reducible intro y)); first | with_reducible refine Keeps.letGoal (s := s0) ?_ (fun _ _ => ?_) | with_reducible intro y)
    | simp only [Keeps.put_iff] | lift_lets | split)

theorem domainBack_keeps {s0 t : State} (d) (h : Keeps s0 t) :
    Keeps s0 (domainBack d t) := by
  unfold domainBack
  repeat' (first
    | with_reducible assumption | with_reducible apply Keeps.ite | with_reducible apply replayStreams_keeps
    | with_reducible apply ledgerBack_keeps
    | ((fail_if_success (fail_if_success with_reducible intro y)); first | with_reducible refine Keeps.letGoal (s := s0) ?_ (fun _ _ => ?_) | with_reducible intro y)
    | simp only [Keeps.put_iff] | lift_lets | split)

theorem fillSpare_keeps {s0 t : State} (h : Keeps s0 t) :
    Keeps s0 (fillSpare t) := by
  unfold fillSpare
  repeat' (first
    | with_reducible assumption | with_reducible apply Keeps.ite | with_reducible apply fillFor_keeps
    | ((fail_if_success (fail_if_success with_reducible intro y)); first | with_reducible refine Keeps.letGoal (s := s0) ?_ (fun _ _ => ?_) | with_reducible intro y)
    | simp only [Keeps.put_iff] | lift_lets | split)

theorem readMaps_keeps {s0 t : State} (h : Keeps s0 t) :
    Keeps s0 (readMaps t) := by
  unfold readMaps
  repeat' (first
    | with_reducible assumption | with_reducible apply Keeps.ite | with_reducible apply readCopy_keeps
    | ((fail_if_success (fail_if_success with_reducible intro y)); first | with_reducible refine Keeps.letGoal (s := s0) ?_ (fun _ _ => ?_) | with_reducible intro y)
    | simp only [Keeps.put_iff] | lift_lets | split)

theorem domainReleased_keeps {s0 t : State} (d) (h : Keeps s0 t) :
    Keeps s0 (domainReleased d t) := by
  unfold domainReleased
  repeat' (first
    | with_reducible assumption | with_reducible apply Keeps.ite | with_reducible apply applyMap_keeps
    | with_reducible apply rollCallAgain_keeps | with_reducible apply fillSpare_keeps
    | with_reducible apply sweep_keeps | with_reducible apply raise_keeps | with_reducible apply openStored_keeps
    | with_reducible apply domainBack_keeps | with_reducible apply readMaps_keeps
    | ((fail_if_success (fail_if_success with_reducible intro y)); first | with_reducible refine Keeps.letGoal (s := s0) ?_ (fun _ _ => ?_) | with_reducible intro y)
    | simp only [Keeps.put_iff] | lift_lets | split)

theorem execPdRelease_keeps {s0 t : State} (pd) (h : Keeps s0 t) :
    OKeeps s0 (execPdRelease pd t) := by
  unfold execPdRelease
  repeat' (first
    | with_reducible assumption | with_reducible apply OKeeps.next | with_reducible exact OKeeps.refused _
    | with_reducible apply OKeeps.ite | with_reducible apply Keeps.ite | with_reducible apply domainReleased_keeps
    | with_reducible apply setPd_keeps
    | ((fail_if_success (fail_if_success with_reducible intro y)); first | with_reducible refine Keeps.letGoal (s := s0) ?_ (fun _ _ => ?_) | with_reducible intro y)
    | simp only [Keeps.put_iff] | lift_lets | split)

theorem execPdRetry_keeps {s0 t : State} (value) (h : Keeps s0 t) :
    OKeeps s0 (execPdRetry value t) := by
  unfold execPdRetry
  repeat' (first
    | with_reducible assumption | with_reducible apply OKeeps.next | with_reducible exact OKeeps.refused _
    | with_reducible apply OKeeps.ite | with_reducible apply Keeps.ite | with_reducible apply viaPort_keeps
    | with_reducible apply askPd_keeps
    | ((fail_if_success (fail_if_success with_reducible intro y)); first | with_reducible refine Keeps.letGoal (s := s0) ?_ (fun _ _ => ?_) | with_reducible intro y)
    | simp only [Keeps.put_iff] | lift_lets | split)

theorem switchDomain_keeps {s0 t : State} (d) (h : Keeps s0 t) :
    Keeps s0 (switchDomain d t) := by
  unfold switchDomain
  repeat' (first
    | with_reducible assumption | with_reducible apply Keeps.ite | with_reducible apply startPds_keeps
    | with_reducible apply setPd_keeps | with_reducible apply resetDebug_keeps | with_reducible apply askPd_keeps
    | ((fail_if_success (fail_if_success with_reducible intro y)); first | with_reducible refine Keeps.letGoal (s := s0) ?_ (fun _ _ => ?_) | with_reducible intro y)
    | simp only [Keeps.put_iff] | lift_lets | split)

theorem writePdCtrl_keeps {s0 t : State} (v) (h : Keeps s0 t) :
    Keeps s0 (writePdCtrl v t) := by
  unfold writePdCtrl
  repeat' (first
    | with_reducible assumption | with_reducible apply Keeps.ite | with_reducible apply setRegBit_keeps
    | with_reducible apply switchDomain_keeps | with_reducible apply setReg_keeps
    | ((fail_if_success (fail_if_success with_reducible intro y)); first | with_reducible refine Keeps.letGoal (s := s0) ?_ (fun _ _ => ?_) | with_reducible intro y)
    | simp only [Keeps.put_iff] | lift_lets | split)

theorem execPdSwitch_keeps {s0 t : State} (value) (h : Keeps s0 t) :
    OKeeps s0 (execPdSwitch value t) := by
  unfold execPdSwitch
  repeat' (first
    | with_reducible assumption | with_reducible apply OKeeps.next | with_reducible exact OKeeps.refused _
    | with_reducible apply OKeeps.ite | with_reducible apply Keeps.ite | with_reducible apply viaPort_keeps
    | with_reducible apply sweep_keeps | with_reducible apply writePdCtrl_keeps
    | ((fail_if_success (fail_if_success with_reducible intro y)); first | with_reducible refine Keeps.letGoal (s := s0) ?_ (fun _ _ => ?_) | with_reducible intro y)
    | simp only [Keeps.put_iff] | lift_lets | split)

theorem execMemoryLinkError_keeps {s0 t : State} (port) (h : Keeps s0 t) :
    OKeeps s0 (execMemoryLinkError port t) := by
  unfold execMemoryLinkError
  repeat' (first
    | with_reducible assumption | with_reducible apply OKeeps.next | with_reducible exact OKeeps.refused _
    | with_reducible apply OKeeps.ite | with_reducible apply Keeps.ite | with_reducible apply moveLines_keeps
    | with_reducible apply audFault_keeps
    | ((fail_if_success (fail_if_success with_reducible intro y)); first | with_reducible refine Keeps.letGoal (s := s0) ?_ (fun _ _ => ?_) | with_reducible intro y)
    | simp only [Keeps.put_iff] | lift_lets | split)

theorem writeWdog_keeps {s0 t : State} (v) (h : Keeps s0 t) :
    Keeps s0 (writeWdog v t) := by
  unfold writeWdog
  repeat' (first
    | with_reducible assumption | with_reducible apply Keeps.ite | with_reducible apply setReg_keeps
    | ((fail_if_success (fail_if_success with_reducible intro y)); first | with_reducible refine Keeps.letGoal (s := s0) ?_ (fun _ _ => ?_) | with_reducible intro y)
    | simp only [Keeps.put_iff] | lift_lets | split)

theorem execWdogExpire_keeps {s0 t : State} (h : Keeps s0 t) :
    OKeeps s0 (execWdogExpire t) := by
  unfold execWdogExpire
  repeat' (first
    | with_reducible assumption | with_reducible apply OKeeps.next | with_reducible exact OKeeps.refused _
    | with_reducible apply OKeeps.ite | with_reducible apply Keeps.ite | with_reducible apply setRegBit_keeps
    | with_reducible apply sweep_keeps | with_reducible apply haltClerk_keeps
    | with_reducible refine Keeps.foldl _ ?_ (fun _ _ _ => ?_)
    | ((fail_if_success (fail_if_success with_reducible intro y)); first | with_reducible refine Keeps.letGoal (s := s0) ?_ (fun _ _ => ?_) | with_reducible intro y)
    | simp only [Keeps.put_iff] | lift_lets | split)

theorem execWdogKick_keeps {s0 t : State} (value) (h : Keeps s0 t) :
    OKeeps s0 (execWdogKick value t) := by
  unfold execWdogKick
  repeat' (first
    | with_reducible assumption | with_reducible apply OKeeps.next | with_reducible exact OKeeps.refused _
    | with_reducible apply OKeeps.ite | with_reducible apply Keeps.ite | with_reducible apply viaPort_keeps
    | ((fail_if_success (fail_if_success with_reducible intro y)); first | with_reducible refine Keeps.letGoal (s := s0) ?_ (fun _ _ => ?_) | with_reducible intro y)
    | simp only [Keeps.put_iff] | lift_lets | split)

theorem finishEffect_keeps {s0 t : State} (fuel) (h : Keeps s0 t) :
    Keeps s0 (finishEffect fuel t) := by
  induction fuel generalizing t with
  | zero => exact h
  | succ f ih =>
    unfold finishEffect
    split
    · exact h
    · exact ih (endAccess_keeps _ h)

theorem endForTest_keeps {s0 t : State} (h : Keeps s0 t) :
    Keeps s0 (endForTest t) := by
  unfold endForTest
  repeat' (first
    | with_reducible assumption | with_reducible apply Keeps.ite | with_reducible apply endKeyed_keeps
    | with_reducible apply journal_keeps | with_reducible apply endLoading_keeps
    | with_reducible apply finishEffect_keeps
    | ((fail_if_success (fail_if_success with_reducible intro y)); first | with_reducible refine Keeps.letGoal (s := s0) ?_ (fun _ _ => ?_) | with_reducible intro y)
    | simp only [Keeps.put_iff] | lift_lets | split)

theorem execTestMode_keeps {s0 t : State} (h : Keeps s0 t) :
    OKeeps s0 (execTestMode t) := by
  unfold execTestMode
  repeat' (first
    | with_reducible assumption | with_reducible apply OKeeps.next | with_reducible exact OKeeps.refused _
    | with_reducible apply OKeeps.ite | with_reducible apply Keeps.ite | with_reducible apply endForTest_keeps
    | with_reducible apply assertReset_keeps | with_reducible refine Keeps.foldl _ ?_ (fun _ _ _ => ?_)
    | ((fail_if_success (fail_if_success with_reducible intro y)); first | with_reducible refine Keeps.letGoal (s := s0) ?_ (fun _ _ => ?_) | with_reducible intro y)
    | simp only [Keeps.put_iff] | lift_lets | split)

end Sys2Proof.Machine
end

