-- ==== Sys2Proof/Laws/Keep/Boot.lean ====
section
/-!
SUPPORT. What the definitions of Machine/Boot.lean leave as it was.
-/

namespace Sys2Proof.Machine

set_option linter.unusedTactic false
set_option linter.unreachableTactic false
set_option linter.unusedSimpArgs false

theorem requestGroup_keeps {s0 t : State} (g) (h : Keeps s0 t) :
    Keeps s0 (requestGroup g t) := by
  unfold requestGroup
  repeat' (first
    | with_reducible assumption | with_reducible apply Keeps.ite | with_reducible apply askPd_keeps
    | with_reducible refine Keeps.foldl _ ?_ (fun _ _ _ => ?_)
    | ((fail_if_success (fail_if_success with_reducible intro y)); first | with_reducible refine Keeps.letGoal (s := s0) ?_ (fun _ _ => ?_) | with_reducible intro y)
    | simp only [Keeps.put_iff] | lift_lets | split)

theorem startBoot_keeps {s0 t : State} (h : Keeps s0 t) :
    Keeps s0 (startBoot t) := by
  unfold startBoot
  repeat' (first
    | with_reducible assumption | with_reducible apply Keeps.ite | with_reducible apply requestGroup_keeps
    | ((fail_if_success (fail_if_success with_reducible intro y)); first | with_reducible refine Keeps.letGoal (s := s0) ?_ (fun _ _ => ?_) | with_reducible intro y)
    | simp only [Keeps.put_iff] | lift_lets | split)

theorem execBootGo_keeps {s0 t : State} (h : Keeps s0 t) :
    OKeeps s0 (execBootGo t) := by
  unfold execBootGo
  repeat' (first
    | with_reducible assumption | with_reducible apply OKeeps.next | with_reducible exact OKeeps.refused _
    | with_reducible apply OKeeps.ite | with_reducible apply Keeps.ite | with_reducible apply viaPort_keeps
    | with_reducible apply startBoot_keeps
    | ((fail_if_success (fail_if_success with_reducible intro y)); first | with_reducible refine Keeps.letGoal (s := s0) ?_ (fun _ _ => ?_) | with_reducible intro y)
    | simp only [Keeps.put_iff] | lift_lets | split)

theorem execPowerGroupStart_keeps {s0 t : State} (h : Keeps s0 t) :
    OKeeps s0 (execPowerGroupStart t) := by
  unfold execPowerGroupStart
  repeat' (first
    | with_reducible assumption | with_reducible apply OKeeps.next | with_reducible exact OKeeps.refused _
    | with_reducible apply OKeeps.ite | with_reducible apply Keeps.ite | with_reducible apply requestGroup_keeps
    | ((fail_if_success (fail_if_success with_reducible intro y)); first | with_reducible refine Keeps.letGoal (s := s0) ?_ (fun _ _ => ?_) | with_reducible intro y)
    | simp only [Keeps.put_iff] | lift_lets | split)

theorem applyMargins_keeps {s0 t : State} (h : Keeps s0 t) :
    Keeps s0 (applyMargins t) := by
  unfold applyMargins
  repeat' (first
    | with_reducible assumption | with_reducible apply Keeps.ite | with_reducible apply askRail_keeps
    | with_reducible refine Keeps.foldl _ ?_ (fun _ _ _ => ?_)
    | ((fail_if_success (fail_if_success with_reducible intro y)); first | with_reducible refine Keeps.letGoal (s := s0) ?_ (fun _ _ => ?_) | with_reducible intro y)
    | simp only [Keeps.put_iff] | lift_lets | split)

theorem endMap_keeps {s0 t : State} (h : Keeps s0 t) :
    Keeps s0 (endMap t) := by
  unfold endMap
  repeat' (first
    | with_reducible assumption | with_reducible apply Keeps.ite | with_reducible apply dropAccesses_keeps
    | with_reducible apply applyMargins_keeps | with_reducible apply chooseMap_keeps
    | with_reducible apply applyMap_keeps
    | ((fail_if_success (fail_if_success with_reducible intro y)); first | with_reducible refine Keeps.letGoal (s := s0) ?_ (fun _ _ => ?_) | with_reducible intro y)
    | simp only [Keeps.put_iff] | lift_lets | split)

theorem endPower_keeps {s0 t : State} (h : Keeps s0 t) :
    Keeps s0 (endPower t) := by
  unfold endPower
  repeat' (first
    | with_reducible assumption | with_reducible apply Keeps.ite | with_reducible apply setPd_keeps
    | with_reducible apply pdError_keeps | with_reducible refine Keeps.foldl _ ?_ (fun _ _ _ => ?_)
    | with_reducible apply missDomain_keeps
    | ((fail_if_success (fail_if_success with_reducible intro y)); first | with_reducible refine Keeps.letGoal (s := s0) ?_ (fun _ _ => ?_) | with_reducible intro y)
    | simp only [Keeps.put_iff] | lift_lets | split)

theorem endRoll_keeps {s0 t : State} (h : Keeps s0 t) :
    Keeps s0 (endRoll t) := by
  unfold endRoll
  repeat' (first
    | with_reducible assumption | with_reducible apply Keeps.ite | with_reducible apply missDomain_keeps
    | with_reducible refine Keeps.foldl _ ?_ (fun _ _ _ => ?_)
    | ((fail_if_success (fail_if_success with_reducible intro y)); first | with_reducible refine Keeps.letGoal (s := s0) ?_ (fun _ _ => ?_) | with_reducible intro y)
    | simp only [Keeps.put_iff] | lift_lets | split)

theorem endBaseline_keeps {s0 t : State} (slacks) (h : Keeps s0 t) :
    Keeps s0 (endBaseline slacks t) := by
  unfold endBaseline
  repeat' (first
    | with_reducible assumption | with_reducible apply Keeps.ite
    | with_reducible refine Keeps.foldl _ ?_ (fun _ _ _ => ?_)
    | ((fail_if_success (fail_if_success with_reducible intro y)); first | with_reducible refine Keeps.letGoal (s := s0) ?_ (fun _ _ => ?_) | with_reducible intro y)
    | simp only [Keeps.put_iff] | lift_lets | split)

theorem zeroed_keeps {s0 t : State} (c : ClearState) (b : BootState) (h : Keeps s0 t) :
    Keeps s0 { t with prog := [], scratch := [], clear := c, boot := b } :=
  ⟨h.build, h.pending, fun i => ⟨rfl, rfl, (h.inv i).2.2⟩⟩

theorem becomeReady_keeps {s0 t : State} (h : Keeps s0 t) :
    Keeps s0 (becomeReady t) := by
  unfold becomeReady
  repeat' (first
    | with_reducible assumption | with_reducible exact zeroed_keeps _ _ h | with_reducible apply Keeps.ite
    | with_reducible apply raise_keeps | with_reducible apply setReg_keeps | with_reducible apply writePacket_keeps
    | with_reducible apply startOrWait_keeps | with_reducible apply sweep_keeps
    | with_reducible apply checkHeld_keeps | with_reducible apply automaticPass_keeps
    | with_reducible refine Keeps.foldl _ ?_ (fun _ _ _ => ?_)
    | ((fail_if_success (fail_if_success with_reducible intro y)); first | with_reducible refine Keeps.letGoal (s := s0) ?_ (fun _ _ => ?_) | with_reducible intro y)
    | simp only [Keeps.put_iff] | lift_lets | split)

theorem endPhase_keeps {s0 t : State} (slacks) (h : Keeps s0 t) :
    Keeps s0 (endPhase slacks t) := by
  unfold endPhase
  repeat' (first
    | with_reducible assumption | with_reducible apply Keeps.ite | with_reducible apply endMap_keeps
    | with_reducible apply endPower_keeps | with_reducible apply endRoll_keeps
    | with_reducible apply endBaseline_keeps | with_reducible apply becomeReady_keeps
    | ((fail_if_success (fail_if_success with_reducible intro y)); first | with_reducible refine Keeps.letGoal (s := s0) ?_ (fun _ _ => ?_) | with_reducible intro y)
    | simp only [Keeps.put_iff] | lift_lets | split)

theorem execBootPhaseEnd_keeps {s0 t : State} (baseline) (h : Keeps s0 t) :
    OKeeps s0 (execBootPhaseEnd baseline t) := by
  unfold execBootPhaseEnd
  repeat' (first
    | with_reducible assumption | with_reducible apply OKeeps.next | with_reducible exact OKeeps.refused _
    | with_reducible apply OKeeps.ite | with_reducible apply Keeps.ite | with_reducible apply endPhase_keeps
    | ((fail_if_success (fail_if_success with_reducible intro y)); first | with_reducible refine Keeps.letGoal (s := s0) ?_ (fun _ _ => ?_) | with_reducible intro y)
    | simp only [Keeps.put_iff] | lift_lets | split)

theorem unitSilent_keeps {s0 t : State} (u) (h : Keeps s0 t) :
    Keeps s0 (unitSilent u t) := by
  unfold unitSilent
  repeat' (first
    | with_reducible assumption | with_reducible apply Keeps.ite
    | ((fail_if_success (fail_if_success with_reducible intro y)); first | with_reducible refine Keeps.letGoal (s := s0) ?_ (fun _ _ => ?_) | with_reducible intro y)
    | simp only [Keeps.put_iff] | lift_lets | split)

theorem execUnitMissing_keeps {s0 t : State} (u) (h : Keeps s0 t) :
    OKeeps s0 (execUnitMissing u t) := by
  unfold execUnitMissing
  repeat' (first
    | with_reducible assumption | with_reducible apply OKeeps.next | with_reducible exact OKeeps.refused _
    | with_reducible apply OKeeps.ite | with_reducible apply Keeps.ite | with_reducible apply unitSilent_keeps
    | with_reducible apply markMissing_keeps
    | ((fail_if_success (fail_if_success with_reducible intro y)); first | with_reducible refine Keeps.letGoal (s := s0) ?_ (fun _ _ => ?_) | with_reducible intro y)
    | simp only [Keeps.put_iff] | lift_lets | split)

end Sys2Proof.Machine
end

