-- ==== Sys2Proof/Laws/Keep/Exchange.lean ====
section
/-!
SUPPORT. What the definitions of Machine/Exchange.lean leave as it was.
-/

namespace Sys2Proof.Machine

set_option linter.unusedTactic false
set_option linter.unreachableTactic false
set_option linter.unusedSimpArgs false

theorem countExc_keeps {s0 t : State} (r) (h : Keeps s0 t) :
    Keeps s0 (countExc r t) := by
  unfold countExc
  repeat' (first
    | with_reducible assumption | with_reducible apply Keeps.ite | with_reducible apply bump_keeps
    | ((fail_if_success (fail_if_success with_reducible intro y)); first | with_reducible refine Keeps.letGoal (s := s0) ?_ (fun _ _ => ?_) | with_reducible intro y)
    | simp only [Keeps.put_iff] | lift_lets | split)

theorem stopHit_keeps {s0 t : State} (t' k) (h : Keeps s0 t) :
    Keeps s0 (stopHit t' k t) := by
  unfold stopHit
  repeat' (first
    | with_reducible assumption | with_reducible apply Keeps.ite | with_reducible apply onStream_keeps
    | with_reducible apply bump_keeps | with_reducible apply closeStream_keeps
    | ((fail_if_success (fail_if_success with_reducible intro y)); first | with_reducible refine Keeps.letGoal (s := s0) ?_ (fun _ _ => ?_) | with_reducible intro y)
    | simp only [Keeps.put_iff] | lift_lets | split)

theorem excEmit_keeps {s0 t : State} (t' r) (h : Keeps s0 t) :
    Keeps s0 (excEmit t' r t) := by
  unfold excEmit
  repeat' (first
    | with_reducible assumption | with_reducible apply Keeps.ite | with_reducible apply setBuilding_keeps
    | with_reducible apply sendText_keeps | with_reducible apply emitLast_keeps
    | with_reducible apply onStream_keeps | with_reducible refine Keeps.foldl _ ?_ (fun _ _ _ => ?_)
    | ((fail_if_success (fail_if_success with_reducible intro y)); first | with_reducible refine Keeps.letGoal (s := s0) ?_ (fun _ _ => ?_) | with_reducible intro y)
    | simp only [Keeps.put_iff] | lift_lets | split)

theorem excWork_keeps {s0 t : State} (t') (h : Keeps s0 t) :
    Keeps s0 (excWork t' t) := by
  unfold excWork
  repeat' (first
    | with_reducible assumption | with_reducible apply Keeps.ite | with_reducible apply countReads_keeps
    | with_reducible apply onStream_keeps | with_reducible apply countExc_keeps | with_reducible apply stopHit_keeps
    | with_reducible apply noteCarry_keeps | with_reducible apply startAccess_keeps
    | with_reducible apply excEmit_keeps | with_reducible refine Keeps.foldl _ ?_ (fun _ _ _ => ?_)
    | ((fail_if_success (fail_if_success with_reducible intro y)); first | with_reducible refine Keeps.letGoal (s := s0) ?_ (fun _ _ => ?_) | with_reducible intro y)
    | simp only [Keeps.put_iff] | lift_lets | split)

theorem excErr_keeps {s0 t : State} (t' status) (h : Keeps s0 t) :
    Keeps s0 (excErr t' status t) := by
  unfold excErr
  repeat' (first
    | with_reducible assumption | with_reducible apply Keeps.ite | with_reducible apply logFirst_keeps
    | ((fail_if_success (fail_if_success with_reducible intro y)); first | with_reducible refine Keeps.letGoal (s := s0) ?_ (fun _ _ => ?_) | with_reducible intro y)
    | simp only [Keeps.put_iff] | lift_lets | split)

theorem dropStopped_keeps {s0 t : State} (t') (h : Keeps s0 t) :
    Keeps s0 (dropStopped t' t) := by
  unfold dropStopped
  repeat' (first
    | with_reducible assumption | with_reducible apply Keeps.ite | with_reducible apply endDead_keeps
    | with_reducible apply bump_keeps
    | ((fail_if_success (fail_if_success with_reducible intro y)); first | with_reducible refine Keeps.letGoal (s := s0) ?_ (fun _ _ => ?_) | with_reducible intro y)
    | simp only [Keeps.put_iff] | lift_lets | split)

theorem excBody_keeps {s0 t : State} (n hw) (h : Keeps s0 t) :
    Keeps s0 (excBody n hw t) := by
  unfold excBody
  repeat' (first
    | with_reducible assumption | with_reducible apply Keeps.ite | with_reducible apply dropStopped_keeps
    | with_reducible apply checkFails_keeps | with_reducible apply unqueue_keeps
    | with_reducible apply vaultError_keeps | with_reducible apply refuseTile_keeps
    | with_reducible apply excErr_keeps | with_reducible apply excWork_keeps
    | ((fail_if_success (fail_if_success with_reducible intro y)); first | with_reducible refine Keeps.letGoal (s := s0) ?_ (fun _ _ => ?_) | with_reducible intro y)
    | simp only [Keeps.put_iff] | lift_lets | split)

theorem execExchangeTile_keeps {s0 t : State} (n hw) (h : Keeps s0 t) :
    OKeeps s0 (execExchangeTile n hw t) := by
  unfold execExchangeTile
  repeat' (first
    | with_reducible assumption | with_reducible apply OKeeps.next | with_reducible exact OKeeps.refused _
    | with_reducible apply OKeeps.ite | with_reducible apply Keeps.ite | with_reducible apply sweep_keeps
    | with_reducible apply buy_keeps | with_reducible apply excBody_keeps | with_reducible apply Keeps.idf
    | ((fail_if_success (fail_if_success with_reducible intro y)); first | with_reducible refine Keeps.letGoal (s := s0) ?_ (fun _ _ => ?_) | with_reducible intro y)
    | with_reducible intro _ _ | simp only [Keeps.put_iff] | lift_lets | split)

theorem execEscrowHoldResolve_keeps {s0 t : State} (n) (h : Keeps s0 t) :
    OKeeps s0 (execEscrowHoldResolve n t) := by
  unfold execEscrowHoldResolve
  repeat' (first
    | with_reducible assumption | with_reducible apply OKeeps.next | with_reducible exact OKeeps.refused _
    | with_reducible apply OKeeps.ite | with_reducible apply Keeps.ite | with_reducible apply onStream_keeps
    | with_reducible apply countExc_keeps | with_reducible apply stopHit_keeps
    | with_reducible apply noteCarry_keeps | with_reducible apply sendText_keeps | with_reducible apply sweep_keeps
    | with_reducible apply emitLast_keeps | with_reducible apply setBuilding_keeps
    | with_reducible refine Keeps.foldl _ ?_ (fun _ _ _ => ?_)
    | ((fail_if_success (fail_if_success with_reducible intro y)); first | with_reducible refine Keeps.letGoal (s := s0) ?_ (fun _ _ => ?_) | with_reducible intro y)
    | simp only [Keeps.put_iff] | lift_lets | split)

end Sys2Proof.Machine
end

