-- ==== Sys2Proof/Laws/Keep/Regs.lean ====
section
/-!
SUPPORT. What the definitions of Machine/Regs.lean leave as it was.
-/

namespace Sys2Proof.Machine

set_option linter.unusedTactic false
set_option linter.unreachableTactic false
set_option linter.unusedSimpArgs false

theorem readWindow_keeps {s0 t : State} (off) (h : Keeps s0 t) :
    Keeps s0 (readWindow off t) := by
  unfold readWindow
  repeat' (first
    | with_reducible assumption | with_reducible apply Keeps.ite | with_reducible apply popQueue_keeps
    | with_reducible apply latchHi_keeps | with_reducible apply readPop_keeps
    | ((fail_if_success (fail_if_success with_reducible intro y)); first | with_reducible refine Keeps.letGoal (s := s0) ?_ (fun _ _ => ?_) | with_reducible intro y)
    | simp only [Keeps.put_iff] | lift_lets | split)

theorem execPairLoRead_keeps {s0 t : State} (off) (h : Keeps s0 t) :
    OKeeps s0 (execPairLoRead off t) := by
  unfold execPairLoRead
  repeat' (first
    | with_reducible assumption | with_reducible apply Keeps.ite | with_reducible apply OKeeps.next
    | with_reducible exact OKeeps.refused _ | with_reducible apply OKeeps.ite | with_reducible apply viaPort_keeps
    | with_reducible apply readWindow_keeps | with_reducible apply viaRead_keeps
    | ((fail_if_success (fail_if_success with_reducible intro y)); first | with_reducible refine Keeps.letGoal (s := s0) ?_ (fun _ _ => ?_) | with_reducible intro y)
    | simp only [Keeps.put_iff] | lift_lets | split)

theorem holdLo_keeps {s0 t : State} (off v) (h : Keeps s0 t) :
    Keeps s0 (holdLo off v t) := by
  unfold holdLo
  repeat' (first
    | with_reducible assumption | with_reducible apply Keeps.ite
    | ((fail_if_success (fail_if_success with_reducible intro y)); first | with_reducible refine Keeps.letGoal (s := s0) ?_ (fun _ _ => ?_) | with_reducible intro y)
    | simp only [Keeps.put_iff] | lift_lets | split)

theorem writeCounterHi_keeps {s0 t : State} (off v) (h : Keeps s0 t) :
    Keeps s0 (writeCounterHi off v t) := by
  unfold writeCounterHi
  repeat' (first
    | with_reducible assumption | with_reducible apply Keeps.ite | with_reducible apply setReg_keeps
    | ((fail_if_success (fail_if_success with_reducible intro y)); first | with_reducible refine Keeps.letGoal (s := s0) ?_ (fun _ _ => ?_) | with_reducible intro y)
    | simp only [Keeps.put_iff] | lift_lets | split)

theorem execCounterLoWrite_keeps {s0 t : State} (off value) (h : Keeps s0 t) :
    OKeeps s0 (execCounterLoWrite off value t) := by
  unfold execCounterLoWrite
  repeat' (first
    | with_reducible assumption | with_reducible apply OKeeps.next | with_reducible exact OKeeps.refused _
    | with_reducible apply OKeeps.ite | with_reducible apply Keeps.ite | with_reducible apply viaPort_keeps
    | with_reducible apply holdLo_keeps
    | ((fail_if_success (fail_if_success with_reducible intro y)); first | with_reducible refine Keeps.letGoal (s := s0) ?_ (fun _ _ => ?_) | with_reducible intro y)
    | simp only [Keeps.put_iff] | lift_lets | split)

theorem effectOf_keeps {s0 t : State} (o : State → Host.Outcome State Fault Refusal) (h : Keeps s0 t)
    (ho : ∀ u, Keeps s0 u → OKeeps s0 (o u)) : Keeps s0 (effectOf o t) := by
  unfold effectOf
  split
  · exact (ho _ h).out _ ‹_›
  · exact h

theorem whenBit_keeps {s0 t : State} (v i f) (h : Keeps s0 t) (hf : ∀ u, Keeps s0 u → Keeps s0 (f u)) :
    Keeps s0 (whenBit v i f t) := by
  unfold whenBit
  repeat' (first
    | with_reducible assumption | with_reducible apply Keeps.ite | with_reducible apply hf
    | ((fail_if_success (fail_if_success with_reducible intro y)); first | with_reducible refine Keeps.letGoal (s := s0) ?_ (fun _ _ => ?_) | with_reducible intro y)
    | simp only [Keeps.put_iff] | lift_lets | split)

theorem writeMctrl_keeps {s0 t : State} (v) (h : Keeps s0 t) :
    Keeps s0 (writeMctrl v t) := by
  unfold writeMctrl
  repeat' (first
    | with_reducible assumption | with_reducible intro _ _ | with_reducible apply Keeps.ite
    | with_reducible apply setReg_keeps | with_reducible apply effectOf_keeps
    | with_reducible apply execScrubPassStart_keeps | with_reducible apply execSweepRequest_keeps
    | with_reducible apply execChannelQuiesce_keeps | with_reducible apply startStatus_keeps
    | with_reducible apply whenBit_keeps | with_reducible apply execQuiesceEnd_keeps
    | with_reducible apply Keeps.idf
    | ((fail_if_success (fail_if_success with_reducible intro y)); first | with_reducible refine Keeps.letGoal (s := s0) ?_ (fun _ _ => ?_) | with_reducible intro y)
    | with_reducible intro _ _ | simp only [Keeps.put_iff] | lift_lets | split)

theorem writeResume_keeps {s0 t : State} (v) (h : Keeps s0 t) :
    Keeps s0 (writeResume v t) := by
  unfold writeResume
  repeat' (first
    | with_reducible assumption | with_reducible intro _ _ | with_reducible apply Keeps.ite
    | with_reducible apply whenBit_keeps | with_reducible apply effectOf_keeps
    | with_reducible apply execDebugStep_keeps | with_reducible apply execDebugResume_keeps
    | with_reducible apply Keeps.idf
    | ((fail_if_success (fail_if_success with_reducible intro y)); first | with_reducible refine Keeps.letGoal (s := s0) ?_ (fun _ _ => ?_) | with_reducible intro y)
    | with_reducible intro _ _ | simp only [Keeps.put_iff] | lift_lets | split)

theorem writeKcw_keeps {s0 t : State} (off v) (h : Keeps s0 t) :
    Keeps s0 (writeKcw off v t) := by
  unfold writeKcw
  repeat' (first
    | with_reducible assumption | with_reducible apply Keeps.ite | with_reducible apply setReg_keeps
    | with_reducible apply storeReg_keeps
    | ((fail_if_success (fail_if_success with_reducible intro y)); first | with_reducible refine Keeps.letGoal (s := s0) ?_ (fun _ _ => ?_) | with_reducible intro y)
    | simp only [Keeps.put_iff] | lift_lets | split)

theorem guarded_keeps {s0 t : State} (ok cfg cb f) (h : Keeps s0 t) (hf : ∀ u, Keeps s0 u → Keeps s0 (f u)) :
    Keeps s0 (guarded ok cfg cb f t) := by
  unfold guarded
  repeat' (first
    | with_reducible assumption | with_reducible apply Keeps.ite | with_reducible apply setRegBit_keeps
    | with_reducible apply hf
    | ((fail_if_success (fail_if_success with_reducible intro y)); first | with_reducible refine Keeps.letGoal (s := s0) ?_ (fun _ _ => ?_) | with_reducible intro y)
    | simp only [Keeps.put_iff] | lift_lets | split)

theorem writeMirror_keeps {s0 t : State} (off v) (h : Keeps s0 t) :
    Keeps s0 (writeMirror off v t) := by
  unfold writeMirror
  repeat' (first
    | with_reducible assumption | with_reducible apply Keeps.ite | with_reducible apply storeReg_keeps
    | ((fail_if_success (fail_if_success with_reducible intro y)); first | with_reducible refine Keeps.letGoal (s := s0) ?_ (fun _ _ => ?_) | with_reducible intro y)
    | simp only [Keeps.put_iff] | lift_lets | split)

theorem writeUnits_keeps {s0 t : State} (off v : Nat) (h : Keeps s0 t) : FKeeps s0 t (writeUnits off v) := by
  unfold writeUnits
  dsimp only
  repeat' (first
    | with_reducible assumption | with_reducible apply FKeeps.ite | with_reducible apply FKeeps.some
    | with_reducible exact FKeeps.none | with_reducible apply Keeps.ite | with_reducible apply setReg_keeps
    | with_reducible apply execTelReissue_keeps | with_reducible apply execBeatFreeze_keeps
    | with_reducible apply writeBeatCfg_keeps | with_reducible apply execBeatArm_keeps
    | with_reducible apply writeDay_keeps | with_reducible apply storeReg_keeps
    | with_reducible apply execQueueFlush_keeps | with_reducible apply execSettlePush_keeps
    | with_reducible apply writeStk_keeps | with_reducible apply execThreadRestart_keeps
    | with_reducible apply execClerkHalt_keeps | with_reducible apply execClerkStart_keeps
    | with_reducible apply execJournalEnable_keeps | with_reducible apply startBoot_keeps
    | with_reducible apply whenBit_keeps | with_reducible apply effectOf_keeps | with_reducible apply guarded_keeps
    | with_reducible apply writeMirror_keeps | with_reducible intro _ _ | simp only [Keeps.put_iff] | split)

theorem writeBase_keeps {s0 t : State} (off v : Nat) (h : Keeps s0 t) : FKeeps s0 t (writeBase off v) := by
  unfold writeBase
  dsimp only
  repeat' (first
    | with_reducible assumption | with_reducible apply FKeeps.ite | with_reducible apply FKeeps.some
    | with_reducible exact FKeeps.none | with_reducible apply Keeps.ite | with_reducible apply setReg_keeps
    | with_reducible apply sweep_keeps | with_reducible apply automaticPass_keeps
    | with_reducible apply storeReg_keeps | with_reducible apply goKeyed_keeps
    | with_reducible apply lockDebug_keeps | with_reducible apply execPendingPop_keeps
    | with_reducible apply writeAllow_keeps | with_reducible apply execPwrRst_keeps
    | with_reducible apply execPdSwitch_keeps | with_reducible apply execPdRetry_keeps
    | with_reducible apply writeWdog_keeps | with_reducible apply execWdogKick_keeps
    | with_reducible apply writeKcw_keeps | with_reducible apply whenBit_keeps
    | with_reducible apply writeCounterHi_keeps | with_reducible apply holdLo_keeps
    | with_reducible apply effectOf_keeps | with_reducible apply writeMctrl_keeps
    | with_reducible apply guarded_keeps | with_reducible apply writeResume_keeps | with_reducible intro _ _
    | simp only [Keeps.put_iff] | split)

theorem writeWindow_keeps {s0 t : State} (off v) (h : Keeps s0 t) :
    Keeps s0 (writeWindow off v t) := by
  unfold writeWindow
  refine Keeps.ite h ?_
  split
  · exact (writeUnits_keeps off v h).out _ ‹_›
  · split
    · exact (writeBase_keeps off v h).out _ ‹_›
    · exact storeReg_keeps off v h

theorem execRegisterWrite_keeps {s0 t : State} (off value) (h : Keeps s0 t) :
    OKeeps s0 (execRegisterWrite off value t) := by
  unfold execRegisterWrite
  repeat' (first
    | with_reducible assumption | with_reducible apply OKeeps.next | with_reducible exact OKeeps.refused _
    | with_reducible apply OKeeps.ite | with_reducible apply Keeps.ite | with_reducible apply viaPort_keeps
    | with_reducible apply writeWindow_keeps
    | ((fail_if_success (fail_if_success with_reducible intro y)); first | with_reducible refine Keeps.letGoal (s := s0) ?_ (fun _ _ => ?_) | with_reducible intro y)
    | simp only [Keeps.put_iff] | lift_lets | split)

theorem execSrqForce_keeps {s0 t : State} (value) (h : Keeps s0 t) :
    OKeeps s0 (execSrqForce value t) := by
  unfold execSrqForce
  repeat' (first
    | with_reducible assumption | with_reducible apply OKeeps.next | with_reducible exact OKeeps.refused _
    | with_reducible apply OKeeps.ite | with_reducible apply Keeps.ite | with_reducible apply viaPort_keeps
    | with_reducible apply setReg_keeps
    | ((fail_if_success (fail_if_success with_reducible intro y)); first | with_reducible refine Keeps.letGoal (s := s0) ?_ (fun _ _ => ?_) | with_reducible intro y)
    | simp only [Keeps.put_iff] | lift_lets | split)

theorem execSrqQueueAge_keeps {s0 t : State} (h : Keeps s0 t) :
    OKeeps s0 (execSrqQueueAge t) := by
  unfold execSrqQueueAge
  repeat' (first
    | with_reducible assumption | with_reducible apply OKeeps.next | with_reducible exact OKeeps.refused _
    | with_reducible apply OKeeps.ite | with_reducible apply Keeps.ite
    | ((fail_if_success (fail_if_success with_reducible intro y)); first | with_reducible refine Keeps.letGoal (s := s0) ?_ (fun _ _ => ?_) | with_reducible intro y)
    | simp only [Keeps.put_iff] | lift_lets | split)

theorem execTracePortDrain_keeps {s0 t : State} (h : Keeps s0 t) :
    OKeeps s0 (execTracePortDrain t) := by
  unfold execTracePortDrain
  repeat' (first
    | with_reducible assumption | with_reducible apply OKeeps.next | with_reducible exact OKeeps.refused _
    | with_reducible apply OKeeps.ite | with_reducible apply Keeps.ite | with_reducible apply setUnwritten_keeps
    | with_reducible apply setQueueN_keeps
    | ((fail_if_success (fail_if_success with_reducible intro y)); first | with_reducible refine Keeps.letGoal (s := s0) ?_ (fun _ _ => ?_) | with_reducible intro y)
    | simp only [Keeps.put_iff] | lift_lets | split)

theorem answerTest_keeps {s0 t : State} (status v) (h : Keeps s0 t) :
    Keeps s0 (answerTest status v t) := by
  unfold answerTest
  repeat' (first
    | with_reducible assumption | with_reducible apply Keeps.ite
    | ((fail_if_success (fail_if_success with_reducible intro y)); first | with_reducible refine Keeps.letGoal (s := s0) ?_ (fun _ _ => ?_) | with_reducible intro y)
    | simp only [Keeps.put_iff] | lift_lets | split)

theorem loseResource_keeps {s0 t : State} (i) (h : Keeps s0 t) :
    Keeps s0 (loseResource i t) := by
  unfold loseResource
  repeat' (first
    | with_reducible assumption | with_reducible apply Keeps.ite | with_reducible apply bump_keeps
    | with_reducible apply setRegBit_keeps | with_reducible apply answerTest_keeps | with_reducible apply setReg_keeps
    | with_reducible apply noteLoss_keeps
    | ((fail_if_success (fail_if_success with_reducible intro y)); first | with_reducible refine Keeps.letGoal (s := s0) ?_ (fun _ _ => ?_) | with_reducible intro y)
    | simp only [Keeps.put_iff] | lift_lets | split)

theorem testRegister_keeps {s0 t : State} (lost f) (h : Keeps s0 t) (hf : ∀ u, Keeps s0 u → Keeps s0 (f u)) :
    Keeps s0 (testRegister lost f t) := by
  unfold testRegister
  repeat' (first
    | with_reducible assumption | with_reducible apply Keeps.ite | with_reducible apply answerTest_keeps
    | with_reducible apply loseResource_keeps | with_reducible apply hf
    | ((fail_if_success (fail_if_success with_reducible intro y)); first | with_reducible refine Keeps.letGoal (s := s0) ?_ (fun _ _ => ?_) | with_reducible intro y)
    | simp only [Keeps.put_iff] | lift_lets | split)

theorem testScan_keeps {s0 t : State} (h : Keeps s0 t) :
    Keeps s0 (testScan t) := by
  unfold testScan
  repeat' (first
    | with_reducible assumption | with_reducible apply Keeps.ite | with_reducible apply takeFree_keeps
    | (refine Keeps.sndOf ?_ ‹takeFree _ = (_, _)›; with_reducible apply takeFree_keeps)
    | with_reducible apply answerTest_keeps
    | ((fail_if_success (fail_if_success with_reducible intro y)); first | with_reducible refine Keeps.letGoal (s := s0) ?_ (fun _ _ => ?_) | with_reducible intro y)
    | simp only [Keeps.put_iff] | lift_lets | split)

theorem execIeee1687Access_keeps {s0 t : State} (op) (h : Keeps s0 t) :
    OKeeps s0 (execIeee1687Access op t) := by
  unfold execIeee1687Access
  repeat' (first
    | with_reducible assumption | with_reducible apply Keeps.ite | with_reducible apply OKeeps.next
    | with_reducible exact OKeeps.refused _ | with_reducible apply OKeeps.ite | with_reducible apply answerTest_keeps
    | with_reducible apply testRegister_keeps | with_reducible apply readWindow_keeps
    | with_reducible apply writeWindow_keeps | with_reducible apply loseResource_keeps
    | with_reducible apply Keeps.idf | with_reducible apply testScan_keeps
    | ((fail_if_success (fail_if_success with_reducible intro y)); first | with_reducible refine Keeps.letGoal (s := s0) ?_ (fun _ _ => ?_) | with_reducible intro y)
    | with_reducible intro _ _ | simp only [Keeps.put_iff] | lift_lets | split)

end Sys2Proof.Machine
end

