-- ==== Sys2Proof/Laws/Keep/Resume.lean ====
section
/-!
SUPPORT. What the definitions of Machine/Resume.lean leave as it was.
-/

namespace Sys2Proof.Machine

set_option linter.unusedTactic false
set_option linter.unreachableTactic false
set_option linter.unusedSimpArgs false

theorem paidBody_keeps {s0 t : State} (i) (h : Keeps s0 t) :
    Keeps s0 (paidBody i t) := by
  unfold paidBody
  repeat' (first
    | with_reducible assumption | with_reducible apply Keeps.ite | with_reducible apply payLane_keeps
    | with_reducible apply drainLane_keeps | with_reducible apply takeChunk_keeps
    | with_reducible apply payTeller_keeps | with_reducible apply assayBody_keeps
    | with_reducible apply sorterBody_keeps | with_reducible apply mintBody_keeps
    | with_reducible apply tokenTileBody_keeps | with_reducible apply advanceBody_keeps
    | with_reducible apply retryPort_keeps | with_reducible apply runRows_keeps
    | with_reducible apply selectRow_keeps | with_reducible apply listBody_keeps
    | with_reducible apply excBody_keeps | with_reducible apply visitBody_keeps
    | with_reducible apply setStage_keeps | with_reducible apply loadedBody_keeps
    | with_reducible apply resumeLambiop_keeps
    | ((fail_if_success (fail_if_success with_reducible intro y)); first | with_reducible refine Keeps.letGoal (s := s0) ?_ (fun _ _ => ?_) | with_reducible intro y)
    | simp only [Keeps.put_iff] | lift_lets | split)

theorem paidEffect_keeps {s0 t : State} (p) (h : Keeps s0 t) :
    Keeps s0 (paidEffect p t) := by
  unfold paidEffect
  repeat' (first
    | with_reducible assumption | with_reducible apply Keeps.ite | with_reducible apply sweep_keeps
    | with_reducible apply paidBody_keeps | with_reducible apply settleAccesses_keeps
    | ((fail_if_success (fail_if_success with_reducible intro y)); first | with_reducible refine Keeps.letGoal (s := s0) ?_ (fun _ _ => ?_) | with_reducible intro y)
    | simp only [Keeps.put_iff] | lift_lets | split)

theorem payPurchase_keeps {s0 t u : State} {b : Bool} (p : Purchase) (h : Keeps s0 t)
    (e : payPurchase p t = some (u, b)) : Keeps s0 u := by
  unfold payPurchase at e
  split at e
  · cases e
    exact leavePurse_keeps _ h
  · dsimp only at e
    split at e
    · cases e
    · split at e
      · cases e
        exact leavePurse_keeps _ (spend_keeps _ h)
      · cases e
        exact joinPurse_keeps _ (leavePurse_keeps _ (spend_keeps _ h))

theorem execPurchaseServed_keeps {s0 t : State} (h : Keeps s0 t) :
    OKeeps s0 (execPurchaseServed t) := by
  unfold execPurchaseServed
  split
  · exact OKeeps.next h
  · split
    · exact OKeeps.next h
    · rename_i e
      exact OKeeps.next (paidEffect_keeps _ (payPurchase_keeps _ h e))
    · rename_i e
      exact OKeeps.next (payPurchase_keeps _ h e)

theorem issueNext_keeps {s0 t : State} (w) (h : Keeps s0 t) :
    Keeps s0 (issueNext w t) := by
  unfold issueNext
  repeat' (first
    | with_reducible assumption | with_reducible apply Keeps.ite | exact opOf_keeps ‹_› ‹_› | with_reducible intro _ _
    | with_reducible apply effectOf_keeps | with_reducible apply execUndefinedOpcode_keeps
    | with_reducible apply issue_keeps | with_reducible apply Keeps.idf
    | ((fail_if_success (fail_if_success with_reducible intro y)); first | with_reducible refine Keeps.letGoal (s := s0) ?_ (fun _ _ => ?_) | with_reducible intro y)
    | with_reducible intro _ _ | simp only [Keeps.put_iff] | lift_lets | split)

theorem takeTurn_keeps {s0 t : State} (y0) (h : Keeps s0 t) :
    Keeps s0 (takeTurn y0 t) := by
  induction y0 generalizing t with
  | nil => exact h
  | cons x xs ih =>
    unfold takeTurn
    repeat' (first
      | with_reducible assumption | with_reducible apply Keeps.ite | with_reducible apply onThread_keeps
      | with_reducible apply issueNext_keeps | with_reducible apply ih | cases ‹_ + 1 = Nat.succ _›
      | ((fail_if_success (fail_if_success with_reducible intro y)); first | with_reducible refine Keeps.letGoal (s := s0) ?_ (fun _ _ => ?_) | with_reducible intro y)
      | simp only [Keeps.put_iff] | lift_lets | split)

theorem clerkTurn_keeps {s0 t : State} (c) (h : Keeps s0 t) :
    Keeps s0 (clerkTurn t c) := by
  unfold clerkTurn
  repeat' (first
    | with_reducible assumption | with_reducible apply Keeps.ite | with_reducible apply takeTurn_keeps
    | ((fail_if_success (fail_if_success with_reducible intro y)); first | with_reducible refine Keeps.letGoal (s := s0) ?_ (fun _ _ => ?_) | with_reducible intro y)
    | simp only [Keeps.put_iff] | lift_lets | split)

theorem tick_keeps {s0 t : State} (h : Keeps s0 t) :
    Keeps s0 (tick t) := by
  unfold tick
  repeat' (first
    | with_reducible assumption | with_reducible apply Keeps.ite | with_reducible apply clerkTurn_keeps
    | with_reducible apply wakeAll_keeps | with_reducible refine Keeps.foldl _ ?_ (fun _ _ _ => ?_)
    | ((fail_if_success (fail_if_success with_reducible intro y)); first | with_reducible refine Keeps.letGoal (s := s0) ?_ (fun _ _ => ?_) | with_reducible intro y)
    | simp only [Keeps.put_iff] | lift_lets | split)

end Sys2Proof.Machine
end

