-- ==== Sys2Proof/Tests/Slice0.lean ====
section
/-! SUPPORT. Tests: one ill-formed command for each check of `wellFormed`, words decoded from the fields the spec gives them,
single steps whose results are worked out by hand from the spec, and for every statement with hypotheses a concrete
state and operands that meet them, clause by clause and at the ends of their ranges.
-/

namespace Sys2Proof.Tests

set_option Elab.async false

open Sys2Proof Sys2Proof.Machine

/-! ### States the tests start from -/

/-- The first thread of CLERK 0. -/
def w0 : Who := ⟨0, 0⟩

/-- The fields of an instruction that always issues. -/
def fs (d a b : BitVec 4) (imm : BitVec 40) : Fields := ⟨d, a, b, 0, imm⟩

/-- A block that is READY: every power domain up, bring-up over, coins in the balance. -/
def up : State :=
  { State.reset with
    power := { State.reset.power with pds := (List.range 30).map (fun d => (d, PdState.released)) }
    boot := { State.reset.boot with phase := 6 }
    purse := { State.reset.purse with balance := 1000000 } }

/-- The READY block with a thread that runs. -/
def withThread (t : Thread) (s : State) : State := setThread w0 { t with st := .running } s

/-- A thread with g1, g2 and the program counter given. -/
def th (g1 g2 : Word) (pc : Nat := 0) : Thread := { Thread.initial with g := [(1, g1), (2, g2)], pc := pc }

/-- The READY block whose thread w0 runs with g1 and g2. -/
def run (g1 g2 : Word) : State := withThread (th g1 g2) up

/-- What an instruction's state holds after it. -/
def next (o : Host.Outcome State Fault Refusal) : State :=
  match o with
  | .next t => t
  | _ => State.reset

/-- Whether an instruction may issue with its coins there, as data. -/
def issuesNow (s : State) (w : Who) (f : Fields) (code cents : Nat) : Bool :=
  clerkReady s w.clerk.toNat && decide ((thread s w).st = .running) && decide ((thread s w).wait = .ready)
    && !(thread s w).stepping && !(thread s w).stopAfter && decide ((thread s w).pc < 8191)
    && reservedOk code f && predHolds (thread s w) f
    && s.purse.queue.isEmpty && clkUp s 22 && decide (priceNow s cents ≤ s.purse.balance)

theorem issues_iff (s : State) (w : Who) (f : Fields) (code cents : Nat) :
    Issues s w f code cents ↔ issuesNow s w f code cents = true := by
  simp [Issues, issuesNow, List.isEmpty_iff, and_assoc]

/-! ### Well-formed commands: one that each check refuses -/

/-- A thread of a CLERK that an Edge block does not build; a reserved bit not 0 (IMM of ADD). -/
theorem test_illformed_lambiop :
    wellFormed .full (.add w0 (fs 3 1 2 0)) = true ∧ wellFormed .edge (.add ⟨1, 0⟩ (fs 3 1 2 0)) = false
    ∧ wellFormed .full (.add w0 (fs 3 1 2 1)) = false := by decide +kernel

/-- Tickets 0 to 0xFFE of a built CLERK; hops 1 to 8; a built CLERK's page fetch. -/
theorem test_illformed_clerk_events :
    wellFormed .edge (.ticketComplete 0 0xFFE) = true ∧ wellFormed .edge (.ticketComplete 0 0xFFF) = false
    ∧ wellFormed .edge (.ticketComplete 1 0) = false ∧ wellFormed .edge (.inputQueueRoom 8) = true
    ∧ wellFormed .edge (.inputQueueRoom 0) = false ∧ wellFormed .edge (.inputQueueRoom 9) = false
    ∧ wellFormed .edge (.daybookFetchResume 1) = false ∧ wellFormed .edge (.threadRestart ⟨1, 0⟩) = false
    ∧ wellFormed .edge (.debugResume ⟨1, 0⟩) = false ∧ wellFormed .edge (.debugStep ⟨1, 0⟩) = false := by decide +kernel

/-- Offsets that are registers of the command's group, and offsets that are multiples of 4. -/
theorem test_illformed_offsets :
    wellFormed .full (.daybookConfigWrite 0 0) = false ∧ wellFormed .full (.stkConfigWrite 0 0) = false
    ∧ wellFormed .full (.registerWrite 2 0) = false ∧ wellFormed .full (.pairLoRead 1) = false
    ∧ wellFormed .full (.counterLoWrite 3 0) = false ∧ wellFormed .full (.ieee1687Access (.regRead 2 false)) = false
    ∧ wellFormed .full (.ieee1687Access (.regWrite 2 0 false)) = false
    ∧ wellFormed .full (.ieee1687Access (.canary 96)) = false ∧ wellFormed .full (.ieee1687Access (.canary 95)) = true := by
  decide +kernel

/-- Lanes, ports, banks, tiles and domains that a configuration builds, and payloads no longer than the wires carry. -/
theorem test_illformed_units :
    wellFormed .edge (.laneChunk 1 0 []) = false ∧ wellFormed .edge (.vaultReloadDone 3) = false
    ∧ wellFormed .edge (.nearBankList 2 []) = false ∧ wellFormed .full (.nearBankList 0 (List.replicate 1089 0)) = false
    ∧ wellFormed .edge (.memoryResponse 2 0 .done []) = false
    ∧ wellFormed .full (.memoryResponse 0 0 .done (List.replicate 65 0)) = false
    ∧ wellFormed .edge (.deferredRetry 2 0) = false ∧ wellFormed .edge (.memoryLinkError 2) = false
    ∧ wellFormed .edge (.tileReloadDone 5) = false ∧ wellFormed .edge (.domainReset 5) = false
    ∧ wellFormed .edge (.resetRelease 5) = false ∧ wellFormed .edge (.clockLost 5) = false
    ∧ wellFormed .edge (.clockRestored 5) = false ∧ wellFormed .edge (.interfaceResetRelease 5) = false
    ∧ wellFormed .edge (.ingressResponseTaken 1 0) = false ∧ wellFormed .full (.slackSweep 4) = false := by decide +kernel

/-- Statuses of an image read, lengths of a sweep, units of the roll call, words that decode. -/
theorem test_illformed_data :
    wellFormed .full (.imageLoadDone [] 0x70) = false ∧ wellFormed .full (.imageLoadDone [] 0x53) = true
    ∧ wellFormed .full (.sweepEnd [0]) = false ∧ wellFormed .full (.bootPhaseEnd [[0]]) = false
    ∧ wellFormed .full (.bootPhaseEnd (List.replicate 5 (List.replicate 24 0))) = false
    ∧ wellFormed .edge (.unitMissing ⟨0, 5⟩) = false ∧ wellFormed .edge (.unitMissing ⟨7, 2⟩) = false
    ∧ wellFormed .edge (.unitMissing ⟨8, 1⟩) = false ∧ wellFormed .edge (.unitMissing ⟨9, 2⟩) = false
    ∧ wellFormed .edge (.unitMissing ⟨10, 1⟩) = false ∧ wellFormed .edge (.unitMissing ⟨11, 0⟩) = false
    ∧ wellFormed .full (.undefinedOpcode w0 0x0131200000000000) = false
    ∧ wellFormed .full (.undefinedOpcode w0 0) = true := by decide +kernel

/-! ### Words of Lambiop, field by field (OP, D, A, B, PRED, IMM of Table 2.4), one or more for each family -/

theorem test_word_arithmetic :
    decodeLambiop w0 0x0131200000000000 = some (.add w0 (fs 3 1 2 0))
    ∧ decodeLambiop w0 0x0A4400FFFFFFFFFF = some (.addi w0 (fs 4 4 0 0xFFFFFFFFFF))
    ∧ decodeLambiop w0 0x0C51000000ABCDEF = some (.lui w0 (fs 5 1 0 0xABCDEF))
    ∧ decodeLambiop w0 0x1131200000000000 = some (.crc w0 (fs 3 1 2 0)) := by decide +kernel

theorem test_word_predicates :
    decodeLambiop w0 0x0D15600000000002 = some (.cmp w0 (fs 1 5 6 2))
    ∧ decodeLambiop w0 0x0A400000000002A7 = some (.addi w0 (fs 4 0 0 0x2A7))
    ∧ decodeLambiop w0 0x18000900000001F0 = some (.b w0 ⟨0, 0, 0, 9, 0x1F0⟩) := by decide +kernel

theorem test_word_memory :
    decodeLambiop w0 0x2278000000000010 = some (.ld w0 (fs 7 8 0 16))
    ∧ decodeLambiop w0 0x2308700000000010 = some (.st w0 (fs 0 8 7 16))
    ∧ decodeLambiop w0 0x2412300000000040 = some (.ldx w0 (fs 1 2 3 64)) := by decide +kernel

theorem test_word_streams_and_items :
    decodeLambiop w0 0x3012000000000000 = some (.sopen w0 (fs 1 2 0 0))
    ∧ decodeLambiop w0 0x4012000000000000 = some (.flow w0 (fs 1 2 0 0))
    ∧ decodeLambiop w0 0x4112000000000001 = some (.dnext w0 (fs 1 2 0 1))
    ∧ decodeLambiop w0 0x5012000000000000 = some (.post w0 (fs 1 2 0 0)) := by decide +kernel

theorem test_word_grammar_and_output :
    decodeLambiop w0 0x6010000000000000 = some (.mask w0 (fs 1 0 0 0))
    ∧ decodeLambiop w0 0x6312300000000105 = some (.pick w0 (fs 1 2 3 0x105))
    ∧ decodeLambiop w0 0x7012300000000009 = some (.emit w0 (fs 1 2 3 9))
    ∧ decodeLambiop w0 0x7810000000000162 = some (.price w0 (fs 1 0 0 0x162)) := by decide +kernel

/-- The commands of the table have no bits of their own, so no word spells one. -/
theorem test_table_words : decodeTableWord 32 0 = none ∧ decodeTableWord 64 0x0131200000000000 = none := by decide +kernel

/-! ### Single steps worked out by hand -/

/-- The sum wraps at 2^64 (R60, R71). -/
theorem test_add_wraps :
    (thread (next (exec (.add w0 (fs 3 1 2 0)) (run 0xFFFFFFFFFFFFFFFF 2))) w0).reg 3 = 1 := by decide +kernel

/-- SUB with the destination a source: g1 := g1 - g2. -/
theorem test_sub_into_source :
    (thread (next (exec (.sub w0 (fs 1 1 2 0)) (run 5 7))) w0).reg 1 = 0xFFFFFFFFFFFFFFFE := by decide +kernel

/-- The shift of SAR is taken modulo 64 and fills with the sign. -/
theorem test_sar_sign :
    (thread (next (exec (.sar w0 (fs 3 1 2 0)) (run 0x8000000000000000 68))) w0).reg 3 = 0xF800000000000000 := by
  decide +kernel

/-- LUI keeps bits 39 to 0 of g[a] and takes IMM[23:0] above them. -/
theorem test_lui :
    (thread (next (exec (.lui w0 (fs 3 1 0 0xABCDEF)) (run 0xFFFFFF0000000001 0))) w0).reg 3 = 0xABCDEF0000000001 := by
  decide +kernel

/-- CRC-32C of the nine bytes "123456789" is 0xE3069283 (R19's check value). -/
theorem test_crc :
    crc32c [0x31, 0x32, 0x33, 0x34, 0x35, 0x36, 0x37, 0x38, 0x39] = 0xE3069283 := by decide +kernel

/-- The first 8 bytes of the AES-CMAC of the empty message under the key of RFC 4493, example 1 (R398). -/
theorem test_cmac :
    cmacTag [0x2b, 0x7e, 0x15, 0x16, 0x28, 0xae, 0xd2, 0xa6, 0xab, 0xf7, 0x15, 0x88, 0x09, 0xcf, 0x4f, 0x3c] []
      = [0xbb, 0x1d, 0x69, 0x29, 0xe9, 0x59, 0x37, 0x28] := by
  decide +kernel

/-! ### What meets the hypotheses of the statements: the machine and Lambiop -/

theorem witness_CommandsLeaveQueueAndBuild : ∃ t, exec .dlock up = .next t := ⟨_, rfl⟩

/-- CLERK 0 with one thread that runs, the last in turn, at a word that decodes and at one that does not; that thread after
a YIELD; CLERK 1 with no thread that runs; and a CLERK that is not there to issue. -/
theorem witness_StepOnEmptyQueueIssues :
    let s : State := { run 5 7 with prog := [(0, 0x0131200000000000)] }
    let y : State := withThread { th 5 7 with yielded := true } up
    let turn (j : Nat) : Who := { clerk := 0, thread := BitVec.ofNat 4 (Tab.get 0 s.lastIssued 0 + 1 + j) }
    State.reset.pending = [] ∧ s.pending = [] ∧ clerkReady State.reset 0 = false ∧ clerkReady s 0 = true
    ∧ turn 15 = w0 ∧ (thread s w0).canIssue = true ∧ (thread s w0).yielded = false
    ∧ (∀ j < 15, (thread s (turn j)).canIssue = false)
    ∧ decodeLambiop w0 (Tab.get 0 s.prog (8192 * 0 + (thread s w0).pc)) = some (.add w0 (fs 3 1 2 0))
    ∧ decodeLambiop w0 (Tab.get 0 y.prog (8192 * 0 + (thread y w0).pc)) = none
    ∧ (thread y w0).canIssue = true ∧ (thread y w0).yielded = true ∧ clerkReady s 1 = true := by decide +kernel

/-- That instruction is the round's: the sum stands in g3. -/
theorem test_round_issues :
    (thread (next (step { run 5 7 with prog := [(0, 0x0131200000000000)] })) w0).reg 3 = 12 := by decide +kernel

/-- A byte of scratch, a word of program memory and a store noted. -/
theorem witness_StepKeepsCanonicalMemory :
    let s := { up with scratch := [(0, 1)], prog := [(0, 1)], issueNo := 1, stores := [⟨0, 0, 1, 1⟩] }
    Machine.Inv s ∧ ∃ t, step s = .next t := by
  refine ⟨?_, _, rfl⟩
  unfold Machine.Inv
  decide +kernel

theorem witness_LambiopDecodesWhatItEncodes :
    lambiopParts (.addi ⟨7, 15⟩ ⟨15, 15, 0, 15, 0xFFFFFFFFFF⟩) = some (0x0A, ⟨7, 15⟩, ⟨15, 15, 0, 15, 0xFFFFFFFFFF⟩)
    ∧ wellFormed .full (.addi ⟨7, 15⟩ ⟨15, 15, 0, 15, 0xFFFFFFFFFF⟩) = true := by decide +kernel

theorem witness_LambiopWordsAreUnambiguous :
    decodeLambiop w0 0x0131200000000000 = some (.add w0 (fs 3 1 2 0)) := by decide +kernel

theorem witness_OnlyTheFortyEightOpcodes :
    wordOp 0 = 0 ∧ wordOp 0xFF00000000000000 = 255 ∧ clerkReady (run 0 0) 0 = true
    ∧ (thread (run 0 0) w0).canIssue = true := by decide +kernel

theorem witness_ScalarResults :
    let s := run 5 7
    (∀ x ∈ [(0x01, 2), (0x02, 2), (0x03, 4), (0x04, 2), (0x05, 2), (0x06, 2)], Issues s w0 (fs 3 1 2 0) x.1 x.2)
    ∧ (∀ x ∈ [0x07, 0x08, 0x09], Issues s w0 (fs 3 1 2 63) x 2)
    ∧ (∀ x ∈ [0x0A, 0x0B], Issues s w0 (fs 3 1 0 0xFFFFFFFFFF) x 2) ∧ Issues s w0 (fs 3 1 0 0xFFFFFF) 0x0C 2
    ∧ Issues s w0 (fs 0 1 2 7) 0x0F 2 := by
  simp only [issues_iff]; decide +kernel

theorem witness_PredicateResults :
    Issues (run 5 7) w0 (fs 7 1 2 7) 0x0D 2 ∧ Issues (run 5 7) w0 (fs 0 1 0 0xFFFFFFFF05) 0x0E 2
    ∧ Issues (run 5 7) w0 (fs 1 2 3 3) 0x10 2 := by
  simp only [issues_iff]; decide +kernel

theorem witness_RegisterZeroAndWidths : (15 : BitVec 4) ≠ 0 ∧ (0 : BitVec 4) ≠ 15 ∧ 1 ≤ 7 ∧ 7 < 8 ∧ 0 ≠ 7 := by decide

/-- A span that ends with scratch, and one a byte longer. -/
theorem witness_CrcResult :
    Issues (run 0x3FFF8 8) w0 (fs 3 1 2 0) 0x11 4 ∧ Issues (run 0x3FFF8 9) w0 (fs 3 1 2 0) 0x11 4 := by
  simp only [issues_iff]; decide +kernel

/-- The thread of `run` with a return stack. -/
def called (stack : List Nat) : State := withThread { th 8191 8192 with stack := stack } up

theorem witness_ControlFlow :
    (∀ x ∈ [0x18, 0x1C, 0x1F], Issues (called []) w0 (fs 0 0 0 0) x 2)
    ∧ Issues (called []) w0 (fs 0 0 0 8191) 0x18 2
    ∧ Issues (called []) w0 (fs 0 1 0 0) 0x19 2 ∧ ((issuedThread (called []) w0).reg 1).toNat < 8192
    ∧ Issues (called (List.replicate 15 0)) w0 (fs 0 0 0 8191) 0x1A 2
    ∧ (issuedThread (called (List.replicate 15 0)) w0).stack.length < 16
    ∧ Issues (called [8191]) w0 (fs 0 0 0 0) 0x1B 2 ∧ (issuedThread (called [8191]) w0).stack = 8191 :: [] := by
  simp only [issues_iff]; decide +kernel

theorem witness_OperandFaults :
    let s := called (List.replicate 16 0)
    Issues (called []) w0 (fs 0 2 0 0) 0x19 2 ∧ 8192 ≤ ((issuedThread (called []) w0).reg 2).toNat
    ∧ Issues s w0 (fs 0 0 0 0) 0x1A 2 ∧ 16 ≤ (issuedThread s w0).stack.length
    ∧ Issues (called []) w0 (fs 0 0 0 0) 0x1B 2 ∧ (issuedThread (called []) w0).stack = []
    ∧ Issues (run 1 0) w0 (fs 3 1 0 0) 0x22 3 ∧ ((issuedThread (run 1 0) w0).reg 1).toNat % 8 ≠ 0
    ∧ Issues (run 0x40000 0) w0 (fs 3 1 0 0) 0x22 3 ∧ 0x40000 ≤ ((issuedThread (run 0x40000 0) w0).reg 1).toNat
    ∧ Issues (run 0x40000 0) w0 (fs 0 1 2 0) 0x23 3 := by
  simp only [issues_iff]; decide +kernel

theorem witness_FaultStopsOnlyItsThread :
    Who.key ⟨7, 15⟩ ≠ Who.key w0 ∧ bit (reg up R.CLK_FAULT0) 31 = false ∧ (thread (called []) w0).pc < 8192
    ∧ bit (reg (setReg R.CLK_FAULT0 0x80000000 up) R.CLK_FAULT0) 31 = true := by decide +kernel

theorem witness_UndefinedWordsFault :
    clerkReady (run 0 0) 0 = true ∧ (thread (run 0 0) w0).canIssue = true ∧ decodeLambiop w0 0 = none
    ∧ lambiopParts (.add w0 (fs 3 1 2 1)) = some (0x01, w0, fs 3 1 2 1) ∧ reservedOk 0x01 (fs 3 1 2 1) = false := by
  decide +kernel

theorem witness_ResultWordLayout : 255 < 256 ∧ 31 < 32 ∧ 2 ^ 47 - 1 < 2 ^ 47 := by decide

theorem witness_SpecialRegistersAndStream :
    Issues (run 4095 0) w0 (fs 3 0 0 3) 0x20 2 ∧ Issues (run 4095 0) w0 (fs 0 1 0 0) 0x21 2
    ∧ ((issuedThread (run 4095 0) w0).reg 1).toNat < 4096 ∧ Issues (run 4095 0) w0 (fs 0 1 0 3) 0x21 2 := by
  simp only [issues_iff]; decide +kernel

theorem witness_ScratchLoadsAndStores :
    Issues (run 0 7) w0 (fs 3 1 0 0) 0x22 3 ∧ Issues (run 0x3FFF8 7) w0 (fs 0 1 2 0) 0x23 3
    ∧ ((issuedThread (run 0x3FFF8 7) w0).reg 1 + (0 : BitVec 40).signExtend 64).toNat = 0x3FFF8
    ∧ 0x3FFF8 % 8 = 0 ∧ 0x3FFF8 < 0x40000 ∧ storesIssued (run 0x3FFF8 7) = true := by
  simp only [issues_iff]; decide +kernel

/-- The thread of `run` with a debug scope open. -/
def withScope (s : State) : State := { s with kcw := { s.kcw with scopes := 1 } }

theorem witness_HaltAndBreak :
    Issues (run 0 0) w0 (fs 0 0 0 0) 0x1D 2 ∧ Issues (run 0 0) w0 (fs 0 0 0 0) 0x1E 2 ∧ (run 0 0).kcw.scopes % 2 = 0
    ∧ Issues (withScope (run 0 0)) w0 (fs 0 0 0 0) 0x1E 2 ∧ (withScope (run 0 0)).kcw.scopes % 2 = 1 := by
  simp only [issues_iff]; decide +kernel

/-- ADD under p1, which is false. -/
theorem witness_FalsePredicate :
    let s := run 5 7
    let f : Fields := ⟨3, 1, 2, 1, 0⟩
    lambiopParts (.add w0 f) = some (0x01, w0, f) ∧ (∃ o, opOf s (.add w0 f) = some o ∧ o.bill = [(2, 1)])
    ∧ clerkReady s 0 = true ∧ (thread s w0).st = .running ∧ (thread s w0).wait = .ready ∧ (thread s w0).stepping = false
    ∧ (thread s w0).stopAfter = false ∧ (thread s w0).pc < 8191 ∧ reservedOk 0x01 f = true
    ∧ predHolds (thread s w0) f = false ∧ s.purse.queue = [] ∧ clkUp s 22 = true ∧ priceNow s 2 ≤ s.purse.balance :=
  ⟨by decide +kernel, ⟨_, rfl, rfl⟩, by decide +kernel⟩

/-- ADD and B at the last index, and B under a false predicate. -/
theorem witness_EndOfProgram :
    let s := withThread (th 5 7 8191) up
    let f : Fields := ⟨0, 0, 0, 1, 0⟩
    (∃ o, opOf s (.add w0 (fs 3 1 2 0)) = some o ∧ o.bill = [(2, 1)]) ∧ (∃ o, opOf s (.b w0 f) = some o ∧ o.bill = [(2, 1)])
    ∧ clerkReady s 0 = true ∧ (thread s w0).st = .running ∧ (thread s w0).wait = .ready ∧ (thread s w0).stepping = false
    ∧ (thread s w0).stopAfter = false ∧ (thread s w0).pc = 8191 ∧ reservedOk 0x01 (fs 3 1 2 0) = true
    ∧ reservedOk 0x18 f = true ∧ predHolds (thread s w0) f = false ∧ reservedOk 0x18 (fs 0 0 0 0) = true
    ∧ predHolds (thread s w0) (fs 0 0 0 0) = true ∧ 0x01 ∉ [0x18, 0x19, 0x1A, 0x1B, 0x1D]
    ∧ s.purse.queue = [] ∧ clkUp s 22 = true ∧ priceNow s 2 ≤ s.purse.balance :=
  ⟨⟨_, rfl, rfl⟩, ⟨_, rfl, rfl⟩, by decide +kernel⟩

/-- A block without coins, and one in which a purchase waits. -/
theorem witness_CoinsThatCannotBeGranted :
    let s := { run 5 7 with purse := { (run 5 7).purse with balance := 1 } }
    let u := { run 5 7 with purse := { (run 5 7).purse with queue := [⟨0, [(5, 1)], .command .dlock⟩] } }
    let i : Instr := .add w0 (fs 3 1 2 0)
    (∃ o, opOf s i = some o ∧ o.bill = [(2, 1)]) ∧ (∃ o, opOf u i = some o ∧ o.bill = [(2, 1)])
    ∧ (∀ x ∈ [s, u], clerkReady x 0 = true ∧ (thread x w0).st = .running ∧ (thread x w0).wait = .ready
        ∧ 0 < x.purse.scale ∧ (∀ p ∈ x.purse.queue, p.what ≠ .command i))
    ∧ reservedOk 0x01 (fs 3 1 2 0) = true ∧ s.purse.balance < priceNow s 2 ∧ mustWait u 0 = true :=
  ⟨⟨_, rfl, rfl⟩, ⟨_, rfl, rfl⟩, by decide +kernel⟩

/-! ### What meets the hypotheses of the statements: the instructions of the CLERKS -/

/-- A tokeniser image of no entries. -/
def img : TokImage :=
  { fingerprint := 1, vocab := 64, policy := .replace, norm := .none, fold := false, uniMajor := 15, uniMinor := 0,
    uniUpdate := 0, prot := [], foldTab := [], decompTab := [], compTab := [], cccTab := [], qcNotYes := [], gang := 1,
    look := 1, rows := 0, alts := [], family := .bytePair, baseChar := false, nonmono := false, byteTab := none,
    fallback := false, spec := [], unk := some 0, unkScore := 0, maxChars := 0, merges := [], smap := [], cache := none,
    seed := 0, shares := (1, 1, 1), toks := [], outReplace := true }

/-- That image in force in a tenant slot. -/
def resident : Resident :=
  { gen := 1, image := img, units := 1, tag := [], key := 0, addr := 0, len := 0, ovf := 0, ovfBase := 0,
    buckets := (1, 1, 1), absent := [], placed := [] }

/-- A grammar image of one state. -/
def gram : GrammarImage :=
  { fingerprint := 1, states := 1, classes := 1, classOf := [], start := 0, endToken := 0, policy := .halt, fallback := 0,
    maskSet := 0, pushdown := false, seed := 0, buckets := 1, entryAt := 0, transAt := 64, data := List.replicate 128 0 }

/-- A configuration whose mask forces token 3. -/
def forced : Cfg :=
  { Cfg.empty with fields := { MaskFields.open with maskIndex := 7, force := true, forceToken := 3, remain := 9 } }

/-- An item of stream 0. -/
def item1 : Item :=
  { ledger := 1, stream := 0, source := 10, tenant := 0, textEnd := false, eos := false, settle := 0, place := .bytes [],
    len := 0, route := none, entry := [], logOff := 0, jseq := 1, outs := [], status := 0, flags := 0, owner := some w0,
    ended := none, completing := false, complete := false, settled := false, replaying := false, asReplay := false, replays := 0,
    reposts := 0, poison := false, dropped := false, deep := false, banks := [], emitted := [], after := none }

/-- A block at work: the journal open, stream 0 of tenant 0 OPEN with a grammar, item 1 of it held by thread w0. -/
def busy : State :=
  { up with
    ledger := { LedgerState.closed with ready := true, next := 2, items := [item1] }
    tenants := [(0, { Tenant.empty with now := some resident })]
    grammars := [(0, some gram)]
    streams := [(0, { Stream.initial with
      st := .opened, notary := { NotaryCtx.empty with gen := true, cfg := forced } })] }

/-- That block with thread w0 running, holding item 1, with g1 and g2. -/
def work (g1 g2 : Word) : State := withThread { th g1 g2 with ledger := 1 } busy

/-- A state with bytes in scratch of CLERK 0. -/
def holding (x : Nat) (bs : List Byte) (s : State) : State := { s with scratch := placeBytes s.scratch x bs }

/-- A ticket of CLERK 0 that completes stream 0's item. -/
def tick (done old : Bool) : Ticket := { Ticket.none with done := done, old := old }

/-- That block with ticket 5 outstanding or done. -/
def ticketed (done old : Bool) (g1 : Word) : State := { work g1 0 with tickets := [(5, tick done old)] }

theorem witness_TicketInstructions :
    Issues (ticketed true false 0x50000) w0 (fs 3 1 0 0) 0x44 2 ∧ Issues (ticketed true false 0x50000) w0 (fs 3 1 0 0) 0x46 2
    ∧ ((issuedThread (ticketed true false 0x50000) w0).reg 1).toNat / 2 ^ 16 % 4096 = 5
    ∧ ticket? (ticketed true false 0x50000) 0 5 = some (tick true false)
    ∧ Issues (ticketed false false 0x50000) w0 (fs 3 1 0 0) 0x44 2 ∧ ticket? (ticketed false false 0) 0 5 = some (tick false false)
    ∧ ((issuedThread (ticketed true false 0xFFF0000) w0).reg 1).toNat / 2 ^ 16 % 4096 = 0xFFF
    ∧ Issues (ticketed true false 0xFFF0000) w0 (fs 3 1 0 0) 0x44 2
    ∧ ticket? (ticketed true true 0) 0 5 = some (tick true true) ∧ ticket? (ticketed true false 0) 0 6 = none := by
  simp only [issues_iff]; decide +kernel

/-- Positions 2^44, 0 (reached) and 2^44 - 1 (to come), and a port that is not frozen. -/
theorem witness_WaitForABeat :
    let thaw (s : State) : State := { s with beat := { s.beat with frozen := false } }
    Issues (work 0x100000000000 0) w0 (fs 3 1 0 0) 0x45 2 ∧ Issues (work 0xFFFFFFFFFFF 0) w0 (fs 3 1 0 0) 0x45 2
    ∧ 2 ^ 44 ≤ ((issuedThread (work 0x100000000000 0) w0).reg 1).toNat ∧ (work 0 0).beat.frozen = true
    ∧ Issues (thaw (work 0 0)) w0 (fs 3 1 0 0) 0x45 2 ∧ (thaw (work 0 0)).beat.frozen = false ∧ 0 ≤ (work 0 0).beat.pos
    ∧ Issues (thaw (work 0xFFFFFFFFFFF 0)) w0 (fs 3 1 0 0) 0x45 2 ∧ (work 0 0).beat.pos < 0xFFFFFFFFFFF
    ∧ ((issuedThread (thaw (work 0xFFFFFFFFFFF 0)) w0).reg 1).toNat = 0xFFFFFFFFFFF := by
  simp only [issues_iff]; decide +kernel

theorem witness_PriceInForce :
    Issues (work 0 0) w0 (fs 3 0 0 0x62) 0x78 2 ∧ Issues (work 0 0) w0 (fs 3 0 0 0x1FF) 0x78 2 ∧ codePrice 0x1FF = none
    ∧ Issues (work 0 0) w0 (fs 3 0 0 0x01) 0x78 2 ∧ codePrice 0x01 = some 2 := by
  simp only [issues_iff]; decide +kernel

/-- MODE 1, K 64, ARITH 9, LEN 1,048,576 at the last block; K 65; LEN 0 and 1,048,577; a block past the end. -/
theorem witness_PickWritesADescriptor :
    let imm : BitVec 40 := 1 + 64 * 4 + 9 * 512
    Issues (work 0x100000 0x3FFC0) w0 (fs 3 1 2 imm) 0x63 3 ∧ storesIssued (work 0 0) = true
    ∧ imm.toNat / 512 % 16 = 9 ∧ imm.toNat / 4 % 128 = 64 ∧ imm.toNat % 2 = 1 ∧ 0x3FFC0 % 64 = 0 ∧ 0x3FFC0 + 64 ≤ 0x40000
    ∧ Issues (work 1 0) w0 (fs 3 1 2 (imm + 4)) 0x63 3 ∧ (imm + 4).toNat / 4 % 128 = 65
    ∧ Issues (work 1 0) w0 (fs 3 1 2 (10 * 512)) 0x63 3 ∧ Issues (work 0 0) w0 (fs 3 1 2 imm) 0x63 3
    ∧ Issues (work 0x100001 0) w0 (fs 3 1 2 imm) 0x63 3 ∧ Issues (work 1 0x40000) w0 (fs 3 1 2 imm) 0x63 3
    ∧ Issues (work 1 1) w0 (fs 3 1 2 imm) 0x63 3 ∧ ¬ (0x40000 + 64 ≤ 0x40000) := by
  simp only [issues_iff]; decide +kernel

/-- Two entries, the second replayed. -/
def queued : List DayEntry := [⟨1, false, 0, List.replicate 64 0⟩, ⟨2, true, 1, List.replicate 64 1⟩]

theorem witness_NextDaybookEntry :
    let s (x : Word) : State := { work x 0 with day := { up.day with queues := [(0, queued)] } }
    Issues (s 0x3FFC0) w0 (fs 3 1 0 0) 0x41 5 ∧ Issues (s 0x3FFC8) w0 (fs 3 1 0 0) 0x41 5
    ∧ Issues (work 0 0) w0 (fs 3 1 0 0) 0x41 5 ∧ Issues (work 0 0) w0 (fs 3 1 0 1) 0x41 5 ∧ storesIssued (s 0) = true
    ∧ nextEntry (Tab.get [] (s 0).day.queues 0) = some ⟨2, true, 1, List.replicate 64 1⟩
    ∧ (List.replicate 64 (1 : Byte)).length = 64 ∧ Tab.get [] (s 0).day.queues 0 ≠ [] ∧ 0x3FFC8 % 64 ≠ 0
    ∧ Tab.get [] (work 0 0).day.queues 0 = [] ∧ (∃ b ∈ queued, b.replay = true)
    ∧ (∀ b ∈ queued.take 1, b.replay = false) := by
  simp only [issues_iff]; decide +kernel

/-- No DNEXT waits in those states, whose one thread is ready. -/
theorem witness_NoDnextWaits (x : Word) (v : Who) (g : Who) (h : Fields) :
    (thread (work x 0) v).wait ≠ .retry (.dnext g h) := by
  intro e
  have e' : (Tab.get Thread.initial (Tab.set Thread.initial [] (Who.key w0) { th x 0 with ledger := 1, st := .running })
      (Who.key v)).wait = .retry (.dnext g h) := e
  rw [Tab.get_set] at e'
  split at e' <;> cases e'

/-- PDATA of 64 KiB at 65,536. -/
def pdata (s : State) : State := setReg (regionKey 1) 65536 (setReg (regionKey 1 + 2) 1 s)

theorem witness_CopiesToAndFromStackMemory :
    let s := pdata (work 0x3FFC0 0x1FFC0)
    Issues s w0 (fs 3 1 2 1) 0x24 45 ∧ Issues s w0 (fs 3 1 2 1) 0x25 45 ∧ inRegion s 1 0x1FFC0 64 = true
    ∧ 0x3FFC0 % 64 = 0 ∧ 0x3FFC0 + 64 * 1 ≤ 0x40000 ∧ 0x1FFC0 % 64 = 0
    ∧ Issues (pdata (work 0 0x10000)) w0 (fs 3 1 2 64) 0x24 2565 ∧ Issues (pdata (work 0 0x10000)) w0 (fs 3 1 2 64) 0x25 2565
    ∧ inRegion (pdata (work 0 0)) 1 0x10000 (64 * 64) = true
    ∧ Issues s w0 (fs 3 1 2 0) 0x24 5 ∧ Issues s w0 (fs 3 1 2 0) 0x25 5 ∧ Issues s w0 (fs 3 1 2 65) 0x24 2605
    ∧ Issues s w0 (fs 3 1 2 65) 0x25 2605
    ∧ Issues s w0 (fs 3 1 2 2) 0x24 85 ∧ Issues s w0 (fs 3 1 2 2) 0x25 85 ∧ ¬ (0x3FFC0 + 64 * 2 ≤ 0x40000) := by
  simp only [issues_iff]; decide +kernel

/-- A thread that waits for its access, and a byte read at the end of scratch that nothing has stored since. -/
theorem witness_CopiesThatEnd :
    let s := { work 0 0 with threads := [(0, { th 0 0 with st := .running, wait := .busy })] }
    (thread s w0).wait = .busy ∧ (thread s w0).st = .running ∧ (thread s w0).stepping = false
    ∧ (thread s w0).stopAfter = false ∧ storedLater s 0 (thread s w0).no (0x3FFC0 + 63) = false
    ∧ 63 < (List.replicate 64 (1 : Byte)).length ∧ 0x3FFC0 + 63 < 0x40000 := by decide +kernel

/-- An SOPEN block: tenant 0, intake TELLER, ASSAY, SORTER, MINT, LEDGER, egress 0, output region of 4 KiB. -/
def openBlock : List Byte := toLE 8 0 ++ toLE 8 0x984321 ++ toLE 8 (12 * 2 ^ 48) ++ List.replicate 40 0

/-- A block with tenant 0's image in which stream 0 is FREE. -/
def free0 (g1 : Word) : State := holding 0 openBlock { work g1 0 with streams := [] }

theorem witness_OpeningAStream :
    let b := readOpen (scratchRead (free0 0) 0 0 64)
    Issues (free0 0) w0 (fs 3 1 0 0) 0x30 120 ∧ openRefusal (free0 0) 0 0 0 b = none ∧ journalOpen (free0 0) = true
    ∧ readsStall (free0 0) (openReads (free0 0) b) = false ∧ (openReads (free0 0) b).banks = []
    ∧ openAhead (noteIssue w0 (free0 0)) w0 = false
    ∧ priceNow (free0 0) 120 + ((openBill (free0 0) b).map (fun k => unitPrice (free0 0) k.1 * k.2)).sum
        ≤ (free0 0).purse.balance
    ∧ Issues (free0 8) w0 (fs 3 1 0 0) 0x30 120
    ∧ openRefusal (free0 8) 0 0 8 (readOpen (scratchRead (free0 8) 0 8 64)) = some 0x21 := by
  simp only [issues_iff]; decide +kernel

/-- The block with stream `n` in a state. -/
def streamIn (st : StreamState) (n : Nat) : State :=
  withThread { th 0 0 with stream := n } { busy with streams := [(n, { Stream.initial with st := st })] }

theorem witness_ClosingAStream :
    Issues (streamIn .opened 0) w0 (fs 3 0 0 0) 0x32 50 ∧ Issues (streamIn .held 511) w0 (fs 3 0 0 0) 0x32 50
    ∧ Issues (streamIn .dead 511) w0 (fs 3 0 0 0) 0x32 50 ∧ 511 < (streamIn .held 511).build.size.contexts ∧ 511 / 512 = 0
    ∧ Issues (streamIn .free 0) w0 (fs 3 0 0 0) 0x32 50 ∧ Issues (streamIn .closing 0) w0 (fs 3 0 0 0) 0x32 50
    ∧ Issues (streamIn .opened 4096) w0 (fs 3 0 0 0) 0x32 50 ∧ (streamIn .opened 4096).build.size.contexts ≤ 4096
    ∧ Issues (streamIn .opened 512) w0 (fs 3 0 0 0) 0x32 50 ∧ 512 / 512 ≠ 0 ∧ journalOpen (streamIn .opened 0) = true
    ∧ (stream (streamIn .held 511) 511).st = .held ∧ (stream (streamIn .dead 511) 511).st = .dead
    ∧ (stream (streamIn .free 0) 0).st = .free ∧ (stream (streamIn .closing 0) 0).st = .closing
    ∧ comesTo (streamIn .opened 0) 2 0 = false := by
  simp only [issues_iff]; decide +kernel

theorem witness_FeedingText :
    let s := work 0 65535
    Issues s w0 (fs 3 1 2 1) 0x31 20 ∧ streamsUnknown s = false ∧ 0 < s.build.size.contexts ∧ (stream s 0).st = .opened
    ∧ ((issuedThread s w0).reg 2).toNat ≤ 65535 ∧ hopRoom s 1 = true ∧ sendAhead (noteIssue w0 s) w0 = false
    ∧ outstanding s 0 < 256 ∧ Tab.get 0 s.ticketNext 0 < 0xFFF
    ∧ Issues (work 0 65536) w0 (fs 3 1 2 1) 0x31 20 ∧ 65535 < ((issuedThread (work 0 65536) w0).reg 2).toNat := by
  simp only [issues_iff]; decide +kernel

/-- Flow blocks: a token of item 1 to EXCHANGE, the LEDGER and egress 0, in scratch; with the payload in PDATA; four bytes
of text through TELLER. -/
def flowBlock (route payload : Nat) : List Byte :=
  toLE 8 (if route = 0x984321 then 4 * 2 ^ 20 else 1 + 2 ^ 20) ++ toLE 8 0 ++ toLE 8 0 ++ toLE 8 route ++ toLE 8 payload ++ List.replicate 24 0

/-- Thread w0 at a flow block. -/
def flowing (route payload : Nat) : State := pdata (holding 0 (flowBlock route payload) (work 0 0))

theorem witness_SendingATile :
    let s := flowing 0x987 64
    let p := flowing 0x987 (2 ^ 63 + 65536)
    let q := flowing 0x984321 64
    let b (s : State) : FlowBlock := readFlow (scratchRead s 0 0 64)
    Issues s w0 (fs 3 1 0 0) 0x40 10 ∧ streamsUnknown s = false ∧ flowRefusal (noteIssue w0 s) w0 0 (b s) = none
    ∧ hopRoom s 7 = true ∧ sendAhead (noteIssue w0 s) w0 = false ∧ outstanding s 0 < 256
    ∧ Tab.get 0 s.ticketNext 0 < 0xFFF ∧ routeHop (b s).route 0 = 7 ∧ (b s).stack = false ∧ flowUnread s 0 = false
    ∧ Issues p w0 (fs 3 1 0 0) 0x40 10 ∧ flowRefusal (noteIssue w0 p) w0 0 (b p) = none ∧ hopRoom p 7 = true
    ∧ (b p).stack = true ∧ payloadLen (b p) = 4 ∧ routeHop (b p).route 0 = 7
    ∧ Issues q w0 (fs 3 1 0 0) 0x40 10 ∧ flowRefusal (noteIssue w0 q) w0 0 (b q) = none ∧ hopRoom q 1 = true
    ∧ routeHop (b q).route 0 = 1 ∧ Issues (flowing 0x89 64) w0 (fs 3 1 0 0) 0x40 10
    ∧ flowRefusal (noteIssue w0 (flowing 0x89 64)) w0 0 (b (flowing 0x89 64)) = some 0x70 := by
  simp only [issues_iff]; decide +kernel

theorem witness_EmittingText :
    let s := work 0x3F000 4096
    Issues s w0 (fs 3 1 2 9) 0x70 10 ∧ Issues s w0 (fs 3 1 2 11) 0x70 10 ∧ (issuedThread s w0).ledger ≠ 0
    ∧ streamsUnknown s = false ∧ (stream s 0).st = .opened ∧ 0x3F000 + 4096 ≤ 0x40000 ∧ hopRoom s 8 = true
    ∧ outstanding s 0 < 256 ∧ Tab.get 0 s.ticketNext 0 < 0xFFF
    ∧ Issues (run 0 0) w0 (fs 3 1 2 9) 0x70 10 ∧ (issuedThread (run 0 0) w0).ledger = 0
    ∧ Issues (work 0 0) w0 (fs 3 1 2 9) 0x70 10 ∧ Issues (work 0 4097) w0 (fs 3 1 2 9) 0x70 10
    ∧ Issues s w0 (fs 3 1 2 8) 0x70 10 ∧ Issues s w0 (fs 3 1 2 12) 0x70 10
    ∧ Issues (streamIn .opened 4096) w0 (fs 3 1 2 9) 0x70 10 ∧ (streamIn .opened 4096).build.size.contexts ≤ 4096
    ∧ 0 < s.build.size.contexts := by
  simp only [issues_iff]; decide +kernel

/-- A posted entry of stream 0: its first 60 bytes 0 and their check. -/
def postBlock : List Byte := List.replicate 60 0 ++ toLE 4 (crc32c (List.replicate 60 0))

/-- The block with item 1 complete. -/
def settledItem : State := { work 0 0 with ledger := { busy.ledger with items := [{ item1 with complete := true }] } }

theorem witness_PostPayAndSettle :
    let s := holding 0 postBlock (work 0 0)
    let bs := scratchRead s 0 0 64
    journalOpen s = true ∧ Issues s w0 (fs 3 1 0 0) 0x50 250 ∧ leAt bs 60 4 = crc32c (bs.take 60) ∧ entryStream bs = 0
    ∧ replayedItem s bs = none ∧ (stream s 0).st = .opened
    ∧ Issues (work 0 0) w0 (fs 3 1 0 0) 0x50 250
    ∧ leAt (scratchRead (work 0 0) 0 0 64) 60 4 ≠ crc32c ((scratchRead (work 0 0) 0 0 64).take 60)
    ∧ Issues (work 0x40000 0) w0 (fs 3 1 0 0) 0x50 250 ∧ Issues (work 1 0) w0 (fs 3 1 0 0) 0x50 250
    ∧ Issues (work 0xFFFFFF 0) w0 (fs 3 1 0 0) 0x51 250 ∧ Issues (work 0 0) w0 (fs 3 1 0 0) 0x52 250
    ∧ item? (work 0 0) 1 = some item1 ∧ Issues settledItem w0 (fs 3 1 0 0) 0x52 250
    ∧ (item? settledItem 1).map Item.complete = some true ∧ Issues (withThread (th 0 0) busy) w0 (fs 3 1 0 0) 0x51 250
    ∧ Issues (withThread (th 0 0) busy) w0 (fs 3 1 0 0) 0x52 250 ∧ journalOpen settledItem = true
    ∧ (issuedThread (withThread (th 0 0) busy) w0).ledger = 0 := by
  simp only [issues_iff]; decide +kernel

theorem witness_GrammarInstructions :
    let s (g1 g2 : Word) : State := work g1 g2
    streamsUnknown (s 3 0) = false ∧ (stream (s 3 0) 0).notary.gen = true ∧ (stream (s 3 0) 0).st = .opened
    ∧ imageOf (s 3 0) 0 = some img ∧ notaryBusy (s 3 0) 0 = false ∧ Issues (s 3 0) w0 (fs 4 0 0 0) 0x60 5
    ∧ advanceWaits (s 3 0) 0 1 = false ∧ Issues (s 3 0) w0 (fs 4 1 0 0) 0x61 24 ∧ advanceStalls (s 3 0) 0 [3] = false
    ∧ inForce (s 3 0) 0 3 = true
    ∧ priceNow (s 3 0) 24 + ((extraBill (s 3 0) 0 [3]).map (fun b => unitPrice (s 3 0) b.1 * b.2)).sum
        ≤ (s 3 0).purse.balance
    ∧ (advanceReads (s 3 0) 0 [3]).banks = [] ∧ inForce (s 4 0) 0 4 = false ∧ advanceStalls (s 4 0) 0 [4] = false
    ∧ Issues (s 4 0) w0 (fs 4 1 0 0) 0x61 24 := by
  simp only [issues_iff]; decide +kernel

/-- A draft of 16 tokens at the end of scratch. -/
theorem witness_GrammarDrafts :
    let s := work 0x3FF80 16
    let ts := draftTokens s 0 0x3FF80 16
    let k := (scanDraft s 0 ts).1.length
    Issues s w0 (fs 4 1 2 0) 0x62 (24 * 16) ∧ 0x3FF80 + 64 + 4 * 16 ≤ 0x40000 ∧ draftUsed s 0 + 16 ≤ 16
    ∧ advanceStalls s 0 (ts.take k) = false ∧ storesIssued s = true ∧ (advanceReads s 0 (ts.take k)).banks = []
    ∧ priceNow s (24 * 16) + ((extraBill s 0 (ts.take k)).map (fun b => unitPrice s b.1 * b.2)).sum ≤ s.purse.balance := by
  simp only [issues_iff]; decide +kernel

theorem witness_ClerkControl :
    clkUp (work 0 0) 20 = true ∧ (0x02 : BitVec 8).getLsbD 1 = true ∧ clerkReady (work 0 0) 1 = true
    ∧ clerkRunning (work 0 0) 1 = false ∧ (0x01 : BitVec 8).getLsbD 0 = true ∧ (thread (work 0 0) w0).st = .running
    ∧ (thread (work 0 0) w0).wait ≠ .busy ∧ (0x02 : BitVec 8).getLsbD 0 = false
    ∧ (thread { work 0 0 with threads := [(0, { th 0 0 with st := .running, wait := .busy })] } w0).wait = .busy
    ∧ clerkReady (work 0 0) 0 = true ∧ (thread (work 0 0) ⟨0, 1⟩).st = .halted ∧ (withScope (work 0 0)).kcw.scopes % 2 = 1
    ∧ (thread { withScope (work 0 0) with threads := [(0, { th 0 0 with st := .debug })] } w0).st = .debug := by
  decide +kernel

theorem witness_TicketsComplete :
    let s := { ticketed false false 0x50000 with
      threads := [(0, { th 0x50000 0 with st := .running, wait := .retry (.waitt w0 (fs 3 1 0 0)) })] }
    let u := { s with tickets := [(5, { tick false false with lost := true, ledger := 1 })] }
    ticket? s 0 5 = some (tick false false) ∧ ticketEnds s 0 5 (tick false false) = true
    ∧ (thread s w0).wait = .retry (.waitt w0 (fs 3 1 0 0)) ∧ clerkReady s 0 = true
    ∧ ((thread s w0).reg 1).toNat / 2 ^ 16 % 4096 = 5
    ∧ ticket? u 0 5 = some { tick false false with lost := true, ledger := 1 }
    ∧ ticketEnds u 0 5 { tick false false with lost := true, ledger := 1 } = false := by decide +kernel

/-- No other thread of that state waits. -/
theorem witness_TicketsCompleteWaits (w : Who) (i : Instr)
    (h : (thread { ticketed false false 0x50000 with
      threads := [(0, { th 0x50000 0 with st := .running, wait := .retry (.waitt w0 (fs 3 1 0 0)) })] } w).wait = .retry i) :
    ∃ f, i = .waitt w f := by
  unfold thread at h
  simp only [Tab.get] at h
  split at h
  · have hw : w = w0 := by
      obtain ⟨c, t⟩ := w
      simp only [Who.key] at *
      simp only [w0, Who.mk.injEq]
      constructor <;> bv_omega
    cases h
    exact ⟨_, by rw [hw]⟩
  · cases h

/-- A purchase of one unit, one of two units, and of an instruction of a waiting thread, with and without the coins. -/
theorem witness_PurchaseThatIsServed :
    let bought (n bal : Nat) : State :=
      let s := withThread { th 5 7 with wait := .coins } up
      { s with purse := { s.purse with balance := bal, queue := [⟨0, [(2, n)], .command (.add w0 (fs 3 1 2 0))⟩] } }
    (∀ n ∈ [1, 2], (nextPurchase (bought n 2)).map Purchase.bill = some [(2, n)] ∧ clkUp (bought n 2) 22 = true
      ∧ unitPrice (bought n 2) 2 ≤ (bought n 2).purse.balance)
    ∧ (thread (bought 1 2) w0).wait = .coins ∧ (bought 1 1).purse.balance < unitPrice (bought 1 1) 2
    ∧ lambiopParts (.add w0 (fs 3 1 2 0)) = some (0x01, w0, fs 3 1 2 0) ∧ up.purse.queue = [] := by decide +kernel

/-! ### What meets the hypotheses of the statements: PURSE, the beat port, TELLER and the stations -/

theorem witness_PurseTickAndAllowance :
    let s := setReg R.PUR_TEL 1 { up with purse := { up.purse with periodTicks := 1 } }
    pdUp s 0 = true ∧ clkUp s 22 = true ∧ ([85] : List (BitVec 9)) ≠ [] ∧ clkUp s 20 = true
    ∧ s.build.size.floor ≤ 1000 ∧ 1000 ≤ reg s R.PUR_CEIL ∧ ¬ (s.build.size.floor ≤ 999)
    ∧ reg s R.PUR_TEL % 65536 ≠ 0 ∧ reg s R.PUR_TEL % 65536 ≤ s.purse.periodTicks ∧ dbgUp s = true
    ∧ s.queue2.entries.length + 3 ≤ 4096 ∧ reg s (qcfgKey 2) / 2 % 64 = 0 := by decide +kernel

/-- Thread w0 waiting in WAITB for a position, with the port thawed at position 5 or frozen. -/
def awaiting (g1 : Word) (frozen : Bool) : State :=
  { withThread { th g1 0 with wait := .retry (.waitb w0 (fs 3 1 0 0)) } busy with
    beat := { up.beat with frozen := frozen, pos := 5 } }

/-- Positions above, at and below the current one; WAITB for the position and for the one after it; values of the
configuration registers at their limits. -/
theorem witness_BeatPort :
    let s := awaiting 9 false
    clkUp s 21 = true ∧ clkUp s 1 = true ∧ clkUp s 20 = true ∧ s.beat.frozen = false
    ∧ s.beat.pos < (9 : BitVec 44).toNat ∧ s.beat.pos = (5 : BitVec 44).toNat ∧ (4 : BitVec 44).toNat < s.beat.pos
    ∧ (awaiting 9 true).beat.frozen = true ∧ clerkReady s 0 = true ∧ (thread s w0).st = .running
    ∧ (thread s w0).wait = .retry (.waitb w0 (fs 3 1 0 0)) ∧ (thread s w0).stepping = false
    ∧ (thread s w0).stopAfter = false ∧ ((thread s w0).reg 1).toNat ≤ 9
    ∧ (9 : BitVec 44).toNat < ((thread (awaiting 10 false) w0).reg 1).toNat
    ∧ ((thread (awaiting 10 false) w0).reg 1).toNat < 2 ^ 44
    ∧ (0xEF : Word32).toNat % 16 = 15 ∧ (0xEF : Word32).toNat / 16 % 16 = 14 ∧ (0xFF : Word32).toNat / 16 % 16 = 15
    ∧ (BitVec.ofNat 16 R.DAY_CFG).toNat = R.DAY_CFG ∧ (0xC00 : Word32).toNat / 256 % 16 ≤ 12
    ∧ 12 < (0xD00 : Word32).toNat / 256 % 16 ∧ (BitVec.ofNat 16 R.DAY_BASE_LO).toNat = R.DAY_BASE_LO
    ∧ (BitVec.ofNat 16 R.DAY_BASE_HI).toNat = R.DAY_BASE_HI := by decide +kernel

/-- A chunk of SFEED for stream 0: eight bytes at hand. -/
def chunk0 (stream len : Nat) : Chunk :=
  { source := 9, stream := stream, len := len, textEnd := false, eos := false, reissue := false, badHeader := false,
    badWords := false, tag := 0, clerk := 0, place := .bytes (List.replicate len 0x61), settle := 0, route := none,
    step := 0, slot := 0, own := none, read := none, words := 0, no := 1, paid := false, whileHeld := false }

/-- The lane header of eight bytes for stream 0. -/
def laneHeader : Word := BitVec.ofNat 64 (8 * 2 ^ 16)

/-- The block at work with stream 0 of a legal intake route, and a chunk in front of TELLER's queue. -/
def fed (q : List Chunk) : State :=
  { setReg R.TEL_CTRL 1 busy with
    issueNo := 1
    teller := { busy.teller with queue := q }
    streams := [(0, { Stream.initial with st := .opened, intake := 0x984321, outLog2 := 12 })] }

theorem witness_TellerTakesLaneChunks :
    let s := fed []
    let c : Chunk := { laneChunkOf 0 laneHeader [0] with no := s.issueNo + 1, whileHeld := false }
    let v := { s with issueNo := s.issueNo + 1 }
    laneReady s 0 1 = true ∧ laneBuf s 0 = [] ∧ chunkTurn v c = true ∧ answerTurn v 0 = true
    ∧ s.purse.queue = [] ∧ clkUp s 22 = true ∧ priceNow s 250 ≤ s.purse.balance ∧ c.place = .bytes (List.replicate 8 0)
    ∧ policyOf s (stream s c.stream).tenant ≠ .strict ∧ checkChunk s c = none ∧ c.len = 8 ∧ c.stream = 0
    ∧ checkChunk s { laneChunkOf 0 laneHeader [] with no := s.issueNo + 1 } = some (0x20, true)
    ∧ laneReady s 0 0 = true ∧ ((stream s 0).st = .opened) := by decide +kernel

theorem witness_TellerTakesQueuedChunks :
    let s := fed [chunk0 0 8]
    s.teller.queue = chunk0 0 8 :: [] ∧ s.teller.lanes = [] ∧ chunkTurn s (chunk0 0 8) = true
    ∧ checkChunk s (chunk0 0 8) = none ∧ checkChunk (fed [chunk0 1 8]) (chunk0 1 8) = some (0x70, false)
    ∧ chunkTurn (fed [chunk0 1 8]) (chunk0 1 8) = true := by decide +kernel

/-- A stream HELD by TELLER; a FLOW that waits for room in front of NOTARY; a page fetch whose entry waits for room. -/
theorem witness_TellerWaits :
    let s : State := { busy with streams := [(0, { Stream.initial with st := .held, heldAt := 1 })] }
    let i : Instr := .flow w0 (fs 3 1 0 0)
    let u := pdata (holding 0 (flowBlock 0x987 64) { work 0 0 with threads :=
      [(0, { th 0 0 with st := .running, wait := .retry i, ledger := 1 })] })
    let e : List Byte := toLE 8 (16 * 2 ^ 20) ++ List.replicate 56 0
    let d : State := { busy with day := { busy.day with fetches := [⟨0, 0, 1, 0, some e, false, true⟩] } }
    clkUp s 20 = true ∧ stationUp s 1 = true ∧ (stream s 0).st = .held ∧ (stream s 0).heldAt = 1
    ∧ roomWaiters u 7 = [i] ∧ clkUp d 1 = true ∧ fetchOf d 0 = some ⟨0, 0, 1, 0, some e, false, true⟩
    ∧ (entryQueue d 0).length < 512 := by decide +kernel

/-- A tile of stream 0's item 1. -/
def tile0 (k : Kind) (route : Nat) (payload : List Byte) : Tile :=
  { kind := k, stream := 0, tenant := 0, payload := payload, marks := [], runs := [], pieces := [], last := true,
    textEnd := true, eos := false, replay := false, tseq := 0, ledger := 1, settle := 0, origin := 0, ticket := 0xFFF,
    route := route, check := crc32c payload, status := 0, flags := 0 }

/-- The block at work with a tile in front of a hop. -/
def tileAt (h : Nat) (t : Tile) : State := { busy with hops := [(h, [t])] }

theorem witness_AssayWorksATile :
    let t := tile0 .text (0x984321 + 2 ^ 28) [0x61, 0x62]
    let s := tileAt 2 t
    takeable s 2 0 = some t ∧ t.advance.nextHop ≠ 2 ∧ imageOf s 0 = some img ∧ buildingAt s 0 2 1 = none
    ∧ s.purse.queue = [] ∧ clkUp s 22 = true
    ∧ ((assayBill t).map (fun b => unitPrice s b.1 * b.2)).sum ≤ s.purse.balance
    ∧ (assayText img (stream s 0).assay t.payload true).out = [0x61, 0x62] := by decide +kernel

theorem witness_SorterWorksATile :
    let t := tile0 .text (0x984321 + 2 * 2 ^ 28) [0x61, 0x62]
    let s := tileAt 3 t
    takeable s 3 0 = some t ∧ t.advance.nextHop ≠ 3 ∧ (tenant s 0).now = some resident ∧ buildingAt s 0 3 1 = none
    ∧ ((sorterBill s t).map (fun b => unitPrice s b.1 * b.2)).sum ≤ s.purse.balance
    ∧ ((sortText s 0 (img, 1) (stream s 0).sorter t).pieces.map Prod.snd).flatten = [0x61, 0x62] := by decide +kernel

theorem witness_MintWorksATile :
    let p : Piece := ⟨2, false, false, false, true, 0, 1⟩
    let t := { tile0 .text (0x984321 + 3 * 2 ^ 28) [0x61, 0x62] with pieces := [p] }
    let s := setReg R.VLT_CTRL 0 (tileAt 4 t)
    let x := mintRun s t []
    (reg s R.VLT_CTRL).testBit 0 = false ∧ s.prefetch = [] ∧ takeable s 4 0 = some t ∧ t.advance.nextHop ≠ 4 ∧ noImage s t = false ∧ mintStalls s t = false
    ∧ buildingAt s 0 4 1 = none ∧ ((mintBill s t).map (fun b => unitPrice s b.1 * b.2)).sum ≤ s.purse.balance
    ∧ x.reads.ovf = [] ∧ x.words ≠ [] ∧ x.words.length ≤ 1024 := by decide +kernel

/-- With the lookups ahead off, as in that state, `prefetchQueued` does nothing. -/
theorem witness_NothingReadAhead (s : State) (h : (reg s R.VLT_CTRL).testBit 0 = false) (hp : s.prefetch = []) :
    prefetchQueued s = s := by
  have e : { s with prefetch := s.prefetch.filter (fun f => (queueAt s Hop.MINT).any f.of) } = s := by rw [hp]; exact (congrArg (fun p => { s with prefetch := p }) hp.symm)
  have hb : bit (reg s R.VLT_CTRL) 0 = false := h
  unfold prefetchQueued
  simp only [e, hb, Bool.false_and, Bool.false_eq_true, if_false]

theorem witness_ExchangeWorksATile :
    let t := tile0 .token 0x987 (toLE 4 3)
    let s := tileAt 7 t
    let r := (tileTokensOut t).foldl (feedToken img) (ExcRun.start (stream s 0).escrow)
    takeable s 7 0 = some t ∧ t.advance.nextHop ≠ 7 ∧ imageOf s 0 = some img ∧ excReady s t = true
    ∧ (stream s 0).escrow.stopped = false ∧ excRefusal s t = none ∧ buildingAt s 0 7 1 = none ∧ reportPending s t = false
    ∧ ((excBill s t).map (fun b => unitPrice s b.1 * b.2)).sum ≤ s.purse.balance
    ∧ (if r.hit.isNone then resolveHold img r else r).hit = none
    ∧ (if r.hit.isNone then resolveHold img r else r).out.length ≤ 4096 := by decide +kernel

/-- The block at work with a tile in front of NOTARY and stream 0's grammar finished or going on. -/
def notaryAt (fin : Bool) (cs : List Commit) (t : Tile) : State :=
  let y := { NotaryCtx.empty with gen := true, cfg := { forced with finished := fin }, commits := cs, offered := [3] }
  { tileAt 5 t with streams := [(0, { Stream.initial with st := .opened, notary := y })] }

theorem witness_NotaryFillsADecisionTile :
    let t := tile0 .decision 0x9865 (List.replicate 64 0)
    let s := notaryAt false [] t
    takeable s 5 0 = some t ∧ t.advance.nextHop ≠ 5 ∧ (stream s 0).notary.gen = true ∧ (stream s 0).notary.cfg.over = false
    ∧ notaryBusy s 0 = false ∧ commitWaits s 0 t = false ∧ visits t 6 = true
    ∧ takeable (notaryAt true [] t) 5 0 = some t ∧ (stream (notaryAt true [] t) 0).notary.cfg.over = true
    ∧ (stream s 0).st = .opened := by decide +kernel

theorem witness_NotaryTakesATokenTile :
    let t (k : Nat) := tile0 .token 0xB85 (toLE 4 k)
    let s (k : Nat) := notaryAt false [] (t k)
    takeable (s 3) 5 0 = some (t 3) ∧ tokenTileWaits (s 3) 0 (t 3) = false
    ∧ ((tokenTileBill (s 3) 0 (t 3)).map (fun b => unitPrice (s 3) b.1 * b.2)).sum ≤ (s 3).purse.balance
    ∧ tokenTileRefusal (s 3) 0 (t 3) = none ∧ (t 3).advance.nextHop ≠ 5 ∧ takeable (s 4) 5 0 = some (t 4)
    ∧ tokenTileWaits (s 4) 0 (t 4) = false ∧ (tokenTileRefusal (s 4) 0 (t 4)).isSome = true
    ∧ ((tokenTileBill (s 4) 0 (t 4)).map (fun b => unitPrice (s 4) b.1 * b.2)).sum ≤ (s 4).purse.balance := by
  decide +kernel

theorem witness_NotaryAdvancesAndRunsAhead :
    let c : Commit := ⟨1, 0, 0xFFF, 3⟩
    let s := setReg R.NOT_CTRL 1 (notaryAt false [c] (tile0 .decision 0x9865 (List.replicate 64 0)))
    (stream s 0).notary.commits = c :: [] ∧ stationUp s 5 = true ∧ advanceWaits s 0 1 = false ∧ resolving s 0 = false
    ∧ advanceStalls s 0 [3] = false ∧ imageOf s (stream s 0).tenant = some img
    ∧ ((commitBill s 0 c).map (fun b => unitPrice s b.1 * b.2)).sum ≤ s.purse.balance ∧ s.purse.queue = []
    ∧ canResolve s 0 3 = true ∧ readingAhead s 0 3 = false ∧ unitPrice s 3 * 1 ≤ s.purse.balance := by decide +kernel

/-- Descriptors: MODE 0, K 1, FMT 1, ROWLEN 16, dense; of the thin path with its area at 64; with K 0. -/
def desc (word0 aux : Nat) : List Byte :=
  toLE 8 word0 ++ toLE 8 0x3F800000 ++ toLE 8 0 ++ toLE 8 aux ++ List.replicate 16 0 ++ maskWords MaskFields.open

/-- A decision tile of those. -/
def decision0 (word0 aux : Nat) : Tile := tile0 .decision (0x9865 + 2 ^ 28) (desc word0 aux)

/-- Word 0 of a descriptor that is good. -/
def good : Nat := 1 * 4 + 1 * 512 + 16 * 65536

theorem witness_ClearingTakesADescriptor :
    let t := decision0 good 0
    let s := tileAt 6 t
    let c := clearTile t (stream s 0).notary.cfg
    let t2 := decision0 (good + 8192) 64
    let s2 := tileAt 6 t2
    let c2 := clearTile t2 (stream s2 0).notary.cfg
    takeable s 6 0 = some t ∧ t.kind = .decision ∧ descRefusal (stream s 0) t.hopAfter c.desc = none ∧ t.status ≠ 0x10
    ∧ withheldBefore s t = none ∧ marked s 0 c.step .lost = false ∧ graceOver s t.settle = false ∧ clearTile? s 0 = none
    ∧ c.desc.thin = false
    ∧ freePages { s with clear := { s.clear with tiles := [{ c with tile := { t with stream := 9 }, pages := 8192 }] } }
      < max 1 c.desc.drafts * pagesOf (((imageOf s 0).map TokImage.vocab).getD 0)
    ∧ takeable s2 6 0 = some t2 ∧ descRefusal (stream s2 0) t2.hopAfter c2.desc = none ∧ c2.desc.thin = true
    ∧ settleTaken s2 t2.settle = false ∧ t2.replay = false
    ∧ descRefusal (stream s 0) t.hopAfter (clearTile (decision0 (good - 4) 0) Cfg.empty).desc = some 0x70 := by decide +kernel

/-- The block with a tile at CLEARING whose settlement has been taken, the grace of BEAT_GRACE 2 over. -/
def clearing (t : Tile) (f : ClearTile → ClearTile) : State :=
  { setReg R.BEAT_GRACE 2 busy with
    beat := { busy.beat with taken := [(4, true), (3, true), (2, true), (1, true)] }
    clear := { busy.clear with tiles := [f (clearTile t Cfg.empty)] } }

/-- A logit row of stream 0's step 0 with 16 elements of FMT 1: one beat. -/
def rowHeader (step : Nat) : Word := BitVec.ofNat 64 (step * 2 ^ 12)

theorem witness_ClearingTakesRowsAndPages :
    let t := decision0 good 0
    let w := clearing t (fun c => { c with pageWait := true })
    let s := clearing t id
    let row (step beats : Nat) : Row := ⟨0, step, 0, false, [], beats, 0, false⟩
    clearTile? w 0 = some { clearTile t Cfg.empty with pageWait := true } ∧ stationUp w 6 = true
    ∧ (clearTile t Cfg.empty).desc.drafts = 0 ∧ hasRows w 0 0 = false ∧ earlyDraft w 0 (clearTile t Cfg.empty) = false
    ∧ pagesOf (((imageOf w 0).map TokImage.vocab).getD 0) ≤ freePages w
    ∧ logitUp s = true ∧ portBusy s = false
    ∧ rowAgain { s with clear := { s.clear with seen := [(0, 0, 0)] } } (row 0 1) = true
    ∧ rowAgain s (row 5 1) = false ∧ matchTile s (row 5 1) = none ∧ marked s 0 5 .lost = false
    ∧ marked s 0 5 .refused = false ∧ stepFinished s 0 5 = false ∧ graceOver s (logitsOf s 5) = false
    ∧ (row 5 1).beats ≤ freeHold s ∧ (row 5 (freeHold s)).beats ≤ freeHold s
    ∧ rowAgain s (row 0 2) = false ∧ matchTile s (row 0 2) = some (clearTile t Cfg.empty)
    ∧ (2 ≠ rowBeats 1 16) := by decide +kernel

/-- A row of one beat whose mask is there, of a tile of MODE 0 and of one of MODE 1 with its list at the start of the
output region. -/
theorem witness_ClearingSelectsFromARow :
    ∀ m ∈ [0, 1],
      let c : ClearTile := { clearTile (decision0 (good + m) 0) Cfg.empty with masks := [(0, 0xFFFF)] }
      let s := clearing c.tile (fun _ => c)
      let r : Row := ⟨0, 0, 0, false, List.replicate 32 0, 1, 0, false⟩
      logitUp s = true ∧ portBusy s = false ∧ rowAgain s r = false ∧ matchTile s r = some c ∧ clearTile? s 0 = some c
      ∧ (∀ x ∈ s.clear.tiles, x = c) ∧ r.beats = rowBeats c.desc.fmt c.desc.rowlen ∧ r.bad = false ∧ c.desc.drafts = 0
      ∧ c.done = [] ∧ c.maskAt 0 = some 0xFFFF ∧ s.purse.queue = [] ∧ clkUp s 22 = true
      ∧ ((rowBill c.desc).map (fun b => unitPrice s b.1 * b.2)).sum ≤ s.purse.balance ∧ c.desc.mode = m ∧ 0 < c.desc.k
      ∧ (stream s 0).notary.gen = true := by decide +kernel

/-- Of 16 equal entries the first is selected (R275, R286). -/
theorem test_first_of_equals :
    ((selectDense (clearTile (decision0 good 0) Cfg.empty).desc 0 0 0xFFFE (List.replicate 32 0)).sel.map Cand.idx) = [1] := by
  simp only [selectDense, pick, ranked]
  rw [List.mergeSort_of_pairwise (by decide +kernel)]
  decide +kernel

theorem witness_ClearingEndsTheGrace :
    let t := decision0 good 0
    let t2 := decision0 (good + 8192) 64
    let c2 := clearTile t2 Cfg.empty
    clearTile? (clearing t id) 0 = some (clearTile t Cfg.empty) ∧ t.replay = false
    ∧ graceOver (clearing t id) t.settle = true ∧ (clearTile t Cfg.empty).desc.thin = false
    ∧ (clearTile t Cfg.empty).ready = false ∧ clearTile? (clearing t2 id) 0 = some c2 ∧ c2.desc.thin = true
    ∧ graceOver (clearing t2 id) t2.settle = true ∧ item? (clearing t id) 1 = some item1 ∧ item1.completing = false
    ∧ item1.complete = false ∧ item1.deep = false := by decide +kernel

/-! ### What meets the hypotheses of the statements: the LEDGER, the ports, the memory stacks, the queues -/

theorem witness_OutputLeavesTheLedger :
    let t := tile0 .text (0x987 + 2 ^ 28) [0x61]
    let s := tileAt 8 t
    takeable s 8 0 = some t ∧ hopWaits s t = false ∧ t.replay = false ∧ t.hopAfter = 9 ∧ item? s t.ledger = some item1
    ∧ item1.dropped = false ∧ (stream s t.stream).muted = false := by decide +kernel

/-- A record of two payload beats in front of egress port 0, which its receiver holds ready, or one under way. -/
def egressing (cur : Option Record) : State :=
  setReg R.EXC_CTRL 1 { tileAt 9 (tile0 .text (0x987 + 2 * 2 ^ 28) (List.replicate 33 0)) with
    egress0 := { EgressState.idle with ready := true, cur := cur } }

theorem witness_OutputLeavesAPort :
    let s := egressing none
    let r : Record := ⟨tile0 .text 0x987 (List.replicate 33 0), 2, 1⟩
    (queueAt s 9).length = 1 ∧ egressUp s 0 = true ∧ (reg s R.EXC_CTRL).testBit 0 = true ∧ (egress s 0).ready = true
    ∧ (egress s 0).cur = none ∧ (33 + 31) / 32 ≤ (2 : BitVec 10).toNat ∧ (1 : BitVec 10).toNat < (33 + 31) / 32
    ∧ (egress (egressing (some r)) 0).cur = some r ∧ egressUp (egressing (some r)) 0 = true
    ∧ r.beats ≤ r.passed + (1 : BitVec 10).toNat ∧ r.passed + (0 : BitVec 10).toNat < r.beats := by decide +kernel

theorem witness_OutputLeavesEscrow :
    let t := tile0 .text (0x9876 + 2 ^ 28) [0x61]
    let y (e : Option Nat) := { Stream.initial with
      st := .opened, escrow := { EscrowCtx.empty with await := [t] }, notary := { NotaryCtx.empty with ended := e } }
    let s (e : Option Nat) : State := { busy with streams := [(0, y e)] }
    (stream (s none) 0).escrow.await = t :: [] ∧ reportPending (s none) t = false ∧ stationUp (s none) 7 = true
    ∧ imageOf (s none) 0 = some img ∧ reportPending (s (some 1)) t = false ∧ (stream (s (some 1)) 0).notary.ended = some 1
    ∧ (resolveHold img (ExcRun.start (stream (s (some 1)) 0).escrow)).hit = none
    ∧ (t.payload ++ (resolveHold img (ExcRun.start (stream (s (some 1)) 0).escrow)).out).length ≤ 4096 := by decide +kernel

/-- An access of one line at an address, in a state of its own. -/
def access0 (kind : ReqKind) (st : LineState) : Access :=
  { ident := 0, kind := kind, req := 4, lines := [⟨0, 0, 0, 0, [], 0, st⟩], paid := true, job := .topk (tile0 .text 0 []) 0 }

/-- The block with that access. -/
def accessing (kind : ReqKind) (st : LineState) : State := { up with accesses := [access0 kind st], nextAccess := 1 }

theorem witness_StackResponses :
    let s := accessing .read .out
    let b := accessing .write .backoff
    let d : State := { up with power := { up.power with linkDown := [0] } }
    portUp s 0 = true ∧ clkUp s 5 = true ∧ s.accesses = [access0 .read .out] ∧ (access0 .read .out).paid = true
    ∧ (∃ l ∈ (access0 .read .out).lines, l.port = 0 ∧ l.tag = 0 ∧ l.st = .out) ∧ up.accesses = []
    ∧ b.accesses = [access0 .write .backoff] ∧ (access0 .write .backoff).lines = [⟨0, 0, 0, 0, [], 0, .backoff⟩]
    ∧ lineHeld b [] [] (access0 .write .backoff) ⟨0, 0, 0, 0, [], 0, .backoff⟩ = false ∧ portUp d 0 = false
    ∧ pdUp s 0 = true ∧ 0 ∉ s.power.linkDown ∧ 7 < memPorts s.build.size
    ∧ (∀ a ∈ s.accesses, a.job.toMirrors = false) := by decide +kernel

/-- The block with activities that run. -/
def acting (acts : List Activity) (s : State) : State := { s with reserve := { s.reserve with acts := acts } }

theorem witness_QuiesceAndStackConfig :
    let q : Activity := ⟨7, 0, 0⟩
    let d := { acting [q] up with reserve := { (acting [q] up).reserve with quiesce := 1 } }
    clkUp up 20 = true ∧ holder up (quiesceAct up) = none ∧ holder (acting [q] up) (quiesceAct up) = some q
    ∧ d.reserve.quiesce = 1 ∧ d.accesses = []
    ∧ (∃ a ∈ (accessing .read .out).accesses, ∃ l ∈ a.lines, l.loc % 16 = reg d R.STK_QCHAN % 16
        ∧ l.loc / 2 ^ 9 % 16 = reg d R.STK_QCHAN / 2 ^ 4 % 16 ∧ l.st = .out)
    ∧ d.reserve.acts.find? (fun a => decide (a.code = 7)) = some q ∧ d.reserve.waits = []
    ∧ isStkConfig 0 = false ∧ isStkConfig R.STK_GEOM = true ∧ stackSettable up = true ∧ stackSettable busy = false
    ∧ (BitVec.ofNat 16 R.STK_GEOM).toNat = R.STK_GEOM ∧ (BitVec.ofNat 16 R.STK_HASH_LO).toNat = R.STK_HASH_LO
    ∧ (BitVec.ofNat 16 R.STK_HASH_HI).toNat = R.STK_HASH_HI ∧ (BitVec.ofNat 16 R.STK_RBASE_LO).toNat = R.STK_RBASE_LO
    ∧ (BitVec.ofNat 16 R.STK_RBASE_HI).toNat = R.STK_RBASE_HI ∧ (BitVec.ofNat 16 R.STK_RSIZE).toNat = R.STK_RSIZE
    ∧ (33 + 12 * 64) % 64 = 33 ∧ (44 + 22 * 64) / 64 % 32 = 22 ∧ (45 + 12 * 64) % 64 = 45 ∧ up.kcw.hashLock = false
    ∧ reg up R.STK_HSEL % 16 ≤ 8 ∧ reg (setReg R.STK_HSEL 9 up) R.STK_HSEL % 16 = 9
    ∧ regionMin (setReg R.STK_RSEL 5 up) (reg (setReg R.STK_RSEL 5 up) R.STK_RSEL % 8) = 1024 := by decide +kernel

/-- The block at work with entries in queue 1 and items of stream 0. -/
def settling (n : Nat) (is : List Item) : State :=
  { busy with ledger := { busy.ledger with items := is }, queue1 := { Queue.empty with entries := [(false, n)] } }

theorem witness_Settlement :
    let done : Item := { item1 with complete := true }
    let s := settling 1 [done]
    s.queue1.entries = (false, 1) :: [] ∧ ledgerUp s = true ∧ s.ledger.ready = true ∧ settlementWaits s 1 = false
    ∧ s.ledger.items.find? (fun i => i.ledger == 1 && !i.settled) = some done ∧ 1 < s.ledger.next
    ∧ (∀ j ∈ settledBy s 0 1, j.complete = true) ∧ settledBy s 0 1 = [done]
    ∧ settlementWaits (settling 1 [{ item1 with completing := true }]) 1 = true
    ∧ settlementWaits (settling 1 [item1]) 1 = false ∧ (∃ j ∈ settledBy (settling 1 [item1]) 0 1, j.complete = false)
    ∧ (settling 0 []).queue1.entries = (false, 0) :: [] ∧ (settling 2 []).ledger.next ≤ 2
    ∧ settlementWaits (settling 1 []) 1 = false
    ∧ (settling 1 []).ledger.items.find? (fun i => i.ledger == 1 && !i.settled) = none := by decide +kernel

theorem witness_Queues :
    let p : State := { busy with ledger := { busy.ledger with packets := [(5, 1)] } }
    let e (q : Nat) : State := setQueueN q [(true, 5)] (setReg R.LDG_QSEL q busy)
    let f : State := { busy with queue1 := { Queue.empty with entries := List.replicate 1024 (false, 1) } }
    let tr := setReg R.DBG_CTRL 2 (e 3)
    p.ledger.packets = (5, 1) :: [] ∧ ledgerUp p = true ∧ p.queue0.entries.length + 2 ≤ 8192 ∧ clkUp p 20 = true
    ∧ busy.queue1.entries.length < 1024 ∧ 1024 ≤ f.queue1.entries.length ∧ (reg f R.LDG_ERR_LO).testBit 31 = false
    ∧ queueUp (e 0) 0 = true ∧ reg (e 0) R.LDG_QSEL % 4 = 0 ∧ frontUnwritten (e 0) 0 = false ∧ queueN (e 0) 0 = (true, 5) :: []
    ∧ queueUp (e 3) 3 = true ∧ reg (e 3) R.LDG_QSEL % 4 = 3 ∧ queueN (e 3) 3 = (true, 5) :: []
    ∧ (reg (e 3) R.DBG_CTRL).testBit 1 = false ∧ queueN busy 0 = [] ∧ queueUp busy 0 = true
    ∧ (0x81 : Word32).toNat.testBit 0 = true ∧ (0x80 : Word32).toNat.testBit 7 = true
    ∧ (0x80 : Word32).toNat.testBit 0 = false ∧ reg (setReg R.LDG_QSEL 2 busy) R.LDG_QSEL % 4 = 2
    ∧ dbgUp tr = true ∧ (reg tr R.DBG_CTRL).testBit 1 = true ∧ tr.queue3.entries = (true, 5) :: []
    ∧ frontUnwritten tr 3 = false ∧ (e 0).queue0.entries ≠ [] := by decide +kernel

/-- A block whose mirrors are placed apart, with EN clear. -/
def mirrors : State :=
  setReg R.LDG_M1BASE_HI 0x20 { up with ledger := { LedgerState.closed with placed0 := true, placed1 := true } }

theorem witness_JournalOpens :
    clkUp mirrors 20 = true ∧ (1 : Word32).toNat.testBit 0 = true ∧ (3 : Word32).toNat.testBit 1 = true
    ∧ (reg mirrors R.LDG_CTRL).testBit 0 = false ∧ mirrors.boot.phase = 6 ∧ crippledNow mirrors = false
    ∧ journalBad mirrors = false ∧ ledgerUp mirrors = true
    ∧ journalBad (setReg R.LDG_SIZE 0 mirrors) = true ∧ State.reset.boot.phase ≠ 6 ∧ clkUp State.reset 20 = true
    ∧ (0 : Word32).toNat.testBit 0 = false ∧ (∃ i ∈ busy.ledger.items, i.settled = false)
    ∧ (reg (setReg R.LDG_CTRL 1 mirrors) R.LDG_CTRL).testBit 0 = true ∧ mirrors.ledger.items = [] := by decide +kernel

theorem witness_JournalCarries :
    let r : State := { mirrors with ledger := { mirrors.ledger with replaying := true } }
    let s := setReg R.LDG_CTRL 1 mirrors
    ledgerUp r = true ∧ r.ledger.replaying = true ∧ replayBusy r = false ∧ ledgerUp s = true ∧ s.ledger.replaying = false
    ∧ (reg s R.LDG_CTRL).testBit 0 = true ∧ ringLow s = false ∧ textLow s = false := by decide +kernel

/-! ### What meets the hypotheses of the statements: keyed commands -/

/-- The command window with an opcode of Table 12.1, its counter 1, its operand words (32 bits each) and a tag; a key in
its slot and the epoch 7. -/
def window (op : Nat) (ops : List Nat) (lo hi : Word32) (s : State) : State :=
  let f := (keyedForm op).getD (0, 0)
  { s with
    regs := (R.KCW_TAG_LO, lo) :: (R.KCW_TAG_HI, hi) :: (R.KCW_CMD, BitVec.ofNat 32 (op + f.1 * 2 ^ 8 + f.2 * 2 ^ 16))
      :: (R.KCW_CTR_LO, 1) :: ops.mapIdx (fun i v => (R.KCW_OPND0 + 4 * i, BitVec.ofNat 32 v))
    kcw := { s.kcw with keys := [(f.1, some 5)], epoch := some 7 } }

/-- The tag that authenticates that command. -/
def goodTag (op : Nat) (ops : List Nat) (s : State) : List Byte :=
  let u := window op ops 0 0 s
  cmacTag (keyBytes 5) (keyedMessage u (windowRun u) 7)

/-- The window with a command and its right tag. -/
def keyed (op : Nat) (ops : List Nat) (s : State) : State :=
  window op ops (BitVec.ofNat 32 (ofLE ((goodTag op ops s).take 4))) (BitVec.ofNat 32 (ofLE ((goodTag op ops s).drop 4))) s

theorem keyBytes_length (k : BitVec 128) : (keyBytes k).length = 16 := rfl

theorem window_reg (op : Nat) (ops : List Nat) (lo hi : Word32) (s : State) (off : Nat) (h1 : off ≠ R.KCW_TAG_LO)
    (h2 : off ≠ R.KCW_TAG_HI) : reg (window op ops lo hi s) off = reg (window op ops 0 0 s) off := by
  unfold reg window
  simp only [Tab.get, if_neg h1, if_neg h2]

theorem window_ops (op : Nat) (ops : List Nat) (lo hi : Word32) (s : State) :
    operandBytes (window op ops lo hi s) = operandBytes (window op ops 0 0 s) := rfl

/-- The command of `keyed` carries the right tag, whatever the key stream is. -/
theorem keyed_tag (op : Nat) (ops : List Nat) (s : State) :
    cmacTag (keyBytes 5) (keyedMessage (keyed op ops s) (windowRun (keyed op ops s)) 7)
      = (windowRun (keyed op ops s)).tag := by
  have hl : (goodTag op ops s).length = 8 := cmacTag_length _ _ (keyBytes_length 5)
  have ht : (windowRun (keyed op ops s)).tag = goodTag op ops s := by
    have e : (windowRun (keyed op ops s)).tag
        = toLE 4 (BitVec.ofNat 32 (ofLE ((goodTag op ops s).take 4))).toNat
          ++ toLE 4 (BitVec.ofNat 32 (ofLE ((goodTag op ops s).drop 4))).toNat := rfl
    rw [e, toLE_four _ (by simp [hl]), toLE_four _ (by simp [hl]), List.take_append_drop]
  rw [ht]
  unfold goodTag keyedMessage windowRun keyed
  simp only [window_ops op ops _ _ s, window_reg op ops _ _ s R.KCW_CMD (by decide) (by decide),
    window_reg op ops _ _ s R.KCW_CTR_LO (by decide) (by decide),
    window_reg op ops _ _ s R.KCW_CTR_HI (by decide) (by decide)]
  rfl

/-- What every keyed command of the statement meets but for its tag. -/
def commandReady (s : State) : Bool :=
  clkUp s 20 && clkUp s 24 && decide (s.boot.phase = 6) && decide (s.kcw.run = none) && formGood (windowRun s)
    && !Tab.get false s.kcw.backoff (windowRun s).slot && decide (s.kcw.epoch = some 7)
    && decide (slotKey s (windowRun s).slot = some 5) && decide (slotMark s (windowRun s).slot < (windowRun s).counter)
    && !s.ledger.ready

/-- SET_CEILING of the floor, of the greatest ceiling, of one below and one above; and with the journal ready. -/
theorem witness_KeyedCeiling :
    let s (w : Nat) : State := keyed 2 [w] up
    let j := keyed 2 [1000] busy
    (∀ w ∈ [1000, 40000, 999, 40001], commandReady (s w) = true ∧ (windowRun (s w)).opcode = 2
      ∧ operandWord (windowRun (s w)) 0 = w)
    ∧ up.build.size.floor = 1000 ∧ up.build.size.ceilMax = 40000 ∧ 40000 < 2 ^ 16
    ∧ j.ledger.ready = true ∧ formGood (windowRun j) = true ∧ slotMark j 0 < (windowRun j).counter
    ∧ (keyed 6 [1] busy).ledger.ready = true ∧ (windowRun (keyed 6 [1] busy)).opcode = 6 := by decide +kernel

/-- SET_HASH of the largest number in range and of 2^378; DEBUG_UNLOCK of 1, 7, 0 and 8. -/
theorem witness_KeyedHashAndScopes :
    let h (x : Nat) : State := keyed 4 (List.replicate 11 0xFFFFFFFF ++ [x]) up
    let d (w : Nat) : State := keyed 6 [w] up
    commandReady (h 0x03FFFFFF) = true ∧ (windowRun (h 0x03FFFFFF)).opcode = 4 ∧ stackSettable (h 0x03FFFFFF) = true
    ∧ ofLE ((windowRun (h 0x03FFFFFF)).ops.take 48) = 2 ^ 378 - 1 ∧ commandReady (h 0x04000000) = true
    ∧ 2 ^ 378 ≤ ofLE ((windowRun (h 0x04000000)).ops.take 48)
    ∧ (∀ w ∈ [1, 7, 0, 8], commandReady (d w) = true ∧ (windowRun (d w)).opcode = 6
        ∧ operandWord (windowRun (d w)) 0 = w) := by decide +kernel

/-- LOAD_IMAGE of an 8-byte program for CLERK 0, and one of length 0; ZEROISE; a REPAIR of ACTION 0 and of ACTION 5. -/
theorem witness_KeyedLoadAndZeroise :
    let l (n : Nat) : State := keyed 1 [2 ^ 8, 0, 0, 0, n] up
    commandReady (l 8) = true ∧ (windowRun (l 8)).opcode = 1 ∧ loadRefusal (l 8) (readLoad (windowRun (l 8))) = none
    ∧ holder (l 8) (loadActivity (readLoad (windowRun (l 8)))) = none ∧ (l 8).purse.queue = [] ∧ clkUp (l 8) 22 = true
    ∧ unitPrice (l 8) 10 * ((8 + 63) / 64) ≤ (l 8).purse.balance ∧ commandReady (l 0) = true
    ∧ loadRefusal (l 0) (readLoad (windowRun (l 0))) = some 0x70
    ∧ commandReady (keyed 5 [] up) = true ∧ (windowRun (keyed 5 [] up)).opcode = 5
    ∧ (∀ a ∈ [0, 5], commandReady (keyed 3 [a] up) = true ∧ (windowRun (keyed 3 [a] up)).opcode = 3
        ∧ (readRepair (operandWord (windowRun (keyed 3 [a] up)) 0)).action = a) := by decide +kernel

/-- What a REPAIR that Table 14.6 admits meets. -/
def repairGood (s : State) : Bool :=
  let w := operandWord (windowRun s) 0
  let p := readRepair w
  commandReady s && decide ((windowRun s).opcode = 3) && repairForm w && repairRange s p
    && (repairHolder s p).isNone && !repairBarred s p && decide (s.reserve.map.length < 4088)

/-- Row 0 of macro 0 of VAULT; bank 0 retired and restored; a CLEARING lane restored; step 1 and 760 mV for domain 0. -/
theorem witness_KeyedRepairs :
    let out (x : Nat × Nat) : State := { up with reserve := { up.reserve with out := [x] } }
    repairGood (keyed 3 [1, 0] up) = true ∧ spareRow (keyed 3 [1, 0] up) 0 0 = some 512
    ∧ unitOut (keyed 3 [1, 0] up) (macroClass 0) 0 = false
    ∧ repairGood (keyed 3 [2, 0] up) = true ∧ unitOut (keyed 3 [2, 0] up) 0 0 = false ∧ up.reserve.acts ++ up.reserve.waits = []
    ∧ repairGood (keyed 3 [3, 0] (out (0, 0))) = true ∧ repairGood (keyed 3 [3 + 3 * 16, 0] (out (3, 0))) = true
    ∧ repairGood (keyed 3 [4 + 256 + 760 * 2 ^ 24 % 2 ^ 32, 760 / 256] up) = true := by decide +kernel

/-- A command of each of the nine forms in the window, its tag right (`keyed_tag`), with the journal closed and open. -/
theorem witness_NineForms :
    let forms : List (Nat × List Nat) := [(1, [2 ^ 8, 0, 0, 0, 8]), (2, [1000]), (3, [1]), (3, [2]), (3, [3]), (3, [4]), (4, []),
      (5, []), (6, [7])]
    ((forms.map (fun x => (readRepair (operandWord (windowRun (keyed x.1 x.2 up)) 0)).action)).drop 2).take 4 = [1, 2, 3, 4]
    ∧ ∀ x ∈ forms, commandReady (keyed x.1 x.2 up) = true ∧ (windowRun (keyed x.1 x.2 up)).opcode = x.1
      ∧ (keyed x.1 x.2 busy).ledger.ready = true ∧ formGood (windowRun (keyed x.1 x.2 busy)) = true
      ∧ slotMark (keyed x.1 x.2 busy) (windowRun (keyed x.1 x.2 busy)).slot < (windowRun (keyed x.1 x.2 busy)).counter := by
  decide +kernel

/-- A command that waits in its back-off, with a tag that is none and with the right one. -/
def backing (tag : List Byte) (counter : Nat) : State :=
  let r : KcwRun := { opcode := 2, slot := 0, counter := counter, olen := 8, ops := toLE 8 1000 ++ List.replicate 56 0,
                      tag := tag, cmdWord := 2 + 8 * 2 ^ 16, stage := .backoff, status := 0, key := 0, bound := none }
  { up with kcw := { up.kcw with keys := [(0, some 5)], epoch := some 7, run := some r, backoff := [(0, true)] } }

theorem witness_KeysAndEpoch :
    let e (x : Option Word) : State := { up with kcw := { up.kcw with epoch := x } }
    clkUp up 24 = true ∧ (e none).kcw.epoch = none ∧ (e (some 7)).kcw.epoch = some 7 ∧ (7 : Word) ≠ 8
    ∧ (3 : BitVec 3).toNat < 4 ∧ 4 ≤ (4 : BitVec 3).toNat ∧ (e (some 7)).kcw.epoch ≠ none ∧ clkUp up 20 = true
    ∧ keyedForm (windowRun up).opcode = none ∧ up.kcw.run = none ∧ up.boot.phase = 6 := by decide +kernel

/-- The command of `backing`. -/
def backingRun (tag : List Byte) (counter : Nat) : KcwRun :=
  ((backing tag counter).kcw.run).getD (windowRun up)

theorem witness_BackoffEnds :
    (backing [] 1).kcw.run = some (backingRun [] 1) ∧ (backingRun [] 1).stage = .backoff ∧ (backingRun [] 1).slot = 0
    ∧ (backing [] 1).boot.phase = 6 ∧ clkUp (backing [] 1) 24 = true ∧ formGood (backingRun [] 1) = true
    ∧ (backing [] 1).kcw.epoch = some 7 ∧ slotKey (backing [] 1) 0 = some 5
    ∧ slotKey { backing [] 1 with kcw := { (backing [] 1).kcw with keys := [] } } 0 = none := by decide +kernel

/-- A tag of no bytes is wrong; the right one with counter 0 is not above the mark 0. -/
theorem witness_BackoffTags :
    cmacTag (keyBytes 5) (keyedMessage (backing [] 1) (backingRun [] 1) 7) ≠ (backingRun [] 1).tag
    ∧ (let t := cmacTag (keyBytes 5) (keyedMessage (backing [] 0) (backingRun [] 0) 7)
       cmacTag (keyBytes 5) (keyedMessage (backing t 0) (backingRun t 0) 7) = (backingRun t 0).tag
       ∧ (backingRun t 0).counter ≤ slotMark (backing t 0) 0) := by
  refine ⟨?_, rfl, by decide +kernel⟩
  intro h
  have := congrArg List.length h
  rw [cmacTag_length _ _ (keyBytes_length 5)] at this
  exact absurd this (by decide +kernel)

/-- A load that reads its image: KIND, the target 1, eight bytes, and a tag. -/
def loading (kind : Nat) (tag : List Byte) : KcwRun :=
  { opcode := 1, slot := 1, counter := 1, olen := 32, ops := toLE 8 (kind + 2 ^ 8) ++ toLE 8 0 ++ toLE 8 8 ++ tag,
    tag := [], cmdWord := 1, stage := .image, status := 0, key := 5, bound := none }

/-- The block with that load under way. -/
def loadingAt (kind : Nat) (tag : List Byte) : State := { up with kcw := { up.kcw with run := some (loading kind tag) } }

/-- The right tag of eight bytes of 0. -/
def imageTag : List Byte := cmacTag (keyBytes 5) (List.replicate 8 0)

/-- A program, a grammar and a mask set of eight bytes that are being read. -/
theorem witness_ImageLoads :
    ∀ k ∈ [0, 2, 3], (loadingAt k imageTag).kcw.run = some (loading k imageTag) ∧ (loading k imageTag).stage = .image
      ∧ (readLoad (loading k imageTag)).len = (List.replicate 8 (0 : Byte)).length ∧ (readLoad (loading k imageTag)).kind = k
      ∧ (readLoad (loading k imageTag)).target.testBit 0 = true ∧ pdUp (loadingAt k imageTag) (1 + 0 / 2) = true := by
  intro k hk
  fin_cases hk <;> exact ⟨rfl, rfl, by decide +kernel⟩

/-- Their tag is that of the operands, and a tag of no bytes is not. -/
theorem witness_ImageTags (k : Nat) :
    cmacTag (keyBytes (loading k imageTag).key) (List.replicate 8 0) = (readLoad (loading k imageTag)).tag
    ∧ cmacTag (keyBytes (loading k []).key) (List.replicate 8 0) ≠ (readLoad (loading k [])).tag := by
  have hl : imageTag.length = 8 := cmacTag_length _ _ (keyBytes_length 5)
  constructor
  · have e : (readLoad (loading k imageTag)).tag = imageTag.take 8 := rfl
    rw [e, List.take_of_length_le (by omega)]
    rfl
  · intro e
    have := congrArg List.length e
    rw [show (loading k []).key = 5 from rfl, cmacTag_length _ _ (keyBytes_length 5),
      show (readLoad (loading k [])).tag = [] from rfl] at this
    simp at this

/-- No slot was in use as these loads started. -/
theorem witness_ImageSlots (k : Nat) : targetInUse (loading k imageTag) (List.replicate 8 0) = false := rfl

/-- A grammar that the checks accept; the format of an image's header is not given, so which bytes the reader turns into
it is open. -/
theorem witness_GrammarThatPasses :
    let im : MaskSetImage := { fingerprint := 1, vocab := 64, width := 2, masks := [2 ^ 64 - 1], lenMasks := [],
                               longList := [] }
    let m : MaskSlot := { image := im, extLog2 := 16, copies := 1, offset := 0, checks := [] }
    let s := setReg (regionKey 4 + 2) 16 { busy with maskSets := [(0, some m)] }
    grammarRefused s 0 gram = none ∧ im.vocab ≤ s.build.size.maxVocab ∧ regionSize s 4 ≠ 0 := by decide +kernel

/-- ZEROISE that has emptied the block. -/
theorem witness_ZeroiseEnds :
    let r := { windowRun (window 5 [] 0 0 up) with stage := .zeroing }
    let s : State := { up with kcw := { up.kcw with run := some r } }
    s.kcw.run = some r ∧ r.opcode = 5 ∧ r.stage = .zeroing := by decide +kernel


/-! ### What meets the hypotheses of the statements: maintenance, power and the register window -/

theorem witness_PatrolScrub :
    let s := acting [scrubAct] up
    let l : State := { s with reserve := { s.reserve with visits := passVisits up - 1 } }
    scrubRuns s = true ∧ clkUp s 3 = true ∧ s.purse.queue = [] ∧ clkUp s 22 = true
    ∧ ((visitBill s).map (fun b => unitPrice s b.1 * b.2)).sum ≤ s.purse.balance ∧ s.reserve.visits + 1 < passVisits s
    ∧ servedBank s ((96 : BitVec 13).toNat / 96) = some 1 ∧ servedBank s ((0 : BitVec 13).toNat / 96) = some 0
    ∧ scrubRuns l = true ∧ passVisits l ≤ l.reserve.visits + 1
    ∧ ((visitBill l).map (fun b => unitPrice l b.1 * b.2)).sum ≤ l.purse.balance
    ∧ reserveUp up = true ∧ clkUp up 20 = true ∧ holder up scrubAct = none ∧ holder s scrubAct = some scrubAct
    ∧ scrubBarred s = false ∧ scrubBarred l = false ∧ findingLeft s (.corrected 0 96 0) = false
    ∧ findingLeft { s with reserve := { s.reserve with left := [1] } } (.corrected 0 96 0) = true := by
  decide +kernel

/-- Domains 0 and 3 with a sweep interval of 1, free and held by another sweep of theirs. -/
theorem witness_SweepsStart :
    let s := setReg R.RSV_AGE 1 up
    reserveUp s = true ∧ clkUp s 25 = true ∧ (3 : Fin 25).val < 4 ∧ reg s R.RSV_AGE % 2 ^ 8 ≠ 0 ∧ clkUp s 20 = true
    ∧ holder s (sweepAct 0) = none ∧ holder s (sweepAct 3) = none
    ∧ holder (acting [sweepAct 3] s) (sweepAct 3) = some (sweepAct 3)
    ∧ holder (acting [sweepAct 0] s) (sweepAct 0) = some (sweepAct 0) := by decide +kernel

/-- The planner on, MARGIN_LO 8 and MARGIN_HI 16, a sweep of CORE at its end, its clock at step 1. -/
def sweeping : State :=
  let s := setReg R.RSV_VOLT (760 * 2 ^ 16) (setReg R.RSV_AGE (2 ^ 8 + 8 * 2 ^ 16 + 16 * 2 ^ 24) (acting [sweepAct 0] up))
  { s with reserve := { s.reserve with steps := [(0, 1)], vreq := 750 } }

/-- That state with the voltage at its maximum. -/
def atMaximum : State := { sweeping with reserve := { sweeping.reserve with vreq := 760 } }

/-- What a sweep of 24 equal slacks leaves as the least slack of CORE. -/
def leastAfter (s : State) (x : Slack) : Int :=
  let u := next (exec (.sweepEnd (List.replicate 24 x)) s)
  slackOf u 0 (leastCanary u 0)

/-- Slacks of 7, of 8 and 16, and of 17. -/
theorem witness_SweepEnds :
    sweepUnderWay sweeping = some (sweepAct 0) ∧ clkUp sweeping 25 = true ∧ (reg sweeping R.RSV_AGE).testBit 8 = true
    ∧ (reg (setReg R.RSV_AGE 1 up) R.RSV_AGE).testBit 8 = false ∧ reserveUp sweeping = true
    ∧ sweeping.reserve.vreq + 10 ≤ vmax sweeping ∧ vmax atMaximum < atMaximum.reserve.vreq + 10
    ∧ sweeping.reserve.vask = [] ∧ stepOfDomain atMaximum 0 < 3 ∧ 0 < stepOfDomain sweeping 0
    ∧ reg sweeping R.RSV_AGE / 2 ^ 16 % 2 ^ 8 = 8 ∧ reg sweeping R.RSV_AGE / 2 ^ 24 % 2 ^ 8 = 16
    ∧ leastAfter sweeping 7 = 7 ∧ leastAfter sweeping 8 = 8 ∧ leastAfter sweeping 16 = 16 ∧ leastAfter sweeping 17 = 17
    ∧ leastAfter sweeping 0x3FF = -1 := by decide +kernel

theorem witness_VoltageAnswers :
    let s (d : Nat) : State := { sweeping with reserve := { sweeping.reserve with vask := [(760, d)] } }
    (s 0).reserve.vask = (760, 0) :: [] ∧ (s 4).reserve.vask = (760, 4) :: [] ∧ stepOfDomain (s 0) 0 < 3 := by decide +kernel

/-- Samples of 94, 95, 105 and -40 degrees; nine and ten samples without an input. -/
theorem witness_ThermalSamples :
    let at' (k dead : Nat) : State := { up with sortStep := k, sortDead := dead }
    (at' 0 8).sortDead + 1 < 10 ∧ 10 ≤ (at' 0 9).sortDead + 1
    ∧ hottest [94] = 94 ∧ hottest [0x1D8, 95] = 95 ∧ hottest [105] = 105 ∧ hottest [0x1D8] = -40
    ∧ (90 + 5 * (1 : Int) ≤ 95) ∧ ((95 : Int) < 95 + 5 * 1) ∧ (at' 1 0).sortStep ≠ 0 ∧ (94 : Int) ≤ 94
    ∧ hottest [93] ≤ 88 + 5 * 1 ∧ 88 + 5 * 1 < hottest [94] ∧ hottest [94] < 95 + 5 * 1 := by decide +kernel

/-- The activities SPARE_SWAP of a unit, VAULT_RELOAD and TILE_RELOAD. -/
theorem witness_FillsEnd :
    let p : State := acting [⟨5, 1, 0⟩] { up with reserve := { up.reserve with poisoned := [1] } }
    let g : Access := { access0 .read .out with job := .golden 1 0 }
    let s := acting [⟨3, 2, 1⟩] up
    let back : State := { s with reserve := { s.reserve with out := [(1, 2)] } }
    p.reserve.acts.find? (fun a => decide (a.code = 5) && decide (a.res = (1 : BitVec 4).toNat)) = some ⟨5, 1, 0⟩
    ∧ goldenBusy p 1 = false ∧ 1 ∈ p.reserve.poisoned ∧ goldenBusy { p with accesses := [g] } 1 = true
    ∧ (acting [⟨4, 2, 0⟩] up).reserve.acts.find? (fun a => decide (a.code = 4) && decide (a.res = (2 : BitVec 7).toNat))
        = some ⟨4, 2, 0⟩
    ∧ (acting [⟨4, 2, 0⟩] up).reserve.waits = []
    ∧ s.reserve.acts.find? (fun a => decide (a.code = 3)) = some ⟨3, 2, 1⟩ ∧ stillFilling s ⟨3, 2, 1⟩ = false
    ∧ unitOut s 1 2 = false ∧ ((freeSpares s 1).filter (· != 2)) ≠ [] ∧ stillFilling back ⟨3, 2, 1⟩ = false
    ∧ unitOut back 1 2 = true
    ∧ stillFilling { acting [⟨3, 1, 0⟩] up with accesses := [g] } ⟨3, 1, 0⟩ = true := by decide +kernel

theorem witness_UnitsGoMissing :
    let b : State := { up with boot := { up.boot with phase := 3 } }
    let x : UnitId := ⟨0, 0⟩
    let a : State := { up with power := { up.power with pds := [(unitDomain up.build.size 0 0, .powered)] } }
    1 ≤ b.boot.phase ∧ leaving b 0 0 = false
    ∧ Tab.get .off b.power.pds (unitDomain b.build.size 0 0) ≠ .powered ∧ portMissing b 0 0 = false ∧ x.idx.toNat < unitsBuilt b.build.size x.cls.toNat ∧ unitOut b 0 0 = false
    ∧ b.reserve.pending.length < 16 ∧ portMissing b 10 0 = false ∧ 0 < unitsBuilt b.build.size 10 ∧ a.boot.phase = 6
    ∧ Tab.get .off a.power.pds (unitDomain a.build.size 0 0) = .powered := by decide +kernel

/-- BEAT_GRACE, whose write has no effect of its own; a pair that is latched, a counter, and a reserved offset. -/
theorem witness_Registers :
    clkUp up 20 = true ∧ regSpec 0xFFFC = none ∧ (regSpec R.BEAT_GRACE).isSome = true ∧ unbuiltReg up R.BEAT_GRACE = false
    ∧ (writeUnits R.BEAT_GRACE 5).isNone = true ∧ (writeBase R.BEAT_GRACE 5).isNone = true
    ∧ R.BEAT_POS_LO ∈ latchedPairs ∧ R.BEAT_POS_LO ≠ R.LDG_QPOP_LO ∧ R.LDG_QPOP_LO ∈ latchedPairs
    ∧ R.PUR_SPENT_LO ∈ counterPairs := by decide +kernel

theorem witness_WatchdogAndTestPort :
    let wd (v : Nat) (t : Thread) : State :=
      withThread t (setReg R.PWR_WDOG v { up with power := { up.power with wdog := 1 } })
    let bar (k : Nat) : State := { up with kcw := { up.kcw with scopes := k } }
    purseUp (wd 1 (th 0 0)) = true ∧ reg (wd 0x1FFFF (th 0 0)) R.PWR_WDOG % 2 ^ 16 ≠ 0 ∧ (wd 1 (th 0 0)).power.wdog = 1
    ∧ (reg (wd 1 (th 0 0)) R.PWR_WDOG).testBit 16 = false ∧ (reg (wd 0x1FFFF (th 0 0)) R.PWR_WDOG).testBit 16 = true
    ∧ (thread (wd 1 (th 0 0)) w0).st = .running ∧ (thread (wd 1 (th 0 0)) w0).wait ≠ .busy
    ∧ (thread (wd 1 { th 0 0 with wait := .busy }) w0).wait = .busy
    ∧ dbgUp up = true ∧ dbgUp State.reset = false ∧ up.power.testMode = false
    ∧ dbgUp { up with power := { up.power with testMode := true } } = true ∧ (bar 4).kcw.scopes.testBit 2 = true ∧ clkUp (bar 4) 20 = true
    ∧ samplerBusy up 0 = false ∧ samplerBusy (acting [sweepAct 3] up) ((95 : BitVec 7).toNat / 24) = true := by decide +kernel

/-- Domain 5 and domain 25 free, held by the register port and by its input, and without its clock. -/
theorem witness_ResetsAndClocks :
    let pw (p : PowerState) : State := { up with power := p }
    let pin := pw { up.power with held := [5], byPin := [5] }
    let both := pw { up.power with held := [5], byPin := [5], byReg := [5] }
    let byr := pw { up.power with held := [25], byReg := [25] }
    let lost := pw { up.power with lostClk := [1] }
    pdUp up 0 = true ∧ pdUp (next (exec .blockReset up)) 0 = false ∧ hasPin 5 = true ∧ 5 ∉ up.power.byPin ∧ clkUp up 5 = true
    ∧ 5 ∈ pin.power.byPin ∧ 5 ∉ pin.power.byReg ∧ pin.power.testMode = false ∧ 5 ∉ pin.power.lostClk
    ∧ 5 ∈ both.power.byReg ∧ 5 ∈ both.power.held ∧ 5 ∈ both.power.byPin ∧ 25 ∈ byr.power.byReg ∧ 25 ∉ byr.power.byPin
    ∧ 1 ∈ lost.power.lostClk ∧ 1 ∉ lost.power.held ∧ clkUp up 20 = true ∧ builtDomain up.build.size 1 = true
    ∧ (0x1FFFFFF : Word32).toNat.testBit 0 = true ∧ (0x1FFFFFF : Word32).toNat.testBit 24 = true
    ∧ up.power.testMode = false := by decide +kernel

theorem witness_PowerDomains :
    let at' (d : Nat) (x : PdState) : State := { up with power := { up.power with pds := Tab.set .off up.power.pds d x } }
    let pd (s : State) (d : Nat) : PdState := Tab.get .off s.power.pds d
    clkUp up 22 = true ∧ pd (at' 29 .requested) 29 = .requested ∧ pd (at' 1 .powered) 1 = .powered ∧ up.boot.phase = 6
    ∧ (reg up R.PWR_PDERR).testBit 31 = false ∧ pd up 1 = .released ∧ pdUp up 0 = true
    ∧ pd (at' 29 .failed) 29 = .failed ∧ (0x8000001D : Word32).toNat % 2 ^ 5 = 29
    ∧ (0x8000001D : Word32).toNat.testBit 31 = true ∧ (2 : Word32).toNat.testBit 1 = true
    ∧ spareBusy { up with reserve := { up.reserve with stand := [(0, 3, 10)] } } = true ∧ spareBusy up = false
    ∧ (7 : Word32).toNat.testBit 2 = true ∧ pd up 28 ≠ .off ∧ pd up 28 ≠ .failed ∧ (0 : Word32).toNat.testBit 0 = false
    ∧ pd (at' 29 .off) 29 = .off ∧ 3 ≤ (at' 29 .off).boot.phase := by decide +kernel

theorem witness_BringUp :
    let ph (k : Nat) (s : State) : State := { s with boot := { s.boot with phase := k } }
    let off (d : Nat) : State := { up with power := { up.power with pds := Tab.set .off up.power.pds d .off } }
    (ph 0 up).boot.phase = 0 ∧ clkUp (ph 0 up) 20 = true ∧ Tab.get .off (off 26).power.pds 26 = .off ∧ up.boot.phase ≠ 0
    ∧ (ph 2 (off 1)).boot.group < 5 ∧ groupSwitching (ph 2 (off 1)) (ph 2 (off 1)).boot.group = false
    ∧ groupOf 1 = (off 1).boot.group + 1 ∧ keptOff (off 1) 1 = false ∧ clkUp (ph 2 up) 22 = true ∧ pdUp (ph 2 up) 0 = true
    ∧ mapDone { ph 1 up with reserve := { up.reserve with copies := [(0, [])] } } = true
    ∧ readMap (ph 1 up) [] = none ∧ mapDone (ph 1 up) = false ∧ clkUp (ph 5 up) 1 = true := by decide +kernel

/-! ### Two clauses that need bytes with a CRC -/

/-- An entry of a DAYBOOK page with opcode 16 for step 0, stream 0. -/
def postEntry : List Byte := [16] ++ List.replicate 59 0 ++ toLE 4 (crc32c ([16] ++ List.replicate 59 0))

theorem witness_EntryThatIsQueued :
    let f : PageFetch := { no := 0, clerk := 0, step := 0, slot := 0, entry := some postEntry, reading := false, waited := true }
    let s : State := { up with day := { up.day with fetches := [f] } }
    clkUp s 1 = true ∧ fetchOf s 0 = some f ∧ f.entry = some postEntry ∧ entryFate s 0 f.step postEntry = .queue
    ∧ (entryQueue s 0).length < 512 := by decide +kernel

/-- A row of the thin path whose messages are out, with one more list awaited than its own bank's. -/
def thinTile : ClearTile := { clearTile (decision0 (good + 8192) 64) Cfg.empty with sent := true, awaited := [0, 1] }

/-- A list of no entries for it, from stack 0 and bank 0. -/
def listMessage : List Byte :=
  let body := toLE 8 0x181 ++ List.replicate 52 0
  body ++ toLE 4 (crc32c body)

theorem witness_NearBankListTaken :
    let s := clearing thinTile.tile (fun _ => thinTile)
    portUp s 0 = true ∧ clkUp s 5 = true ∧ stationUp s 6 = true ∧ listTile s listMessage = some thinTile
    ∧ clearTile? s thinTile.tile.stream = some thinTile ∧ listLost s thinTile listMessage = false
    ∧ (∃ b ∈ thinTile.awaited, b ≠ leAt listMessage 0 8 / 2 ^ 12 % 512)
    ∧ mergeEntries thinTile.entries ((listEntries listMessage (leAt listMessage 8 8 % 128)).filter (fun e => !entryNan e))
        = some []
    ∧ s.purse.queue = [] ∧ clkUp s 22 = true ∧ unitPrice s 2 * 1 ≤ s.purse.balance ∧ listTile up listMessage = none := by
  decide +kernel
end Sys2Proof.Tests
end

section
/-!
PROOFS. CRC, LD and ST: what a purchase leaves of the state, bytes of words and words of bytes, and the instructions'
effects on scratch.
-/

namespace Sys2Proof.Machine

/-! ### Bytes and words -/

@[simp] theorem toLE_length (n v : Nat) : (toLE n v).length = n := by
  induction n generalizing v with
  | zero => rfl
  | succ n ih => rw [toLE, List.length_cons, ih]

/-- Byte `i` of a number written lowest byte first. -/
theorem toLE_getElem (n v i : Nat) (h : i < (toLE n v).length) : (toLE n v)[i] = BitVec.ofNat 8 (v / 256 ^ i) := by
  induction n generalizing v i with
  | zero => exact absurd h (Nat.not_lt_zero i)
  | succ n ih =>
    cases i with
    | zero => simp [toLE]
    | succ i =>
      have e := ih (v / 256) i (by simpa [toLE] using h)
      rw [Nat.div_div_eq_div_mul, ← pow_succ'] at e
      exact e

/-- Byte `i` of the number that bytes spell is the `i`-th of them. -/
theorem ofLE_byte (bs : List Byte) (i : Nat) (h : i < bs.length) : ofLE bs / 256 ^ i % 256 = bs[i].toNat := by
  induction bs generalizing i with
  | nil => exact absurd h (Nat.not_lt_zero i)
  | cons b bs ih =>
    have hb := b.isLt
    cases i with
    | zero =>
      simp only [ofLE, pow_zero, Nat.div_one, List.getElem_cons_zero]
      omega
    | succ i =>
      have e : (b.toNat + 256 * ofLE bs) / 256 = ofLE bs := by omega
      rw [ofLE, pow_succ', ← Nat.div_div_eq_div_mul, e]
      exact ih i (by simpa using h)

@[simp] theorem scratchRead_length (s : State) (c x n : Nat) : (scratchRead s c x n).length = n := by
  induction n generalizing x with
  | zero => rfl
  | succ n ih => rw [scratchRead, List.length_cons, ih]

theorem scratchRead_getElem (s : State) (c x n i : Nat) (h : i < (scratchRead s c x n).length) :
    (scratchRead s c x n)[i] = scratchByte s c (x + i) := by
  induction n generalizing x i with
  | zero => exact absurd h (Nat.not_lt_zero i)
  | succ n ih =>
    cases i with
    | zero => rfl
    | succ i =>
      have e := ih (x + 1) i (by simpa [scratchRead] using h)
      rw [Nat.add_assoc, Nat.add_comm 1 i] at e
      exact e

/-- The word at a scratch address holds the bytes there, lowest first. -/
theorem scratchWord_byte (s : State) (c x i : Nat) (h : i < 8) :
    (scratchWord s c x).extractLsb' (8 * i) 8 = scratchByte s c (x + i) := by
  have hl : i < (scratchRead s c x 8).length := by rwa [scratchRead_length]
  have hw : ofLE (scratchRead s c x 8) < 2 ^ 64 := by
    have := ofLE_lt (scratchRead s c x 8)
    rwa [scratchRead_length] at this
  have hb := ofLE_byte _ i hl
  rw [scratchRead_getElem] at hb
  apply BitVec.eq_of_toNat_eq
  rw [BitVec.extractLsb'_toNat, scratchWord, BitVec.toNat_ofNat, Nat.mod_eq_of_lt hw, Nat.shiftRight_eq_div_pow,
    pow_mul]
  exact hb

/-- Byte `i` of a word written lowest byte first. -/
theorem toLE_byte (v : Word) (i : Nat) (h : i < (toLE 8 v.toNat).length) :
    (toLE 8 v.toNat)[i] = v.extractLsb' (8 * i) 8 := by
  apply BitVec.eq_of_toNat_eq
  rw [toLE_getElem, BitVec.toNat_ofNat, BitVec.extractLsb'_toNat, Nat.shiftRight_eq_div_pow, pow_mul]
  norm_num

/-! ### Shapes of an instruction's answer -/

/-- An instruction that may issue and faults after its purchase. -/
theorem faults_bought {s : State} {w : Who} {f : Fields} {code c : Nat} (h : Issues s w f code c) (st : Nat)
    {o : Host.Outcome State Fault Refusal} (ho : o = .next (faultThread w st (bought w c s))) :
    ∃ u, Bought w c s u ∧ o = .next (faultThread w st u) := ⟨_, bought_spec w c s h.balance, ho⟩

/-! ### CRC -/

/-- Settles O15: the bill is that of the operand value, and the effect of CRC is its one test of the span. -/
theorem crcResult : Obligations.CrcResult := by
  intro s w f t a n cents h
  have hx : exec (.crc w f) s = .next (actCrc w f (bought w cents s)) :=
    exec_pays (op := opCrc w f s) h rfl (by omega) rfl (by omega)
  simp only [actCrc, thread_bought, scratchRead_bought] at hx
  constructor <;> intro hn
  · rw [if_neg (by exact Nat.not_lt.2 hn)] at hx
    exact writes_putG h _ hx
  · rw [if_pos (by exact hn)] at hx
    exact faults_bought h St.BOUNDS hx

/-! ### LD and ST -/

/-- A store of an issued instruction to aligned scratch, and the end of the instruction, change nothing but its thread
and scratch. -/
theorem stored_frame {s : State} {w : Who} {c : Nat} (h : priceNow s c ≤ s.purse.balance) (no x : Nat) (bs : List Byte)
    (g : Thread → Thread) : ThreadOrScratch w s (onThread w g (storeScratch no w.clerk.toNat x bs (bought w c s))) := by
  obtain ⟨_, ⟨⟨hth, hregs, hpurse, hrest⟩, _⟩, _⟩ := bought_spec w c s h
  refine ⟨fun v hv => (thread_onThread_other g _ hv).trans (hth v hv), fun k hk => ?_, hpurse, ?_⟩
  · rw [reg_onThread]
    exact hregs k hk
  · generalize bought w c s = b at hrest
    exact Eq.trans rfl hrest

/-- No store noted is of an instruction later than the one that is issued next. -/
theorem stores_bought_le {s : State} (hs : storesIssued s = true) (w : Who) (c : Nat) :
    ∀ e ∈ (bought w c s).stores, e.no ≤ (issuedThread s w).no := by
  rw [spend_stores, noteIssue_stores]
  intro e he
  exact Nat.le_succ_of_le (of_decide_eq_true (List.all_eq_true.1 hs e he))

/-- What ST stores reads back, and every other byte of scratch reads as before. -/
theorem scratchByte_actSt {s : State} {w : Who} {f : Fields} {c x : Nat} (hs : storesIssued s = true)
    (hx : x + 8 ≤ 0x40000) (g : Thread → Thread) :
    let v := (issuedThread s w).reg f.b
    let u := onThread w g (storeScratch (issuedThread s w).no w.clerk.toNat x (toLE 8 v.toNat) (bought w c s))
    (∀ i < 8, scratchByte u w.clerk.toNat (x + i) = v.extractLsb' (8 * i) 8)
      ∧ ∀ d y, y < 0x40000 → (d ≠ w.clerk.toNat ∨ y < x ∨ x + 8 ≤ y) → scratchByte u d y = scratchByte s d y := by
  intro v u
  refine ⟨fun i hi => ?_, fun d y hy hd => ?_⟩
  · have hl : i < (toLE 8 v.toNat).length := by rwa [toLE_length]
    rw [scratchByte_onThread, scratchByte_storeScratch_same _ hl (show x + i < 0x40000 by omega) (stores_bought_le hs w c), toLE_byte]
  · rw [scratchByte_onThread, scratchByte_storeScratch_other _ hy (by rwa [toLE_length]), scratchByte_bought]

/-- Settles O22: LD and ST by what they do after their purchase, at an address that passes their rule. -/
theorem scratchLoadsAndStores : Obligations.ScratchLoadsAndStores := by
  intro s w f t c x h8 hx
  have hin : wordInScratch (memAddr (issuedThread s w) f) = true := by
    unfold wordInScratch
    rw [Bool.and_eq_true]
    exact ⟨decide_eq_true h8, decide_eq_true hx⟩
  constructor
  · intro h
    refine ⟨scratchWord s c x, fun i hi => scratchWord_byte s c x i hi, writes_putG h _ ?_⟩
    have he : exec (.ld w f) s = .next (actLd w f (bought w 3 s)) := exec_pays (op := opLd w f) h rfl (by omega) rfl
    rw [he, actLd, thread_bought, if_pos hin, scratchWord, scratchRead_bought]
    rfl
  · intro h hs
    have he : exec (.st w f) s = .next (actSt w f (bought w 3 s)) := exec_pays (op := opSt w f) h rfl (by omega) rfl
    rw [actSt, thread_bought, if_pos hin] at he
    obtain ⟨hsame, hother⟩ := scratchByte_actSt (c := 3) (f := f) hs (show x + 8 ≤ 0x40000 by omega)
      (fun t : Thread => t.goOn (t.pc + 1))
    refine ⟨_, he, ?_, stored_frame h.balance _ _ _ _, hsame, hother, ?_⟩
    · have e : thread (storeScratch (issuedThread s w).no c x (toLE 8 ((issuedThread s w).reg f.b).toNat) (bought w 3 s)) w
          = issuedThread s w := thread_bought s w 3
      rw [advancePc, thread_onThread_same]
      exact (congrArg (fun t : Thread => t.goOn (t.pc + 1)) e).trans (goOn_of_issues h _ _ rfl rfl rfl rfl)
    · exact (bought_spec w 3 s h.balance).2.2.1

end Sys2Proof.Machine
end

section
/-!
PROOFS. What a purchase, an access that starts and a journal entry leave of the state.
-/

namespace Sys2Proof.Machine

/-! ### A purchase -/

@[simp] theorem spend_build (c : Nat) (s : State) : (spend c s).build = s.build := by
  unfold spend bump64
  split <;> rfl

@[simp] theorem spend_free (c : Nat) (s : State) : (spend c s).free = s.free := by
  unfold spend bump64
  split <;> rfl

@[simp] theorem spend_streams (c : Nat) (s : State) : (spend c s).streams = s.streams := by
  unfold spend bump64
  split <;> rfl

@[simp] theorem spend_hops (c : Nat) (s : State) : (spend c s).hops = s.hops := by
  unfold spend bump64
  split <;> rfl

@[simp] theorem spend_tickets (c : Nat) (s : State) : (spend c s).tickets = s.tickets := by
  unfold spend bump64
  split <;> rfl

@[simp] theorem spend_ticketNext (c : Nat) (s : State) : (spend c s).ticketNext = s.ticketNext := by
  unfold spend bump64
  split <;> rfl

@[simp] theorem spend_accesses (c : Nat) (s : State) : (spend c s).accesses = s.accesses := by
  unfold spend bump64
  split <;> rfl

@[simp] theorem spend_nextAccess (c : Nat) (s : State) : (spend c s).nextAccess = s.nextAccess := by
  unfold spend bump64
  split <;> rfl

@[simp] theorem spend_ledger (c : Nat) (s : State) : (spend c s).ledger = s.ledger := by
  unfold spend bump64
  split <;> rfl

@[simp] theorem spend_teller (c : Nat) (s : State) : (spend c s).teller = s.teller := by
  unfold spend bump64
  split <;> rfl

@[simp] theorem spend_clear (c : Nat) (s : State) : (spend c s).clear = s.clear := by
  unfold spend bump64
  split <;> rfl

@[simp] theorem spend_power (c : Nat) (s : State) : (spend c s).power = s.power := by
  unfold spend bump64
  split <;> rfl

/-- A register but the two of the spending counter, after a purchase. -/
theorem reg_bought {off : Nat} (s : State) (w : Who) (c : Nat) (h : off ∉ [R.PUR_SPENT_LO, R.PUR_SPENT_HI]) :
    reg (bought w c s) off = reg s off := spend_regs (priceNow s c) (noteIssue w s) off h

@[simp] theorem stream_bought (s : State) (w : Who) (c n : Nat) : stream (bought w c s) n = stream s n := by
  unfold stream
  rw [spend_streams, noteIssue_streams]

@[simp] theorem queueAt_bought (s : State) (w : Who) (c h : Nat) : queueAt (bought w c s) h = queueAt s h := by
  unfold queueAt
  rw [spend_hops, noteIssue_hops]

/-- The thread of an instruction that is issued changes nothing of the others. -/
theorem thread_bought_other {w v : Who} (s : State) (c : Nat) (h : Who.key v ≠ Who.key w) :
    thread (bought w c s) v = thread s v := by
  rw [spend_thread, thread_noteIssue_other s h]

/-! ### The frame of an access that starts -/

/-- What an access that starts leaves unchanged: it changes the accesses, PURSE, registers and the free-value counter. -/
structure OnlyAccesses (s t : State) : Prop where
  threads : t.threads = s.threads
  scratch : t.scratch = s.scratch
  stores : t.stores = s.stores
  streams : t.streams = s.streams
  tickets : t.tickets = s.tickets
  hops : t.hops = s.hops
  ledger : t.ledger = s.ledger

theorem OnlyAccesses.refl (s : State) : OnlyAccesses s s := ⟨rfl, rfl, rfl, rfl, rfl, rfl, rfl⟩

theorem OnlyAccesses.trans {s t u : State} (h : OnlyAccesses s t) (k : OnlyAccesses t u) : OnlyAccesses s u :=
  ⟨k.threads.trans h.threads, k.scratch.trans h.scratch, k.stores.trans h.stores, k.streams.trans h.streams,
    k.tickets.trans h.tickets, k.hops.trans h.hops, k.ledger.trans h.ledger⟩

/-- The accesses, PURSE, the registers and the free-value counter lie outside the frame. -/
theorem OnlyAccesses.upd {s t : State} (h : OnlyAccesses s t) {accesses nextAccess purse free} :
    OnlyAccesses s { t with accesses := accesses, nextAccess := nextAccess, purse := purse, free := free } :=
  ⟨h.threads, h.scratch, h.stores, h.streams, h.tickets, h.hops, h.ledger⟩

theorem spend_onlyAccesses (c : Nat) (s : State) : OnlyAccesses s (spend c s) :=
  ⟨spend_threads c s, spend_scratch c s, spend_stores c s, spend_streams c s, spend_tickets c s, spend_hops c s,
    spend_ledger c s⟩

/-- Paying a bill changes PURSE and its spending counter, and starts no access. -/
theorem payBill_frame (bill : List (Nat × Nat)) (s : State) : OnlyAccesses s (payBill bill s).1
    ∧ (payBill bill s).1.accesses = s.accesses ∧ (payBill bill s).1.nextAccess = s.nextAccess := by
  induction bill generalizing s with
  | nil => exact ⟨.refl s, rfl, rfl⟩
  | cons b rest ih =>
    simp only [payBill]
    generalize (if unitPrice s b.1 = 0 then b.2
      else if clkUp s 22 then min b.2 (s.purse.balance / unitPrice s b.1) else 0) = k
    split
    · obtain ⟨hf, ha, hn⟩ := ih (spend (k * unitPrice s b.1) s)
      exact ⟨(spend_onlyAccesses _ s).trans hf, ha.trans (spend_accesses _ s), hn.trans (spend_nextAccess _ s)⟩
    · exact ⟨spend_onlyAccesses _ s, spend_accesses _ s, spend_nextAccess _ s⟩

theorem sendPart_onlyAccesses (ahead : Bool) (s : State) : OnlyAccesses s (sendPart ahead s) :=
  (OnlyAccesses.refl s).upd

theorem sendAll_onlyAccesses (s : State) : OnlyAccesses s (sendAll s) :=
  (sendPart_onlyAccesses false s).trans (sendPart_onlyAccesses true _)

/-- What an access is for: its number, its kind and its work. -/
def Access.purpose (a : Access) : Nat × ReqKind × Job := (a.ident, a.kind, a.job)

theorem sendFrom_purpose (s : State) (ahead : Bool) (done as : List Access) (used : List (Nat × Nat)) :
    (sendFrom s ahead done as used).map Access.purpose = (done ++ as).map Access.purpose := by
  induction as generalizing done used with
  | nil => simp [sendFrom]
  | cons a as ih =>
    simp only [sendFrom]
    split <;> (rw [ih]; simp [Access.purpose])

theorem sendPart_purpose (ahead : Bool) (s : State) :
    (sendPart ahead s).accesses.map Access.purpose = s.accesses.map Access.purpose :=
  sendFrom_purpose s ahead [] s.accesses (tagsUsed s)

/-- Sending lines keeps every access's number, kind and work. -/
theorem sendAll_purpose (s : State) : (sendAll s).accesses.map Access.purpose = s.accesses.map Access.purpose :=
  (sendPart_purpose true _).trans (sendPart_purpose false s)

theorem issuedLines_frame (job : Job) (lines : List Line) (s : State) : OnlyAccesses s (issuedLines job lines s).2
    ∧ (issuedLines job lines s).2.accesses = s.accesses ∧ (issuedLines job lines s).2.nextAccess = s.nextAccess := by
  unfold issuedLines takeFree
  split
  · exact ⟨(OnlyAccesses.refl s).upd, rfl, rfl⟩
  · exact ⟨.refl s, rfl, rfl⟩

/-- A state and whether a bill was paid at once, after the purchase of an access. -/
def buyAccess (cls : Nat) (bill : List (Nat × Nat)) (n : Nat) (s : State) : State × Bool :=
  if bill.all (fun x => x.1 * x.2 == 0) then (s, true)
  else if mustWait s cls then (joinPurse { cls := cls, bill := bill, what := .access n } s, false)
  else match payBill bill s with
    | (s', []) => (s', true)
    | (s', rest) => (joinPurse { cls := cls, bill := rest, what := .access n } s', false)

theorem buyAccess_frame (cls : Nat) (bill : List (Nat × Nat)) (n : Nat) (s : State) :
    OnlyAccesses s (buyAccess cls bill n s).1 ∧ (buyAccess cls bill n s).1.accesses = s.accesses := by
  obtain ⟨hf, ha, _⟩ := payBill_frame bill s
  unfold buyAccess
  split
  · exact ⟨.refl s, rfl⟩
  · split
    · exact ⟨(OnlyAccesses.refl s).upd, rfl⟩
    · split <;> (rename_i e; rw [e] at hf ha)
      · exact ⟨hf, ha⟩
      · exact ⟨hf.upd, ha⟩

/-- An access that starts: its lines as they are issued, its purchase, and what can be sent is sent. -/
theorem startAccess_eq (cls : Nat) (bill : List (Nat × Nat)) (kind : ReqKind) (req : Nat) (lines : List Line) (job : Job)
    (s : State) : startAccess cls bill kind req lines job s =
      let l := issuedLines job lines s
      let p := buyAccess cls bill s.nextAccess l.2
      sendAll { p.1 with
        nextAccess := s.nextAccess + 1,
        accesses := p.1.accesses ++ [{ ident := s.nextAccess, kind := kind, req := req, lines := l.1, paid := p.2, job := job }] } :=
  rfl

theorem startAccess_frame (cls : Nat) (bill : List (Nat × Nat)) (kind : ReqKind) (req : Nat) (lines : List Line) (job : Job)
    (s : State) : OnlyAccesses s (startAccess cls bill kind req lines job s) := by
  rw [startAccess_eq]
  have hl := (issuedLines_frame job lines s).1
  have hp := (buyAccess_frame cls bill s.nextAccess (issuedLines job lines s).2).1
  exact (hl.trans hp).upd.trans (sendAll_onlyAccesses _)

/-- The access that starts stands among the accesses, under the next number. -/
theorem startAccess_mem (cls : Nat) (bill : List (Nat × Nat)) (kind : ReqKind) (req : Nat) (lines : List Line) (job : Job)
    (s : State) : ∃ a ∈ (startAccess cls bill kind req lines job s).accesses,
      a.ident = s.nextAccess ∧ a.kind = kind ∧ a.job = job := by
  have hm : (s.nextAccess, kind, job) ∈ (startAccess cls bill kind req lines job s).accesses.map Access.purpose := by
    rw [startAccess_eq, sendAll_purpose]
    simp [Access.purpose]
  obtain ⟨a, ha, he⟩ := List.mem_map.1 hm
  simp only [Access.purpose, Prod.mk.injEq] at he
  exact ⟨a, ha, he⟩

/-! ### The frame of a journal entry -/

/-- What a journal entry leaves unchanged: besides what an access changes, it changes the LEDGER. -/
structure OnlyLedger (s t : State) : Prop where
  threads : t.threads = s.threads
  scratch : t.scratch = s.scratch
  stores : t.stores = s.stores
  streams : t.streams = s.streams

/-- An access that starts once the LEDGER has changed. -/
theorem OnlyLedger.of_accesses {s t : State} {l : LedgerState} (h : OnlyAccesses { s with ledger := l } t) :
    OnlyLedger s t := ⟨h.threads, h.scratch, h.stores, h.streams⟩

/-- Giving an entry its place in the ring changes the LEDGER alone. -/
theorem placeEntry_eq (e : JEntry) (s : State) : (placeEntry e s).2 = { s with ledger := (placeEntry e s).2.ledger } := by
  unfold placeEntry
  split <;> rfl

theorem writeEntry_frame (e : JEntry) (next : After) (s : State) : OnlyLedger s (writeEntry e next s) := by
  unfold writeEntry
  dsimp only
  rw [placeEntry_eq]
  exact OnlyLedger.of_accesses (startAccess_frame ..)

theorem writeRecord_frame (e : JEntry) (log : List Byte) (next : After) (s : State) :
    OnlyLedger s (writeRecord e log next s) := by
  unfold writeRecord
  dsimp only
  split
  · rw [placeEntry_eq]
    exact OnlyLedger.of_accesses (startAccess_frame ..)
  · exact OnlyLedger.of_accesses (startAccess_frame ..)

theorem journal_frame (e : JEntry) (log : List Byte) (next : After) (s : State) : OnlyLedger s (journal e log next s) := by
  unfold journal writeNow
  split
  · split
    · exact writeEntry_frame e next s
    · exact writeRecord_frame e log next s
  · exact ⟨rfl, rfl, rfl, rfl⟩

/-- A new entry that is written stands at the head of the ring. -/
theorem writeEntry_ring {e : JEntry} (next : After) (s : State) (h : e.jseq = 0) :
    ∃ n j, { e with ledger := n, jseq := j } ∈ (writeEntry e next s).ledger.ring := by
  unfold writeEntry
  rw [(startAccess_frame ..).ledger]
  unfold placeEntry
  rw [if_neg (not_not.2 h)]
  exact ⟨_, _, List.mem_append_right _ (List.mem_singleton.2 rfl)⟩

/-- A new entry without a text log record is made, with the number and the sequence number it is given. -/
theorem journal_entryMade {e : JEntry} (next : After) (s : State) (h : e.jseq = 0) {p : JEntry → Prop}
    (hp : ∀ n j, p { e with ledger := n, jseq := j }) : EntryMade (journal e [] next s) p := by
  unfold journal writeNow
  split
  · obtain ⟨n, j, hm⟩ := writeEntry_ring next s h
    exact Or.inl ⟨_, hm, hp n j⟩
  · exact Or.inr (Or.inl ⟨(e, [], next), List.mem_append_right _ (List.mem_singleton.2 rfl), hp e.ledger e.jseq⟩)

end Sys2Proof.Machine
end

section
/-!
PROOFS. SCLOSE: the checks of a stream, what SCLOSE discards of ASSAY and SORTER, and the entry it makes.
-/

namespace Sys2Proof.Machine

/-! ### Checks after a purchase -/

theorem homeRefusal_bought (s : State) (w : Who) (p c n : Nat) : homeRefusal (bought w p s) c n = homeRefusal s c n := by
  unfold homeRefusal
  rw [spend_build, noteIssue_build]

theorem liveRefusal_bought (s : State) (w : Who) (p n : Nat) : liveRefusal (bought w p s) n = liveRefusal s n := by
  unfold liveRefusal
  rw [stream_bought]

theorem homeRefusal_unbuilt {s : State} {n : Nat} (h : s.build.size.contexts ≤ n) (c : Nat) :
    homeRefusal s c n = some St.BOUNDS := if_pos h

theorem homeRefusal_foreign {s : State} {c n : Nat} (h : n < s.build.size.contexts) (hc : n / 512 ≠ c) :
    homeRefusal s c n = some St.BAD_OP := by
  unfold homeRefusal
  rw [if_neg (Nat.not_le.2 h), if_pos (show home n ≠ c from hc)]

theorem homeRefusal_mine {s : State} {c n : Nat} (h : n < s.build.size.contexts) (hc : n / 512 = c) :
    homeRefusal s c n = none := by
  unfold homeRefusal
  rw [if_neg (Nat.not_le.2 h), if_neg (show ¬ home n ≠ c from not_not.2 hc)]

theorem streamsUnknown_bought (s : State) (w : Who) (p : Nat) : streamsUnknown (bought w p s) = streamsUnknown s := by
  unfold streamsUnknown
  rw [reg_bought s w p (by decide), spend_ledger, noteIssue_ledger]

theorem awaitsStream_known {s : State} (h : streamsUnknown s = false) (w : Who) (p n : Nat) :
    awaitsStream (bought w p s) n = false := by
  unfold awaitsStream
  rw [streamsUnknown_bought, h, Bool.false_and]

/-- While the journal is open the streams' states are known. -/
theorem streamsUnknown_open {s : State} (h : journalOpen s = true) : streamsUnknown s = false := by
  unfold journalOpen at h
  unfold streamsUnknown
  rw [Bool.and_eq_true] at h
  rw [h.1, Bool.not_true, Bool.and_false]

theorem journalOpen_bought (s : State) (w : Who) (p : Nat) : journalOpen (bought w p s) = journalOpen s := by
  unfold journalOpen
  rw [reg_bought s w p (by decide), spend_ledger, noteIssue_ledger]

/-! ### What SCLOSE discards -/

theorem thread_of_threads {s t : State} (h : t.threads = s.threads) (w : Who) : thread t w = thread s w := by
  unfold thread
  rw [h]

theorem stream_of_streams {s t : State} (h : t.streams = s.streams) (n : Nat) : stream t n = stream s n := by
  unfold stream
  rw [h]

theorem scratchKept_of {s t : State} (h : t.scratch = s.scratch) (k : t.stores = s.stores) : ScratchKept s t :=
  ⟨h, k, fun c x => by rw [scratchByte, h, scratchByte]⟩

@[simp] theorem bump_threads (off k : Nat) (s : State) : (bump off k s).threads = s.threads := by
  unfold bump
  split <;> rfl

@[simp] theorem bump_scratch (off k : Nat) (s : State) : (bump off k s).scratch = s.scratch := by
  unfold bump
  split <;> rfl

@[simp] theorem bump_stores (off k : Nat) (s : State) : (bump off k s).stores = s.stores := by
  unfold bump
  split <;> rfl

@[simp] theorem stream_bump (off k n : Nat) (s : State) : stream (bump off k s) n = stream s n := by
  unfold bump
  split <;> rfl

@[simp] theorem movingTiles_bump (off k : Nat) (s : State) : movingTiles (bump off k s) = movingTiles s := by
  unfold bump
  split <;> rfl

/-- What satisfies a test that an unlisted key fails is listed. -/
theorem Tab.any_of_get {α : Type} {d : α} {t : Tab α} {n : Nat} {p : α → Bool} (hd : p d = false)
    (h : p (Tab.get d t n) = true) : t.any (fun e => p e.2) = true := by
  induction t with
  | nil => exact absurd (hd.symm.trans h) Bool.false_ne_true
  | cons e t ih =>
    obtain ⟨k, v⟩ := e
    rw [Tab.get] at h
    rw [List.any_cons, Bool.or_eq_true]
    split at h
    · exact Or.inl h
    · exact Or.inr (ih h)

/-- Inserting a value that passes a test as the old one does leaves what passes it. -/
theorem Tab.any_insert {α : Type} {d : α} {t : Tab α} {n : Nat} {x : α} {p : α → Bool} (hd : p d = false)
    (h : p x = p (Tab.get d t n)) : (Tab.insert t n x).any (fun e => p e.2) = t.any (fun e => p e.2) := by
  induction t with
  | nil => exact (Bool.or_false _).trans (h.trans hd)
  | cons e t ih =>
    obtain ⟨k, v⟩ := e
    rw [Tab.get] at h
    rw [Tab.insert]
    split
    case isTrue hk =>
      rw [if_pos hk] at h
      rw [List.any_cons, List.any_cons, h]
    case isFalse hk =>
      rw [if_neg hk] at h
      split
      · rw [List.any_cons (l := (k, v) :: t), List.any_cons, h]
        cases hg : p (Tab.get d t n)
        · exact Bool.false_or _
        · rw [Tab.any_of_get hd hg, Bool.or_true, Bool.or_true]
      · rw [List.any_cons, List.any_cons, ih h]

/-- Tiles that wait in ESCROW and pass a test, when a stream's context changes and keeps what waits there. -/
theorem await_onStream {n : Nat} {g : Stream → Stream} {s : State} (q : Tile → Bool)
    (hg : (g (stream s n)).escrow.await = (stream s n).escrow.await) (hne : g (stream s n) ≠ Stream.initial) :
    (onStream n g s).streams.any (fun e => e.2.escrow.await.any q) = s.streams.any (fun e => e.2.escrow.await.any q) := by
  have hs : (onStream n g s).streams = Tab.insert s.streams n (g (stream s n)) := if_neg hne
  rw [hs]
  exact Tab.any_insert (d := Stream.initial) (p := fun x => x.escrow.await.any q) rfl (congrArg (fun l => List.any l q) hg)

theorem comesTo_onStream {n : Nat} {g : Stream → Stream} {s : State} (h m : Nat)
    (hg : (g (stream s n)).escrow.await = (stream s n).escrow.await) (hne : g (stream s n) ≠ Stream.initial) :
    comesTo (onStream n g s) h m = comesTo s h m := by
  have hw := await_onStream (fun t => decide (t.stream = m) && visits t h) hg hne
  unfold comesTo movingTiles
  simp only [List.any_append, List.any_flatten, List.any_map, Function.comp_def] at hw ⊢
  rw [hw]
  rfl

/-- A live stream whose ASSAY text is discarded has the tiles on their way that it had. -/
theorem comesTo_discardAssay {n : Nat} {s : State} (h m : Nat) (hs : (stream s n).st ≠ .free) :
    comesTo (discardAssay n s) h m = comesTo s h m := by
  have e : comesTo (discardAssay n s) h m = comesTo (onStream n (fun x => { x with assay := AssayCtx.empty }) s) h m := by
    unfold comesTo discardAssay
    rw [movingTiles_bump]
  rw [e]
  exact comesTo_onStream h m rfl (fun he => hs (congrArg Stream.st he))

@[simp] theorem stream_discardAssay (n : Nat) (s : State) :
    stream (discardAssay n s) n = { stream s n with assay := AssayCtx.empty } := by
  rw [discardAssay, stream_bump, stream_onStream_same]

@[simp] theorem stream_discardSorter (n : Nat) (s : State) :
    stream (discardSorter n s) n = { stream s n with sorter := SorterCtx.empty } := by
  rw [discardSorter, stream_bump, stream_onStream_same]

/-- What SCLOSE discards leaves everything else of the stream, every other stream, every thread and all of scratch. -/
structure OnlyDiscards (n : Nat) (s t : State) : Prop where
  threads : t.threads = s.threads
  scratch : t.scratch = s.scratch
  stores : t.stores = s.stores
  others : ∀ m, m ≠ n → stream t m = stream s m
  st : (stream t n).st = (stream s n).st

theorem OnlyDiscards.refl (n : Nat) (s : State) : OnlyDiscards n s s := ⟨rfl, rfl, rfl, fun _ _ => rfl, rfl⟩

theorem OnlyDiscards.trans {n : Nat} {s t u : State} (h : OnlyDiscards n s t) (k : OnlyDiscards n t u) :
    OnlyDiscards n s u :=
  ⟨k.threads.trans h.threads, k.scratch.trans h.scratch, k.stores.trans h.stores,
    fun m hm => (k.others m hm).trans (h.others m hm), k.st.trans h.st⟩

theorem discardAssay_only (n : Nat) (s : State) : OnlyDiscards n s (discardAssay n s) := by
  refine ⟨?_, ?_, ?_, fun m hm => ?_, by rw [stream_discardAssay]⟩ <;> unfold discardAssay
  · rw [bump_threads, onStream_threads]
  · rw [bump_scratch, onStream_scratch]
  · rw [bump_stores, onStream_stores]
  · rw [stream_bump, stream_onStream_other _ _ hm]

theorem discardSorter_only (n : Nat) (s : State) : OnlyDiscards n s (discardSorter n s) := by
  refine ⟨?_, ?_, ?_, fun m hm => ?_, by rw [stream_discardSorter]⟩ <;> unfold discardSorter
  · rw [bump_threads, onStream_threads]
  · rw [bump_scratch, onStream_scratch]
  · rw [bump_stores, onStream_stores]
  · rw [stream_bump, stream_onStream_other _ _ hm]

/-- What SCLOSE discards of ASSAY and of SORTER, and its frame. -/
theorem discardIdle_spec {n : Nat} {s : State} (hs : (stream s n).st ≠ .free) :
    OnlyDiscards n s (discardIdle n s)
      ∧ (stream (discardIdle n s) n).assay = (if comesTo s 2 n then (stream s n).assay else AssayCtx.empty)
      ∧ (stream (discardIdle n s) n).sorter = (if comesTo s 3 n || (stream s n).building.any (fun b => decide (b.1 = 2))
          then (stream s n).sorter else SorterCtx.empty) := by
  unfold discardIdle
  cases ha : comesTo s 2 n
  · simp only [Bool.false_eq_true, if_false, comesTo_discardAssay _ _ hs, stream_discardAssay]
    cases hc : comesTo s 3 n || (stream s n).building.any (fun b => decide (b.1 = 2))
    · simp only [Bool.false_eq_true, if_false, stream_discardSorter, stream_discardAssay, and_self, and_true]
      exact (discardAssay_only n s).trans (discardSorter_only n _)
    · simp only [if_true, stream_discardAssay, and_self, and_true]
      exact discardAssay_only n s
  · simp only [if_true]
    cases hc : comesTo s 3 n || (stream s n).building.any (fun b => decide (b.1 = 2))
    · simp only [Bool.false_eq_true, if_false, stream_discardSorter, and_self, and_true]
      exact discardSorter_only n s
    · simp only [if_true, and_self, and_true]
      exact OnlyDiscards.refl n s

/-! ### SCLOSE -/

theorem exec_sclose {s : State} {w : Who} {f : Fields} (h : Issues s w f 0x32 50) :
    exec (.sclose w f) s = .next (actSclose w f (bought w 50 s)) :=
  exec_pays (op := opSclose w f) h rfl (by omega) rfl

/-- SCLOSE of a stream that its checks refuse. -/
theorem actSclose_refused {s : State} {w : Who} {f : Fields} {st : Nat}
    (h : homeRefusal s w.clerk.toNat (issuedThread s w).stream = some st) :
    actSclose w f (bought w 50 s) = putG w f.d (resultWord st 0 0) (bought w 50 s) := by
  simp only [actSclose, thread_bought, homeRefusal_bought, h]
  rfl

/-- SCLOSE of a stream at home, with the journal open, by the stream's state. -/
theorem actSclose_home {s : State} {w : Who} {f : Fields} (ho : journalOpen s = true)
    (h : homeRefusal s w.clerk.toNat (issuedThread s w).stream = none) :
    actSclose w f (bought w 50 s) =
      let n := (issuedThread s w).stream
      let b := bought w 50 s
      match (stream s n).st with
      | .free => putG w f.d (resultWord St.BAD_OP 0 0) b
      | .closing => putG w f.d (resultWord St.DEAD 0 0) b
      | st => sweep (closeStream n (if st = .dead then 3 else 0) (.closed0 (some (w, f.d.toNat)) n)
          (waitBusy w (discardIdle n b))) := by
  simp only [actSclose, thread_bought, homeRefusal_bought, h, awaitsStream_known (streamsUnknown_open ho), stream_bought, journalOpen_bought, ho]
  cases (stream s (issuedThread s w).stream).st <;> rfl

/-- The stream, the entry and the frame of a close that begins. -/
theorem closeStream_spec (n reason : Nat) (next : After) (s : State) :
    let u := closeStream n reason next s
    stream u n = { stream s n with st := .closing, closeReason := reason }
      ∧ (∀ m, m ≠ n → stream u m = stream s m) ∧ u.threads = s.threads ∧ u.scratch = s.scratch ∧ u.stores = s.stores
      ∧ EntryMade u (fun e => e.etype = 7 ∧ e.stream = n ∧ e.param = 2 * reason) := by
  intro u
  have hf := journal_frame (entry 7 n 0 (2 * reason) 0 0 0 0 false) [] next
    (onStream n (fun x => { x with st := .closing, closeReason := reason }) s)
  refine ⟨?_, fun m hm => ?_, hf.threads, hf.scratch, hf.stores, journal_entryMade next _ rfl (fun _ _ => ⟨rfl, rfl, rfl⟩)⟩
  · exact (stream_of_streams hf.streams n).trans (stream_onStream_same n _ s)
  · exact (stream_of_streams hf.streams m).trans (stream_onStream_other _ _ hm)

theorem comesTo_bought (s : State) (w : Who) (p h n : Nat) : comesTo (bought w p s) h n = comesTo s h n := by
  unfold comesTo movingTiles
  rw [spend_hops, spend_teller, spend_clear, spend_streams, spend_accesses, spend_ledger]
  rfl

@[simp] theorem stream_waitBusy (w : Who) (s : State) (n : Nat) : stream (waitBusy w s) n = stream s n := rfl

@[simp] theorem waitBusy_scratch (w : Who) (s : State) : (waitBusy w s).scratch = s.scratch := rfl

@[simp] theorem waitBusy_stores (w : Who) (s : State) : (waitBusy w s).stores = s.stores := rfl

/-- A live stream that begins to close: what is different before what follows by itself. -/
theorem closeLive_spec {w : Who} {n reason : Nat} (next : After) {b : State} (hs : (stream b n).st ≠ .free) :
    let u := closeStream n reason next (waitBusy w (discardIdle n b))
    (stream u n).st = .closing
      ∧ (stream u n).assay = (if comesTo b 2 n then (stream b n).assay else AssayCtx.empty)
      ∧ (stream u n).sorter = (if comesTo b 3 n || (stream b n).building.any (fun b => decide (b.1 = 2)) then
          (stream b n).sorter else SorterCtx.empty)
      ∧ EntryMade u (fun e => e.etype = 7 ∧ e.stream = n ∧ e.param = 2 * reason)
      ∧ (∀ m, m ≠ n → stream u m = stream b m)
      ∧ thread u w = { thread b w with wait := .busy }
      ∧ (∀ v, Who.key v ≠ Who.key w → thread u v = thread b v) ∧ u.scratch = b.scratch ∧ u.stores = b.stores := by
  intro u
  obtain ⟨hd, hassay, hsorter⟩ := discardIdle_spec hs
  obtain ⟨hstream, hother, hthreads, hscratch, hstores, hentry⟩ :=
    closeStream_spec n reason next (waitBusy w (discardIdle n b))
  refine ⟨by rw [hstream], by rw [hstream, ← hassay, stream_waitBusy], by rw [hstream, ← hsorter, stream_waitBusy], hentry,
    fun m hm => ?_, ?_, fun v hv => ?_, by rw [hscratch, waitBusy_scratch, hd.scratch],
    by rw [hstores, waitBusy_stores, hd.stores]⟩
  · rw [hother m hm, stream_waitBusy, hd.others m hm]
  · rw [thread_of_threads hthreads, waitBusy, thread_onThread_same, thread_of_threads hd.threads]
  · rw [thread_of_threads hthreads, waitBusy, thread_onThread_other _ _ hv, thread_of_threads hd.threads]

/-- Settles O34, by the state of the stream. -/
theorem closingAStream : Obligations.ClosingAStream := by
  intro s w f t n mine h ho
  have hx := exec_sclose h
  have hmine (hm : mine) := hx.trans (congrArg _ (actSclose_home (f := f) ho (homeRefusal_mine hm.1 hm.2)))
  refine ⟨fun hm hst => ?_, fun hm hst => ?_, fun hm hst => ?_, fun hn => ?_, fun hn hc => ?_⟩
  · have hlive : (stream s n).st ≠ .free := by
      rcases hst with e | e | e <;> (rw [e]; decide)
    have he : exec (.sclose w f) s = .next (sweep (closeStream n (if (stream s n).st = .dead then 3 else 0)
        (.closed0 (some (w, f.d.toNat)) n) (waitBusy w (discardIdle n (bought w 50 s))))) := by
      rw [hmine hm]
      rcases hst with e | e | e <;> (dsimp only [n, t] at e ⊢; rw [e])
    obtain ⟨hclosing, hassay, hsorter, hentry, hstreams, hthread, hthreads, hscratch, hstores⟩ :=
      closeLive_spec (w := w) (reason := if (stream s n).st = .dead then 3 else 0) (.closed0 (some (w, f.d.toNat)) n)
        (b := bought w 50 s) (by rwa [stream_bought])
    rw [comesTo_bought, stream_bought] at hassay hsorter
    rw [thread_bought] at hthread
    have hreason : 2 * (if (stream s n).st = .dead then 3 else 0) = (if (stream s n).st = .dead then 6 else 0) := by
      split <;> rfl
    rw [hreason] at hentry
    refine ⟨_, he, hclosing, hassay, hsorter, hentry, fun m hm => (hstreams m hm).trans (stream_bought s w 50 m), hthread,
      fun v hv => (hthreads v hv).trans (thread_bought_other s 50 hv), scratchKept_of ?_ ?_⟩
    · rw [hscratch, spend_scratch, noteIssue_scratch]
    · rw [hstores, spend_stores, noteIssue_stores]
  · refine writes_putG h _ ((hmine hm).trans ?_)
    dsimp only [n, t] at hst ⊢
    rw [hst]
  · refine writes_putG h _ ((hmine hm).trans ?_)
    dsimp only [n, t] at hst ⊢
    rw [hst]
  · exact writes_putG h _ (hx.trans (congrArg _ (actSclose_refused (homeRefusal_unbuilt hn _))))
  · exact writes_putG h _ (hx.trans (congrArg _ (actSclose_refused (homeRefusal_foreign hn hc))))

end Sys2Proof.Machine
end

section
/-!
PROOFS. Tickets: the number taken is not outstanding, and what a result word with a ticket leaves. EMIT and FLOW: what
they take, what joins a queue, and what they leave unchanged.
-/

namespace Sys2Proof.Machine

/-! ### Tickets -/

/-- The search for a ticket number ends at a number that is not outstanding, or has seen every number it could. -/
theorem nextTicket_search (fuel : Nat) (s : State) (c t : Nat) (ht : t < 0xFFF) :
    nextTicket fuel s c t < 0xFFF ∧ (isOutstanding s c (nextTicket fuel s c t) = false
      ∨ ∀ i < fuel, isOutstanding s c ((t + i) % 0xFFF) = true) := by
  induction fuel generalizing t with
  | zero => exact ⟨ht, Or.inr fun i hi => absurd hi (Nat.not_lt_zero i)⟩
  | succ fuel ih =>
    rw [nextTicket]
    split
    case isFalse h => exact ⟨ht, Or.inl (Bool.eq_false_iff.2 h)⟩
    case isTrue h =>
      obtain ⟨hlt, hor⟩ := ih ((t + 1) % 0xFFF) (Nat.mod_lt _ (by omega))
      refine ⟨hlt, hor.imp_right fun hall i hi => ?_⟩
      cases i with
      | zero => rwa [Nat.add_zero, Nat.mod_eq_of_lt ht]
      | succ i =>
        have := hall i (by omega)
        rwa [Nat.mod_add_mod, Nat.add_right_comm] at this

theorem isOutstanding_iff {s : State} {c k : Nat} :
    isOutstanding s c k = true ↔ ∃ p ∈ s.tickets, p.1 = ticketKey c k ∧ p.2.done = false := by
  simp [isOutstanding]

/-- A CLERK whose ticket numbers are all outstanding has as many outstanding tickets. -/
theorem outstanding_of_all {s : State} {c : Nat} (h : ∀ j < 0xFFF, isOutstanding s c j = true) :
    0xFFF ≤ outstanding s c := by
  have hsub : (List.range 0xFFF).map (ticketKey c)
      ⊆ (s.tickets.filter (fun p => decide (p.1 / 4096 = c) && !p.2.done)).map Prod.fst := by
    intro x hx
    obtain ⟨j, hj, rfl⟩ := List.mem_map.1 hx
    have hj := List.mem_range.1 hj
    obtain ⟨p, hp, hk, hd⟩ := isOutstanding_iff.1 (h j hj)
    refine List.mem_map.2 ⟨p, List.mem_filter.2 ⟨hp, ?_⟩, hk⟩
    have hc : p.1 / 4096 = c := by
      rw [hk, ticketKey]
      omega
    rw [hc, hd]
    simp
  have hnodup : ((List.range 0xFFF).map (ticketKey c)).Nodup :=
    List.nodup_range.map fun i j hij => by simpa [ticketKey] using hij
  have hlen := (hnodup.subperm hsub).length_le
  rwa [List.length_map, List.length_map, List.length_range] at hlen

/-- The ticket number that is taken is not outstanding. -/
theorem nextTicket_free {s : State} {c t : Nat} (ht : t < 0xFFF) (ho : outstanding s c < 256) :
    nextTicket 0xFFF s c t < 0xFFF ∧ isOutstanding s c (nextTicket 0xFFF s c t) = false := by
  obtain ⟨hlt, hfree | hall⟩ := nextTicket_search 0xFFF s c t ht
  · exact ⟨hlt, hfree⟩
  · have := outstanding_of_all (s := s) (c := c) fun j hj => by
      have hi := hall ((j + (0xFFF - t)) % 0xFFF) (Nat.mod_lt _ (by omega))
      rwa [Nat.add_mod_mod, show t + (j + (0xFFF - t)) = j + 0xFFF by omega, Nat.add_mod_right, Nat.mod_eq_of_lt hj] at hi
    omega

theorem ticket?_onTicket_same (c k : Nat) (g : Ticket → Ticket) (s : State) :
    ticket? (onTicket c k g s) c k = (ticket? s c k).map g := by
  unfold ticket? onTicket
  rw [List.find?_map]
  have e : ((fun p : Nat × Ticket => p.1 == ticketKey c k) ∘
      fun p => if p.1 = ticketKey c k then (p.1, g p.2) else p) = fun p => p.1 == ticketKey c k := by
    funext p
    dsimp only [Function.comp]
    split <;> rfl
  rw [e]
  cases hf : s.tickets.find? (fun p => p.1 == ticketKey c k) with
  | none => rfl
  | some p =>
    have hk : p.1 = ticketKey c k := by simpa using List.find?_some hf
    simp [hk]

/-- An entry that is inserted is the first one found of its key. -/
theorem Tab.find?_insert {α : Type} (t : Tab α) (n : Nat) (x : α) :
    (Tab.insert t n x).find? (fun p => p.1 == n) = some (n, x) := by
  induction t with
  | nil => simp [Tab.insert]
  | cons e t ih =>
    rw [Tab.insert]
    split
    · simp
    · split
      · simp
      · rename_i hk _
        rw [List.find?_cons_of_neg (by simpa using Ne.symm hk)]
        exact ih

/-- The state of a CLERK that has taken a ticket. -/
def withTicket (c k n ledger : Nat) (s : State) : State :=
  { s with
    ticketNext := Tab.set 0 s.ticketNext c ((k + 1) % 0xFFF),
    tickets := Tab.insert s.tickets (ticketKey c k) { Ticket.none with stream := n, ledger := ledger } }

/-- While fewer than 256 tickets are outstanding, one that is not is taken. -/
theorem takeTicket_some {s : State} {c : Nat} (ho : outstanding s c < 256) (ht : Tab.get 0 s.ticketNext c < 0xFFF)
    (n ledger : Nat) : ∃ k < 0xFFF, isOutstanding s c k = false ∧ takeTicket c n ledger s = some (k, withTicket c k n ledger s) := by
  obtain ⟨hlt, hfree⟩ := nextTicket_free ht ho
  exact ⟨_, hlt, hfree, if_neg (Nat.not_le.2 ho)⟩

theorem ticket?_withTicket (c k n ledger : Nat) (s : State) :
    ticket? (withTicket c k n ledger s) c k = some { Ticket.none with stream := n, ledger := ledger } := by
  unfold ticket? withTicket
  rw [Tab.find?_insert]
  rfl

theorem outstanding_bought (s : State) (w : Who) (p c : Nat) : outstanding (bought w p s) c = outstanding s c := by
  unfold outstanding
  rw [spend_tickets, noteIssue_tickets]

theorem isOutstanding_bought (s : State) (w : Who) (p c k : Nat) : isOutstanding (bought w p s) c k = isOutstanding s c k := by
  unfold isOutstanding
  rw [spend_tickets, noteIssue_tickets]

/-- A purchase leaves what a ticket is taken by. -/
theorem takeTicket_bought {s : State} {c : Nat} (w : Who) (p : Nat) (ho : outstanding s c < 256)
    (ht : Tab.get 0 s.ticketNext c < 0xFFF) (n ledger : Nat) :
    ∃ k < 0xFFF, isOutstanding s c k = false
      ∧ takeTicket c n ledger (bought w p s) = some (k, withTicket c k n ledger (bought w p s)) := by
  have := takeTicket_some (s := bought w p s) (c := c) (by rwa [outstanding_bought])
    (by rwa [spend_ticketNext, noteIssue_ticketNext]) n ledger
  simpa only [isOutstanding_bought] using this

/-! ### A result word with a ticket -/

theorem Thread.setG_ticket (r : BitVec 4) (v : Word) (k : Nat) (t : Thread) :
    Thread.setG r v { t with ticket := k } = { t.setG r v with ticket := k } := by
  unfold Thread.setG
  split <;> rfl

/-- A result word with a ticket, and TICKET, for a thread whose instruction may issue. -/
theorem thread_putTicket {s : State} {w : Who} {f : Fields} {op c : Nat} (h : Issues s w f op c) {b : State}
    (hb : thread b w = issuedThread s w) (d : BitVec 4) (k : Nat) :
    thread (putTicket w d k b) w
      = { (issuedThread s w).setG d (resultWord 0 0 k) with pc := (issuedThread s w).pc + 1, ticket := k } := by
  unfold putTicket putG
  rw [thread_onThread_same, thread_onThread_same, thread_onTicket, hb, Thread.setG_ticket]
  refine goOn_of_issues h _ _ ?_ ?_ ?_ ?_ <;> (unfold Thread.setG; split <;> rfl)

theorem thread_putTicket_other {w v : Who} (h : Who.key v ≠ Who.key w) (d : BitVec 4) (k : Nat) (b : State) :
    thread (putTicket w d k b) v = thread b v := by
  unfold putTicket putG
  rw [thread_onThread_other _ _ h, thread_onThread_other _ _ h, thread_onTicket]

@[simp] theorem putTicket_scratch (w : Who) (d : BitVec 4) (k : Nat) (s : State) :
    (putTicket w d k s).scratch = s.scratch := rfl
@[simp] theorem putTicket_stores (w : Who) (d : BitVec 4) (k : Nat) (s : State) :
    (putTicket w d k s).stores = s.stores := rfl
@[simp] theorem putTicket_streams (w : Who) (d : BitVec 4) (k : Nat) (s : State) :
    (putTicket w d k s).streams = s.streams := rfl
@[simp] theorem putTicket_hops (w : Who) (d : BitVec 4) (k : Nat) (s : State) : (putTicket w d k s).hops = s.hops := rfl
@[simp] theorem putTicket_teller (w : Who) (d : BitVec 4) (k : Nat) (s : State) :
    (putTicket w d k s).teller = s.teller := rfl
@[simp] theorem putTicket_accesses (w : Who) (d : BitVec 4) (k : Nat) (s : State) :
    (putTicket w d k s).accesses = s.accesses := rfl
@[simp] theorem queueAt_putTicket (w : Who) (d : BitVec 4) (k h : Nat) (s : State) :
    queueAt (putTicket w d k s) h = queueAt s h := rfl

theorem ticket?_putTicket (w : Who) (d : BitVec 4) (k : Nat) (s : State) :
    ticket? (putTicket w d k s) w.clerk.toNat k
      = (ticket? s w.clerk.toNat k).map (fun x => { x with no := (thread s w).no }) := by
  rw [← ticket?_onTicket_same]
  rfl

/-! ### EMIT -/

theorem hopRoom_bought (s : State) (w : Who) (p h : Nat) : hopRoom (bought w p s) h = hopRoom s h := by
  unfold hopRoom queueFill outputsTo heldHere
  simp only [queueAt_bought, stream_bought, spend_teller, noteIssue_teller, spend_accesses, noteIssue_accesses,
    spend_ledger, noteIssue_ledger]

theorem exec_emit {s : State} {w : Who} {f : Fields} (h : Issues s w f 0x70 10) :
    exec (.emit w f) s = .next (actEmit w f false (bought w 10 s)) :=
  exec_pays (op := opEmit w f) h rfl (by omega) rfl

/-- The checks of EMIT on a stream that is known, in order. -/
theorem actEmit_eq {s : State} {w : Who} {f : Fields} :
    let t := issuedThread s w
    let b := bought w 10 s
    let x := (t.reg f.a).toNat
    let len := (t.reg f.b).toNat
    let sink := f.imm.toNat % 16
    let no (st : Nat) : State := putG w f.d (resultWord st 0 0) b
    actEmit w f false b =
      if s.build.size.contexts ≤ t.stream then no St.BOUNDS
      else if t.ledger = 0 then no St.BAD_OP
      else if len = 0 ∨ 4096 < len then no St.LEN
      else if sink < 9 ∨ 11 < sink then no St.BAD_OP
      else if awaitsStream b t.stream then waitOpen w (.emit w f) b
      else match liveRefusal s t.stream with
      | some st => no st
      | none =>
        if (stream s t.stream).st = .held then no St.BAD_OP
        else if scratchSize < x + len then no St.BOUNDS
        else if !hopRoom s Hop.LEDGER then waitRetry w (.emit w f) b
        else match takeTicket w.clerk.toNat t.stream t.ledger b with
          | none => waitRetry w (.emit w f) b
          | some (k, u) =>
            let (v, u) := takeFree u
            putTicket w f.d k (enqueue Hop.LEDGER
              (emitTileOf u w sink k (v % 2 == 1) (scratchRead u w.clerk.toNat x len)) u) := by
  have hs : immBits f 0 4 = f.imm.toNat % 16 := by simp [immBits, bits]
  simp only [actEmit, thread_bought, spend_build, noteIssue_build, liveRefusal_bought, stream_bought, hopRoom_bought, hs,
    Bool.not_false, Bool.true_and]
  rfl

@[simp] theorem emitTileOf_payload (s : State) (w : Who) (sink k : Nat) (last : Bool) (data : List Byte) :
    (emitTileOf s w sink k last data).payload = data := rfl

/-- EMIT that no check refuses takes a ticket, and its tile joins the queue of the LEDGER. -/
theorem actEmit_sends {s : State} {w : Who} {f : Fields} {len : Nat} (hn : (issuedThread s w).stream < s.build.size.contexts)
    (hl : (issuedThread s w).ledger ≠ 0) (hlen : ((issuedThread s w).reg f.b).toNat = len) (h1 : 1 ≤ len)
    (h2 : len ≤ 4096) (h3 : 9 ≤ f.imm.toNat % 16) (h4 : f.imm.toNat % 16 ≤ 11) (hu : streamsUnknown s = false)
    (hst : (stream s (issuedThread s w).stream).st = .opened) (hx : ((issuedThread s w).reg f.a).toNat + len ≤ 0x40000)
    (hr : hopRoom s 8 = true) {k : Nat} {v : State}
    (ht : takeTicket w.clerk.toNat (issuedThread s w).stream (issuedThread s w).ledger (bought w 10 s) = some (k, v)) :
    actEmit w f false (bought w 10 s) = putTicket w f.d k (enqueue Hop.LEDGER
      (emitTileOf (takeFree v).2 w (f.imm.toNat % 16) k (Config.freeValue v.free % 2 == 1)
        (scratchRead (takeFree v).2 w.clerk.toNat ((issuedThread s w).reg f.a).toNat len)) (takeFree v).2) := by
  subst hlen
  have hlive : liveRefusal s (issuedThread s w).stream = none := by
    unfold liveRefusal
    rw [hst]
  rw [actEmit_eq]
  dsimp only
  rw [if_neg (Nat.not_le.2 hn), if_neg hl, if_neg (by omega), if_neg (by omega), awaitsStream_known hu, if_neg (by decide),
    hlive]
  dsimp only
  rw [hst, if_neg (by decide), if_neg (show ¬ 0x40000 < _ by omega), hr, if_neg (by decide), ht]
  rfl

/-- What is different after a tile has joined a queue for a thread that took a ticket. -/
theorem sent_frame {s : State} {w : Who} {f : Fields} {op c h k n l : Nat} (hi : Issues s w f op c) {v : State}
    (hv : v = withTicket w.clerk.toNat k n l (bought w c s)) (z : Tile) :
    let u := putTicket w f.d k (enqueue h z (takeFree v).2)
    thread u w = { (issuedThread s w).setG f.d (resultWord 0 0 k) with pc := (issuedThread s w).pc + 1, ticket := k }
      ∧ queueAt u h = queueAt s h ++ [z] ∧ u.streams = s.streams
      ∧ (∀ x, Who.key x ≠ Who.key w → thread u x = thread s x) ∧ ScratchKept s u := by
  intro u
  have hth : v.threads = (bought w c s).threads := by rw [hv, withTicket]
  refine ⟨thread_putTicket hi ((thread_of_threads hth w).trans (thread_bought s w c)) f.d k, ?_, ?_, fun x hx => ?_, ?_⟩
  · rw [queueAt_putTicket, queueAt_enqueue_same, ← queueAt_bought s w c h, hv]
    rfl
  · have e : v.streams = (bought w c s).streams := by rw [hv, withTicket]
    exact e.trans (spend_streams _ _)
  · rw [thread_putTicket_other hx, ← thread_bought_other s c hx]
    exact thread_of_threads hth x
  · refine scratchKept_of ?_ ?_
    · have e : v.scratch = (bought w c s).scratch := by rw [hv, withTicket]
      exact e.trans (spend_scratch _ _)
    · have e : v.stores = (bought w c s).stores := by rw [hv, withTicket]
      exact e.trans (spend_stores _ _)

/-- Settles O37: EMIT by its checks in order, and by the tile that joins the queue of the LEDGER. -/
theorem emittingText : Obligations.EmittingText := by
  intro s w f t c n x len sink h
  have hx := exec_emit h
  have he := hx.trans (congrArg _ actEmit_eq)
  dsimp only at he
  refine ⟨fun hn => ?_, fun hn => ?_⟩
  · exact writes_putG h _ (he.trans (congrArg _ (if_pos hn)))
  rw [if_neg (Nat.not_le.2 hn)] at he
  refine ⟨fun hl => ?_, fun hl hlen => ?_, fun hl h1 h2 hs => ?_, fun hl h1 h2 h3 h4 hu hst hb hr ho htn => ?_⟩
  · exact writes_putG h _ (he.trans (congrArg _ (if_pos hl)))
  · rw [if_neg hl] at he
    exact writes_putG h _ (he.trans (congrArg _ (if_pos hlen)))
  · rw [if_neg hl, if_neg (show ¬ (len = 0 ∨ 4096 < len) by omega)] at he
    exact writes_putG h _ (he.trans (congrArg _ (if_pos hs)))
  · obtain ⟨k, hk, hfree, ht⟩ := takeTicket_bought w 10 ho htn n t.ledger
    obtain ⟨hthread, hqueue, hstreams, hthreads, hscratch⟩ := sent_frame (h := 8) h rfl
      (emitTileOf (takeFree (withTicket c k n t.ledger (bought w 10 s))).2 w sink k
        (Config.freeValue (withTicket c k n t.ledger (bought w 10 s)).free % 2 == 1)
        (scratchRead (takeFree (withTicket c k n t.ledger (bought w 10 s))).2 c x len))
    refine ⟨_, hx.trans (congrArg _ (actEmit_sends hn hl rfl h1 h2 h3 h4 hu hst hb hr ht)), k, _, hk, hfree, hthread, hqueue,
      rfl, ?_, ?_, ?_, rfl, rfl, rfl, hstreams, hthreads, hscratch⟩
    · exact congrArg Thread.stream (thread_bought s w 10)
    · exact congrArg Thread.ledger (thread_bought s w 10)
    · rw [emitTileOf_payload, ← scratchRead_bought s w 10 c x len]
      refine scratchRead_congr ?_ c x len
      rfl

end Sys2Proof.Machine
end

section
/-!
PROOFS. FLOW: its checks in order, the ticket it takes, and where its tile or chunk goes.
-/

namespace Sys2Proof.Machine

/-! ### The checks of FLOW -/

/-- Of a HELD stream, FLOW re-issues no other item than the refused one. -/
theorem flowHeld_iff (s : State) (n l first : Nat) :
    ((stream s n).st = .held ∧ first ≠ Hop.TELLER ∧ (!flowReissues s n l) = true)
      ↔ ((stream s n).st = .held ∧ first ≠ 1
        ∧ ¬ ((stream s n).heldAt ≠ 1 ∧ l ≠ 0 ∧ (stream s n).heldItem = l)) := by
  unfold flowReissues
  simp only [Bool.not_eq_true', Bool.and_eq_false_iff, decide_eq_false_iff_not]
  exact ⟨fun ⟨h, h1, h2⟩ => ⟨h, h1, by tauto⟩, fun ⟨h, h1, h2⟩ => ⟨h, h1, by tauto⟩⟩

/-- A span that FLOW may not name. -/
theorem flowSpan_false_iff (s : State) (n a len : Nat) : (!flowSpan s n a len) = true ↔ len ≠ 0
    ∧ inRegion s 0 a len = false ∧ inRegion s 1 a len = false ∧ inOutput (stream s n) a len = false := by
  unfold flowSpan
  simp only [Bool.not_eq_true', Bool.or_eq_false_iff, decide_eq_false_iff_not, and_assoc]

/-- The first check of a list: the one it begins with, or the first of the rest. -/
theorem firstRefusal_cons {α : Type} (b : Bool) (x : α) (checks : List (Bool × α)) :
    firstRefusal ((b, x) :: checks) = if b then some x else firstRefusal checks := by
  unfold firstRefusal
  cases b <;> rfl

/-- The checks of FLOW on its stream. -/
theorem streamRefusal_eq (s : State) (c n : Nat) : (homeRefusal s c n).or (liveRefusal s n)
    = firstRefusal [(decide (s.build.size.contexts ≤ n), 0x21), (decide (n / 512 ≠ c), 0x70),
      (decide ((stream s n).st = .free), 0x70), (decide ((stream s n).st = .dead ∨ (stream s n).st = .closing), 0x11)] := by
  unfold homeRefusal liveRefusal
  simp only [firstRefusal_cons, decide_eq_true_eq]
  split
  · rfl
  · split
    · rename_i _ hc
      rw [if_pos (show n / 512 ≠ c from hc)]
      rfl
    · rename_i _ hc
      rw [if_neg (show ¬ n / 512 ≠ c from hc)]
      cases (stream s n).st <;> rfl

/-- A refusal by the first checks comes before the others. -/
theorem firstRefusal_append {α : Type} (xs ys : List (Bool × α)) :
    firstRefusal (xs ++ ys) = (firstRefusal xs).or (firstRefusal ys) := by
  unfold firstRefusal
  rw [List.find?_append]
  cases xs.find? Prod.fst <;> rfl

theorem blockInScratch_eq (x : Nat) : (!blockInScratch x) = decide (x % 64 ≠ 0 ∨ 0x40000 < x + 64) := by
  unfold blockInScratch linesInScratch scratchSize
  rw [Bool.eq_iff_iff]
  simp only [Bool.not_eq_true', Bool.and_eq_false_iff, decide_eq_false_iff_not, decide_eq_true_eq]
  omega

/-- The checks of FLOW after those on its stream. -/
theorem flowRefusal_eq (s : State) (w : Who) (x : Nat) (b : FlowBlock) :
    flowRefusal s w x b =
      let n := (thread s w).stream
      let l := (thread s w).ledger
      let y := stream s n
      let first := routeHop b.route 0
      ((homeRefusal s w.clerk.toNat n).or (liveRefusal s n)).or (firstRefusal
        [(decide (x % 64 ≠ 0 ∨ 0x40000 < x + 64), 0x21),
         (decide (y.st = .held ∧ first ≠ 1 ∧ ¬ (y.heldAt ≠ 1 ∧ l ≠ 0 ∧ y.heldItem = l)), 0x70),
         (b.reserved || decide (b.kind = 3) || !countFits b, 0x70), (!routeLegal b.route (kindOf b.kind), 0x70),
         (b.replay, 0x70), (decide (first ≠ 1 ∧ l = 0), 0x70),
         (decide (routeSink b.route = 12 ∧ (b.result % 64 ≠ 0 ∨ 0x40000 < b.result + 4096)), 0x21),
         (decide (routeSink b.route ≠ 12 ∧ b.result ≠ 0), 0x70),
         (decide (b.stack = false ∧ 0x40000 < b.addr + payloadLen b), 0x21),
         (decide (b.stack = true ∧ first ≠ 1 ∧ payloadLen b ≠ 0 ∧ inRegion s 0 b.addr (payloadLen b) = false
            ∧ inRegion s 1 b.addr (payloadLen b) = false ∧ inOutput y b.addr (payloadLen b) = false), 0x21)]) := by
  unfold flowRefusal
  dsimp only
  cases (homeRefusal s w.clerk.toNat (thread s w).stream).or (liveRefusal s (thread s w).stream) with
  | some st => rfl
  | none =>
    rw [Option.none_or]
    simp only [firstRefusal_cons]
    refine ite_congr (by rw [blockInScratch_eq]) (fun _ => rfl) fun _ => ?_
    refine ite_congr (by rw [decide_eq_true_eq, flowHeld_iff]) (fun _ => rfl) fun _ => ?_
    refine ite_congr rfl (fun _ => rfl) fun _ => ?_
    refine ite_congr rfl (fun _ => rfl) fun _ => ?_
    refine ite_congr rfl (fun _ => rfl) fun _ => ?_
    refine ite_congr (by rw [decide_eq_true_eq]) (fun _ => rfl) fun _ => ?_
    refine ite_congr (by rw [decide_eq_true_eq]) (fun _ => rfl) fun _ => ?_
    refine ite_congr (by rw [decide_eq_true_eq]) (fun _ => rfl) fun _ => ?_
    cases hs : b.stack
    · simp [firstRefusal, scratchSize]
    · simp only [flowSpan_false_iff, Bool.not_true, Bool.false_eq_true, if_false, decide_eq_true_eq, reduceCtorEq,
        false_and, true_and]
      rfl

/-! ### What a purchase leaves of the checks -/

theorem inRegion_spend (c : Nat) (s : State) (r a n : Nat) : inRegion (spend c s) r a n = inRegion s r a n := by
  have hreg (i : Nat) : reg (spend c s) (regionKey r + i) = reg s (regionKey r + i) := by
    refine spend_regs c s _ ?_
    simp only [List.mem_cons, List.not_mem_nil, or_false, not_or, regionKey, R.PUR_SPENT_LO, R.PUR_SPENT_HI]
    omega
  have hbase : regionBase (spend c s) r = regionBase s r := by
    unfold regionBase
    rw [hreg 1]
    exact congrArg (· + _) (hreg 0)
  have hsize : regionSize (spend c s) r = regionSize s r := by
    unfold regionSize
    rw [hreg 2]
  unfold inRegion
  rw [hbase, hsize]

theorem flowRefusal_bought (s : State) (w : Who) (c x : Nat) (b : FlowBlock) :
    flowRefusal (bought w c s) w x b = flowRefusal (noteIssue w s) w x b := by
  have hstream (n : Nat) : stream (bought w c s) n = stream (noteIssue w s) n := stream_bought s w c n
  have hhome (d n : Nat) : homeRefusal (bought w c s) d n = homeRefusal (noteIssue w s) d n := homeRefusal_bought s w c d n
  have hlive (n : Nat) : liveRefusal (bought w c s) n = liveRefusal (noteIssue w s) n := liveRefusal_bought s w c n
  simp only [flowRefusal_eq, spend_thread, hstream, hhome, hlive, inRegion_spend]

theorem sendAhead_bought (s : State) (w : Who) (c : Nat) : sendAhead (bought w c s) w = sendAhead (noteIssue w s) w := by
  unfold sendAhead
  simp only [spend_thread]

/-! ### Where the tile or the chunk goes -/

theorem ticket?_of_tickets {s t : State} (h : t.tickets = s.tickets) (c k : Nat) : ticket? t c k = ticket? s c k := by
  unfold ticket?
  rw [h]

/-- HOP of a flow block's route is the block's to fill. -/
theorem routeIdx_readFlow (bs : List Byte) : routeIdx (readFlow bs).route = 0 := by
  show bits (setBits (bits (leAt bs (8 * 3) 8) 0 32) 28 3 0) 28 3 = 0
  unfold setBits bits
  omega

/-- Where the ticket of a flow delivers its result: RESULT of its block plus one, on a route to the CLERK sink. -/
def flowResult (b : FlowBlock) : Nat := if routeSink b.route = 12 then b.result + 1 else 0

/-- What a flow's ticket is to hold once its tile or chunk has left. -/
def FlowTicket (s : State) (c k n result : Nat) : Prop :=
  ∃ z, ticket? s c k = some z ∧ z.done = false ∧ z.old = false ∧ z.stream = n ∧ z.result = result

/-- A ticket just taken, once its RESULT and other fields are set. -/
theorem flowTicket_of {s v : State} {c k n r : Nat} {g : Ticket → Ticket}
    (ht : ticket? v c k = some { Ticket.none with stream := n, ledger := 0 }) (h : ticket? s c k = (ticket? v c k).map g)
    (hg : let z := g { Ticket.none with stream := n, ledger := 0 }
      z.done = false ∧ z.old = false ∧ z.stream = n ∧ z.result = r) :
    FlowTicket s c k n r := by
  rw [ht] at h
  exact ⟨_, h, hg⟩

/-- A chunk that reaches TELLER stands last in its input queue. -/
theorem reachTeller_spec (e : Chunk) (s : State) :
    (reachTeller e s).threads = s.threads ∧ (reachTeller e s).scratch = s.scratch ∧ (reachTeller e s).stores = s.stores
      ∧ (reachTeller e s).tickets = s.tickets
      ∧ ∃ x, (reachTeller e s).teller.queue = s.teller.queue ++ [x] ∧ x.stream = e.stream ∧ x.len = e.len ∧ x.tag = e.tag
        ∧ x.route = e.route ∧ x.settle = e.settle := by
  unfold reachTeller
  dsimp only
  split <;> exact ⟨rfl, rfl, rfl, rfl, _, rfl, rfl, rfl, rfl, rfl, rfl⟩

/-- A flow whose route begins at TELLER. -/
theorem sendFlow_teller {w : Who} {f : Fields} {b : FlowBlock} {k n : Nat} {v : State}
    (ht : ticket? v w.clerk.toNat k = some { Ticket.none with stream := n, ledger := 0 })
    (h1 : routeHop b.route 0 = 1) :
    ∃ u, sendFlow w f b k v = putTicket w f.d k u
      ∧ u.threads = v.threads ∧ u.scratch = v.scratch ∧ u.stores = v.stores
      ∧ FlowTicket u w.clerk.toNat k n (flowResult b)
      ∧ ∃ e, u.teller.queue = v.teller.queue ++ [e] ∧ e.stream = (thread v w).stream ∧ e.len = payloadLen b ∧ e.tag = k
        ∧ e.route = some b.route ∧ e.settle = b.settle := by
  let s1 := onTicket w.clerk.toNat k (fun x => { x with result := flowResult b }) v
  let e := memoryChunk (thread v w).stream (payloadLen b) (b.textEnd || b.eos) b.eos k w.clerk.toNat
    (if b.stack then .stack b.addr else .bytes (scratchRead s1 w.clerk.toNat b.addr (payloadLen b))) b.settle (some b.route)
  obtain ⟨hth, hsc, hst, htk, hq⟩ := reachTeller_spec e s1
  refine ⟨reachTeller e s1, if_pos h1, hth, hsc, hst, flowTicket_of ht (g := fun x => { x with result := flowResult b }) ?_
    ⟨rfl, rfl, rfl, rfl⟩, hq⟩
  rw [ticket?_of_tickets htk, ticket?_onTicket_same]

/-- The state in which a flow's ticket names its item and a HELD stream that it re-issues is OPEN. -/
def flowReady (w : Who) (b : FlowBlock) (k : Nat) (v : State) : State :=
  let s := onTicket w.clerk.toNat k (fun x => { x with result := flowResult b }) v
  let s := onTicket w.clerk.toNat k (fun x => { x with ledger := (thread v w).ledger, no := (thread v w).no }) s
  if flowReissues s (thread v w).stream (thread v w).ledger then
    onStream (thread v w).stream (fun x => { x with st := .opened, heldAt := 0, heldItem := 0 }) s
  else s

/-- The tile of a flow, as it stands before its payload. -/
def flowTileOf (w : Who) (b : FlowBlock) (k : Nat) (v : State) : Tile :=
  flowTile (onTicket w.clerk.toNat k (fun x => { x with result := flowResult b }) v) w b k

/-- A flow whose route begins elsewhere: what its tile waits for, or the queue that it joins. -/
theorem sendFlow_station {w : Who} {f : Fields} {b : FlowBlock} {k : Nat} {v : State} (h1 : routeHop b.route 0 ≠ 1) :
    sendFlow w f b k v =
      let s := flowReady w b k v
      let t := flowTileOf w b k v
      let len := payloadLen b
      let data := if b.stack then [] else scratchRead s w.clerk.toNat b.addr len
      putTicket w f.d k (
        if b.stack ∧ len ≠ 0 then
          let lines := readSpan s b.addr len
          startAccess 0 (lineBill lines.length) .read 0 lines (.flowPayload t (b.addr % 64) len) s
        else if flowUnread s (thread v w).stream then startAccess 0 [] .read 0 (readyLines s data) (.flowPayload t 0 len) s
        else issueTile t data s) := if_neg h1

/-- What the preparation of a flow leaves, and the ticket. -/
theorem flowReady_spec {w : Who} {b : FlowBlock} {k n : Nat} {v : State}
    (ht : ticket? v w.clerk.toNat k = some { Ticket.none with stream := n, ledger := 0 }) :
    let s := flowReady w b k v
    s.threads = v.threads ∧ s.scratch = v.scratch ∧ s.stores = v.stores ∧ s.hops = v.hops ∧ s.accesses = v.accesses
      ∧ s.nextAccess = v.nextAccess
      ∧ FlowTicket s w.clerk.toNat k n (flowResult b) := by
  have htk : ticket? (flowReady w b k v) w.clerk.toNat k = (ticket? v w.clerk.toNat k).map
      (fun x => { x with result := flowResult b, ledger := (thread v w).ledger, no := (thread v w).no }) := by
    unfold flowReady
    dsimp only
    split <;> simp only [ticket?_of_tickets (onStream_tickets ..), ticket?_onTicket_same, Option.map_map] <;> rfl
  have hticket := flowTicket_of ht htk (r := flowResult b) ⟨rfl, rfl, rfl, rfl⟩
  intro s
  refine ⟨?_, ?_, ?_, ?_, ?_, ?_, hticket⟩ <;> (unfold s flowReady; dsimp only; split <;> rfl)

/-- A flow whose route begins at a station: the tile joins its queue, or a read of its payload is under way. -/
theorem sendFlow_tile {w : Who} {f : Fields} {b : FlowBlock} {k n : Nat} {v : State}
    (ht : ticket? v w.clerk.toNat k = some { Ticket.none with stream := n, ledger := 0 })
    (h1 : routeHop b.route 0 ≠ 1) (hidx : routeIdx b.route = 0) :
    ∃ u, sendFlow w f b k v = putTicket w f.d k u
      ∧ u.threads = v.threads ∧ u.scratch = v.scratch ∧ u.stores = v.stores
      ∧ FlowTicket u w.clerk.toNat k n (flowResult b)
      ∧ ((b.stack = false ∨ payloadLen b = 0) → flowUnread v (thread v w).stream = false →
          queueAt u (routeHop b.route 0) = queueAt v (routeHop b.route 0)
            ++ [{ flowTileOf w b k v with
                  payload := scratchRead v w.clerk.toNat b.addr (payloadLen b),
                  check := crc32c (scratchRead v w.clerk.toNat b.addr (payloadLen b)) }])
      ∧ (b.stack = true → payloadLen b ≠ 0 → u.hops = v.hops ∧ ∃ a ∈ u.accesses, a.ident = v.nextAccess ∧ a.kind = .read
          ∧ a.job = .flowPayload (flowTileOf w b k v) (b.addr % 64) (payloadLen b)) := by
  obtain ⟨hth, hsc, hst, hho, hac, hne, hti⟩ := flowReady_spec (w := w) (b := b) ht
  have hunread (m : Nat) : flowUnread (flowReady w b k v) m = flowUnread v m := by
    unfold flowUnread
    rw [hac]
  refine ⟨_, sendFlow_station h1, ?_⟩
  have started (bill : List (Nat × Nat)) (lines : List Line) (job : Job) :
      let u := startAccess 0 bill .read 0 lines job (flowReady w b k v)
      u.threads = v.threads ∧ u.scratch = v.scratch ∧ u.stores = v.stores
        ∧ FlowTicket u w.clerk.toNat k n (flowResult b) := by
    have hf := startAccess_frame 0 bill .read 0 lines job (flowReady w b k v)
    refine ⟨hf.threads.trans hth, hf.scratch.trans hsc, hf.stores.trans hst, ?_⟩
    unfold FlowTicket
    rwa [ticket?_of_tickets hf.tickets]
  by_cases hs : b.stack = true ∧ payloadLen b ≠ 0
  · rw [if_pos hs]
    obtain ⟨a1, a2, a3, a4⟩ := started (lineBill (readSpan (flowReady w b k v) b.addr (payloadLen b)).length)
      (readSpan (flowReady w b k v) b.addr (payloadLen b)) (.flowPayload (flowTileOf w b k v) (b.addr % 64) (payloadLen b))
    refine ⟨a1, a2, a3, a4, fun h _ => ?_, fun _ _ => ⟨(startAccess_frame ..).hops.trans hho, ?_⟩⟩
    · exact (h.elim (fun e => Bool.false_ne_true (e.symm.trans hs.1)) hs.2).elim
    · rw [← hne]
      exact startAccess_mem ..
  · rw [if_neg hs]
    split
    · rename_i hun
      obtain ⟨a1, a2, a3, a4⟩ := started [] (readyLines (flowReady w b k v)
        (if b.stack then [] else scratchRead (flowReady w b k v) w.clerk.toNat b.addr (payloadLen b)))
        (.flowPayload (flowTileOf w b k v) 0 (payloadLen b))
      rw [hunread] at hun
      exact ⟨a1, a2, a3, a4, fun _ h => (Bool.false_ne_true (h.symm.trans hun)).elim, fun h k => (hs ⟨h, k⟩).elim⟩
    · refine ⟨hth, hsc, hst, hti, fun h _ => ?_, fun h k => (hs ⟨h, k⟩).elim⟩
      have hdata : (if b.stack then [] else scratchRead (flowReady w b k v) w.clerk.toNat b.addr (payloadLen b))
          = scratchRead v w.clerk.toNat b.addr (payloadLen b) := by
        rw [scratchRead_congr hsc]
        split
        · rename_i hb
          rw [h.resolve_left (fun e => Bool.false_ne_true (e.symm.trans hb))]
          rfl
        · rfl
      have hhop : (flowTileOf w b k v).nextHop = routeHop b.route 0 := by
        show routeHop b.route (routeIdx b.route) = _
        rw [hidx]
      unfold issueTile
      rw [hdata, hhop, queueAt_enqueue_same]
      unfold queueAt
      rw [hho]

/-! ### FLOW -/

theorem exec_flow {s : State} {w : Who} {f : Fields} (h : Issues s w f 0x40 10) :
    exec (.flow w f) s = .next (actFlow w f false (bought w 10 s)) :=
  exec_pays (op := opFlow w f) h rfl (by omega) rfl

/-- The block of a flow in scratch. -/
def flowBlockOf (s : State) (w : Who) (f : Fields) : FlowBlock :=
  readFlow (scratchRead s w.clerk.toNat ((issuedThread s w).reg f.a).toNat 64)

/-- FLOW while the streams are known: its checks, and what it waits for. -/
theorem actFlow_eq {s : State} (w : Who) (f : Fields) (hu : streamsUnknown s = false) :
    actFlow w f false (bought w 10 s) =
      match flowRefusal (noteIssue w s) w ((issuedThread s w).reg f.a).toNat (flowBlockOf s w f) with
      | some st => putG w f.d (resultWord st 0 0) (bought w 10 s)
      | none =>
        if !hopRoom s (routeHop (flowBlockOf s w f).route 0) || sendAhead (noteIssue w s) w then
          waitRetry w (.flow w f) (bought w 10 s)
        else match takeTicket w.clerk.toNat (issuedThread s w).stream 0 (bought w 10 s) with
          | none => waitRetry w (.flow w f) (bought w 10 s)
          | some (k, v) => sendFlow w f (flowBlockOf s w f) k v := by
  simp only [actFlow, thread_bought, scratchRead_bought, awaitsStream_known hu, flowRefusal_bought, hopRoom_bought,
    sendAhead_bought, Bool.false_and, Bool.false_eq_true, if_false, Bool.not_false, Bool.true_and]
  rfl

/-- FLOW that no check refuses and that need not wait takes a ticket and sends. -/
theorem actFlow_sends {s : State} {w : Who} {f : Fields} (hu : streamsUnknown s = false)
    (hc : flowRefusal (noteIssue w s) w ((issuedThread s w).reg f.a).toNat (flowBlockOf s w f) = none)
    (hr : hopRoom s (routeHop (flowBlockOf s w f).route 0) = true) (ha : sendAhead (noteIssue w s) w = false)
    {k : Nat} {v : State} (ht : takeTicket w.clerk.toNat (issuedThread s w).stream 0 (bought w 10 s) = some (k, v)) :
    actFlow w f false (bought w 10 s) = sendFlow w f (flowBlockOf s w f) k v := by
  rw [actFlow_eq w f hu, hc]
  dsimp only
  rw [hr, ha, if_neg (by decide), ht]

/-- What FLOW leaves unchanged, and the thread that took the ticket. -/
theorem sentFlow_frame {s u v : State} {w : Who} {f : Fields} {k n l : Nat} (h : Issues s w f 0x40 10)
    (hv : v = withTicket w.clerk.toNat k n l (bought w 10 s)) (hth : u.threads = v.threads) (hsc : u.scratch = v.scratch)
    (hst : u.stores = v.stores) :
    thread (putTicket w f.d k u) w
        = { (issuedThread s w).setG f.d (resultWord 0 0 k) with pc := (issuedThread s w).pc + 1, ticket := k }
      ∧ (∀ x, Who.key x ≠ Who.key w → thread (putTicket w f.d k u) x = thread s x)
      ∧ ScratchKept s (putTicket w f.d k u) := by
  have e1 : v.threads = (bought w 10 s).threads := by rw [hv, withTicket]
  have e2 : v.scratch = (bought w 10 s).scratch := by rw [hv, withTicket]
  have e3 : v.stores = (bought w 10 s).stores := by rw [hv, withTicket]
  refine ⟨thread_putTicket h ((thread_of_threads (hth.trans e1) w).trans (thread_bought s w 10)) f.d k, fun x hx => ?_,
    scratchKept_of (hsc.trans (e2.trans (spend_scratch _ _))) (hst.trans (e3.trans (spend_stores _ _)))⟩
  rw [thread_putTicket_other hx, thread_of_threads (hth.trans e1), thread_bought_other s 10 hx]

theorem flowTicket_putTicket {w : Who} {d : BitVec 4} {k n r : Nat} {u : State} (h : FlowTicket u w.clerk.toNat k n r) :
    FlowTicket (putTicket w d k u) w.clerk.toNat k n r := by
  obtain ⟨z, hz, h1, h2, h3, h4⟩ := h
  have hp := ticket?_putTicket w d k u
  rw [hz] at hp
  exact ⟨_, hp, h1, h2, h3, h4⟩

/-- Settles O36: the checks of FLOW are those listed, and what they let through takes a ticket and is sent. -/
theorem sendingATile : Obligations.SendingATile := by
  intro s w f t c n x b first y stack
  refine ⟨?_, fun h hu => ⟨fun st hst => ?_, fun hc hr ha ho htn => ?_⟩⟩
  · refine (flowRefusal_eq s w x b).trans ?_
    dsimp only
    rw [streamRefusal_eq, ← firstRefusal_append]
    rfl
  · refine writes_putG h _ ((exec_flow h).trans (congrArg _ ((actFlow_eq w f hu).trans ?_)))
    rw [show flowRefusal (noteIssue w s) w ((issuedThread s w).reg f.a).toNat (flowBlockOf s w f) = some st from hst]
  obtain ⟨k, hk, hfree, ht⟩ := takeTicket_bought w 10 ho htn n 0
  have hx := (exec_flow h).trans (congrArg _ (actFlow_sends hu hc hr ha ht))
  have htick := ticket?_withTicket c k n 0 (bought w 10 s)
  generalize hv : withTicket c k n 0 (bought w 10 s) = v at hx htick
  have hthread : thread v w = issuedThread s w := by
    rw [← hv]
    exact thread_bought s w 10
  have hqueue : queueAt v first = queueAt s first := by
    rw [← hv]
    exact queueAt_bought s w 10 first
  by_cases h1 : first = 1
  · obtain ⟨u, hu', hth, hsc, hst, hti, hq⟩ := sendFlow_teller (f := f) htick h1
    obtain ⟨f1, f2, f3⟩ := sentFlow_frame h hv.symm hth hsc hst
    refine ⟨_, hx.trans (congrArg _ hu'), k, hk, hfree, f1, flowTicket_putTicket hti, f2, f3, fun _ => ?_,
      fun h' => (h' h1).elim, fun h' => (h' h1).elim⟩
    obtain ⟨e, he, e1, e2, e3, e4, e5⟩ := hq
    refine ⟨e, ?_, e1.trans (congrArg Thread.stream hthread), e2, e3, e4, e5⟩
    rw [putTicket_teller, he, ← hv]
    exact congrArg (fun x : TellerState => x.queue ++ [e]) (spend_teller _ _)
  · obtain ⟨u, hu', hth, hsc, hst, hti, hq, ha'⟩ := sendFlow_tile (f := f) htick h1 (routeIdx_readFlow _)
    obtain ⟨f1, f2, f3⟩ := sentFlow_frame h hv.symm hth hsc hst
    have hscratch : scratchRead v c b.addr (payloadLen b) = scratchRead s c b.addr (payloadLen b) := by
      rw [← hv, ← scratchRead_bought s w 10 c b.addr (payloadLen b)]
      refine scratchRead_congr ?_ c b.addr (payloadLen b)
      rfl
    have htile : (flowTileOf w b k v).stream = n ∧ (flowTileOf w b k v).ledger = t.ledger :=
      ⟨congrArg Thread.stream hthread, congrArg Thread.ledger hthread⟩
    refine ⟨_, hx.trans (congrArg _ hu'), k, hk, hfree, f1, flowTicket_putTicket hti, f2, f3, fun h' => (h1 h').elim,
      fun _ hs hun => ?_, fun _ hs hl => ?_⟩
    · have hun' : flowUnread v (thread v w).stream = false := by
        rw [hthread, ← hv]
        refine Eq.trans ?_ hun
        unfold flowUnread withTicket
        rw [spend_accesses, noteIssue_accesses]
      rw [queueAt_putTicket, hq hs hun']
      exact ⟨_, congrArg (· ++ _) hqueue, rfl, htile.1, htile.2, rfl, rfl, rfl, rfl, rfl, rfl, hscratch, rfl⟩
    · obtain ⟨hho, a, hm, hi, hkind, hjob⟩ := ha' hs hl
      refine ⟨?_, a, hm, ?_, hkind, _, _, hjob, htile.1, rfl, htile.2⟩
      · rw [putTicket_hops, hho, ← hv]
        exact spend_hops _ _
      · rw [hi, ← hv]
        exact spend_nextAccess _ _

end Sys2Proof.Machine
end

section
/-!
PROOFS. What the state shows of its resets: the domains held, their causes, the registers of the clocks and resets, the
beat port, the held counter halves and the keyed commands. Almost every definition leaves that as it was.
-/

namespace Sys2Proof.Machine

/-- What is watched of a state while clock domains enter and leave reset; the power domains are not watched. -/
structure ResetView where
  power : PowerState
  stat : Nat
  seen : Nat
  clkOk : Nat
  clkLoss : Nat
  heldLo : Tab Word32
  beat : BeatState
  kcw : KcwState

/-- The watched part of a state. -/
def resetView (s : State) : ResetView where
  power := { s.power with pds := [] }
  stat := reg s R.PWR_STAT
  seen := reg s R.PWR_RSTSEEN
  clkOk := reg s R.PWR_CLKOK
  clkLoss := reg s R.PWR_CLKLOSS
  heldLo := s.heldLo
  beat := s.beat
  kcw := s.kcw

/-- The registers that are watched. -/
abbrev watchedRegs : List Nat := [R.PWR_STAT, R.PWR_RSTSEEN, R.PWR_CLKOK, R.PWR_CLKLOSS]

theorem notWatched_of_gt {off : Nat} (h : 0x3C44 < off) : off ∉ watchedRegs := fun k => by
  have hle : ∀ x ∈ watchedRegs, x ≤ 0x3C44 := by decide
  exact absurd (hle off k) (by omega)

theorem notWatched_of_lt {off : Nat} (h : off < 0x3C00) : off ∉ watchedRegs := fun k => by
  have hge : ∀ x ∈ watchedRegs, 0x3C00 ≤ x := by decide
  exact absurd (hge off k) (by omega)

theorem resetView_of_swept {s t : State} (h : Swept s t) : resetView t = resetView s := by
  have hreg (off) (hoff : off ∉ sweptRegs) : reg t off = reg s off := h.regs off hoff
  unfold resetView
  rw [h.power, h.heldLo, h.beat, h.kcw, hreg R.PWR_STAT (by decide), hreg R.PWR_RSTSEEN (by decide),
    hreg R.PWR_CLKOK (by decide), hreg R.PWR_CLKLOSS (by decide)]

/-- A record update of fields that are not watched. -/
@[simp] theorem put_view (u : State)
    (x_pending x_free x_emitted x_issueNo x_stores x_instId x_latch x_regOut x_threads x_prog x_scratch x_tickets
    x_ticketNext x_lastIssued x_clerkFatal x_streams x_day x_teller x_hops x_tenants x_genNext x_prefetch x_grammars
    x_maskSets x_sortStep x_sortTemp x_sortDead x_clear x_egress0 x_egress1 x_accesses x_nextAccess x_ledger x_queue0
    x_queue1 x_queue2 x_queue3 x_purse x_reserve x_boot x_trcOut x_testOut) :
    resetView (State.mk x_pending u.build x_free x_emitted x_issueNo x_stores x_instId u.regs x_latch u.heldLo x_regOut
      x_threads x_prog x_scratch x_tickets x_ticketNext x_lastIssued x_clerkFatal x_streams u.beat x_day x_teller x_hops
      x_tenants x_genNext x_prefetch x_grammars x_maskSets x_sortStep x_sortTemp x_sortDead x_clear x_egress0 x_egress1
      x_accesses x_nextAccess x_ledger x_queue0 x_queue1 x_queue2 x_queue3 u.kcw x_purse x_reserve u.power x_boot
      x_trcOut x_testOut) = resetView u := rfl

@[simp] theorem setPd_view (d x) (t : State) : resetView (setPd d x t) = resetView t := rfl

@[simp] theorem ite_view (c : Prop) [Decidable c] (a b : State) :
    resetView (if c then a else b) = if c then resetView a else resetView b := apply_ite ..

@[simp] theorem foldl_view {α : Type} (f : State → α → State) (xs : List α) (t : State)
    (hf : ∀ t x, resetView (f t x) = resetView t) : resetView (xs.foldl f t) = resetView t := by
  induction xs generalizing t with
  | nil => rfl
  | cons x xs ih => exact (ih _).trans (hf _ _)

@[simp] theorem setReg_view {off : Nat} (v) (t : State) (hoff : off ∉ watchedRegs) :
    resetView (setReg off v t) = resetView t := by
  have hreg (k) (hk : k ∈ watchedRegs) : reg (setReg off v t) k = reg t k :=
    reg_setReg_other v t (fun e => hoff (e ▸ hk))
  unfold resetView
  rw [hreg R.PWR_STAT (by decide), hreg R.PWR_RSTSEEN (by decide), hreg R.PWR_CLKOK (by decide),
    hreg R.PWR_CLKLOSS (by decide)]
  rfl

@[simp] theorem bump_view {off : Nat} (n) (t : State) (hoff : off ∉ watchedRegs) :
    resetView (bump off n t) = resetView t := by
  simp [bump, hoff]

@[simp] theorem setRegBit_view {off : Nat} (i) (t : State) (hoff : off ∉ watchedRegs) :
    resetView (setRegBit off i t) = resetView t := setReg_view _ t hoff

/-! ### Ops -/

@[simp] theorem clearRegBit_view {off : Nat} (i) (t : State) (hoff : off ∉ watchedRegs) :
    resetView (clearRegBit off i t) = resetView t := setReg_view _ t hoff

@[simp] theorem bump64_view {off : Nat} (n) (t : State) (hlo : off ∉ watchedRegs) (hhi : off + 4 ∉ watchedRegs) :
    resetView (bump64 off n t) = resetView t := by
  simp [bump64, -List.mem_cons, hlo, hhi]

@[simp] theorem logFirst_view {lo hi : Nat} (vlo vhi) (t : State) (hlo : lo ∉ watchedRegs) (hhi : hi ∉ watchedRegs) :
    resetView (logFirst lo vlo hi vhi t) = resetView t := by
  simp [logFirst, -List.mem_cons, hlo, hhi]

@[simp] theorem takeFree_view (t : State) : resetView (takeFree t).2 = resetView t :=
  resetView_of_swept (takeFree_swept (Swept.refl t))

@[simp] theorem bumpFree_view {off : Nat} (t : State) (hoff : off ∉ watchedRegs) :
    resetView (bumpFree off t) = resetView t := by
  simp [bumpFree, -List.mem_cons, hoff]

@[simp] theorem setThread_view (w t') (t : State) : resetView (setThread w t' t) = resetView t := by simp [setThread]

@[simp] theorem onThread_view (w f) (t : State) : resetView (onThread w f t) = resetView t := by simp [onThread]

@[simp] theorem storeScratch_view (no c x bs) (t : State) : resetView (storeScratch no c x bs t) = resetView t :=
  resetView_of_swept (storeScratch_swept _ _ _ _ (Swept.refl t))

@[simp] theorem setStream_view (n x) (t : State) : resetView (setStream n x t) = resetView t :=
  resetView_of_swept (setStream_swept _ _ (Swept.refl t))

@[simp] theorem onStream_view (n f) (t : State) : resetView (onStream n f t) = resetView t :=
  resetView_of_swept (onStream_swept _ _ (Swept.refl t))

@[simp] theorem setTenant_view (k t') (t : State) : resetView (setTenant k t' t) = resetView t := by simp [setTenant]

@[simp] theorem setQueueAt_view (h' q) (t : State) : resetView (setQueueAt h' q t) = resetView t :=
  resetView_of_swept (setQueueAt_swept _ _ (Swept.refl t))

@[simp] theorem enqueue_view (h' t') (t : State) : resetView (enqueue h' t' t) = resetView t :=
  resetView_of_swept (enqueue_swept _ _ (Swept.refl t))

@[simp] theorem noteLoss_view (i) (t : State) : resetView (noteLoss i t) = resetView t :=
  resetView_of_swept (noteLoss_swept _ (Swept.refl t))

@[simp] theorem passOn_view (hop t') (t : State) : resetView (passOn hop t' t) = resetView t :=
  resetView_of_swept (passOn_swept _ _ (Swept.refl t))

@[simp] theorem onItem_view (n f) (t : State) : resetView (onItem n f t) = resetView t :=
  resetView_of_swept (onItem_swept _ _ (Swept.refl t))

@[simp] theorem noteEmission_view (part ledger data) (t : State) :
    resetView (noteEmission part ledger data t) = resetView t :=
  resetView_of_swept (noteEmission_swept _ _ _ (Swept.refl t))

@[simp] theorem addItem_view (i) (t : State) : resetView (addItem i t) = resetView t := by simp [addItem]

theorem takeTicket_view {c n ledger k : Nat} {t u : State} (h : takeTicket c n ledger t = some (k, u)) :
    resetView u = resetView t := by
  unfold takeTicket at h
  split at h
  · cases h
  · cases h
    simp

@[simp] theorem onTicket_view (c t' f) (t : State) : resetView (onTicket c t' f t) = resetView t :=
  resetView_of_swept (onTicket_swept _ _ _ (Swept.refl t))

@[simp] theorem reportTicket_view (c t' status flags) (t : State) :
    resetView (reportTicket c t' status flags t) = resetView t :=
  resetView_of_swept (reportTicket_swept _ _ _ _ (Swept.refl t))

@[simp] theorem reportItem_view (n status flags) (t : State) : resetView (reportItem n status flags t) = resetView t :=
  resetView_of_swept (reportItem_swept _ _ _ (Swept.refl t))

@[simp] theorem report_view (t' status flags) (t : State) : resetView (report t' status flags t) = resetView t :=
  resetView_of_swept (report_swept _ _ _ (Swept.refl t))

/-! ### Coins -/

@[simp] theorem payBill_view (y0) (t : State) : resetView (payBill y0 t).1 = resetView t :=
  resetView_of_swept (payBill_swept _ (Swept.refl t))

@[simp] theorem joinPurse_view (p) (t : State) : resetView (joinPurse p t) = resetView t :=
  resetView_of_swept (joinPurse_swept _ (Swept.refl t))

@[simp] theorem buy_view (cls bill cmd onWait body) (t : State) (hwait : ∀ u, resetView (onWait u) = resetView u)
    (hbody : ∀ u, resetView (body u) = resetView u) :
    resetView (buy cls bill cmd onWait body t) = resetView t := by
  have hpay : resetView (payBill bill t).1 = resetView t := payBill_view bill t
  unfold buy
  repeat' split
  all_goals simp_all

/-! ### Stack -/

@[simp] theorem startAccess_view (cls bill kind req lines job) (t : State) :
    resetView (startAccess cls bill kind req lines job t) = resetView t :=
  resetView_of_swept (startAccess_swept _ _ _ _ _ _ (Swept.refl t))

@[simp] theorem dropAccesses_view (p) (t : State) : resetView (dropAccesses p t) = resetView t := by
  simp [dropAccesses]

@[simp] theorem logFailure_view (req status l) (t : State) : resetView (logFailure req status l t) = resetView t := by
  unfold logFailure
  split <;> simp

/-! ### Journal -/

@[simp] theorem writeEntry_view (e next) (t : State) : resetView (writeEntry e next t) = resetView t :=
  resetView_of_swept (writeEntry_swept _ _ (Swept.refl t))

@[simp] theorem writeNow_view (e log next) (t : State) : resetView (writeNow e log next t) = resetView t :=
  resetView_of_swept (writeNow_swept _ _ _ (Swept.refl t))

@[simp] theorem journal_view (e log next) (t : State) : resetView (journal e log next t) = resetView t :=
  resetView_of_swept (journal_swept _ _ _ (Swept.refl t))

@[simp] theorem drainWaiting_view (fuel) (t : State) : resetView (drainWaiting fuel t) = resetView t := by
  induction fuel generalizing t with
  | zero => simp [drainWaiting]
  | succ fuel ih =>
    unfold drainWaiting
    repeat' split
    all_goals simp_all

@[simp] theorem completeAs_view (n status next) (t : State) : resetView (completeAs n status next t) = resetView t :=
  resetView_of_swept (completeAs_swept _ _ _ (Swept.refl t))

@[simp] theorem completeItem_view (n status next) (t : State) :
    resetView (completeItem n status next t) = resetView t :=
  resetView_of_swept (completeItem_swept _ _ _ (Swept.refl t))

/-! ### Flow -/

@[simp] theorem numberTile_view (h' t') (t : State) : resetView (numberTile h' t' t).2 = resetView t :=
  resetView_of_swept (numberTile_swept _ _ (Swept.refl t))

@[simp] theorem setBuilding_view (n h' ledger t') (t : State) :
    resetView (setBuilding n h' ledger t' t) = resetView t :=
  resetView_of_swept (setBuilding_swept _ _ _ _ (Swept.refl t))

@[simp] theorem sendTokens_view (t') (t : State) : resetView (sendTokens t' t) = resetView t :=
  resetView_of_swept (sendTokens_swept _ (Swept.refl t))

@[simp] theorem holdStream_view (n h' item) (t : State) : resetView (holdStream n h' item t) = resetView t := by
  simp [holdStream]

@[simp] theorem refuseTile_view (h' t' status) (t : State) : resetView (refuseTile h' t' status t) = resetView t := by
  simp [refuseTile]

@[simp] theorem audFault_view (cls idx status ledger) (t : State) :
    resetView (audFault cls idx status ledger t) = resetView t := by
  simp [audFault]

@[simp] theorem discardAssay_view (n) (t : State) : resetView (discardAssay n t) = resetView t :=
  resetView_of_swept (discardAssay_swept _ (Swept.refl t))

@[simp] theorem discardSorter_view (n) (t : State) : resetView (discardSorter n t) = resetView t :=
  resetView_of_swept (discardSorter_swept _ (Swept.refl t))

@[simp] theorem discardIdle_view (n) (t : State) : resetView (discardIdle n t) = resetView t := by simp [discardIdle]

@[simp] theorem closeStream_view (n reason next) (t : State) : resetView (closeStream n reason next t) = resetView t :=
  resetView_of_swept (closeStream_swept _ _ _ (Swept.refl t))

@[simp] theorem countLate_view (t') (t : State) : resetView (countLate t' t) = resetView t :=
  resetView_of_swept (countLate_swept _ (Swept.refl t))

@[simp] theorem writePaid_view (n) (t : State) : resetView (writePaid n t) = resetView t := by simp [writePaid]

@[simp] theorem advanceMark_view (n) (t : State) : resetView (advanceMark n t) = resetView t := by simp [advanceMark]

@[simp] theorem countTile_view (t') (t : State) : resetView (countTile t' t) = resetView t := by simp [countTile]

@[simp] theorem deliverRecord_view (t') (t : State) : resetView (deliverRecord t' t) = resetView t := by
  simp [deliverRecord]

@[simp] theorem tellerEmit_view (t' data) (t : State) : resetView (tellerEmit t' data t) = resetView t :=
  resetView_of_swept (tellerEmit_swept _ _ (Swept.refl t))

@[simp] theorem readLog_view (m off len job) (t : State) : resetView (readLog m off len job t) = resetView t :=
  resetView_of_swept (readLog_swept _ _ _ _ (Swept.refl t))

@[simp] theorem feedAll_view (t : State) : resetView (feedAll t) = resetView t :=
  resetView_of_swept (feedAll_swept (Swept.refl t))

@[simp] theorem cutItem_view (log i clerk ticket) (t : State) :
    resetView (cutItem log i clerk ticket t) = resetView t := by
  simp [cutItem]

@[simp] theorem discardTiles_view (n) (t : State) : resetView (discardTiles n t) = resetView t := by
  simp [discardTiles]

@[simp] theorem restoreStream_view (n) (t : State) : resetView (restoreStream n t) = resetView t := by
  simp [restoreStream]

@[simp] theorem deliverAgain_view (n bs) (t : State) : resetView (deliverAgain n bs t) = resetView t := by
  unfold deliverAgain
  split <;> simp

@[simp] theorem reissue_view (log n) (t : State) : resetView (reissue log n t) = resetView t := by
  unfold reissue
  dsimp only
  repeat' split
  all_goals simp

@[simp] theorem readCkpt_view (n) (t : State) : resetView (readCkpt n t) = resetView t := by simp [readCkpt]

@[simp] theorem replayStream_view (n) (t : State) : resetView (replayStream n t) = resetView t := by
  simp [replayStream]

@[simp] theorem replayItem.discardItem_view (n) (t : State) :
    resetView (replayItem.discardItem n t) = resetView t := by
  simp [replayItem.discardItem]

@[simp] theorem replayItem_view (n status stack) (t : State) :
    resetView (replayItem n status stack t) = resetView t := by
  unfold replayItem
  split <;> simp

@[simp] theorem reachTeller_view (c) (t : State) : resetView (reachTeller c t) = resetView t := by simp [reachTeller]

@[simp] theorem sweep_view (t : State) : resetView (sweep t) = resetView t :=
  resetView_of_swept (sweep_swept (Swept.refl t))

/-! ### Maint -/

@[simp] theorem readGolden_view (bank) (t : State) : resetView (readGolden bank t) = resetView t := by
  simp [readGolden]

@[simp] theorem askPd_view (d) (t : State) : resetView (askPd d t) = resetView t := by simp [askPd]

@[simp] theorem wakeSpare_view (t : State) : resetView (wakeSpare t) = resetView t := by simp [wakeSpare]

@[simp] theorem fillFor_view (a) (t : State) : resetView (fillFor a t) = resetView t := by
  unfold fillFor
  split <;> simp

@[simp] theorem leaveBanks_view (a) (t : State) : resetView (leaveBanks a t) = resetView t := by simp [leaveBanks]

@[simp] theorem beginActivity_view (a) (t : State) : resetView (beginActivity a t) = resetView t := by
  simp [beginActivity]

@[simp] theorem startOrWait_view (a) (t : State) : resetView (startOrWait a t) = resetView t := by simp [startOrWait]

@[simp] theorem startWaiting_view (t : State) : resetView (startWaiting t) = resetView t := by simp [startWaiting]

@[simp] theorem endActivity_view (a) (t : State) : resetView (endActivity a t) = resetView t := by simp [endActivity]

@[simp] theorem refuseStart_view (h' req) (t : State) : resetView (refuseStart h' req t) = resetView t := by
  simp [refuseStart]

@[simp] theorem rsvEvent_view (status cls idx macro_ row) (t : State) :
    resetView (rsvEvent status cls idx macro_ row t) = resetView t := by
  simp [rsvEvent]

@[simp] theorem addPending_view (r) (t : State) : resetView (addPending r t) = resetView t := by simp [addPending]

/-! ### Vault -/

@[simp] theorem noteBanks_view (ledger r) (t : State) : resetView (noteBanks ledger r t) = resetView t := by
  simp [noteBanks]

@[simp] theorem countReads_view (ledger r) (t : State) : resetView (countReads ledger r t) = resetView t := by
  have hbanks := bump64_view r.banks.length t (off := R.VLT_LOOKUPS_LO) (by decide) (by decide)
  have hovf (u) := bump64_view r.ovf.length u (off := R.VLT_OVF_LO) (by decide) (by decide)
  simp [countReads, hbanks, hovf]

/-! ### Units -/

@[simp] theorem standIn_view (cls u p) (t : State) : resetView (standIn cls u p t) = resetView t := by simp [standIn]

@[simp] theorem takeOut_view (cls i) (t : State) : resetView (takeOut cls i t) = resetView t := by simp [takeOut]

@[simp] theorem spareOut_view (cls i) (t : State) : resetView (spareOut cls i t) = resetView t := by simp [spareOut]

@[simp] theorem cleanCheck_view (b) (t : State) : resetView (cleanCheck b t) = resetView t := by simp [cleanCheck]

@[simp] theorem clearPoison_view (b) (t : State) : resetView (clearPoison b t) = resetView t := by simp [clearPoison]

@[simp] theorem startReload_view (k) (t : State) : resetView (startReload k t) = resetView t := by
  unfold startReload
  split <;> simp

@[simp] theorem bankBack_view (b) (t : State) : resetView (bankBack b t) = resetView t := by simp [bankBack]

@[simp] theorem bankAbsent_view (b) (t : State) : resetView (bankAbsent b t) = resetView t := by simp [bankAbsent]

@[simp] theorem poisonBank_view (b) (t : State) : resetView (poisonBank b t) = resetView t := by simp [poisonBank]

@[simp] theorem retireClerk_view (c) (t : State) : resetView (retireClerk c t) = resetView t := by simp [retireClerk]

@[simp] theorem moveStreams_view (cls old) (t : State) : resetView (moveStreams cls old t) = resetView t := by
  simp [moveStreams]

@[simp] theorem retireUnit_view (cls i) (t : State) : resetView (retireUnit cls i t).1 = resetView t := by
  unfold retireUnit
  dsimp only
  repeat' split
  all_goals simp

@[simp] theorem retireLive_view (cls i) (t : State) : resetView (retireLive cls i t) = resetView t := by
  simp [retireLive]

@[simp] theorem mapRow_view (f m row spare) (t : State) : resetView (mapRow f m row spare t) = resetView t := by
  simp [mapRow]

@[simp] theorem spentMacro_view (f m row live) (t : State) :
    resetView (spentMacro f m row live t).1 = resetView t := by
  unfold spentMacro
  repeat' split
  all_goals simp

@[simp] theorem remapRow_view (f m row live) (t : State) : resetView (remapRow f m row live t).1 = resetView t := by
  unfold remapRow
  dsimp only
  repeat' split
  all_goals simp

@[simp] theorem vaultError_view (hw ledger) (t : State) : resetView (vaultError hw ledger t) = resetView t := by
  unfold vaultError
  split <;> simp

@[simp] theorem readError_view (r ledger) (t : State) : resetView (readError r ledger t) = resetView t := by
  unfold readError
  dsimp only
  split <;> simp

/-! ### Notary -/

@[simp] theorem moveChip_view (n ledger pop push before after) (t : State) :
    resetView (moveChip n ledger pop push before after t).1 = resetView t := by
  unfold moveChip
  dsimp only
  split <;> simp

@[simp] theorem writeCheckpoint_view (n slot ledger commitNo c) (t : State) :
    resetView (writeCheckpoint n slot ledger commitNo c t) = resetView t := by
  simp [writeCheckpoint]

@[simp] theorem writePatch_view (n ledger slot patch) (t : State) :
    resetView (writePatch n ledger slot patch t) = resetView t := by
  simp [writePatch]

@[simp] theorem restorePatch_view (n ledger) (t : State) : resetView (restorePatch n ledger t) = resetView t := by
  unfold restorePatch
  dsimp only
  split <;> simp

@[simp] theorem readTransition_view (cls c t' job) (t : State) :
    resetView (readTransition cls c t' job t) = resetView t := by
  unfold readTransition
  split <;> simp

@[simp] theorem countAdvance_view (a) (t : State) : resetView (countAdvance a t) = resetView t := by
  simp [countAdvance]

@[simp] theorem markDead_view (n) (t : State) : resetView (markDead n t) = resetView t := by simp [markDead]

@[simp] theorem notaryOverflow_view (k r job) (t : State) : resetView (notaryOverflow k r job t) = resetView t := by
  simp [notaryOverflow]

@[simp] theorem makeAdvance_view (n ledger t') (t : State) : resetView (makeAdvance n ledger t' t) = resetView t := by
  unfold makeAdvance
  dsimp only
  repeat' split
  all_goals simp

@[simp] theorem makeAdvances_view (n ledger ts) (t : State) :
    resetView (makeAdvances n ledger ts t) = resetView t := by
  simp [makeAdvances]

@[simp] theorem lookupError_view (n ledger ts) (t : State) : resetView (lookupError n ledger ts t) = resetView t := by
  simp [lookupError]

@[simp] theorem resolved_view (n t') (t : State) : resetView (resolved n t' t) = resetView t := by simp [resolved]

/-! ### Clearing -/

@[simp] theorem onClear_view (n f) (t : State) : resetView (onClear n f t) = resetView t := by simp [onClear]

@[simp] theorem dropRows_view (n step) (t : State) : resetView (dropRows n step t) = resetView t := by simp [dropRows]

@[simp] theorem clearMarks_view (n step) (t : State) : resetView (clearMarks n step t) = resetView t := by
  simp [clearMarks]

@[simp] theorem markStep_view (n step k) (t : State) : resetView (markStep n step k t) = resetView t := by
  simp [markStep]

@[simp] theorem stepLost_view (n step) (t : State) : resetView (stepLost n step t) = resetView t := by simp [stepLost]

@[simp] theorem clgErr_view (n status step) (t : State) : resetView (clgErr n status step t) = resetView t := by
  simp [clgErr]

@[simp] theorem dropClearWork_view (n) (t : State) : resetView (dropClearWork n t) = resetView t := by
  simp [dropClearWork]

@[simp] theorem leaveClearing_view (n c as) (t : State) : resetView (leaveClearing n c as t) = resetView t := by
  simp [leaveClearing]

@[simp] theorem undoCommits_view (n c) (t : State) : resetView (undoCommits n c t) = resetView t := by
  simp [undoCommits]

@[simp] theorem endWithheld_view (c status) (t : State) : resetView (endWithheld c status t) = resetView t := by
  simp [endWithheld]

@[simp] theorem withhold_view (n c status) (t : State) : resetView (withhold n c status t) = resetView t := by
  simp [withhold]

@[simp] theorem refuseClear_view (n c status) (t : State) : resetView (refuseClear n c status t) = resetView t := by
  simp [refuseClear]

@[simp] theorem finishSelect_view (n c bytes status tie list) (t : State) :
    resetView (finishSelect n c bytes status tie list t) = resetView t := by
  simp [finishSelect]

@[simp] theorem commitToken_view (n c t') (t : State) : resetView (commitToken n c t' t) = resetView t := by
  simp [commitToken]

@[simp] theorem endSelection_view (n c p) (t : State) : resetView (endSelection n c p t) = resetView t := by
  simp [endSelection]

@[simp] theorem endDraft_view (n c status tie) (t : State) : resetView (endDraft n c status tie t) = resetView t := by
  simp [endDraft]

@[simp] theorem stopDraft_view (n c) (t : State) : resetView (stopDraft n c t) = resetView t := by simp [stopDraft]

@[simp] theorem draftPosition_view (n c p) (t : State) : resetView (draftPosition n c p t) = resetView t := by
  unfold draftPosition
  split <;> simp

@[simp] theorem selectRow_view (n) (t : State) : resetView (selectRow n t) = resetView t := by
  unfold selectRow
  split <;> simp

@[simp] theorem runLanes_view (fuel) (t : State) : resetView (runLanes fuel t) = resetView t := by
  induction fuel generalizing t with
  | zero => rfl
  | succ fuel ih =>
    unfold runLanes
    repeat' split
    all_goals simp [ih]

@[simp] theorem runRows_view (t : State) : resetView (runRows t) = resetView t := by simp [runRows]

@[simp] theorem keepRow_view (r held) (t : State) : resetView (keepRow r held t) = resetView t := by simp [keepRow]

@[simp] theorem holdPort_view (r) (t : State) : resetView (holdPort r t) = resetView t := by simp [holdPort]

@[simp] theorem discardEarly_view (r) (t : State) : resetView (discardEarly t r) = resetView t := by
  unfold discardEarly
  dsimp only
  split <;> simp

@[simp] theorem earlyRow_view (r) (t : State) : resetView (earlyRow r t) = resetView t := by simp [earlyRow]

@[simp] theorem matchedRow_view (c r) (t : State) : resetView (matchedRow c r t) = resetView t := by simp [matchedRow]

@[simp] theorem placeRow_view (r) (t : State) : resetView (placeRow r t) = resetView t := by
  unfold placeRow
  repeat' split
  all_goals simp

@[simp] theorem retryPort_view (t : State) : resetView (retryPort t) = resetView t := by
  unfold retryPort
  dsimp only
  split <;> simp

@[simp] theorem maskReady_view (n pos mask) (t : State) : resetView (maskReady n pos mask t) = resetView t := by
  unfold maskReady
  split <;> simp

@[simp] theorem startMask_view (n pos) (t : State) : resetView (startMask n pos t) = resetView t := by
  unfold startMask
  repeat' split
  all_goals simp

@[simp] theorem maskArrived_view (n ledger pos again lines) (t : State) :
    resetView (maskArrived n ledger pos again lines t) = resetView t := by
  unfold maskArrived
  repeat' split
  all_goals simp

@[simp] theorem draftArrived_view (n data) (t : State) : resetView (draftArrived n data t) = resetView t := by
  unfold draftArrived
  split <;> simp

/-! ### Teller -/

@[simp] theorem answerLane_view (c status n) (t : State) : resetView (answerLane c status n t) = resetView t := by
  simp [answerLane]

@[simp] theorem dayError_view (slot clerk status step) (t : State) :
    resetView (dayError slot clerk status step t) = resetView t := by
  simp [dayError]

@[simp] theorem refuseChunk_view (c status holds) (t : State) :
    resetView (refuseChunk c status holds t) = resetView t := by
  simp [refuseChunk]

@[simp] theorem acceptChunk_view (c) (t : State) : resetView (acceptChunk c t) = resetView t := by simp [acceptChunk]

@[simp] theorem admitChunk_view (c) (t : State) : resetView (admitChunk c t) = resetView t := by
  unfold admitChunk
  repeat' split
  all_goals simp

@[simp] theorem acceptDone_view (c n) (t : State) : resetView (acceptDone c n t) = resetView t := by simp [acceptDone]

@[simp] theorem setLane_view (l q) (t : State) : resetView (setLane l q t) = resetView t := by simp [setLane]

@[simp] theorem laneAccept_view (l) (t : State) : resetView (laneAccept l t) = resetView t := by
  unfold laneAccept
  split <;> simp

@[simp] theorem drainLane_view (fuel l) (t : State) : resetView (drainLane fuel l t) = resetView t := by
  induction fuel generalizing t with
  | zero => rfl
  | succ fuel ih =>
    unfold drainLane
    repeat' split
    all_goals simp [ih]

@[simp] theorem drainLanes_view (t : State) : resetView (drainLanes t) = resetView t := by simp [drainLanes]

@[simp] theorem tellerBody_view (t : State) : resetView (tellerBody t) = resetView t := by
  unfold tellerBody
  split <;> simp

@[simp] theorem takeChunk_view (t : State) : resetView (takeChunk t) = resetView t := by
  unfold takeChunk
  repeat' split
  all_goals simp

/-! ### Clerk -/

@[simp] theorem endOwned_view (w status) (t : State) : resetView (endOwned w status t) = resetView t := by
  simp [endOwned]

@[simp] theorem logFault_view (w pc status) (t : State) : resetView (logFault w pc status t) = resetView t := by
  have hoff : R.CLK_FAULT0 + 4 * w.clerk.toNat ∉ watchedRegs := by
    have hc := w.clerk.isLt
    exact notWatched_of_lt (show 0x420 + 4 * w.clerk.toNat < 0x3C00 by omega)
  simp [logFault, -List.mem_cons, hoff]

@[simp] theorem faultThread_view (w status) (t : State) : resetView (faultThread w status t) = resetView t := by
  simp [faultThread]

@[simp] theorem putG_view (w d v) (t : State) : resetView (putG w d v t) = resetView t := by simp [putG]

@[simp] theorem putStatus_view (w d status) (t : State) : resetView (putStatus w d status t) = resetView t := by
  simp [putStatus]

@[simp] theorem waitRetry_view (w cmd) (t : State) : resetView (waitRetry w cmd t) = resetView t := by
  simp [waitRetry]

@[simp] theorem waitBusy_view (w) (t : State) : resetView (waitBusy w t) = resetView t := by simp [waitBusy]

/-! ### Xfer -/

@[simp] theorem answerThread_view (w d v) (t : State) : resetView (answerThread w d v t) = resetView t := by
  simp [answerThread]

@[simp] theorem finishLdx_view (w d dst n status data) (t : State) :
    resetView (finishLdx w d dst n status data t) = resetView t := by
  simp [finishLdx]

@[simp] theorem finishStx_view (w d n status) (t : State) : resetView (finishStx w d n status t) = resetView t := by
  simp [finishStx]

/-! ### Streams -/

@[simp] theorem waitOpen_view (w cmd) (t : State) : resetView (waitOpen w cmd t) = resetView t := by simp [waitOpen]

@[simp] theorem installStream_view (n b stops) (t : State) : resetView (installStream n b stops t) = resetView t := by
  unfold installStream
  dsimp only
  split <;> simp

@[simp] theorem openBody_view (w f) (t : State) : resetView (openBody w f t) = resetView t := by
  unfold openBody
  dsimp only
  split <;> simp

@[simp] theorem actSopen_view (w f) (t : State) : resetView (actSopen w f t) = resetView t := by
  unfold actSopen
  dsimp only
  repeat' split
  all_goals simp

@[simp] theorem actSclose_view (w f) (t : State) : resetView (actSclose w f t) = resetView t := by
  unfold actSclose
  dsimp only
  repeat' split
  all_goals simp

@[simp] theorem putTicket_view (w d t') (t : State) : resetView (putTicket w d t' t) = resetView t := by
  simp [putTicket]

@[simp] theorem actSfeed_view (w f room) (t : State) : resetView (actSfeed w f room t) = resetView t := by
  unfold actSfeed
  dsimp only
  split
  · simp
  split
  · simp
  split
  · simp
  split
  · simp
  split
  · simp
  next hticket => simp [takeTicket_view hticket]

@[simp] theorem issueTile_view (t' data) (t : State) : resetView (issueTile t' data t) = resetView t := by
  simp [issueTile]

@[simp] theorem sendFlow_view (w f b k) (t : State) : resetView (sendFlow w f b k t) = resetView t := by
  unfold sendFlow
  dsimp only
  repeat' split
  all_goals simp

@[simp] theorem actFlow_view (w f room) (t : State) : resetView (actFlow w f room t) = resetView t := by
  unfold actFlow
  dsimp only
  split
  · simp
  split
  · simp
  split
  · simp
  split
  · simp
  next hticket => simp [takeTicket_view hticket]

@[simp] theorem actEmit_view (w f room) (t : State) : resetView (actEmit w f room t) = resetView t := by
  unfold actEmit
  dsimp only
  split
  · simp
  split
  · simp
  split
  · simp
  split
  · simp
  split
  · simp
  split
  · simp
  split
  · simp
  split
  · simp
  split
  · simp
  split
  · simp
  next hticket => simp [takeTicket_view hticket]

/-! ### Choice -/

@[simp] theorem actMask_view (w f) (t : State) : resetView (actMask w f t) = resetView t := by
  unfold actMask
  dsimp only
  repeat' split
  all_goals simp

@[simp] theorem dropCands_view (n) (t : State) : resetView (dropCands n t) = resetView t := by simp [dropCands]

@[simp] theorem nextBody_view (w f) (t : State) : resetView (nextBody w f t) = resetView t := by simp [nextBody]

@[simp] theorem actNext_view (w f) (t : State) : resetView (actNext w f t) = resetView t := by
  unfold actNext
  dsimp only
  repeat' split
  all_goals simp

@[simp] theorem draftBody_view (w f) (t : State) : resetView (draftBody w f t) = resetView t := by simp [draftBody]

@[simp] theorem actDraft_view (w f) (t : State) : resetView (actDraft w f t) = resetView t := by
  unfold actDraft
  dsimp only
  repeat' split
  all_goals simp

/-! ### Work -/

@[simp] theorem takeItem_view (w stream n) (t : State) : resetView (takeItem w stream n t) = resetView t := by
  simp [takeItem]

@[simp] theorem actPost_view (w f) (t : State) : resetView (actPost w f t) = resetView t := by
  unfold actPost
  dsimp only
  repeat' split
  all_goals simp

@[simp] theorem postDone_view (w d n) (t : State) : resetView (postDone w d n t) = resetView t := by
  unfold postDone
  dsimp only
  split <;> simp

@[simp] theorem actPay_view (w f) (t : State) : resetView (actPay w f t) = resetView t := by simp [actPay]

@[simp] theorem dropItem_view (w n) (t : State) : resetView (dropItem w n t) = resetView t := by simp [dropItem]

@[simp] theorem settleDone_view (w d n) (t : State) : resetView (settleDone w d n t) = resetView t := by
  simp [settleDone]

@[simp] theorem actSettle_view (w f) (t : State) : resetView (actSettle w f t) = resetView t := by simp [actSettle]

@[simp] theorem takeEntry_view (w f) (t : State) : resetView (takeEntry w f t) = resetView t := by
  unfold takeEntry
  dsimp only
  split <;> simp

@[simp] theorem actDnext_view (w f) (t : State) : resetView (actDnext w f t) = resetView t := by simp [actDnext]

@[simp] theorem actWaitt_view (w f) (t : State) : resetView (actWaitt w f t) = resetView t := by
  unfold actWaitt
  split <;> simp

@[simp] theorem actWaitb_view (w f) (t : State) : resetView (actWaitb w f t) = resetView t := by simp [actWaitb]

@[simp] theorem retryAct_view (i) (t : State) : resetView (retryAct i t) = resetView t := by
  unfold retryAct
  split <;> simp

@[simp] theorem wakeThread_view (p w) (t : State) : resetView (wakeThread p t w) = resetView t := by
  unfold wakeThread
  dsimp only
  repeat' split
  all_goals simp

@[simp] theorem wakeClerk_view (p c) (t : State) : resetView (wakeClerk p c t) = resetView t := by simp [wakeClerk]

@[simp] theorem wakeAll_view (p) (t : State) : resetView (wakeAll p t) = resetView t := by simp [wakeAll]

/-! ### Daybook -/

@[simp] theorem onFetch_view (k g) (t : State) : resetView (onFetch k g t) = resetView t := by simp [onFetch]

@[simp] theorem readPage_view (c) (t : State) : resetView (readPage c t) = resetView t := by
  unfold readPage
  split <;> simp

@[simp] theorem endFetch_view (f) (t : State) : resetView (endFetch f t) = resetView t := by simp [endFetch]

@[simp] theorem nextSlot_view (f) (t : State) : resetView (nextSlot f t) = resetView t := by simp [nextSlot]

@[simp] theorem deferEntry_view (f bs) (t : State) : resetView (deferEntry f bs t) = resetView t := by
  simp [deferEntry]

@[simp] theorem offerEntry_view (f bs room) (t : State) : resetView (offerEntry f bs room t) = resetView t := by
  unfold offerEntry
  dsimp only
  split <;> simp

@[simp] theorem pageLine_view (k slot status data) (t : State) :
    resetView (pageLine k slot status data t) = resetView t := by
  unfold pageLine
  repeat' split
  all_goals simp

/-! ### Repair -/

@[simp] theorem bringBack_view (cls i) (t : State) : resetView (bringBack cls i t) = resetView t := by
  simp [bringBack]

@[simp] theorem restoreUnit_view (cls i) (t : State) : resetView (restoreUnit cls i t) = resetView t := by
  simp [restoreUnit]

@[simp] theorem askRail_view (mv who) (t : State) : resetView (askRail mv who t) = resetView t := by simp [askRail]

@[simp] theorem setMargin_view (d step mv) (t : State) : resetView (setMargin d step mv t) = resetView t := by
  simp [setMargin]

@[simp] theorem applyRepair_view (r) (t : State) : resetView (applyRepair r t).1 = resetView t := by
  unfold applyRepair
  repeat' split
  all_goals simp

@[simp] theorem setCopy_view (k b) (t : State) : resetView (setCopy k b t) = resetView t := by simp [setCopy]

@[simp] theorem writeCopy_view (k other r) (t : State) : resetView (writeCopy k other r t) = resetView t := by
  simp [writeCopy]

@[simp] theorem commitRepair_view (r) (t : State) : resetView (commitRepair r t) = resetView t := by
  simp [commitRepair]

@[simp] theorem noteTorn_view (t : State) : resetView (noteTorn t) = resetView t := by simp [noteTorn]

/-! ### Mint -/

@[simp] theorem mintEmit_view (t' words) (t : State) : resetView (mintEmit t' words t) = resetView t := by
  simp [mintEmit]

@[simp] theorem mintFinish_view (t' lines) (t : State) : resetView (mintFinish t' lines t) = resetView t := by
  simp [mintFinish]

/-! ### Loader -/

@[simp] theorem switchSlot_view (k r) (t : State) : resetView (switchSlot k r t) = resetView t := by simp [switchSlot]

@[simp] theorem emptySlot_view (k) (t : State) : resetView (emptySlot k t) = resetView t := by simp [emptySlot]

@[simp] theorem reloadDone_view (k status lines) (t : State) :
    resetView (reloadDone k status lines t) = resetView t := by
  unfold reloadDone
  split <;> simp

@[simp] theorem tablesReplaced_view (k) (t : State) : resetView (tablesReplaced k t) = resetView t := by
  simp [tablesReplaced]

/-! ### Output -/

@[simp] theorem sendRecord_view (t') (t : State) : resetView (sendRecord t' t) = resetView t := by simp [sendRecord]

@[simp] theorem setEgress_view (p e) (t : State) : resetView (setEgress p e t) = resetView t := by simp [setEgress]

/-! ### Replay -/

@[simp] theorem writeMarks_view (es) (t : State) : resetView (writeMarks es t) = resetView t := by simp [writeMarks]

@[simp] theorem writeStart_view (es) (t : State) : resetView (writeStart es t) = resetView t := by simp [writeStart]

@[simp] theorem goOn_view (x) (t : State) : resetView (goOn t x) = resetView t := by
  unfold goOn
  split <;> simp

@[simp] theorem emptyJournal_view (t : State) : resetView (emptyJournal t) = resetView t := by simp [emptyJournal]

@[simp] theorem readRing_view (m) (t : State) : resetView (readRing m t) = resetView t := by simp [readRing]

@[simp] theorem openJournal_view (fresh) (t : State) : resetView (openJournal fresh t) = resetView t := by
  simp [openJournal]

@[simp] theorem openStored_view (t : State) : resetView (openStored t) = resetView t := by simp [openStored]

@[simp] theorem readRecord_view (m off len) (t : State) : resetView (readRecord m off len t) = resetView t := by
  simp [readRecord]

@[simp] theorem readCheckpoints_view (t : State) : resetView (readCheckpoints t) = resetView t := by
  unfold readCheckpoints
  refine foldl_view _ _ _ fun u n => ?_
  repeat' split
  all_goals simp

@[simp] theorem ringsRead_view (t : State) : resetView (ringsRead t) = resetView t := by simp [ringsRead]

@[simp] theorem ringRead_view (m lines) (t : State) : resetView (ringRead m lines t) = resetView t := by
  simp [ringRead]

@[simp] theorem recRead_view (m off status lines) (t : State) :
    resetView (recRead m off status lines t) = resetView t := by
  simp [recRead]

@[simp] theorem ckptRead_view (n status lines) (t : State) : resetView (ckptRead n status lines t) = resetView t := by
  simp [ckptRead]

@[simp] theorem ckptBack_view (n ledger data) (t : State) : resetView (ckptBack n ledger data t) = resetView t := by
  simp [ckptBack]

/-! ### Resets -/

@[simp] theorem cutChunk_view (c) (t : State) : resetView (cutChunk t c) = resetView t := by simp [cutChunk]

@[simp] theorem cutLane_view (l) (t : State) : resetView (cutLane t l) = resetView t := by simp [cutLane]

@[simp] theorem keepTags_view (l) (t : State) : resetView (keepTags t l) = resetView t := by simp [keepTags]

@[simp] theorem answerCut_view (l) (t : State) : resetView (answerCut t l) = resetView t := by simp [answerCut]

@[simp] theorem resetIngress_view (p) (t : State) : resetView (resetIngress p t) = resetView t := by
  simp [resetIngress]

@[simp] theorem replayStreams_view (ns) (t : State) : resetView (replayStreams ns t) = resetView t := by
  simp [replayStreams]

@[simp] theorem rowsAgain_view (t : State) : resetView (rowsAgain t) = resetView t := by simp [rowsAgain]

@[simp] theorem resetMatch_view (t : State) : resetView (resetMatch t) = resetView t := by simp [resetMatch]

@[simp] theorem restartScrub_view (t : State) : resetView (restartScrub t) = resetView t := by simp [restartScrub]

@[simp] theorem dropVisits_view (t : State) : resetView (dropVisits t) = resetView t := by simp [dropVisits]

@[simp] theorem resetVault_view (t : State) : resetView (resetVault t) = resetView t := by simp [resetVault]

@[simp] theorem resetRow_view (r) (t : State) : resetView (resetRow t r) = resetView t := by simp [resetRow]

@[simp] theorem resetClear_view (t : State) : resetView (resetClear t) = resetView t := by
  simp [resetClear, -List.foldl_append]

@[simp] theorem resetLogit_view (t : State) : resetView (resetLogit t) = resetView t := by
  simp [resetLogit, -List.foldl_append]

@[simp] theorem resetEgress_view (p) (t : State) : resetView (resetEgress p t) = resetView t := by
  unfold resetEgress
  dsimp only
  split <;> simp

@[simp] theorem resetMemPort_view (p) (t : State) : resetView (resetMemPort p t) = resetView t := by
  simp [resetMemPort]

@[simp] theorem emptyDebug_view (t : State) : resetView (emptyDebug t) = resetView t := by simp [emptyDebug]

@[simp] theorem resetDebug_view (t : State) : resetView (resetDebug t) = resetView t := by simp [resetDebug]

@[simp] theorem resetMon_view (t : State) : resetView (resetMon t) = resetView t := by simp [resetMon]

@[simp] theorem resetCore_view (t : State) : resetView (resetCore t) = resetView t := by simp [resetCore]

@[simp] theorem releaseCore_view (t : State) : resetView (releaseCore t) = resetView t := by simp [releaseCore]

/-! ### Keyed -/

@[simp] theorem setHashRow_view (j v) (t : State) : resetView (setHashRow j v t) = resetView t := by
  have hlo : hashKey j ∉ watchedRegs := notWatched_of_gt (by unfold hashKey; omega)
  have hhi : hashKey j + 1 ∉ watchedRegs := notWatched_of_gt (by unfold hashKey; omega)
  simp [setHashRow, -List.mem_cons, hlo, hhi]

@[simp] theorem endActivities_view (t : State) : resetView (endActivities t) = resetView t := by simp [endActivities]

@[simp] theorem zeroContents_view (t : State) : resetView (zeroContents t) = resetView t := by simp [zeroContents]

/-! ### Finish -/

@[simp] theorem markLost_view (m) (t : State) : resetView (markLost m t) = resetView t := by simp [markLost]

@[simp] theorem noteFailure_view (a) (t : State) : resetView (noteFailure a t) = resetView t := by
  unfold noteFailure
  dsimp only
  repeat' split
  all_goals simp

@[simp] theorem loseMirror_view (m status) (t : State) : resetView (loseMirror m status t) = resetView t := by
  simp [loseMirror]

@[simp] theorem loseMirrors_view (a) (t : State) : resetView (loseMirrors a t) = resetView t := by simp [loseMirrors]

@[simp] theorem loseFailed_view (t : State) : resetView (loseFailed t) = resetView t := by simp [loseFailed]

@[simp] theorem completed_view (n) (t : State) : resetView (completed n t) = resetView t := by
  unfold completed
  dsimp only
  split <;> simp

@[simp] theorem closeDone_view (n) (t : State) : resetView (closeDone n t) = resetView t := by simp [closeDone]

@[simp] theorem markWritten_view (n) (t : State) : resetView (markWritten n t) = resetView t := by simp [markWritten]

@[simp] theorem recordWritten_view (e next) (t : State) : resetView (recordWritten e next t) = resetView t := by
  simp [recordWritten]

@[simp] theorem failItem_view (ledger status) (t : State) : resetView (failItem ledger status t) = resetView t := by
  simp [failItem]

@[simp] theorem putBack_view (c) (t : State) : resetView (putBack c t) = resetView t := by simp [putBack]

@[simp] theorem preReadDone_view (c a) (t : State) : resetView (preReadDone c a t) = resetView t := by
  unfold preReadDone
  dsimp only
  repeat' split
  all_goals simp

@[simp] theorem goldenLost_view (bank) (t : State) : resetView (goldenLost bank t) = resetView t := by
  simp [goldenLost]

@[simp] theorem goldenDone_view (bank copy a) (t : State) : resetView (goldenDone bank copy a t) = resetView t := by
  simp [goldenDone]

@[simp] theorem messageFailed_view (mtag status) (t : State) :
    resetView (messageFailed mtag status t) = resetView t := by
  unfold messageFailed
  split <;> simp

end Sys2Proof.Machine
end

section
/-!
PROOFS. What the accesses that end at a reset, and the keyed command that goes on then, leave of what is watched: the
domains held and their causes, and, with no keyed command waiting for its journal entry, that keys and scopes are empty.
-/

namespace Sys2Proof.Machine

/-- What holds each clock domain, and each cause, is as it was. -/
structure SameHold (p q : PowerState) : Prop where
  held : q.held = p.held
  byReg : q.byReg = p.byReg
  byPin : q.byPin = p.byPin
  lostClk : q.lostClk = p.lostClk
  testMode : q.testMode = p.testMode

theorem SameHold.refl (p : PowerState) : SameHold p p := ⟨rfl, rfl, rfl, rfl, rfl⟩

theorem SameHold.trans {p q r : PowerState} (h : SameHold p q) (k : SameHold q r) : SameHold p r :=
  ⟨k.held.trans h.held, k.byReg.trans h.byReg, k.byPin.trans h.byPin, k.lostClk.trans h.lostClk,
    k.testMode.trans h.testMode⟩

/-- The resets and the clocks stand as they were; held counter halves that are dropped, and a beat port that is frozen
with CAUSE 0, stay so. -/
structure Stands (s t : State) : Prop where
  hold : SameHold s.power t.power
  stat : reg t R.PWR_STAT = reg s R.PWR_STAT
  seen : reg t R.PWR_RSTSEEN = reg s R.PWR_RSTSEEN
  clkOk : reg t R.PWR_CLKOK = reg s R.PWR_CLKOK
  clkLoss : reg t R.PWR_CLKLOSS = reg s R.PWR_CLKLOSS
  heldLo : s.heldLo = [] → t.heldLo = []
  beat : s.beat.frozen = true ∧ s.beat.cause = 0 → t.beat.frozen = true ∧ t.beat.cause = 0

/-- No key and no scope is left. -/
def Locked (s : State) : Prop := s.kcw.keys = [] ∧ s.kcw.scopes = 0

/-- No keyed command waits for its journal entry, and there are keys or scopes only if there were. -/
structure StaysQuiet (s t : State) : Prop where
  quiet : waitsForMark s = false → waitsForMark t = false
  locked : waitsForMark s = false → Locked s → Locked t

/-- What every end of an access keeps. -/
structure Rests (s t : State) : Prop where
  stands : Stands s t
  calm : StaysQuiet s t

theorem Stands.refl (s : State) : Stands s s := ⟨.refl _, rfl, rfl, rfl, rfl, id, id⟩

theorem Stands.trans {s t u : State} (h : Stands s t) (k : Stands t u) : Stands s u :=
  ⟨h.hold.trans k.hold, k.stat.trans h.stat, k.seen.trans h.seen, k.clkOk.trans h.clkOk, k.clkLoss.trans h.clkLoss,
    k.heldLo ∘ h.heldLo, k.beat ∘ h.beat⟩

theorem StaysQuiet.refl (s : State) : StaysQuiet s s := ⟨id, fun _ => id⟩

theorem StaysQuiet.trans {s t u : State} (h : StaysQuiet s t) (k : StaysQuiet t u) : StaysQuiet s u :=
  ⟨k.quiet ∘ h.quiet, fun hs => k.locked (h.quiet hs) ∘ h.locked hs⟩

theorem Rests.refl (s : State) : Rests s s := ⟨Stands.refl s, StaysQuiet.refl s⟩

theorem Rests.trans {s t u : State} (h : Rests s t) (k : Rests t u) : Rests s u :=
  ⟨h.stands.trans k.stands, h.calm.trans k.calm⟩

theorem Stands.of_view {s t : State} (e : resetView t = resetView s) : Stands s t := by
  have hheld : t.heldLo = s.heldLo := congrArg ResetView.heldLo e
  have hbeat : t.beat = s.beat := congrArg ResetView.beat e
  have hhold : SameHold s.power t.power :=
    ⟨congrArg (·.power.held) e, congrArg (·.power.byReg) e, congrArg (·.power.byPin) e, congrArg (·.power.lostClk) e,
      congrArg (·.power.testMode) e⟩
  exact ⟨hhold, congrArg ResetView.stat e, congrArg ResetView.seen e, congrArg ResetView.clkOk e,
    congrArg ResetView.clkLoss e, hheld.trans, hbeat ▸ id⟩

theorem StaysQuiet.of_kcw {s t : State} (e : t.kcw = s.kcw) : StaysQuiet s t := by
  have hwait : waitsForMark t = waitsForMark s := by
    unfold waitsForMark
    rw [e]
  exact ⟨hwait.trans, fun _ h => ⟨e ▸ h.1, e ▸ h.2⟩⟩

theorem Rests.view {s t u : State} (h : Rests s t) (e : resetView u = resetView t) : Rests s u :=
  h.trans ⟨Stands.of_view e, StaysQuiet.of_kcw (congrArg ResetView.kcw e)⟩

theorem Stands.view {s t u : State} (h : Stands s t) (e : resetView u = resetView t) : Stands s u :=
  h.trans (Stands.of_view e)

/-- A keyed command that waits for its journal entry may do what it does. -/
theorem Rests.of_waits {s t : State} (h : Stands s t) (hwait : waitsForMark s = true) : Rests s t :=
  ⟨h, fun e => absurd hwait (by simp [e]), fun e => absurd hwait (by simp [e])⟩

theorem Rests.ite {s a b : State} {c : Prop} [Decidable c] (ha : Rests s a) (hb : Rests s b) :
    Rests s (if c then a else b) := by
  split <;> assumption

theorem Rests.foldl {α : Type} {s t : State} {f : State → α → State} (xs : List α) (h : Rests s t)
    (hf : ∀ u x, Rests s u → Rests s (f u x)) : Rests s (xs.foldl f t) := by
  induction xs generalizing t with
  | nil => exact h
  | cons x xs ih => exact ih (hf _ _ h)

/-- An update of the keyed commands alone. -/
theorem Stands.kcw {s t : State} (k : KcwState) (h : Stands s t) : Stands s { t with kcw := k } :=
  h.trans ⟨.refl _, rfl, rfl, rfl, rfl, id, id⟩

/-! ### The keyed command under way -/

theorem endKeyed_stands (st) {s t : State} (h : Stands s t) : Stands s (endKeyed st t) := by
  unfold endKeyed
  exact (h.view (by simp)).kcw _

theorem endKeyed_rests (st) {s t : State} (h : Rests s t) : Rests s (endKeyed st t) :=
  h.trans ⟨endKeyed_stands st (Stands.refl t), fun _ => rfl, fun _ => id⟩

theorem waitsForMark_onRun {f : KcwRun → KcwRun} (hf : ∀ r, (f r).stage = .journal → r.stage = .journal) {t : State}
    (h : waitsForMark t = false) : waitsForMark (onRun f t) = false := by
  unfold waitsForMark onRun at *
  cases hr : t.kcw.run with
  | none => rfl
  | some r =>
    rw [hr] at h
    simpa using fun e => (of_decide_eq_false h) (hf r e)

theorem onRun_rests {f : KcwRun → KcwRun} (hf : ∀ r, (f r).stage = .journal → r.stage = .journal) {s t : State}
    (h : Rests s t) : Rests s (onRun f t) :=
  h.trans ⟨(Stands.refl t).kcw _, waitsForMark_onRun hf, fun _ => id⟩

theorem Rests.kcw {k : KcwState} {s t : State} (h : Rests s t) (hrun : k.run = t.kcw.run) (hkeys : k.keys = t.kcw.keys)
    (hscopes : k.scopes = t.kcw.scopes) : Rests s { t with kcw := k } := by
  have hwait : waitsForMark { t with kcw := k } = waitsForMark t := by
    unfold waitsForMark
    rw [← hrun]
  exact h.trans ⟨(Stands.refl t).kcw k, hwait.trans, fun _ e => ⟨hkeys.trans e.1, hscopes.trans e.2⟩⟩

theorem setStage_rests {st : KcwStage} (hst : st ≠ .journal) {s t : State} (h : Rests s t) : Rests s (setStage st t) :=
  onRun_rests (fun _ e => absurd e hst) h

theorem setStage_stands (st) {s t : State} (h : Stands s t) : Stands s (setStage st t) := h.kcw _

/-- What a purchase leaves, from what its two ways on leave. -/
theorem buy_rests (cls bill cmd) {onWait body : State → State} {s t : State} (h : Rests s t)
    (hwait : ∀ u, Rests s u → Rests s (onWait u)) (hbody : ∀ u, Rests s u → Rests s (body u)) :
    Rests s (buy cls bill cmd onWait body t) := by
  have hpay : Rests s (payBill bill t).1 := h.view (payBill_view bill t)
  unfold buy
  split
  · exact h
  split
  · exact hbody _ h
  split
  · split
    · exact h.view (by simp)
    · exact hwait _ (h.view (by simp))
  split
  · split
    · next e => exact hbody _ (by simpa [e] using hpay)
    · exact h.view (by simp)
  · split
    · next e => exact hbody _ (by simpa [e] using hpay)
    · next e => exact hwait _ (Rests.view (by simpa [e] using hpay) (by simp))

theorem startLoad_rests (run) {s t : State} (h : Rests s t) : Rests s (startLoad run t) := by
  unfold startLoad
  dsimp only
  split
  · exact endKeyed_rests _ h
  split
  · exact endKeyed_rests _ (h.view (by simp))
  · have hbound : Rests s (onRun (fun x => { x with bound := loadBound t (readLoad run) }) t) :=
      onRun_rests (by simp) h
    exact buy_rests _ _ _ (hbound.view (by simp))
      (fun _ => setStage_rests (by decide)) (fun _ => setStage_rests (by decide))

theorem setCeiling_rests (r) {s t : State} (h : Rests s t) : Rests s (setCeiling r t) := by
  unfold setCeiling
  dsimp only
  split
  · exact endKeyed_rests _ h
  · exact endKeyed_rests _ (h.view (by simp))

theorem startRepair_rests (run) {s t : State} (h : Rests s t) : Rests s (startRepair run t) := by
  unfold startRepair
  dsimp only
  split
  · exact endKeyed_rests _ h
  split
  · exact endKeyed_rests _ h
  split
  · exact endKeyed_rests _ (h.view (by simp))
  split
  · exact endKeyed_rests _ h
  generalize ha : applyRepair (readRepair (operandWord run 0)) t = p
  have happly : Rests s p.1 := h.view (by simp [← ha])
  split
  · exact endKeyed_rests _ happly
  · have hrun : Rests s (onRun (fun x => { x with status := p.2 }) p.1) := onRun_rests (by simp) happly
    exact Rests.view (setStage_rests (st := .mapping) (by decide) hrun) (by simp)

theorem setHash_rests (r) {s t : State} (h : Rests s t) : Rests s (setHash r t) := by
  unfold setHash
  dsimp only
  split
  · exact endKeyed_rests _ h
  · exact endKeyed_rests _ (Rests.kcw (h.view (by simp)) rfl rfl rfl)

/-! ### ZEROISE and the resets of the domains -/

theorem freeze_rests {s t : State} (h : Rests s t) : Rests s (freeze 0 t) := by
  unfold freeze
  refine Rests.view (h.trans ?_) (wakeAll_view _ _)
  exact ⟨⟨.refl _, rfl, rfl, rfl, rfl, id, fun _ => ⟨rfl, rfl⟩⟩, StaysQuiet.of_kcw rfl⟩

theorem dropHalves_rests {s t : State} (h : Rests s t) : Rests s { t with heldLo := [] } :=
  h.trans ⟨⟨.refl _, rfl, rfl, rfl, rfl, fun _ => rfl, id⟩, StaysQuiet.of_kcw rfl⟩

theorem resetEffect_rests (d) {s t : State} (h : Rests s t) : Rests s (resetEffect d t) := by
  unfold resetEffect
  refine .ite (h.view (by simp)) <| .ite (h.view (by simp)) <| .ite (h.view (by simp)) <| .ite (h.view (by simp)) <|
    .ite (h.view (by simp)) <| .ite (h.view (by simp)) <| .ite (h.view (by simp)) <| .ite (h.view (by simp)) ?_
  exact .ite (dropHalves_rests h) <| .ite (freeze_rests h) <| .ite (h.view (by simp)) <| .ite (h.view (by simp)) h

/-- ZEROISE leaves no key and no scope. -/
theorem emptyKeys_rests {s t : State} (p : PurseState) (h : Rests s t) :
    Rests s { t with purse := p, kcw := { t.kcw with keys := [], scopes := 0, hashLock := false } } :=
  h.trans ⟨⟨.refl _, rfl, rfl, rfl, rfl, id, id⟩, id, fun _ _ => ⟨rfl, rfl⟩⟩

theorem startZeroise_rests {s t : State} (h : Rests s t) : Rests s (startZeroise t) := by
  have hreset : Rests s (zeroDomains.foldl (fun u d => resetEffect d u) t) :=
    h.foldl _ fun _ d => resetEffect_rests d
  have hdrop : Rests s (endActivities (dropAccesses (fun _ => true)
      ((List.range 8).foldl answerCut (zeroDomains.foldl (fun u d => resetEffect d u) t)))) :=
    hreset.view (by simp)
  unfold startZeroise
  dsimp only
  generalize endActivities _ = u at *
  exact setStage_rests (by decide) (Rests.view (emptyKeys_rests _ hdrop) (by simp; rfl))

theorem debugUnlock_stands (r) {s t : State} (h : Stands s t) : Stands s (debugUnlock r t) := by
  unfold debugUnlock
  dsimp only
  split
  · exact endKeyed_stands _ h
  · exact endKeyed_stands _ (h.kcw _)

theorem carryOut_stands {s t : State} (h : Stands s t) : Stands s (carryOut t) := by
  unfold carryOut
  split
  · exact h
  have hr := Rests.refl t
  split
  · exact h.trans (startLoad_rests _ hr).stands
  split
  · exact h.trans (setCeiling_rests _ hr).stands
  split
  · exact h.trans (startRepair_rests _ hr).stands
  split
  · exact h.trans (setHash_rests _ hr).stands
  split
  · exact h.trans (startZeroise_rests hr).stands
  · exact debugUnlock_stands _ h

/-- While a keyed command waits for its journal entry, what it does leaves what is watched. -/
theorem carryOut_rests {s t : State} (h : Rests s t) (hwait : waitsForMark t = true) : Rests s (carryOut t) :=
  h.trans (Rests.of_waits (carryOut_stands (Stands.refl t)) hwait)

theorem carryMark_rests {s t : State} (h : Rests s t) : Rests s (carryMark t) := by
  unfold carryMark
  split
  · next hwait => exact carryOut_rests (h.kcw rfl rfl rfl) hwait
  · exact h

/-! ### What follows the end of an access -/

theorem journalOpened_rests {s t : State} (h : Rests s t) : Rests s (journalOpened t) := by
  have hmarks : Rests s (writeMarks t.ledger.ring t) := h.view (by simp)
  unfold journalOpened
  dsimp only
  generalize writeMarks t.ledger.ring t = u at *
  have hpend : Rests s { u with kcw := { u.kcw with hwmPend := false } } := hmarks.kcw rfl rfl rfl
  exact hpend.view (foldl_view _ _ _ fun _ _ => goOn_view _ _)

theorem runAfter_rests (next) {s t : State} (h : Rests s t) : Rests s (runAfter next t) := by
  unfold runAfter
  split
  case h_12 k m =>
    split
    · next hentry =>
      refine carryOut_rests h ?_
      unfold waitsForEntry at hentry
      simp_all
    · exact h
  case h_13 => exact journalOpened_rests h
  all_goals exact h.view (by simp)

theorem entryWritten_rests (e next) {s t : State} (h : Rests s t) : Rests s (entryWritten e next t) := by
  unfold entryWritten
  split
  · exact h.view (by simp)
  · exact runAfter_rests _ (h.view (by simp))

theorem copyWritten_rests (k other st) {s t : State} (h : Rests s t) : Rests s (copyWritten k other st t) := by
  unfold copyWritten
  dsimp only
  generalize hu : noteTorn _ = u
  have hnote : Rests s u := h.view (by simp [← hu])
  split
  · exact hnote
  split
  · exact hnote.view (by simp)
  split
  · exact endKeyed_rests _ (hnote.view (by simp))
  · exact endKeyed_rests _ hnote

theorem endLoad_rests (o st) {s t : State} (h : Rests s t) : Rests s (endLoad o st t) :=
  endKeyed_rests _ (h.view (by simp))

theorem endLoading_rests (st) {s t : State} (h : Rests s t) : Rests s (endLoading st t) := by
  unfold endLoading
  split
  · exact h
  · exact endLoad_rests _ _ h

theorem startPlacing_rests (lines job) {s t : State} (h : Rests s t) : Rests s (startPlacing lines job t) :=
  Rests.view (setStage_rests (st := .placing) (by decide) h) (by simp [startPlacing])

theorem tokInstall_rests (o key im) {s t : State} (h : Rests s t) : Rests s (tokInstall o key im t) := by
  unfold tokInstall
  split
  · exact startPlacing_rests _ _ h
  · exact endLoad_rests _ _ h
  · exact endLoad_rests _ _ h

theorem tokPlaced_rests (k r) {s t : State} (h : Rests s t) : Rests s (tokPlaced k r t) := by
  unfold tokPlaced
  split
  · exact h
  split
  · exact tokInstall_rests _ _ _ h
  · exact endLoading_rests _ (h.view (by simp))

theorem jobDone_rests (a) {s t : State} (h : Rests s t) : Rests s (jobDone a t) := by
  unfold jobDone
  cases a.job with
  | journal e next => exact entryWritten_rests e next (h.view (by simp))
  | mapWrite k other => exact copyWritten_rests k other a.status h
  | placed k r => exact tokPlaced_rests k r h
  | placedGrammar gid g => exact endLoading_rests _ (h.view (by simp))
  | placedSet slot m => exact endLoading_rests _ (h.view (by simp))
  | _ => exact h.view (by simp)

theorem jobFailed_rests (a) {s t : State} (h : Rests s t) : Rests s (jobFailed a t) := by
  have hdone := jobDone_rests a h
  unfold jobFailed
  split
  case h_19 => exact endLoading_rests _ h
  case h_21 => exact endLoading_rests _ h
  case h_22 => exact endLoading_rests _ h
  case h_23 => exact hdone
  all_goals exact h.view (by simp)

theorem endAccess_rests (a) {s t : State} (h : Rests s t) : Rests s (endAccess a t) := by
  have hnote : Rests s (noteFailure a { t with accesses := withoutAccess a t }) := h.view (by simp)
  unfold endAccess
  split
  · exact jobDone_rests a hnote
  · exact jobFailed_rests a hnote

theorem endAccesses_rests (fuel) {s t : State} (h : Rests s t) : Rests s (endAccesses fuel t) := by
  induction fuel generalizing t with
  | zero => exact h
  | succ fuel ih =>
    unfold endAccesses
    split
    · exact h
    · exact ih (endAccess_rests _ h)

theorem settleAccesses_rests {s t : State} (h : Rests s t) : Rests s (settleAccesses t) := by
  have hends (fuel) : Rests s (endAccesses fuel (loseFailed t)) := endAccesses_rests fuel (h.view (by simp))
  exact (hends _).view (sweep_view _)

/-! ### A keyed command that was held by the reset of its domain -/

theorem tagFailed_stands (r) {s t : State} (h : Stands s t) : Stands s (tagFailed r t) :=
  endKeyed_stands _ (Stands.view (h.kcw _) (bump_view _ _ (by decide)))

theorem takeKeyed_stands (r key) {s t : State} (h : Stands s t) : Stands s (takeKeyed r key t) := by
  have hdone : Stands s (bump R.KCW_DONE 1 (onRun (fun x => { x with key := key }) t)) :=
    Stands.view (h.kcw _) (bump_view _ _ (by decide))
  unfold takeKeyed
  dsimp only
  generalize bump R.KCW_DONE 1 _ = u at *
  split
  · exact Stands.view (setStage_stands .journal (hdone.kcw _)) (journal_view _ _ _ _)
  · exact carryOut_stands (hdone.kcw _)

theorem checkKeyed_stands (r) {s t : State} (h : Stands s t) : Stands s (checkKeyed r t) := by
  unfold checkKeyed
  split
  · split
    · exact tagFailed_stands r h
    · dsimp only
      split
      · exact endKeyed_stands _ (Stands.view (h.kcw _) (bump_view _ _ (by decide)))
      · exact takeKeyed_stands _ _ (h.kcw _)
  · exact endKeyed_stands _ h

theorem checkHeld_stands {s t : State} (h : Stands s t) : Stands s (checkHeld t) := by
  unfold checkHeld
  split
  · exact h
  split
  · exact h
  split
  · exact endKeyed_stands _ h
  split
  · exact setStage_stands _ h
  · exact checkKeyed_stands _ h

end Sys2Proof.Machine
end

section
/-!
PROOFS. Resets and clocks: what the assertion of a reset, its release, a clock lost and a clock found do to the domains
held, and the obligation assembled from that.
-/

namespace Sys2Proof.Machine

/-! ### The clock domains that are held -/

theorem clkUp_iff (s : State) (d : Nat) : clkUp s d = true ↔ d ∉ s.power.held ∧ d ∉ s.power.lostClk := by
  simp [clkUp]

theorem clkUp_eq_false_iff (s : State) (d : Nat) : clkUp s d = false ↔ d ∈ s.power.held ∨ d ∈ s.power.lostClk := by
  rw [← Bool.not_eq_true, clkUp_iff]
  tauto

theorem SameHold.clkUp {s t : State} (h : SameHold s.power t.power) (d : Nat) : clkUp t d = clkUp s d := by
  unfold Machine.clkUp
  rw [h.held, h.lostClk]

/-! ### A domain enters reset -/

/-- What a domain's entry into reset leaves, and shows. -/
structure Entered (d : Nat) (s t : State) : Prop where
  hold : SameHold s.power t.power
  seen : (reg t R.PWR_RSTSEEN).testBit (d - 1) = true
  stat : reg t R.PWR_STAT = reg s R.PWR_STAT
  clkOk : reg t R.PWR_CLKOK = reg s R.PWR_CLKOK
  clkLoss : reg t R.PWR_CLKLOSS = reg s R.PWR_CLKLOSS
  beat : d = 21 → t.beat.frozen = true ∧ t.beat.cause = 0
  heldLo : d = 20 → t.heldLo = []
  calm : StaysQuiet s t

theorem afterReset_rests (d) {s t : State} (h : Rests s t) : Rests s (afterReset d t) :=
  settleAccesses_rests (.ite (carryMark_rests h) h)

theorem testBit_reg_setRegBit {i : Nat} (hi : i < 32) (off) (t : State) :
    (reg (setRegBit off i t) off).testBit i = true := by
  rw [setRegBit, reg_setReg_same, Nat.testBit_mod_two_pow]
  simp [hi]

theorem beat_of_view {s t : State} (e : resetView t = resetView s) : t.beat = s.beat := congrArg ResetView.beat e

theorem freeze_beat (c : Nat) (t : State) : (freeze c t).beat.frozen = true ∧ (freeze c t).beat.cause = c := by
  rw [freeze, beat_of_view (wakeAll_view _ _)]
  exact ⟨rfl, rfl⟩

theorem resetEffect_beat (s : State) :
    (resetEffect 21 s).beat.frozen = true ∧ (resetEffect 21 s).beat.cause = 0 := by
  have e : resetEffect 21 s = freeze 0 s := by simp [resetEffect, resetBeat]
  exact e ▸ freeze_beat 0 s

theorem resetEffect_heldLo (s : State) : (resetEffect 20 s).heldLo = [] := by
  simp [resetEffect]

/-- PWR_RSTSEEN shows the reset; nothing else that is watched changes with it. -/
theorem setSeen_entered {d : Nat} (hd : d ≤ 32) (hpos : 1 ≤ d) {s u v : State} (heffect : Rests s u)
    (hbeat : d = 21 → u.beat.frozen = true ∧ u.beat.cause = 0) (hhalves : d = 20 → u.heldLo = [])
    (hafter : Rests (setRegBit R.PWR_RSTSEEN (d - 1) u) v) : Entered d s v := by
  have hother {off : Nat} (hoff : off ≠ R.PWR_RSTSEEN) : reg (setRegBit R.PWR_RSTSEEN (d - 1) u) off = reg u off :=
    reg_setReg_other _ _ hoff
  have hcalm : StaysQuiet u (setRegBit R.PWR_RSTSEEN (d - 1) u) := StaysQuiet.of_kcw rfl
  exact
    { hold := heffect.stands.hold.trans hafter.stands.hold
      seen := by
        rw [hafter.stands.seen]
        exact testBit_reg_setRegBit (by omega) _ _
      stat := hafter.stands.stat.trans ((hother (by decide)).trans heffect.stands.stat)
      clkOk := hafter.stands.clkOk.trans ((hother (by decide)).trans heffect.stands.clkOk)
      clkLoss := hafter.stands.clkLoss.trans ((hother (by decide)).trans heffect.stands.clkLoss)
      beat := fun e => hafter.stands.beat (hbeat e)
      heldLo := fun e => hafter.stands.heldLo (hhalves e)
      calm := heffect.calm.trans (hcalm.trans hafter.calm) }

theorem enterReset_entered {d : Nat} (hd : d ≤ 32) (hpos : 1 ≤ d) (s : State) :
    Entered d s (afterReset d (enterReset d s)) :=
  setSeen_entered hd hpos (resetEffect_rests d (Rests.refl s)) (fun e => e ▸ resetEffect_beat s)
    (fun e => e ▸ resetEffect_heldLo s) (afterReset_rests d (Rests.refl _))

/-! ### A reset is asserted -/

/-- A reset of a domain adds it to those held, and nothing else to what holds the domains. -/
structure Asserted (d : Nat) (s t : State) : Prop where
  held : ∀ k, k ∈ t.power.held ↔ k = d ∨ k ∈ s.power.held
  byReg : t.power.byReg = s.power.byReg
  byPin : t.power.byPin = s.power.byPin
  lostClk : t.power.lostClk = s.power.lostClk
  testMode : t.power.testMode = s.power.testMode
  shows : clkUp s d = true → (reg t R.PWR_RSTSEEN).testBit (d - 1) = true
    ∧ (d = 21 → t.beat.frozen = true ∧ t.beat.cause = 0) ∧ (d = 20 → t.heldLo = [])
  calm : StaysQuiet s t

theorem mem_holdDomain (d k) (s : State) : k ∈ (holdDomain d s).power.held ↔ k = d ∨ k ∈ s.power.held := by
  unfold holdDomain
  split
  · next h =>
    have hd : d ∈ s.power.held := by simpa using h
    exact ⟨.inr, fun e => e.elim (fun e => e ▸ hd) id⟩
  · simp [or_comm]

theorem holdDomain_eq (d) (s : State) :
    holdDomain d s = { s with power := { s.power with held := (holdDomain d s).power.held } } := by
  unfold holdDomain
  split <;> rfl

theorem assertReset_asserted {d : Nat} (hd : d ≤ 32) (hpos : 1 ≤ d) (s : State) : Asserted d s (assertReset d s) := by
  have hmem := fun k => mem_holdDomain d k s
  have heq := holdDomain_eq d s
  unfold assertReset
  dsimp only
  generalize holdDomain d s = t at *
  split
  · have h := enterReset_entered hd hpos t
    exact
      { held := fun k => by rw [h.hold.held, hmem]
        byReg := by rw [h.hold.byReg, heq]
        byPin := by rw [h.hold.byPin, heq]
        lostClk := by rw [h.hold.lostClk, heq]
        testMode := by rw [h.hold.testMode, heq]
        shows := fun _ => ⟨h.seen, h.beat, h.heldLo⟩
        calm := StaysQuiet.trans (StaysQuiet.of_kcw (by rw [heq])) h.calm }
  · next hdown =>
    exact
      { held := hmem
        byReg := by rw [heq]
        byPin := by rw [heq]
        lostClk := by rw [heq]
        testMode := by rw [heq]
        shows := fun hup => absurd hup hdown
        calm := StaysQuiet.of_kcw (by rw [heq]) }

theorem Asserted.clkUp_same {d : Nat} {s t : State} (h : Asserted d s t) : clkUp t d = false :=
  (clkUp_eq_false_iff t d).2 (.inl ((h.held d).2 (.inl rfl)))

theorem Asserted.clkUp_other {d k : Nat} {s t : State} (h : Asserted d s t) (hk : k ≠ d) : clkUp t k = clkUp s k := by
  rw [Bool.eq_iff_iff, clkUp_iff, clkUp_iff, h.held, h.lostClk]
  simp [hk]

/-! ### A domain is released -/

theorem wakeDomain_stands (d) (s : State) : Stands s (wakeDomain d s) := by
  have hcheck := checkHeld_stands (Stands.refl s)
  unfold wakeDomain
  split
  · exact hcheck.view (sweep_view _)
  · exact Stands.of_view (by simp [leaveReset])

theorem freeDomain_same {d : Nat} {s : State} (h : stillHeld s d = true) : freeDomain d s = s := by
  simp [freeDomain, h]

theorem freeDomain_power {d : Nat} {s : State} (h : stillHeld s d = false) :
    SameHold { s.power with held := s.power.held.filter (· != d) } (freeDomain d s).power := by
  unfold freeDomain
  dsimp only
  rw [h]
  simp only [Bool.false_eq_true, if_false]
  split
  · exact SameHold.refl _
  · exact (wakeDomain_stands d { s with power := { s.power with held := s.power.held.filter (· != d) } }).hold

theorem freeDomain_up {d : Nat} {s : State} (h : stillHeld s d = false) (hclk : d ∉ s.power.lostClk) :
    clkUp (freeDomain d s) d = true := by
  have hp := freeDomain_power h
  rw [clkUp_iff, hp.held, hp.lostClk]
  exact ⟨by simp, hclk⟩

theorem freeDomain_down {d : Nat} {s : State} (h : stillHeld s d = true) (hheld : d ∈ s.power.held) :
    clkUp (freeDomain d s) d = false := by
  rw [freeDomain_same h, clkUp_eq_false_iff]
  exact .inl hheld

theorem freeDomain_byReg (d : Nat) (s : State) : (freeDomain d s).power.byReg = s.power.byReg := by
  cases h : stillHeld s d
  · exact (freeDomain_power h).byReg
  · rw [freeDomain_same h]

theorem freeDomain_byPin (d : Nat) (s : State) : (freeDomain d s).power.byPin = s.power.byPin := by
  cases h : stillHeld s d
  · exact (freeDomain_power h).byPin
  · rw [freeDomain_same h]

theorem stillHeld_eq_false {s : State} {d : Nat} (hreg : d ∉ s.power.byReg) (hpin : d ∉ s.power.byPin)
    (htest : s.power.testMode = false) : stillHeld s d = false := by
  simp [stillHeld, hreg, hpin, htest]

theorem stillHeld_of_byReg {s : State} {d : Nat} (h : d ∈ s.power.byReg) : stillHeld s d = true := by
  simp [stillHeld, h]

theorem stillHeld_of_byPin {s : State} {d : Nat} (h : d ∈ s.power.byPin) : stillHeld s d = true := by
  simp [stillHeld, h]

/-! ### Clocks -/

theorem testBit_setBits_zero (v i : Nat) : (setBits v i 1 0).testBit i = false := by
  have hle : 2 ^ i * (v / 2 ^ i % 2) ≤ v :=
    (Nat.mul_le_mul_left _ (Nat.mod_le _ _)).trans (Nat.mul_div_le v (2 ^ i))
  rw [Nat.testBit_eq_decide_div_mod_eq]
  simp only [setBits, bits, pow_one, Nat.zero_mod, zero_mul, add_zero, decide_eq_false_iff_not]
  rw [mul_comm, Nat.sub_mul_div_of_le _ _ _ hle]
  omega

theorem testBit_reg_clearRegBit (off i) (t : State) : (reg (clearRegBit off i t) off).testBit i = false := by
  rw [clearRegBit, reg_setReg_same, Nat.testBit_mod_two_pow, testBit_setBits_zero, Bool.and_false]

/-- A lost clock as the registers note it. -/
def noteLostClock (d : Nat) (s : State) : State :=
  bump R.PWR_CLKLOSS 1 (setRegBit R.PWR_STAT 4 (clearRegBit R.PWR_CLKOK (d - 1)
    { s with power := { s.power with lostClk := s.power.lostClk ++ [d] } }))

/-- What the loss of a clock shows. -/
structure ClockGone (d : Nat) (s t : State) : Prop where
  lostClk : d ∈ t.power.lostClk
  clkLoss : reg t R.PWR_CLKLOSS = satAdd 32 (reg s R.PWR_CLKLOSS) 1
  stat : (reg t R.PWR_STAT).testBit 4 = true
  clkOk : (reg t R.PWR_CLKOK).testBit (d - 1) = false

theorem noteLostClock_gone (d : Nat) (s : State) : ClockGone d s (noteLostClock d s) := by
  have hsat (n : Nat) : satAdd 32 n 1 % 2 ^ 32 = satAdd 32 n 1 := by
    unfold satAdd
    omega
  unfold noteLostClock
  generalize hu : ({ s with power := { s.power with lostClk := s.power.lostClk ++ [d] } } : State) = u
  have hreg (off) : reg u off = reg s off := by rw [← hu]; rfl
  have hlost : d ∈ u.power.lostClk := by simp [← hu]
  have hstat := testBit_reg_setRegBit (i := 4) (by decide) R.PWR_STAT (clearRegBit R.PWR_CLKOK (d - 1) u)
  have hok := testBit_reg_clearRegBit R.PWR_CLKOK (d - 1) u
  rw [bump, if_neg one_ne_zero]
  refine ⟨hlost, ?_, ?_, ?_⟩
  · rw [reg_setReg_same, hsat, setRegBit, reg_setReg_other _ _ (by decide), clearRegBit,
      reg_setReg_other _ _ (by decide), hreg]
  · rwa [reg_setReg_other _ _ (by decide)]
  · rwa [reg_setReg_other _ _ (by decide), setRegBit, reg_setReg_other _ _ (by decide)]

theorem ClockGone.of_stands {d : Nat} {s t u : State} (h : ClockGone d s t) (k : Stands t u) : ClockGone d s u :=
  ⟨k.hold.lostClk ▸ h.lostClk, k.clkLoss.trans h.clkLoss, k.stat ▸ h.stat, k.clkOk ▸ h.clkOk⟩

theorem ClockGone.of_entered {d : Nat} {s t u : State} (h : ClockGone d s t) (k : Entered d t u) : ClockGone d s u :=
  ⟨k.hold.lostClk ▸ h.lostClk, k.clkLoss.trans h.clkLoss, k.stat ▸ h.stat, k.clkOk ▸ h.clkOk⟩

theorem loseClock_gone {d : Nat} (hd : d ≤ 32) (hpos : 1 ≤ d) {s : State} (h : d ∉ s.power.lostClk) :
    ClockGone d s (loseClock d s) := by
  have hnoted : ClockGone d s (audFault 7 d 0 0 (noteLostClock d s)) :=
    (noteLostClock_gone d s).of_stands (Stands.of_view (audFault_view _ _ _ _ _))
  have e : loseClock d s = if clkUp s d then afterReset d (enterReset d (audFault 7 d 0 0 (noteLostClock d s)))
      else audFault 7 d 0 0 (noteLostClock d s) := by
    rw [loseClock, if_neg (by simpa using h)]
    rfl
  rw [e]
  split
  · exact hnoted.of_entered (enterReset_entered hd hpos _)
  · exact hnoted

/-- A clock as it is found again, before its domain goes on. -/
def noteFoundClock (d : Nat) (s : State) : State :=
  setRegBit R.PWR_CLKOK (d - 1) { s with power := { s.power with lostClk := s.power.lostClk.filter (· != d) } }

theorem findClock_stands {d : Nat} {s : State} (h : d ∈ s.power.lostClk) : Stands (noteFoundClock d s) (findClock d s) := by
  have e : findClock d s = if s.power.held.contains d then noteFoundClock d s else wakeDomain d (noteFoundClock d s) := by
    rw [findClock, if_neg (by simpa using h)]
    rfl
  rw [e]
  split
  · exact Stands.refl _
  · exact wakeDomain_stands d _

/-! ### PWR_RST -/

/-- The domain is held by a reset of PWR_RST. -/
def ResetByReg (s : State) (d : Nat) : Prop := d ∈ s.power.held ∧ d ∈ s.power.byReg

/-- PWR_RST for a domain leaves the others and the clocks, and holds the domain. -/
structure RegReset (d : Nat) (s t : State) : Prop where
  lostClk : t.power.lostClk = s.power.lostClk
  other : ∀ k, k ≠ d → clkUp t k = clkUp s k ∧ (k ∈ t.power.byReg ↔ k ∈ s.power.byReg)
  stays : ∀ k, ResetByReg s k → ResetByReg t k
  named : d ∉ s.power.byReg → d ∉ s.power.lostClk → ResetByReg t d

theorem regReset1_regReset {d : Nat} (hd : d ≤ 32) (hpos : 1 ≤ d) (s : State) : RegReset d s (regReset1 d s) := by
  unfold regReset1
  split
  · next h =>
    refine ⟨rfl, fun _ _ => ⟨rfl, Iff.rfl⟩, fun _ => id, fun hreg hclk => ?_⟩
    simp [hreg, hclk] at h
  · have h := assertReset_asserted hd hpos { s with power := { s.power with byReg := s.power.byReg ++ [d] } }
    have hmem (k) : k ∈ (assertReset d { s with power := { s.power with byReg := s.power.byReg ++ [d] } }).power.byReg
        ↔ k ∈ s.power.byReg ∨ k = d := by
      rw [h.byReg]
      simp
    exact
      { lostClk := h.lostClk
        other := fun k hk => ⟨h.clkUp_other hk, by simp [hmem, hk]⟩
        stays := fun k hs => ⟨(h.held k).2 (.inr hs.1), (hmem k).2 (.inl hs.2)⟩
        named := fun _ _ => ⟨(h.held d).2 (.inl rfl), (hmem d).2 (.inr rfl)⟩ }

/-- What a write of PWR_RST does to the domains of a list. -/
structure RegResets (ds : List Nat) (s t : State) : Prop where
  other : ∀ k, k ∉ ds → clkUp t k = clkUp s k ∧ (k ∈ t.power.byReg ↔ k ∈ s.power.byReg)
  stays : ∀ k, ResetByReg s k → ResetByReg t k
  named : ∀ k ∈ ds, k ∉ s.power.byReg → k ∉ s.power.lostClk → ResetByReg t k

theorem regReset1_foldl (ds : List Nat) (hds : ∀ d ∈ ds, 1 ≤ d ∧ d ≤ 32) (s : State) :
    RegResets ds s (ds.foldl (fun u d => regReset1 d u) s) := by
  induction ds generalizing s with
  | nil => exact ⟨fun _ _ => ⟨rfl, Iff.rfl⟩, fun _ => id, by simp⟩
  | cons d ds ih =>
    obtain ⟨hpos, hd⟩ := hds d List.mem_cons_self
    have h := regReset1_regReset hd hpos s
    have k := ih (fun x hx => hds x (List.mem_cons_of_mem d hx)) (regReset1 d s)
    rw [List.foldl_cons]
    refine ⟨fun x hx => ?_, fun x hx => k.stays x (h.stays x hx), fun x hx hreg hclk => ?_⟩
    · obtain ⟨hne, hx⟩ : x ≠ d ∧ x ∉ ds := by simpa using hx
      exact ⟨(k.other x hx).1.trans (h.other x hne).1, (k.other x hx).2.trans (h.other x hne).2⟩
    · by_cases hxd : x = d
      · subst hxd
        exact k.stays x (h.named hreg hclk)
      · have hx : x ∈ ds := by simpa [hxd] using hx
        exact k.named x hx (fun e => hreg ((h.other x hxd).2.1 e)) (h.lostClk ▸ hclk)

theorem mem_rstDomains (z : Size) (v d : Nat) : d ∈ rstDomains z v ↔ (1 ≤ d ∧ d ≤ 25) ∧ v.testBit (d - 1) = true
    ∧ d ≠ 20 ∧ d ≠ 22 ∧ d ≠ 24 ∧ builtDomain z d = true := by
  unfold rstDomains
  simp only [List.mem_map, List.mem_filter, List.mem_range, bit, Bool.and_eq_true]
  constructor
  · rintro ⟨i, ⟨hi, ⟨hbit, hnot⟩, hbuilt⟩, rfl⟩
    simp at hnot
    exact ⟨by omega, hbit, by omega, by omega, by omega, hbuilt⟩
  · rintro ⟨hrange, hbit, h20, h22, h24, hbuilt⟩
    refine ⟨d - 1, ⟨by omega, ⟨hbit, ?_⟩, ?_⟩, by omega⟩
    · simp
      omega
    · rwa [Nat.sub_add_cancel hrange.1]

/-! ### Test mode -/

theorem finishEffect_rests (fuel) {s t : State} (h : Rests s t) : Rests s (finishEffect fuel t) := by
  induction fuel generalizing t with
  | zero => exact h
  | succ fuel ih =>
    unfold finishEffect
    split
    · exact h
    · exact ih (endAccess_rests _ h)

theorem waitsForMark_of_none {s : State} (h : s.kcw.run = none) : waitsForMark s = false := by
  simp [waitsForMark, h]

theorem waitsForMark_of_stage {s : State} {r : KcwRun} (h : s.kcw.run = some r) (hst : r.stage ≠ .journal) :
    waitsForMark s = false := by
  simp [waitsForMark, h, hst]

/-- With test mode no keyed command waits for its journal entry any longer. -/
theorem endForTest_quiet (s : State) : waitsForMark (endForTest s) = false := by
  have hkeyed (st) (u : State) : waitsForMark (endKeyed st u) = false := rfl
  unfold endForTest
  cases hrun : s.kcw.run with
  | none => exact waitsForMark_of_none hrun
  | some r =>
    have hload (st) : waitsForMark (endLoading st s) = false := by
      unfold endLoading
      rw [hrun]
      rfl
    have hfinish (hst : r.stage ≠ .journal) : waitsForMark (finishEffect 4 s) = false :=
      (finishEffect_rests 4 (Rests.refl s)).calm.quiet (waitsForMark_of_stage hrun hst)
    dsimp only
    cases hst : r.stage with
    | ready => exact hkeyed _ _
    | backoff => exact hkeyed _ _
    | journal => exact hkeyed _ _
    | coins => exact hload _
    | image => exact hload _
    | placing => exact hfinish (by simp [hst])
    | mapping => exact hfinish (by simp [hst])
    | zeroing => exact hkeyed _ _

/-- What the resets of a list of domains leave and do. -/
structure AllAsserted (ds : List Nat) (s t : State) : Prop where
  stays : ∀ k, k ∈ s.power.held → k ∈ t.power.held
  named : ∀ k ∈ ds, k ∈ t.power.held
  testMode : t.power.testMode = s.power.testMode
  calm : StaysQuiet s t

theorem assertReset_foldl (ds : List Nat) (hds : ∀ d ∈ ds, 1 ≤ d ∧ d ≤ 32) (s : State) :
    AllAsserted ds s (ds.foldl (fun u d => assertReset d u) s) := by
  induction ds generalizing s with
  | nil => exact ⟨fun _ => id, by simp, rfl, StaysQuiet.refl s⟩
  | cons d ds ih =>
    obtain ⟨hpos, hd⟩ := hds d List.mem_cons_self
    have h := assertReset_asserted hd hpos s
    have k := ih (fun x hx => hds x (List.mem_cons_of_mem d hx)) (assertReset d s)
    refine ⟨fun x hx => k.stays x ((h.held x).2 (.inr hx)), fun x hx => ?_, k.testMode.trans h.testMode,
      h.calm.trans k.calm⟩
    rcases List.mem_cons.1 hx with rfl | hx
    · exact k.stays x ((h.held x).2 (.inl rfl))
    · exact k.named x hx

end Sys2Proof.Machine
end

section
/-!
PROOFS. What each command on resets and clocks does, and O59 from that.
-/

namespace Sys2Proof.Machine

theorem blockDown_reg (s : State) (off : Nat) : reg (blockDown s) off = (regReset s.build off).toNat := rfl

theorem mem_allDomains {d : Nat} (hpos : 1 ≤ d) (hd : d ≤ 25) : d ∈ (List.range 25).map (· + 1) :=
  List.mem_map.2 ⟨d - 1, List.mem_range.2 (by omega), by omega⟩

theorem exec_blockReset (s : State) : Answers (exec .blockReset s) (fun u =>
    (∀ off, reg u off = (regReset s.build off).toNat) ∧ u.threads = [] ∧ u.streams = []
      ∧ u.ledger = LedgerState.closed ∧ u.accesses = [] ∧ u.purse.queue = [] ∧ u.pending = s.pending
      ∧ u.build = s.build ∧ u.instId = s.instId ∧ (∀ d, pdUp u d = false) ∧ ∀ d, 1 ≤ d → d ≤ 25 → clkUp u d = false) :=
  ⟨blockDown s, rfl, blockDown_reg s, rfl, rfl, rfl, rfl, rfl, rfl, rfl, rfl, fun _ => rfl, fun d hpos hd =>
    (clkUp_eq_false_iff _ d).2 (.inl (mem_allDomains hpos hd))⟩

theorem exec_pdBaseLeavesReset {s : State} (h : pdUp s 0 = false) (i : Word) :
    Answers (exec (.pdBaseLeavesReset i) s) (fun u => u.instId = i ∧ u.kcw.epoch = none
      ∧ (∀ n, slotMark u n = 0) ∧ u.beat.frozen = true ∧ u.beat.cause = 0 ∧ u.beat.pos = 0 ∧ pdUp u 0 = true
      ∧ (∀ off, reg u off = (regReset s.build off).toNat)
      ∧ ∀ d, 1 ≤ d → d ≤ 25 → (clkUp u d = true ↔ d ∉ s.power.byPin ∧ d ∉ s.power.lostClk)) := by
  have e : exec (.pdBaseLeavesReset i) s = .next { blockDown s with
      instId := i
      power := { (blockDown s).power with held := (blockDown s).power.byPin, pds := [(0, .released)] } } := by
    show execPdBaseLeavesReset i s = _
    rw [execPdBaseLeavesReset, if_neg (by simp [h])]
  exact ⟨_, e, rfl, rfl, fun _ => rfl, rfl, rfl, rfl, rfl, blockDown_reg s, fun d _ _ => clkUp_iff _ d⟩

theorem exec_domainReset {s : State} (hup : pdUp s 0 = true) {f : Fin 25} (hpin : hasPin (f.val + 1) = true)
    (hnew : f.val + 1 ∉ s.power.byPin) : Answers (exec (.domainReset f) s) (fun u =>
      clkUp u (f.val + 1) = false ∧ f.val + 1 ∈ u.power.byPin
      ∧ (clkUp s (f.val + 1) = true → (reg u R.PWR_RSTSEEN).testBit (f.val + 1 - 1) = true
          ∧ (f.val + 1 = 21 → u.beat.frozen = true ∧ u.beat.cause = 0) ∧ (f.val + 1 = 20 → u.heldLo = []))) := by
  have hd : f.val + 1 ≤ 32 := by omega
  have hdbg : f.val + 1 ≠ 23 := by
    intro e
    simp [hasPin, e] at hpin
  have e : exec (.domainReset f) s = .next (assertReset (f.val + 1)
      { s with power := { s.power with byPin := s.power.byPin ++ [f.val + 1] } }) := by
    show execDomainReset f s = _
    rw [execDomainReset, if_pos hup, assertPin, if_neg hdbg, if_neg (by simp [hpin, hnew])]
  have h := assertReset_asserted hd (by omega)
    { s with power := { s.power with byPin := s.power.byPin ++ [f.val + 1] } }
  exact ⟨_, e, h.clkUp_same, by simp [h.byPin], h.shows⟩

theorem exec_domainReset_down {s : State} (hdown : pdUp s 0 = false) {f : Fin 25} (hpin : hasPin (f.val + 1) = true) :
    Answers (exec (.domainReset f) s) (fun u => f.val + 1 ∈ u.power.byPin ∧ { u with power := s.power } = s) := by
  have e : exec (.domainReset f) s = .next (notePin (f.val + 1) s) := by
    show execDomainReset f s = _
    rw [execDomainReset, if_neg (by simp [hdown])]
  refine ⟨_, e, ?_⟩
  by_cases hheld : f.val + 1 ∈ s.power.byPin <;> simp [notePin, hpin, hheld]

/-- The end of an interface reset leaves what else holds the domain. -/
theorem exec_interfaceResetRelease {s : State} (hup : pdUp s 0 = true) {f : Fin 25} (hpin : f.val + 1 ∈ s.power.byPin) :
    Answers (exec (.interfaceResetRelease f) s) (fun u => f.val + 1 ∉ u.power.byPin
      ∧ (f.val + 1 ∉ s.power.byReg → s.power.testMode = false → f.val + 1 ∉ s.power.lostClk → clkUp u (f.val + 1) = true)
      ∧ (f.val + 1 ∈ s.power.byReg → f.val + 1 ∈ s.power.held → clkUp u (f.val + 1) = false)) := by
  have e : exec (.interfaceResetRelease f) s = .next (freeDomain (f.val + 1)
      { s with power := { s.power with byPin := s.power.byPin.filter (· != f.val + 1) } }) := by
    show execInterfaceResetRelease f s = _
    rw [execInterfaceResetRelease, if_pos (by simpa using hpin)]
    exact congrArg Host.Outcome.next (if_pos hup)
  refine ⟨_, e, by simp [freeDomain_byPin], fun hreg htest hclk => ?_, fun hreg hheld => ?_⟩
  · exact freeDomain_up (stillHeld_eq_false hreg (by simp) htest) hclk
  · exact freeDomain_down (stillHeld_of_byReg hreg) hheld

theorem exec_resetRelease {s : State} {f : Fin 25} (hreg : f.val + 1 ∈ s.power.byReg) :
    Answers (exec (.resetRelease f) s) (fun u => f.val + 1 ∉ u.power.byReg
      ∧ (f.val + 1 ∉ s.power.byPin → s.power.testMode = false → f.val + 1 ∉ s.power.lostClk → clkUp u (f.val + 1) = true)
      ∧ (f.val + 1 ∈ s.power.byPin → f.val + 1 ∈ s.power.held → clkUp u (f.val + 1) = false)) := by
  have e : exec (.resetRelease f) s = .next (freeDomain (f.val + 1)
      { s with power := { s.power with byReg := s.power.byReg.filter (· != f.val + 1) } }) := by
    show execResetRelease f s = _
    simp [execResetRelease, hreg]
  refine ⟨_, e, by simp [freeDomain_byReg], fun hpin htest hclk => ?_, fun hpin hheld => ?_⟩
  · exact freeDomain_up (stillHeld_eq_false (by simp) hpin htest) hclk
  · exact freeDomain_down (stillHeld_of_byPin hpin) hheld

theorem exec_clockLost {s : State} (hup : pdUp s 0 = true) {f : Fin 25} (hclk : f.val + 1 ∉ s.power.lostClk) :
    Answers (exec (.clockLost f) s) (fun u => clkUp u (f.val + 1) = false ∧ f.val + 1 ∈ u.power.lostClk
      ∧ reg u R.PWR_CLKLOSS = satAdd 32 (reg s R.PWR_CLKLOSS) 1 ∧ (reg u R.PWR_STAT).testBit 4 = true
      ∧ (reg u R.PWR_CLKOK).testBit (f.val + 1 - 1) = false) := by
  have e : exec (.clockLost f) s = .next (loseClock (f.val + 1) s) := by
    show execClockLost f s = _
    rw [execClockLost, if_pos hup]
  obtain ⟨hlost, hcount, hstat, hok⟩ := loseClock_gone (by omega) (by omega) hclk
  exact ⟨_, e, (clkUp_eq_false_iff _ _).2 (.inr hlost), hlost, hcount, hstat, hok⟩

theorem exec_clockRestored {s : State} (hup : pdUp s 0 = true) {f : Fin 25} (hclk : f.val + 1 ∈ s.power.lostClk) :
    Answers (exec (.clockRestored f) s) (fun u => f.val + 1 ∉ u.power.lostClk
      ∧ (reg u R.PWR_CLKOK).testBit (f.val + 1 - 1) = true ∧ (f.val + 1 ∉ s.power.held → clkUp u (f.val + 1) = true)
      ∧ (f.val + 1 ∈ s.power.held → clkUp u (f.val + 1) = false)) := by
  have e : exec (.clockRestored f) s = .next (findClock (f.val + 1) s) := by
    show execClockRestored f s = _
    rw [execClockRestored, if_pos hup]
  have h := findClock_stands hclk
  have hlost : f.val + 1 ∉ (noteFoundClock (f.val + 1) s).power.lostClk := by
    simp [noteFoundClock, setRegBit, setReg]
  have hup' := h.hold.clkUp (f.val + 1)
  refine ⟨_, e, h.hold.lostClk ▸ hlost, ?_, fun hheld => ?_, fun hheld => ?_⟩
  · rw [h.clkOk]
    exact testBit_reg_setRegBit (by omega) _ _
  · rw [hup', clkUp_iff]
    exact ⟨hheld, hlost⟩
  · rw [hup', clkUp_eq_false_iff]
    exact .inl hheld

theorem exec_pwrRst {s : State} (hup : clkUp s 20 = true) (v : Word32) :
    Answers (exec (.pwrRst v) s) (fun u => ∀ d, 1 ≤ d → d ≤ 25 →
      let named := v.toNat.testBit (d - 1) = true ∧ d ≠ 20 ∧ d ≠ 22 ∧ d ≠ 24 ∧ builtDomain s.build.size d = true
      (named → d ∉ s.power.byReg → d ∉ s.power.lostClk → clkUp u d = false ∧ d ∈ u.power.byReg)
      ∧ (¬ named → clkUp u d = clkUp s d ∧ (d ∈ u.power.byReg ↔ d ∈ s.power.byReg))) := by
  have e : exec (.pwrRst v) s = .next ((rstDomains s.build.size v.toNat).foldl (fun u d => regReset1 d u)
      { s with regOut := 0 }) := by
    show execPwrRst v s = _
    rw [execPwrRst, viaPort, if_pos hup]
  have h := regReset1_foldl (rstDomains s.build.size v.toNat) (fun d hd => by
    have hrange := ((mem_rstDomains _ _ _).1 hd).1
    omega) { s with regOut := 0 }
  refine ⟨_, e, fun d hpos hd => ⟨fun hnamed hreg hclk => ?_, fun hnot => ?_⟩⟩
  · obtain ⟨hheld, hby⟩ := h.named d ((mem_rstDomains _ _ _).2 ⟨⟨hpos, hd⟩, hnamed⟩) hreg hclk
    exact ⟨(clkUp_eq_false_iff _ d).2 (.inl hheld), hby⟩
  · exact h.other d (fun hmem => hnot ((mem_rstDomains _ _ _).1 hmem).2)

theorem exec_testMode {s : State} (h : s.power.testMode = false) :
    Answers (exec .testMode s) (fun u => u.power.testMode = true ∧ u.kcw.keys = [] ∧ u.kcw.scopes = 0
      ∧ ∀ d, 1 ≤ d → d ≤ 25 → d ≠ 23 → clkUp u d = false) := by
  have hquiet := endForTest_quiet s
  have e : exec .testMode s = .next ((((List.range 25).map (· + 1)).filter (· != 23)).foldl (fun u d => assertReset d u)
      { endForTest s with
        kcw := { (endForTest s).kcw with keys := [], scopes := 0 }
        power := { (endForTest s).power with testMode := true } }) := by
    show execTestMode s = _
    rw [execTestMode, if_neg (by simp [h])]
  rw [e]
  generalize endForTest s = u at *
  have hmem (d) : d ∈ ((List.range 25).map (· + 1)).filter (· != 23) ↔ (1 ≤ d ∧ d ≤ 25) ∧ d ≠ 23 := by
    simp only [List.mem_filter, List.mem_map, List.mem_range, bne_iff_ne]
    exact and_congr_left fun _ => ⟨fun ⟨i, hi, hd⟩ => by omega, fun hd => ⟨d - 1, by omega, by omega⟩⟩
  have hall := assertReset_foldl (((List.range 25).map (· + 1)).filter (· != 23)) (fun d hd => by
    have hrange := ((hmem d).1 hd).1
    omega) { u with
      kcw := { u.kcw with keys := [], scopes := 0 }
      power := { u.power with testMode := true } }
  refine ⟨_, rfl, ?_⟩
  generalize List.foldl _ _ _ = v at *
  obtain ⟨hkeys, hscopes⟩ := hall.calm.locked hquiet ⟨rfl, rfl⟩
  exact ⟨hall.testMode, hkeys, hscopes, fun d hpos hd hdbg =>
    (clkUp_eq_false_iff _ d).2 (.inl (hall.named d ((hmem d).2 ⟨⟨hpos, hd⟩, hdbg⟩)))⟩

/-- Settles O59: a reset, a release and a clock change what holds a domain where they say so, and what ends or goes on
by itself with them leaves that as it was (`Stands`) and opens no key (`StaysQuiet`). -/
theorem resetsAndClocks : Obligations.ResetsAndClocks := by
  unfold Obligations.ResetsAndClocks
  intro s
  refine ⟨exec_blockReset s, fun i => ⟨fun hup => ?_, fun hdown => exec_pdBaseLeavesReset hdown i⟩, fun f => ?_,
    fun hup v => exec_pwrRst hup v, fun h => exec_testMode h⟩
  · show execPdBaseLeavesReset i s = .next s
    rw [execPdBaseLeavesReset, if_pos hup]
  · exact ⟨fun hup => ⟨fun hpin hnew => exec_domainReset hup hpin hnew, fun hpin => exec_interfaceResetRelease hup hpin,
      fun hclk => exec_clockLost hup hclk, fun hclk => exec_clockRestored hup hclk⟩,
      fun hdown hpin => exec_domainReset_down hdown hpin, fun hreg => exec_resetRelease hreg⟩

end Sys2Proof.Machine
end

section
/-!
PROOFS. What follows from any command by itself; and TICKET_COMPLETE: the ticket that is done, and the WAITTs that end,
each of which changes its own thread alone.
-/

namespace Sys2Proof.Machine

/-- Settles O7, which is the frame of `sweep`. -/
theorem sweepTouchesOnlyItsOwn : Obligations.SweepTouchesOnlyItsOwn := sweep_only

/-! ### The threads of a CLERK in issue order -/

theorem mem_insertBy {α : Type} (before : α → α → Bool) (x y : α) (ys : List α) :
    y ∈ insertBy before x ys ↔ y = x ∨ y ∈ ys := by
  induction ys with
  | nil => exact List.mem_singleton.trans (by simp)
  | cons z zs ih =>
    rw [insertBy]
    split
    · exact List.mem_cons
    · rw [List.mem_cons, ih, List.mem_cons]
      tauto

theorem mem_sortBy {α : Type} (before : α → α → Bool) (xs : List α) (y : α) : y ∈ sortBy before xs ↔ y ∈ xs := by
  have key (acc : List α) : y ∈ xs.foldl (fun acc x => insertBy before x acc) acc ↔ y ∈ xs ∨ y ∈ acc := by
    induction xs generalizing acc with
    | nil => simp
    | cons x xs ih =>
      rw [List.foldl_cons, ih, mem_insertBy, List.mem_cons]
      tauto
  exact (key []).trans (by simp)

theorem mem_whos (c : BitVec 3) (w : Who) : w ∈ whos c.toNat ↔ w.clerk = c := by
  have hclerk : BitVec.ofNat 3 c.toNat = c := by simp
  unfold whos
  simp only [List.mem_map, List.mem_range, hclerk]
  constructor
  · rintro ⟨t, _, rfl⟩
    rfl
  · rintro rfl
    exact ⟨w.thread.toNat, w.thread.isLt, by rw [BitVec.ofNat_toNat, BitVec.setWidth_eq]⟩

theorem mem_inIssueOrder_whos (s : State) (c : BitVec 3) (w : Who) : w ∈ inIssueOrder s (whos c.toNat) ↔ w.clerk = c :=
  (mem_sortBy ..).trans (mem_whos c w)

theorem Who.key_ne {v w : Who} (h : v ≠ w) : Who.key v ≠ Who.key w := by
  refine fun e => h ?_
  obtain ⟨c, t⟩ := v
  obtain ⟨d, u⟩ := w
  simp only [Who.key] at e
  rw [Who.mk.injEq]
  constructor <;> bv_omega

/-! ### A WAITT tried again -/

/-- In a CLERK nothing waits for a ticket, or for the room that a completed one leaves, but WAITT. -/
def OnlyWaitts (c : BitVec 3) (s : State) : Prop :=
  ∀ (w : Who) (i : Instr), w.clerk = c → (thread s w).wait = .retry i → needsTicket i = true → ∃ f, i = .waitt w f

/-- A thread waits in WAITT for a ticket that is done. -/
structure AwaitsDone (s : State) (w : Who) (f : Fields) (x : Ticket) : Prop where
  ready : clerkReady s w.clerk.toNat = true
  running : (thread s w).st = .running
  waits : (thread s w).wait = .retry (.waitt w f)
  known : knownTicket s w.clerk.toNat (namedTicket (thread s w) f) = some x
  done : x.done = true
  stepping : (thread s w).stepping = false
  stopAfter : (thread s w).stopAfter = false

/-- The thread of a WAITT that has ended. -/
def waittEnded (t : Thread) (f : Fields) (x : Ticket) : Thread :=
  { t.setG f.d (ticketWord x) with pc := t.pc + 1, wait := .ready }

/-- WAITT tried again replaces its own thread, which then is ready or waits in it as before. -/
theorem actWaitt_setThread (w : Who) (f : Fields) (s : State) :
    ∃ t, actWaitt w f s = setThread w t s ∧ (t.wait = .ready ∨ t.wait = .retry (.waitt w f)) := by
  unfold actWaitt
  split
  · exact ⟨_, rfl, .inl rfl⟩
  · split
    · exact ⟨_, rfl, .inl rfl⟩
    · exact ⟨_, rfl, .inr rfl⟩

/-- Where only WAITT waits for tickets, a wait tried again changes nothing, or replaces the thread of a WAITT. -/
theorem wakeThread_setThread {s : State} {w : Who} (h : OnlyWaitts w.clerk s) :
    wakeThread needsTicket s w = s
      ∨ ∃ f t, wakeThread needsTicket s w = setThread w t s ∧ (thread s w).wait = .retry (.waitt w f)
        ∧ (t.wait = .ready ∨ t.wait = .retry (.waitt w f)) := by
  unfold wakeThread
  dsimp only
  split
  · exact .inl rfl
  · split
    · rename_i i hi
      split
      · rename_i hp
        obtain ⟨f, rfl⟩ := h w i rfl hi (Bool.and_eq_true_iff.1 hp).1
        obtain ⟨t, ht, hwait⟩ := actWaitt_setThread w f s
        exact .inr ⟨f, t, ht, hi, hwait⟩
      · exact .inl rfl
    · exact .inl rfl

/-- A wait tried again leaves the tickets, the threads of others and what tells whether a CLERK issues. -/
theorem wakeThread_frame {s : State} {w : Who} (h : OnlyWaitts w.clerk s) :
    { wakeThread needsTicket s w with threads := s.threads } = s
      ∧ (∀ v, v ≠ w → thread (wakeThread needsTicket s w) v = thread s v)
      ∧ ((thread s w).wait = .ready → wakeThread needsTicket s w = s) ∧ OnlyWaitts w.clerk (wakeThread needsTicket s w) := by
  rcases wakeThread_setThread h with e | ⟨f, t, e, hw, ht⟩
  · rw [e]
    exact ⟨rfl, fun _ _ => rfl, fun _ => rfl, h⟩
  · rw [e]
    have hother (v : Who) (hv : v ≠ w) := thread_setThread_other t s (Who.key_ne hv)
    refine ⟨rfl, hother, fun hr => ?_, fun v i hv hi hn => ?_⟩
    · rw [hw] at hr
      cases hr
    · by_cases hvw : v = w
      · subst hvw
        rw [thread_setThread_same] at hi
        rcases ht with ht | ht <;> (rw [ht] at hi; cases hi)
        exact ⟨f, rfl⟩
      · exact h v i hv (hother v hvw ▸ hi) hn

/-- A WAITT whose ticket is done ends. -/
theorem wakeThread_done {s : State} {w : Who} {f : Fields} {x : Ticket} (h : AwaitsDone s w f x) :
    thread (wakeThread needsTicket s w) w = waittEnded (thread s w) f x := by
  have hact : wakeThread needsTicket s w = actWaitt w f s := by
    unfold wakeThread
    simp only [h.ready, h.running, h.waits]
    simp [needsTicket, ofThread, lambiopParts, retryAct]
  rw [hact, actWaitt, h.known]
  dsimp only
  rw [if_pos h.done, putG, thread_onThread_same]
  have hstep : ((thread s w).setG f.d (ticketWord x)).stepping = false := by
    unfold Thread.setG
    split <;> exact h.stepping
  have hstop : ((thread s w).setG f.d (ticketWord x)).stopAfter = false := by
    unfold Thread.setG
    split <;> exact h.stopAfter
  simp [Thread.goOn, waittEnded, hstep, hstop]

/-- What tells whether a thread awaits a ticket lies in the thread and outside the threads. -/
theorem AwaitsDone.of_frame {s t : State} {w : Who} {f : Fields} {x : Ticket} (h : AwaitsDone s w f x)
    (hrest : { t with threads := s.threads } = s) (hthread : thread t w = thread s w) : AwaitsDone t w f x := by
  have hready : clerkReady t w.clerk.toNat = clerkReady s w.clerk.toNat := by
    conv_rhs => rw [← hrest]
    rfl
  have hknown (k : Nat) : knownTicket t w.clerk.toNat k = knownTicket s w.clerk.toNat k := by
    conv_rhs => rw [← hrest]
    rfl
  exact ⟨hready ▸ h.ready, hthread ▸ h.running, hthread ▸ h.waits, by rw [hknown, hthread]; exact h.known, h.done,
    hthread ▸ h.stepping, hthread ▸ h.stopAfter⟩

/-- The waits of threads of a CLERK tried again: the tickets stay, a thread that is ready stays as it is, and each of them
that awaits a ticket that is done has its answer. -/
theorem wakeThreads_spec {c : BitVec 3} (ws : List Who) (hws : ∀ w ∈ ws, w.clerk = c) {s : State} (h : OnlyWaitts c s) :
    let u := ws.foldl (wakeThread needsTicket) s
    u.tickets = s.tickets ∧ ∀ w,
      ((thread s w).wait = .ready → thread u w = thread s w)
      ∧ ∀ f x, w ∈ ws → AwaitsDone s w f x → thread u w = waittEnded (thread s w) f x := by
  induction ws generalizing s with
  | nil => exact ⟨rfl, fun w => ⟨fun _ => rfl, fun _ _ hw => absurd hw List.not_mem_nil⟩⟩
  | cons v ws ih =>
    obtain rfl := hws v List.mem_cons_self
    obtain ⟨hrest, hother, hready, honly⟩ := wakeThread_frame h
    have htick : (wakeThread needsTicket s v).tickets = s.tickets := by
      have e := congrArg State.tickets hrest
      exact e
    obtain ⟨htickets, hthreads⟩ := ih (fun w hw => hws w (List.mem_cons_of_mem _ hw)) honly
    rw [List.foldl_cons]
    refine ⟨htickets.trans htick, fun w => ?_⟩
    obtain ⟨hstays, hends⟩ := hthreads w
    by_cases hwv : w = v
    · subst hwv
      refine ⟨fun hr => ?_, fun f x _ ha => ?_⟩
      · rw [hready hr] at hstays ⊢
        exact hstays hr
      · have hdone := wakeThread_done ha
        rw [hstays (congrArg Thread.wait hdone), hdone]
    · rw [hother w hwv] at hstays hends
      refine ⟨hstays, fun f x hw ha => hends f x ?_ (ha.of_frame hrest (hother w hwv))⟩
      exact (List.mem_cons.1 hw).resolve_left hwv

/-! ### TICKET_COMPLETE -/

/-- Settles O41: the ticket is done, and the waits of its CLERK that are then tried again are those of WAITT. -/
theorem ticketsComplete : Obligations.TicketsComplete := by
  intro s c k x hx
  have hexec : exec (.ticketComplete c k) s = execTicketComplete c k s := rfl
  unfold execTicketComplete at hexec
  rw [hx] at hexec
  dsimp only at hexec
  refine ⟨fun hends honly => ?_, fun hnot => ?_⟩
  · rw [if_pos hends] at hexec
    refine ⟨_, hexec, ?_⟩
    let s1 := onTicket c.toNat k.toNat (fun x => { x with done := true }) s
    have hdone : ticket? s1 c.toNat k.toNat = some { x with done := true } := by
      rw [ticket?_onTicket_same, hx]
      rfl
    obtain ⟨htickets, hthreads⟩ := wakeThreads_spec (inIssueOrder s1 (whos c.toNat))
      (fun w hw => (mem_inIssueOrder_whos s1 c w).1 hw) (s := s1) honly
    refine ⟨(ticket?_of_tickets htickets _ _).trans hdone, fun w f hw hready hrun hwait hnamed hk hold hstep hstop => ?_⟩
    subst hw
    have hknown : knownTicket s1 w.clerk.toNat k.toNat = some { x with done := true } := by
      have hk' : k.toNat ≠ 0xFFF := fun e => hk (BitVec.eq_of_toNat_eq e)
      unfold knownTicket
      rw [if_neg hk', hdone]
      simp [hold]
    have hawaits : AwaitsDone s1 w f { x with done := true } :=
      ⟨hready, hrun, hwait, by rw [show namedTicket (thread s1 w) f = k.toNat from hnamed]; exact hknown, rfl, hstep, hstop⟩
    exact (hthreads w).2 f { x with done := true } ((mem_inIssueOrder_whos s1 w.clerk w).2 rfl) hawaits
  · rwa [if_neg (by simp [hnot])] at hexec

end Sys2Proof.Machine
end

section
/-!
PROOFS. What the stations share: a purchase that the balance covers, what counts, reports and traces leave of the queues,
the streams and the images, and the tile that a hop sends on.
-/

namespace Sys2Proof.Machine

/-! ### A purchase that the balance covers -/

/-- PURSE and its spending counter changed: what a purchase leaves. -/
def Purchased (s t : State) : Prop :=
  t = { s with purse := t.purse, regs := t.regs } ∧ RegsKept [R.PUR_SPENT_LO, R.PUR_SPENT_HI] s t

theorem Purchased.refl (s : State) : Purchased s s := ⟨rfl, fun _ _ => rfl⟩

theorem Purchased.trans {s t u : State} (h : Purchased s t) (k : Purchased t u) : Purchased s u := by
  obtain ⟨ht, hrt⟩ := h
  obtain ⟨hu, hru⟩ := k
  refine ⟨?_, fun off hoff => (hru off hoff).trans (hrt off hoff)⟩
  rw [ht] at hu
  exact hu

theorem spend_purchased (c : Nat) (s : State) : Purchased s (spend c s) := by
  refine ⟨?_, spend_regs c s⟩
  unfold spend bump64
  split <;> rfl

theorem spend_scale (c : Nat) (s : State) : (spend c s).purse.scale = s.purse.scale := by
  unfold spend bump64
  split <;> rfl

theorem unitPrice_spend (c : Nat) (s : State) (b : Nat) : unitPrice (spend c s) b = unitPrice s b := by
  unfold unitPrice priceNow
  rw [spend_scale]

/-- What a bill costs at the prices in force. -/
def billCost (s : State) (bill : List (Nat × Nat)) : Nat := (bill.map (fun b => unitPrice s b.1 * b.2)).sum

/-- A bill that the balance covers is bought whole. -/
theorem payBill_covered {s : State} {bill : List (Nat × Nat)} (hclk : clkUp s 22 = true)
    (h : billCost s bill ≤ s.purse.balance) : ∃ t, payBill bill s = (t, []) ∧ Purchased s t := by
  induction bill generalizing s with
  | nil => exact ⟨s, rfl, .refl s⟩
  | cons b rest ih =>
    obtain ⟨b, n⟩ := b
    have hcost : billCost s ((b, n) :: rest) = unitPrice s b * n + billCost s rest := by
      simp [billCost]
    rw [hcost] at h
    have hunits : (if unitPrice s b = 0 then n
        else if clkUp s 22 then min n (s.purse.balance / unitPrice s b) else 0) = n := by
      rw [if_pos hclk]
      split
      · rfl
      · rename_i hp
        refine Nat.min_eq_left ((Nat.le_div_iff_mul_le (Nat.pos_of_ne_zero hp)).2 ?_)
        rw [Nat.mul_comm]
        omega
    have hrest : billCost (spend (n * unitPrice s b) s) rest = billCost s rest := by
      simp only [billCost, unitPrice_spend]
    obtain ⟨t, ht, hs⟩ := ih (s := spend (n * unitPrice s b) s)
      (by unfold clkUp; rw [spend_power]; exact hclk)
      (by rw [hrest, spend_balance, Nat.mul_comm]; omega)
    refine ⟨t, ?_, (spend_purchased _ s).trans hs⟩
    simp only [payBill, hunits, if_true]
    exact ht

/-- A command whose coins are there takes its effect on the state after its purchase. -/
theorem buy_covered {s : State} {bill : List (Nat × Nat)} (h : CoinsThere s bill) (cls : Nat) (cmd : Instr)
    (onWait body : State → State) : ∃ t, buy cls bill cmd onWait body s = body t ∧ Purchased s t := by
  obtain ⟨hqueue, hclk, hcost⟩ := h
  obtain ⟨t, ht, hs⟩ := payBill_covered hclk (show billCost s bill ≤ _ from hcost)
  have hwait : mustWait s cls = false := by
    unfold mustWait
    rw [hqueue]
    rfl
  unfold buy
  rw [hqueue, hwait, ht]
  simp only [List.any_nil, Bool.false_eq_true, if_false]
  split
  · exact ⟨s, rfl, .refl s⟩
  · split <;> exact ⟨t, rfl, hs⟩

/-! ### What counts, reports and traces leave -/

/-- What stations work on: the tiles queued, the streams, the images with what was looked up ahead, and TELLER. -/
structure StationView where
  build : Build
  hops : Tab (List Tile)
  streams : Tab Stream
  tenants : Tab Tenant
  prefetch : List Prefetch
  teller : TellerState
  threads : Tab Thread

/-- What the stations of a state work on. -/
def stationView (s : State) : StationView where
  build := s.build
  hops := s.hops
  streams := s.streams
  tenants := s.tenants
  prefetch := s.prefetch
  teller := s.teller
  threads := s.threads

@[simp] theorem setReg_stations (off v : Nat) (s : State) : stationView (setReg off v s) = stationView s := rfl

@[simp] theorem setRegBit_stations (off i : Nat) (s : State) : stationView (setRegBit off i s) = stationView s := rfl

@[simp] theorem takeFree_stations (s : State) : stationView (takeFree s).2 = stationView s := rfl

@[simp] theorem onItem_stations (n : Nat) (f : Item → Item) (s : State) : stationView (onItem n f s) = stationView s := rfl

@[simp] theorem noteBanks_stations (l : Nat) (r : Reads) (s : State) : stationView (noteBanks l r s) = stationView s := rfl

@[simp] theorem bump_stations (off n : Nat) (s : State) : stationView (bump off n s) = stationView s := by
  unfold bump
  split <;> rfl

@[simp] theorem bump64_stations (off n : Nat) (s : State) : stationView (bump64 off n s) = stationView s := by
  unfold bump64
  split <;> rfl

@[simp] theorem bumpFree_stations (off : Nat) (s : State) : stationView (bumpFree off s) = stationView s := by
  unfold bumpFree
  simp [takeFree]
  rfl

@[simp] theorem logFirst_stations (lo vlo hi vhi : Nat) (s : State) :
    stationView (logFirst lo vlo hi vhi s) = stationView s := by
  unfold logFirst
  split
  · rfl
  · rw [setReg_stations, setReg_stations]

@[simp] theorem reportTicket_stations (c t st fl : Nat) (s : State) :
    stationView (reportTicket c t st fl s) = stationView s := by
  unfold reportTicket
  split <;> rfl

@[simp] theorem report_stations (t : Tile) (st fl : Nat) (s : State) : stationView (report t st fl s) = stationView s := by
  unfold report
  rw [reportTicket_stations]
  rfl

@[simp] theorem noteCarry_stations (l : Nat) (f : Stream → Carry → Carry) (s : State) :
    stationView (noteCarry l f s) = stationView s := by
  unfold noteCarry
  split
  · rfl
  · split <;> rfl

@[simp] theorem noteEmission_stations (part l : Nat) (data : List Byte) (s : State) :
    stationView (noteEmission part l data s) = stationView s := by
  unfold noteEmission
  dsimp only
  split <;> rfl

@[simp] theorem countReads_stations (l : Nat) (r : Reads) (s : State) : stationView (countReads l r s) = stationView s := by
  unfold countReads
  dsimp only
  rw [noteBanks_stations]
  split <;> simp

@[simp] theorem countMint_stations (t : Tile) (x : MintRun) (s : State) : stationView (countMint t x s) = stationView s := by
  unfold countMint
  dsimp only
  rw [bump_stations]
  split <;> simp

@[simp] theorem countExc_stations (r : ExcRun) (s : State) : stationView (countExc r s) = stationView s := by
  simp [countExc]

/-! ### Traces -/

theorem setQueue3_stations (es : List (Bool × Nat)) (s : State) : stationView (setQueueN 3 es s) = stationView s := rfl

theorem setUnwritten3_stations (n : Nat) (s : State) : stationView (setUnwritten 3 n s) = stationView s := rfl

@[simp] theorem cutThrough_stations (m : Nat) (s : State) : stationView (cutThrough 3 m s) = stationView s := by
  unfold cutThrough
  dsimp only
  split
  · exact setUnwritten3_stations _ _
  · exact (setUnwritten3_stations _ _).trans (takeFree_stations _)

@[simp] theorem noteLoss_stations (i : Nat) (s : State) : stationView (noteLoss i s) = stationView s := by
  unfold noteLoss
  dsimp only
  split
  · exact bump_stations _ _ _
  · exact (setReg_stations ..).trans (bump_stations ..)

@[simp] theorem writePacket_stations (es : List Nat) (s : State) : stationView (writePacket 3 es s) = stationView s := by
  unfold writePacket
  dsimp only
  repeat' split
  all_goals simp [setQueue3_stations]

@[simp] theorem writeTrace_stations (es : List Nat) (s : State) : stationView (writeTrace es s) = stationView s := by
  unfold writeTrace
  split
  · simp
  · dsimp only [takeFree]
    split
    · rw [writePacket_stations]
      rfl
    · simp only [noteLoss_stations, bump_stations, setRegBit_stations]
      rfl

@[simp] theorem trace_stations (k n head : Nat) (es : List Nat) (s : State) :
    stationView (trace k n head es s) = stationView s := by
  unfold trace
  dsimp only
  split <;> simp

@[simp] theorem traceTile_stations (hop : Nat) (t : Tile) (s : State) : stationView (traceTile hop t s) = stationView s := by
  unfold traceTile
  dsimp only
  split <;> split <;> simp

/-! ### Purchases and accesses -/

theorem Purchased.stations {s t : State} (h : Purchased s t) : stationView t = stationView s := by
  rw [h.1]
  rfl

@[simp] theorem spend_stations (c : Nat) (s : State) : stationView (spend c s) = stationView s :=
  (spend_purchased c s).stations

@[simp] theorem payBill_stations (bill : List (Nat × Nat)) (s : State) : stationView (payBill bill s).1 = stationView s := by
  induction bill generalizing s with
  | nil => rfl
  | cons b rest ih =>
    simp only [payBill]
    generalize (if unitPrice s b.1 = 0 then b.2
      else if clkUp s 22 then min b.2 (s.purse.balance / unitPrice s b.1) else 0) = k
    split
    · rw [ih, spend_stations]
    · exact spend_stations _ _

@[simp] theorem issuedLines_stations (job : Job) (lines : List Line) (s : State) :
    stationView (issuedLines job lines s).2 = stationView s := by
  unfold issuedLines
  split <;> rfl

@[simp] theorem buyAccess_stations (cls : Nat) (bill : List (Nat × Nat)) (n : Nat) (s : State) :
    stationView (buyAccess cls bill n s).1 = stationView s := by
  have hpay := payBill_stations bill s
  unfold buyAccess
  split
  · rfl
  · split
    · rfl
    · split <;> (rename_i e; rw [e] at hpay; exact hpay)

@[simp] theorem sendAll_stations (s : State) : stationView (sendAll s) = stationView s := rfl

@[simp] theorem startAccess_stations (cls : Nat) (bill : List (Nat × Nat)) (kind : ReqKind) (req : Nat)
    (lines : List Line) (job : Job) (s : State) :
    stationView (startAccess cls bill kind req lines job s) = stationView s := by
  rw [startAccess_eq, sendAll_stations]
  exact (buyAccess_stations cls bill s.nextAccess (issuedLines job lines s).2).trans (issuedLines_stations job lines s)

/-! ### Reading the view -/

theorem queueAt_of_stations {s t : State} (h : stationView t = stationView s) (k : Nat) : queueAt t k = queueAt s k :=
  congrArg (fun v : StationView => Tab.get [] v.hops k) h

theorem stream_of_stations {s t : State} (h : stationView t = stationView s) (n : Nat) : stream t n = stream s n :=
  congrArg (fun v : StationView => Tab.get Stream.initial v.streams n) h

theorem tenant_of_stations {s t : State} (h : stationView t = stationView s) (k : Nat) : tenant t k = tenant s k :=
  congrArg (fun v : StationView => Tab.get Tenant.empty v.tenants k) h

/-! ### A tile that a hop sends on -/

/-- The tile `y` is `z` with HOP advanced and a number of its own. -/
structure Advanced (z y : Tile) : Prop where
  kind : y.kind = z.kind
  stream : y.stream = z.stream
  payload : y.payload = z.payload
  marks : y.marks = z.marks
  pieces : y.pieces = z.pieces
  last : y.last = z.last
  textEnd : y.textEnd = z.textEnd
  eos : y.eos = z.eos
  ledger : y.ledger = z.ledger
  route : y.route = z.advance.route
  check : y.check = z.check

theorem advanced_numbered (z : Tile) (n : Nat) : Advanced z { z with tseq := n }.advance := by
  cases z
  exact ⟨rfl, rfl, rfl, rfl, rfl, rfl, rfl, rfl, rfl, rfl, rfl⟩

theorem Advanced.mapped {z y : Tile} (h : Advanced z y) : y.mapped = z.mapped := by
  unfold Tile.mapped
  rw [h.payload, h.marks]

theorem Advanced.pieced {z y : Tile} (h : Advanced z y) : y.pieced = z.pieced := by
  unfold Tile.pieced
  rw [h.mapped, h.pieces]

/-- HOP and the next hop follow from the route alone. -/
theorem route_advance_congr {z t : Tile} (h : z.route = t.route) : z.advance.route = t.advance.route :=
  congrArg (fun r => setBits r 28 3 (routeIdx r + 1)) h

theorem nextHop_congr {z t : Tile} (h : z.route = t.route) : z.nextHop = t.nextHop :=
  congrArg (fun r => routeHop r (routeIdx r)) h

/-- The tile `z`, with HOP advanced, joins the queue of its next hop; every other queue and the streams are as they were. -/
def SendsOn (z : Tile) (s u : State) : Prop :=
  (∃ y, Advanced z y ∧ queueAt u z.advance.nextHop = queueAt s z.advance.nextHop ++ [y])
  ∧ (∀ h, h ≠ z.advance.nextHop → queueAt u h = queueAt s h) ∧ ∀ n, stream u n = stream s n

theorem passOn_sendsOn {hop n : Nat} {z : Tile} {s v : State} (h : stationView v = stationView s) :
    SendsOn z s (passOn hop { z with tseq := n } v) := by
  have hy := advanced_numbered z n
  unfold passOn
  dsimp only
  generalize { z with tseq := n }.advance = y at hy ⊢
  have hv := (traceTile_stations hop y v).trans h
  rw [nextHop_congr hy.route]
  refine ⟨⟨y, hy, ?_⟩, fun k hk => ?_, fun m => ?_⟩
  · exact (queueAt_enqueue_same ..).trans (congrArg (· ++ _) (queueAt_of_stations hv _))
  · exact (queueAt_enqueue_other _ _ hk).trans (queueAt_of_stations hv _)
  · exact stream_of_stations hv m

theorem numberTile_spec (h : Nat) (t : Tile) (s : State) :
    ∃ n v, numberTile h t s = ({ t with tseq := n }, v) ∧ stationView v = stationView s := by
  unfold numberTile
  split
  · exact ⟨t.tseq, s, rfl, rfl⟩
  · exact ⟨_, _, rfl, rfl⟩

theorem emitTile_sendsOn (h : Nat) (z : Tile) (s : State) : SendsOn z s (emitTile h z s) := by
  obtain ⟨n, v, e, hv⟩ := numberTile_spec h z s
  unfold emitTile
  rw [e]
  exact passOn_sendsOn hv

theorem sendTokens_sendsOn (z : Tile) (s : State) : SendsOn z s (sendTokens z s) := by
  obtain ⟨n, v, e, hv⟩ := numberTile_spec Hop.MINT z s
  unfold sendTokens
  rw [e]
  exact passOn_sendsOn ((noteEmission_stations ..).trans hv)

theorem sendText_sendsOn (z : Tile) (s : State) : SendsOn z s (sendText z s) := by
  obtain ⟨n, v, e, hv⟩ := numberTile_spec Hop.EXCHANGE z s
  unfold sendText
  rw [e]
  exact passOn_sendsOn ((noteEmission_stations ..).trans hv)

/-! ### The tile that a station fills -/

@[simp] theorem setBuilding_hops (n h l : Nat) (t : Option Tile) (s : State) :
    (setBuilding n h l t s).hops = s.hops := rfl

theorem stream_setBuilding_same (n h l : Nat) (t : Option Tile) (s : State) :
    ∃ b, stream (setBuilding n h l t s) n = { stream s n with building := b } :=
  ⟨_, stream_onStream_same n _ s⟩

theorem buildingAt_congr {s t : State} {n : Nat} (h : (stream t n).building = (stream s n).building) (hop l : Nat) :
    buildingAt t n hop l = buildingAt s n hop l := by
  unfold buildingAt
  rw [h]

end Sys2Proof.Machine
end

section
/-!
PROOFS. ASSAY, SORTER, MINT and EXCHANGE: the last tile of an item leaves as one tile, which the next hop of its route
gets.
-/

namespace Sys2Proof.Machine

/-! ### A tile that a station turns into one tile -/

/-- A tile has left the queue of a hop, and one tile of its item, with a property, stands last in the queue of the next
hop. -/
def MovedOn (t : Tile) (hop : Nat) (P : State → Tile → Prop) (v u : State) : Prop :=
  queueAt u hop = removeTile t (queueAt v hop) ∧ ∃ z, queueAt u t.advance.nextHop = queueAt v t.advance.nextHop ++ [z]
    ∧ z.ledger = t.ledger ∧ z.stream = t.stream ∧ z.route = t.advance.route ∧ z.last = true ∧ P u z

/-- The tile `z` is sent on in the place of `t`: it is of the same item and on the same route, and the last one. -/
structure Replaces (z t : Tile) : Prop where
  route : z.route = t.route
  ledger : z.ledger = t.ledger
  stream : z.stream = t.stream
  last : z.last = true

theorem queueAt_unqueue_same (h : Nat) (t : Tile) (s : State) : queueAt (unqueue h t s) h = removeTile t (queueAt s h) :=
  queueAt_setQueueAt_same ..

theorem queueAt_unqueue_other {h k : Nat} (t : Tile) (s : State) (e : k ≠ h) : queueAt (unqueue h t s) k = queueAt s k :=
  queueAt_setQueueAt_other _ _ e

/-- A tile taken from a queue after a purchase, and the one sent on in its place. -/
theorem movedOn_of_sendsOn {s b v u : State} {hop : Nat} {t z : Tile} {P : State → Tile → Prop} (hb : Purchased s b)
    (hv : v.hops = (unqueue hop t b).hops) (hu : SendsOn z v u) (hz : Replaces z t) (hne : t.advance.nextHop ≠ hop)
    (hP : ∀ y, Advanced z y → P u y) : MovedOn t hop P s u := by
  obtain ⟨⟨y, hy, hqueue⟩, hothers, _⟩ := hu
  rw [nextHop_congr (route_advance_congr hz.route)] at hqueue hothers
  have hv' (k : Nat) : queueAt v k = queueAt (unqueue hop t b) k := by
    unfold queueAt
    rw [hv]
  refine ⟨?_, y, hqueue.trans (congrArg (· ++ _) ?_), hy.ledger.trans hz.ledger, hy.stream.trans hz.stream,
    hy.route.trans (route_advance_congr hz.route), hy.last.trans hz.last, hP y hy⟩
  · rw [hothers hop (Ne.symm hne), hv', queueAt_unqueue_same, queueAt_of_stations hb.stations]
  · rw [hv', queueAt_unqueue_other _ _ hne, queueAt_of_stations hb.stations]

/-- A purchase leaves what a station may take. -/
theorem takeable_of_purchased {s b : State} (h : Purchased s b) (hop n : Nat) : takeable b hop n = takeable s hop n := by
  rw [h.1]
  rfl

theorem imageOf_of_stations {s t : State} (h : stationView t = stationView s) (k : Nat) : imageOf t k = imageOf s k := by
  unfold imageOf
  rw [tenant_of_stations h]

/-! ### ASSAY (R152 to R166) -/

theorem cutText_short {t : Tile} (h : t.payload.length ≤ 4096) (fuel : Nat) : cutText fuel t = ([], t) := by
  cases fuel with
  | zero => rfl
  | succ f => exact if_pos h

/-- The tile that ASSAY sends for an item's only output. -/
def assayTileOut (t : Tile) (marks : List Bool) (r : AssayRun) : Tile :=
  let z := appendText { t with payload := [], marks := [], runs := [] } r.out marks r.runs
  { z with last := true, textEnd := t.textEnd, eos := t.eos, check := assayCheck z }

theorem assayEmit_last {t acc : Tile} {s : State} (hlast : t.last = true) (hlen : acc.payload.length ≤ 4096)
    (hout : acc.payload ≠ [] ∨ (t.textEnd || t.eos) = true) :
    assayEmit t acc s = emitTile Hop.ASSAY
      { acc with last := true, textEnd := t.textEnd, eos := t.eos, check := assayCheck acc }
      (setBuilding t.stream Hop.ASSAY t.ledger none s) := by
  have hsome : (acc.payload.isEmpty && ([] : List Tile).isEmpty && !t.textEnd && !t.eos) = false := by
    cases hp : acc.payload <;> cases he : t.textEnd <;> cases ho : t.eos <;> simp_all
  unfold assayEmit
  rw [cutText_short hlen]
  dsimp only
  rw [if_pos hlast, hsome]
  rfl

/-- ASSAY's work on the last tile of an item of which it fills no tile. -/
theorem assayWork_last {t : Tile} {s : State} {im : TokImage} (him : imageOf s t.tenant = some im)
    (hnone : buildingAt s t.stream Hop.ASSAY t.ledger = none) (hlast : t.last = true) :
    let r := assayText im (stream s t.stream).assay t.payload (t.textEnd || t.eos)
    r.out.length ≤ 4096 → (r.out ≠ [] ∨ (t.textEnd || t.eos) = true) →
    ∃ v, assayWork t s = emitTile Hop.ASSAY (assayTileOut t (if im.policy = .byte then r.marks else []) r) v
      ∧ v.hops = s.hops ∧ (stream v t.stream).assay.carry = r.ctx.carry ∧ (stream v t.stream).assay.seg = r.ctx.seg := by
  intro r hlen hout
  let s1 := onStream t.stream (fun x => { x with
      assay := { r.ctx with teller := if x.assay.follow then r.ctx.carry else x.assay.teller } })
    (bump R.ASY_SAFE_CUT r.cuts (bump R.ASY_FFFD r.fffd (bump R.ASY_INVALID r.invalid s)))
  let s2 := noteCarry t.ledger (fun x c => { c with assay := x.assay }) s1
  have hcounts : stationView (bump R.ASY_SAFE_CUT r.cuts (bump R.ASY_FFFD r.fffd (bump R.ASY_INVALID r.invalid s)))
      = stationView s := by simp
  have hs2 : stationView s2 = stationView s1 := noteCarry_stations ..
  have hx : stream s2 t.stream = { stream s t.stream with
      assay := { r.ctx with teller := if (stream s t.stream).assay.follow then r.ctx.carry else (stream s t.stream).assay.teller } } := by
    rw [stream_of_stations hs2, stream_onStream_same, stream_of_stations hcounts]
  have hacc : buildingAt s2 t.stream Hop.ASSAY t.ledger = none :=
    (buildingAt_congr (by rw [hx]) ..).trans hnone
  have hwork : assayWork t s = assayEmit t (appendText ((buildingAt s2 t.stream Hop.ASSAY t.ledger).getD
      { t with payload := [], marks := [], runs := [] }) r.out (if im.policy = .byte then r.marks else []) r.runs) s2 := by
    unfold assayWork
    rw [him]
  rw [hacc, assayEmit_last hlast (by exact hlen) (by exact hout)] at hwork
  obtain ⟨b, hb⟩ := stream_setBuilding_same t.stream Hop.ASSAY t.ledger none s2
  refine ⟨_, hwork, ?_, by rw [hb, hx], by rw [hb, hx]⟩
  rw [setBuilding_hops]
  have h1 : s2.hops = s1.hops := congrArg StationView.hops hs2
  exact h1.trans (congrArg StationView.hops hcounts)

/-- ASSAY_TILE of the last tile of an item. -/
theorem exec_assayTile {s : State} {n : BitVec 12} {t : Tile} {im : TokImage} (hlast : t.last = true)
    (hn : t.stream = n.toNat) (ht : takeable s 2 n.toNat = some t) (hne : t.advance.nextHop ≠ 2)
    (him : imageOf s t.tenant = some im) (hnone : buildingAt s n.toNat 2 t.ledger = none)
    (hcoins : CoinsThere s (assayBill t)) :
    let r := assayText im (stream s n.toNat).assay t.payload (t.textEnd || t.eos)
    r.out.length ≤ 4096 → (r.out ≠ [] ∨ (t.textEnd || t.eos) = true) →
    EndsIn (exec (.assayTile n .none) s) (MovedOn t 2 (fun u z => z.kind = t.kind ∧ z.payload = r.out
        ∧ z.marks = (if im.policy = .byte then r.marks else []) ∧ z.textEnd = t.textEnd ∧ z.eos = t.eos
        ∧ z.check = crc32c z.mapped ∧ (stream u n.toNat).assay.carry = r.ctx.carry
        ∧ (stream u n.toNat).assay.seg = r.ctx.seg) s) := by
  intro r hlen hout
  obtain ⟨b, hbuy, hb⟩ := buy_covered hcoins 1 (.assayTile n .none) id (assayBody n.toNat .none)
  have hbody : assayBody n.toNat .none b = assayWork t (unqueue Hop.ASSAY t b) := by
    unfold assayBody
    rw [takeable_of_purchased hb, ht]
    rfl
  have hstream : stream (unqueue Hop.ASSAY t b) t.stream = stream s n.toNat := by
    rw [hn]
    exact stream_of_stations hb.stations n.toNat
  have hr : assayText im (stream (unqueue Hop.ASSAY t b) t.stream).assay t.payload (t.textEnd || t.eos) = r := by
    rw [hstream]
  have hnone' : buildingAt (unqueue Hop.ASSAY t b) t.stream Hop.ASSAY t.ledger = none := by
    unfold buildingAt
    rw [hstream]
    exact hnone
  have hwork := assayWork_last (s := unqueue Hop.ASSAY t b) (by exact (imageOf_of_stations hb.stations _).trans him) hnone' hlast
  rw [hr] at hwork
  obtain ⟨v, hwork, hhops, hcarry, hseg⟩ := hwork hlen hout
  rw [hn] at hcarry hseg
  have hsent := emitTile_sendsOn Hop.ASSAY (assayTileOut t (if im.policy = .byte then r.marks else []) r) v
  refine ⟨_, ?_, movedOn_of_sendsOn hb hhops hsent ⟨rfl, rfl, rfl, rfl⟩ hne
    fun y hy => ⟨hy.kind, hy.payload, hy.marks, hy.textEnd, hy.eos, ?_, ?_, ?_⟩⟩
  · show execAssayTile n .none s = _
    unfold execAssayTile
    rw [ht]
    dsimp only
    rw [hbuy, hbody, hwork]
  · rw [hy.check, hy.mapped]
    rfl
  · rw [hsent.2.2, hcarry]
  · rw [hsent.2.2, hseg]

/-! ### SORTER (R169 to R200) -/

/-- A search reads of the state only the images that the searches run on. -/
theorem feedBytes_congr {s t : State} (k : Nat) (h : ∀ c, searchImage t k c = searchImage s k c) (now : TokImage × Nat)
    (fuel : Nat) (bs : List Byte) (r : SorterRun) : feedBytes fuel t k now bs r = feedBytes fuel s k now bs r := by
  induction fuel generalizing bs r with
  | zero => rfl
  | succ f ih =>
    cases bs with
    | nil => rfl
    | cons b rest => simp only [feedBytes, h, ih]

theorem endSearch_congr {s t : State} (k : Nat) (h : ∀ c, searchImage t k c = searchImage s k c) (now : TokImage × Nat)
    (fuel : Nat) (r : SorterRun) : endSearch fuel t k now r = endSearch fuel s k now r := by
  induction fuel generalizing r with
  | zero => rfl
  | succ f ih => simp only [endSearch, h, feedBytes_congr k h, ih]

theorem sortText_congr {s t : State} (k : Nat) (h : ∀ c, searchImage t k c = searchImage s k c) (now : TokImage × Nat)
    (ctx : SorterCtx) (z : Tile) : sortText t k now ctx z = sortText s k now ctx z := by
  have hbyte : sortByte t k now z = sortByte s k now z := by
    funext i b r
    simp only [sortByte, h, feedBytes_congr k h, endSearch_congr k h]
  simp only [sortText, hbyte, endSearch_congr k h]

theorem searchImage_of_stations {s t : State} (h : stationView t = stationView s) (k : Nat) (c : SorterCtx) :
    searchImage t k c = searchImage s k c := by
  unfold searchImage imageGen
  rw [tenant_of_stations h]

/-- Pieces whose text fits one tile are packed into one. -/
theorem packPieces_short {ps : List (Piece × List Byte)} {acc : Tile}
    (h : (acc.payload ++ (ps.map Prod.snd).flatten).length ≤ 4096) : packPieces ps acc
      = ([], { acc with payload := acc.payload ++ (ps.map Prod.snd).flatten, pieces := acc.pieces ++ ps.map Prod.fst }) := by
  induction ps generalizing acc with
  | nil => simp [packPieces]
  | cons p rest ih =>
    obtain ⟨p, bs⟩ := p
    have hfits : acc.payload.length + bs.length ≤ 4096 := by
      simp only [List.map_cons, List.flatten_cons, List.length_append] at h
      omega
    unfold packPieces
    rw [if_neg fun e => absurd e.2 (Nat.not_lt.2 hfits), ih (by simpa using h)]
    simp

/-- The tile that SORTER sends for an item's only output. -/
def sorterTile (byMap : Bool) (t : Tile) (r : SorterRun) : Tile :=
  sorterTileOut byMap true t.textEnd t.eos
    { t with payload := (r.pieces.map Prod.snd).flatten, marks := [], runs := [], pieces := r.pieces.map Prod.fst }

theorem sorterEmit_last {byMap : Bool} {t : Tile} {r : SorterRun} {s : State} (hlast : t.last = true)
    (hlen : ((r.pieces.map Prod.snd).flatten).length ≤ 4096) (hout : r.pieces ≠ [] ∨ (t.textEnd || t.eos) = true) :
    sorterEmit byMap t r { t with payload := [], marks := [], runs := [], pieces := [] } s
      = emitTile Hop.SORTER (sorterTile byMap t r) (setBuilding t.stream Hop.SORTER t.ledger none s) := by
  have hsome : ((r.pieces.map Prod.fst).isEmpty && ([] : List Tile).isEmpty && !t.textEnd && !t.eos) = false := by
    cases hp : r.pieces <;> cases he : t.textEnd <;> cases ho : t.eos <;> simp_all
  unfold sorterEmit
  rw [packPieces_short (by exact hlen)]
  dsimp only [List.nil_append]
  rw [if_pos hlast, hsome]
  rfl

/-- SORTER's work on the last tile of an item of which it fills no tile. -/
theorem sorterWork_last {t : Tile} {s : State} {res : Resident} (hres : (tenant s t.tenant).now = some res)
    (hnone : buildingAt s t.stream Hop.SORTER t.ledger = none) (hlast : t.last = true) :
    let r := sortText s t.tenant (res.image, res.gen) (stream s t.stream).sorter t
    ((r.pieces.map Prod.snd).flatten).length ≤ 4096 → (r.pieces ≠ [] ∨ (t.textEnd || t.eos) = true) →
    ∃ v, sorterWork t s = emitTile Hop.SORTER (sorterTile (decide (res.image.policy = .byte)) t r) v
      ∧ v.hops = s.hops ∧ (stream v t.stream).sorter = r.ctx := by
  intro r hlen hout
  let s0 := bump R.SRT_CUTS r.cuts (bump R.SRT_PIECES r.pieces.length s)
  let s1 := onStream t.stream (fun x => { x with sorter := r.ctx }) s0
  let s2 := noteCarry t.ledger (fun x c => { c with sorter := x.sorter }) s1
  let s3 := if r.cuts ≠ 0 ∧ bit (reg s2 R.SRT_CTRL) 0 then report t St.TRUNC 0 s2 else s2
  let s4 := if r.pieces.any (fun p => p.1.trunc) then report t St.OK 1 s3 else s3
  have hs0 : stationView s0 = stationView s := by simp [s0]
  have hs3 : stationView s3 = stationView s2 := by
    unfold s3
    split <;> simp
  have hs4 : stationView s4 = stationView s1 := by
    refine Eq.trans ?_ (hs3.trans (noteCarry_stations ..))
    unfold s4
    split <;> simp
  have hx : stream s4 t.stream = { stream s t.stream with sorter := r.ctx } := by
    rw [stream_of_stations hs4, stream_onStream_same, stream_of_stations hs0]
  have hacc : buildingAt s4 t.stream Hop.SORTER t.ledger = none := (buildingAt_congr (by rw [hx]) ..).trans hnone
  have hwork : sorterWork t s = sorterEmit (decide (res.image.policy = .byte)) t r
      ((buildingAt s4 t.stream Hop.SORTER t.ledger).getD { t with payload := [], marks := [], runs := [], pieces := [] })
      s4 := by
    unfold sorterWork
    rw [hres]
  rw [hacc, Option.getD_none, sorterEmit_last hlast hlen hout] at hwork
  obtain ⟨b, hb⟩ := stream_setBuilding_same t.stream Hop.SORTER t.ledger none s4
  refine ⟨_, hwork, ?_, by rw [hb, hx]⟩
  rw [setBuilding_hops]
  have h1 : s4.hops = s1.hops := congrArg StationView.hops hs4
  exact h1.trans (congrArg StationView.hops hs0)

theorem sorterTile_replaces (byMap : Bool) (t : Tile) (r : SorterRun) : Replaces (sorterTile byMap t r) t :=
  ⟨rfl, rfl, rfl, rfl⟩

/-- SORTER_TILE of the last tile of an item. -/
theorem exec_sorterTile {s : State} {n : BitVec 12} {t : Tile} {res : Resident} (hlast : t.last = true)
    (hn : t.stream = n.toNat) (ht : takeable s 3 n.toNat = some t) (hne : t.advance.nextHop ≠ 3)
    (hres : (tenant s t.tenant).now = some res) (hnone : buildingAt s n.toNat 3 t.ledger = none)
    (hcoins : CoinsThere s (sorterBill s t)) :
    let r := sortText s t.tenant (res.image, res.gen) (stream s n.toNat).sorter t
    ((r.pieces.map Prod.snd).flatten).length ≤ 4096 → (r.pieces ≠ [] ∨ (t.textEnd || t.eos) = true) →
    ∃ u, exec (.sorterTile n .none) s = .next (sweep (prefetchQueued u)) ∧ MovedOn t 3 (fun u z => z.kind = t.kind
        ∧ z.payload = (r.pieces.map Prod.snd).flatten ∧ z.pieces = r.pieces.map Prod.fst ∧ z.textEnd = t.textEnd
        ∧ z.eos = t.eos ∧ z.check = crc32c z.pieced ∧ (stream u n.toNat).sorter = r.ctx) s u := by
  intro r hlen hout
  obtain ⟨b, hbuy, hb⟩ := buy_covered hcoins 1 (.sorterTile n .none) id (sorterBody n.toNat .none)
  have hbody : sorterBody n.toNat .none b = prefetchQueued (sorterWork t (unqueue Hop.SORTER t b)) := by
    unfold sorterBody
    rw [takeable_of_purchased hb, ht]
  have hstream : stream (unqueue Hop.SORTER t b) t.stream = stream s n.toNat := by
    rw [hn]
    exact stream_of_stations hb.stations n.toNat
  have htenant : tenant (unqueue Hop.SORTER t b) t.tenant = tenant s t.tenant := tenant_of_stations hb.stations _
  have hr : sortText (unqueue Hop.SORTER t b) t.tenant (res.image, res.gen)
      (stream (unqueue Hop.SORTER t b) t.stream).sorter t = r := by
    rw [hstream]
    exact sortText_congr (t := unqueue Hop.SORTER t b) _ (fun c => searchImage_of_stations hb.stations _ c) ..
  have hnone' : buildingAt (unqueue Hop.SORTER t b) t.stream Hop.SORTER t.ledger = none := by
    unfold buildingAt
    rw [hstream]
    exact hnone
  have hwork := sorterWork_last (s := unqueue Hop.SORTER t b) (by rw [htenant, hres]) hnone' hlast
  rw [hr] at hwork
  obtain ⟨v, hwork, hhops, hctx⟩ := hwork hlen hout
  rw [hn] at hctx
  have hsent := emitTile_sendsOn Hop.SORTER (sorterTile (decide (res.image.policy = .byte)) t r) v
  refine ⟨_, ?_, movedOn_of_sendsOn hb hhops hsent (sorterTile_replaces ..) hne
    fun y hy => ⟨hy.kind, hy.payload, hy.pieces, hy.textEnd, hy.eos, ?_, ?_⟩⟩
  · show execSorterTile n .none s = _
    unfold execSorterTile
    rw [ht]
    dsimp only
    rw [hbuy, hbody, hwork]
  · rw [hy.check, hy.pieced]
    rfl
  · rw [hsent.2.2, hctx]

/-! ### MINT (R203 to R231) -/

theorem prefetchQueued_off {s : State} (hctrl : (reg s R.VLT_CTRL).testBit 0 = false) (hnone : s.prefetch = []) :
    prefetchQueued s = s := by
  have hs : { s with prefetch := s.prefetch.filter (fun f => (queueAt s Hop.MINT).any f.of) } = s := by
    rw [hnone, List.filter_nil, ← hnone]
  unfold prefetchQueued
  dsimp only
  rw [hs]
  refine if_neg ?_
  show ¬ ((reg s R.VLT_CTRL).testBit 0 && stationUp s Hop.MINT) = true
  simp [hctrl]

/-- The words of a tile read of the state only its images, and what was looked up ahead. -/
theorem mintRun_of_stations {s t : State} (hb : t.build = s.build) (ht : t.tenants = s.tenants)
    (hp : t.prefetch = s.prefetch) (z : Tile) (lines : List (Nat × List Byte)) : mintRun t z lines = mintRun s z lines := by
  simp only [mintRun, pieceImage, residentGen, tenant, lookedAhead, hb, ht, hp]

theorem noImage_congr {s t : State} (ht : t.tenants = s.tenants) (z : Tile) : noImage t z = noImage s z := by
  simp only [noImage, pieceImage, residentGen, tenant, ht]

theorem mintStalls_of_purchased {s b : State} (h : Purchased s b) (z : Tile) : mintStalls b z = mintStalls s z := by
  have hctrl : reg b R.MNT_CTRL = reg s R.MNT_CTRL := h.2 _ (by decide)
  have hrun : mintRun b z [] = mintRun s z [] := by rw [h.1]; rfl
  have hstall (r : Reads) : readsStall b r = readsStall s r := by rw [h.1]; rfl
  have hparked : piecesParked b = piecesParked s := by rw [h.1]; rfl
  have hparks (x : MintRun) : parksOf b x = parksOf s x := by
    unfold parksOf
    rw [hctrl]
  simp only [mintStalls, hrun, hstall, hparked, hparks]

theorem wordBytes_length (ws : List Nat) : (wordBytes ws).length = 4 * ws.length := by
  induction ws with
  | nil => rfl
  | cons w rest ih =>
    simp only [wordBytes, List.map_cons, List.flatten_cons, List.length_append, toLE_length, List.length_cons] at ih ⊢
    omega

theorem cutTokens_short {t : Tile} (h : t.payload.length ≤ 4096) (fuel : Nat) : cutTokens fuel t = ([], t) := by
  cases fuel with
  | zero => rfl
  | succ f => exact if_pos h

/-- The tile that MINT sends for an item's only output. -/
def mintTileOut (t : Tile) (words : List Nat) : Tile :=
  let bs := markLast (wordBytes words)
  { tokenTile t with payload := bs, check := crc32c bs, last := true, textEnd := t.textEnd, eos := t.eos,
                     status := firstStatus t.status t.status, flags := t.flags ||| t.flags }

theorem mintEmit_last {t : Tile} {words : List Nat} {s : State} (hlast : t.last = true)
    (hnone : buildingAt s t.stream Hop.MINT t.ledger = none) (hlen : words.length ≤ 1024)
    (hout : words ≠ [] ∨ t.eos = true) : mintEmit t words s = sendTokens (mintTileOut t words)
      (setBuilding t.stream Hop.MINT t.ledger none (bump R.MNT_TOKENS words.length s)) := by
  have hbytes := wordBytes_length words
  have hsome : ((wordBytes words).isEmpty && !t.eos) = false := by
    cases hout with
    | inl hw =>
      have : 0 < words.length := List.length_pos_iff.2 hw
      have hne : wordBytes words ≠ [] := List.length_pos_iff.1 (by omega)
      simp [List.isEmpty_eq_false_iff.2 hne]
    | inr he => simp [he]
  have hshort : (wordBytes words).length ≤ 4096 := by omega
  simp only [mintEmit, hnone, Option.getD_none, tokenTile, List.nil_append, cutTokens_short, hshort, hlast, hsome,
    if_true, Bool.false_eq_true, if_false]
  rfl

theorem mintTileOut_replaces (t : Tile) (words : List Nat) : Replaces (mintTileOut t words) t := ⟨rfl, rfl, rfl, rfl⟩

/-- MINT's work on the last tile of an item of which it fills no tile, when its lookups read no overflow. -/
theorem mintWork_last {t : Tile} {s : State} (him : noImage s t = false)
    (hnone : buildingAt s t.stream Hop.MINT t.ledger = none) (hlast : t.last = true) :
    let x := mintRun s t []
    x.reads.ovf = [] → x.words.length ≤ 1024 → (x.words ≠ [] ∨ t.eos = true) →
    ∃ v, mintWork t .none s = sendTokens (mintTileOut t x.words) v ∧ v.hops = s.hops := by
  intro x hovf hlen hout
  let s1 := countMint t x (countReads t.ledger x.reads s)
  have hs1 : stationView s1 = stationView s := by simp [s1]
  have hwork : mintWork t .none s = mintFinish t [] s1 := by
    unfold mintWork
    rw [him, if_neg Bool.false_ne_true]
    dsimp only
    rw [hovf]
    rfl
  have hrun : mintRun s1 t [] = x := mintRun_of_stations (congrArg StationView.build hs1)
    (congrArg StationView.tenants hs1) (congrArg StationView.prefetch hs1) t []
  have hfinish : mintFinish t [] s1 = mintEmit t x.words s1 := by
    unfold mintFinish
    rw [noImage_congr (congrArg StationView.tenants hs1), him, hrun]
    rfl
  have hacc : buildingAt s1 t.stream Hop.MINT t.ledger = none :=
    (buildingAt_congr (congrArg Stream.building (stream_of_stations hs1 _)) ..).trans hnone
  rw [hfinish, mintEmit_last hlast hacc hlen hout] at hwork
  refine ⟨_, hwork, ?_⟩
  rw [setBuilding_hops]
  exact congrArg StationView.hops ((bump_stations ..).trans hs1)

/-- MINT_TILE of the last tile of an item, whose lookups read no overflow. -/
theorem exec_mintTile {s : State} {n : BitVec 12} {t : Tile} (hlast : t.last = true) (hn : t.stream = n.toNat) :
    let ahead := prefetchQueued s
    takeable ahead 4 n.toNat = some t → t.advance.nextHop ≠ 4 → noImage ahead t = false → mintStalls ahead t = false →
    buildingAt ahead n.toNat 4 t.ledger = none → CoinsThere ahead (mintBill ahead t) →
    let x := mintRun ahead t []
    x.reads.ovf = [] → x.words.length ≤ 1024 → (x.words ≠ [] ∨ t.eos = true) →
    ∃ u, exec (.mintTile n .none) s = .next (sweep (prefetchQueued u)) ∧ MovedOn t 4 (fun _ z => z.kind = .token
        ∧ z.payload = markLast (wordBytes x.words) ∧ z.textEnd = t.textEnd ∧ z.eos = t.eos ∧ z.check = crc32c z.payload)
        ahead u := by
  intro ahead ht hne him hstall hnone hcoins x hovf hlen hout
  obtain ⟨b, hbuy, hb⟩ := buy_covered hcoins 1 (.mintTile n .none) id (mintBody n.toNat .none)
  have hbody : mintBody n.toNat .none b = prefetchQueued (mintWork t .none (unqueue Hop.MINT t b)) := by
    unfold mintBody
    rw [takeable_of_purchased hb, ht]
    dsimp only
    rw [mintStalls_of_purchased hb, hstall]
    rfl
  have htenants : (unqueue Hop.MINT t b).tenants = ahead.tenants := congrArg StationView.tenants hb.stations
  have hrun : mintRun (unqueue Hop.MINT t b) t [] = x := mintRun_of_stations (congrArg StationView.build hb.stations)
    htenants (congrArg StationView.prefetch hb.stations) t []
  have hnone' : buildingAt (unqueue Hop.MINT t b) t.stream Hop.MINT t.ledger = none := by
    rw [hn]
    exact (buildingAt_congr (s := ahead) (congrArg Stream.building (stream_of_stations hb.stations _)) ..).trans hnone
  have hwork := mintWork_last ((noImage_congr htenants t).trans him) hnone' hlast
  rw [hrun] at hwork
  obtain ⟨v, hwork, hhops⟩ := hwork hovf hlen hout
  have hsent := sendTokens_sendsOn (mintTileOut t x.words) v
  refine ⟨_, ?_, movedOn_of_sendsOn hb hhops hsent (mintTileOut_replaces ..) hne
    fun y hy => ⟨hy.kind, hy.payload, hy.textEnd, hy.eos, ?_⟩⟩
  · show execMintTile n .none s = _
    unfold execMintTile
    dsimp only
    rw [ht]
    dsimp only
    rw [hstall, if_neg Bool.false_ne_true, hbuy, hbody, hwork]
  · rw [hy.check, hy.payload]
    rfl

/-! ### EXCHANGE (R311 to R318) -/

theorem cutOutput_short {t : Tile} (h : t.payload.length ≤ 4096) (fuel : Nat) : cutOutput fuel t = ([], t) := by
  cases fuel with
  | zero => rfl
  | succ f => exact if_pos h

/-- The tile that EXCHANGE sends for an item's only output. -/
def excTileOut (t : Tile) (fin : Bool) (out : List Byte) : Tile :=
  { t with kind := .text, payload := out, marks := [], runs := [], pieces := [], last := true, textEnd := fin,
           status := firstStatus t.status t.status, flags := t.flags ||| t.flags, check := crc32c out }

theorem excTileOut_replaces (t : Tile) (fin : Bool) (out : List Byte) : Replaces (excTileOut t fin out) t :=
  ⟨rfl, rfl, rfl, rfl⟩

theorem emitLast_some {t : Tile} (s : State) (h : t.payload ≠ [] ∨ (t.textEnd || t.eos) = true) :
    emitLast t s = sendText { t with check := crc32c t.payload, last := true } s := by
  have hsome : (t.payload.isEmpty && !t.textEnd && !t.eos) = false := by
    cases hp : t.payload <;> cases he : t.textEnd <;> cases ho : t.eos <;> simp_all
  unfold emitLast
  rw [hsome, if_neg Bool.false_ne_true]

theorem reportEnds_congr {s t : State} {z : Tile} (h : (stream t z.stream).notary = (stream s z.stream).notary) :
    reportEnds t z = reportEnds s z := by
  unfold reportEnds
  rw [h]

theorem reportPending_congr {s t : State} {z : Tile} (h : (stream t z.stream).notary = (stream s z.stream).notary) :
    reportPending t z = reportPending s z := by
  unfold reportPending
  rw [h]

theorem stream_setBuilding_notary (n h l : Nat) (t : Option Tile) (s : State) :
    (stream (setBuilding n h l t s) n).notary = (stream s n).notary := by
  obtain ⟨b, hb⟩ := stream_setBuilding_same n h l t s
  rw [hb]

/-- The end of the last tile of an item of which EXCHANGE fills no tile, when no report is awaited. -/
theorem excEmit_last {t : Tile} {r : ExcRun} {s : State} (hlast : t.last = true)
    (hnone : buildingAt s t.stream Hop.EXCHANGE t.ledger = none) (hhit : r.hit = none)
    (hpend : reportPending s t = false) (hlen : r.out.length ≤ 4096)
    (hout : r.out ≠ [] ∨ (t.textEnd || t.eos || reportEnds s t) = true) :
    excEmit t r s = sendText (excTileOut t (t.textEnd || t.eos || reportEnds s t) r.out)
      (setBuilding t.stream Hop.EXCHANGE t.ledger none s) := by
  have hnotary := stream_setBuilding_notary t.stream Hop.EXCHANGE t.ledger none s
  simp only [excEmit, outTile, hnone, Option.getD_none, List.nil_append, cutOutput_short, hlen, List.foldl_nil, hhit,
    Option.isSome_none, Bool.false_eq_true, if_false, reportPending_congr hnotary, hpend, hlast, Bool.true_or, if_true,
    reportEnds_congr hnotary]
  refine emitLast_some _ (hout.imp id fun h => ?_)
  show (t.textEnd || t.eos || reportEnds s t || t.eos) = true
  rw [h, Bool.true_or]

/-- What EXCHANGE's stages give for a tile: R311, and R318 at its end. -/
def excRun (im : TokImage) (fin : Bool) (ctx : EscrowCtx) (t : Tile) : ExcRun :=
  let r := (tileTokensOut t).foldl (feedToken im) (ExcRun.start ctx)
  if r.hit.isNone && fin then resolveHold im r else r

/-- EXCHANGE's work on the last tile of an item of which it fills no tile, in which no stop string completes. -/
theorem excWork_last {t : Tile} {s : State} {im : TokImage} (him : imageOf s t.tenant = some im)
    (hnone : buildingAt s t.stream Hop.EXCHANGE t.ledger = none) (hlast : t.last = true)
    (hpend : reportPending s t = false) :
    let fin := t.textEnd || t.eos || reportEnds s t
    let r := excRun im fin (stream s t.stream).escrow t
    r.hit = none → r.out.length ≤ 4096 → (r.out ≠ [] ∨ fin = true) →
    ∃ v, excWork t s = sendText (excTileOut t fin r.out) v ∧ v.hops = s.hops
      ∧ (stream v t.stream).escrow.hold = r.ctx.hold ∧ (stream v t.stream).escrow.carry = r.ctx.carry := by
  intro fin r hhit hlen hout
  let rd := excReads s t
  let s0 := countReads t.ledger rd s
  have hs0 : stationView s0 = stationView s := countReads_stations ..
  let s1 := onStream t.stream (fun x => { x with escrow := { r.ctx with await := x.escrow.await } }) (countExc r s0)
  let s2 := noteCarry t.ledger (fun x c => { c with escrow := x.escrow }) s1
  let lines := (ovfRead s2 t.tenant rd.ovf).filter (fun l => inRegion s2 2 l.addr 64)
  let s3 := if lines.isEmpty then s2 else startAccess 0 [] .read 3 lines (.detok t.stream t.ledger) s2
  have hs3 : stationView s3 = stationView s1 := by
    have hs2 : stationView s2 = stationView s1 := noteCarry_stations ..
    rw [← hs2]
    unfold s3
    split
    · rfl
    · exact startAccess_stations ..
  have hx : stream s3 t.stream = { stream s t.stream with
      escrow := { r.ctx with await := (stream s t.stream).escrow.await } } := by
    rw [stream_of_stations hs3, stream_onStream_same, stream_of_stations ((countExc_stations ..).trans hs0)]
  have hnotary : (stream s3 t.stream).notary = (stream s t.stream).notary := by rw [hx]
  have hacc : buildingAt s3 t.stream Hop.EXCHANGE t.ledger = none := (buildingAt_congr (by rw [hx]) ..).trans hnone
  have hends : reportEnds s0 t = reportEnds s t :=
    reportEnds_congr (congrArg Stream.notary (stream_of_stations hs0 _))
  have hr : excRun im (t.textEnd || t.eos || reportEnds s0 t) (stream s0 t.stream).escrow t = r := by
    rw [hends, stream_of_stations hs0]
  have hwork : excWork t s = excEmit t r s3 := by
    unfold excWork
    rw [him]
    dsimp only
    unfold excRun at hr
    rw [hr, hhit]
  rw [excEmit_last hlast hacc hhit ((reportPending_congr hnotary).trans hpend) hlen
    (by rw [reportEnds_congr hnotary]; exact hout), reportEnds_congr hnotary] at hwork
  obtain ⟨b, hb⟩ := stream_setBuilding_same t.stream Hop.EXCHANGE t.ledger none s3
  refine ⟨_, hwork, ?_, by rw [hb, hx], by rw [hb, hx]⟩
  rw [setBuilding_hops]
  exact (congrArg StationView.hops hs3).trans (congrArg StationView.hops ((countExc_stations ..).trans hs0))

theorem excReady_of_purchased {s b : State} (h : Purchased s b) (t : Tile) : excReady b t = excReady s t := by
  rw [h.1]
  rfl

/-- EXCHANGE_TILE of the last tile of an item, in which no stop string completes. -/
theorem exec_exchangeTile {s : State} {n : BitVec 12} {t : Tile} {im : TokImage} (hlast : t.last = true)
    (hn : t.stream = n.toNat) (ht : takeable s 7 n.toNat = some t) (hne : t.advance.nextHop ≠ 7)
    (him : imageOf s t.tenant = some im) (hready : excReady s t = true)
    (hstop : (stream s n.toNat).escrow.stopped = false) (hok : excRefusal s t = none)
    (hnone : buildingAt s n.toNat 7 t.ledger = none) (hpend : reportPending s t = false)
    (hcoins : CoinsThere s (excBill s t)) :
    let fin := t.textEnd || t.eos || reportEnds s t
    let r := excRun im fin (stream s n.toNat).escrow t
    r.hit = none → r.out.length ≤ 4096 → (r.out ≠ [] ∨ fin = true) →
    EndsIn (exec (.exchangeTile n .none) s) (MovedOn t 7 (fun u z => z.kind = .text ∧ z.payload = r.out
        ∧ z.textEnd = fin ∧ z.eos = t.eos ∧ z.check = crc32c z.payload ∧ (stream u n.toNat).escrow.hold = r.ctx.hold
        ∧ (stream u n.toNat).escrow.carry = r.ctx.carry) s) := by
  intro fin r hhit hlen hout
  obtain ⟨b, hbuy, hb⟩ := buy_covered hcoins 0 (.exchangeTile n .none) id (excBody n.toNat .none)
  let v0 := unqueue Hop.EXCHANGE t b
  have hstream : stream v0 t.stream = stream s t.stream := stream_of_stations hb.stations _
  have him' : imageOf v0 t.tenant = some im := (imageOf_of_stations hb.stations _).trans him
  have hok' : excRefusal v0 t = none := by
    unfold excRefusal at hok ⊢
    rw [him']
    rw [him] at hok
    exact hok
  have hbody : excBody n.toNat .none b = excWork t v0 := by
    unfold excBody
    rw [takeable_of_purchased hb, ht]
    dsimp only
    rw [excReady_of_purchased hb, hready, stream_of_stations hb.stations, hstop]
    dsimp only [vaultError]
    rw [hok']
    rfl
  have hends : reportEnds v0 t = reportEnds s t := reportEnds_congr (congrArg Stream.notary hstream)
  have hr : excRun im (t.textEnd || t.eos || reportEnds v0 t) (stream v0 t.stream).escrow t = r := by
    rw [hends, hstream, hn]
  have hnone' : buildingAt v0 t.stream Hop.EXCHANGE t.ledger = none := by
    rw [hn] at hstream ⊢
    exact (buildingAt_congr (congrArg Stream.building hstream) ..).trans hnone
  have hwork := excWork_last him' hnone' hlast
    ((reportPending_congr (congrArg Stream.notary hstream)).trans hpend)
  dsimp only at hwork
  rw [hr, hends] at hwork
  obtain ⟨v, hwork, hhops, hhold, hcarry⟩ := hwork hhit hlen hout
  rw [hn] at hhold hcarry
  have hsent := sendText_sendsOn (excTileOut t fin r.out) v
  refine ⟨_, ?_, movedOn_of_sendsOn hb hhops hsent (excTileOut_replaces ..) hne
    fun y hy => ⟨hy.kind, hy.payload, hy.textEnd, hy.eos, ?_, ?_, ?_⟩⟩
  · show execExchangeTile n .none s = _
    unfold execExchangeTile
    rw [ht]
    dsimp only
    rw [hready, hn, hstop, Bool.not_true, if_neg Bool.false_ne_true, if_neg Bool.false_ne_true, hbuy, hbody, hwork]
  · rw [hy.check, hy.payload]
    rfl
  · rw [hsent.2.2, hhold]
  · rw [hsent.2.2, hcarry]

/-- Settles O46: one lemma for each station. -/
theorem textStationsWorkATile : Obligations.TextStationsWorkATile := by
  intro s n t k h ends ahead moved sends sendsAhead
  refine ⟨fun hctrl hnone => prefetchQueued_off hctrl hnone, fun hlast hn => ⟨?_, ?_, ?_, ?_⟩⟩
  · exact fun im ht hne him hnone hcoins => exec_assayTile hlast hn ht hne him hnone hcoins
  · exact fun res ht hne hres hnone hcoins => exec_sorterTile hlast hn ht hne hres hnone hcoins
  · exact exec_mintTile hlast hn
  · exact fun im ht hne him hready hstop hok hnone hpend hcoins =>
      exec_exchangeTile hlast hn ht hne him hready hstop hok hnone hpend hcoins

end Sys2Proof.Machine
end

section
/-!
PROOFS. TELLER: the checks of a chunk, its acceptance and its refusal, from a lane and from the input queue, and what waits
for room in front of it.
-/

namespace Sys2Proof.Machine

/-! ### The checks of a chunk (Table 4.4) -/

theorem checkChunk_eq (s : State) (c : Chunk) :
    let x := stream s c.stream
    let outside : Bool := match c.place with
      | .stack a => decide (c.len ≠ 0) && !inRegion s 0 a c.len
      | .bytes _ => false
    checkChunk s c = firstRefusal
      [(decide (s.build.size.contexts ≤ c.stream), (0x21, false)), (unitOut s 6 (c.stream / 512), (0x60, false)),
       (decide (x.st = .free), (0x70, false)), (decide (x.st = .dead ∨ x.st = .closing), (0x11, false)),
       (decide ((x.st = .held ∧ c.reissue = false) ∨ c.whileHeld = true), (0x70, false)),
       (decide (c.source < 8 ∧ c.reissue = true ∧ x.st ≠ .held), (0x70, true)), (c.badHeader, (0x70, true)),
       (c.badWords || decide ((c.len = 0 ∧ c.eos = false) ∨ (c.len ≠ 0 ∧ c.eos = true) ∨ (c.source = 8 ∧ 2 ^ 24 < c.len)),
        (0x20, true)),
       (outside, (0x21, true)), (decide (2 ^ 24 < x.promptBytes + c.len), (0x20, true))] := by
  intro x outside
  unfold checkChunk
  dsimp only
  simp only [firstRefusal_cons]
  refine ite_congr (by rw [decide_eq_true_eq]) (fun _ => rfl) fun _ => ?_
  refine ite_congr rfl (fun _ => rfl) fun _ => ?_
  refine ite_congr (by rw [decide_eq_true_eq]) (fun _ => rfl) fun _ => ?_
  refine ite_congr (by rw [decide_eq_true_eq]) (fun _ => rfl) fun _ => ?_
  refine ite_congr (by simp [x]) (fun _ => rfl) fun _ => ?_
  refine ite_congr (by rw [decide_eq_true_eq]) (fun _ => rfl) fun _ => ?_
  refine ite_congr rfl (fun _ => rfl) fun _ => ?_
  refine ite_congr (by simp) (fun _ => rfl) fun _ => ?_
  refine ite_congr rfl (fun _ => rfl) fun _ => ?_
  exact ite_congr (by simp [x]) (fun _ => rfl) fun _ => rfl

/-! ### Acceptance (R142) -/

/-- A new ACCEPT entry is made, with the number, the sequence number and the text log offset it is given. -/
theorem journal_acceptMade {e : JEntry} (log : List Byte) (next : After) (s : State) (hnew : e.jseq = 0)
    (hcarried : e.carried = false) (htype : e.etype = 1) {p : JEntry → Prop}
    (hp : ∀ n j b, p { e with ledger := n, jseq := j, b := b }) : EntryMade (journal e log next s) p := by
  unfold journal writeNow
  split
  · split
    · obtain ⟨n, j, hmem⟩ := writeEntry_ring next s hnew
      exact Or.inl ⟨_, hmem, hp n j e.b⟩
    · have hlog : p (e.withLog s.ledger.thead) := by
        rw [show e.withLog s.ledger.thead = { e with b := s.ledger.thead + 2 ^ 63 } from if_pos htype]
        exact hp e.ledger e.jseq _
      unfold writeRecord
      rw [hcarried]
      obtain ⟨a, hmem, -, -, hjob⟩ := startAccess_mem ..
      exact Or.inr (Or.inr ⟨a, hmem, _, _, hjob, hlog⟩)
  · exact Or.inr (Or.inl ⟨(e, log, next), List.mem_append_right _ (List.mem_singleton.2 rfl), hp e.ledger e.jseq e.b⟩)

/-- An ACCEPT entry of the stream and the length of a chunk is made. -/
def AcceptMade (c : Chunk) (u : State) : Prop :=
  EntryMade u (fun e => e.etype = 1 ∧ e.stream = c.stream ∧ e.c % 2 ^ 32 = c.len % 2 ^ 32)

theorem acceptChunk_made (c : Chunk) (s : State) : AcceptMade c (acceptChunk c s) :=
  journal_acceptMade _ _ _ rfl rfl rfl fun _ _ _ => ⟨rfl, rfl, Nat.add_mul_mod_self_right ..⟩

/-- The chunk's bytes are at hand, and its stream's tenant is not STRICT. -/
def PlainChunk (s : State) (c : Chunk) : Prop :=
  (∃ d, c.place = .bytes d) ∧ policyOf s (stream s c.stream).tenant ≠ .strict

theorem admitChunk_plain {s : State} {c : Chunk} (h : PlainChunk s c) : admitChunk c s = acceptChunk c s := by
  obtain ⟨⟨d, hplace⟩, hpolicy⟩ := h
  have hread : needsPreRead s c = false := by
    unfold needsPreRead
    rw [hplace, Bool.and_false]
  have hstrict : checkStrict s c c.text = none := if_neg hpolicy
  unfold admitChunk
  rw [hread, hstrict]
  rfl

/-- The price of a chunk is there (code 0x01). -/
theorem chunkPrice_there {s : State} (hqueue : s.purse.queue = []) (hclk : clkUp s 22 = true)
    (hcoins : priceNow s 250 ≤ s.purse.balance) : CoinsThere s [(250, 1)] := by
  have hzero : priceNow s 0 = 0 := by
    unfold priceNow
    rw [Nat.zero_mul]
    rfl
  have hprice : unitPrice s 250 = priceNow s 250 := by
    unfold unitPrice
    rw [Nat.mod_eq_of_lt (by decide), Nat.div_eq_of_lt (by decide), hzero, Nat.add_zero]
  refine ⟨hqueue, hclk, ?_⟩
  simpa [hprice] using hcoins

theorem plainChunk_of_stations {s t : State} {c : Chunk} (htenants : t.tenants = s.tenants) (hstreams : t.streams = s.streams)
    (h : PlainChunk s c) : PlainChunk t c := by
  refine ⟨h.1, ?_⟩
  have hplain := h.2
  simp only [policyOf, imageOf, tenant, stream, htenants, hstreams] at hplain ⊢
  exact hplain

/-! ### Refusal (R139) -/

theorem satAdd_lt (a b : Nat) : satAdd 32 a b < 2 ^ 32 := by
  unfold satAdd
  omega

theorem reg_bump_one (off : Nat) (s : State) : reg (bump off 1 s) off = satAdd 32 (reg s off) 1 :=
  (reg_setReg_same off _ s).trans (Nat.mod_eq_of_lt (satAdd_lt ..))

theorem reg_bump_other {off k : Nat} (n : Nat) (s : State) (h : k ≠ off) : reg (bump off n s) k = reg s k := by
  unfold bump
  split
  · rfl
  · exact reg_setReg_other _ s h

theorem reg_logFirst_other {lo hi k : Nat} (vlo vhi : Nat) (s : State) (hlo : k ≠ lo) (hhi : k ≠ hi) :
    reg (logFirst lo vlo hi vhi s) k = reg s k := by
  unfold logFirst
  split
  · rfl
  · exact (reg_setReg_other _ _ hhi).trans (reg_setReg_other _ s hlo)

/-- The two words a lane gets for a refused chunk (Table 4.3). -/
def refusalWords (c : Chunk) (st : Nat) : List Word :=
  [BitVec.ofNat 64 (c.stream + c.source % 2 * 2 ^ 12 + c.tag * 2 ^ 16 + st * 2 ^ 32), 0]

/-- What a refusal changes of the refusal counter, the stream, the answers and the lanes. -/
structure Refused (c : Chunk) (st : Nat) (holds : Bool) (s u : State) : Prop where
  counted : reg u R.TEL_REFUSE = satAdd 32 (reg s R.TEL_REFUSE) 1
  held : (stream s c.stream).st = .opened → (stream u c.stream).st = (if holds then .held else .opened)
  answered : c.source < 8 → Tab.get [] u.teller.resp (c.source / 2)
    = Tab.get [] s.teller.resp (c.source / 2) ++ refusalWords c st
  lanes : u.teller.lanes = s.teller.lanes

/-- The source of a refused chunk learns of it. -/
def tellSource (c : Chunk) (st : Nat) (s : State) : State :=
  if c.source < 8 then answerLane c st 0 s
  else if c.source = 8 then dayError c.slot c.clerk st c.step s
  else reportTicket c.clerk c.tag st 0 s

theorem dayError_stations (slot clerk st step : Nat) (s : State) :
    stationView (dayError slot clerk st step s) = stationView s := by
  unfold dayError
  rw [logFirst_stations, bump_stations]

theorem tellSource_reg {off : Nat} (c : Chunk) (st : Nat) (s : State)
    (hoff : off ∉ [R.DAY_ERRCNT, R.DAY_ERR_LO, R.DAY_ERR_HI]) : reg (tellSource c st s) off = reg s off := by
  simp only [List.mem_cons, List.not_mem_nil, or_false, not_or] at hoff
  obtain ⟨hcnt, hlo, hhi⟩ := hoff
  unfold tellSource
  split
  · rfl
  · split
    · exact (reg_logFirst_other _ _ _ hlo hhi).trans (reg_bump_other _ s hcnt)
    · unfold reportTicket
      split <;> rfl

theorem tellSource_streams (c : Chunk) (st : Nat) (s : State) : (tellSource c st s).streams = s.streams := by
  unfold tellSource
  split
  · rfl
  · split
    · exact congrArg StationView.streams (dayError_stations ..)
    · exact congrArg StationView.streams (reportTicket_stations ..)

theorem tellSource_lanes (c : Chunk) (st : Nat) (s : State) : (tellSource c st s).teller.lanes = s.teller.lanes := by
  unfold tellSource
  split
  · rfl
  · split
    · exact congrArg (fun v : StationView => v.teller.lanes) (dayError_stations ..)
    · exact congrArg (fun v : StationView => v.teller.lanes) (reportTicket_stations ..)

theorem tellSource_answers {c : Chunk} (st : Nat) (s : State) (h : c.source < 8) :
    Tab.get [] (tellSource c st s).teller.resp (c.source / 2)
      = Tab.get [] s.teller.resp (c.source / 2) ++ refusalWords c st := by
  unfold tellSource
  rw [if_pos h]
  exact Tab.get_set_same ..

/-- The refusal up to the stream's state: counted, logged and told to the source. -/
def refusalTold (c : Chunk) (st : Nat) (s : State) : State :=
  tellSource c st (logFirst R.TEL_ERR_LO
    (c.stream + c.source * 2 ^ 12 + st * 2 ^ 16 + (if c.source < 8 then 0 else c.clerk * 2 ^ 24))
    R.TEL_ERR_HI (if c.source = 8 then 0 else c.tag) (bump R.TEL_REFUSE 1 s))

theorem refuseChunk_eq (c : Chunk) (st : Nat) (holds : Bool) (s : State) : refuseChunk c st holds s
    = if holds && decide ((stream (refusalTold c st s) c.stream).st = .opened) then
        journal (entry 8 c.stream st 0 0 0 0 0 false) [] .nothing (holdStream c.stream Hop.TELLER 0 (refusalTold c st s))
      else refusalTold c st s := rfl

theorem refusalTold_refused (c : Chunk) (st : Nat) (s : State) :
    Refused c st false s (refusalTold c st s) ∧ stream (refusalTold c st s) c.stream = stream s c.stream := by
  unfold refusalTold
  generalize c.stream + c.source * 2 ^ 12 + st * 2 ^ 16 + (if c.source < 8 then 0 else c.clerk * 2 ^ 24) = lo
  generalize (if c.source = 8 then 0 else c.tag) = hi
  have hlog : stationView (logFirst R.TEL_ERR_LO lo R.TEL_ERR_HI hi (bump R.TEL_REFUSE 1 s)) = stationView s :=
    (logFirst_stations ..).trans (bump_stations ..)
  have hresp := congrArg (fun v : StationView => Tab.get [] v.teller.resp (c.source / 2)) hlog
  have hstream : stream (tellSource c st (logFirst R.TEL_ERR_LO lo R.TEL_ERR_HI hi (bump R.TEL_REFUSE 1 s))) c.stream
      = stream s c.stream := by
    unfold stream
    rw [tellSource_streams]
    exact stream_of_stations hlog c.stream
  refine ⟨⟨?_, fun h => by rw [hstream]; exact h, fun h => ?_, ?_⟩, hstream⟩
  · exact (tellSource_reg _ _ _ (by decide)).trans
      ((reg_logFirst_other _ _ _ (by decide) (by decide)).trans (reg_bump_one ..))
  · exact (tellSource_answers _ _ h).trans (congrArg (· ++ _) hresp)
  · exact (tellSource_lanes ..).trans (congrArg (fun v : StationView => v.teller.lanes) hlog)

theorem stream_holdStream (n h item : Nat) (s : State) (hopen : (stream s n).st = .opened) :
    (stream (holdStream n h item s) n).st = .held := by
  unfold holdStream
  rw [stream_onStream_same, if_pos hopen]

theorem Swept.resp {s t : State} (h : Swept s t) : t.teller.resp = s.teller.resp := by
  have e := congrArg TellerState.resp h.teller
  exact e

theorem Swept.lanes {s t : State} (h : Swept s t) : t.teller.lanes = s.teller.lanes := by
  have e := congrArg TellerState.lanes h.teller
  exact e

/-- A refusal that holds its OPEN stream, with the entry of the stream's change. -/
theorem Refused.hold {c : Chunk} {st : Nat} {s t : State} (h : Refused c st false s t)
    (hopen : (stream t c.stream).st = .opened) (e : JEntry) (log : List Byte) (next : After) (hop item : Nat) :
    Refused c st true s (journal e log next (holdStream c.stream hop item t)) := by
  have hswept := journal_swept e log next (Swept.refl (holdStream c.stream hop item t))
  have hstream : stream (journal e log next (holdStream c.stream hop item t)) c.stream
      = stream (holdStream c.stream hop item t) c.stream := by
    unfold stream
    rw [(journal_frame ..).streams]
  refine ⟨(hswept.regs _ (by decide)).trans h.counted, fun _ => ?_, fun hs => ?_, hswept.lanes.trans h.lanes⟩
  · rw [hstream, stream_holdStream _ _ _ _ hopen]
    rfl
  · rw [hswept.resp]
    exact h.answered hs

theorem refuseChunk_refused (c : Chunk) (st : Nat) (holds : Bool) (s : State) :
    Refused c st holds s (refuseChunk c st holds s) := by
  obtain ⟨htold, hstream⟩ := refusalTold_refused c st s
  rw [refuseChunk_eq]
  cases holds with
  | false => exact htold
  | true =>
    split
    · rename_i hopen
      exact htold.hold (of_decide_eq_true hopen) ..
    · rename_i hopen
      refine ⟨htold.counted, fun h => absurd (decide_eq_true ?_) hopen, htold.answered, htold.lanes⟩
      rw [hstream, h]

/-! ### A chunk on a lane (R139, R149) -/

@[simp] theorem laneBuf_setLane_same (l : Nat) (q : List Chunk) (s : State) : laneBuf (setLane l q s) l = q :=
  Tab.get_set_same ..

/-- Whether a chunk of the same stream that reached TELLER before a chunk is among others. -/
def anyBefore (c : Chunk) (q : List Chunk) : Bool := q.any fun x => decide (x.stream = c.stream) && decide (x.no < c.no)

/-- No chunk is in front of itself. -/
theorem anyBefore_self (c : Chunk) : anyBefore c [c] = false := by simp [anyBefore]

theorem behindOther_eq (s : State) (c : Chunk) :
    behindOther s c = (anyBefore c s.teller.queue || s.teller.lanes.any fun e => anyBefore c e.2) := by
  unfold behindOther waitingChunks
  rw [List.any_append, List.any_flatten, List.any_map]
  rfl

theorem behindOther_setLane {s : State} {l : Nat} {c : Chunk} (hempty : laneBuf s l = []) :
    behindOther (setLane l [c] s) c = behindOther s c := by
  have hlanes : (setLane l [c] s).teller.lanes = Tab.insert s.teller.lanes l [c] := by
    show Tab.set [] s.teller.lanes l [c] = _
    unfold Tab.set
    exact if_neg (List.cons_ne_nil c [])
  have hown : anyBefore c [c] = anyBefore c (Tab.get [] s.teller.lanes l) := by
    rw [anyBefore_self, show Tab.get [] s.teller.lanes l = [] from hempty]
    rfl
  rw [behindOther_eq, behindOther_eq, hlanes, Tab.any_insert (p := anyBefore c) rfl hown]
  rfl

theorem chunkTurn_setLane {s : State} {l : Nat} {c : Chunk} (hempty : laneBuf s l = []) :
    chunkTurn (setLane l [c] s) c = chunkTurn s c := by
  unfold chunkTurn
  rw [behindOther_setLane hempty]
  rfl

/-- The chunk a lane delivers, with its number in the order of arrival. -/
def laneChunk (l : Nat) (h : Word) (ws : List Word) (s : State) : Chunk :=
  { laneChunkOf l h ws with no := s.issueNo + 1,
                            whileHeld := decide ((stream s (laneChunkOf l h ws).stream).st = .held)
                              && !(laneChunkOf l h ws).reissue }

/-- The state in which a chunk waits alone in a lane. -/
def laneFilled (l : Nat) (c : Chunk) (s : State) : State := setLane l [c] { s with issueNo := s.issueNo + 1 }

/-- LANE_CHUNK on a ready lane with nothing buffered: TELLER looks at the chunk at once. -/
theorem exec_laneChunk_empty {s : State} {l : BitVec 3} {h : Word} {ws : List Word}
    (hready : laneReady s l.toNat ws.length = true) (hempty : laneBuf s l.toNat = []) :
    exec (.laneChunk l h ws) s
      = .next (sweep (drainLane 1 l.toNat (laneFilled l.toNat (laneChunk l.toNat h ws s) s))) := by
  show execLaneChunk l h ws s = _
  unfold execLaneChunk
  dsimp only
  rw [if_pos hready, hempty, List.nil_append, laneBuf_setLane_same]
  rfl

theorem drainLane_refuse {s : State} {l st : Nat} {c : Chunk} {holds : Bool} (hbuf : laneBuf s l = [c])
    (hturn : chunkTurn s c = true) (hanswer : answerTurn s l = true) (hcheck : checkChunk s c = some (st, holds)) :
    drainLane 1 l s = refuseChunk c st holds (setLane l [] s) := by
  simp only [drainLane, hbuf, hturn, hanswer, hcheck, Bool.not_true, Bool.or_self, Bool.false_eq_true, if_false]

theorem drainLane_buy {s : State} {l : Nat} {c : Chunk} (hbuf : laneBuf s l = [c])
    (hturn : chunkTurn s c = true) (hanswer : answerTurn s l = true) (hcheck : checkChunk s c = none)
    (hpaid : c.paid = false) :
    drainLane 1 l s = buy 1 [(250, 1)] (laneCommand l) id (laneAccept l) s := by
  simp only [drainLane, hbuf, hturn, hanswer, hcheck, hpaid, Bool.not_true, Bool.or_self, Bool.false_eq_true, if_false]

theorem laneFilled_turns {s : State} {l : Nat} {c : Chunk} (hempty : laneBuf s l = [])
    (hturn : chunkTurn { s with issueNo := s.issueNo + 1 } c = true)
    (hanswer : answerTurn { s with issueNo := s.issueNo + 1 } l = true) :
    chunkTurn (laneFilled l c s) c = true ∧ answerTurn (laneFilled l c s) l = true :=
  ⟨(chunkTurn_setLane (s := { s with issueNo := s.issueNo + 1 }) hempty).trans hturn, hanswer⟩

/-- A chunk on a lane that passes the checks is accepted. -/
theorem drainLane_accepts {s : State} {l : Nat} {c : Chunk} (hbuf : laneBuf s l = [c]) (hturn : chunkTurn s c = true)
    (hanswer : answerTurn s l = true) (hcheck : checkChunk s c = none) (hpaid : c.paid = false)
    (hcoins : CoinsThere s [(250, 1)]) (hplain : PlainChunk s c) : AcceptMade c (drainLane 1 l s) := by
  obtain ⟨t, hbuy, ht⟩ := buy_covered hcoins 1 (laneCommand l) id (laneAccept l)
  have hteller : laneBuf t l = [c] := by
    rw [← hbuf]
    exact congrArg (fun v : StationView => Tab.get [] v.teller.lanes l) ht.stations
  have hplain' : PlainChunk (setLane l [] t) c := plainChunk_of_stations (congrArg StationView.tenants ht.stations)
    (congrArg StationView.streams ht.stations) hplain
  rw [drainLane_buy hbuf hturn hanswer hcheck hpaid, hbuy]
  unfold laneAccept
  rw [hteller]
  dsimp only
  rw [admitChunk_plain hplain']
  exact acceptChunk_made ..

/-! ### A chunk from the input queue (R142) -/

/-- With nothing in the lanes there is nothing to take from them. -/
theorem drainLanes_empty {s : State} (h : s.teller.lanes = []) : drainLanes s = s := by
  have hlane (l : Nat) : drainLane (laneBuf s l).length l s = s := by
    rw [show laneBuf s l = [] by unfold laneBuf; rw [h]; rfl]
    rfl
  have hfold (ls : List Nat) : ls.foldl (fun s l => drainLane (laneBuf s l).length l s) s = s := by
    induction ls with
    | nil => rfl
    | cons l rest ih => rw [List.foldl_cons, hlane, ih]
  exact hfold _

/-- The state in which TELLER has taken the chunk in front of its queue. -/
def chunkTaken (rest : List Chunk) (s : State) : State := { s with teller := { s.teller with queue := rest } }

theorem takeChunk_refuse {s : State} {c : Chunk} {rest : List Chunk} {st : Nat} {holds : Bool}
    (hqueue : s.teller.queue = c :: rest) (hturn : chunkTurn s c = true) (hcheck : checkChunk s c = some (st, holds)) :
    takeChunk s = refuseChunk c st holds (chunkTaken rest s) := by
  simp only [takeChunk, hqueue, hturn, hcheck, Bool.not_true, Bool.false_eq_true, if_false]
  rfl

theorem tellerBody_accepts {s : State} {c : Chunk} {rest : List Chunk} (hqueue : s.teller.queue = c :: rest)
    (hplain : PlainChunk s c) : tellerBody s = acceptChunk c (chunkTaken rest s) := by
  unfold tellerBody
  rw [hqueue]
  exact admitChunk_plain (s := chunkTaken rest s) hplain

theorem acceptChunk_lanes (c : Chunk) (s : State) : (acceptChunk c s).teller.lanes = s.teller.lanes :=
  (journal_swept _ _ _ (Swept.refl s)).lanes

/-- TELLER takes a chunk that passes the checks: it is accepted, once its price is bought or at once when it was paid. -/
theorem takeChunk_accepts {s : State} {c : Chunk} {rest : List Chunk} (hqueue : s.teller.queue = c :: rest)
    (hturn : chunkTurn s c = true) (hcheck : checkChunk s c = none) (hcoins : CoinsThere s [(250, 1)])
    (hplain : PlainChunk s c) :
    AcceptMade c (takeChunk s) ∧ (takeChunk s).teller.lanes = s.teller.lanes := by
  have htake : takeChunk s = if c.paid then tellerBody s else buy 1 [(250, 1)] .tellerChunk id tellerBody s := by
    simp only [takeChunk, hqueue, hturn, hcheck, Bool.not_true, Bool.false_eq_true, if_false]
  obtain ⟨t, ht, hbuy⟩ : ∃ t, stationView t = stationView s ∧ takeChunk s = tellerBody t := by
    rw [htake]
    split
    · exact ⟨s, rfl, rfl⟩
    · obtain ⟨t, hbuy, ht⟩ := buy_covered hcoins 1 .tellerChunk id tellerBody
      exact ⟨t, ht.stations, hbuy⟩
  have hteller : t.teller = s.teller := congrArg StationView.teller ht
  have hplain' : PlainChunk t c := plainChunk_of_stations (congrArg StationView.tenants ht)
    (congrArg StationView.streams ht) hplain
  rw [hbuy, tellerBody_accepts (by rw [hteller, hqueue]) hplain']
  refine ⟨acceptChunk_made .., (acceptChunk_lanes ..).trans ?_⟩
  show t.teller.lanes = s.teller.lanes
  rw [hteller]

/-! ### Re-issues, answers taken, and room -/

/-- TEL_REISSUE of a stream HELD by TELLER (R143). -/
theorem exec_telReissue_held {s : State} {n : BitVec 12} (hclk : clkUp s 20 = true) (hup : stationUp s 1 = true)
    (hheld : (stream s n.toNat).st = .held) (hat : (stream s n.toNat).heldAt = 1) :
    exec (.telReissue n) s
      = .next (setStream n.toNat { stream s n.toNat with armed := true } { s with regOut := 0 }) := by
  show execTelReissue n s = _
  unfold execTelReissue viaPort
  rw [if_pos hclk]
  refine if_pos ?_
  show (stationUp s Hop.TELLER && decide ((stream s n.toNat).st = .held)
    && decide ((stream s n.toNat).heldAt = Hop.TELLER)) = true
  rw [hup, hheld, hat]
  rfl

/-- The answers of a port with the first words taken (R138). -/
def answersTaken (p k : Nat) (s : State) : State :=
  { s with teller := { s.teller with resp := Tab.set [] s.teller.resp p ((Tab.get [] s.teller.resp p).drop k) } }

theorem exec_ingressResponseTaken (p : BitVec 2) (k : BitVec 8) (s : State) :
    exec (.ingressResponseTaken p k) s = .next (sweep (drainLanes (answersTaken p.toNat k.toNat s))) := rfl

theorem exec_inputQueueRoom_cons {s : State} {h : BitVec 4} {i : Instr} {rest : List Instr}
    (hwait : roomWaiters s h.toNat = i :: rest) : exec (.inputQueueRoom h) s = .next (sweep (roomAct i s)) := by
  show execInputQueueRoom h s = _
  unfold execInputQueueRoom
  rw [hwait]

/-! ### A page fetch goes on (R129) -/

/-- The page fetches and what a line read changes lie outside: the entry queues, the threads and TELLER are as they
were. -/
structure QueuesKept (s t : State) : Prop where
  queues : t.day.queues = s.day.queues
  threads : t.threads = s.threads
  teller : t.teller = s.teller

theorem readPage_queues (c : Nat) (s : State) : QueuesKept s (readPage c s) := by
  unfold readPage
  cases fetchOf s c with
  | none => exact ⟨rfl, rfl, rfl⟩
  | some f =>
    dsimp only
    split
    · exact ⟨rfl, rfl, rfl⟩
    · generalize hread : onFetch f.no (fun f => { f with reading := true }) s = t
      have ht : QueuesKept s t := by
        rw [← hread]
        exact ⟨rfl, rfl, rfl⟩
      have hkept := startAccess_stations 0 (lineBill 1) .read 2 [newLine s (pageAddr s c f.step + 64 * f.slot) []]
        (.page f.no f.slot) t
      refine ⟨?_, (congrArg StationView.threads hkept).trans ht.threads,
        (congrArg StationView.teller hkept).trans ht.teller⟩
      rw [(startAccess_swept _ _ _ _ _ _ (Swept.refl t)).day, ht.queues]

theorem nextSlot_queues (f : PageFetch) (s : State) : QueuesKept s (nextSlot f s) := by
  unfold nextSlot
  split
  · obtain ⟨hqueues, hthreads, hteller⟩ := readPage_queues f.clerk
      { s with day := { s.day with fetches := s.day.fetches.filter (fun g => decide (g.no ≠ f.no)) } }
    exact ⟨hqueues, hthreads, hteller⟩
  · obtain ⟨hqueues, hthreads, hteller⟩ := readPage_queues f.clerk
      (onFetch f.no (fun f => { f with slot := f.slot + 1, entry := none, reading := false }) s)
    exact ⟨hqueues, hthreads, hteller⟩

theorem fetchOf_clerk {s : State} {c : Nat} {f : PageFetch} (h : fetchOf s c = some f) : f.clerk = c := by
  unfold fetchOf at h
  have hc := List.find?_some h
  exact of_decide_eq_true hc

/-- The state with an entry last in the queue of a CLERK. -/
def entryQueued (c : Nat) (e : DayEntry) (s : State) : State :=
  { s with day := { s.day with queues := Tab.set [] s.day.queues c (entryQueue s c ++ [e]) } }

/-- DAYBOOK_FETCH_RESUME of a fetch whose entry finds room in the queue of its CLERK. -/
theorem exec_daybookFetchResume_queue {s : State} {c : BitVec 3} {f : PageFetch} {bs : List Byte}
    (hclk : clkUp s 1 = true) (hf : fetchOf s c.toNat = some f) (hentry : f.entry = some bs)
    (hfate : entryFate s c.toNat f.step bs = .queue) (hroom : (entryQueue s c.toNat).length < 512) :
    exec (.daybookFetchResume c) s = .next (sweep (wakeClerk isDnext c.toNat (nextSlot f
      (entryQueued c.toNat { step := f.step, replay := false, own := 0, data := bs } s)))) := by
  show execDaybookFetchResume c s = _
  unfold execDaybookFetchResume resumeFetch
  rw [if_pos hclk, hf]
  dsimp only
  rw [hentry]
  dsimp only
  unfold offerEntry
  rw [fetchOf_clerk hf]
  dsimp only
  rw [hfate]
  dsimp only
  rw [if_pos hroom]
  rfl

theorem daybookFetchResume_queues {s : State} {c : BitVec 3} {f : PageFetch} {bs : List Byte}
    (hclk : clkUp s 1 = true) (hf : fetchOf s c.toNat = some f) (hentry : f.entry = some bs)
    (hfate : entryFate s c.toNat f.step bs = .queue) (hroom : (entryQueue s c.toNat).length < 512) :
    ∃ u, exec (.daybookFetchResume c) s = .next (sweep (wakeClerk isDnext c.toNat u))
      ∧ entryQueue u c.toNat = entryQueue s c.toNat ++ [{ step := f.step, replay := false, own := 0, data := bs }]
      ∧ (∀ d, d ≠ c.toNat → entryQueue u d = entryQueue s d) ∧ u.threads = s.threads ∧ u.teller = s.teller := by
  obtain ⟨hqueues, hthreads, hteller⟩ := nextSlot_queues f
    (entryQueued c.toNat { step := f.step, replay := false, own := 0, data := bs } s)
  refine ⟨_, exec_daybookFetchResume_queue hclk hf hentry hfate hroom, ?_, fun d hd => ?_, hthreads, hteller⟩
  · unfold entryQueue
    rw [hqueues]
    exact Tab.get_set_same ..
  · unfold entryQueue
    rw [hqueues]
    exact Tab.get_set_other _ _ _ hd

/-! ### The statement -/

/-- LANE_CHUNK on a ready lane with nothing buffered, in its turn. -/
theorem exec_laneChunk {s : State} {l : BitVec 3} {h : Word} {ws : List Word}
    (hready : laneReady s l.toNat ws.length = true) (hempty : laneBuf s l.toNat = [])
    (hturn : chunkTurn { s with issueNo := s.issueNo + 1 } (laneChunk l.toNat h ws s) = true)
    (hanswer : answerTurn { s with issueNo := s.issueNo + 1 } l.toNat = true) :
    let c := laneChunk l.toNat h ws s
    (CoinsThere s [(250, 1)] → PlainChunk s c → checkChunk s c = none → EndsIn (exec (.laneChunk l h ws) s) (AcceptMade c))
    ∧ ∀ st holds, checkChunk s c = some (st, holds) → ∃ u, exec (.laneChunk l h ws) s = .next (sweep u)
      ∧ Refused c st holds (setLane l.toNat [] (laneFilled l.toNat c s)) u := by
  intro c
  have hbuf : laneBuf (laneFilled l.toNat c s) l.toNat = [c] := laneBuf_setLane_same ..
  obtain ⟨hturn', hanswer'⟩ := laneFilled_turns hempty hturn hanswer
  refine ⟨fun hcoins hplain hcheck => ⟨_, exec_laneChunk_empty hready hempty, ?_⟩, fun st holds hcheck =>
    ⟨_, exec_laneChunk_empty hready hempty, ?_⟩⟩
  · exact drainLane_accepts hbuf hturn' hanswer' hcheck rfl hcoins hplain
  · rw [drainLane_refuse hbuf hturn' hanswer' hcheck]
    exact refuseChunk_refused ..

/-- TELLER_CHUNK of the chunk in front of the queue, in its turn, with nothing in the lanes. -/
theorem exec_tellerChunk {s : State} {c : Chunk} {rest : List Chunk} (hqueue : s.teller.queue = c :: rest)
    (hlanes : s.teller.lanes = []) (hturn : chunkTurn s c = true) :
    (CoinsThere s [(250, 1)] → PlainChunk s c → checkChunk s c = none → EndsIn (exec .tellerChunk s) (AcceptMade c))
    ∧ ∀ st holds, checkChunk s c = some (st, holds) → ∃ u, exec .tellerChunk s = .next (sweep u)
      ∧ Refused c st holds (chunkTaken rest s) u := by
  have hexec : (takeChunk s).teller.lanes = [] → exec .tellerChunk s = .next (sweep (takeChunk s)) := by
    intro h
    show Host.Outcome.next (sweep (drainLanes (takeChunk s))) = _
    rw [drainLanes_empty h]
  refine ⟨fun hcoins hplain hcheck => ?_, fun st holds hcheck => ?_⟩
  · obtain ⟨hmade, hkept⟩ := takeChunk_accepts hqueue hturn hcheck hcoins hplain
    exact ⟨_, hexec (hkept.trans hlanes), hmade⟩
  · have hrefused := refuseChunk_refused c st holds (chunkTaken rest s)
    have htake := takeChunk_refuse hqueue hturn hcheck
    refine ⟨_, hexec ?_, ?_⟩
    · rw [htake]
      exact hrefused.lanes.trans hlanes
    · rw [htake]
      exact hrefused

/-- Settles O45: the checks, the two sources of chunks, the re-issue, and what waits for room. -/
theorem tellerTakesChunks : Obligations.TellerTakesChunks := by
  intro s coins plain accepts refuses
  have hthere (h : coins) : CoinsThere s [(250, 1)] := by
    obtain ⟨hqueue, hclk, hprice⟩ := h
    exact chunkPrice_there hqueue hclk hprice
  refine ⟨checkChunk_eq s, ?_, ?_, fun n => exec_telReissue_held, fun p k => ?_, fun h i rest => exec_inputQueueRoom_cons,
    fun c f bs => daybookFetchResume_queues⟩
  · intro l h ws c0 c v hready hempty hturn hanswer
    obtain ⟨haccept, hrefuse⟩ := exec_laneChunk hready hempty hturn hanswer
    refine ⟨fun hcoins hplain hcheck => haccept (hthere hcoins) hplain hcheck, fun st holds hcheck => ?_⟩
    obtain ⟨u, hexec, hrefused⟩ := hrefuse st holds hcheck
    exact ⟨u, hexec, hrefused.counted, hrefused.held, hrefused.answered⟩
  · intro c rest hqueue hlanes hturn
    obtain ⟨haccept, hrefuse⟩ := exec_tellerChunk hqueue hlanes hturn
    refine ⟨fun hcoins hplain hcheck => haccept (hthere hcoins) hplain hcheck, fun st holds hcheck => ?_⟩
    obtain ⟨u, hexec, hrefused⟩ := hrefuse st holds hcheck
    exact ⟨u, hexec, hrefused.counted, hrefused.held, hrefused.answered⟩
  · exact ⟨_, exec_ingressResponseTaken p k s, Tab.get_set_same .., fun q hq => Tab.get_set_other _ _ _ hq, rfl⟩

end Sys2Proof.Machine
end

section
/-!
PROOFS. Canonical form: every command and every round of the CLERKS keeps it.
-/

namespace Sys2Proof.Machine

/-- Every command keeps the build, the waiting commands and the canonical form. -/
theorem exec_keeps {s0 t : State} (h : Keeps s0 t) : (i : Instr) → OKeeps s0 (exec i t)
  | .add w f => execAdd_keeps w f h
  | .sub w f => execSub_keeps w f h
  | .mul w f => execMul_keeps w f h
  | .and w f => execAnd_keeps w f h
  | .or w f => execOr_keeps w f h
  | .xor w f => execXor_keeps w f h
  | .shl w f => execShl_keeps w f h
  | .shr w f => execShr_keeps w f h
  | .sar w f => execSar_keeps w f h
  | .addi w f => execAddi_keeps w f h
  | .andi w f => execAndi_keeps w f h
  | .lui w f => execLui_keeps w f h
  | .cmp w f => execCmp_keeps w f h
  | .cmpi w f => execCmpi_keeps w f h
  | .sel w f => execSel_keeps w f h
  | .pset w f => execPset_keeps w f h
  | .crc w f => execCrc_keeps w f h
  | .b w f => execB_keeps w f h
  | .bp w f => execBp_keeps w f h
  | .call w f => execCall_keeps w f h
  | .ret w f => execRet_keeps w f h
  | .yield w f => execYield_keeps w f h
  | .halt w f => execHalt_keeps w f h
  | .brk w f => execBrk_keeps w f h
  | .nop w f => execNop_keeps w f h
  | .rds w f => execRds_keeps w f h
  | .wrs w f => execWrs_keeps w f h
  | .ld w f => execLd_keeps w f h
  | .st w f => execSt_keeps w f h
  | .ldx w f => execLdx_keeps w f h
  | .stx w f => execStx_keeps w f h
  | .sopen w f => execSopen_keeps w f h
  | .sfeed w f => execSfeed_keeps w f h
  | .sclose w f => execSclose_keeps w f h
  | .flow w f => execFlow_keeps w f h
  | .dnext w f => execDnext_keeps w f h
  | .waitt w f => execWaitt_keeps w f h
  | .waitb w f => execWaitb_keeps w f h
  | .tpoll w f => execTpoll_keeps w f h
  | .post w f => execPost_keeps w f h
  | .pay w f => execPay_keeps w f h
  | .settle w f => execSettle_keeps w f h
  | .mask w f => execMask_keeps w f h
  | .next w f => execNext_keeps w f h
  | .draft w f => execDraft_keeps w f h
  | .pick w f => execPick_keeps w f h
  | .emit w f => execEmit_keeps w f h
  | .price w f => execPrice_keeps w f h
  | .ticketComplete clerk ticket => execTicketComplete_keeps clerk ticket h
  | .purchaseServed => execPurchaseServed_keeps h
  | .inputQueueRoom hop => execInputQueueRoom_keeps hop h
  | .clerkStart clerks => execClerkStart_keeps clerks h
  | .clerkHalt clerks => execClerkHalt_keeps clerks h
  | .threadRestart w => execThreadRestart_keeps w h
  | .beatPositionTaken pos => execBeatPositionTaken_keeps pos h
  | .daybookFetchResume clerk => execDaybookFetchResume_keeps clerk h
  | .graceEnd stream => execGraceEnd_keeps stream h
  | .thinGraceEnd stream => execThinGraceEnd_keeps stream h
  | .beatArm => execBeatArm_keeps h
  | .beatFreeze => execBeatFreeze_keeps h
  | .beatCfgWrite value => execBeatCfgWrite_keeps value h
  | .daybookConfigWrite offset value => execDaybookConfigWrite_keeps offset value h
  | .laneChunk lane header words => execLaneChunk_keeps lane header words h
  | .tellerChunk => execTellerChunk_keeps h
  | .telReissue stream => execTelReissue_keeps stream h
  | .assayTile stream hw => execAssayTile_keeps stream hw h
  | .sorterTile stream hw => execSorterTile_keeps stream hw h
  | .stripeSlotsFreed tenant => execStripeSlotsFreed_keeps tenant h
  | .sorterThermalSample samples => execSorterThermalSample_keeps samples h
  | .mintTile stream hw => execMintTile_keeps stream hw h
  | .vaultReloadDone bank => execVaultReloadDone_keeps bank h
  | .vaultUnitsFreed tenant => execVaultUnitsFreed_keeps tenant h
  | .notaryDecisionTile stream hw => execNotaryDecisionTile_keeps stream hw h
  | .notaryTokenTile stream hw => execNotaryTokenTile_keeps stream hw h
  | .notaryAdvance stream => execNotaryAdvance_keeps stream h
  | .runaheadResolve stream token => execRunaheadResolve_keeps stream token h
  | .clearingDescriptor stream hw => execClearingDescriptor_keeps stream hw h
  | .maskPagesFreed stream => execMaskPagesFreed_keeps stream h
  | .logitRow header data beats => execLogitRow_keeps header data beats h
  | .nearBankList port data => execNearBankList_keeps port data h
  | .exchangeTile stream hw => execExchangeTile_keeps stream hw h
  | .escrowHoldResolve stream => execEscrowHoldResolve_keeps stream h
  | .egressRecord port beats => execEgressRecord_keeps port beats h
  | .memoryResponse port tag kind data => execMemoryResponse_keeps port tag kind data h
  | .deferredRetry port tag => execDeferredRetry_keeps port tag h
  | .channelQuiesceDrained => execChannelQuiesceDrained_keeps h
  | .stkConfigWrite offset value => execStkConfigWrite_keeps offset value h
  | .ledgerHop stream hw => execLedgerHop_keeps stream hw h
  | .completionPacket => execCompletionPacket_keeps h
  | .settlePush hi => execSettlePush_keeps hi h
  | .settlementTaken => execSettlementTaken_keeps h
  | .journalEnable value => execJournalEnable_keeps value h
  | .replayDone => execReplayDone_keeps h
  | .carryForward => execCarryForward_keeps h
  | .queuePop => execQueuePop_keeps h
  | .queueFlush value => execQueueFlush_keeps value h
  | .loadImage => execLoadImage_keeps h
  | .imageLoadDone data status => execImageLoadDone_keeps data status h
  | .setCeiling => execSetCeiling_keeps h
  | .remapRow => execRemapRow_keeps h
  | .retire => execRetire_keeps h
  | .restore => execRestore_keeps h
  | .margin => execMargin_keeps h
  | .setHash => execSetHash_keeps h
  | .zeroise => execZeroise_keeps h
  | .debugUnlock => execDebugUnlock_keeps h
  | .dlock => execDlock_keeps h
  | .keyEpoch epoch => execKeyEpoch_keeps epoch h
  | .keyDelivery slot key => execKeyDelivery_keeps slot key h
  | .keyClear slot => execKeyClear_keeps slot h
  | .tagBackoffEnd slot => execTagBackoffEnd_keeps slot h
  | .purseTick therm itel valid => execPurseTick_keeps therm itel valid h
  | .purseTelemetryPacket => execPurseTelemetryPacket_keeps h
  | .purAllowWrite value => execPurAllowWrite_keeps value h
  | .patrolScrub findings => execPatrolScrub_keeps findings h
  | .slackSweep domain => execSlackSweep_keeps domain h
  | .sweepEnd slacks => execSweepEnd_keeps slacks h
  | .spareSwapDone => execSpareSwapDone_keeps h
  | .tileReloadDone tile => execTileReloadDone_keeps tile h
  | .scrubPassStart => execScrubPassStart_keeps h
  | .sweepRequest value => execSweepRequest_keeps value h
  | .channelQuiesce => execChannelQuiesce_keeps h
  | .quiesceEnd => execQuiesceEnd_keeps h
  | .pendingPop => execPendingPop_keeps h
  | .vreqAck => execVreqAck_keeps h
  | .vreqNak => execVreqNak_keeps h
  | .registerWrite offset value => execRegisterWrite_keeps offset value h
  | .pairLoRead offset => execPairLoRead_keeps offset h
  | .counterLoWrite offset value => execCounterLoWrite_keeps offset value h
  | .blockReset => execBlockReset_keeps h
  | .domainReset domain => execDomainReset_keeps domain h
  | .pwrRst value => execPwrRst_keeps value h
  | .resetRelease domain => execResetRelease_keeps domain h
  | .clockLost domain => execClockLost_keeps domain h
  | .clockRestored domain => execClockRestored_keeps domain h
  | .powerGood pd => execPowerGood_keeps pd h
  | .pdRelease pd => execPdRelease_keeps pd h
  | .pgTimeout pd => execPgTimeout_keeps pd h
  | .pgFault pd => execPgFault_keeps pd h
  | .pdRetry value => execPdRetry_keeps value h
  | .pdSwitch value => execPdSwitch_keeps value h
  | .memoryLinkError port => execMemoryLinkError_keeps port h
  | .wdogExpire => execWdogExpire_keeps h
  | .wdogKick value => execWdogKick_keeps value h
  | .testMode => execTestMode_keeps h
  | .bootGo => execBootGo_keeps h
  | .powerGroupStart => execPowerGroupStart_keeps h
  | .bootPhaseEnd baseline => execBootPhaseEnd_keeps baseline h
  | .unitMissing u => execUnitMissing_keeps u h
  | .srqForce value => execSrqForce_keeps value h
  | .srqQueueAge => execSrqQueueAge_keeps h
  | .debugResume w => execDebugResume_keeps w h
  | .debugStep w => execDebugStep_keeps w h
  | .undefinedOpcode w word => execUndefinedOpcode_keeps w word h
  | .malformedKeyedCommand => execMalformedKeyedCommand_keeps h
  | .zeroiseDone => execZeroiseDone_keeps h
  | .pdBaseLeavesReset instId => execPdBaseLeavesReset_keeps instId h
  | .interfaceResetRelease domain => execInterfaceResetRelease_keeps domain h
  | .egressReady port => execEgressReady_keeps port h
  | .ingressResponseTaken port words => execIngressResponseTaken_keeps port words h
  | .ieee1687Access op => execIeee1687Access_keeps op h
  | .tracePortDrain => execTracePortDrain_keeps h

/-- The canonical form says nothing of the waiting commands. -/
theorem inv_pending {s : State} (rest : List Instr) (h : Inv s) : Inv { s with pending := rest } := h

/-- Settles O5: a round of the CLERKS keeps what every command keeps, and taking the front command changes only the queue. -/
theorem stepKeepsCanonicalMemory : Obligations.StepKeepsCanonicalMemory := by
  intro s t hinv hstep
  unfold step at hstep
  cases hqueue : s.pending with
  | nil =>
    rw [hqueue] at hstep
    rw [← Host.Outcome.next.inj hstep]
    exact (tick_keeps (Keeps.refl s)).inv hinv
  | cons c rest =>
    rw [hqueue] at hstep
    exact ((exec_keeps (Keeps.refl { s with pending := rest }) c).out t hstep).inv (inv_pending rest hinv)

end Sys2Proof.Machine
end

section
/-!
PROOFS. The encoding of Lambiop: opcodes and commands name each other, words and fields spell each other, and a word of no
meaning faults the thread that issues it.
-/

namespace Sys2Proof.Machine

/-! ### Opcodes and commands -/

/-- The opcodes of Table 2.6. -/
def tableOpcodes : List Nat :=
  [0x01, 0x02, 0x03, 0x04, 0x05, 0x06, 0x07, 0x08, 0x09, 0x0A, 0x0B, 0x0C, 0x0D, 0x0E, 0x0F, 0x10, 0x11,
    0x18, 0x19, 0x1A, 0x1B, 0x1C, 0x1D, 0x1E, 0x1F, 0x20, 0x21, 0x22, 0x23, 0x24, 0x25, 0x30, 0x31, 0x32, 0x40, 0x41,
    0x44, 0x45, 0x46, 0x50, 0x51, 0x52, 0x60, 0x61, 0x62, 0x63, 0x70, 0x78]

/-- The command of an opcode has that opcode, that thread and those fields. -/
theorem lambiopParts_of_lambiopOf {op : Nat} {w : Who} {f : Fields} {i : Instr} (h : lambiopOf op w f = some i) :
    lambiopParts i = some (op, w, f) := by
  unfold lambiopOf at h
  split at h <;> cases h <;> rfl

/-- A Lambiop command is the one its opcode names. -/
theorem lambiopOf_of_lambiopParts {op : Nat} {w : Who} {f : Fields} {i : Instr} (h : lambiopParts i = some (op, w, f)) :
    lambiopOf op w f = some i := by
  cases i <;> cases h <;> rfl

/-- An opcode outside Table 2.6 names no command. -/
theorem lambiopOf_eq_none {op : Nat} (w : Who) (f : Fields) (h : op ∉ tableOpcodes) : lambiopOf op w f = none := by
  unfold lambiopOf
  split
  case h_49 => rfl
  all_goals exact absurd (by decide) h

/-- An opcode that names a command stands in Table 2.6. -/
theorem mem_tableOpcodes {op : Nat} {w : Who} {f : Fields} {i : Instr} (h : lambiopOf op w f = some i) :
    op ∈ tableOpcodes := by
  by_contra hop
  rw [lambiopOf_eq_none w f hop] at h
  cases h

/-- Every opcode fits its byte. -/
theorem tableOpcodes_lt : ∀ op ∈ tableOpcodes, op < 256 := by decide

/-- Each opcode of Table 2.6 names a command, and with every field 0 no reserved bit is set. -/
theorem lambiopOf_zeroFields (w : Who) : ∀ op ∈ tableOpcodes,
    (∃ i, lambiopOf op w ⟨0, 0, 0, 0, 0⟩ = some i) ∧ reservedOk op ⟨0, 0, 0, 0, 0⟩ = true := by
  have hok : ∀ op ∈ tableOpcodes, reservedOk op ⟨0, 0, 0, 0, 0⟩ = true := by decide
  refine fun op hop => ⟨Option.isSome_iff_exists.1 ?_, hok op hop⟩
  have hsome : ∀ op ∈ tableOpcodes, (lambiopOf op w ⟨0, 0, 0, 0, 0⟩).isSome = true := by
    simp only [tableOpcodes, List.forall_mem_cons]
    exact ⟨rfl, rfl, rfl, rfl, rfl, rfl, rfl, rfl, rfl, rfl, rfl, rfl, rfl, rfl, rfl, rfl, rfl, rfl, rfl, rfl, rfl, rfl,
      rfl, rfl, rfl, rfl, rfl, rfl, rfl, rfl, rfl, rfl, rfl, rfl, rfl, rfl, rfl, rfl, rfl, rfl, rfl, rfl, rfl, rfl, rfl,
      rfl, rfl, rfl, List.forall_mem_nil _⟩
  exact hsome op hop

/-! ### Words -/

/-- The word of an opcode and fields without a reserved bit set decodes to the command of the opcode. -/
theorem decodeLambiop_encodeWord {op : Nat} {w : Who} {f : Fields} (h : op ∈ tableOpcodes)
    (hok : reservedOk op f = true) : decodeLambiop w (encodeWord op f) = lambiopOf op w f := by
  rw [decodeLambiop, wordOp_encodeWord (tableOpcodes_lt op h), wordFields_encodeWord, if_pos hok]

/-- What a word decodes to is the command of its opcode and fields, and no reserved bit of it is set. -/
theorem decodeLambiop_some {w : Who} {x : Word} {i : Instr} (h : decodeLambiop w x = some i) :
    lambiopOf (wordOp x) w (Sys2Proof.wordFields x) = some i ∧ reservedOk (wordOp x) (Sys2Proof.wordFields x) = true := by
  unfold decodeLambiop at h
  split at h
  next hok => exact ⟨h, hok⟩
  · cases h

/-- A well-formed Lambiop command has its reserved bits 0. -/
theorem reservedOk_of_wellFormed {z : Size} {i : Instr} {op : Nat} {w : Who} {f : Fields}
    (h : lambiopParts i = some (op, w, f)) (hwf : wellFormed z i = true) : reservedOk op f = true := by
  have hfits : wellFormed z i = lambiopFits z i := by cases i <;> cases h <;> rfl
  rw [hfits, lambiopFits, h, Bool.and_eq_true] at hwf
  exact hwf.2

/-- Settles O8: the fields of the encoding are those of the command, and its opcode names the command again. -/
theorem lambiopDecodesWhatItEncodes : Obligations.LambiopDecodesWhatItEncodes := by
  intro z i op w f hparts hwf
  have hof := lambiopOf_of_lambiopParts hparts
  refine ⟨encodeWord op f, by rw [encodeLambiop, hparts]; rfl, ?_⟩
  rw [decodeLambiop_encodeWord (mem_tableOpcodes hof) (reservedOk_of_wellFormed hparts hwf), hof]

/-- Settles O9: the command has the opcode and the fields of the word, and a word is the packing of those. -/
theorem lambiopWordsAreUnambiguous : Obligations.LambiopWordsAreUnambiguous := by
  intro w x i h
  have hparts := lambiopParts_of_lambiopOf (decodeLambiop_some h).1
  refine ⟨?_, _, _, hparts⟩
  rw [encodeLambiop, hparts]
  exact congrArg some (encodeWord_fields x)

/-! ### Words of no meaning -/

/-- The log of a first fault changes no thread. -/
@[simp] theorem thread_logFault (w v : Who) (pc status : Nat) (s : State) :
    thread (logFault w pc status s) v = thread s v := by
  unfold logFault
  dsimp only
  split
  · rfl
  · exact thread_setReg ..

/-- A thread that faults stands in FAULTED. -/
@[simp] theorem thread_faultThread_same (w : Who) (status : Nat) (s : State) : thread (faultThread w status s) w
    = { thread s w with st := .faulted, wait := .ready, stepping := false, stopAfter := false } := by
  have hend (t : State) : thread (endOwned w status t) w = thread t w := rfl
  rw [faultThread, thread_sweep, hend, thread_onThread_same, thread_logFault]

/-- UNDEFINED_OPCODE of a thread that may issue, for a word that does not decode. -/
theorem exec_undefinedOpcode {s : State} {w : Who} {x : Word} (hready : clerkReady s w.clerk.toNat = true)
    (hissue : (thread s w).canIssue = true) (h : decodeLambiop w x = none) :
    exec (.undefinedOpcode w x) s = .next (faultThread w St.BAD_OP (noteIssue w s)) := by
  show execUndefinedOpcode w x s = _
  unfold execUndefinedOpcode
  rw [hready, hissue, h]
  rfl

/-- Opcode 0 is undefined. -/
theorem decodeLambiop_zero (w : Who) : decodeLambiop w 0 = none := rfl

/-- Settles O10: the opcodes that name a command are those of the table, and 0 is not among them. -/
theorem onlyTheFortyEightOpcodes : Obligations.OnlyTheFortyEightOpcodes := by
  refine ⟨rfl, fun op => ⟨fun hop => ?_, ?_⟩, fun w x hop => ?_, decodeLambiop_zero, fun w s hready hissue => ?_⟩
  · have w : Who := ⟨0, 0⟩
    obtain ⟨⟨i, hi⟩, hok⟩ := lambiopOf_zeroFields w op hop
    exact ⟨w, _, i, wordOp_encodeWord (tableOpcodes_lt op hop) _, (decodeLambiop_encodeWord hop hok).trans hi⟩
  · rintro ⟨w, x, i, rfl, hi⟩
    exact mem_tableOpcodes (decodeLambiop_some hi).1
  · rw [decodeLambiop, lambiopOf_eq_none w _ hop, ite_self]
  · exact ⟨_, exec_undefinedOpcode hready hissue (decodeLambiop_zero w), congrArg Thread.st (thread_faultThread_same ..)⟩

/-! ### Faults -/

theorem thread_faultThread_other {w v : Who} (status : Nat) (s : State) (h : Who.key v ≠ Who.key w) :
    thread (faultThread w status s) v = thread s v := by
  have hend (t : State) : thread (endOwned w status t) v = thread t v := rfl
  rw [faultThread, thread_sweep, hend, thread_onThread_other _ _ h, thread_logFault]

/-- What follows from a fault changes no fault register. -/
theorem reg_faultThread_log (w : Who) (status : Nat) (s : State) :
    reg (faultThread w status s) (R.CLK_FAULT0 + 4 * w.clerk.toNat)
      = reg (logFault w (thread s w).pc status s) (R.CLK_FAULT0 + 4 * w.clerk.toNat) := by
  have hswept : ∀ c < 8, R.CLK_FAULT0 + 4 * c ∉ sweptRegs := by decide
  have hend (t : State) (off : Nat) : reg (endOwned w status t) off = reg t off := rfl
  rw [faultThread, reg_sweep _ (hswept _ w.clerk.isLt), hend, reg_onThread]

theorem logFault_held {w : Who} {s : State} (h : bit (reg s (R.CLK_FAULT0 + 4 * w.clerk.toNat)) 31 = true) (pc status : Nat) :
    logFault w pc status s = s := if_pos h

theorem reg_logFault_first {w : Who} {s : State} (h : bit (reg s (R.CLK_FAULT0 + 4 * w.clerk.toNat)) 31 = false)
    (pc status : Nat) : reg (logFault w pc status s) (R.CLK_FAULT0 + 4 * w.clerk.toNat)
      = pc % 8192 + w.thread.toNat * 2 ^ 13 + status % 256 * 2 ^ 17 + 2 ^ 31 := by
  have hthread := w.thread.isLt
  have hlog : logFault w pc status s = setReg (R.CLK_FAULT0 + 4 * w.clerk.toNat)
      (pc % 8192 + w.thread.toNat * 2 ^ 13 + status % 256 * 2 ^ 17 + 2 ^ 31) s := if_neg (by rw [h]; exact Bool.false_ne_true)
  rw [hlog, reg_setReg_same]
  omega

/-- After a fault its CLERK's register is valid. -/
theorem fault_logged (w : Who) (status : Nat) (s : State) :
    bit (reg (faultThread w status s) (R.CLK_FAULT0 + 4 * w.clerk.toNat)) 31 = true := by
  have hthread := w.thread.isLt
  rw [reg_faultThread_log]
  cases h : bit (reg s (R.CLK_FAULT0 + 4 * w.clerk.toNat)) 31
  · rw [reg_logFault_first h, bit, Nat.testBit_eq_decide_div_mod_eq]
    exact decide_eq_true (by omega)
  · rwa [logFault_held h]

/-- Settles O18: the thread by the end of the fault, the register by the log of the first one. -/
theorem faultStopsOnlyItsThread : Obligations.FaultStopsOnlyItsThread := by
  intro s w st t off
  have hthread := thread_faultThread_same w st s
  refine ⟨?_, by rw [hthread], by rw [hthread], by rw [hthread], by rw [hthread],
    fun v hv => thread_faultThread_other st s hv, fun hheld => ?_, fun hfirst hpc hst => ?_⟩
  · have hany : (List.range 8).any (fun c => logValid t (R.CLK_FAULT0 + 4 * c)) = true :=
      List.any_eq_true.2 ⟨_, List.mem_range.2 w.clerk.isLt, fault_logged w st s⟩
    exact Bool.or_eq_true_iff.2 (Or.inl hany)
  · exact (reg_faultThread_log w st s).trans (by rw [logFault_held hheld])
  · refine (reg_faultThread_log w st s).trans ?_
    rw [reg_logFault_first hfirst, Nat.mod_eq_of_lt hpc, Nat.mod_eq_of_lt hst]

/-! ### Instructions as commands -/

/-- A Lambiop command is issued by its CLERK as what it is to it. -/
theorem exec_lambiop {s : State} {i : Instr} {op : Nat} {w : Who} {f : Fields} {o : Op}
    (h : lambiopParts i = some (op, w, f)) (ho : opOf s i = some o) :
    o.code = op ∧ exec i s = .next (issue w f i o s) := by
  cases i <;> cases h <;> cases ho <;> exact ⟨rfl, rfl⟩

/-- Every Lambiop command is something to its CLERK. -/
theorem opOf_lambiop {i : Instr} {op : Nat} {w : Who} {f : Fields} (s : State)
    (h : lambiopParts i = some (op, w, f)) : ∃ o cents, opOf s i = some o ∧ o.bill = [(cents, 1)] := by
  cases i <;> cases h <;> exact ⟨_, _, rfl, rfl⟩

/-- An instruction of a ready thread with a reserved bit set faults. -/
theorem issue_reserved {s : State} {w : Who} {f : Fields} (i : Instr) {o : Op} (hready : clerkReady s w.clerk.toNat = true)
    (hissue : (thread s w).canIssue = true) (hok : reservedOk o.code f = false) :
    issue w f i o s = faultThread w St.BAD_OP (noteIssue w s) := by
  have hwait : (thread s w).wait = .ready := of_decide_eq_true (Bool.and_eq_true _ _ ▸ hissue : _ ∧ _).2
  simp [issue, hready, hissue, hok, hwait]

/-- Settles O19: a word decodes when its opcode names a command and no reserved bit is set, and what does not decode, or
is issued with a reserved bit set, faults. -/
theorem undefinedWordsFault : Obligations.UndefinedWordsFault := by
  refine ⟨fun s w x hready hissue h => ⟨exec_undefinedOpcode hready hissue h, congrArg Thread.st (thread_faultThread_same ..)⟩,
    fun w x => ?_, fun s i op w f hparts hready hissue hok => ?_⟩
  · unfold decodeLambiop
    split
    next hok => simp [hok]
    next hok => simp [hok]
  · obtain ⟨o, cents, ho, _⟩ := opOf_lambiop s hparts
    obtain ⟨rfl, hexec⟩ := exec_lambiop hparts ho
    rw [hexec, issue_reserved i hready hissue hok]

/-- Settles O11: the fields of each word are read back as they are written. -/
theorem specWordsDecode : Obligations.SpecWordsDecode :=
  fun _ => ⟨rfl, rfl, rfl, rfl, rfl, rfl, rfl, rfl, rfl, rfl⟩

end Sys2Proof.Machine
end

section
/-!
PROOFS. The scalar, predicate and control instructions, the special registers and the result word: what each instruction
leaves of its thread after its purchase.
-/

namespace Sys2Proof.Machine

/-! ### Registers of a thread -/

@[simp] theorem Thread.pred_zero (t : Thread) : t.pred 0 = true := rfl

@[simp] theorem Thread.setP_zero (b : Bool) (t : Thread) : t.setP 0 b = t := rfl

theorem Thread.setP_g (n : Nat) (b : Bool) (t : Thread) : (t.setP n b).g = t.g := by
  unfold Thread.setP
  split <;> rfl

/-- A number with one of its bits set to a value, as its parts above and below that bit. -/
theorem setBits_one (v n : Nat) (b : Bool) :
    setBits v n 1 (flag b) = 2 ^ n * (2 * (v / 2 ^ n / 2) + flag b) + v % 2 ^ n := by
  have hlow : 2 ^ n * (v / 2 ^ n) + v % 2 ^ n = v := Nat.div_add_mod ..
  have hbit : 2 * (v / 2 ^ n / 2) + v / 2 ^ n % 2 ^ 1 = v / 2 ^ n := Nat.div_add_mod _ 2
  have hflag : flag b % 2 ^ 1 = flag b := by cases b <;> rfl
  have hcut : v - v / 2 ^ n % 2 ^ 1 * 2 ^ n = 2 ^ n * (2 * (v / 2 ^ n / 2)) + v % 2 ^ n := by
    refine Nat.sub_eq_of_eq_add ?_
    calc v = 2 ^ n * (2 * (v / 2 ^ n / 2) + v / 2 ^ n % 2 ^ 1) + v % 2 ^ n := by rw [hbit, hlow]
      _ = 2 ^ n * (2 * (v / 2 ^ n / 2)) + v % 2 ^ n + v / 2 ^ n % 2 ^ 1 * 2 ^ n := by ring
  rw [setBits, bits, hcut, hflag]
  ring

/-- Its bits. -/
theorem testBit_setBits_one (v n m : Nat) (b : Bool) :
    (setBits v n 1 (flag b)).testBit m = if m = n then b else v.testBit m := by
  have hlow : v % 2 ^ n < 2 ^ n := Nat.mod_lt _ (Nat.two_pow_pos n)
  have hsplit : v.testBit m = (2 ^ n * (v / 2 ^ n) + v % 2 ^ n).testBit m := by rw [Nat.div_add_mod]
  rw [setBits_one, hsplit, Nat.testBit_two_pow_mul_add _ hlow, Nat.testBit_two_pow_mul_add _ hlow]
  rcases Nat.lt_trichotomy m n with hm | rfl | hm
  · rw [if_pos hm, if_pos hm, if_neg hm.ne]
  · rw [if_neg (Nat.lt_irrefl m), if_pos rfl, Nat.sub_self, Nat.testBit_zero]
    cases b <;> simp [flag]
  · obtain ⟨k, hk⟩ : ∃ k, m - n = k + 1 := ⟨m - n - 1, by omega⟩
    have hflag : flag b < 2 := by cases b <;> decide
    have hhalf : (2 * (v / 2 ^ n / 2) + flag b) / 2 = v / 2 ^ n / 2 := by omega
    rw [if_neg hm.not_gt, if_neg hm.not_gt, if_neg hm.ne', hk, Nat.testBit_succ, Nat.testBit_succ, hhalf]

/-- The bits of the p registers after one of them is written. -/
theorem testBit_setP {n m : Nat} (hn : 1 ≤ n ∧ n < 8) (hm : m < 8) (b : Bool) (t : Thread) :
    (t.setP n b).p.toNat.testBit m = if m = n then b else t.p.toNat.testBit m := by
  have hmod : n % 8 = n := Nat.mod_eq_of_lt hn.2
  unfold Thread.setP
  rw [hmod, if_neg (by omega), BitVec.toNat_ofNat, Nat.testBit_mod_two_pow, decide_eq_true hm, Bool.true_and,
    testBit_setBits_one]

theorem Thread.pred_setP_same {n : Nat} (hn : 1 ≤ n ∧ n < 8) (b : Bool) (t : Thread) : (t.setP n b).pred n = b := by
  have hmod : n % 8 = n := Nat.mod_eq_of_lt hn.2
  rw [Thread.pred, hmod, if_neg (by omega), testBit_setP hn hn.2, if_pos rfl]

theorem Thread.pred_setP_other {n m : Nat} (hn : n < 8) (hm : m < 8) (hne : m ≠ n) (b : Bool) (t : Thread) :
    (t.setP n b).pred m = t.pred m := by
  rcases Nat.eq_zero_or_pos n with rfl | hpos
  · rfl
  · have hmod : m % 8 = m := Nat.mod_eq_of_lt hm
    rw [Thread.pred, Thread.pred, hmod, testBit_setP ⟨hpos, hn⟩ hm, if_neg hne]

/-- Settles O14: a register by its number, 0 or another. -/
theorem registerZeroAndWidths : Obligations.RegisterZeroAndWidths := fun t v b r _ =>
  ⟨t.reg_zero, t.setG_zero v, t.pred_zero, t.setP_zero b, t.reg_setG_same v, t.reg_setG_other v,
    fun _ hpos hlt => t.pred_setP_same ⟨hpos, hlt⟩ b, fun _ _ hn hm hne => t.pred_setP_other hn hm hne b, t.setG_p r v,
    fun n => t.setP_g n b⟩

/-! ### The result word -/

/-- Settles O20: the fields lie apart and together fill 63 bits. -/
theorem resultWordLayout : Obligations.ResultWordLayout := by
  refine ⟨fun st fl v hst hfl hv => ?_, rfl⟩
  intro x
  have hx : x = st + 256 * fl + 65536 * v := by
    show (resultWord st fl v).toNat = _
    rw [resultWord, Nat.mod_eq_of_lt hst, Nat.mod_eq_of_lt hfl, Nat.mod_eq_of_lt hv, BitVec.toNat_ofNat]
    omega
  omega

/-! ### Operands -/

/-- The low field of the immediate. -/
theorem immBits_low (f : Fields) (n : Nat) : immBits f 0 n = f.imm.toNat % 2 ^ n := by
  rw [immBits, bits, Nat.pow_zero, Nat.div_one]

/-- The amount of the shifts. -/
theorem shiftAmt_eq (t : Thread) (f : Fields) : shiftAmt t f = ((t.reg f.b).toNat + f.imm.toNat % 64) % 64 := by
  have hbits : immBits f 0 6 = f.imm.toNat % 64 := immBits_low f 6
  rw [shiftAmt, hbits]

/-- The conditions of CMP and CMPI, on the numbers the words stand for. -/
theorem condHolds_eq (n : Nat) (x y : Word) : condHolds n x y
    = if n = 0 then decide (x = y)
      else if n = 1 then decide (x ≠ y)
      else if n = 2 then decide (x.toNat < y.toNat)
      else if n = 3 then decide (y.toNat ≤ x.toNat)
      else if n = 4 then decide (x.toInt < y.toInt)
      else if n = 5 then decide (y.toInt ≤ x.toInt)
      else if n = 6 then decide (x.toNat % 256 = y.toNat % 256)
      else decide (x.toNat % 256 ≠ y.toNat % 256) := by
  have hlow : (x.setWidth 8 == y.setWidth 8) = decide (x.toNat % 256 = y.toNat % 256) := by
    simp [← BitVec.toNat_inj, Bool.beq_eq_decide_eq]
  match n with
  | 0 => rfl
  | 1 => exact (decide_not ..).symm
  | 2 => rfl
  | 3 => simp [condHolds, BitVec.ult, ← decide_not]
  | 4 => rfl
  | 5 => simp [condHolds, BitVec.slt, ← decide_not]
  | 6 => exact hlow
  | n + 7 =>
    have hhigh : condHolds (n + 7) x y = !(x.setWidth 8 == y.setWidth 8) := rfl
    simp [hhigh, hlow]

/-- The combinations of PSET. -/
theorem predOp_eq (n : Nat) (x y : Bool) : predOp n x y
    = if n = 0 then x && y else if n = 1 then x || y else if n = 2 then x != y else x && !y := by
  match n with
  | 0 => rfl
  | 1 => rfl
  | 2 => rfl
  | n + 3 => simp [predOp]

/-- LUI puts 24 bits above the low 40. -/
theorem luiWord_eq (x : Word) (m : BitVec 40) : (x &&& 0xFFFFFFFFFF#64) ||| (m.setWidth 64 <<< 40)
    = BitVec.ofNat 64 (x.toNat % 2 ^ 40 + m.toNat % 2 ^ 24 * 2 ^ 40) := by
  apply BitVec.eq_of_toNat_eq
  have hlow : (x &&& 0xFFFFFFFFFF#64).toNat = x.toNat % 2 ^ 40 := Nat.and_two_pow_sub_one_eq_mod x.toNat 40
  have hhigh : (m.setWidth 64 <<< 40).toNat = 2 ^ 40 * (m.toNat % 2 ^ 24) := by
    have hm := m.isLt
    rw [BitVec.toNat_shiftLeft, BitVec.toNat_setWidth, Nat.shiftLeft_eq]
    omega
  rw [BitVec.toNat_or, hlow, hhigh, Nat.or_comm,
    ← Nat.two_pow_add_eq_or_of_lt (Nat.mod_lt _ (by norm_num)), BitVec.toNat_ofNat]
  omega

/-! ### Results in registers -/

/-- Settles O12: each instruction writes the value of its row to one g register. -/
theorem scalarResults : Obligations.ScalarResults := by
  intro s w f t put
  have hamt : shiftAmt t f = ((t.reg f.b).toNat + f.imm.toNat % 64) % 64 := shiftAmt_eq t f
  refine ⟨fun h => aluOp_effect h rfl (by omega), fun h => aluOp_effect h rfl (by omega),
    fun h => aluOp_effect h rfl (by omega), fun h => aluOp_effect h rfl (by omega),
    fun h => aluOp_effect h rfl (by omega), fun h => aluOp_effect h rfl (by omega), fun h => ?_, fun h => ?_, fun h => ?_,
    fun h => aluOp_effect h rfl (by omega), fun h => aluOp_effect h rfl (by omega), fun h => ?_, fun h => ?_⟩
  · rw [← hamt]
    exact aluOp_effect h rfl (by omega)
  · rw [← hamt]
    exact aluOp_effect h rfl (by omega)
  · rw [← hamt]
    exact aluOp_effect h rfl (by omega)
  · rw [← luiWord_eq]
    exact aluOp_effect h rfl (by omega)
  · have hp : f.imm.toNat % 8 = immBits f 0 3 := (immBits_low f 3).symm
    rw [hp]
    exact aluOp_effect h rfl (by omega)

/-- Settles O13: each instruction writes its condition or combination to one p register. -/
theorem predicateResults : Obligations.PredicateResults := by
  intro s w f t put cond comb
  have hthree : immBits f 0 3 = f.imm.toNat % 8 := immBits_low f 3
  have htwo : immBits f 0 2 = f.imm.toNat % 4 := immBits_low f 2
  have hcond (x y : Word) : cond x y = condHolds (immBits f 0 3) x y := by rw [condHolds_eq, hthree]
  have hcomb (x y : Bool) : comb x y = predOp (immBits f 0 2) x y := by rw [predOp_eq, htwo]
  refine ⟨fun h => ?_, fun h => ?_, fun h => ?_⟩
  · rw [hcond]
    exact predicateOp_effect h rfl (by omega)
  · rw [hcond]
    exact predicateOp_effect h rfl (by omega)
  · rw [hcomb]
    exact predicateOp_effect (value := fun t => predOp (immBits f 0 2) (t.pred f.a.toNat) (t.pred f.b.toNat)) h rfl (by omega)

/-! ### Where a thread goes on -/

/-- An instruction that changes other things of its thread than what makes it ready, and goes on, changes nothing else. -/
theorem threadEffect_goOn {s : State} {w : Who} {f : Fields} {op c : Nat} (h : Issues s w f op c) (g : Thread → Thread)
    (k : Thread → Nat) {o : Host.Outcome State Fault Refusal}
    (ho : o = .next (onThread w (fun t => (g t).goOn (k t)) (bought w c s)))
    (hst : (g (issuedThread s w)).st = (thread s w).st := by rfl)
    (hwait : (g (issuedThread s w)).wait = (thread s w).wait := by rfl)
    (hstep : (g (issuedThread s w)).stepping = (thread s w).stepping := by rfl)
    (hstop : (g (issuedThread s w)).stopAfter = (thread s w).stopAfter := by rfl) :
    ThreadEffect w c s { g (issuedThread s w) with pc := k (issuedThread s w) } o := by
  have e := threadEffect_of_onThread h.balance ho
  rwa [goOn_of_issues h _ _ hst hwait hstep hstop] at e

/-- The end of an instruction of a thread that may issue, of the thread as it was issued. -/
theorem goOn_issuedThread {s : State} {w : Who} {f : Fields} {op c : Nat} (h : Issues s w f op c) (pc : Nat) :
    (issuedThread s w).goOn pc = { issuedThread s w with pc := pc } := goOn_of_issues h pc _ rfl rfl rfl rfl

/-- Settles O16: each instruction moves its thread after its checks. -/
theorem controlFlow : Obligations.ControlFlow := by
  intro s w f t
  have himm : f.imm.toNat % 8192 = immBits f 0 13 := (immBits_low f 13).symm
  refine ⟨fun h => ?_, fun h hx => ?_, fun h hstack => ?_, fun pc rest h hstack hpc => ?_, fun h => ?_, fun h => ?_⟩
  · rw [himm]
    exact threadEffect_goOn h id (fun _ => immBits f 0 13) (exec_pays (op := opB w f) h rfl (by omega) rfl)
  · have hexec : exec (.bp w f) s = .next (actBp w f (bought w 2 s)) := exec_pays (op := opBp w f) h rfl (by omega) rfl
    rw [actBp, thread_bought, if_neg (Nat.not_le.2 hx)] at hexec
    exact threadEffect_goOn h id (fun _ => (t.reg f.a).toNat) hexec
  · have hexec : exec (.call w f) s = .next (actCall w f (bought w 2 s)) :=
      exec_pays (op := opCall w f) h rfl (by omega) rfl
    rw [actCall, thread_bought, if_neg (Nat.not_le.2 hstack)] at hexec
    rw [himm]
    exact threadEffect_goOn h (fun t => { t with stack := (t.pc + 1) :: t.stack }) (fun _ => immBits f 0 13) hexec
  · have hexec : exec (.ret w f) s = .next (actRet w (bought w 2 s)) := exec_pays (op := opRet w f) h rfl (by omega) rfl
    rw [actRet, thread_bought, show (issuedThread s w).stack = pc :: rest from hstack] at hexec
    dsimp only at hexec
    rw [if_neg (Nat.not_le.2 hpc)] at hexec
    exact threadEffect_goOn h (fun t => { t with stack := rest }) (fun _ => pc) hexec
  · exact threadEffect_goOn h (fun t => { t with yielded := true }) (fun t => t.pc + 1)
      (exec_pays (op := opYield w f) h rfl (by omega) rfl)
  · exact threadEffect_goOn h id (fun t => t.pc + 1) (exec_pays (op := opNop w f) h rfl (by omega) rfl)

/-- Settles O17: each of these checks fails after the purchase. -/
theorem operandFaults : Obligations.OperandFaults := by
  intro s w f t x faults
  have haddr (h : x % 8 ≠ 0 ∨ 0x40000 ≤ x) : wordInScratch (memAddr (issuedThread s w) f) = false := by
    show (decide (x % 8 = 0) && decide (x < 0x40000)) = false
    simp only [Bool.and_eq_false_iff, decide_eq_false_iff_not]
    omega
  refine ⟨fun h hx => ?_, fun h hx => ?_, fun h hx => ?_, fun h hx => ?_, fun h hx => ?_⟩
  · refine faults_bought h _ ((exec_pays (op := opBp w f) h rfl (by omega) rfl).trans ?_)
    show Host.Outcome.next (actBp w f (bought w 2 s)) = _
    rw [actBp, thread_bought, if_pos hx]
  · refine faults_bought h _ ((exec_pays (op := opCall w f) h rfl (by omega) rfl).trans ?_)
    show Host.Outcome.next (actCall w f (bought w 2 s)) = _
    rw [actCall, thread_bought, if_pos hx]
  · refine faults_bought h _ ((exec_pays (op := opRet w f) h rfl (by omega) rfl).trans ?_)
    show Host.Outcome.next (actRet w (bought w 2 s)) = _
    rw [actRet, thread_bought, show (issuedThread s w).stack = [] from hx]
  · refine faults_bought h _ ((exec_pays (op := opLd w f) h rfl (by omega) rfl).trans ?_)
    show Host.Outcome.next (actLd w f (bought w 3 s)) = _
    rw [actLd, thread_bought, haddr hx, if_neg Bool.false_ne_true]
  · refine faults_bought h _ ((exec_pays (op := opSt w f) h rfl (by omega) rfl).trans ?_)
    show Host.Outcome.next (actSt w f (bought w 3 s)) = _
    rw [actSt, thread_bought, haddr hx, if_neg Bool.false_ne_true]

/-! ### Special registers, HALT and BRK -/

@[simp] theorem spend_beat (c : Nat) (s : State) : (spend c s).beat = s.beat := by
  unfold spend bump64
  split <;> rfl

@[simp] theorem spend_kcw (c : Nat) (s : State) : (spend c s).kcw = s.kcw := by
  unfold spend bump64
  split <;> rfl

/-- The special register of a selector. -/
theorem special_eq (s : State) (w : Who) (sel : Nat) : special s w sel
    = if sel = 0 then BitVec.ofNat 64 (thread s w).stream
      else if sel = 1 then BitVec.ofNat 64 (thread s w).ledger
      else if sel = 2 then BitVec.ofNat 64 (s.beat.pos % 2 ^ 44 + (if s.beat.frozen then 2 ^ 63 else 0))
      else BitVec.ofNat 64 (thread s w).ticket := by
  match sel with
  | 0 => rfl
  | 1 => rfl
  | 2 => simp [special, flag]
  | n + 3 => simp [special]

/-- Settles O21: RDS by the register of its selector, WRS by its one check. -/
theorem specialRegistersAndStream : Obligations.SpecialRegistersAndStream := by
  intro s w f t sel x
  have hsel : immBits f 0 2 = sel := immBits_low f 2
  have hexec (h : Issues s w f 0x21 2) : exec (.wrs w f) s = .next (actWrs w f (bought w 2 s)) :=
    exec_pays (op := opWrs w f) h rfl (by omega) rfl
  refine ⟨fun h => ?_, fun h h0 hx => ?_, fun h h0 => ?_⟩
  · have hvalue := special_eq (bought w 2 s) w sel
    rw [thread_bought, spend_beat, noteIssue_beat] at hvalue
    rw [← hvalue, ← hsel]
    exact writes_putG h _ (exec_pays (op := opRds w f) h rfl (by omega) rfl)
  · have hact : ¬(immBits f 0 2 ≠ 0 ∨ 4096 ≤ x) := by omega
    have he := hexec h
    rw [actWrs, thread_bought, if_neg hact] at he
    obtain ⟨hthread, hrest⟩ := endOwned_bought h.balance
      (fun t : Thread => { t with stream := x, ledger := 0 }.goOn (t.pc + 1)) 0x70
    have hgoes := goOn_of_issues h ((issuedThread s w).pc + 1) { issuedThread s w with stream := x, ledger := 0 } rfl rfl rfl rfl
    exact ⟨_, he, hthread.trans hgoes, hrest⟩
  · refine faults_bought h _ ((hexec h).trans (congrArg Host.Outcome.next (if_pos (Or.inl ?_))))
    rwa [hsel]

/-- Settles O23: HALT ends its thread after the purchase, BRK by the debug scope. -/
theorem haltAndBreak : Obligations.HaltAndBreak := by
  intro s w f t
  have hexec (h : Issues s w f 0x1E 2) : exec (.brk w f) s = .next (actBrk w (bought w 2 s)) :=
    exec_pays (op := opBrk w f) h rfl (by omega) rfl
  have hscope : bit (bought w 2 s).kcw.scopes 0 = decide (s.kcw.scopes % 2 = 1) := by
    rw [spend_kcw, noteIssue_kcw, bit, Nat.testBit_zero]
  refine ⟨fun h => ?_, fun h hopen => ?_, fun h hclosed => ?_⟩
  · refine ⟨_, exec_pays (op := opHalt w f) h rfl (by omega) rfl, ?_⟩
    obtain ⟨hthread, hrest⟩ := endOwned_bought h.balance (fun t => { t.goOn (t.pc + 1) with st := .halted }) 0x70
    rw [goOn_issuedThread h] at hthread
    exact ⟨hthread, hrest⟩
  · have he := threadEffect_of_onThread (f := fun t => { t.goOn (t.pc + 1) with st := .debug }) h.balance
      ((hexec h).trans (congrArg Host.Outcome.next (if_pos (by rw [hscope, hopen]; rfl))))
    rwa [goOn_issuedThread h] at he
  · exact threadEffect_goOn h id (fun t => t.pc + 1)
      ((hexec h).trans (congrArg Host.Outcome.next (if_neg (by rw [hscope, hclosed]; decide))))

end Sys2Proof.Machine
end

section
/-!
PROOFS. The instructions that ask: WAITT, TPOLL, WAITB, PRICE, PICK and DNEXT.
-/

namespace Sys2Proof.Machine

/-! ### What a purchase leaves of what they ask -/

@[simp] theorem spend_day (c : Nat) (s : State) : (spend c s).day = s.day := by
  unfold spend bump64
  split <;> rfl

theorem priceNow_bought (s : State) (w : Who) (p c : Nat) : priceNow (bought w p s) c = priceNow s c := by
  have hscale (p : Nat) (s : State) : (spend p s).purse.scale = s.purse.scale := by
    unfold spend bump64
    split <;> rfl
  rw [priceNow, hscale, noteIssue_purse, priceNow]

theorem ticket?_bought (s : State) (w : Who) (p c k : Nat) : ticket? (bought w p s) c k = ticket? s c k :=
  ticket?_of_tickets (by rw [spend_tickets, noteIssue_tickets]) c k

theorem beat_bought (s : State) (w : Who) (p : Nat) : (bought w p s).beat = s.beat := by rw [spend_beat, noteIssue_beat]

theorem day_bought (s : State) (w : Who) (p : Nat) : (bought w p s).day = s.day := by rw [spend_day, noteIssue_day]

/-! ### Tickets -/

/-- A ticket issued since its CLERK started is known to WAITT and TPOLL. -/
theorem knownTicket_some {s : State} {c k : Nat} {x : Ticket} (hk : k ≠ 0xFFF) (hx : ticket? s c k = some x)
    (hold : x.old = false) : knownTicket s c k = some x := by
  rw [knownTicket, if_neg hk, hx]
  exact if_neg (by rw [hold]; exact Bool.false_ne_true)

/-- Another ticket is not. -/
theorem knownTicket_none {s : State} {c k : Nat} (h : k = 0xFFF ∨ ∀ x, ticket? s c k = some x → x.old = true) :
    knownTicket s c k = none := by
  unfold knownTicket
  split
  · rfl
  next hk =>
    split
    next x hx => exact if_pos (h.resolve_left hk x hx)
    · rfl

theorem exec_waitt {s : State} {w : Who} {f : Fields} (h : Issues s w f 0x44 2) :
    exec (.waitt w f) s = .next (actWaitt w f (bought w 2 s)) := exec_pays (op := opWaitt w f) h rfl (by omega) rfl

theorem exec_tpoll {s : State} {w : Who} {f : Fields} (h : Issues s w f 0x46 2) :
    exec (.tpoll w f) s = .next (actTpoll w f (bought w 2 s)) := exec_pays (op := opTpoll w f) h rfl (by omega) rfl

theorem actWaitt_known {s : State} {w : Who} {f : Fields} {x : Ticket}
    (h : knownTicket s w.clerk.toNat (namedTicket (thread s w) f) = some x) :
    actWaitt w f s = if x.done then putG w f.d (ticketWord x) s else waitRetry w (.waitt w f) s := by
  simp only [actWaitt, h]

theorem actWaitt_unknown {s : State} {w : Who} {f : Fields}
    (h : knownTicket s w.clerk.toNat (namedTicket (thread s w) f) = none) :
    actWaitt w f s = putStatus w f.d St.BAD_OP s := by
  simp only [actWaitt, h]

theorem actTpoll_known {s : State} {w : Who} {f : Fields} {x : Ticket}
    (h : knownTicket s w.clerk.toNat (namedTicket (thread s w) f) = some x) :
    actTpoll w f s = putG w f.d (if x.done then ticketWord x else nvWord) s := by
  simp only [actTpoll, h]

theorem actTpoll_unknown {s : State} {w : Who} {f : Fields}
    (h : knownTicket s w.clerk.toNat (namedTicket (thread s w) f) = none) :
    actTpoll w f s = putStatus w f.d St.BAD_OP s := by
  simp only [actTpoll, h]

/-- Settles O27: both read the ticket that is known, and tell a thread that none is. -/
theorem ticketInstructions : Obligations.TicketInstructions := by
  intro s w f t k unknown
  have hnamed : namedTicket (thread (bought w 2 s) w) f = k := congrArg (namedTicket · f) (thread_bought ..)
  refine ⟨fun x hk hx hold => ?_, fun hunknown => ?_⟩
  · have hknown : knownTicket (bought w 2 s) w.clerk.toNat (namedTicket (thread (bought w 2 s) w) f) = some x := by
      rw [hnamed]
      exact knownTicket_some hk ((ticket?_bought ..).trans hx) hold
    have hwaitt := actWaitt_known hknown
    have htpoll := actTpoll_known hknown
    refine ⟨fun h hdone => writes_putG h _ ?_, fun h hdone => waits_onThread h _ ?_, fun h hdone => writes_putG h _ ?_,
      fun h hdone => writes_putG h _ ?_⟩
    · rw [exec_waitt h, hwaitt, if_pos hdone, ticketWord]
    · rw [exec_waitt h, hwaitt, hdone, if_neg Bool.false_ne_true, waitRetry]
    · rw [exec_tpoll h, htpoll, if_pos hdone, ticketWord]
    · rw [exec_tpoll h, htpoll, hdone, if_neg Bool.false_ne_true]
  · have hknown : knownTicket (bought w 2 s) w.clerk.toNat (namedTicket (thread (bought w 2 s) w) f) = none := by
      rw [hnamed]
      exact knownTicket_none (hunknown.imp id fun hall x hx => hall x ((ticket?_bought ..).symm.trans hx))
    exact ⟨fun h => writes_putG h _ ((exec_waitt h).trans (congrArg _ (actWaitt_unknown hknown))),
      fun h => writes_putG h _ ((exec_tpoll h).trans (congrArg _ (actTpoll_unknown hknown)))⟩

/-! ### Beats -/

/-- Settles O28: the checks of WAITB in their order. -/
theorem waitForABeat : Obligations.WaitForABeat := by
  intro s w f x h
  have hexec : exec (.waitb w f) s = .next (actWaitb w f (bought w 2 s)) :=
    exec_pays (op := opWaitb w f) h rfl (by omega) rfl
  rw [actWaitb, thread_bought, beat_bought] at hexec
  change exec (.waitb w f) s = .next (if 2 ^ 44 ≤ x then _ else _) at hexec
  refine ⟨fun hlarge => ?_, fun hx hfrozen => ?_, fun hrun hx hpos => ?_, fun hrun hx hpos => ?_⟩
  · rw [if_pos hlarge] at hexec
    exact writes_putG h _ hexec
  · rw [if_neg (Nat.not_le.2 hx), if_pos hfrozen] at hexec
    exact writes_putG h _ hexec
  · rw [if_neg (Nat.not_le.2 hx), hrun, if_neg Bool.false_ne_true, if_pos hpos] at hexec
    exact writes_putG h _ hexec
  · rw [if_neg (Nat.not_le.2 hx), hrun, if_neg Bool.false_ne_true, if_neg (Nat.not_le.2 hpos)] at hexec
    exact waits_onThread h _ hexec

/-! ### Prices -/

theorem exec_price {s : State} {w : Who} {f : Fields} (h : Issues s w f 0x78 2) :
    exec (.price w f) s = .next (actPrice w f (bought w 2 s)) := exec_pays (op := opPrice1 w f) h rfl (by omega) rfl

/-- PRICE of a code with a base price. -/
theorem price_known {s : State} {w : Who} {f : Fields} {c : Nat} (h : Issues s w f 0x78 2)
    (hc : askedPrice (immBits f 0 9) = some c) :
    Writes w f 2 s (resultWord St.OK 0 (priceNow s c)) (exec (.price w f) s) := by
  refine writes_putG h _ ?_
  simp only [exec_price h, actPrice, hc, priceNow_bought]

/-- PRICE of any other code. -/
theorem price_unknown {s : State} {w : Who} {f : Fields} (h : Issues s w f 0x78 2)
    (hc : askedPrice (immBits f 0 9) = none) : Writes w f 2 s (resultWord St.BAD_OP 0 0) (exec (.price w f) s) := by
  refine writes_putG h _ ?_
  simp only [exec_price h, actPrice, hc, putStatus]

/-- Settles O29: the base price of the code, in force. -/
theorem priceInForce : Obligations.PriceInForce := by
  intro s w f k h
  have hk : immBits f 0 9 = k := immBits_low f 9
  refine ⟨fun hdraft => ?_, fun c hother hc => ?_, fun hother hnone => ?_⟩
  · exact price_known h (by rw [hk, askedPrice, if_pos hdraft])
  · exact price_known h (by rw [hk, askedPrice, if_neg hother, hc])
  · exact price_unknown h (by rw [hk, askedPrice, if_neg hother, hnone])

/-! ### A block stored in scratch -/

/-- A run of scratch is what its bytes are. -/
theorem scratchRead_eq {s : State} {c x : Nat} {bs : List Byte}
    (h : ∀ i (hi : i < bs.length), scratchByte s c (x + i) = bs[i]) : scratchRead s c x bs.length = bs := by
  apply List.ext_getElem (scratchRead_length ..)
  intro i hi hbs
  rw [scratchRead_getElem, h i hbs]

/-- A block that the last instruction issued stores reads back, and every other byte of scratch reads as before. -/
theorem scratch_stored {s b : State} {c x no : Nat} {bs : List Byte} (hx : x + bs.length ≤ 0x40000)
    (hstores : ∀ e ∈ b.stores, e.no ≤ no) (hscratch : b.scratch = s.scratch) :
    scratchRead (storeScratch no c x bs b) c x bs.length = bs
      ∧ ∀ d y, y < 0x40000 → (d ≠ c ∨ y < x ∨ x + bs.length ≤ y) →
        scratchByte (storeScratch no c x bs b) d y = scratchByte s d y := by
  refine ⟨scratchRead_eq fun i hi => ?_, fun d y hy hd => ?_⟩
  · exact scratchByte_storeScratch_same b hi (show x + i < 0x40000 by omega) hstores
  · rw [scratchByte_storeScratch_other b hy hd, scratchByte, hscratch, scratchByte]

@[simp] theorem thread_storeScratch (no c x : Nat) (bs : List Byte) (w : Who) (s : State) :
    thread (storeScratch no c x bs s) w = thread s w := rfl

theorem scratchByte_putG (w : Who) (d : BitVec 4) (v : Word) (s : State) (c x : Nat) :
    scratchByte (putG w d v s) c x = scratchByte s c x := rfl

theorem scratchByte_putStatus (w : Who) (d : BitVec 4) (st : Nat) (s : State) (c x : Nat) :
    scratchByte (putStatus w d st s) c x = scratchByte s c x := rfl

theorem scratchRead_putG (w : Who) (d : BitVec 4) (v : Word) (s : State) (c x n : Nat) :
    scratchRead (putG w d v s) c x n = scratchRead s c x n := scratchRead_congr (s := s) (t := putG w d v s) rfl c x n

theorem scratchRead_putStatus (w : Who) (d : BitVec 4) (st : Nat) (s : State) (c x n : Nat) :
    scratchRead (putStatus w d st s) c x n = scratchRead s c x n := scratchRead_putG ..

/-- A result written, in a state that keeps the thread as it was issued. -/
theorem thread_putG_of_issues {s b : State} {w : Who} {f : Fields} {op c : Nat} (h : Issues s w f op c)
    (hb : thread b w = issuedThread s w) (d : BitVec 4) (v : Word) :
    thread (putG w d v b) w = { (issuedThread s w).setG d v with pc := (thread s w).pc + 1 } := by
  rw [putG, thread_onThread_same, hb]
  exact goOn_setG_of_issues h _ d v

/-! ### PICK -/

/-- A number written lowest byte first and read back. -/
theorem ofLE_toLE (n v : Nat) : ofLE (toLE n v) = v % 256 ^ n := by
  induction n generalizing v with
  | zero => rw [Nat.pow_zero, Nat.mod_one]; rfl
  | succ n ih =>
    have hsplit : v % (256 * 256 ^ n) = v % 256 + 256 * (v / 256 % 256 ^ n) := Nat.mod_mul
    have hpow : 256 ^ (n + 1) = 256 * 256 ^ n := Nat.pow_succ'
    rw [toLE, ofLE, ih, BitVec.toNat_ofNat, hpow, hsplit]

@[simp] theorem pickBytes_length (f : Fields) (len : Nat) : (pickBytes f len).length = 64 := by simp [pickBytes]

/-- The fields of the immediate that PICK reads. -/
theorem pick_fields (f : Fields) : immBits f 0 2 = f.imm.toNat % 4 ∧ immBits f 2 7 = f.imm.toNat / 4 % 128
    ∧ immBits f 9 4 = f.imm.toNat / 512 % 16 ∧ immBits f 13 1 = f.imm.toNat / 8192 % 2 :=
  ⟨immBits_low f 2, rfl, rfl, rfl⟩

/-- The descriptor of PICK, word by word. -/
theorem pickBytes_words (f : Fields) {len : Nat} (hlen : len ≤ 1048576) :
    leAt (pickBytes f len) 0 8 = f.imm.toNat % 4 + (if f.imm.toNat % 2 = 1 then f.imm.toNat / 4 % 128 else 1) * 2 ^ 2
        + f.imm.toNat / 512 % 16 * 2 ^ 9 + f.imm.toNat / 8192 % 2 * 2 ^ 13 + len * 2 ^ 16
      ∧ leAt (pickBytes f len) 8 8 = 0x3F800000 ∧ ∀ j (hj : j < (pickBytes f len).length), 16 ≤ j → (pickBytes f len)[j] = 0 := by
  obtain ⟨hmode, hk, harith, hbit⟩ := pick_fields f
  have hparity : f.imm.toNat % 4 % 2 = f.imm.toNat % 2 := by omega
  have hle (n v : Nat) : (toLE n v).length = n := toLE_length n v
  unfold pickBytes
  dsimp only
  rw [hmode, hk, harith, hbit, hparity]
  refine ⟨?_, ?_, fun j hj h16 => ?_⟩
  · rw [leAt, List.drop_zero, List.append_assoc, List.take_left' (hle ..), ofLE_toLE]
    split <;> omega
  · rw [leAt, List.append_assoc, List.drop_left' (hle ..), List.take_left' (hle ..), ofLE_toLE]
    norm_num
  · rw [List.getElem_append_right (by simp; omega), List.getElem_replicate]

/-- PICK refuses by the first of its checks that fails. -/
theorem pickRefusal_bad {f : Fields} {x len : Nat}
    (h : 9 < f.imm.toNat / 512 % 16 ∨ (f.imm.toNat % 2 = 1 ∧ (f.imm.toNat / 4 % 128 = 0 ∨ 64 < f.imm.toNat / 4 % 128))) :
    pickRefusal f x len = some St.BAD_OP := by
  obtain ⟨hmode, hk, harith, _⟩ := pick_fields f
  have hparity : f.imm.toNat % 4 % 2 = f.imm.toNat % 2 := by omega
  unfold pickRefusal
  dsimp only
  rw [hmode, hk, harith, hparity]
  split
  · rfl
  next harith => exact if_pos (h.resolve_left harith)

theorem pickRefusal_good {f : Fields} {x len : Nat}
    (h : ¬(9 < f.imm.toNat / 512 % 16 ∨ (f.imm.toNat % 2 = 1 ∧ (f.imm.toNat / 4 % 128 = 0 ∨ 64 < f.imm.toNat / 4 % 128)))) :
    pickRefusal f x len = if len = 0 ∨ 1048576 < len then some St.LEN
      else if !blockInScratch x then some St.BOUNDS else none := by
  obtain ⟨hmode, hk, harith, _⟩ := pick_fields f
  have hparity : f.imm.toNat % 4 % 2 = f.imm.toNat % 2 := by omega
  unfold pickRefusal
  dsimp only
  rw [hmode, hk, harith, hparity, if_neg (fun hbad => h (Or.inl hbad)), if_neg (fun hbad => h (Or.inr hbad))]

/-- A block that is aligned and lies in scratch. -/
theorem blockInScratch_of {x : Nat} (h64 : x % 64 = 0) (hx : x + 64 ≤ 0x40000) : (!blockInScratch x) = false := by
  rw [blockInScratch_eq]
  exact decide_eq_false (by omega)

theorem exec_pick {s : State} {w : Who} {f : Fields} (h : Issues s w f 0x63 3) :
    exec (.pick w f) s = .next (actPick w f (bought w 3 s)) := exec_pays (op := opPick w f) h rfl (by omega) rfl

/-- PICK that its checks refuse. -/
theorem exec_pick_refused {s : State} {w : Who} {f : Fields} {st : Nat} (h : Issues s w f 0x63 3)
    (hr : pickRefusal f ((issuedThread s w).reg f.b).toNat ((issuedThread s w).reg f.a).toNat = some st) :
    exec (.pick w f) s = .next (putStatus w f.d st (bought w 3 s)) := by
  simp only [exec_pick h, actPick, thread_bought, hr]

/-- PICK that its checks let through. -/
theorem exec_pick_stores {s : State} {w : Who} {f : Fields} (h : Issues s w f 0x63 3)
    (hr : pickRefusal f ((issuedThread s w).reg f.b).toNat ((issuedThread s w).reg f.a).toNat = none) :
    exec (.pick w f) s = .next (putStatus w f.d St.OK (storeScratch (issuedThread s w).no w.clerk.toNat
      ((issuedThread s w).reg f.b).toNat (pickBytes f ((issuedThread s w).reg f.a).toNat) (bought w 3 s))) := by
  simp only [exec_pick h, actPick, thread_bought, hr]

/-- Settles O30: the checks in their order, and the block that is stored when none refuses. -/
theorem pickWritesADescriptor : Obligations.PickWritesADescriptor := by
  intro s w f t c i x len k bad word0 h hstores
  refine ⟨fun hgood hlow hhigh h64 hx => ?_, fun hbad => ?_, fun hgood hlen => ?_, fun hgood hlow hhigh hx => ?_⟩
  · have hr : pickRefusal f x len = none := by
      rw [pickRefusal_good hgood, if_neg (by omega), blockInScratch_of h64 hx]
      rfl
    obtain ⟨hread, hother⟩ := scratch_stored (s := s) (b := bought w 3 s) (c := c) (x := x) (bs := pickBytes f len)
      (by rwa [pickBytes_length]) (stores_bought_le hstores w 3) (by rw [spend_scratch, noteIssue_scratch])
    rw [pickBytes_length] at hread hother
    obtain ⟨hword0, hword1, hzero⟩ := pickBytes_words f hhigh
    have hexec := exec_pick_stores h hr
    have hframe := stored_frame (w := w) h.balance (issuedThread s w).no x (pickBytes f len)
      (fun t => (t.setG f.d (resultWord St.OK 0 0)).goOn (t.pc + 1))
    have hbyte (j : Nat) (hj : j < (pickBytes f len).length) : scratchByte
        (storeScratch (issuedThread s w).no c x (pickBytes f len) (bought w 3 s)) c (x + j) = (pickBytes f len)[j] :=
      scratchByte_storeScratch_same _ hj (by rw [pickBytes_length] at hj; show x + j < 0x40000; omega)
        (stores_bought_le hstores w 3)
    have hthread : thread (storeScratch (issuedThread s w).no c x (pickBytes f len) (bought w 3 s)) w = issuedThread s w :=
      (thread_storeScratch ..).trans (thread_bought s w 3)
    refine ⟨_, hexec, ?_, hframe, ?_, ?_, fun j hj16 hj => ?_, fun d y hy hd => ?_⟩
    · exact thread_putG_of_issues h hthread f.d _
    · rw [scratchRead_putStatus, hread, hword0]
    · rw [scratchRead_putStatus, hread, hword1]
    · have hj' : j < (pickBytes f len).length := by rwa [pickBytes_length]
      rw [scratchByte_putStatus, hbyte j hj', hzero j hj' hj16]
    · rw [scratchByte_putStatus, hother d y hy hd]
  · exact writes_putG h _ (exec_pick_refused h (pickRefusal_bad hbad))
  · exact writes_putG h _ (exec_pick_refused h (st := St.LEN) (by rw [pickRefusal_good hgood, if_pos hlen]))
  · have hlen : ¬(len = 0 ∨ 1048576 < len) := by omega
    refine writes_putG h _ (exec_pick_refused h (st := St.BOUNDS) ?_)
    rw [pickRefusal_good hgood, if_neg hlen, blockInScratch_eq, decide_eq_true hx]
    rfl

/-! ### The next DAYBOOK entry -/

/-- Of two entries the one of the earlier step, and of entries of one step the one that came first. -/
def earlierEntry : Option DayEntry → DayEntry → Option DayEntry
  | none, e => some e
  | some b, e => if e.step < b.step then some e else some b

theorem nextEntry_eq (q : List DayEntry) : nextEntry q
    = match q.find? (fun e => e.replay) with
      | some e => some e
      | none => q.foldl earlierEntry none := by
  have hfold : (fun (best : Option DayEntry) (e : DayEntry) => match best with
      | none => some e
      | some b => if e.step < b.step then some e else some b) = earlierEntry := by
    funext best e
    cases best <;> rfl
  rw [← hfold]
  rfl

/-- The entry kept on the way through a queue is one of those seen, and none seen is of an earlier step. -/
theorem foldl_earlierEntry (q : List DayEntry) (b : DayEntry) :
    ∃ e ∈ b :: q, q.foldl earlierEntry (some b) = some e ∧ ∀ a ∈ b :: q, e.step ≤ a.step := by
  induction q generalizing b with
  | nil => exact ⟨b, by simp, rfl, by simp⟩
  | cons a q ih =>
    by_cases hstep : a.step < b.step
    · obtain ⟨e, he, hfold, hleast⟩ := ih a
      have hea := hleast a List.mem_cons_self
      refine ⟨e, List.mem_cons_of_mem _ he, by rwa [List.foldl_cons, earlierEntry, if_pos hstep], ?_⟩
      simp only [List.forall_mem_cons] at hleast ⊢
      exact ⟨by omega, hleast⟩
    · obtain ⟨e, he, hfold, hleast⟩ := ih b
      refine ⟨e, ?_, by rwa [List.foldl_cons, earlierEntry, if_neg hstep], ?_⟩
      · simp only [List.mem_cons] at he ⊢
        tauto
      · simp only [List.forall_mem_cons] at hleast ⊢
        exact ⟨hleast.1, by omega, hleast.2⟩

/-- The next entry of a queue is a replayed one where there is one, and else one of the earliest step. -/
theorem nextEntry_spec {q : List DayEntry} (h : q ≠ []) : ∃ e ∈ q, nextEntry q = some e
    ∧ ((∃ b ∈ q, b.replay = true) → e.replay = true) ∧ ((∀ b ∈ q, b.replay = false) → ∀ b ∈ q, e.step ≤ b.step) := by
  rw [nextEntry_eq]
  cases hfind : q.find? (fun e => e.replay) with
  | some e =>
    have hreplay : e.replay = true := List.find?_some hfind
    have he := List.mem_of_find?_eq_some hfind
    exact ⟨e, he, rfl, fun _ => hreplay, fun hall => absurd (hall e he) (by rw [hreplay]; decide)⟩
  | none =>
    have hnone := List.find?_eq_none.1 hfind
    obtain ⟨b, q, rfl⟩ := List.exists_cons_of_ne_nil h
    obtain ⟨e, he, hfold, hleast⟩ := foldl_earlierEntry q b
    exact ⟨e, he, hfold, fun ⟨a, ha, hreplay⟩ => absurd hreplay (hnone a ha), fun _ => hleast⟩

/-! ### DNEXT -/

/-- What DNEXT does after its purchase: those that wait and were issued before take their entries first. -/
theorem exec_dnext {s : State} {w : Who} {f : Fields} (h : Issues s w f 0x41 5) : exec (.dnext w f) s
    = .next (takeEntry w f (((waitingDnexts (bought w 5 s) w.clerk.toNat).filter
        (fun v => decide ((thread (bought w 5 s) v.1).no < s.issueNo + 1))).foldl
      (fun z v => takeEntry v.1 v.2 z) (bought w 5 s))) := by
  have hexec := exec_pays (i := .dnext w f) (op := opDnext w f) h rfl (by omega) rfl
  have hact : (opDnext w f).act = actDnext w f := by rw [opDnext, plainOp, pricedOp]
  have hno : (thread (bought w 5 s) w).no = s.issueNo + 1 := congrArg Thread.no (thread_bought s w 5)
  rw [hexec, hact, actDnext, hno]

/-- Where no thread of a CLERK waits in DNEXT there is none to go before. -/
theorem waitingDnexts_nil {s : State} {c : BitVec 3}
    (h : ∀ v g k, v.clerk = c → (thread s v).wait ≠ .retry (.dnext g k)) : waitingDnexts s c.toNat = [] := by
  refine List.filterMap_eq_nil_iff.2 fun v hv => ?_
  have hclerk := (mem_inIssueOrder_whos s c v).1 hv
  split
  next g k hwait => exact absurd hwait (h v g k hclerk)
  · rfl

/-- The thread that issues does not wait, and its purchase moves no other. -/
theorem waitingDnexts_bought {s : State} {w : Who} {f : Fields} {op p c : Nat} (h : Issues s w f op c)
    (hnone : ∀ v g k, v.clerk = w.clerk → (thread s v).wait ≠ .retry (.dnext g k)) :
    waitingDnexts (bought w p s) w.clerk.toNat = [] := by
  obtain ⟨_, _, hready, _⟩ := h
  refine waitingDnexts_nil fun v g k hclerk => ?_
  by_cases hv : Who.key v = Who.key w
  · have hthread : thread (bought w p s) v = issuedThread s w := by rw [thread, hv, ← thread, thread_bought]
    rw [hthread, show (issuedThread s w).wait = .ready from hready]
    exact Wait.noConfusion
  · rw [thread_bought_other s p hv]
    exact hnone v g k hclerk

/-- An entry taken from a CLERK's queue. -/
def entryTaken (c : Nat) (e : DayEntry) (s : State) : State :=
  { s with day := { s.day with queues := Tab.set [] s.day.queues c ((Tab.get [] s.day.queues c).erase e) } }

theorem takeEntry_some {s : State} {w : Who} {f : Fields} {e : DayEntry}
    (he : nextEntry (Tab.get [] s.day.queues w.clerk.toNat) = some e) : takeEntry w f s
      = if !blockInScratch ((thread s w).reg f.a).toNat then faultThread w St.BOUNDS s
        else putG w f.d (resultWord St.OK (if e.replay then 8 else 0) (entryStream e.data + leAt e.data 0 1 * 2 ^ 12))
          (storeScratch (thread s w).no w.clerk.toNat ((thread s w).reg f.a).toNat e.data
            (entryTaken w.clerk.toNat e s)) := by
  unfold takeEntry
  dsimp only
  rw [he]
  rfl

theorem takeEntry_none {s : State} {w : Who} {f : Fields} (hq : Tab.get [] s.day.queues w.clerk.toNat = []) :
    takeEntry w f s = if bit f.imm.toNat 0 then waitRetry w (.dnext w f) s else putG w f.d nvWord s := by
  unfold takeEntry
  dsimp only
  rw [hq]
  rfl

/-- Nothing but the queue is different when an entry is taken and stored. -/
theorem entryTaken_frame {s : State} {w : Who} {c : Nat} (h : priceNow s c ≤ s.purse.balance) (e : DayEntry)
    (no x : Nat) (bs : List Byte) (g : Thread → Thread) : ThreadOrScratch w s
      { onThread w g (storeScratch no w.clerk.toNat x bs (entryTaken w.clerk.toNat e (bought w c s))) with day := s.day } := by
  have hday (b : State) (d : DayState) (hb : b.day = d) :
      { onThread w g (storeScratch no w.clerk.toNat x bs (entryTaken w.clerk.toNat e b)) with day := d }
        = onThread w g (storeScratch no w.clerk.toNat x bs b) := by
    subst hb
    rfl
  rw [hday _ _ (day_bought s w c)]
  exact stored_frame h no x bs g

/-- Settles O31: DNEXT by the entry that is next in its queue. -/
theorem nextDaybookEntry : Obligations.NextDaybookEntry := by
  intro s w f t c x q
  refine ⟨fun h => ⟨_, bought_spec w 5 s h.balance, exec_dnext h⟩, fun h hstores hnone => ?_⟩
  have hexec : exec (.dnext w f) s = .next (takeEntry w f (bought w 5 s)) := by
    rw [exec_dnext h, waitingDnexts_bought h hnone]
    rfl
  have hqueue : Tab.get [] (bought w 5 s).day.queues w.clerk.toNat = q := by rw [day_bought]
  refine ⟨fun e he hlen h64 hx => ?_, nextEntry_spec, fun hq hx => ?_, fun hq hclear => ?_, fun hq hset => ?_⟩
  · rw [takeEntry_some (hqueue ▸ he), thread_bought, show (!blockInScratch x) = false from blockInScratch_of h64 hx,
      if_neg Bool.false_ne_true] at hexec
    obtain ⟨hread, hother⟩ := scratch_stored (s := s) (b := entryTaken c e (bought w 5 s)) (c := c) (x := x) (bs := e.data)
      (by rwa [hlen]) (stores_bought_le hstores w 5) (by rw [entryTaken, spend_scratch, noteIssue_scratch])
    rw [hlen] at hread hother
    have hthread : thread (storeScratch (issuedThread s w).no c x e.data (entryTaken c e (bought w 5 s))) w
        = issuedThread s w := (thread_storeScratch ..).trans (thread_bought s w 5)
    have hqueues (b : State) : Tab.get [] (entryTaken c e b).day.queues c = (Tab.get [] b.day.queues c).erase e :=
      Tab.get_set_same ..
    have hothers (b : State) (d : Nat) (hd : d ≠ c) :
        Tab.get [] (entryTaken c e b).day.queues d = Tab.get [] b.day.queues d := Tab.get_set_other _ _ _ hd
    refine ⟨_, hexec, thread_putG_of_issues h hthread f.d _, ?_, fun d y hy hd => ?_, ?_, fun d hd => ?_,
      entryTaken_frame h.balance e _ x e.data _⟩
    · rw [scratchRead_putG, hread]
    · rw [scratchByte_putG, hother d y hy hd]
    · exact (hqueues _).trans (by rw [hqueue])
    · exact (hothers _ d hd).trans (by rw [day_bought])
  · obtain ⟨e, _, he, _⟩ := nextEntry_spec hq
    have hblock : (!blockInScratch x) = true := (blockInScratch_eq x).trans (decide_eq_true hx)
    rw [takeEntry_some (hqueue ▸ he), thread_bought, if_pos hblock] at hexec
    exact faults_bought h _ hexec
  · have hbit : bit f.imm.toNat 0 = false := by rw [bit, Nat.testBit_zero, hclear]; rfl
    rw [takeEntry_none (hqueue.trans hq), hbit, if_neg Bool.false_ne_true] at hexec
    exact writes_putG h _ hexec
  · have hbit : bit f.imm.toNat 0 = true := by rw [bit, Nat.testBit_zero, hset]; rfl
    rw [takeEntry_none (hqueue.trans hq), hbit, if_pos rfl] at hexec
    exact waits_onThread h _ hexec

end Sys2Proof.Machine
end

section
/-!
PROOFS. Issue: every instruction is bought and takes effect, waits for its coins, or runs past the end of its program; and
a round of the CLERKS issues the instructions of their programs in turn.
-/

namespace Sys2Proof.Machine

/-! ### Bills -/

/-- A bound of one choice, and of the others. -/
theorem le_of_ite_some {p : Prop} [Decidable p] {a n : Nat} {x : Option Nat} (ha : a ≤ n) (hx : ∀ c, x = some c → c ≤ n)
    (c : Nat) (h : (if p then some a else x) = some c) : c ≤ n := by
  split at h
  · cases h
    exact ha
  · exact hx c h

/-- No opcode has a base price above that of POST, PAY and SETTLE (Table 2.6). -/
theorem opPrice_le (k : Nat) : ∀ c, opPrice k = some c → c ≤ 250 := by
  unfold opPrice
  iterate 19 refine le_of_ite_some (by decide) ?_
  exact fun c h => nomatch h

/-- The bill of every instruction is below the bound above which a second base price would stand. -/
theorem bill_lt {s : State} {i : Instr} {op : Nat} {w : Who} {f : Fields} {o : Op} {c : Nat}
    (h : lambiopParts i = some (op, w, f)) (ho : opOf s i = some o) (hb : o.bill = [(c, 1)]) : c < 65536 := by
  have hplain (k : Nat) : (opPrice k).getD 0 < 65536 := by
    cases hk : opPrice k with
    | none => decide
    | some c => exact Nat.lt_of_le_of_lt (opPrice_le k c hk) (by decide)
  have hlines : lineCents f < 65536 := by
    have hn : immBits f 0 7 < 128 := Nat.mod_lt _ (by decide)
    unfold lineCents
    omega
  have hcrc : crcBill w f s < 65536 := by
    unfold crcBill ceilDiv scratchSize
    omega
  have hdraft : 24 * min 16 ((thread s w).reg f.b).toNat < 65536 := by omega
  cases i <;> cases h <;> cases ho <;> cases hb
  case crc.refl.refl.refl => exact hcrc
  case ldx.refl.refl.refl => exact hlines
  case stx.refl.refl.refl => exact hlines
  case draft.refl.refl.refl => exact hdraft
  all_goals exact hplain _

/-- A purchase of nothing changes nothing. -/
theorem spend_zero (s : State) : spend 0 s = s := by
  unfold spend bump64
  simp

/-! ### Issue -/

/-- An instruction of a ready thread, whose coins are there, takes its effect after its purchase. -/
theorem issue_buys {s : State} {w : Who} {f : Fields} (i : Instr) {o : Op} {c : Nat}
    (hready : clerkReady s w.clerk.toNat = true) (hst : (thread s w).st = .running) (hwait : (thread s w).wait = .ready)
    (hok : reservedOk o.code f = true) (hqueue : s.purse.queue = []) (hclk : clkUp s 22 = true)
    (hprice : priceNow s c ≤ s.purse.balance) (hb : o.bill = [(c, 1)]) (hc : c < 65536) :
    issue w f i o s = takeEffect w f o (bought w c s) := by
  have hpay : payBill [(c, 1)] (noteIssue w s) = (bought w c s, []) := payBill_one (s := noteIssue w s) hclk hprice hc
  unfold issue buy
  simp only [hready, hst, hwait, hok, Thread.canIssue, hb, hpay, noteIssue_purse, hqueue]
  rcases Nat.eq_zero_or_pos c with rfl | hpos
  · have hnone : bought w 0 s = noteIssue w s := by
      have hzero : priceNow s 0 = 0 := by simp [priceNow, ceilDiv]
      rw [bought, hzero, spend_zero]
    simp [hnone]
  · simp [hqueue, mustWait, Nat.pos_iff_ne_zero.1 hpos]

/-- What an instruction does after its purchase. -/
theorem exec_buys {s : State} {i : Instr} {op : Nat} {w : Who} {f : Fields} {o : Op} {c : Nat}
    (h : lambiopParts i = some (op, w, f)) (ho : opOf s i = some o) (hb : o.bill = [(c, 1)])
    (hready : clerkReady s w.clerk.toNat = true) (hst : (thread s w).st = .running) (hwait : (thread s w).wait = .ready)
    (hok : reservedOk op f = true) (hqueue : s.purse.queue = []) (hclk : clkUp s 22 = true)
    (hprice : priceNow s c ≤ s.purse.balance) : exec i s = .next (takeEffect w f o (bought w c s)) := by
  obtain ⟨rfl, hexec⟩ := exec_lambiop h ho
  rw [hexec, issue_buys i hready hst hwait hok hqueue hclk hprice hb (bill_lt h ho hb)]

/-- The effect of a false predicate is the next index, but at the last one. -/
theorem takeEffect_false {s : State} {w : Who} {f : Fields} (o : Op) (hpc : (thread s w).pc ≠ 8191)
    (hpred : predHolds (thread s w) f = false) : takeEffect w f o s = advancePc w s := by
  simp [takeEffect, hpc, hpred]

/-- At the last index what goes on to the next one faults. -/
theorem takeEffect_end {s : State} {w : Who} {f : Fields} {o : Op} (hpc : (thread s w).pc = 8191)
    (h : predHolds (thread s w) f = false ∨ o.jumps = false) : takeEffect w f o s = faultThread w St.BOUNDS s := by
  have hstays : (predHolds (thread s w) f && o.jumps) = false := by
    rcases h with h | h <;> simp [h]
  simp [takeEffect, hpc, hstays]

/-- An instruction that jumps takes its effect at any index. -/
theorem takeEffect_jump {s : State} {w : Who} {f : Fields} {o : Op} (hjumps : o.jumps = true)
    (hpred : predHolds (thread s w) f = true) : takeEffect w f o s = o.act s := by
  simp [takeEffect, hjumps, hpred]

/-- A running thread that neither steps nor is to stop only goes on. -/
theorem goOn_running {t : Thread} (pc : Nat) (hst : t.st = .running) (hwait : t.wait = .ready)
    (hstep : t.stepping = false) (hstop : t.stopAfter = false) : t.goOn pc = { t with pc := pc } := by
  cases t
  subst hst hwait hstep hstop
  rfl

/-- Settles O24: under a false predicate the effect of every instruction is the same. -/
theorem falsePredicate : Obligations.FalsePredicate := by
  refine ⟨fun s i op w f o cents h ho hb hready hst hwait hstep hstop hpc hok hpred hqueue hclk hprice => ?_,
    fun s i op w f h => opOf_lambiop s h, fun w => ⟨rfl, rfl⟩⟩
  have hexec := exec_buys h ho hb hready hst hwait hok hqueue hclk hprice
  have hthread : predHolds (thread (bought w cents s) w) f = false := by rw [thread_bought]; exact hpred
  have hindex : (thread (bought w cents s) w).pc ≠ 8191 := by rw [thread_bought]; exact Nat.ne_of_lt hpc
  rw [takeEffect_false o hindex hthread] at hexec
  have he := threadEffect_of_onThread hprice hexec
  rwa [goOn_running (t := issuedThread s w) _ hst hwait hstep hstop] at he

/-- Only branches, CALL, RET and HALT leave the last index otherwise than to the next. -/
theorem jumps_false {s : State} {i : Instr} {op : Nat} {w : Who} {f : Fields} {o : Op}
    (h : lambiopParts i = some (op, w, f)) (ho : opOf s i = some o) (hop : op ∉ [0x18, 0x19, 0x1A, 0x1B, 0x1D]) :
    o.jumps = false := by
  cases i <;> cases h <;> cases ho
  case b.refl.refl => exact absurd (by decide) hop
  case bp.refl.refl => exact absurd (by decide) hop
  case call.refl.refl => exact absurd (by decide) hop
  case ret.refl.refl => exact absurd (by decide) hop
  case halt.refl.refl => exact absurd (by decide) hop
  all_goals rfl

/-- Settles O25: at the last index, by whether the instruction leaves it otherwise than to the next. -/
theorem endOfProgram : Obligations.EndOfProgram := by
  refine ⟨fun s i op w f o cents h ho hb hready hst hwait hpc hok hqueue hclk hprice hstays => ?_,
    fun s w f hready hst hwait hstep hstop hpc hok hpred hqueue hclk hprice => ?_⟩
  · refine ⟨_, bought_spec w cents s hprice, (exec_buys h ho hb hready hst hwait hok hqueue hclk hprice).trans ?_⟩
    have hindex : (thread (bought w cents s) w).pc = 8191 := by rw [thread_bought]; exact hpc
    rw [takeEffect_end hindex (hstays.imp (fun hpred => by rw [thread_bought]; exact hpred) (jumps_false h ho))]
  · have hexec := exec_buys (i := .b w f) (o := opB w f) (c := 2) rfl rfl rfl hready hst hwait hok hqueue hclk hprice
    have hgoes : predHolds (thread (bought w 2 s) w) f = true := by rw [thread_bought]; exact hpred
    rw [takeEffect_jump rfl hgoes] at hexec
    have he := threadEffect_of_onThread (f := fun t => t.goOn (immBits f 0 13)) hprice hexec
    have himm : immBits f 0 13 = f.imm.toNat % 8192 := immBits_low f 13
    rwa [goOn_running (t := issuedThread s w) _ hst hwait hstep hstop, himm] at he

/-! ### Coins that are not there -/

/-- A bill of one item that the balance does not cover is left whole. -/
theorem payBill_short {s : State} {c : Nat} (hc : c < 65536) (hshort : s.purse.balance < priceNow s c) :
    payBill [(c, 1)] s = (s, [(c, 1)]) := by
  have hzero : s.purse.balance / priceNow s c = 0 := Nat.div_eq_of_lt hshort
  have hunits : (if priceNow s c = 0 then 1
      else if clkUp s 22 then min 1 (s.purse.balance / priceNow s c) else 0) = 0 := by
    rw [if_neg (by omega), hzero]
    split <;> rfl
  simp only [payBill, unitPrice_one s hc, hunits, Nat.zero_mul, spend_zero]
  rfl

/-- An instruction whose coins are not there waits for them. -/
theorem issue_waits {s : State} {w : Who} {f : Fields} {i : Instr} {o : Op} {c : Nat}
    (hready : clerkReady s w.clerk.toNat = true) (hst : (thread s w).st = .running) (hwait : (thread s w).wait = .ready)
    (hok : reservedOk o.code f = true) (hb : o.bill = [(c, 1)]) (hpos : 0 < c) (hc : c < 65536)
    (hnew : ∀ p ∈ s.purse.queue, p.what ≠ .command i)
    (hshort : mustWait s 0 = true ∨ s.purse.balance < priceNow s c) :
    issue w f i o s = waitCoins w (joinPurse { cls := 0, bill := [(c, 1)], what := .command i } (noteIssue w s)) := by
  have hmust : mustWait (noteIssue w s) 0 = mustWait s 0 := rfl
  have hfresh : (s.purse.queue.any fun p => decide (p.what = Paid.command i)) = false := by
    simpa [List.any_eq_false] using hnew
  unfold issue buy
  simp only [hready, hst, hwait, hok, Thread.canIssue, hb, noteIssue_purse, hfresh, hmust]
  cases hm : mustWait s 0 with
  | true => simp [Nat.pos_iff_ne_zero.1 hpos]
  | false =>
    have hpay : payBill [(c, 1)] (noteIssue w s) = (noteIssue w s, [(c, 1)]) :=
      payBill_short (s := noteIssue w s) hc (hshort.resolve_left (by rw [hm]; exact Bool.false_ne_true))
    simp [Nat.pos_iff_ne_zero.1 hpos, hpay]

/-- A purchase that waits, and a thread that waits for it, are all that an instruction without its coins changes. -/
theorem waitCoins_frame (w : Who) (p : Purchase) (s : State) :
    let u := waitCoins w (joinPurse p (noteIssue w s))
    thread u w = { issuedThread s w with wait := .coins }
      ∧ OnlyThread w s { u with purse := { u.purse with queue := s.purse.queue } } := by
  refine ⟨?_, ⟨fun v hv => ?_, fun _ _ => rfl, rfl, rfl⟩, rfl, rfl, fun _ _ => rfl⟩
  · exact (thread_onThread_same ..).trans
      (congrArg (fun t : Thread => { t with wait := .coins }) (thread_noteIssue_same w s))
  · have hother : thread (waitCoins w (joinPurse p (noteIssue w s))) v = thread s v :=
      (thread_onThread_other _ _ hv).trans (thread_noteIssue_other s hv)
    exact hother

/-- Settles O26: the purchase joins the queue of PURSE. -/
theorem coinsThatCannotBeGranted : Obligations.CoinsThatCannotBeGranted := by
  intro s i op w f o cents h ho hb hready hst hwait hok hpos _ hnew hshort
  obtain ⟨rfl, hexec⟩ := exec_lambiop h ho
  rw [issue_waits hready hst hwait hok hb hpos (bill_lt h ho hb) hnew hshort] at hexec
  obtain ⟨hthread, hframe⟩ := waitCoins_frame w { cls := 0, bill := [(cents, 1)], what := .command i } s
  exact ⟨_, hexec, hthread, rfl, rfl, hframe⟩

end Sys2Proof.Machine
end

section
/-!
PROOFS. A round of the CLERKS: each in its turn issues the instruction of its first thread that is ready (R57).
-/

namespace Sys2Proof.Machine

/-! ### Threads that are passed over -/

/-- Threads that yielded are passed over once. -/
def passYielded (ws : List Who) (s : State) : State :=
  ws.foldl (fun x w => onThread w (fun t => { t with yielded := false }) x) s

@[simp] theorem passYielded_prog (ws : List Who) (s : State) : (passYielded ws s).prog = s.prog := by
  induction ws generalizing s with
  | nil => rfl
  | cons w ws ih => exact (ih _).trans (onThread_prog ..)

theorem clerkReady_passYielded (ws : List Who) (s : State) (c : Nat) : clerkReady (passYielded ws s) c = clerkReady s c := by
  induction ws generalizing s with
  | nil => rfl
  | cons w ws ih => exact (ih _).trans rfl

theorem thread_passYielded_other {ws : List Who} {v : Who} (h : ∀ w ∈ ws, Who.key v ≠ Who.key w) (s : State) :
    thread (passYielded ws s) v = thread s v := by
  induction ws generalizing s with
  | nil => rfl
  | cons w ws ih =>
    rw [List.forall_mem_cons] at h
    exact (ih h.2 _).trans (thread_onThread_other _ s h.1)

/-- In a turn the threads that cannot issue are left and those that yielded are passed over. -/
theorem takeTurn_append {ws : List Who} (hne : ws.Pairwise (fun v w => Who.key w ≠ Who.key v)) (rest : List Who) {s : State}
    (h : ∀ w ∈ ws, (thread s w).canIssue = true → (thread s w).yielded = true) :
    takeTurn (ws ++ rest) s = takeTurn rest (passYielded (ws.filter (fun w => (thread s w).canIssue)) s) := by
  induction ws generalizing s with
  | nil => rfl
  | cons w ws ih =>
    obtain ⟨hw, hws⟩ := List.pairwise_cons.1 hne
    rw [List.forall_mem_cons] at h
    obtain ⟨hyields, hrest⟩ := h
    rw [List.cons_append, takeTurn]
    cases hissue : (thread s w).canIssue with
    | false =>
      rw [Bool.not_false, if_pos rfl, ih hws hrest, List.filter_cons_of_neg (by rw [hissue]; exact Bool.false_ne_true)]
    | true =>
      have hkept : ∀ v ∈ ws, thread (onThread w (fun t => { t with yielded := false }) s) v = thread s v :=
        fun v hv => thread_onThread_other _ s (hw v hv)
      have hfilter : ws.filter (fun v => (thread (onThread w (fun t => { t with yielded := false }) s) v).canIssue)
          = ws.filter (fun v => (thread s v).canIssue) :=
        List.filter_congr fun v hv => congrArg Thread.canIssue (hkept v hv)
      rw [hyields hissue, Bool.not_true, if_neg Bool.false_ne_true, if_pos rfl,
        ih hws (fun v hv => by rw [hkept v hv]; exact hrest v hv), hfilter,
        List.filter_cons_of_pos (p := fun v => (thread s v).canIssue) hissue]
      rfl

/-! ### What a thread issues in its turn -/

/-- A thread issues what its word decodes to. -/
theorem issueNext_some {s : State} {w : Who} {i : Instr} (h : decodeLambiop w (fetchWord s w) = some i) :
    exec i s = .next (issueNext w s) := by
  have hparts := lambiopParts_of_lambiopOf (decodeLambiop_some h).1
  obtain ⟨o, c, ho, _⟩ := opOf_lambiop s hparts
  rw [(exec_lambiop hparts ho).2, issueNext, h]
  dsimp only
  rw [hparts, ho]

/-- A thread that issues a word that does not decode faults. -/
theorem issueNext_none {s : State} {w : Who} (hready : clerkReady s w.clerk.toNat = true)
    (hissue : (thread s w).canIssue = true) (h : decodeLambiop w (fetchWord s w) = none) :
    exec (.undefinedOpcode w (fetchWord s w)) s = .next (issueNext w s) ∧ (thread (issueNext w s) w).st = .faulted := by
  have hexec := exec_undefinedOpcode hready hissue h
  have hnext : issueNext w s = faultThread w St.BAD_OP (noteIssue w s) := by
    have hundefined : execUndefinedOpcode w (fetchWord s w) s = .next (faultThread w St.BAD_OP (noteIssue w s)) := hexec
    rw [issueNext, h]
    dsimp only
    rw [effectOf, hundefined]
  rw [hnext]
  exact ⟨hexec, congrArg Thread.st (thread_faultThread_same ..)⟩

/-! ### The order of turns -/

/-- The thread of a CLERK that is `j` after the one that comes first. -/
def turnAt (s : State) (c j : Nat) : Who :=
  { clerk := BitVec.ofNat 3 c, thread := BitVec.ofNat 4 (Tab.get 0 s.lastIssued c + 1 + j) }

theorem turnOrder_eq (s : State) (c : Nat) : turnOrder s c = (List.range 16).map (turnAt s c) := rfl

/-- The 16 threads of a turn are different. -/
theorem turnAt_key_ne {s : State} {c j k : Nat} (hj : j < 16) (hk : k < 16) (hne : j ≠ k) :
    Who.key (turnAt s c k) ≠ Who.key (turnAt s c j) := by
  simp only [Who.key, turnAt, BitVec.toNat_ofNat]
  omega

/-- The first `k` threads of a turn, and the others. -/
theorem turnOrder_split (s : State) (c : Nat) {k : Nat} (hk : k ≤ 16) :
    turnOrder s c = (List.range k).map (turnAt s c) ++ (List.range' k (16 - k)).map (turnAt s c) := by
  have hsplit : List.range 16 = List.range k ++ List.range' k (16 - k) := by
    have happend : List.range' 0 k ++ List.range' (0 + k) (16 - k) = List.range' 0 (k + (16 - k)) := List.range'_append_1
    rw [Nat.zero_add, Nat.add_sub_cancel' hk] at happend
    rw [List.range_eq_range', List.range_eq_range', happend]
  rw [turnOrder_eq, hsplit, List.map_append]

/-- The state in which the first `k` threads of a turn have been left or passed over. -/
def afterPassed (s : State) (c k : Nat) : State :=
  ((List.range k).filter (fun j => (thread s (turnAt s c j)).canIssue)).foldl
    (fun x j => onThread (turnAt s c j) (fun t => { t with yielded := false }) x) s

theorem afterPassed_eq (s : State) (c k : Nat) : afterPassed s c k
    = passYielded (((List.range k).map (turnAt s c)).filter (fun w => (thread s w).canIssue)) s := by
  rw [passYielded, List.filter_map, List.foldl_map]
  rfl

/-- A turn in which none of the first `k` threads issues goes on with the others. -/
theorem clerkTurn_passes {s : State} {c k : Nat} (hready : clerkReady s c = true) (hk : k ≤ 16)
    (h : ∀ j < k, (thread s (turnAt s c j)).canIssue = true → (thread s (turnAt s c j)).yielded = true) :
    clerkTurn s c = takeTurn ((List.range' k (16 - k)).map (turnAt s c)) (afterPassed s c k) := by
  have hne : ((List.range k).map (turnAt s c)).Pairwise (fun v w => Who.key w ≠ Who.key v) := by
    rw [List.pairwise_map]
    refine (List.pairwise_lt_range (n := k)).imp_of_mem fun {i j} hi hj hlt => ?_
    rw [List.mem_range] at hi hj
    exact turnAt_key_ne (by omega) (by omega) (by omega)
  have hpassed : ∀ w ∈ (List.range k).map (turnAt s c), (thread s w).canIssue = true → (thread s w).yielded = true := by
    simpa using h
  rw [clerkTurn, if_pos hready, turnOrder_split s c hk, takeTurn_append hne _ hpassed, afterPassed_eq]

/-- The threads behind those passed over, CLERKS and program memory are as they were. -/
theorem thread_afterPassed {s : State} {c j k : Nat} (hj : j < 16) (hk : k ≤ j) :
    thread (afterPassed s c k) (turnAt s c j) = thread s (turnAt s c j) := by
  rw [afterPassed_eq]
  refine thread_passYielded_other (fun w hw => ?_) s
  obtain ⟨i, hi, rfl⟩ := List.mem_map.1 (List.mem_filter.1 hw).1
  rw [List.mem_range] at hi
  exact turnAt_key_ne (by omega) hj (by omega)

/-- The first thread of a turn that is ready and has not yielded issues. -/
theorem clerkTurn_issues {s : State} {c k : Nat} (hready : clerkReady s c = true) (hk : k < 16)
    (h : ∀ j < k, (thread s (turnAt s c j)).canIssue = true → (thread s (turnAt s c j)).yielded = true)
    (hissue : (thread s (turnAt s c k)).canIssue = true) (hyield : (thread s (turnAt s c k)).yielded = false) :
    clerkTurn s c = issueNext (turnAt s c k) (afterPassed s c k) := by
  have hrange : List.range' k (16 - k) = k :: List.range' (k + 1) (15 - k) := by
    rw [show 16 - k = (15 - k) + 1 by omega, List.range'_succ]
  rw [clerkTurn_passes hready hk.le h, hrange, List.map_cons, takeTurn, thread_afterPassed hk le_rfl, hissue, hyield]
  rfl

/-- The word that a thread issues after others have been passed over. -/
theorem fetchWord_afterPassed {s : State} {c k : Nat} (hc : c < 8) (hk : k < 16) :
    fetchWord (afterPassed s c k) (turnAt s c k) = Tab.get 0 s.prog (8192 * c + (thread s (turnAt s c k)).pc) := by
  have hclerk : (turnAt s c k).clerk.toNat = c := by
    simp only [turnAt, BitVec.toNat_ofNat]
    omega
  rw [fetchWord, thread_afterPassed hk le_rfl, hclerk, afterPassed_eq, passYielded_prog]

/-! ### Waits that are tried again -/

/-- Where no thread waits to be tried again nothing is. -/
theorem wakeAll_none {s : State} (p : Instr → Bool) (h : ∀ v i, (thread s v).wait ≠ .retry i) : wakeAll p s = s := by
  have hwake (w : Who) : wakeThread p s w = s := by
    unfold wakeThread
    dsimp only
    split
    · rfl
    · split
      next i hwait => exact absurd hwait (h w i)
      · rfl
  have hall (ws : List Who) : ws.foldl (wakeThread p) s = s := by
    induction ws with
    | nil => rfl
    | cons w ws ih => rw [List.foldl_cons, hwake, ih]
  exact hall _

/-! ### A round -/

/-- The state of a round before the turn of CLERK `c`. -/
def roundAt (s : State) (c : Nat) : State := (List.range c).foldl clerkTurn (wakeAll (fun _ => true) s)

theorem roundAt_zero (s : State) : roundAt s 0 = wakeAll (fun _ => true) s := by
  rw [roundAt, List.range_zero, List.foldl_nil]

theorem roundAt_succ (s : State) (c : Nat) : roundAt s (c + 1) = clerkTurn (roundAt s c) c := by
  rw [roundAt, List.range_succ, List.foldl_append]
  rfl

/-- Settles O2: a round is a turn of each CLERK, and a turn ends with the first thread that issues. -/
theorem stepOnEmptyQueueIssues : Obligations.StepOnEmptyQueueIssues := by
  intro s hqueue
  refine ⟨roundAt s, ?_, roundAt_zero s, fun hnone => (roundAt_zero s).trans (wakeAll_none _ hnone),
    fun c hc => ⟨fun hready => ?_, fun hready k hk => ?_⟩⟩
  · rw [step, hqueue]
    dsimp only
    rw [tick, roundAt]
  · rw [roundAt_succ, clerkTurn, hready, if_neg Bool.false_ne_true]
  · intro turn passed hpassed
    refine ⟨fun hall => ?_, fun hlt hissue hyield => ?_⟩
    · subst hall
      rw [roundAt_succ]
      exact clerkTurn_passes hready hk hpassed
    · intro word
      have hturn : roundAt s (c + 1) = issueNext (turn k) passed :=
        (roundAt_succ s c).trans (clerkTurn_issues hready hlt hpassed hissue hyield)
      have hword : fetchWord passed (turn k) = word := fetchWord_afterPassed hc hlt
      have hthread : thread passed (turn k) = thread (roundAt s c) (turn k) := thread_afterPassed hlt le_rfl
      have hclerk : clerkReady passed (turn k).clerk.toNat = true := by
        have hnumber : (turn k).clerk.toNat = c := Nat.mod_eq_of_lt hc
        have hsame : clerkReady passed c = clerkReady (roundAt s c) c :=
          (congrArg (clerkReady · c) (afterPassed_eq _ c k)).trans (clerkReady_passYielded ..)
        rw [hnumber, hsame, hready]
      rw [hturn, ← hword]
      exact ⟨fun i => issueNext_some, fun hnone => issueNext_none hclerk (by rw [hthread]; exact hissue) hnone⟩

end Sys2Proof.Machine
end

section
/-!
PROOFS. Threads from outside: the purchase that PURSE serves, and the driver's commands that start, halt, restart and debug
threads.
-/

namespace Sys2Proof.Machine

/-! ### The purchase served -/

@[simp] theorem spend_queue (c : Nat) (s : State) : (spend c s).purse.queue = s.purse.queue := by
  unfold spend bump64
  split <;> rfl

/-- One unit taken off a bill of one item, and the rest put back while there is one. -/
theorem payPurchase_unit {s : State} {p : Purchase} {b n : Nat} (hb : p.bill = [(b, n)]) (hclk : clkUp s 22 = true)
    (hprice : unitPrice s b ≤ s.purse.balance) : payPurchase p s
      = if (billRest [(b, n)]).all (fun x => x.1 * x.2 == 0) then some (leavePurse p (spend (unitPrice s b) s), true)
        else some (joinPurse { p with bill := billRest [(b, n)] } (leavePurse p (spend (unitPrice s b) s)), false) := by
  have hcovered : (s.purse.balance < unitPrice s b || !clkUp s 22) = false := by
    simpa [hclk] using hprice
  unfold payPurchase
  rw [hb]
  dsimp only
  rw [hcovered]
  rfl

/-- PURSE serves no unit that the balance does not cover. -/
theorem payPurchase_short {s : State} {p : Purchase} {b n : Nat} {rest : List (Nat × Nat)} (hb : p.bill = (b, n) :: rest)
    (hshort : s.purse.balance < unitPrice s b) : payPurchase p s = none := by
  unfold payPurchase
  rw [hb]
  dsimp only
  rw [decide_eq_true hshort]
  rfl

theorem exec_purchaseServed_paid {s t : State} {p : Purchase} (hp : nextPurchase s = some p)
    (hpay : payPurchase p s = some (t, true)) : exec .purchaseServed s = .next (paidEffect p t) := by
  show execPurchaseServed s = _
  simp only [execPurchaseServed, hp, hpay]

theorem exec_purchaseServed_part {s t : State} {p : Purchase} (hp : nextPurchase s = some p)
    (hpay : payPurchase p s = some (t, false)) : exec .purchaseServed s = .next t := by
  show execPurchaseServed s = _
  simp only [execPurchaseServed, hp, hpay]

theorem exec_purchaseServed_short {s : State} {p : Purchase} (hp : nextPurchase s = some p)
    (hpay : payPurchase p s = none) : exec .purchaseServed s = .next s := by
  show execPurchaseServed s = _
  simp only [execPurchaseServed, hp, hpay]

/-- A purchase of one unit is bought whole. -/
theorem purchaseServed_whole {s : State} {p : Purchase} {b : Nat} (hp : nextPurchase s = some p) (hb : p.bill = [(b, 1)])
    (hclk : clkUp s 22 = true) (hprice : unitPrice s b ≤ s.purse.balance) :
    exec .purchaseServed s = .next (paidEffect p (leavePurse p (spend (unitPrice s b) s))) :=
  exec_purchaseServed_paid hp ((payPurchase_unit hb hclk hprice).trans (if_pos rfl))

/-- Of a longer one the rest goes behind the others. -/
theorem purchaseServed_part {s : State} {p : Purchase} {b n : Nat} (hp : nextPurchase s = some p) (hb : p.bill = [(b, n)])
    (hn : 2 ≤ n) (hpos : 0 < b) (hclk : clkUp s 22 = true) (hprice : unitPrice s b ≤ s.purse.balance) :
    exec .purchaseServed s
      = .next (joinPurse { p with bill := [(b, n - 1)] } (leavePurse p (spend (unitPrice s b) s))) := by
  have hrest : billRest [(b, n)] = [(b, n - 1)] := if_neg (by omega)
  have hleft : ([(b, n - 1)].all fun x => x.1 * x.2 == 0) = false := by
    simp
    omega
  have hpay := payPurchase_unit hb hclk hprice
  rw [hrest, hleft, if_neg Bool.false_ne_true] at hpay
  exact exec_purchaseServed_part hp hpay

/-- What an instruction is to its CLERK rests on its thread alone. -/
theorem opOf_congr {s t : State} {i : Instr} {op : Nat} {w : Who} {f : Fields} (h : lambiopParts i = some (op, w, f))
    (ht : thread t w = thread s w) : opOf t i = opOf s i := by
  cases i <;> cases h
  case crc.refl =>
    have hbill : crcBill w f t = crcBill w f s := by rw [crcBill, crcBill, ht]
    show some (opCrc w f t) = some (opCrc w f s)
    rw [opCrc, opCrc, hbill]
  case draft.refl =>
    show some (opDraft w f t) = some (opDraft w f s)
    rw [opDraft, opDraft, ht]
  all_goals rfl

/-- An instruction whose coins have come is ready again and takes its effect. -/
theorem paidBody_lambiop {s : State} {i : Instr} {op : Nat} {w : Who} {f : Fields} {o : Op}
    (h : lambiopParts i = some (op, w, f)) (ho : opOf s i = some o) (hwait : (thread s w).wait = .coins) :
    paidBody i s = takeEffect w f o (onThread w (fun t => { t with wait := .ready }) s) := by
  have hbody : paidBody i s = resumeLambiop i s := by cases i <;> cases h <;> rfl
  rw [hbody]
  unfold resumeLambiop
  rw [h, ho]
  dsimp only
  rw [if_pos hwait, resumePaid, if_pos hwait]

/-- Nothing is different but the thread, PURSE and the spending counter when a purchase is served. -/
theorem servedThread_frame (w : Who) (g : Thread → Thread) (p : Purchase) (c : Nat) (s : State) :
    { onThread w g (leavePurse p (spend c s)) with threads := s.threads, purse := s.purse, regs := s.regs } = s := by
  have hspend : { spend c s with threads := s.threads, purse := s.purse, regs := s.regs } = s := by
    unfold spend bump64
    split <;> rfl
  have hthread (b : State) : { onThread w g (leavePurse p b) with threads := s.threads, purse := s.purse, regs := s.regs }
      = { b with threads := s.threads, purse := s.purse, regs := s.regs } := rfl
  rw [hthread, hspend]

theorem servedPart_frame (q p : Purchase) (c : Nat) (s : State) :
    let u := joinPurse q (leavePurse p (spend c s))
    RegsKept [R.PUR_SPENT_LO, R.PUR_SPENT_HI] s u ∧ u.threads = s.threads ∧ u.accesses = s.accesses := by
  have hregs (b : State) (k : Nat) : reg (joinPurse q (leavePurse p b)) k = reg b k := rfl
  have hthreads (b : State) : (joinPurse q (leavePurse p b)).threads = b.threads := rfl
  have haccesses (b : State) : (joinPurse q (leavePurse p b)).accesses = b.accesses := rfl
  intro u
  refine ⟨fun k hk => ?_, ?_, ?_⟩
  · rw [hregs, spend_regs c s k hk]
  · rw [hthreads, spend_threads]
  · rw [haccesses, spend_accesses]

/-- Settles O42: the next purchase by the length of its bill. -/
theorem purchaseThatIsServed : Obligations.PurchaseThatIsServed := by
  intro s
  refine ⟨fun p b n hp hb hn hpos hclk hprice => ?_, fun p b n rest hp hb hshort => ?_, fun hnone => ?_⟩
  · intro t
    have hbalance : t.purse.balance + unitPrice s b = s.purse.balance := by
      show (spend (unitPrice s b) s).purse.balance + unitPrice s b = _
      rw [spend_balance]
      omega
    have hqueue : t.purse.queue = s.purse.queue.erase p := congrArg (·.erase p) (spend_queue ..)
    refine ⟨hbalance, hqueue, fun h => ?_, fun h => ?_, fun i op w f o h hwhat hparts ho hwait => ?_⟩
    · subst h
      exact purchaseServed_whole hp hb hclk hprice
    · refine ⟨_, purchaseServed_part hp hb h hpos hclk hprice, hbalance, congrArg (· ++ _) hqueue, ?_⟩
      exact servedPart_frame ..
    · subst h
      have hthread : thread t w = thread s w := spend_thread ..
      have hexec := purchaseServed_whole hp hb hclk hprice
      rw [paidEffect, hwhat] at hexec
      have hbody := paidBody_lambiop (s := t) hparts ((opOf_congr hparts hthread).trans ho) (by rw [hthread]; exact hwait)
      refine ⟨_, hexec, _, hbody, ?_, hbalance, ?_⟩
      · rw [thread_onThread_same, hthread]
      · exact servedThread_frame ..
  · exact exec_purchaseServed_short hp (payPurchase_short hb hshort)
  · have hnext : nextPurchase s = none := by
      rw [nextPurchase, firstPurchase, hnone]
      rfl
    show execPurchaseServed s = _
    rw [execPurchaseServed, hnext]

/-! ### A change of one thread after another -/

/-- A change of the threads of a list, each of which changes its own thread alone, leaves the threads outside the list. -/
theorem foldl_threads_other {g : Who → State → State} (hg : ∀ w s v, Who.key v ≠ Who.key w → thread (g w s) v = thread s v)
    {ws : List Who} {w : Who} (hw : w ∉ ws) (s : State) : thread (ws.foldl (fun s w => g w s) s) w = thread s w := by
  induction ws generalizing s with
  | nil => rfl
  | cons v ws ih =>
    rw [List.mem_cons, not_or] at hw
    rw [List.foldl_cons, ih hw.2, hg v s w (Who.key_ne hw.1)]

/-- It changes a thread of the list as it stands before its own change. -/
theorem foldl_threads {g : Who → State → State} (hg : ∀ w s v, Who.key v ≠ Who.key w → thread (g w s) v = thread s v)
    {ws : List Who} (hws : ws.Nodup) {w : Who} (hw : w ∈ ws) (s : State) :
    ∃ u, thread u w = thread s w ∧ thread (ws.foldl (fun s w => g w s) s) w = thread (g w u) w := by
  induction ws generalizing s with
  | nil => exact absurd hw List.not_mem_nil
  | cons v ws ih =>
    obtain ⟨hv, hws⟩ := List.nodup_cons.1 hws
    rcases List.mem_cons.1 hw with rfl | hw
    · exact ⟨s, rfl, foldl_threads_other hg hv _⟩
    · obtain ⟨u, hu, hfold⟩ := ih hws hw (g v s)
      have hne : w ≠ v := fun e => hv (e ▸ hw)
      exact ⟨u, hu.trans (hg v s w (Who.key_ne hne)), hfold⟩

theorem whos_nodup (c : Nat) : (whos c).Nodup := by
  refine List.Nodup.map_on (fun i hi j hj h => ?_) List.nodup_range
  rw [List.mem_range] at hi hj
  have hthread := congrArg (fun w : Who => w.thread.toNat) h
  simp only [BitVec.toNat_ofNat] at hthread
  omega

/-- Which threads stand in a CLERK's list. -/
theorem mem_whos_of_lt {c : Nat} (hc : c < 8) (w : Who) : w ∈ whos c ↔ w.clerk.toNat = c := by
  have hclerk : (BitVec.ofNat 3 c).toNat = c := Nat.mod_eq_of_lt hc
  have hmem := mem_whos (BitVec.ofNat 3 c) w
  rw [hclerk] at hmem
  rw [hmem, ← BitVec.toNat_inj, hclerk]

/-! ### A change of one CLERK after another -/

/-- What the driver's command for one CLERK reads of the others and of the block, and the threads of some CLERKS, are
unchanged. -/
structure ClerksKept (p : Nat → Prop) (s t : State) : Prop where
  ready : ∀ c, clerkReady t c = clerkReady s c
  entry : clerkEntry t = clerkEntry s
  threads : ∀ v : Who, p v.clerk.toNat → thread t v = thread s v

theorem ClerksKept.refl (p : Nat → Prop) (s : State) : ClerksKept p s s := ⟨fun _ => rfl, rfl, fun _ _ => rfl⟩

theorem ClerksKept.trans {p : Nat → Prop} {s t u : State} (h : ClerksKept p s t) (k : ClerksKept p t u) :
    ClerksKept p s u :=
  ⟨fun c => (k.ready c).trans (h.ready c), k.entry.trans h.entry, fun v hv => (k.threads v hv).trans (h.threads v hv)⟩

theorem ClerksKept.mono {p q : Nat → Prop} {s t : State} (h : ClerksKept p s t) (hpq : ∀ c, q c → p c) :
    ClerksKept q s t := ⟨h.ready, h.entry, fun v hv => h.threads v (hpq _ hv)⟩

/-- A change of the CLERKS in turn, each of which changes the threads of its own CLERK alone, changes those of a CLERK as
they stand before its own change. -/
theorem foldl_clerks {g : State → Nat → State} {n : Nat} (hg : ∀ c < n, ∀ s, ClerksKept (· ≠ c) s (g s c)) {c : Nat}
    (hc : c < n) (s : State) :
    ∃ u, ClerksKept (c ≤ ·) s u ∧ ClerksKept (· = c) (g u c) ((List.range n).foldl g s) := by
  have hsucc (m : Nat) : (List.range (m + 1)).foldl g s = g ((List.range m).foldl g s) m := by
    rw [List.range_succ, List.foldl_append]
    rfl
  have hbefore (m : Nat) (hm : m ≤ c) : ClerksKept (c ≤ ·) s ((List.range m).foldl g s) := by
    induction m with
    | zero => exact .refl _ s
    | succ m ih =>
      rw [hsucc]
      exact (ih (by omega)).trans ((hg m (by omega) _).mono fun d hd => by omega)
  have hafter (m : Nat) (hm : c + 1 + m ≤ n) :
      ClerksKept (· = c) (g ((List.range c).foldl g s) c) ((List.range (c + 1 + m)).foldl g s) := by
    induction m with
    | zero =>
      rw [Nat.add_zero, hsucc]
      exact .refl _ _
    | succ m ih =>
      rw [← Nat.add_assoc, hsucc]
      exact (ih (by omega)).trans ((hg _ (by omega) _).mono fun d hd => by omega)
  have hlast := hafter (n - (c + 1)) (by omega)
  rw [Nat.add_sub_cancel' hc] at hlast
  exact ⟨_, hbefore c le_rfl, hlast⟩

/-- A change of one thread after another keeps what each keeps. -/
theorem ClerksKept.foldl {p : Nat → Prop} {g : Who → State → State} {ws : List Who}
    (h : ∀ w ∈ ws, ∀ s, ClerksKept p s (g w s)) (s : State) : ClerksKept p s (ws.foldl (fun s w => g w s) s) := by
  induction ws generalizing s with
  | nil => exact .refl p s
  | cons w ws ih =>
    rw [List.forall_mem_cons] at h
    exact (h.1 s).trans (ih h.2 _)

/-- The build, the power, the registers and the threads are all that it rests on. -/
theorem ClerksKept.of_fields {p : Nat → Prop} {s t : State} (hbuild : t.build = s.build) (hpower : t.power = s.power)
    (hfatal : t.clerkFatal = s.clerkFatal) (hregs : t.regs = s.regs)
    (hthreads : ∀ v : Who, p v.clerk.toNat → thread t v = thread s v) : ClerksKept p s t :=
  ⟨fun c => by simp only [clerkReady, pdUp, clkUp, hbuild, hpower, hfatal],
    by simp only [clerkEntry, regField, reg, hbuild, hregs], hthreads⟩

/-- `sweep` is none of it. -/
theorem ClerksKept.sweep {p : Nat → Prop} {s t : State} (h : ClerksKept p s t) : ClerksKept p s (sweep t) := by
  refine h.trans ⟨fun c => ?_, ?_, fun v _ => thread_sweep t v⟩
  · simp only [clerkReady, pdUp, clkUp, sweep_build, sweep_power, sweep_clerkFatal]
  · rw [clerkEntry, clerkEntry, regField, regField, reg_sweep t (by decide)]

/-- Whether a CLERK runs rests on its own threads. -/
theorem clerkRunning_congr {s t : State} {c : Nat} (h : ∀ w ∈ whos c, thread t w = thread s w) :
    clerkRunning t c = clerkRunning s c := by
  have hmap : (whos c).map (thread t) = (whos c).map (thread s) := List.map_congr_left h
  have hany (u : State) : clerkRunning u c = ((whos c).map (thread u)).any
      (fun t => decide (t.st = .running) || decide (t.st = .debug) || t.stopAfter) := by
    rw [List.any_map]
    rfl
  rw [hany, hany, hmap]

/-! ### CLERK_START -/

/-- A thread begins, and what it held is left. -/
def startThread (e : Nat) (w : Who) (s : State) : State := setThread w (Thread.start w e) (endOwned w St.BAD_OP s)

theorem thread_startThread_other (e : Nat) (w : Who) (s : State) (v : Who) (h : Who.key v ≠ Who.key w) :
    thread (startThread e w s) v = thread s v := thread_setThread_other _ _ h

/-- The threads of a CLERK begin. -/
def startThreads (c : Nat) (s : State) : State := (whos c).foldl (fun u w => startThread (clerkEntry s) w u) s

/-- A thread of another CLERK is another thread. -/
theorem key_ne_of_clerk {v w : Who} (h : v.clerk.toNat ≠ w.clerk.toNat) : Who.key v ≠ Who.key w :=
  Who.key_ne fun e => h (by rw [e])

theorem startThread_kept {c : Nat} {w : Who} (hw : w.clerk.toNat = c) (e : Nat) (s : State) :
    ClerksKept (· ≠ c) s (startThread e w s) :=
  .of_fields rfl rfl rfl rfl fun v hv => thread_startThread_other e w s v (key_ne_of_clerk (by rwa [hw]))

/-- What a CLERK that starts does to its tickets. -/
def agedTickets (c : Nat) (s : State) : State :=
  { s with tickets := s.tickets.map (fun p => if p.1 / 4096 = c then (p.1, { p.2 with old := true }) else p) }

theorem agedTickets_kept (p : Nat → Prop) (c : Nat) (s : State) : ClerksKept p s (agedTickets c s) :=
  .of_fields rfl rfl rfl rfl fun _ _ => rfl

theorem startClerk_eq (c : Nat) (s : State) : startClerk c s =
    if !clerkReady s c || clerkRunning s c then s else sweep (agedTickets c (startThreads c s)) := rfl

theorem startClerk_kept {c : Nat} (hc : c < 8) (s : State) : ClerksKept (· ≠ c) s (startClerk c s) := by
  have hstart : ClerksKept (· ≠ c) s (startThreads c s) :=
    ClerksKept.foldl (g := startThread (clerkEntry s)) (ws := whos c)
      (fun w hw u => startThread_kept ((mem_whos_of_lt hc w).1 hw) _ u) s
  rw [startClerk_eq]
  cases !clerkReady s c || clerkRunning s c with
  | true => exact .refl _ s
  | false => exact ClerksKept.sweep (hstart.trans (agedTickets_kept _ c _))

/-- A thread of a CLERK that starts. -/
theorem thread_startClerk {s : State} {w : Who} (hready : clerkReady s w.clerk.toNat = true)
    (hidle : clerkRunning s w.clerk.toNat = false) :
    thread (startClerk w.clerk.toNat s) w = Thread.start w (clerkEntry s) := by
  have hw : w ∈ whos w.clerk.toNat := (mem_whos w.clerk w).2 rfl
  obtain ⟨u, _, hthread⟩ := foldl_threads (g := startThread (clerkEntry s)) (thread_startThread_other _) (whos_nodup _) hw s
  have hstart : thread (startThread (clerkEntry s) w u) w = Thread.start w (clerkEntry s) := thread_setThread_same ..
  have haged := (agedTickets_kept (fun _ => True) w.clerk.toNat (startThreads w.clerk.toNat s)).threads w trivial
  rw [startClerk_eq, hready, hidle, if_neg (by decide), thread_sweep, haged, startThreads, hthread, hstart]

/-- The start values of R64. -/
theorem Thread.start_values (w : Who) (e : Nat) :
    let t := Thread.start w e
    t.st = .running ∧ t.pc = e ∧ t.reg 1 = BitVec.ofNat 64 (16 * w.clerk.toNat + w.thread.toNat)
      ∧ (∀ r, r ≠ 1 → t.reg r = 0) ∧ (∀ n, 1 ≤ n → n < 8 → t.pred n = false) ∧ t.stream = 512 * w.clerk.toNat
      ∧ t.ledger = 0 ∧ t.ticket = 0xFFF ∧ t.stack = [] ∧ t.wait = .ready := by
  intro t
  refine ⟨rfl, rfl, ?_, fun r hr => ?_, fun n hpos hlt => ?_, rfl, rfl, rfl, rfl, rfl⟩
  · exact (if_neg (by decide)).trans (Tab.get_set_same ..)
  · unfold Thread.reg
    split
    · rfl
    · exact Tab.get_set_other _ _ _ fun h => hr (BitVec.eq_of_toNat_eq h)
  · have hn : n % 8 ≠ 0 := by omega
    rw [Thread.pred, if_neg hn]
    exact Nat.zero_testBit _

/-! ### CLERK_HALT -/

/-- A thread that a halt stops, at once or after the access or entry it waits for. -/
def Thread.halt (t : Thread) : Thread :=
  if t.st = .halted ∨ t.st = .faulted then t
  else if t.wait = .busy then { t with stopAfter := true }
  else { t with st := .halted, wait := .ready, stepping := false }

@[simp] theorem thread_endOwned (w v : Who) (status : Nat) (s : State) : thread (endOwned w status s) v = thread s v := rfl

@[simp] theorem thread_dropWaits (w v : Who) (s : State) : thread (dropWaits w s) v = thread s v := rfl

theorem thread_haltThread_same (w : Who) (s : State) : thread (haltThread w s) w = (thread s w).halt := by
  unfold haltThread Thread.halt
  dsimp only
  split
  · rfl
  · split
    · exact thread_onThread_same ..
    · rw [thread_endOwned, thread_onThread_same, thread_dropWaits]

theorem thread_haltThread_other (w : Who) (s : State) (v : Who) (h : Who.key v ≠ Who.key w) :
    thread (haltThread w s) v = thread s v := by
  unfold haltThread
  dsimp only
  split
  · rfl
  · split
    · exact thread_onThread_other _ _ h
    · rw [thread_endOwned, thread_onThread_other _ _ h, thread_dropWaits]

theorem haltThread_kept {c : Nat} {w : Who} (hw : w.clerk.toNat = c) (s : State) :
    ClerksKept (· ≠ c) s (haltThread w s) := by
  refine .of_fields ?_ ?_ ?_ ?_ fun v hv => thread_haltThread_other w s v (key_ne_of_clerk (by rwa [hw]))
  all_goals
    unfold haltThread
    dsimp only
    split
    · rfl
    · split <;> rfl

theorem haltClerk_kept {c : Nat} (hc : c < 8) (s : State) : ClerksKept (· ≠ c) s (haltClerk c s) :=
  ClerksKept.foldl (fun w hw => haltThread_kept ((mem_whos_of_lt hc w).1 hw)) s

theorem thread_haltClerk (w : Who) (s : State) : thread (haltClerk w.clerk.toNat s) w = (thread s w).halt := by
  have hw : w ∈ whos w.clerk.toNat := (mem_whos w.clerk w).2 rfl
  obtain ⟨u, hu, hthread⟩ := foldl_threads thread_haltThread_other (whos_nodup _) hw s
  rw [haltClerk, hthread, thread_haltThread_same, hu]

/-! ### The commands of the driver -/

/-- A write through the register port that is taken. -/
theorem viaPort_up {s : State} (h : clkUp s 20 = true) (f : State → Host.Outcome State Fault Refusal) :
    viaPort s f = f { s with regOut := 0 } := if_pos h

/-- A command for the CLERKS that a mask names. -/
def forNamedClerks (g : Nat → State → State) (cs : BitVec 8) (s : State) : State :=
  (List.range 8).foldl (fun s c => if bit cs.toNat c then g c s else s) s

/-- It changes the threads of each of them as they stand before it, and no thread of the others. -/
theorem forNamedClerks_threads {g : Nat → State → State} (hg : ∀ c < 8, ∀ s, ClerksKept (· ≠ c) s (g c s)) (cs : BitVec 8)
    (s : State) (w : Who) :
    (cs.getLsbD w.clerk.toNat = true →
      ∃ v, ClerksKept (w.clerk.toNat ≤ ·) s v ∧ thread (forNamedClerks g cs s) w = thread (g w.clerk.toNat v) w)
    ∧ (cs.getLsbD w.clerk.toNat = false → thread (forNamedClerks g cs s) w = thread s w) := by
  have hstep : ∀ c < 8, ∀ s, ClerksKept (· ≠ c) s (if bit cs.toNat c then g c s else s) := fun c hc s => by
    split
    · exact hg c hc s
    · exact .refl _ s
  obtain ⟨v, hbefore, hafter⟩ := foldl_clerks (g := fun s c => if bit cs.toNat c then g c s else s) hstep w.clerk.isLt s
  have hthread := hafter.threads w rfl
  refine ⟨fun hnamed => ⟨v, hbefore, hthread.trans ?_⟩, fun hother => hthread.trans ?_⟩
  · rw [if_pos (show bit cs.toNat w.clerk.toNat = true from hnamed)]
  · rw [if_neg (by rw [show bit cs.toNat w.clerk.toNat = false from hother]; exact Bool.false_ne_true)]
    exact hbefore.threads w le_rfl

theorem exec_clerkStart {s : State} (h : clkUp s 20 = true) (cs : BitVec 8) :
    exec (.clerkStart cs) s = .next (forNamedClerks startClerk cs { s with regOut := 0 }) := by
  show execClerkStart cs s = _
  rw [execClerkStart, viaPort_up h, forNamedClerks]

theorem exec_clerkHalt {s : State} (h : clkUp s 20 = true) (cs : BitVec 8) :
    exec (.clerkHalt cs) s = .next (sweep (forNamedClerks haltClerk cs { s with regOut := 0 })) := by
  show execClerkHalt cs s = _
  rw [execClerkHalt, viaPort_up h, forNamedClerks]

theorem exec_threadRestart {s : State} {w : Who} (h : clkUp s 20 = true) (hready : clerkReady s w.clerk.toNat = true)
    (hst : (thread s w).st = .halted ∨ (thread s w).st = .faulted) :
    exec (.threadRestart w) s = .next (sweep (startThread (clerkEntry s) w { s with regOut := 0 })) := by
  have hstops : (clerkReady s w.clerk.toNat && (decide ((thread s w).st = .halted) || decide ((thread s w).st = .faulted)))
      = true := by simpa [hready] using hst
  show execThreadRestart w s = _
  rw [execThreadRestart, viaPort_up h]
  exact if_pos hstops

/-- A thread in DEBUG leaves it. -/
theorem leaveDebug_open {s : State} {w : Who} (hready : clerkReady s w.clerk.toNat = true) (hscope : s.kcw.scopes % 2 = 1)
    (hst : (thread s w).st = .debug) (step : Bool) :
    leaveDebug w step s = setThread w { thread s w with st := .running, stepping := step } s := by
  have hopen : bit s.kcw.scopes 0 = true := by rw [bit, Nat.testBit_zero, hscope]; rfl
  rw [leaveDebug, hopen, hready, hst, if_pos (by decide), onThread]

theorem exec_debugResume {s : State} {w : Who} (h : clkUp s 20 = true) (hready : clerkReady s w.clerk.toNat = true)
    (hscope : s.kcw.scopes % 2 = 1) (hst : (thread s w).st = .debug) : exec (.debugResume w) s
      = .next (setThread w { thread s w with st := .running, stepping := false } { s with regOut := 0 }) := by
  show execDebugResume w s = _
  rw [execDebugResume, viaPort_up h, leaveDebug_open (s := { s with regOut := 0 }) hready hscope hst,
    thread_of_threads (t := { s with regOut := 0 }) (s := s) rfl]

theorem exec_debugStep {s : State} {w : Who} (h : clkUp s 20 = true) (hready : clerkReady s w.clerk.toNat = true)
    (hscope : s.kcw.scopes % 2 = 1) (hst : (thread s w).st = .debug) : exec (.debugStep w) s
      = .next (setThread w { thread s w with st := .running, stepping := true } { s with regOut := 0 }) := by
  show execDebugStep w s = _
  rw [execDebugStep, viaPort_up h, leaveDebug_open (s := { s with regOut := 0 }) hready hscope hst,
    thread_of_threads (t := { s with regOut := 0 }) (s := s) rfl]

/-- Settles O40: each command by the threads of the CLERKS it names. -/
theorem clerkControl : Obligations.ClerkControl := by
  intro s hreg
  have hentry : clerkEntry s = reg s R.CLK_ENTRY % 2 ^ 13 := by
    rw [clerkEntry, regField, bits, Nat.pow_zero, Nat.div_one]
  refine ⟨fun cs => ⟨_, exec_clerkStart hreg cs, fun w => ?_⟩, fun cs => ⟨_, exec_clerkHalt hreg cs, fun w => ?_⟩,
    fun w hready hst => ⟨_, exec_threadRestart hreg hready hst, ?_, fun v hv => ?_⟩, fun w hready hscope hst => ?_⟩
  · obtain ⟨hnamed, hother⟩ := forNamedClerks_threads (g := startClerk) (fun c hc => startClerk_kept hc) cs
      { s with regOut := 0 } w
    refine ⟨fun hcs hready hidle => ?_, hother⟩
    obtain ⟨v, hkept, hthread⟩ := hnamed hcs
    have hrunning : clerkRunning v w.clerk.toNat = false := by
      refine (clerkRunning_congr fun x hx => hkept.threads x ?_).trans hidle
      exact ((mem_whos_of_lt w.clerk.isLt x).1 hx).ge
    have hstarted := thread_startClerk ((hkept.ready _).trans hready) hrunning
    have hvalue : clerkEntry v = reg s R.CLK_ENTRY % 2 ^ 13 := hkept.entry.trans hentry
    rw [hthread, hstarted, hvalue]
    exact Thread.start_values w _
  · obtain ⟨hnamed, hother⟩ := forNamedClerks_threads (g := haltClerk) (fun c hc => haltClerk_kept hc) cs
      { s with regOut := 0 } w
    refine ⟨fun hcs hst => ?_, fun hcs => (thread_sweep ..).trans (hother hcs)⟩
    obtain ⟨v, hkept, hthread⟩ := hnamed hcs
    have hv : thread v w = thread s w := hkept.threads w le_rfl
    have hruns : ¬((thread s w).st = .halted ∨ (thread s w).st = .faulted) := by rw [hst]; decide
    rw [thread_sweep, hthread, thread_haltClerk, hv, Thread.halt, if_neg hruns]
    refine ⟨fun hwait => ?_, fun hwait => ?_⟩
    · rw [if_neg hwait]
      exact ⟨rfl, rfl, rfl, rfl⟩
    · rw [if_pos hwait]
  · rw [thread_sweep, ← hentry]
    exact thread_setThread_same ..
  · rw [thread_sweep]
    exact thread_startThread_other _ w _ v hv
  · exact ⟨exec_debugResume hreg hready hscope hst, exec_debugStep hreg hready hscope hst⟩

end Sys2Proof.Machine
end

section
/-!
PROOFS. LDX and STX: the access that starts with its lines, what the copies leave unchanged, and their ends.
-/

namespace Sys2Proof.Machine

/-! ### The access that starts -/

/-- What an access asks for: beside its number, kind and work, whether it is paid, and the lines with their bytes. -/
def Access.content (a : Access) : (Nat × ReqKind × Job) × Bool × List Nat × List (List Byte) :=
  (a.purpose, a.paid, a.lines.map Line.addr, a.lines.map Line.data)

/-- A line is sent or left, and then the lines behind it; its address and bytes stay. -/
theorem sendLines_cons (s : State) (before after : List Access) (a : Access) (l : Line) (ls : List Line)
    (used : List (Nat × Nat)) : ∃ m u, m.addr = l.addr ∧ m.data = l.data ∧ sendLines s before after a (l :: ls) used
      = (m :: (sendLines s before after a ls u).1, (sendLines s before after a ls u).2) := by
  by_cases hsent : l.st ≠ .unsent
  · exact ⟨l, used, rfl, rfl, (if_pos hsent : ite _ _ _ = _)⟩
  by_cases hheld : lineHeld s before after a l = true
  · exact ⟨l, used, rfl, rfl, (if_neg hsent : ite _ _ _ = _).trans (if_pos hheld)⟩
  generalize htag : freeTag used (portFor s l.loc) = tag
  cases tag with
  | none =>
    refine ⟨l, used, rfl, rfl, (if_neg hsent : ite _ _ _ = _).trans ((if_neg hheld).trans ?_)⟩
    rw [htag]
  | some t =>
    refine ⟨{ l with port := portFor s l.loc, tag := t, st := .out }, (portFor s l.loc, t) :: used, rfl, rfl,
      (if_neg hsent : ite _ _ _ = _).trans ((if_neg hheld).trans ?_)⟩
    rw [htag]

theorem sendLines_addr_data (s : State) (before after : List Access) (a : Access) (ls : List Line) (used : List (Nat × Nat)) :
    (sendLines s before after a ls used).1.map Line.addr = ls.map Line.addr
      ∧ (sendLines s before after a ls used).1.map Line.data = ls.map Line.data := by
  induction ls generalizing used with
  | nil => exact ⟨rfl, rfl⟩
  | cons l ls ih =>
    obtain ⟨m, u, haddr, hdata, hsend⟩ := sendLines_cons s before after a l ls used
    obtain ⟨haddrs, hdatas⟩ := ih u
    rw [hsend]
    simp only [List.map_cons, haddr, hdata, haddrs, hdatas, and_self]

theorem sendFrom_content (s : State) (ahead : Bool) (done as : List Access) (used : List (Nat × Nat)) :
    (sendFrom s ahead done as used).map Access.content = (done ++ as).map Access.content := by
  induction as generalizing done used with
  | nil => simp [sendFrom]
  | cons a as ih =>
    obtain ⟨haddr, hdata⟩ := sendLines_addr_data s done as a a.lines used
    simp only [sendFrom]
    split
    · rw [ih]
      simp [Access.content, Access.purpose, haddr, hdata]
    · rw [ih]
      simp

/-- Sending lines keeps what every access asks for. -/
theorem sendAll_content (s : State) : (sendAll s).accesses.map Access.content = s.accesses.map Access.content :=
  (sendFrom_content _ true [] _ _).trans (sendFrom_content _ false [] _ _)

/-- An access without a bill of its own, of lines that its requester has checked. -/
theorem startAccess_checked {job : Job} (h : job.regions = []) (cls : Nat) (kind : ReqKind) (req : Nat) (lines : List Line)
    (s : State) : startAccess cls [] kind req lines job s = sendAll { s with
      nextAccess := s.nextAccess + 1,
      accesses := s.accesses
        ++ [{ ident := s.nextAccess, kind := kind, req := req, lines := lines, paid := true, job := job }] } := by
  have hlines : issuedLines job lines s = (lines, s) := by
    have hinside : lines.any (outsideLine s job) = false := by simp [outsideLine, h]
    rw [issuedLines, hinside, if_neg Bool.false_ne_true]
  rw [startAccess_eq, hlines]
  rfl

/-- It stands among the accesses after the others, with its lines. -/
theorem startAccess_content {job : Job} (h : job.regions = []) (cls : Nat) (kind : ReqKind) (req : Nat) (lines : List Line)
    (s : State) : let u := startAccess cls [] kind req lines job s
    u.accesses.map Access.job = s.accesses.map Access.job ++ [job]
      ∧ ∃ a ∈ u.accesses, a.ident = s.nextAccess ∧ a.kind = kind ∧ a.job = job ∧ a.paid = true
        ∧ a.lines.map Line.addr = lines.map Line.addr ∧ a.lines.map Line.data = lines.map Line.data := by
  intro u
  have hcontent : u.accesses.map Access.content = s.accesses.map Access.content
      ++ [((s.nextAccess, kind, job), true, lines.map Line.addr, lines.map Line.data)] := by
    show (startAccess cls [] kind req lines job s).accesses.map Access.content = _
    rw [startAccess_checked h, sendAll_content, List.map_append]
    rfl
  have hjobs := congrArg (List.map fun x : (Nat × ReqKind × Job) × Bool × List Nat × List (List Byte) => x.1.2.2) hcontent
  rw [List.map_append, List.map_map, List.map_map] at hjobs
  refine ⟨hjobs, ?_⟩
  have hmem : ((s.nextAccess, kind, job), true, lines.map Line.addr, lines.map Line.data) ∈ u.accesses.map Access.content := by
    rw [hcontent]
    exact List.mem_append_right _ (List.mem_singleton.2 rfl)
  obtain ⟨a, ha, he⟩ := List.mem_map.1 hmem
  simp only [Access.content, Access.purpose, Prod.mk.injEq] at he
  obtain ⟨⟨hident, hkind, hjob⟩, hpaid, haddr, hdata⟩ := he
  exact ⟨a, ha, hident, hkind, hjob, hpaid, haddr, hdata⟩

/-- Nothing is different but the accesses. -/
theorem startAccess_rest {job : Job} (h : job.regions = []) (cls : Nat) (kind : ReqKind) (req : Nat) (lines : List Line)
    (s : State) (accesses : List Access) (next : Nat) :
    { startAccess cls [] kind req lines job s with accesses := accesses, nextAccess := next }
      = { s with accesses := accesses, nextAccess := next } := by
  have hsend (b : State) : { sendAll b with accesses := accesses, nextAccess := next }
      = { b with accesses := accesses, nextAccess := next } := rfl
  rw [startAccess_checked h, hsend]

/-! ### Lines -/

/-- The lines of a span read from a 64-byte boundary. -/
theorem readSpan_lines {y : Nat} (hy : y % 64 = 0) (n : Nat) (s : State) :
    (readSpan s y (64 * n)).map Line.addr = (List.range n).map (fun i => y + 64 * i)
      ∧ (readSpan s y (64 * n)).map Line.data = (List.range n).map fun _ => [] := by
  have hfirst : y / 64 * 64 = y := by omega
  have hcount : (y + 64 * n - y + 63) / 64 = n := by omega
  unfold readSpan
  dsimp only
  rw [hfirst, hcount, List.map_map, List.map_map]
  refine ⟨List.map_congr_left fun i _ => ?_, List.map_congr_left fun i _ => rfl⟩
  show (y + 64 * i) / 64 * 64 = y + 64 * i
  omega

/-- A run of scratch cut off at its front. -/
theorem scratchRead_add (s : State) (c x m n : Nat) :
    scratchRead s c x (m + n) = scratchRead s c x m ++ scratchRead s c (x + m) n := by
  induction m generalizing x with
  | zero => rw [Nat.zero_add]; rfl
  | succ m ih =>
    have hx : x + (m + 1) = x + 1 + m := by omega
    rw [Nat.add_right_comm, scratchRead, scratchRead, ih, hx, List.cons_append]

/-- A run of n lines of scratch, cut into lines. -/
theorem chunksOf_scratchRead (s : State) (c x n fuel : Nat) (hfuel : n < fuel) :
    chunksOf fuel 64 (scratchRead s c x (64 * n)) = (List.range n).map fun i => scratchRead s c (x + 64 * i) 64 := by
  induction n generalizing x fuel with
  | zero =>
    obtain ⟨fuel, rfl⟩ := Nat.exists_eq_succ_of_ne_zero (by omega : fuel ≠ 0)
    rfl
  | succ n ih =>
    obtain ⟨fuel, rfl⟩ := Nat.exists_eq_succ_of_ne_zero (by omega : fuel ≠ 0)
    have hsplit : scratchRead s c x (64 * (n + 1)) = scratchRead s c x 64 ++ scratchRead s c (x + 64) (64 * n) := by
      rw [← scratchRead_add]
      congr 1
      omega
    have hlen : (scratchRead s c x 64).length = 64 := scratchRead_length ..
    have hempty : (scratchRead s c x 64 ++ scratchRead s c (x + 64) (64 * n)).isEmpty = false := rfl
    rw [hsplit, chunksOf, hempty, if_neg Bool.false_ne_true, List.take_left' hlen, List.drop_left' hlen,
      ih (x + 64) fuel (by omega), List.range_succ_eq_map, List.map_cons, List.map_map]
    refine congrArg (_ :: ·) (List.map_congr_left fun i _ => ?_)
    show scratchRead s c (x + 64 + 64 * i) 64 = scratchRead s c (x + 64 * (i + 1)) 64
    congr 1
    omega

/-- The lines of a run of scratch written from a 64-byte boundary. -/
theorem writeSpan_lines {y : Nat} (hy : y % 64 = 0) (c x n : Nat) (s t : State) :
    (writeSpan t y (scratchRead s c x (64 * n))).map Line.addr = (List.range n).map (fun i => y + 64 * i)
      ∧ (writeSpan t y (scratchRead s c x (64 * n))).map Line.data
        = (List.range n).map fun i => scratchRead s c (x + 64 * i) 64 := by
  have hchunks : chunksOf ((scratchRead s c x (64 * n)).length + 1) 64 (scratchRead s c x (64 * n))
      = (List.range n).map fun i => scratchRead s c (x + 64 * i) 64 :=
    chunksOf_scratchRead s c x n _ (by rw [scratchRead_length]; omega)
  have hpad (z : Nat) : padTo 64 (scratchRead s c z 64) = scratchRead s c z 64 := by
    rw [padTo, scratchRead_length, Nat.sub_self]
    exact List.append_nil _
  unfold writeSpan
  rw [hchunks]
  refine ⟨List.ext_getElem (by simp) fun i hi _ => ?_, List.ext_getElem (by simp) fun i hi _ => ?_⟩
  · simp only [List.getElem_map, List.getElem_mapIdx, List.getElem_range]
    show (y + 64 * i) / 64 * 64 = y + 64 * i
    omega
  · simp only [List.getElem_map, List.getElem_mapIdx, List.getElem_range]
    exact hpad _

/-! ### The checks of a copy -/

theorem inRegion_bought (s : State) (w : Who) (p r a n : Nat) : inRegion (bought w p s) r a n = inRegion s r a n :=
  inRegion_spend ..

theorem xferRefusal_bought (s : State) (w : Who) (p : Nat) (f : Fields) (x y : Nat) :
    xferRefusal (bought w p s) f x y = xferRefusal s f x y := by
  unfold xferRefusal
  dsimp only
  rw [inRegion_bought]

/-- The number of lines of a copy. -/
theorem copyLines_eq (f : Fields) : immBits f 0 7 = f.imm.toNat % 128 := immBits_low f 7

theorem xferRefusal_count {s : State} {f : Fields} {x y : Nat} (h : f.imm.toNat % 128 = 0 ∨ 64 < f.imm.toNat % 128) :
    xferRefusal s f x y = some St.BAD_OP := by
  rw [xferRefusal, copyLines_eq, if_pos h]

/-- The spans of a copy: its scratch and its stack memory. -/
theorem xferRefusal_spans {s : State} {f : Fields} {x y n : Nat} (hn : f.imm.toNat % 128 = n) (hlow : 1 ≤ n) (hhigh : n ≤ 64) :
    xferRefusal s f x y
      = if x % 64 = 0 ∧ x + 64 * n ≤ 0x40000 ∧ y % 64 = 0 ∧ inRegion s 1 y (64 * n) = true then none else some St.BOUNDS := by
  subst hn
  have hcount : ¬(f.imm.toNat % 128 = 0 ∨ 64 < f.imm.toNat % 128) := by omega
  have hscratch : (!linesInScratch x (f.imm.toNat % 128)) = true
      ↔ ¬(x % 64 = 0 ∧ x + 64 * (f.imm.toNat % 128) ≤ 0x40000) := by
    simp only [linesInScratch, scratchSize, Bool.not_eq_true', ← Bool.not_eq_true, Bool.and_eq_true, decide_eq_true_eq]
  have hstack : (y % 64 ≠ 0 ∨ (!inRegion s 1 y (64 * (f.imm.toNat % 128))) = true)
      ↔ ¬(y % 64 = 0 ∧ inRegion s 1 y (64 * (f.imm.toNat % 128)) = true) := by
    rw [not_and_or, Bool.not_eq_true', Bool.not_eq_true]
  rw [xferRefusal, copyLines_eq, if_neg hcount]
  by_cases hx : x % 64 = 0 ∧ x + 64 * (f.imm.toNat % 128) ≤ 0x40000
  · rw [if_neg fun h => hscratch.1 h hx]
    by_cases hy : y % 64 = 0 ∧ inRegion s 1 y (64 * (f.imm.toNat % 128)) = true
    · rw [if_neg fun h => hstack.1 h hy, if_pos ⟨hx.1, hx.2, hy⟩]
    · rw [if_pos (hstack.2 hy), if_neg fun ⟨_, _, h⟩ => hy h]
  · rw [if_pos (hscratch.2 hx), if_neg fun ⟨h64, hend, _⟩ => hx ⟨h64, hend⟩]

/-! ### What a copy does -/

theorem actLdx_refused {s : State} {w : Who} {f : Fields} {st : Nat}
    (h : xferRefusal s f ((thread s w).reg f.a).toNat ((thread s w).reg f.b).toNat = some st) :
    actLdx w f s = putStatus w f.d st s := by
  rw [actLdx, h]

theorem actStx_refused {s : State} {w : Who} {f : Fields} {st : Nat}
    (h : xferRefusal s f ((thread s w).reg f.a).toNat ((thread s w).reg f.b).toNat = some st) :
    actStx w f s = putStatus w f.d st s := by
  rw [actStx, h]

theorem actLdx_sends {s : State} {w : Who} {f : Fields}
    (h : xferRefusal s f ((thread s w).reg f.a).toNat ((thread s w).reg f.b).toNat = none) :
    actLdx w f s = startAccess 0 [] .read 0 (readSpan s ((thread s w).reg f.b).toNat (64 * immBits f 0 7))
      (.ldx w f.d.toNat ((thread s w).reg f.a).toNat (immBits f 0 7)) (waitBusy w s) := by
  rw [actLdx, h]

theorem actStx_sends {s : State} {w : Who} {f : Fields}
    (h : xferRefusal s f ((thread s w).reg f.a).toNat ((thread s w).reg f.b).toNat = none) :
    actStx w f s = startAccess 0 [] .write 0 (writeSpan s ((thread s w).reg f.b).toNat
        (scratchRead s w.clerk.toNat ((thread s w).reg f.a).toNat (64 * immBits f 0 7)))
      (.stx w f.d.toNat (immBits f 0 7)) (waitBusy w s) := by
  rw [actStx, h]

theorem exec_ldx {s : State} {w : Who} {f : Fields} {n : Nat} (hn : f.imm.toNat % 128 = n)
    (h : Issues s w f 0x24 (5 + 40 * n)) : exec (.ldx w f) s = .next (actLdx w f (bought w (5 + 40 * n) s)) := by
  have hbill : lineCents f = 5 + 40 * n := by rw [lineCents, copyLines_eq, hn]
  exact exec_pays (op := opLdx w f) h (by rw [opLdx, hbill]; rfl) (by omega) rfl (by omega)

theorem exec_stx {s : State} {w : Who} {f : Fields} {n : Nat} (hn : f.imm.toNat % 128 = n)
    (h : Issues s w f 0x25 (5 + 40 * n)) : exec (.stx w f) s = .next (actStx w f (bought w (5 + 40 * n) s)) := by
  have hbill : lineCents f = 5 + 40 * n := by rw [lineCents, copyLines_eq, hn]
  exact exec_pays (op := opStx w f) h (by rw [opStx, hbill]; rfl) (by omega) rfl (by omega)

/-- A copy that starts: its thread waits, and nothing else changes but the accesses. -/
theorem copySent_frame {s : State} {w : Who} {c : Nat} (h : priceNow s c ≤ s.purse.balance) {job : Job} (hjob : job.regions = [])
    (kind : ReqKind) (lines : List Line) : let u := startAccess 0 [] kind 0 lines job (waitBusy w (bought w c s))
    thread u w = { issuedThread s w with wait := .busy }
      ∧ OnlyThread w s { u with accesses := s.accesses, nextAccess := s.nextAccess } := by
  obtain ⟨b, hb, hthread, hframe, _⟩ :=
    threadEffect_of_onThread (f := fun t => { t with wait := .busy }) h (Eq.refl (Host.Outcome.next (waitBusy w (bought w c s))))
  rw [← Host.Outcome.next.inj hb] at hthread hframe
  intro u
  refine ⟨(thread_of_threads (startAccess_frame ..).threads w).trans hthread, ?_⟩
  have haccesses (b : State) : (waitBusy w b).accesses = b.accesses ∧ (waitBusy w b).nextAccess = b.nextAccess := ⟨rfl, rfl⟩
  have hback (v : State) (ha : v.accesses = s.accesses) (hn : v.nextAccess = s.nextAccess) :
      { v with accesses := s.accesses, nextAccess := s.nextAccess } = v := by
    rw [← ha, ← hn]
  have hsame : { u with accesses := s.accesses, nextAccess := s.nextAccess } = waitBusy w (bought w c s) :=
    (startAccess_rest hjob ..).trans (hback _
      ((haccesses _).1.trans ((spend_accesses ..).trans (noteIssue_accesses ..)))
      ((haccesses _).2.trans ((spend_nextAccess ..).trans rfl)))
  rw [hsame]
  exact hframe

/-! ### The end of a copy -/

/-- A register write changes nothing of a thread but the register. -/
theorem Thread.setG_run (r : BitVec 4) (v : Word) (t : Thread) : (t.setG r v).st = t.st
    ∧ (t.setG r v).stepping = t.stepping ∧ (t.setG r v).stopAfter = t.stopAfter := by
  unfold Thread.setG
  split <;> exact ⟨rfl, rfl, rfl⟩

/-- A running thread goes on at an index, ready. -/
theorem goOn_ready {t : Thread} (pc : Nat) (hst : t.st = .running) (hstep : t.stepping = false) (hstop : t.stopAfter = false) :
    t.goOn pc = { t with pc := pc, wait := .ready } := by
  cases t
  subst hst hstep hstop
  rfl

/-- A running thread that waits for its access has its result word and goes on. -/
theorem answerThread_running {s : State} {w : Who} (hwait : (thread s w).wait = .busy) (hst : (thread s w).st = .running)
    (hstep : (thread s w).stepping = false) (hstop : (thread s w).stopAfter = false) (d : Nat) (v : Word) :
    answerThread w d v s = putG w (BitVec.ofNat 4 d) v s
      ∧ thread (putG w (BitVec.ofNat 4 d) v s) w
        = { (thread s w).setG (BitVec.ofNat 4 d) v with pc := (thread s w).pc + 1, wait := .ready } := by
  obtain ⟨hst', hstep', hstop'⟩ := Thread.setG_run (BitVec.ofNat 4 d) v (thread s w)
  have hthread : thread (putG w (BitVec.ofNat 4 d) v s) w
      = { (thread s w).setG (BitVec.ofNat 4 d) v with pc := (thread s w).pc + 1, wait := .ready } :=
    (thread_onThread_same ..).trans (goOn_ready _ (hst'.trans hst) (hstep'.trans hstep) (hstop'.trans hstop))
  have hruns : (thread (putG w (BitVec.ofNat 4 d) v s) w).st ≠ .halted := by
    rw [hthread]
    show ((thread s w).setG _ _).st ≠ _
    rw [hst', hst]
    decide
  refine ⟨?_, hthread⟩
  rw [answerThread, if_pos hwait]
  exact if_neg hruns

/-- Bytes that no instruction issued later has stored over read back. -/
theorem scratchByte_storeScratch_unstored {no c x i : Nat} {bs : List Byte} {s : State} (hi : i < bs.length)
    (hx : x + i < scratchSize) (h : storedLater s c no (x + i) = false) :
    scratchByte (storeScratch no c x bs s) c (x + i) = bs[i] := by
  have e : scratchByte (storeScratch no c x bs s) c (x + i) = scratchByte (scratchWrite c x
      (bs.mapIdx (fun i b => if storedLater s c no (x + i) then scratchByte s c (x + i) else b)) s) c (x + i) := rfl
  rw [e, scratchByte_scratchWrite_same s (by rw [List.length_mapIdx]; exact hi) hx, List.getElem_mapIdx, h,
    if_neg Bool.false_ne_true]

/-- The bytes of an LDX that has ended with ST_OK stand in scratch before its thread goes on. -/
theorem finishLdx_ok {s : State} {w : Who} (hwait : (thread s w).wait = .busy) (d x n : Nat) (data : List Byte) :
    finishLdx w d x n St.OK data s
      = answerThread w d (resultWord St.OK 0 n) (storeScratch (thread s w).no w.clerk.toNat x data s) := by
  rw [finishLdx, if_pos ⟨rfl, hwait⟩]

theorem finishLdx_failed {st : Nat} (h : st ≠ St.OK) (s : State) (w : Who) (d x n : Nat) (data : List Byte) :
    finishLdx w d x n st data s = answerThread w d (resultWord st 0 n) s := by
  rw [finishLdx, if_neg fun hok => h hok.1]

/-- A copy that starts, with its lines. -/
theorem copy_sends {s : State} {w : Who} {c : Nat} (h : priceNow s c ≤ s.purse.balance) {job : Job} (hjob : job.regions = [])
    {kind : ReqKind} {lines : List Line} {addrs : List Nat} {data : List (List Byte)}
    (hlines : lines.map Line.addr = addrs ∧ lines.map Line.data = data) {o : Host.Outcome State Fault Refusal}
    (ho : o = .next (startAccess 0 [] kind 0 lines job (waitBusy w (bought w c s)))) :
    Answers o fun u => thread u w = { issuedThread s w with wait := .busy }
      ∧ OnlyThread w s { u with accesses := s.accesses, nextAccess := s.nextAccess }
      ∧ u.accesses.map Access.job = s.accesses.map Access.job ++ [job]
      ∧ ∃ a ∈ u.accesses, a.ident = s.nextAccess ∧ a.kind = kind ∧ a.job = job ∧ a.paid = true
        ∧ a.lines.map Line.addr = addrs ∧ a.lines.map Line.data = data := by
  obtain ⟨hthread, hframe⟩ := copySent_frame h hjob kind lines
  obtain ⟨hjobs, a, ha, hident, hkind, hjob', hpaid, haddr, hdata⟩ :=
    startAccess_content hjob 0 kind 0 lines (waitBusy w (bought w c s))
  have hkept (b : State) : (waitBusy w b).accesses = b.accesses ∧ (waitBusy w b).nextAccess = b.nextAccess := ⟨rfl, rfl⟩
  rw [(hkept _).1, spend_accesses, noteIssue_accesses] at hjobs
  rw [(hkept _).2, spend_nextAccess] at hident
  exact ⟨_, ho, hthread, hframe, hjobs, a, ha, hident, hkind, hjob', hpaid, haddr.trans hlines.1, hdata.trans hlines.2⟩

/-- Settles O32: the checks of a copy, the access that it starts, and its end. -/
theorem copiesToAndFromStackMemory : Obligations.CopiesToAndFromStackMemory := by
  intro s w f t c x y n cents span sends
  have hlines : immBits f 0 7 = n := copyLines_eq f
  have hrefusal : xferRefusal (bought w cents s) f ((thread (bought w cents s) w).reg f.a).toNat
      ((thread (bought w cents s) w).reg f.b).toNat = xferRefusal s f x y := by
    rw [xferRefusal_bought, thread_bought]
  have hldx (h : Issues s w f 0x24 cents) := exec_ldx rfl h
  have hstx (h : Issues s w f 0x25 cents) := exec_stx rfl h
  have refused {st : Nat} (hst : xferRefusal s f x y = some st) :
      (Issues s w f 0x24 cents → Writes w f cents s (resultWord st 0 0) (exec (.ldx w f) s))
      ∧ (Issues s w f 0x25 cents → Writes w f cents s (resultWord st 0 0) (exec (.stx w f) s)) :=
    ⟨fun h => writes_putG h _ ((hldx h).trans (congrArg _ (actLdx_refused (hrefusal.trans hst)))),
      fun h => writes_putG h _ ((hstx h).trans (congrArg _ (actStx_refused (hrefusal.trans hst))))⟩
  refine ⟨fun hlow hhigh hspan => ?_, fun hcount => refused (xferRefusal_count hcount), fun hlow hhigh hspan => ?_,
    fun d st data hwait hst hstep hstop => ?_⟩
  · have hnone : xferRefusal s f x y = none := by rw [xferRefusal_spans (n := n) rfl hlow hhigh, if_pos hspan]
    obtain ⟨_, _, hy, _⟩ := hspan
    refine ⟨fun h => ?_, fun h => ?_⟩
    · have hexec := (hldx h).trans (congrArg _ (actLdx_sends (hrefusal.trans hnone)))
      rw [thread_bought, hlines] at hexec
      exact copy_sends h.balance rfl (readSpan_lines hy n _) hexec
    · have hexec := (hstx h).trans (congrArg _ (actStx_sends (hrefusal.trans hnone)))
      rw [thread_bought, hlines, scratchRead_bought] at hexec
      exact copy_sends h.balance rfl (writeSpan_lines hy c x n s _) hexec
  · exact refused (by rw [xferRefusal_spans (n := n) rfl hlow hhigh, if_neg hspan])
  · obtain ⟨hstxEnd, hthread⟩ := answerThread_running hwait hst hstep hstop d (resultWord st 0 n)
    refine ⟨?_, ?_, fun i hi hok hx hlater => ?_, fun hbad e z => ?_, fun e z => ?_⟩
    · by_cases hok : st = St.OK
      · subst hok
        obtain ⟨hend, hstored⟩ := answerThread_running (s := storeScratch (thread s w).no w.clerk.toNat x data s)
          hwait hst hstep hstop d (resultWord St.OK 0 n)
        rw [finishLdx_ok hwait, hend, hstored]
        rfl
      · rw [finishLdx_failed hok, hstxEnd, hthread]
    · rw [finishStx, hstxEnd, hthread]
    · subst hok
      obtain ⟨hend, _⟩ := answerThread_running (s := storeScratch (thread s w).no w.clerk.toNat x data s)
        hwait hst hstep hstop d (resultWord St.OK 0 n)
      rw [show (0 : Nat) = St.OK from rfl, finishLdx_ok hwait, hend, scratchByte_putG]
      exact scratchByte_storeScratch_unstored hi hx hlater
    · rw [finishLdx_failed hbad, hstxEnd, scratchByte_putG]
    · rw [finishStx, hstxEnd, scratchByte_putG]

end Sys2Proof.Machine
end

section
/-!
PROOFS. Keyed commands: the checks of a command, what it leaves when it is taken, and its end; what a maintenance activity
that begins leaves unchanged; and the ends of an image load and of ZEROISE.
-/

namespace Sys2Proof.Machine

/-! ### The end of a keyed command -/

/-- A keyed command has ended with a status. -/
def KeyedDone (u : State) (st : Nat) : Prop := u.kcw.run = none ∧ (reg u R.KCW_STAT).testBit 1 = true
  ∧ reg u R.KCW_STAT / 2 ^ 2 % 2 ^ 8 = st ∧ reg u R.KCW_TAG_LO = 0 ∧ reg u R.KCW_TAG_HI = 0

/-- Its run and its registers are what tells so. -/
theorem KeyedDone.of_kept {s t : State} {st : Nat} (h : KeyedDone s st) (hrun : t.kcw.run = s.kcw.run)
    (hregs : ∀ k ∈ [R.KCW_STAT, R.KCW_TAG_LO, R.KCW_TAG_HI], reg t k = reg s k) : KeyedDone t st := by
  obtain ⟨hnone, hbit, hst, hlo, hhi⟩ := h
  have hstat := hregs R.KCW_STAT (by decide)
  exact ⟨hrun.trans hnone, by rw [hstat, hbit], by rw [hstat, hst], (hregs _ (by decide)).trans hlo,
    (hregs _ (by decide)).trans hhi⟩

/-- The value KCW_STAT takes when a command ends. -/
def endedStat (v st : Nat) : Nat := setBits (setBits v 1 1 1) 2 8 st

theorem endedStat_fields (v : Nat) {st : Nat} (h : st < 256) : (endedStat v st % 2 ^ 32).testBit 1 = true
    ∧ endedStat v st % 2 ^ 32 / 2 ^ 2 % 2 ^ 8 = st := by
  have hdone : endedStat v st / 2 % 2 = 1 := by
    unfold endedStat setBits bits
    omega
  have hstatus : endedStat v st / 4 % 256 = st := by
    unfold endedStat setBits bits
    omega
  constructor
  · rw [Nat.testBit_eq_decide_div_mod_eq, decide_eq_true_eq]
    omega
  · omega

theorem reg_endKeyed (st : Nat) (s : State) (k : Nat) : reg (endKeyed st s) k
    = if k = R.KCW_STAT then endedStat (reg s R.KCW_STAT) st % 2 ^ 32
      else if k = R.KCW_TAG_LO ∨ k = R.KCW_TAG_HI then 0 else reg s k := by
  have hregs : reg (endKeyed st s) k = reg (setReg R.KCW_STAT (endedStat (reg s R.KCW_STAT) st)
      (setReg R.KCW_TAG_LO 0 (setReg R.KCW_TAG_HI 0 s))) k := rfl
  rw [hregs, reg_setReg, reg_setReg, reg_setReg]
  split
  · rfl
  · split
    next hlo => exact (if_pos (Or.inl hlo)).symm
    next hlo =>
      split
      next hhi => exact (if_pos (Or.inr hhi)).symm
      next hhi => exact (if_neg (not_or.2 ⟨hlo, hhi⟩)).symm

/-- The registers that the end of a keyed command leaves. -/
theorem reg_endKeyed_other (st : Nat) (s : State) {k : Nat} (h : k ∉ [R.KCW_STAT, R.KCW_TAG_LO, R.KCW_TAG_HI]) :
    reg (endKeyed st s) k = reg s k := by
  simp only [List.mem_cons, List.not_mem_nil, or_false, not_or] at h
  obtain ⟨hstat, hlo, hhi⟩ := h
  rw [reg_endKeyed, if_neg hstat, if_neg (not_or.2 ⟨hlo, hhi⟩)]

theorem endKeyed_done {st : Nat} (h : st < 256) (s : State) : KeyedDone (endKeyed st s) st := by
  obtain ⟨hbit, hst⟩ := endedStat_fields (reg s R.KCW_STAT) h
  have hstat : reg (endKeyed st s) R.KCW_STAT = endedStat (reg s R.KCW_STAT) st % 2 ^ 32 := reg_endKeyed ..
  refine ⟨rfl, by rw [hstat, hbit], by rw [hstat, hst], ?_, ?_⟩
  · rw [reg_endKeyed]
    rfl
  · rw [reg_endKeyed]
    rfl

@[simp] theorem endKeyed_kcw (st : Nat) (s : State) : (endKeyed st s).kcw = { s.kcw with run := none } := rfl

@[simp] theorem endKeyed_reserve (st : Nat) (s : State) : (endKeyed st s).reserve = s.reserve := rfl

/-! ### The checks of a keyed command -/

/-- A command that no rule holds is checked against epoch, key, tag and mark. -/
theorem checkHeld_checks {s : State} {r : KcwRun} (hrun : s.kcw.run = some r) (hstage : r.stage = .ready ∨ r.stage = .backoff)
    (hboot : s.boot.phase = 6) (hclk : clkUp s 24 = true) (hform : formGood r = true)
    (hback : Tab.get false s.kcw.backoff r.slot = false) : checkHeld s = checkKeyed r s := by
  rcases hstage with hstage | hstage <;> simp [checkHeld, hrun, hstage, hboot, hclk, hform, hback]

/-- A command of another form than Table 12.1 ends with ST_BAD_OP. -/
theorem checkHeld_malformed {s : State} {r : KcwRun} (hrun : s.kcw.run = some r) (hstage : r.stage = .ready)
    (hboot : s.boot.phase = 6) (hclk : clkUp s 24 = true) (hform : formGood r = false) :
    checkHeld s = endKeyed St.BAD_OP s := by
  simp [checkHeld, hrun, hstage, hboot, hclk, hform]

theorem checkKeyed_empty {s : State} {r : KcwRun} (h : s.kcw.epoch = none ∨ slotKey s r.slot = none) :
    checkKeyed r s = endKeyed St.KEY_EMPTY s := by
  unfold checkKeyed
  split
  next he hk => simp [he, hk] at h
  · rfl

theorem checkKeyed_wrong {s : State} {r : KcwRun} {e : Word} {k : BitVec 128} (he : s.kcw.epoch = some e)
    (hk : slotKey s r.slot = some k) (htag : cmacTag (keyBytes k) (keyedMessage s r e) ≠ r.tag) :
    checkKeyed r s = tagFailed r s := by
  simp only [checkKeyed, he, hk, ne_eq, htag, not_false_eq_true, if_true]

/-- A right tag ends the count of failures of its slot. -/
def failsCleared (r : KcwRun) (s : State) : State :=
  { s with kcw := { s.kcw with fails := Tab.set 0 s.kcw.fails r.slot 0 } }

theorem checkKeyed_right {s : State} {r : KcwRun} {e : Word} {k : BitVec 128} (he : s.kcw.epoch = some e)
    (hk : slotKey s r.slot = some k) (htag : cmacTag (keyBytes k) (keyedMessage s r e) = r.tag) :
    checkKeyed r s = if r.counter ≤ slotMark s r.slot then endKeyed St.COUNTER (bump R.KCW_CTRFAIL 1 (failsCleared r s))
      else takeKeyed r k (failsCleared r s) := by
  simp only [checkKeyed, failsCleared, he, hk, ne_eq, htag, not_true_eq_false, if_false]
  rfl

/-- A bump changes registers alone. -/
theorem bump_kcw (off n : Nat) (s : State) : (bump off n s).kcw = s.kcw := by
  unfold bump
  split <;> rfl

/-- What a wrong tag leaves. -/
theorem tagFailed_spec (r : KcwRun) (s : State) : let u := tagFailed r s
    let fails := Tab.get 0 s.kcw.fails r.slot
    KeyedDone u 0x30 ∧ reg u R.KCW_TAGFAIL = satAdd 32 (reg s R.KCW_TAGFAIL) 1
      ∧ Tab.get 0 u.kcw.fails r.slot = min (fails + 1) 8
      ∧ Tab.get false u.kcw.backoff r.slot = decide (8 ≤ fails + 1) ∧ u.kcw.marks = s.kcw.marks := by
  intro u fails
  have hkcw (b : State) : (endKeyed St.TAG (bump R.KCW_TAGFAIL 1 b)).kcw = { b.kcw with run := none } := by
    rw [← bump_kcw R.KCW_TAGFAIL 1 b]
    rfl
  refine ⟨endKeyed_done (by decide) _, ?_, ?_, ?_, ?_⟩
  · exact (reg_endKeyed_other _ _ (by decide)).trans (reg_bump_one ..)
  · exact (congrArg (fun k : KcwState => Tab.get 0 k.fails r.slot) (hkcw _)).trans (Tab.get_set_same ..)
  · exact (congrArg (fun k : KcwState => Tab.get false k.backoff r.slot) (hkcw _)).trans (Tab.get_set_same ..)
  · exact (congrArg (fun k : KcwState => k.marks) (hkcw _)).trans rfl

/-- What a counter that is not above the mark leaves. -/
theorem counterFailed_spec (r : KcwRun) (s : State) : let u := endKeyed St.COUNTER (bump R.KCW_CTRFAIL 1 (failsCleared r s))
    KeyedDone u 0x31 ∧ u.kcw.marks = s.kcw.marks ∧ reg u R.KCW_CTRFAIL = satAdd 32 (reg s R.KCW_CTRFAIL) 1
      ∧ Tab.get 0 u.kcw.fails r.slot = 0 := by
  intro u
  have hkcw (b : State) : (endKeyed St.COUNTER (bump R.KCW_CTRFAIL 1 b)).kcw = { b.kcw with run := none } := by
    rw [← bump_kcw R.KCW_CTRFAIL 1 b]
    rfl
  refine ⟨endKeyed_done (by decide) _, (congrArg (fun k : KcwState => k.marks) (hkcw _)).trans rfl, ?_, ?_⟩
  · exact (reg_endKeyed_other _ _ (by decide)).trans (reg_bump_one ..)
  · exact (congrArg (fun k : KcwState => Tab.get 0 k.fails r.slot) (hkcw _)).trans
      (Tab.get_set_same 0 s.kcw.fails r.slot 0)

/-! ### A command in the window -/

/-- The state in which the command of the window is checked. -/
def submitted (s : State) : State := { s with regOut := 0, kcw := { s.kcw with run := some (windowRun s) } }

theorem reg_submitted (s : State) (k : Nat) : reg (submitted s) k = reg s k := rfl

/-- A command that its own GO submits is checked at once. -/
theorem goWith_checks {p : KcwRun → Bool} {s : State} (hup : clkUp s 20 = true) (hrun : s.kcw.run = none)
    (hp : p (windowRun s) = true) : goWith p s = .next (sweep (checkHeld (submitted s))) := by
  have hwindow : windowRun { s with regOut := 0 } = windowRun s := rfl
  have hgo : goKeyed { s with regOut := 0 } = checkHeld (submitted s) := by
    rw [goKeyed, hrun, hwindow]
    rfl
  rw [goWith, viaPort_up hup, hwindow, if_pos hp, hgo]

/-- The commands of Table 12.1 are submitted by their opcode, a REPAIR by its action too. -/
theorem exec_submits {s : State} {c : Instr} (h : let r := windowRun s
    let action := (readRepair (operandWord r 0)).action
    c = .loadImage ∧ r.opcode = 1 ∨ c = .setCeiling ∧ r.opcode = 2 ∨ c = .remapRow ∧ r.opcode = 3 ∧ action = 1
      ∨ c = .retire ∧ r.opcode = 3 ∧ action = 2 ∨ c = .restore ∧ r.opcode = 3 ∧ action = 3
      ∨ c = .margin ∧ r.opcode = 3 ∧ action = 4 ∨ c = .setHash ∧ r.opcode = 4 ∨ c = .zeroise ∧ r.opcode = 5
      ∨ c = .debugUnlock ∧ r.opcode = 6) : ∃ p, exec c s = goWith p s ∧ p (windowRun s) = true := by
  have hrepair {a : Nat} (hop : (windowRun s).opcode = 3) (ha : (readRepair (operandWord (windowRun s) 0)).action = a) :
      isRepair a (windowRun s) = true := by rw [isRepair, decide_eq_true hop, decide_eq_true ha]; rfl
  rcases h with ⟨rfl, hop⟩ | ⟨rfl, hop⟩ | ⟨rfl, hop, ha⟩ | ⟨rfl, hop, ha⟩ | ⟨rfl, hop, ha⟩ | ⟨rfl, hop, ha⟩ | ⟨rfl, hop⟩
    | ⟨rfl, hop⟩ | ⟨rfl, hop⟩
  · exact ⟨fun r => decide (r.opcode = 1), rfl, decide_eq_true hop⟩
  · exact ⟨fun r => decide (r.opcode = 2), rfl, decide_eq_true hop⟩
  · exact ⟨isRepair 1, rfl, hrepair hop ha⟩
  · exact ⟨isRepair 2, rfl, hrepair hop ha⟩
  · exact ⟨isRepair 3, rfl, hrepair hop ha⟩
  · exact ⟨isRepair 4, rfl, hrepair hop ha⟩
  · exact ⟨fun r => decide (r.opcode = 4), rfl, decide_eq_true hop⟩
  · exact ⟨fun r => decide (r.opcode = 5), rfl, decide_eq_true hop⟩
  · exact ⟨fun r => decide (r.opcode = 6), rfl, decide_eq_true hop⟩

/-- An entry erased is gone. -/
theorem Tab.erase_erase {α : Type} (t : Tab α) (n : Nat) : Tab.erase (Tab.erase t n) n = Tab.erase t n := by
  induction t with
  | nil => rfl
  | cons q t ih =>
    obtain ⟨k, v⟩ := q
    by_cases hk : n = k
    · simp only [Tab.erase, if_pos hk, ih]
    · simp only [Tab.erase, if_neg hk, ih]

/-- A command is taken: its mark is raised, its slot has no failure, and KCW_DONE counts. -/
def markRaised (r : KcwRun) (key : BitVec 128) (s : State) : State :=
  setReg R.KCW_DONE (satAdd 32 (reg s R.KCW_DONE) 1) { s with kcw := { s.kcw with
    run := some { r with key := key }, marks := Tab.set 0 s.kcw.marks r.slot r.counter,
    fails := Tab.set 0 s.kcw.fails r.slot 0 } }

theorem takeKeyed_eq {r : KcwRun} {s : State} (hrun : s.kcw.run = some r) (key : BitVec 128) :
    takeKeyed r key (failsCleared r s) = if s.ledger.ready then
      journal (entry 9 0 0 (r.slot + r.opcode * 4) 0 r.counter ((s.kcw.epoch.map BitVec.toNat).getD 0) 0 false) []
        (.hwm r.slot r.counter) (setStage .journal (markRaised r key s))
    else carryOut { markRaised r key s with kcw := { (markRaised r key s).kcw with hwmPend := true } } := by
  have hfails : Tab.set 0 (Tab.set 0 s.kcw.fails r.slot 0) r.slot 0 = Tab.set 0 s.kcw.fails r.slot 0 :=
    Tab.erase_erase ..
  have hstate : { bump R.KCW_DONE 1 (onRun (fun x => { x with key := key }) (failsCleared r s)) with
      kcw := { (bump R.KCW_DONE 1 (onRun (fun x => { x with key := key }) (failsCleared r s))).kcw with
        marks := Tab.set 0 s.kcw.marks r.slot r.counter, fails := Tab.set 0 (Tab.set 0 s.kcw.fails r.slot 0) r.slot 0 } }
      = markRaised r key s := by
    rw [hfails, bump_kcw, onRun, failsCleared, hrun]
    rfl
  rw [← hstate]
  rfl

/-! ### What a maintenance activity that begins leaves -/

/-- Nothing that keyed commands place, no stream, and of the registers none but that of the spare bank's domain and those
of what follows by itself, is different. -/
structure ActivityKept (s t : State) : Prop where
  prog : t.prog = s.prog
  tenants : t.tenants = s.tenants
  grammars : t.grammars = s.grammars
  maskSets : t.maskSets = s.maskSets
  streams : t.streams = s.streams
  kcw : t.kcw = s.kcw
  regs : RegsKept (R.PWR_PDCTRL :: sweptRegs) s t

theorem ActivityKept.refl (s : State) : ActivityKept s s := ⟨rfl, rfl, rfl, rfl, rfl, rfl, fun _ _ => rfl⟩

theorem ActivityKept.trans {s t u : State} (h : ActivityKept s t) (k : ActivityKept t u) : ActivityKept s u :=
  ⟨k.prog.trans h.prog, k.tenants.trans h.tenants, k.grammars.trans h.grammars, k.maskSets.trans h.maskSets,
    k.streams.trans h.streams, k.kcw.trans h.kcw, fun i hi => (k.regs i hi).trans (h.regs i hi)⟩

theorem ActivityKept.reserve {s t : State} (h : ActivityKept s t) (r : ReserveState) :
    ActivityKept s { t with reserve := r } := ⟨h.prog, h.tenants, h.grammars, h.maskSets, h.streams, h.kcw, h.regs⟩

theorem startAccess_activityKept (cls : Nat) (bill : List (Nat × Nat)) (kind : ReqKind) (req : Nat) (lines : List Line)
    (job : Job) (s : State) : ActivityKept s (startAccess cls bill kind req lines job s) := by
  have h := startAccess_swept cls bill kind req lines job (Swept.refl s)
  exact ⟨h.prog, h.tenants, h.grammars, h.maskSets, (startAccess_frame ..).streams, h.kcw,
    fun i hi => h.regs i (List.not_mem_of_not_mem_cons hi)⟩

theorem askPd_activityKept (d : Nat) (s : State) : ActivityKept s (askPd d s) := ⟨rfl, rfl, rfl, rfl, rfl, rfl, fun _ _ => rfl⟩

theorem wakeSpare_activityKept (s : State) : ActivityKept s (wakeSpare s) := by
  have hclear : ActivityKept s (clearRegBit R.PWR_PDCTRL 1 s) :=
    ⟨rfl, rfl, rfl, rfl, rfl, rfl, fun _ hi => reg_setReg_other _ s fun e => hi (e ▸ List.mem_cons_self)⟩
  unfold wakeSpare
  dsimp only
  split
  · split
    · exact hclear.trans (askPd_activityKept ..)
    · exact hclear
  · exact .refl s

theorem fillFor_activityKept (a : Activity) (s : State) : ActivityKept s (fillFor a s) := by
  have hread (b : Nat) : ActivityKept s (readGolden b s) := by
    unfold readGolden
    extract_lets copy lines
    split
    · exact .refl s
    · exact startAccess_activityKept ..
  unfold fillFor
  split
  · split
    · exact wakeSpare_activityKept s
    · exact hread _
  · exact .refl s

theorem beginActivity_activityKept (a : Activity) (s : State) : ActivityKept s (beginActivity a s) := by
  have hleave (t : State) : ActivityKept t (leaveBanks a t) := by
    unfold leaveBanks
    split
    · exact (ActivityKept.refl t).reserve _
    · split
      · exact (ActivityKept.refl t).reserve _
      · exact .refl t
  exact (((ActivityKept.refl s).reserve _).trans (hleave _)).trans (fillFor_activityKept ..)

theorem endActivity_activityKept (a : Activity) (s : State) : ActivityKept s (endActivity a s) := by
  have hwaits (xs : List Activity) (t : State) : ActivityKept t (xs.foldl (fun s a => if (holder s a).isSome then s
      else beginActivity a { s with reserve := { s.reserve with waits := s.reserve.waits.erase a } }) t) := by
    induction xs generalizing t with
    | nil => exact .refl t
    | cons x xs ih =>
      rw [List.foldl_cons]
      refine ActivityKept.trans ?_ (ih _)
      split
      · exact .refl t
      · exact ((ActivityKept.refl t).reserve _).trans (beginActivity_activityKept ..)
  exact ((ActivityKept.refl s).reserve _).trans (hwaits _ _)

theorem automaticPass_activityKept (s : State) : ActivityKept s (automaticPass s) := by
  have hstart (t : State) : ActivityKept t (startOrWait scrubAct t) := by
    unfold startOrWait
    split
    · exact (ActivityKept.refl t).reserve _
    · exact beginActivity_activityKept ..
  unfold automaticPass
  split
  · exact ((ActivityKept.refl s).reserve _).trans (hstart _)
  · exact .refl s

/-! ### The end of an image load -/

/-- What loads place is unchanged. -/
def ImagesKept (s u : State) : Prop :=
  u.prog = s.prog ∧ u.tenants = s.tenants ∧ u.grammars = s.grammars ∧ u.maskSets = s.maskSets

theorem ImagesKept.trans {s t u : State} (h : ImagesKept s t) (k : ImagesKept t u) : ImagesKept s u := by
  obtain ⟨hprog, htenants, hgrammars, hsets⟩ := h
  obtain ⟨kprog, ktenants, kgrammars, ksets⟩ := k
  exact ⟨kprog.trans hprog, ktenants.trans htenants, kgrammars.trans hgrammars, ksets.trans hsets⟩

theorem endLoad_spec (o : LoadOps) {st : Nat} (h : st < 256) (s : State) :
    KeyedDone (endLoad o st s) st ∧ ImagesKept s (endLoad o st s) := by
  have hkept := endActivity_activityKept (loadActivity o) s
  exact ⟨endKeyed_done h _, hkept.prog, hkept.tenants, hkept.grammars, hkept.maskSets⟩

theorem logFailure_imagesKept (req st : Nat) (l : Line) (s : State) : ImagesKept s (logFailure req st l s) := by
  have hbump (off : Nat) : ImagesKept s (bump off 1 s) := ⟨rfl, rfl, rfl, rfl⟩
  have hset (off v : Nat) (t : State) : ImagesKept t (setReg off v t) := ⟨rfl, rfl, rfl, rfl⟩
  have hlog (lo vlo hi vhi : Nat) (t : State) : ImagesKept t (logFirst lo vlo hi vhi t) := by
    unfold logFirst
    split
    · exact ⟨rfl, rfl, rfl, rfl⟩
    · exact (hset lo _ t).trans (hset hi vhi _)
  exact (hbump _).trans (hlog ..)

theorem loadFailed_spec (o : LoadOps) {st : Nat} (h : st < 256) (s : State) :
    KeyedDone (loadFailed o st s) st ∧ ImagesKept s (loadFailed o st s) := by
  obtain ⟨hdone, hkept⟩ := endLoad_spec o h (logFailure 10 st
    (newLine (takeFree s).2 (o.addr + 64 * ((takeFree s).1 % max 1 (ceilDiv o.len 64))) []) (takeFree s).2)
  have hfree : ImagesKept s (takeFree s).2 := ⟨rfl, rfl, rfl, rfl⟩
  exact ⟨hdone, (hfree.trans (logFailure_imagesKept ..)).trans hkept⟩

/-- The image that a load reads has come, or its reading has failed. -/
theorem exec_imageLoadDone {s : State} {r : KcwRun} (hrun : s.kcw.run = some r) (hop : r.opcode = 1)
    (hstage : r.stage = .image) {data : List Byte} :
    (∀ st : Byte, st = 0x52 ∨ st = 0x53 → targetInUse r data = false →
        exec (.imageLoadDone data st) s = .next (sweep (loadFailed (readLoad r) st.toNat s)))
      ∧ (data.length = (readLoad r).len →
          exec (.imageLoadDone data 0x00) s = .next (sweep (takeImage r data (.imageLoadDone data 0x00) s))) := by
  have hat : atStage s 1 .image = true := by simp [atStage, hrun, hop, hstage]
  refine ⟨fun st hst huse => ?_, fun hlen => ?_⟩
  · have hfails : st.toNat = St.STACK_BUSY ∨ st.toNat = St.STACK_ERR := by
      rcases hst with rfl | rfl
      · exact Or.inl rfl
      · exact Or.inr rfl
    show execImageLoadDone data st s = _
    simp only [execImageLoadDone, hrun, hat, hfails, huse, Bool.not_true, Bool.false_eq_true, if_false, if_true]
  · have hstatus : ¬((0x00 : Byte).toNat = St.STACK_BUSY ∨ (0x00 : Byte).toNat = St.STACK_ERR) := by decide
    have hgood : ¬((0x00 : Byte).toNat ≠ St.OK ∨ data.length ≠ (readLoad r).len) := by
      rw [not_or, not_not, not_not]
      exact ⟨rfl, hlen⟩
    show execImageLoadDone data 0x00 s = _
    simp only [execImageLoadDone, hrun, hat, hstatus, hgood, Bool.not_true, Bool.false_eq_true, if_false]

/-! ### Programs -/

/-- A group of a list cut into groups. -/
theorem chunksOf_getElem {α : Type} {n : Nat} (fuel : Nat) (xs : List α) (i : Nat) (hi : n * i < xs.length)
    (hfuel : i < fuel) : (chunksOf fuel n xs)[i]? = some ((xs.drop (n * i)).take n) := by
  induction fuel generalizing xs i with
  | zero => omega
  | succ fuel ih =>
    have hne : xs.isEmpty = false := by
      cases xs with
      | nil => simp at hi
      | cons x xs => rfl
    rw [chunksOf, hne, if_neg Bool.false_ne_true]
    cases i with
    | zero => simp
    | succ i =>
      have hmul : n * (i + 1) = n + n * i := by rw [Nat.mul_succ, Nat.add_comm]
      rw [List.getElem?_cons_succ, ih (xs.drop n) i (by rw [List.length_drop]; omega) (by omega), List.drop_drop, hmul]

/-- How many groups there are at most. -/
theorem chunksOf_length {α : Type} {n : Nat} (hn : 0 < n) (fuel : Nat) (xs : List α) :
    (chunksOf fuel n xs).length * n < xs.length + n := by
  induction fuel generalizing xs with
  | zero => simp [chunksOf, hn]
  | succ fuel ih =>
    rw [chunksOf]
    cases xs with
    | nil => simp [hn]
    | cons x xs =>
      have hrest := ih ((x :: xs).drop n)
      rw [if_neg (by simp), List.length_cons, Nat.succ_mul]
      by_cases hlen : n ≤ (x :: xs).length
      · rw [List.length_drop] at hrest
        omega
      · have hnil : (x :: xs).drop n = [] := List.drop_eq_nil_of_le (by omega)
        have hnone : chunksOf fuel n ([] : List α) = [] := by cases fuel <;> rfl
        have hpos : 0 < (x :: xs).length := Nat.succ_pos _
        rw [hnil, hnone, List.length_nil]
        omega

/-- The words of an image that are whole, and how many words there are. -/
theorem words64_spec (data : List Byte) : (words64 data).length * 8 < data.length + 8
    ∧ ∀ i, 8 * i + 8 ≤ data.length → (words64 data)[i]? = some (ofLE ((data.drop (8 * i)).take 8)) := by
  refine ⟨?_, fun i hi => ?_⟩
  · rw [words64, List.length_map]
    exact chunksOf_length (by decide) _ data
  · rw [words64, List.getElem?_map, chunksOf_getElem _ data i (by omega) (by omega)]
    rfl

/-- Words placed one after another. -/
def placeWords (t : Tab Word) (b : Nat) (ws : List (Nat × Nat)) : Tab Word :=
  ws.foldl (fun t w => Tab.set 0 t (b + w.2) (BitVec.ofNat 64 w.1)) t

theorem placeWords_get (ws : List Nat) (b k n : Nat) (t : Tab Word) : Tab.get 0 (placeWords t b (ws.zipIdx k)) n
    = if b + k ≤ n then ((ws[n - (b + k)]?).map (BitVec.ofNat 64)).getD (Tab.get 0 t n) else Tab.get 0 t n := by
  induction ws generalizing k t with
  | nil => simp [placeWords]
  | cons w ws ih =>
    have hcons : placeWords t b ((w :: ws).zipIdx k)
        = placeWords (Tab.set 0 t (b + k) (BitVec.ofNat 64 w)) b (ws.zipIdx (k + 1)) := by
      rw [List.zipIdx_cons]
      rfl
    rw [hcons, ih, Tab.get_set]
    by_cases hn : n = b + k
    · subst hn
      rw [if_neg (by omega), if_pos rfl, if_pos le_rfl, Nat.sub_self]
      rfl
    · rw [if_neg hn]
      by_cases hk : b + k ≤ n
      · have hindex : n - (b + k) = n - (b + (k + 1)) + 1 := by omega
        rw [if_pos (by omega), if_pos hk, hindex, List.getElem?_cons_succ]
      · rw [if_neg (by omega), if_neg hk]

theorem placeProgram_prog (ws : List Nat) (s : State) (c : Nat) :
    (placeProgram ws s c).prog = placeWords s.prog (8192 * c) ws.zipIdx := by
  unfold placeProgram
  dsimp only
  split <;> rfl

/-- A program stands in every CLERK that takes it. -/
theorem placePrograms_get {ws : List Nat} (hlen : ws.length ≤ 8192) (cs : List Nat) {i x : Nat} (hx : ws[i]? = some x) (c : Nat)
    (s : State) : Tab.get 0 (cs.foldl (placeProgram ws) s).prog (8192 * c + i)
      = if c ∈ cs then BitVec.ofNat 64 x else Tab.get 0 s.prog (8192 * c + i) := by
  have hi : i < ws.length := (List.getElem?_eq_some_iff.1 hx).1
  induction cs generalizing s with
  | nil => rfl
  | cons d cs ih =>
    have hone : Tab.get 0 (placeProgram ws s d).prog (8192 * c + i)
        = if c = d then BitVec.ofNat 64 x else Tab.get 0 s.prog (8192 * c + i) := by
      rw [placeProgram_prog, placeWords_get, Nat.add_zero]
      by_cases hcd : c = d
      · subst hcd
        rw [if_pos (by omega), if_pos rfl, Nat.add_sub_cancel_left, hx]
        rfl
      · rw [if_neg hcd]
        split
        · have hnone : ws[8192 * c + i - 8192 * d]? = none := List.getElem?_eq_none (by omega)
          rw [hnone]
          rfl
        · rfl
    rw [List.foldl_cons, ih, hone]
    simp only [List.mem_cons]
    grind

/-! ### Images that are placed -/

theorem takeImage_tag {r : KcwRun} {data : List Byte} (huse : targetInUse r data = false) (cmd : Instr) (s : State)
    (htag : cmacTag (keyBytes r.key) data ≠ (readLoad r).tag) : takeImage r data cmd s = endLoad (readLoad r) St.IMAGE s := by
  simp only [takeImage, huse, htag, Bool.false_eq_true, if_false, ne_eq, not_false_eq_true, if_true]

theorem takeImage_program {r : KcwRun} {data : List Byte} (huse : targetInUse r data = false) (cmd : Instr) (s : State)
    (htag : cmacTag (keyBytes r.key) data = (readLoad r).tag) (hkind : (readLoad r).kind = 0) :
    takeImage r data cmd s = installProgram (readLoad r) data s := by
  simp only [takeImage, huse, htag, hkind, Bool.false_eq_true, if_false, ne_eq, not_true_eq_false, if_true]

theorem takeImage_grammar {r : KcwRun} {data : List Byte} (huse : targetInUse r data = false) (cmd : Instr) (s : State)
    (htag : cmacTag (keyBytes r.key) data = (readLoad r).tag) (hkind : (readLoad r).kind = 2) {g : GrammarImage}
    (hg : gramImage data = some g) : takeImage r data cmd s = installGrammar (readLoad r) g s := by
  simp [takeImage, huse, htag, hkind, hg]

theorem takeImage_set {r : KcwRun} {data : List Byte} (huse : targetInUse r data = false) (cmd : Instr) (s : State)
    (htag : cmacTag (keyBytes r.key) data = (readLoad r).tag) (hkind : (readLoad r).kind = 3) {m : MaskSetImage}
    (hm : setImage data = some m) : takeImage r data cmd s = installSet (readLoad r) m s := by
  simp [takeImage, huse, htag, hkind, hm]

/-- What the loader places is being written. -/
theorem startPlacing_spec {s : State} {r : KcwRun} (hrun : s.kcw.run = some r) (lines : List Line) (job : Job) :
    let u := startPlacing lines job s
    (∃ y, u.kcw.run = some y ∧ y.stage = .placing) ∧ ∃ a ∈ u.accesses, a.kind = .write ∧ a.job = job := by
  intro u
  have hkcw : u.kcw = (setStage .placing s).kcw := (startAccess_activityKept ..).kcw
  have hstage : (setStage .placing s).kcw.run = some { r with stage := .placing } := congrArg (Option.map _) hrun
  obtain ⟨a, ha, _, hkind, hjob⟩ :=
    startAccess_mem 1 (lineBill lines.length) .write 10 lines job (setStage .placing s)
  exact ⟨⟨_, (congrArg KcwState.run hkcw).trans hstage, rfl⟩, a, ha, hkind, hjob⟩

/-! ### The obligation -/

/-- The key of a slot replaced or emptied. -/
theorem setKey_spec {s : State} (hclk : clkUp s 24 = true) {n : Nat} (hn : n < 4) (he : s.kcw.epoch ≠ none)
    (x : Option (BitVec 128)) : let u := setKey n x s
    slotKey u n = x ∧ (∀ m, m ≠ n → slotKey u m = slotKey s m) ∧ { u with kcw := { u.kcw with keys := s.kcw.keys } } = s := by
  have hset : setKey n x s = { s with kcw := { s.kcw with keys := Tab.set none s.kcw.keys n x } } := by
    have hsome : s.kcw.epoch.isSome = true := Option.isSome_iff_ne_none.2 he
    rw [setKey, keyPortUp, hclk, hsome, decide_eq_true hn]
    rfl
  rw [hset]
  exact ⟨Tab.get_set_same .., fun m hm => Tab.get_set_other _ _ _ hm, rfl⟩

theorem setKey_ignored {s : State} {n : Nat} (h : clkUp s 24 = false ∨ 4 ≤ n ∨ s.kcw.epoch = none) (x : Option (BitVec 128)) :
    setKey n x s = s := by
  have hoff : (keyPortUp s && decide (n < 4) && s.kcw.epoch.isSome) = false := by
    rw [keyPortUp]
    rcases h with h | h | h
    · rw [h, Bool.false_and, Bool.false_and]
    · rw [decide_eq_false (Nat.not_lt.2 h), Bool.and_false, Bool.false_and]
    · rw [h, Option.isSome_none, Bool.and_false]
  rw [setKey, hoff, if_neg Bool.false_ne_true]

/-- The back-off of a slot has ended. -/
def backoffEnded (slot : Nat) (s : State) : State :=
  { s with kcw := { s.kcw with backoff := Tab.set false s.kcw.backoff slot false } }

theorem backoffEnded_slot (slot : Nat) (s : State) : Tab.get false (backoffEnded slot s).kcw.backoff slot = false :=
  Tab.get_set_same false s.kcw.backoff slot false

/-- The end of a back-off on which a command waits. -/
theorem exec_tagBackoffEnd {s : State} {n : BitVec 3} {r : KcwRun} (hrun : s.kcw.run = some r) (hstage : r.stage = .backoff)
    (hslot : r.slot = n.toNat) (hboot : s.boot.phase = 6) (hclk : clkUp s 24 = true) (hform : formGood r = true) :
    exec (.tagBackoffEnd n) s = .next (sweep (checkKeyed r (backoffEnded r.slot s))) := by
  have hchecks := checkHeld_checks (s := backoffEnded r.slot s) hrun (Or.inr hstage) hboot hclk hform
    (backoffEnded_slot ..)
  rw [← hchecks, hslot]
  rfl

/-- A command of the window that passes every check is taken. -/
theorem exec_taken {s : State} {c : Instr} {p : KcwRun → Bool} {k : BitVec 128} {e : Word} (hexec : exec c s = goWith p s)
    (hp : p (windowRun s) = true) (hup : clkUp s 20 = true) (hclk : clkUp s 24 = true) (hboot : s.boot.phase = 6)
    (hrun : s.kcw.run = none) (hform : formGood (windowRun s) = true)
    (hback : Tab.get false s.kcw.backoff (windowRun s).slot = false) (he : s.kcw.epoch = some e)
    (hk : slotKey s (windowRun s).slot = some k)
    (htag : cmacTag (keyBytes k) (keyedMessage s (windowRun s) e) = (windowRun s).tag)
    (hmark : slotMark s (windowRun s).slot < (windowRun s).counter) :
    exec c s = .next (sweep (takeKeyed (windowRun s) k (failsCleared (windowRun s) (submitted s)))) := by
  have hchecks := checkHeld_checks (s := submitted s) rfl (Or.inl rfl) hboot hclk hform hback
  have hright := checkKeyed_right (s := submitted s) (r := windowRun s) he hk htag
  rw [if_neg (show ¬(windowRun s).counter ≤ slotMark (submitted s) (windowRun s).slot from Nat.not_le.2 hmark)] at hright
  rw [hexec, goWith_checks hup hrun hp, hchecks, hright]

/-- Settles O55: the port, the checks, and the ends. -/
theorem keysAndKeyedEnds : Obligations.KeysAndKeyedEnds := by
  intro s done
  refine ⟨fun e hclk => ?_, fun n k => ?_, fun hup => ?_, fun n r hrun hstage hslot hboot hclk hform => ?_,
    fun hup hclk hboot hrun hopcode => ?_, fun r data hrun hop hstage => ?_, fun r hrun hop hstage => ?_,
    fun c k e => ?_⟩
  · have hport : keyPortUp s = true := hclk
    refine ⟨fun hnone => ?_, fun hsame => ?_, fun x hx hne => ?_⟩
    · show execKeyEpoch e s = _
      simp [execKeyEpoch, hport, hnone]
    · show execKeyEpoch e s = _
      simp [execKeyEpoch, hport, hsame]
    · show execKeyEpoch e s = _
      simp [execKeyEpoch, hport, hx, hne, setRegBit]
  · refine ⟨fun hclk hn he => ⟨⟨_, rfl, setKey_spec hclk hn he _⟩, ⟨_, rfl, setKey_spec hclk hn he _⟩⟩, fun h => ?_⟩
    exact ⟨congrArg Host.Outcome.next (setKey_ignored h _), congrArg Host.Outcome.next (setKey_ignored h _)⟩
  · show execDlock s = _
    rw [execDlock, viaPort_up hup, lockDebug]
  · have hexec := exec_tagBackoffEnd hrun hstage hslot hboot hclk hform
    refine ⟨fun hempty => ?_, fun e k he hk => ⟨fun htag => ?_, fun htag hcounter => ?_⟩⟩
    · rw [checkKeyed_empty (s := backoffEnded r.slot s) hempty] at hexec
      exact ⟨_, hexec, endKeyed_done (by decide) _, backoffEnded_slot r.slot s⟩
    · rw [checkKeyed_wrong (s := backoffEnded r.slot s) he hk htag] at hexec
      exact ⟨_, hexec, tagFailed_spec ..⟩
    · have hmark : r.counter ≤ slotMark (backoffEnded r.slot s) r.slot := hcounter
      rw [checkKeyed_right (s := backoffEnded r.slot s) he hk htag, if_pos hmark] at hexec
      exact ⟨_, hexec, counterFailed_spec ..⟩
  · have hform : formGood (windowRun s) = false := by simp [formGood, hopcode]
    have hexec : exec .malformedKeyedCommand s = .next (sweep (checkHeld (submitted s))) :=
      goWith_checks (p := fun r => (keyedForm r.opcode).isNone
        || (decide (r.opcode = 3) && !((List.range 4).any (fun a => isRepair (a + 1) r)))) hup hrun (by simp [hopcode])
    rw [checkHeld_malformed (s := submitted s) rfl rfl hboot hclk hform] at hexec
    have hkcw := endKeyed_kcw St.BAD_OP (submitted s)
    exact ⟨_, hexec, endKeyed_done (by decide) _, (congrArg (fun k : KcwState => k.marks) hkcw).trans rfl,
      (congrArg (fun k : KcwState => k.fails) hkcw).trans rfl, (endKeyed_reserve ..).trans rfl,
      fun k hk => (reg_endKeyed_other _ _ hk).trans (reg_submitted s k)⟩
  · intro o x huse
    obtain ⟨hfailed, hread⟩ := exec_imageLoadDone hrun hop hstage (data := data)
    refine ⟨fun st hst => ⟨_, hfailed st hst huse, loadFailed_spec o st.isLt s⟩, fun hlen htag => ?_, fun hlen htag => ?_⟩
    · have hexec := hread hlen
      rw [takeImage_tag huse _ s htag] at hexec
      exact ⟨_, hexec, endLoad_spec o (by decide) s⟩
    · refine ⟨fun hkind hmax => ?_, fun g hkind hg hgood => ?_, fun im m hkind him hvocab hregion hplace hchecks hgram => ?_⟩
      · have hexec := hread hlen
        rw [takeImage_program huse _ s htag hkind] at hexec
        obtain ⟨hdone, hprog, _⟩ := endLoad_spec o (st := St.OK) (by decide)
          (((namedClerks o).filter (clerkMemUp s)).foldl (placeProgram (words64 data)) s)
        refine ⟨_, hexec, hdone, fun c i hc hnamed hpower hi => ?_⟩
        obtain ⟨hwords, hword⟩ := words64_spec data
        have hmem : c ∈ (namedClerks o).filter (clerkMemUp s) := by
          simp only [namedClerks, List.mem_filter, List.mem_range]
          exact ⟨⟨hc, hnamed⟩, hpower⟩
        have hplaced := placePrograms_get (ws := words64 data) (by omega) ((namedClerks o).filter (clerkMemUp s))
          (hword i (by omega)) c s
        rw [if_pos hmem] at hplaced
        exact (congrArg (Tab.get 0 · (8192 * c + i)) hprog).trans hplaced
      · have hexec := hread hlen
        rw [takeImage_grammar huse _ s htag hkind hg] at hexec
        have hinstall : installGrammar o g s
            = startPlacing (writeSpan s (gramBase s o.target g.data.length) g.data) (.placedGrammar o.target g) s := by
          simp only [installGrammar, hgood]
        exact ⟨_, hexec, hinstall ▸ startPlacing_spec hrun _ _⟩
      · have hexec := hread hlen
        rw [takeImage_set huse _ s htag hkind him] at hexec
        have hinstall : installSet o im s
            = startPlacing (setWrites s m ++ checkWrites s o.target m) (.placedSet o.target m) s := by
          simp only [installSet, Nat.not_lt.2 hvocab, hregion, hplace, Nat.not_lt.2 hchecks, hgram, or_self, if_false]
        exact ⟨_, hexec, hinstall ▸ startPlacing_spec hrun _ _⟩
  · have hat : atStage s 5 .zeroing = true := by simp [atStage, hrun, hop, hstage]
    have hexec : exec .zeroiseDone s = .next (automaticPass (endKeyed St.OK s)) :=
      congrArg Host.Outcome.next (if_pos hat)
    have hkept := automaticPass_activityKept (endKeyed St.OK s)
    refine ⟨_, hexec, ?_, ?_, hkept.streams⟩
    · exact (endKeyed_done (st := St.OK) (by decide) s).of_kept (congrArg KcwState.run hkept.kcw)
        fun k hk => hkept.regs k (by revert k; decide)
    · exact (congrArg (fun k : KcwState => k.marks) hkept.kcw).trans rfl
  · intro r action hcommand hup hclk hboot hrun hform hback he hk htag hmark z
    obtain ⟨p, hgo, hp⟩ := exec_submits hcommand
    have hexec := exec_taken hgo hp hup hclk hboot hrun hform hback he hk htag hmark
    have htake := takeKeyed_eq (s := submitted s) (r := r) rfl k
    have hz : markRaised r k (submitted s) = z := rfl
    rw [hz] at htake
    refine ⟨fun hready => ?_, fun hready => ?_, fun u x hx hstage hslot hcounter => ?_⟩
    · rw [htake, if_neg (by rw [show (submitted s).ledger.ready = false from hready]; exact Bool.false_ne_true)] at hexec
      exact hexec
    · rw [htake, if_pos (show (submitted s).ledger.ready = true from hready)] at hexec
      have hkcw := (journal_swept (entry 9 0 0 (r.slot + r.opcode * 4) 0 r.counter
        (((submitted s).kcw.epoch.map BitVec.toNat).getD 0) 0 false) [] (.hwm r.slot r.counter)
        (Swept.refl (setStage .journal z))).kcw
      refine ⟨_, hexec, congrArg (fun k : KcwState => k.run) hkcw,
        (congrArg (fun k : KcwState => k.marks) hkcw).trans rfl, ?_⟩
      refine journal_entryMade _ _ rfl fun n j => ⟨rfl, ?_, rfl, ?_⟩
      · show r.slot + r.opcode * 4 = r.slot + 4 * r.opcode
        omega
      · show ((s.kcw.epoch.map BitVec.toNat).getD 0) = e.toNat
        rw [he]
        rfl
    · have hwaits : waitsForEntry u r.slot r.counter = true := by
        simp [waitsForEntry, waitsForMark, hx, hstage, hslot, hcounter]
      show (if waitsForEntry u r.slot r.counter then carryOut u else u) = _
      rw [if_pos hwaits]

end Sys2Proof.Machine
end

section
/-!
PROOFS. CLEARING: a row that comes before its tile, and a tile that waits for pages of the mask store though a mask of it is
ready. No step leads to such a tile, but the statement on rows does not ask for one that a step leads to.
-/

namespace Sys2Proof.Machine

/-! ### The counterexample -/

/-- A decision tile of stream 0's item 1 on its way from NOTARY over CLEARING, EXCHANGE and LEDGER to an egress port, its
descriptor of MODE 0, K 1, FMT 1 and ROWLEN 16 on the dense path, its stream without a grammar. -/
def denseDecision : Tile :=
  let d := toLE 8 (1 * 4 + 1 * 512 + 16 * 65536) ++ toLE 8 0x3F800000 ++ List.replicate 32 0 ++ maskWords MaskFields.open
  { kind := .decision, stream := 0, tenant := 0, payload := d, marks := [], runs := [], pieces := [], last := true,
    textEnd := true, eos := false, replay := false, tseq := 0, ledger := 1, settle := 0, origin := 0, ticket := 0xFFF,
    route := 0x9865 + 2 ^ 28, check := crc32c d, status := 0, flags := 0 }

/-- That tile at CLEARING: it waits for pages, and its mask, of token 0 alone, is ready. -/
def waitingWithMask : ClearTile :=
  { clearTile denseDecision Cfg.empty with pageWait := true, masks := [(0, 1)] }

/-- A block with its power domains up and coins in the balance, and that tile alone at CLEARING. -/
def waitingWithMaskState : State :=
  { State.reset with
    power := { State.reset.power with pds := (List.range 30).map (fun d => (d, PdState.released)) }
    purse := { State.reset.purse with balance := 1000000 }
    clear := { State.reset.clear with tiles := [waitingWithMask] } }

/-- The row of that tile's step, 16 elements in one beat, as it comes under the header 0. -/
def rowOfWaiting : Row :=
  { stream := 0, step := 0, pos := 0, bad := false, data := List.replicate 32 0, beats := 1, inBuf := 0, held := false }

/-- The tile's descriptor is good and its stream's only one at CLEARING, and the row does not match it, since it waits for
pages. -/
theorem rowOfWaiting_unmatched :
    descRefusal (stream waitingWithMaskState 0) denseDecision.hopAfter waitingWithMask.desc = none
    ∧ clearTile? waitingWithMaskState 0 = some waitingWithMask
    ∧ matchTile waitingWithMaskState rowOfWaiting = none := by decide +kernel

/-- The row comes on free ports, for the first time, before the grace has ended, and there is room to hold it. -/
theorem rowOfWaiting_early :
    logitUp waitingWithMaskState = true ∧ portBusy waitingWithMaskState = false
    ∧ rowAgain waitingWithMaskState rowOfWaiting = false
    ∧ marked waitingWithMaskState 0 0 .lost = false ∧ marked waitingWithMaskState 0 0 .refused = false
    ∧ stepFinished waitingWithMaskState 0 0 = false
    ∧ graceOver waitingWithMaskState (logitsOf waitingWithMaskState 0) = false
    ∧ rowOfWaiting.beats ≤ freeHold waitingWithMaskState := by decide +kernel

/-- Once the row is held, the tile selects from it: what chooses the next row for the lanes asks for a mask alone. -/
theorem rowOfWaiting_nextRow :
    placeRow rowOfWaiting waitingWithMaskState = keepRow rowOfWaiting true waitingWithMaskState
    ∧ nextRow (keepRow rowOfWaiting true waitingWithMaskState) 0
      = some (waitingWithMask, { rowOfWaiting with held := true, inBuf := 1 }, 1) := by
  obtain ⟨-, -, hagain, hlost, hrefused, hfinished, hgrace, hroom⟩ := rowOfWaiting_early
  obtain ⟨-, -, hunmatched⟩ := rowOfWaiting_unmatched
  refine ⟨?_, by decide +kernel⟩
  have hplace : placeRow rowOfWaiting waitingWithMaskState = earlyRow rowOfWaiting waitingWithMaskState := by
    simp [placeRow, hagain, hunmatched]
  have hpos : ¬ 0 < rowOfWaiting.pos := by decide
  rw [hplace, earlyRow]
  simp only [show rowOfWaiting.stream = 0 from rfl, show rowOfWaiting.step = 0 from rfl, hlost, hrefused, hfinished,
    hgrace, hpos, hroom]
  simp

/-- So the row is gone when what waits at the ports has been looked at again. -/
theorem rowOfWaiting_selected : (retryPort (placeRow rowOfWaiting waitingWithMaskState)).clear.rows = [] := by
  obtain ⟨hheld, -⟩ := rowOfWaiting_nextRow
  rw [hheld]
  decide +kernel

theorem exec_rowOfWaiting :
    exec (.logitRow 0 rowOfWaiting.data 1) waitingWithMaskState
      = .next (sweep (retryPort (placeRow rowOfWaiting waitingWithMaskState))) := by
  obtain ⟨hup, hfree, -⟩ := rowOfWaiting_early
  have hexec : exec (.logitRow 0 rowOfWaiting.data 1) waitingWithMaskState
      = execLogitRow 0 rowOfWaiting.data 1 waitingWithMaskState := rfl
  rw [hexec, execLogitRow]
  simp only [hup, hfree]
  rfl

/-- Refutes O48: a row before its tile is held, but not where the stream's tile waits for pages with its mask ready: the
tile then selects from the row at once, and no row is held. -/
theorem not_clearingSelects : ¬ Obligations.ClearingSelects := by
  unfold Obligations.ClearingSelects
  intro h
  obtain ⟨-, -, hstate⟩ := h
  obtain ⟨-, -, hrow, -⟩ := hstate waitingWithMaskState
  obtain ⟨hup, hfree, hagain, hlost, hrefused, hfinished, hgrace, hroom⟩ := rowOfWaiting_early
  obtain ⟨-, -, hunmatched⟩ := rowOfWaiting_unmatched
  obtain ⟨-, hheld, -⟩ := hrow 0 rowOfWaiting.data 1 hup hfree
  obtain ⟨u, hu, hrows⟩ := hheld hagain hunmatched hlost hrefused hfinished hgrace rfl hroom
  rw [exec_rowOfWaiting] at hu
  cases hu
  rw [sweep_clear, rowOfWaiting_selected] at hrows
  exact absurd hrows (by simp [waitingWithMaskState])

end Sys2Proof.Machine
end

section
/-!
PROOFS. The beat port: what page openings, settlements at CLEARING and the advances of DRAFT leave alone. They change
neither the port, nor DAY_NEXT, nor what tells whether a CLERK issues, nor the position to re-arm, nor any thread but that
of the DRAFT.
-/

namespace Sys2Proof.Machine

/-- What is watched while the events of a position take effect: the port, DAY_NEXT, the threads but perhaps one, the CLERKS
that issue, and the position to re-arm. -/
structure PositionView where
  beat : BeatState
  next : Tab Nat
  threads : Who → Option Thread
  ready : Nat → Bool
  rearm : Nat

/-- The watched part of a state, without thread `x`. -/
def positionView (x : Option Who) (s : State) : PositionView where
  beat := s.beat
  next := s.day.next
  threads := fun v => if x = some v then none else some (thread s v)
  ready := clerkReady s
  rearm := rearmPos s

/-- The registers that are watched. -/
abbrev rearmRegs : List Nat := [R.BEAT_REARM_LO, R.BEAT_REARM_HI]

variable (x : Option Who)

theorem positionView_of_swept {s t : State} (h : Swept s t) : positionView x t = positionView x s := by
  have hready : clerkReady t = clerkReady s := by
    funext c
    simp only [clerkReady, pdUp, clkUp, h.build, h.power, h.clerkFatal]
  have hrearm : rearmPos t = rearmPos s := by
    simp only [rearmPos, h.regs R.BEAT_REARM_LO (by decide), h.regs R.BEAT_REARM_HI (by decide)]
  unfold positionView
  simp only [h.beat, h.day, thread, h.threads, hready, hrearm]

/-- A record update of fields that are not watched. -/
@[simp] theorem put_position (u : State)
    (x_pending x_free x_emitted x_issueNo x_stores x_instId x_latch x_heldLo x_regOut x_prog x_scratch x_tickets
    x_ticketNext x_lastIssued x_streams x_teller x_hops x_tenants x_genNext x_prefetch x_grammars
    x_maskSets x_sortStep x_sortTemp x_sortDead x_clear x_egress0 x_egress1 x_accesses x_nextAccess x_ledger x_queue0
    x_queue1 x_queue2 x_queue3 x_kcw x_purse x_reserve x_boot x_trcOut x_testOut) :
    positionView x (State.mk x_pending u.build x_free x_emitted x_issueNo x_stores x_instId u.regs x_latch x_heldLo x_regOut
      u.threads x_prog x_scratch x_tickets x_ticketNext x_lastIssued u.clerkFatal x_streams u.beat u.day x_teller x_hops
      x_tenants x_genNext x_prefetch x_grammars x_maskSets x_sortStep x_sortTemp x_sortDead x_clear x_egress0 x_egress1
      x_accesses x_nextAccess x_ledger x_queue0 x_queue1 x_queue2 x_queue3 x_kcw x_purse x_reserve u.power x_boot
      x_trcOut x_testOut) = positionView x u := rfl

@[simp] theorem ite_position (c : Prop) [Decidable c] (a b : State) :
    positionView x (if c then a else b) = if c then positionView x a else positionView x b := apply_ite ..

@[simp] theorem foldl_position {α : Type} (f : State → α → State) (xs : List α) (t : State)
    (hf : ∀ t y, positionView x (f t y) = positionView x t) : positionView x (xs.foldl f t) = positionView x t := by
  induction xs generalizing t with
  | nil => rfl
  | cons y ys ih => exact (ih _).trans (hf _ _)

@[simp] theorem setReg_position {off : Nat} (v) (t : State) (hoff : off ∉ rearmRegs) :
    positionView x (setReg off v t) = positionView x t := by
  have hreg (k) (hk : k ∈ rearmRegs) : reg (setReg off v t) k = reg t k :=
    reg_setReg_other v t (fun e => hoff (e ▸ hk))
  have hrearm : rearmPos (setReg off v t) = rearmPos t := by
    simp only [rearmPos, hreg R.BEAT_REARM_LO (by decide), hreg R.BEAT_REARM_HI (by decide)]
  unfold positionView
  rw [hrearm]
  rfl

@[simp] theorem bump_position {off : Nat} (n) (t : State) (hoff : off ∉ rearmRegs) :
    positionView x (bump off n t) = positionView x t := by
  simp [bump, hoff]

@[simp] theorem setRegBit_position {off : Nat} (i) (t : State) (hoff : off ∉ rearmRegs) :
    positionView x (setRegBit off i t) = positionView x t := setReg_position x _ t hoff

@[simp] theorem clearRegBit_position {off : Nat} (i) (t : State) (hoff : off ∉ rearmRegs) :
    positionView x (clearRegBit off i t) = positionView x t := setReg_position x _ t hoff

@[simp] theorem bump64_position {off : Nat} (n) (t : State) (hlo : off ∉ rearmRegs) (hhi : off + 4 ∉ rearmRegs) :
    positionView x (bump64 off n t) = positionView x t := by
  simp [bump64, -List.mem_cons, hlo, hhi]

@[simp] theorem logFirst_position {lo hi : Nat} (vlo vhi) (t : State) (hlo : lo ∉ rearmRegs) (hhi : hi ∉ rearmRegs) :
    positionView x (logFirst lo vlo hi vhi t) = positionView x t := by
  simp [logFirst, -List.mem_cons, hlo, hhi]

@[simp] theorem takeFree_position (t : State) : positionView x (takeFree t).2 = positionView x t :=
  positionView_of_swept x (takeFree_swept (Swept.refl t))

@[simp] theorem bumpFree_position {off : Nat} (t : State) (hoff : off ∉ rearmRegs) :
    positionView x (bumpFree off t) = positionView x t := by
  simp [bumpFree, -List.mem_cons, hoff]

/-- A change of the thread that is left out. -/
@[simp] theorem setThread_position (w t') (t : State) :
    positionView (some w) (setThread w t' t) = positionView (some w) t := by
  unfold positionView
  congr 1
  funext v
  by_cases hv : w = v
  · simp [hv]
  · simp only [Option.some.injEq, hv, if_false]
    rw [thread_setThread_other t' t (Who.key_ne (Ne.symm hv))]

@[simp] theorem onThread_position (w f) (t : State) : positionView (some w) (onThread w f t) = positionView (some w) t := by
  simp [onThread]

@[simp] theorem storeScratch_position (no c a bs) (t : State) :
    positionView x (storeScratch no c a bs t) = positionView x t :=
  positionView_of_swept x (storeScratch_swept _ _ _ _ (Swept.refl t))

@[simp] theorem onStream_position (n f) (t : State) : positionView x (onStream n f t) = positionView x t :=
  positionView_of_swept x (onStream_swept _ _ (Swept.refl t))

@[simp] theorem noteLoss_position (i) (t : State) : positionView x (noteLoss i t) = positionView x t :=
  positionView_of_swept x (noteLoss_swept _ (Swept.refl t))

@[simp] theorem passOn_position (hop t') (t : State) : positionView x (passOn hop t' t) = positionView x t :=
  positionView_of_swept x (passOn_swept _ _ (Swept.refl t))

@[simp] theorem onItem_position (n f) (t : State) : positionView x (onItem n f t) = positionView x t :=
  positionView_of_swept x (onItem_swept _ _ (Swept.refl t))

@[simp] theorem noteEmission_position (part ledger data) (t : State) :
    positionView x (noteEmission part ledger data t) = positionView x t :=
  positionView_of_swept x (noteEmission_swept _ _ _ (Swept.refl t))

@[simp] theorem reportItem_position (n status flags) (t : State) :
    positionView x (reportItem n status flags t) = positionView x t :=
  positionView_of_swept x (reportItem_swept _ _ _ (Swept.refl t))

@[simp] theorem report_position (t' status flags) (t : State) :
    positionView x (report t' status flags t) = positionView x t :=
  positionView_of_swept x (report_swept _ _ _ (Swept.refl t))

@[simp] theorem payBill_position (y0) (t : State) : positionView x (payBill y0 t).1 = positionView x t :=
  positionView_of_swept x (payBill_swept _ (Swept.refl t))

@[simp] theorem joinPurse_position (p) (t : State) : positionView x (joinPurse p t) = positionView x t :=
  positionView_of_swept x (joinPurse_swept _ (Swept.refl t))

@[simp] theorem buy_position (cls bill cmd onWait body) (t : State)
    (hwait : ∀ u, positionView x (onWait u) = positionView x u)
    (hbody : ∀ u, positionView x (body u) = positionView x u) :
    positionView x (buy cls bill cmd onWait body t) = positionView x t := by
  have hpay : positionView x (payBill bill t).1 = positionView x t := payBill_position x bill t
  unfold buy
  repeat' split
  all_goals simp_all

@[simp] theorem startAccess_position (cls bill kind req lines job) (t : State) :
    positionView x (startAccess cls bill kind req lines job t) = positionView x t :=
  positionView_of_swept x (startAccess_swept _ _ _ _ _ _ (Swept.refl t))

@[simp] theorem dropAccesses_position (p) (t : State) : positionView x (dropAccesses p t) = positionView x t := by
  simp [dropAccesses]

@[simp] theorem completeItem_position (n status next) (t : State) :
    positionView x (completeItem n status next t) = positionView x t :=
  positionView_of_swept x (completeItem_swept _ _ _ (Swept.refl t))

@[simp] theorem numberTile_position (h' t') (t : State) : positionView x (numberTile h' t' t).2 = positionView x t :=
  positionView_of_swept x (numberTile_swept _ _ (Swept.refl t))

@[simp] theorem holdStream_position (n h' item) (t : State) :
    positionView x (holdStream n h' item t) = positionView x t := by simp [holdStream]

@[simp] theorem refuseTile_position (h' t' status) (t : State) :
    positionView x (refuseTile h' t' status t) = positionView x t := by simp [refuseTile]

/-! ### CLEARING -/

@[simp] theorem onClear_position (n f) (t : State) : positionView x (onClear n f t) = positionView x t := by
  simp [onClear]

@[simp] theorem dropRows_position (n step) (t : State) : positionView x (dropRows n step t) = positionView x t := by
  simp [dropRows]

@[simp] theorem clearMarks_position (n step) (t : State) : positionView x (clearMarks n step t) = positionView x t := by
  simp [clearMarks]

@[simp] theorem markStep_position (n step k) (t : State) : positionView x (markStep n step k t) = positionView x t := by
  simp [markStep]

@[simp] theorem stepLost_position (n step) (t : State) : positionView x (stepLost n step t) = positionView x t := by
  simp [stepLost]

@[simp] theorem clgErr_position (n status step) (t : State) :
    positionView x (clgErr n status step t) = positionView x t := by simp [clgErr]

@[simp] theorem dropClearWork_position (n) (t : State) : positionView x (dropClearWork n t) = positionView x t := by
  simp [dropClearWork]

@[simp] theorem leaveClearing_position (n c as) (t : State) :
    positionView x (leaveClearing n c as t) = positionView x t := by simp [leaveClearing]

@[simp] theorem undoCommits_position (n c) (t : State) : positionView x (undoCommits n c t) = positionView x t := by
  simp [undoCommits]

@[simp] theorem endWithheld_position (c status) (t : State) :
    positionView x (endWithheld c status t) = positionView x t := by simp [endWithheld]

@[simp] theorem withhold_position (n c status) (t : State) :
    positionView x (withhold n c status t) = positionView x t := by simp [withhold]

@[simp] theorem refuseClear_position (n c status) (t : State) :
    positionView x (refuseClear n c status t) = positionView x t := by simp [refuseClear]

@[simp] theorem finishSelect_position (n c bytes status tie list) (t : State) :
    positionView x (finishSelect n c bytes status tie list t) = positionView x t := by simp [finishSelect]

@[simp] theorem commitToken_position (n c t') (t : State) :
    positionView x (commitToken n c t' t) = positionView x t := by simp [commitToken]

@[simp] theorem endSelection_position (n c p) (t : State) :
    positionView x (endSelection n c p t) = positionView x t := by simp [endSelection]

@[simp] theorem endDraft_position (n c status tie) (t : State) :
    positionView x (endDraft n c status tie t) = positionView x t := by simp [endDraft]

@[simp] theorem stopDraft_position (n c) (t : State) : positionView x (stopDraft n c t) = positionView x t := by
  simp [stopDraft]

@[simp] theorem draftPosition_position (n c p) (t : State) :
    positionView x (draftPosition n c p t) = positionView x t := by
  unfold draftPosition
  split <;> simp

@[simp] theorem selectRow_position (n) (t : State) : positionView x (selectRow n t) = positionView x t := by
  unfold selectRow
  split <;> simp

@[simp] theorem runLanes_position (fuel) (t : State) : positionView x (runLanes fuel t) = positionView x t := by
  induction fuel generalizing t with
  | zero => rfl
  | succ fuel ih =>
    unfold runLanes
    repeat' split
    all_goals simp [ih]

@[simp] theorem runRows_position (t : State) : positionView x (runRows t) = positionView x t := by simp [runRows]

@[simp] theorem keepRow_position (r held) (t : State) : positionView x (keepRow r held t) = positionView x t := by
  simp [keepRow]

@[simp] theorem holdPort_position (r) (t : State) : positionView x (holdPort r t) = positionView x t := by
  simp [holdPort]

@[simp] theorem discardEarly_position (r) (t : State) : positionView x (discardEarly t r) = positionView x t := by
  unfold discardEarly
  dsimp only
  split <;> simp

@[simp] theorem earlyRow_position (r) (t : State) : positionView x (earlyRow r t) = positionView x t := by
  simp [earlyRow]

@[simp] theorem matchedRow_position (c r) (t : State) : positionView x (matchedRow c r t) = positionView x t := by
  simp [matchedRow]

@[simp] theorem placeRow_position (r) (t : State) : positionView x (placeRow r t) = positionView x t := by
  unfold placeRow
  repeat' split
  all_goals simp

@[simp] theorem retryPort_position (t : State) : positionView x (retryPort t) = positionView x t := by
  unfold retryPort
  dsimp only
  split <;> simp

@[simp] theorem sendMessage_position (n bank) (t : State) :
    positionView x (sendMessage n bank t) = positionView x t := by
  unfold sendMessage
  split <;> simp

@[simp] theorem sendMessages_position (n) (t : State) : positionView x (sendMessages n t) = positionView x t := by
  unfold sendMessages
  split <;> simp

@[simp] theorem trySend_position (n) (t : State) : positionView x (trySend n t) = positionView x t := by
  unfold trySend
  repeat' split
  all_goals simp

@[simp] theorem withholdAhead_position (t') (t : State) : positionView x (withholdAhead t t') = positionView x t := by
  simp [withholdAhead]

@[simp] theorem withholdHeld_position (t : State) : positionView x (withholdHeld t) = positionView x t := by
  simp [withholdHeld]

/-! ### Pages -/

theorem putDay_position (f : DayState → DayState) (hf : ∀ d, (f d).next = d.next) (t : State) :
    positionView x { t with day := f t.day } = positionView x t := by
  unfold positionView
  rw [show ({ t with day := f t.day } : State).day.next = t.day.next from hf t.day]
  rfl

@[simp] theorem onFetch_position (k g) (t : State) : positionView x (onFetch k g t) = positionView x t := rfl

@[simp] theorem readPage_position (c) (t : State) : positionView x (readPage c t) = positionView x t := by
  unfold readPage
  split <;> simp

@[simp] theorem openPage_position (c step) (t : State) : positionView x (openPage c step t) = positionView x t :=
  readPage_position ..

/-! ### The advances of DRAFT, and the errors of VAULT that their lookups meet -/

theorem clerks_le (z : Size) : z.clerks ≤ 8 := by cases z <;> decide

/-- The power domain of the spare banks is no CLERK's. -/
@[simp] theorem setPd_position (d') (t : State) : positionView x (setPd 19 d' t) = positionView x t := by
  have hready : clerkReady (setPd 19 d' t) = clerkReady t := by
    funext c
    by_cases hc : c < t.build.size.clerks
    · have hle := clerks_le t.build.size
      have hpd : Tab.get .off (setPd 19 d' t).power.pds (1 + c / 2) = Tab.get .off t.power.pds (1 + c / 2) :=
        Tab.get_set_other _ _ _ (by omega)
      simp only [clerkReady, pdUp, hpd]
      rfl
    · simp [clerkReady, setPd, hc]
  unfold positionView
  rw [hready]
  rfl

@[simp] theorem wakeSpare_position (t : State) : positionView x (wakeSpare t) = positionView x t := by
  simp [wakeSpare, askPd]

@[simp] theorem readGolden_position (bank) (t : State) : positionView x (readGolden bank t) = positionView x t := by
  simp [readGolden]

@[simp] theorem fillFor_position (a) (t : State) : positionView x (fillFor a t) = positionView x t := by
  unfold fillFor
  split <;> simp

@[simp] theorem leaveBanks_position (a) (t : State) : positionView x (leaveBanks a t) = positionView x t := by
  simp [leaveBanks]

@[simp] theorem beginActivity_position (a) (t : State) : positionView x (beginActivity a t) = positionView x t := by
  simp [beginActivity]

@[simp] theorem startOrWait_position (a) (t : State) : positionView x (startOrWait a t) = positionView x t := by
  simp [startOrWait]

@[simp] theorem takeOut_position (cls i) (t : State) : positionView x (takeOut cls i t) = positionView x t := by
  simp [takeOut]

@[simp] theorem standIn_position (cls u p) (t : State) : positionView x (standIn cls u p t) = positionView x t := by
  simp [standIn]

@[simp] theorem rsvEvent_position (status cls idx macro_ row) (t : State) :
    positionView x (rsvEvent status cls idx macro_ row t) = positionView x t := by simp [rsvEvent]

@[simp] theorem spareOut_position (cls i) (t : State) : positionView x (spareOut cls i t) = positionView x t := by
  simp [spareOut]

@[simp] theorem audFault_position (cls idx status ledger) (t : State) :
    positionView x (audFault cls idx status ledger t) = positionView x t := by simp [audFault]

@[simp] theorem discardTiles_position (n) (t : State) : positionView x (discardTiles n t) = positionView x t := by
  simp [discardTiles]

@[simp] theorem restoreStream_position (n) (t : State) : positionView x (restoreStream n t) = positionView x t := by
  simp [restoreStream]

@[simp] theorem deliverAgain_position (n bs) (t : State) : positionView x (deliverAgain n bs t) = positionView x t := by
  unfold deliverAgain
  split
  · rfl
  · exact (putDay_position x (fun d => { d with queues := _ }) (fun _ => rfl) _).trans (onItem_position ..)

@[simp] theorem readLog_position (m off len job) (t : State) :
    positionView x (readLog m off len job t) = positionView x t :=
  positionView_of_swept x (readLog_swept _ _ _ _ (Swept.refl t))

@[simp] theorem feedAll_position (t : State) : positionView x (feedAll t) = positionView x t :=
  positionView_of_swept x (feedAll_swept (Swept.refl t))

@[simp] theorem cutItem_position (log i clerk ticket) (t : State) :
    positionView x (cutItem log i clerk ticket t) = positionView x t := by simp [cutItem]

@[simp] theorem reissue_position (log n) (t : State) : positionView x (reissue log n t) = positionView x t := by
  unfold reissue
  dsimp only
  repeat' split
  all_goals simp

@[simp] theorem replayStream_position (n) (t : State) : positionView x (replayStream n t) = positionView x t := by
  simp [replayStream, readCkpt]

@[simp] theorem cleanCheck_position (b) (t : State) : positionView x (cleanCheck b t) = positionView x t := by
  simp [cleanCheck]

@[simp] theorem clearPoison_position (b) (t : State) : positionView x (clearPoison b t) = positionView x t := by
  simp [clearPoison]

@[simp] theorem startReload_position (k) (t : State) : positionView x (startReload k t) = positionView x t := by
  unfold startReload
  split <;> simp

@[simp] theorem bankAbsent_position (b) (t : State) : positionView x (bankAbsent b t) = positionView x t := by
  simp [bankAbsent]

@[simp] theorem poisonBank_position (b) (t : State) : positionView x (poisonBank b t) = positionView x t := by
  simp [poisonBank]

@[simp] theorem addPending_position (r) (t : State) : positionView x (addPending r t) = positionView x t := by
  simp [addPending]

@[simp] theorem mapRow_position (f m row spare) (t : State) :
    positionView x (mapRow f m row spare t) = positionView x t := by simp [mapRow]

/-- A bank of VAULT taken out of service. -/
@[simp] theorem retireUnit_bank_position (i) (t : State) :
    positionView x (retireUnit 0 i t).1 = positionView x t := by
  unfold retireUnit
  dsimp only
  repeat' split
  all_goals simp_all

@[simp] theorem retireLive_bank_position (i) (t : State) : positionView x (retireLive 0 i t) = positionView x t := by
  simp [retireLive]

@[simp] theorem remapRow_vault_position (m row live) (t : State) :
    positionView x (remapRow 0 m row live t).1 = positionView x t := by
  have hspent (u : State) : positionView x (spentMacro 0 m row live u).1 = positionView x u := by
    unfold spentMacro
    simp only [if_true]
    split <;> simp
  unfold remapRow
  dsimp only
  repeat' split
  all_goals simp [hspent]

@[simp] theorem vaultError_position (hw ledger) (t : State) :
    positionView x (vaultError hw ledger t) = positionView x t := by
  unfold vaultError
  split <;> simp

@[simp] theorem readError_position (r ledger) (t : State) :
    positionView x (readError r ledger t) = positionView x t := by
  unfold readError
  dsimp only
  split <;> simp

@[simp] theorem lookupError_position (n ledger ts) (t : State) :
    positionView x (lookupError n ledger ts t) = positionView x t := by simp [lookupError]

@[simp] theorem noteBanks_position (ledger r) (t : State) :
    positionView x (noteBanks ledger r t) = positionView x t := by simp [noteBanks]

@[simp] theorem countReads_position (ledger r) (t : State) :
    positionView x (countReads ledger r t) = positionView x t := by
  have hbanks := bump64_position x r.banks.length t (off := R.VLT_LOOKUPS_LO) (by decide) (by decide)
  have hovf (u) := bump64_position x r.ovf.length u (off := R.VLT_OVF_LO) (by decide) (by decide)
  simp [countReads, hbanks, hovf]

@[simp] theorem countAdvance_position (a) (t : State) : positionView x (countAdvance a t) = positionView x t := by
  simp [countAdvance]

@[simp] theorem moveChip_position (n ledger pop push before after) (t : State) :
    positionView x (moveChip n ledger pop push before after t).1 = positionView x t := by
  unfold moveChip
  dsimp only
  split <;> simp

@[simp] theorem writeCheckpoint_position (n slot ledger commitNo c) (t : State) :
    positionView x (writeCheckpoint n slot ledger commitNo c t) = positionView x t := by simp [writeCheckpoint]

@[simp] theorem writePatch_position (n ledger slot patch) (t : State) :
    positionView x (writePatch n ledger slot patch t) = positionView x t := by simp [writePatch]

@[simp] theorem readTransition_position (cls c t' job) (t : State) :
    positionView x (readTransition cls c t' job t) = positionView x t := by
  unfold readTransition
  split <;> simp

@[simp] theorem markDead_position (n) (t : State) : positionView x (markDead n t) = positionView x t := by
  simp [markDead]

@[simp] theorem notaryOverflow_position (k r job) (t : State) :
    positionView x (notaryOverflow k r job t) = positionView x t := by simp [notaryOverflow]

@[simp] theorem makeAdvance_position (n ledger t') (t : State) :
    positionView x (makeAdvance n ledger t' t) = positionView x t := by
  unfold makeAdvance
  dsimp only
  repeat' split
  all_goals simp

@[simp] theorem makeAdvances_position (n ledger ts) (t : State) :
    positionView x (makeAdvances n ledger ts t) = positionView x t := by simp [makeAdvances]

@[simp] theorem dropCands_position (n) (t : State) : positionView x (dropCands n t) = positionView x t := by
  simp [dropCands]

/-! ### DRAFT and WAITB tried again -/

@[simp] theorem putG_position (w d v) (t : State) : positionView (some w) (putG w d v t) = positionView (some w) t := by
  simp [putG]

@[simp] theorem putStatus_position (w d status) (t : State) :
    positionView (some w) (putStatus w d status t) = positionView (some w) t := by simp [putStatus]

@[simp] theorem waitRetry_position (w cmd) (t : State) :
    positionView (some w) (waitRetry w cmd t) = positionView (some w) t := by simp [waitRetry]

@[simp] theorem waitOpen_position (w cmd) (t : State) :
    positionView (some w) (waitOpen w cmd t) = positionView (some w) t := by simp [waitOpen]

@[simp] theorem draftBody_position (w f) (t : State) :
    positionView (some w) (draftBody w f t) = positionView (some w) t := by simp [draftBody]

@[simp] theorem actDraft_position (w f) (t : State) :
    positionView (some w) (actDraft w f t) = positionView (some w) t := by
  unfold actDraft
  dsimp only
  repeat' split
  all_goals simp

@[simp] theorem actWaitb_position (w f) (t : State) :
    positionView (some w) (actWaitb w f t) = positionView (some w) t := by simp [actWaitb]

end Sys2Proof.Machine
end

section
/-!
PROOFS. The beat port: what the events of a position do to the threads that wait in WAITB and to DAY_NEXT, what the freeze
and the re-arming do, the writes of the configuration, and the obligation assembled from that.
-/

namespace Sys2Proof.Machine

/-! ### What every event leaves -/

/-- The port, DAY_NEXT, the CLERKS that issue and the position to re-arm are unchanged. -/
structure PortKept (s t : State) : Prop where
  beat : t.beat = s.beat
  next : t.day.next = s.day.next
  ready : clerkReady t = clerkReady s
  rearm : rearmPos t = rearmPos s

theorem PortKept.refl (s : State) : PortKept s s := ⟨rfl, rfl, rfl, rfl⟩

theorem PortKept.trans {s t u : State} (h : PortKept s t) (k : PortKept t u) : PortKept s u :=
  ⟨k.beat.trans h.beat, k.next.trans h.next, k.ready.trans h.ready, k.rearm.trans h.rearm⟩

theorem PortKept.of_position {x : Option Who} {s t : State} (h : positionView x t = positionView x s) : PortKept s t :=
  ⟨congrArg PositionView.beat h, congrArg PositionView.next h, congrArg PositionView.ready h,
    congrArg PositionView.rearm h⟩

theorem thread_of_position {x : Option Who} {s t : State} {w : Who} (h : positionView x t = positionView x s)
    (hw : x ≠ some w) : thread t w = thread s w := by
  have e := congrFun (congrArg PositionView.threads h) w
  simpa [positionView, hw] using e

/-! ### A thread that waits in WAITB -/

/-- A thread of a CLERK that issues waits in WAITB. -/
structure WaitsForBeat (s : State) (w : Who) (f : Fields) : Prop where
  ready : clerkReady s w.clerk.toNat = true
  running : (thread s w).st = .running
  waits : (thread s w).wait = .retry (.waitb w f)
  stepping : (thread s w).stepping = false
  stopAfter : (thread s w).stopAfter = false

/-- The position that an operand of a thread names. -/
def namedPosition (t : Thread) (f : Fields) : Nat := (t.reg f.a).toNat

/-- The thread of a WAITB that has ended with a status. -/
def waitbEnded (t : Thread) (f : Fields) (st : Nat) : Thread :=
  { t.setG f.d (resultWord st 0 0) with pc := t.pc + 1, wait := .ready }

/-- The status with which WAITB for a position ends now; none while it waits. -/
def waitbStatus (b : BeatState) (q : Nat) : Option Nat :=
  if b.frozen then some St.BEAT_BACK else if q ≤ b.pos then some St.OK else none

theorem waitsForBeat_iff {s : State} {w : Who} {f : Fields} : WaitsForBeat s w f
    ↔ clerkReady s w.clerk.toNat = true ∧ (thread s w).st = .running ∧ (thread s w).wait = .retry (.waitb w f)
      ∧ (thread s w).stepping = false ∧ (thread s w).stopAfter = false :=
  ⟨fun h => ⟨h.ready, h.running, h.waits, h.stepping, h.stopAfter⟩, fun ⟨hr, hst, hw, hstep, hstop⟩ =>
    ⟨hr, hst, hw, hstep, hstop⟩⟩

theorem WaitsForBeat.of_eq {s t : State} {w : Who} {f : Fields} (h : WaitsForBeat s w f)
    (hready : clerkReady t = clerkReady s) (hthread : thread t w = thread s w) : WaitsForBeat t w f :=
  ⟨hready ▸ h.ready, hthread ▸ h.running, hthread ▸ h.waits, hthread ▸ h.stepping, hthread ▸ h.stopAfter⟩

theorem WaitsForBeat.waitbPos {s : State} {w : Who} {f : Fields} (h : WaitsForBeat s w f) :
    waitbPos s w = some (namedPosition (thread s w) f) := by
  rw [Machine.waitbPos, h.waits]
  rfl

theorem thread_putStatus_waitbEnded {s : State} {w : Who} {f : Fields} (h : WaitsForBeat s w f) (st : Nat) :
    thread (putStatus w f.d st s) w = waitbEnded (thread s w) f st := by
  have hstep : ((thread s w).setG f.d (resultWord st 0 0)).stepping = false := by
    unfold Thread.setG
    split <;> exact h.stepping
  have hstop : ((thread s w).setG f.d (resultWord st 0 0)).stopAfter = false := by
    unfold Thread.setG
    split <;> exact h.stopAfter
  rw [putStatus, putG, thread_onThread_same]
  simp [Thread.goOn, waitbEnded, hstep, hstop]

/-- WAITB tried again ends when the port is frozen or has reached its position. -/
theorem wakeThread_waitbEnded {s : State} {w : Who} {f : Fields} {st : Nat} (h : WaitsForBeat s w f)
    (hlt : namedPosition (thread s w) f < 2 ^ 44)
    (hst : waitbStatus s.beat (namedPosition (thread s w) f) = some st) :
    thread (wakeThread isWaitb s w) w = waitbEnded (thread s w) f st := by
  have hact : wakeThread isWaitb s w = actWaitb w f s := by
    unfold wakeThread
    simp only [h.ready, h.running, h.waits]
    simp [isWaitb, ofThread, lambiopParts, retryAct]
  rw [hact, ← thread_putStatus_waitbEnded h st]
  unfold namedPosition waitbStatus at *
  unfold actWaitb
  rw [if_neg (Nat.not_le.2 hlt)]
  by_cases hfrozen : s.beat.frozen = true
  · rw [if_pos hfrozen] at hst ⊢
    rw [Option.some.inj hst]
  · rw [if_neg hfrozen] at hst ⊢
    by_cases hreached : ((thread s w).reg f.a).toNat ≤ s.beat.pos
    · rw [if_pos hreached] at hst ⊢
      rw [Option.some.inj hst]
    · rw [if_neg hreached] at hst
      cases hst

/-- A thread that waits for nothing a test names is not tried again. -/
theorem wakeThread_idle {p : Instr → Bool} {s : State} {w : Who}
    (h : ∀ i, (thread s w).wait = .retry i → p i = false) : wakeThread p s w = s := by
  unfold wakeThread
  dsimp only
  split
  · rfl
  · split
    · rename_i i hi
      simp [h i hi]
    · rfl

/-- DRAFT and WAITB tried again change their own thread, and nothing else that is watched. -/
theorem wakeThread_position {p : Instr → Bool} (hp : ∀ i, p i = true → isDraft i = true ∨ isWaitb i = true)
    (s : State) (w : Who) : positionView (some w) (wakeThread p s w) = positionView (some w) s := by
  have hretry {i : Instr} (hi : p i = true) (hw : ofThread w i = true) :
      positionView (some w) (retryAct i s) = positionView (some w) s := by
    rcases hp i hi with hd | hb
    · cases i <;> try cases hd
      next v f =>
        obtain rfl : v = w := by simpa [ofThread, lambiopParts] using hw
        exact actDraft_position v f s
    · cases i <;> try cases hb
      next v f =>
        obtain rfl : v = w := by simpa [ofThread, lambiopParts] using hw
        exact actWaitb_position v f s
  unfold wakeThread
  dsimp only
  split
  · rfl
  · split
    · split
      · rename_i h
        obtain ⟨hi, hw⟩ := Bool.and_eq_true_iff.1 h
        exact hretry hi hw
      · rfl
    · rfl

/-! ### The events of a position -/

/-- The thread that an event lets go on. -/
def BeatEvent.woken : BeatEvent → Option Who
  | .waitb w => some w
  | _ => none

theorem BeatEvent.run_position (e : BeatEvent) (s : State) :
    positionView e.woken (e.run s) = positionView e.woken s := by
  cases e with
  | page c n => exact openPage_position ..
  | thin n => exact trySend_position ..
  | port => exact retryPort_position ..
  | waitb w => exact wakeThread_position (fun _ h => .inr h) s w

theorem BeatEvent.thread_run {e : BeatEvent} {s : State} {w : Who}
    (h : (thread s w).wait = .ready ∨ e ≠ .waitb w) : thread (e.run s) w = thread s w := by
  by_cases he : e = .waitb w
  · subst he
    have hready := h.resolve_right (fun k => k rfl)
    rw [BeatEvent.run, wakeThread_idle (fun i hi => by rw [hready] at hi; cases hi)]
  · refine thread_of_position (e.run_position s) (fun hw => he ?_)
    cases e <;> cases hw
    rfl

/-- Events in turn: the port stays as it is, a thread that waits for nothing or that no event names is unchanged, and a
WAITB that an event names ends when the port is frozen or has reached its position. -/
theorem events_spec (es : List BeatEvent) (s : State) :
    let u := es.foldl (fun s e => e.run s) s
    PortKept s u ∧ ∀ w,
      ((thread s w).wait = .ready ∨ .waitb w ∉ es → thread u w = thread s w)
      ∧ ∀ f st, .waitb w ∈ es → WaitsForBeat s w f → namedPosition (thread s w) f < 2 ^ 44 →
          waitbStatus s.beat (namedPosition (thread s w) f) = some st → thread u w = waitbEnded (thread s w) f st := by
  induction es generalizing s with
  | nil => exact ⟨PortKept.refl s, fun w => ⟨fun _ => rfl, fun _ _ hw => absurd hw List.not_mem_nil⟩⟩
  | cons e es ih =>
    have hkept : PortKept s (e.run s) := .of_position (e.run_position s)
    obtain ⟨hrest, hthreads⟩ := ih (e.run s)
    rw [List.foldl_cons]
    refine ⟨hkept.trans hrest, fun w => ?_⟩
    obtain ⟨hstays, hends⟩ := hthreads w
    refine ⟨fun h => ?_, fun f st hmem hw hlt hst => ?_⟩
    · have hrun : thread (e.run s) w = thread s w :=
        BeatEvent.thread_run (h.imp_right fun k he => k (he ▸ List.mem_cons_self))
      rw [hstays (by rw [hrun]; exact h.imp_right fun k he => k (List.mem_cons_of_mem _ he)), hrun]
    · by_cases he : e = .waitb w
      · subst he
        have hdone : thread (BeatEvent.run (.waitb w) s) w = waitbEnded (thread s w) f st :=
          wakeThread_waitbEnded hw hlt hst
        rw [hstays (.inl (by rw [hdone]; rfl)), hdone]
      · have hrun : thread (e.run s) w = thread s w := BeatEvent.thread_run (.inr he)
        rw [hends f st ((List.mem_cons.1 hmem).resolve_left (Ne.symm he)) (hw.of_eq hkept.ready hrun)
          (by rw [hrun]; exact hlt) (by rw [hrun, hkept.beat]; exact hst), hrun]

/-- Every thread of the CLERKS is tried. -/
theorem mem_inIssueOrder_all (s : State) (w : Who) : w ∈ inIssueOrder s ((List.range 8).map whos).flatten := by
  refine (mem_sortBy ..).2 (List.mem_flatten.2 ⟨whos w.clerk.toNat, ?_, (mem_whos ..).2 rfl⟩)
  exact List.mem_map.2 ⟨_, List.mem_range.2 w.clerk.isLt, rfl⟩

/-- The waits in WAITB tried again. -/
theorem wakeAll_waitb_spec (s : State) :
    PortKept s (wakeAll isWaitb s) ∧ ∀ w f st, WaitsForBeat s w f → namedPosition (thread s w) f < 2 ^ 44 →
      waitbStatus s.beat (namedPosition (thread s w) f) = some st →
      thread (wakeAll isWaitb s) w = waitbEnded (thread s w) f st := by
  have e : wakeAll isWaitb s = ((inIssueOrder s ((List.range 8).map whos).flatten).map BeatEvent.waitb).foldl
      (fun s e => e.run s) s := by
    rw [List.foldl_map]
    rfl
  obtain ⟨hkept, hthreads⟩ := events_spec ((inIssueOrder s ((List.range 8).map whos).flatten).map BeatEvent.waitb) s
  rw [e]
  exact ⟨hkept, fun w f st hw hlt hst =>
    (hthreads w).2 f st (List.mem_map_of_mem (mem_inIssueOrder_all s w)) hw hlt hst⟩

/-- The waits in DRAFT tried again leave every other thread. -/
theorem wakeAll_draft_spec (s : State) :
    PortKept s (wakeAll isDraft s) ∧ ∀ w, (∀ i, (thread s w).wait = .retry i → isDraft i = false) →
      thread (wakeAll isDraft s) w = thread s w := by
  unfold wakeAll
  generalize inIssueOrder s ((List.range 8).map whos).flatten = ws
  induction ws generalizing s with
  | nil => exact ⟨PortKept.refl s, fun _ _ => rfl⟩
  | cons v ws ih =>
    have hview := wakeThread_position (fun _ h => .inl h) s v (p := isDraft)
    obtain ⟨hkept, hthreads⟩ := ih (wakeThread isDraft s v)
    rw [List.foldl_cons]
    refine ⟨(PortKept.of_position hview).trans hkept, fun w hw => ?_⟩
    have hrun : thread (wakeThread isDraft s v) w = thread s w := by
      by_cases hvw : v = w
      · subst hvw
        rw [wakeThread_idle hw]
      · exact thread_of_position hview (fun k => hvw (Option.some.inj k))
    rw [hthreads w (by rw [hrun]; exact hw), hrun]

/-- A WAITB is among the events of a position exactly when it waits for one at or below it. -/
theorem waitb_mem_events (p : Nat) (s : State) (w : Who) :
    .waitb w ∈ (inBeatOrder (beatEvents p s)).map Prod.snd ↔ ∃ q ≤ p, waitbPos s w = some q := by
  have hwaiting (v : Who) (q : Nat) : (v, q) ∈ waitingBeats s ↔ waitbPos s v = some q := by
    simp [waitingBeats, mem_inIssueOrder_all]
  simp only [inBeatOrder, beatEvents, List.mem_map, mem_sortBy]
  simp [hwaiting, and_comm]

/-! ### DAY_NEXT -/

/-- Nothing is different but DAY_NEXT and the count of pages skipped. -/
structure OnlyNext (s t : State) : Prop where
  rest : { t with day := { t.day with next := s.day.next }, regs := s.regs } = s
  regs : RegsKept [R.DAY_SKIP] s t

namespace OnlyNext

variable {s t : State} (h : OnlyNext s t)
include h

theorem beat : t.beat = s.beat := by
  have e := congrArg State.beat h.rest
  exact e

theorem threads : t.threads = s.threads := by
  have e := congrArg State.threads h.rest
  exact e

theorem ready : clerkReady t = clerkReady s := by
  have e := congrArg clerkReady h.rest
  exact e

theorem opensPages (c : Nat) : opensPages t c = opensPages s c := by
  have e := congrArg (fun u => unitOut u 6 c && decide (c < u.build.size.clerks) && clkUp u 1) h.rest
  have hout : (unitOut t 6 c && decide (c < t.build.size.clerks) && clkUp t 1)
      = (unitOut s 6 c && decide (c < s.build.size.clerks) && clkUp s 1) := e
  rw [Machine.opensPages, h.ready, hout, h.regs R.DAY_CFG (by decide), Machine.opensPages]

theorem stepsReached (p : Nat) : stepsReached t p = stepsReached s p := by
  have hlast : lastLayer t = lastLayer s := by rw [lastLayer, regField, h.regs R.BEAT_CFG (by decide), lastLayer, regField]
  have hdist : dayDist t = dayDist s := by rw [dayDist, regField, h.regs R.DAY_CFG (by decide), dayDist, regField]
  rw [Machine.stepsReached, hlast, hdist, Machine.stepsReached]

end OnlyNext

theorem OnlyNext.refl (s : State) : OnlyNext s s := ⟨rfl, fun _ _ => rfl⟩

theorem OnlyNext.trans {s t u : State} (h : OnlyNext s t) (k : OnlyNext t u) : OnlyNext s u := by
  refine ⟨?_, fun off hoff => (k.regs off hoff).trans (h.regs off hoff)⟩
  have e := congrArg (fun v : State => { v with day := { v.day with next := s.day.next }, regs := s.regs }) k.rest
  exact e.trans h.rest

/-- DAY_NEXT of a CLERK that opens pages passes the steps a position reaches. -/
theorem openReached_spec (p : Nat) (s : State) (c : Nat) :
    OnlyNext s (openReached p s c) ∧ ∀ d, dayNext (openReached p s c) d
      = if d = c ∧ opensPages s d = true then max (dayNext s d) (stepsReached s p) else dayNext s d := by
  unfold openReached
  dsimp only
  split
  · rename_i hstays
    refine ⟨OnlyNext.refl s, fun d => ?_⟩
    split
    · rename_i hd
      obtain ⟨rfl, hopen⟩ := hd
      have hle : stepsReached s p ≤ dayNext s d := by simpa [hopen] using hstays
      exact (Nat.max_eq_left hle).symm
    · rfl
  · rename_i hpasses
    simp only [Bool.or_eq_true, Bool.not_eq_true', decide_eq_true_eq, not_or, Bool.not_eq_false, Nat.not_le] at hpasses
    obtain ⟨hopen, hlt⟩ := hpasses
    generalize max (dayNext s c) (stepsReached s p - 2 ^ dayPages s) - dayNext s c = k
    have hday (v : State) : (bump R.DAY_SKIP k v).day = v.day := by
      unfold bump
      split <;> rfl
    refine ⟨⟨?_, fun off hoff => ?_⟩, fun d => ?_⟩
    · unfold bump
      split <;> rfl
    · exact reg_bump_other k _ (by simpa using hoff)
    · unfold dayNext
      rw [hday]
      dsimp only
      rw [Tab.get_set]
      by_cases hd : d = c
      · subst hd
        rw [if_pos rfl, if_pos ⟨rfl, hopen⟩]
        exact (Nat.max_eq_right hlt.le).symm
      · rw [if_neg hd, if_neg (fun k => hd k.1)]

theorem markOpened_spec (p : Nat) (s : State) :
    OnlyNext s (markOpened p s) ∧ ∀ d < 8, dayNext (markOpened p s) d
      = if opensPages s d then max (dayNext s d) (stepsReached s p) else dayNext s d := by
  have key (cs : List Nat) (s : State) : OnlyNext s (cs.foldl (openReached p) s)
      ∧ ∀ d, dayNext (cs.foldl (openReached p) s) d
        = if d ∈ cs ∧ opensPages s d = true then max (dayNext s d) (stepsReached s p) else dayNext s d := by
    induction cs generalizing s with
    | nil => exact ⟨OnlyNext.refl s, fun d => by simp⟩
    | cons c cs ih =>
      obtain ⟨honly, hnext⟩ := openReached_spec p s c
      obtain ⟨hrest, hall⟩ := ih (openReached p s c)
      refine ⟨honly.trans hrest, fun d => ?_⟩
      rw [List.foldl_cons, hall d, honly.opensPages, honly.stepsReached, hnext d]
      by_cases hopen : opensPages s d = true
      · rcases eq_or_ne d c with rfl | hc
        · simp [hopen]
        · simp [hopen, hc]
      · simp [hopen]
  obtain ⟨honly, hnext⟩ := key (List.range 8) s
  refine ⟨honly, fun d hd => (hnext d).trans ?_⟩
  simp [List.mem_range.2 hd]

/-! ### A position made current -/

/-- A position that a state has made current: DAY_NEXT passes the steps it reaches, and of the threads in WAITB those end
that wait for it or a lower one. -/
theorem applyPosition_spec (p : Nat) (s : State) :
    let u := applyPosition p s
    u.beat = s.beat
    ∧ (∀ d < 8, dayNext u d = if opensPages s d then max (dayNext s d) (stepsReached s p) else dayNext s d)
    ∧ ∀ w f, WaitsForBeat s w f → namedPosition (thread s w) f < 2 ^ 44 →
      (∀ st, namedPosition (thread s w) f ≤ p → waitbStatus s.beat (namedPosition (thread s w) f) = some st →
        thread u w = waitbEnded (thread s w) f st)
      ∧ (p < namedPosition (thread s w) f → thread u w = thread s w) := by
  have hmem := waitb_mem_events p s
  obtain ⟨honly, hnext⟩ := markOpened_spec p s
  have hfold : applyPosition p s = wakeAll isDraft
      (((inBeatOrder (beatEvents p s)).map Prod.snd).foldl (fun s e => e.run s) (markOpened p s)) := by
    rw [applyPosition, List.foldl_map]
  generalize (inBeatOrder (beatEvents p s)).map Prod.snd = es at hmem hfold
  obtain ⟨hevents, hthreads⟩ := events_spec es (markOpened p s)
  rw [hfold]
  generalize es.foldl (fun s e => e.run s) (markOpened p s) = v at hevents hthreads
  obtain ⟨hdrafts, hothers⟩ := wakeAll_draft_spec v
  have hkept := hevents.trans hdrafts
  refine ⟨hkept.beat.trans honly.beat, fun d hd => ?_, fun w f hw hlt => ?_⟩
  · rw [← hnext d hd, dayNext, hkept.next, dayNext]
  · have hopened : thread (markOpened p s) w = thread s w := thread_of_threads honly.threads w
    have hw' : WaitsForBeat (markOpened p s) w f := hw.of_eq honly.ready hopened
    obtain ⟨hstays, hends⟩ := hthreads w
    rw [hopened, honly.beat] at hends
    refine ⟨fun st hle hst => ?_, fun hgt => ?_⟩
    · have hdone := hends f st ((hmem w).2 ⟨_, hle, hw.waitbPos⟩) hw' hlt hst
      rw [hothers w (fun i hi => by rw [hdone] at hi; cases hi), hdone]
    · have hnot : .waitb w ∉ es := fun k => by
        obtain ⟨q, hq, hpos⟩ := (hmem w).1 k
        rw [hw.waitbPos] at hpos
        exact absurd (Option.some.inj hpos) (by omega)
      have hsame : thread v w = thread s w := (hstays (.inr hnot)).trans hopened
      rw [hothers w (fun i hi => by rw [hsame, hw.waits] at hi; cases hi; rfl), hsame]

@[simp] theorem tracePosition_position (x : Option Who) (p : Nat) (s : State) :
    positionView x (tracePosition p s) = positionView x s := by
  have htrace (es : List Nat) : positionView x (writeTrace es s) = positionView x s :=
    positionView_of_swept x (writeTrace_swept es (Swept.refl s))
  simp [tracePosition, htrace]

/-! ### The commands of the beat port -/

section
variable {s : State}

/-- Every thread that waits in WAITB for a position ends with a status. -/
def WaitsEndWith (s u : State) (st : Nat) : Prop :=
  ∀ w f, WaitsForBeat s w f → namedPosition (thread s w) f < 2 ^ 44 → thread u w = waitbEnded (thread s w) f st

/-- A WAITB tried again changes a thread alone. -/
theorem reg_wakeThread_waitb (s : State) (w : Who) (off : Nat) : reg (wakeThread isWaitb s w) off = reg s off := by
  have hact (v : Who) (f : Fields) : reg (actWaitb v f s) off = reg s off := by
    unfold actWaitb
    dsimp only
    split_ifs <;> rfl
  unfold wakeThread
  dsimp only
  split
  · rfl
  · split
    · next i _ =>
      cases i with
      | waitb v f =>
        split
        · exact hact v f
        · rfl
      | _ => rfl
    · rfl

theorem reg_freeze (cause : Nat) (s : State) (off : Nat) : reg (freeze cause s) off = reg s off := by
  have hfold (ws : List Who) (t : State) : reg (ws.foldl (wakeThread isWaitb) t) off = reg t off := by
    induction ws generalizing t with
    | nil => rfl
    | cons w ws ih => rw [List.foldl_cons, ih, reg_wakeThread_waitb]
  exact hfold _ _

theorem freeze_spec (cause : Nat) (s : State) :
    PortKept { s with beat := { s.beat with frozen := true, cause := cause } } (freeze cause s)
    ∧ WaitsEndWith s (freeze cause s) St.BEAT_BACK := by
  obtain ⟨hkept, hends⟩ := wakeAll_waitb_spec { s with beat := { s.beat with frozen := true, cause := cause } }
  exact ⟨hkept, fun w f hw hlt => hends w f _ (hw.of_eq rfl rfl) hlt rfl⟩

theorem exec_beatPositionTaken (hbeat : clkUp s 21 = true) (hcore : clkUp s 1 = true) (p : BitVec 44) :
    exec (.beatPositionTaken p) s = .next (sweep (takePosition p.toNat s)) := by
  show execBeatPositionTaken p s = _
  rw [execBeatPositionTaken, if_pos (by simp [beatUp, hbeat, hcore])]

theorem takePosition_ignored {p : Nat} (h : s.beat.frozen = true ∨ p = s.beat.pos) :
    takePosition p s = { s with beat := { s.beat with ack := !s.beat.ack } } := by
  unfold takePosition
  exact if_pos h

/-- The port with a higher position current. -/
def takenHigher (p : Nat) (b : BeatState) : BeatState :=
  { b with ack := !b.ack, pos := p, taken := (p, true) :: b.taken }

theorem takePosition_higher {p : Nat} (hthawed : s.beat.frozen = false) (hp : s.beat.pos < p) :
    let u := takePosition p s
    u.beat = takenHigher p s.beat
    ∧ (∀ w f, WaitsForBeat s w f → namedPosition (thread s w) f ≤ p → p < 2 ^ 44 →
        thread u w = waitbEnded (thread s w) f St.OK)
    ∧ (∀ w f, WaitsForBeat s w f → p < namedPosition (thread s w) f → namedPosition (thread s w) f < 2 ^ 44 →
        thread u w = thread s w)
    ∧ ∀ d < 8, dayNext u d = if opensPages s d then max (dayNext s d) (stepsReached s p) else dayNext s d := by
  have htake : takePosition p s
      = tracePosition p (applyPosition p { s with beat := takenHigher p s.beat }) := by
    unfold takePosition
    dsimp only
    rw [if_neg (by simp [hthawed, hp.ne']), if_neg hp.le.not_gt]
    rfl
  obtain ⟨hbeat, hnext, hthreads⟩ := applyPosition_spec p { s with beat := takenHigher p s.beat }
  rw [htake]
  generalize applyPosition p { s with beat := takenHigher p s.beat } = v at hbeat hnext hthreads
  have hview : positionView none (tracePosition p v) = positionView none v := tracePosition_position ..
  have hkept := PortKept.of_position hview
  have hsame (w : Who) : thread (tracePosition p v) w = thread v w := thread_of_position hview nofun
  have hwaits {w : Who} {f : Fields} (hw : WaitsForBeat s w f) :
      WaitsForBeat { s with beat := takenHigher p s.beat } w f := hw.of_eq rfl rfl
  have hstatus {q : Nat} (hq : q ≤ p) : waitbStatus (takenHigher p s.beat) q = some St.OK := by
    simp [waitbStatus, takenHigher, hthawed, hq]
  refine ⟨hkept.beat.trans hbeat, fun w f hw hle hp44 => ?_, fun w f hw hgt hlt => ?_, fun d hd => ?_⟩
  · rw [hsame]
    exact (hthreads w f (hwaits hw) (hle.trans_lt hp44)).1 _ hle (hstatus hle)
  · rw [hsame]
    exact (hthreads w f (hwaits hw) hlt).2 hgt
  · rw [dayNext, hkept.next]
    exact hnext d hd

theorem takePosition_lower {p : Nat} (hthawed : s.beat.frozen = false) (hp : p < s.beat.pos) (hp44 : p < 2 ^ 44) :
    let u := takePosition p s
    u.beat = { s.beat with ack := !s.beat.ack, frozen := true, cause := 1 }
    ∧ reg u R.BEAT_BAD_LO = p % 2 ^ 32 ∧ reg u R.BEAT_BAD_HI = p / 2 ^ 32 ∧ WaitsEndWith s u St.BEAT_BACK := by
  let bad : State := setReg R.BEAT_BAD_HI (p / 2 ^ 32) (setReg R.BEAT_BAD_LO (p % 2 ^ 32)
    { s with beat := { s.beat with ack := !s.beat.ack } })
  have htake : takePosition p s = freeze 1 bad := by
    unfold takePosition
    dsimp only
    rw [if_neg (by simp [hthawed, hp.ne]), if_pos hp]
  have hlo : reg bad R.BEAT_BAD_LO = p % 2 ^ 32 := by
    rw [reg_setReg_other _ _ (by decide), reg_setReg_same, Nat.mod_mod]
  have hhi : reg bad R.BEAT_BAD_HI = p / 2 ^ 32 := by
    rw [reg_setReg_same]
    omega
  obtain ⟨hkept, hends⟩ := freeze_spec 1 bad
  rw [htake]
  exact ⟨hkept.beat, (reg_freeze ..).trans hlo, (reg_freeze ..).trans hhi, fun w f hw =>
    hends w f (hw.of_eq rfl rfl)⟩

theorem exec_beatFreeze (hport : clkUp s 20 = true) (hbeat : clkUp s 21 = true) (hcore : clkUp s 1 = true) :
    exec .beatFreeze s = .next (sweep (freeze 2 { s with regOut := 0 })) := by
  have hup : beatUp { s with regOut := 0 } = true := Bool.and_eq_true_iff.2 ⟨hbeat, hcore⟩
  show execBeatFreeze s = _
  rw [execBeatFreeze, viaPort, if_pos hport, if_pos hup]

theorem exec_beatArm (hport : clkUp s 20 = true) (hbeat : clkUp s 21 = true) (hcore : clkUp s 1 = true) :
    exec .beatArm s
      = if s.beat.frozen then .next (sweep (rearm { s with regOut := 0 })) else .next { s with regOut := 0 } := by
  have hup : beatUp { s with regOut := 0 } = true := Bool.and_eq_true_iff.2 ⟨hbeat, hcore⟩
  show execBeatArm s = _
  rw [execBeatArm, viaPort, if_pos hport, hup, Bool.true_and]

/-- The port thawed with a position current, and DAY_NEXT set for it. -/
def thawedAt (p : Nat) (s : State) : State :=
  { setNext p s with beat := { s.beat with pos := p, frozen := false, taken := (p, false) :: keptTaken p s } }

theorem rearm_beat (s : State) :
    (rearm s).beat.pos = rearmPos s ∧ (rearm s).beat.frozen = false ∧ (rearm s).beat.ack = s.beat.ack := by
  have hrearm : rearm s
      = applyPosition (rearmPos (withholdHeld s)) (thawedAt (rearmPos (withholdHeld s)) (withholdHeld s)) := rfl
  have hkept : PortKept s (withholdHeld s) := .of_position (x := none) (withholdHeld_position ..)
  have hack : (withholdHeld s).beat.ack = s.beat.ack := congrArg BeatState.ack hkept.beat
  rw [hrearm, hkept.rearm, (applyPosition_spec ..).1]
  exact ⟨rfl, rfl, hack⟩

/-! ### The writes of the configuration -/

theorem exec_beatCfgWrite (hport : clkUp s 20 = true) (v : Word32) :
    exec (.beatCfgWrite v) s = .next (writeBeatCfg v.toNat { s with regOut := 0 }) := by
  show execBeatCfgWrite v s = _
  rw [execBeatCfgWrite, viaPort, if_pos hport]

theorem exec_daybookConfigWrite (hport : clkUp s 20 = true) {off : BitVec 16} (hoff : isDayConfig off.toNat = true)
    (v : Word32) :
    exec (.daybookConfigWrite off v) s = .next (writeDay off.toNat v.toNat { s with regOut := 0 }) := by
  show execDaybookConfigWrite off v s = _
  rw [execDaybookConfigWrite, viaPort, if_pos hport, if_pos hoff]

theorem storeReg_rest (off v : Nat) (s : State) : { storeReg off v s with regs := s.regs } = s := by
  unfold storeReg
  split <;> rfl

theorem storeReg_regOut (off v : Nat) (s : State) (x : Word32) :
    storeReg off v { s with regOut := x } = { storeReg off v s with regOut := x } := by
  unfold storeReg
  split <;> rfl

theorem storeReg_regs (off v : Nat) (s : State) : RegsKept [off] s (storeReg off v s) := by
  intro k hk
  unfold storeReg
  split
  · rfl
  · exact reg_setReg_other _ _ (by simpa using hk)

/-- What keeps a write of the DAYBOOK's configuration from being taken. -/
theorem dayRefused_iff (s : State) (off v : Nat) :
    (!s.beat.frozen || (decide (off = R.DAY_CFG) && decide (12 < bits v 8 4))) = true
      ↔ s.beat.frozen = false ∨ (off = R.DAY_CFG ∧ 12 < v / 256 % 16) := by
  rw [show bits v 8 4 = v / 256 % 16 from rfl]
  simp only [Bool.or_eq_true, Bool.and_eq_true, Bool.not_eq_true', decide_eq_true_eq]

theorem writeDay_refused {off v : Nat} (h : s.beat.frozen = false ∨ (off = R.DAY_CFG ∧ 12 < v / 256 % 16)) :
    writeDay off v s = setReg R.DAY_STAT (reg s R.DAY_STAT ||| 1) s := by
  rw [writeDay, if_pos ((dayRefused_iff s off v).2 h)]
  rfl

/-- A write of DAY_BASE or DAY_CFG that is taken stores the value; the region exists once DAY_BASE has been written. -/
theorem writeDay_stores {off v : Nat} (hfrozen : s.beat.frozen = true) (hok : off = R.DAY_CFG → v / 256 % 16 ≤ 12) :
    let u := writeDay off v s
    reg u off = reg (storeReg off v s) off ∧ RegsKept [off] s u
    ∧ u.day = { s.day with placed := s.day.placed || decide (off ≠ R.DAY_CFG) }
    ∧ { u with regs := s.regs, day := s.day } = s := by
  have hrest := storeReg_rest off v s
  have hday : (storeReg off v s).day = s.day := by
    have e := congrArg State.day hrest
    exact e
  have hwrite : writeDay off v s
      = if off = R.DAY_CFG then storeReg off v s
        else { storeReg off v s with day := { (storeReg off v s).day with placed := true } } := by
    have htaken : ¬ (s.beat.frozen = false ∨ (off = R.DAY_CFG ∧ 12 < v / 256 % 16)) := by
      rintro (h | ⟨hcfg, h⟩)
      · simp [hfrozen] at h
      · exact absurd (hok hcfg) h.not_ge
    rw [writeDay, if_neg (fun k => htaken ((dayRefused_iff s off v).1 k))]
  rw [hwrite]
  split
  · rename_i hcfg
    refine ⟨rfl, storeReg_regs off v s, hday.trans (by simp [hcfg]), ?_⟩
    rw [← hday]
    exact hrest
  · rename_i hbase
    exact ⟨rfl, storeReg_regs off v s, by simp [hday, hbase], congrArg (fun u : State => { u with day := s.day }) hrest⟩

end

/-- Settles O44: the events of a position change, of what is watched (`PortKept`), nothing, and of the threads those that
they let go on (`events_spec`). -/
theorem beatPort : Obligations.BeatPort := by
  unfold Obligations.BeatPort
  intro s
  dsimp only
  refine ⟨fun p hbeat hcore => ?_, fun hport hbeat hcore => ?_, fun hport v => ⟨fun hfrozen hlt => ?_, fun h => ?_,
    fun off hoff => ?_⟩⟩
  · rw [exec_beatPositionTaken hbeat hcore]
    refine ⟨fun h => ?_, fun hthawed hp => ?_, fun hthawed hp => ?_⟩
    · rw [takePosition_ignored h]
    · obtain ⟨hpos, hends, hstays, hnext⟩ := takePosition_higher hthawed hp
      exact ⟨_, rfl, hpos, fun w f hw hle => hends w f (waitsForBeat_iff.2 hw) hle p.isLt,
        fun w f hw hgt hlt => hstays w f (waitsForBeat_iff.2 hw) hgt hlt, hnext⟩
    · obtain ⟨hback, hlo, hhi, hends⟩ := takePosition_lower hthawed hp p.isLt
      exact ⟨_, rfl, hback, hlo, hhi, fun w f hw hlt => hends w f (waitsForBeat_iff.2 hw) hlt⟩
  · rw [exec_beatFreeze hport hbeat hcore, exec_beatArm hport hbeat hcore]
    refine ⟨?_, fun hfrozen => ?_, fun hthawed => if_neg (by simp [hthawed])⟩
    · obtain ⟨hkept, hends⟩ := freeze_spec 2 { s with regOut := 0 }
      exact ⟨_, rfl, hkept.beat, fun w f hw hlt => hends w f (waitsForBeat_iff.2 hw) hlt⟩
    · obtain ⟨hpos, hthawed, hack⟩ := rearm_beat { s with regOut := 0 }
      exact ⟨_, if_pos hfrozen, hpos, hthawed, hack⟩
  · rw [exec_beatCfgWrite hport, writeBeatCfg, if_pos ⟨hfrozen, by simpa [bits] using hlt⟩]
  · rw [exec_beatCfgWrite hport, writeBeatCfg, if_neg (by simpa [bits, imp_iff_not_or] using h)]
    rfl
  · have hconfig : isDayConfig off.toNat = true := by simpa [isDayConfig] using hoff
    have hexec := exec_daybookConfigWrite hport hconfig v
    refine ⟨fun hfrozen hok => ?_, fun h => ?_⟩
    · obtain ⟨hreg, hregs, hday, hrest⟩ := writeDay_stores (s := { s with regOut := 0 }) hfrozen hok
      rw [storeReg_regOut] at hreg
      exact ⟨_, hexec, hreg, hregs, hday, hrest⟩
    · exact hexec.trans (congrArg Host.Outcome.next (writeDay_refused (s := { s with regOut := 0 }) h))

end Sys2Proof.Machine
end

section
/-!
PROOFS. The units and banks that RESERVE holds: what leaves their lists alone, what ends a bank's poison, and what a
retirement keeps (R392, R440, R456).
-/

namespace Sys2Proof.Machine

/-! ### The units and banks of a state -/

/-- What RESERVE and the roll call hold of units and banks, with the count of poisons that ended. -/
structure UnitsView where
  out : List (Nat × Nat)
  stand : List (Nat × Nat × Nat)
  pending : List Repair
  poisoned : List Nat
  absent : List Nat
  poisons : Nat
  boot : BootState

/-- The units and banks of a state. -/
def unitsView (s : State) : UnitsView where
  out := s.reserve.out
  stand := s.reserve.stand
  pending := s.reserve.pending
  poisoned := s.reserve.poisoned
  absent := s.reserve.absent
  poisons := reg s R.AUD_POISON
  boot := s.boot

theorem unitOut_of_view {s t : State} (h : (unitsView t).out = (unitsView s).out) (cls i : Nat) :
    unitOut t cls i = unitOut s cls i := congrArg (fun xs : List (Nat × Nat) => xs.contains (cls, i)) h

theorem mem_stand_of_view {s t : State} (h : (unitsView t).stand = (unitsView s).stand) {x : Nat × Nat × Nat}
    (hx : x ∈ s.reserve.stand) : x ∈ t.reserve.stand := by
  have hstand : t.reserve.stand = s.reserve.stand := h
  rwa [hstand]

/-! ### What leaves them unchanged -/

theorem unitsView_of_swept {s t : State} (h : Swept s t) : unitsView t = unitsView s := by
  have hpoisons : reg t R.AUD_POISON = reg s R.AUD_POISON := h.regs _ (by decide)
  unfold unitsView
  rw [h.reserve, h.boot, hpoisons]

@[simp] theorem ite_units (c : Prop) [Decidable c] (a b : State) :
    unitsView (if c then a else b) = if c then unitsView a else unitsView b := apply_ite ..

@[simp] theorem foldl_units {α : Type} (f : State → α → State) (xs : List α) (t : State)
    (hf : ∀ t x, unitsView (f t x) = unitsView t) : unitsView (xs.foldl f t) = unitsView t := by
  induction xs generalizing t with
  | nil => rfl
  | cons x xs ih => exact (ih _).trans (hf _ _)

theorem setReg_units {off : Nat} (v : Nat) (t : State) (hoff : R.AUD_POISON ≠ off) :
    unitsView (setReg off v t) = unitsView t :=
  congrArg (fun p => { unitsView t with poisons := p }) (reg_setReg_other v t hoff)

theorem bump_units {off : Nat} (n : Nat) (t : State) (hoff : R.AUD_POISON ≠ off) :
    unitsView (bump off n t) = unitsView t := by
  unfold bump
  split
  · rfl
  · exact setReg_units _ t hoff

theorem logFirst_units {lo hi : Nat} (vlo vhi : Nat) (t : State) (hlo : R.AUD_POISON ≠ lo)
    (hhi : R.AUD_POISON ≠ hi) : unitsView (logFirst lo vlo hi vhi t) = unitsView t := by
  unfold logFirst
  split
  · rfl
  · exact (setReg_units _ _ hhi).trans (setReg_units _ t hlo)

theorem audFault_units (cls idx status ledger : Nat) (t : State) :
    unitsView (audFault cls idx status ledger t) = unitsView t := logFirst_units _ _ t (by decide) (by decide)

@[simp] theorem startAccess_units (cls : Nat) (bill : List (Nat × Nat)) (kind : ReqKind) (req : Nat) (lines : List Line)
    (job : Job) (t : State) : unitsView (startAccess cls bill kind req lines job t) = unitsView t :=
  unitsView_of_swept (startAccess_swept _ _ _ _ _ _ (Swept.refl t))

/-! ### A stream replayed -/

theorem discardTiles_units (n : Nat) (t : State) : unitsView (discardTiles n t) = unitsView t := rfl

@[simp] theorem cutItem_units (log : Bool) (i : Item) (clerk ticket : Nat) (t : State) :
    unitsView (cutItem log i clerk ticket t) = unitsView t := (unitsView_of_swept (feedAll_swept (Swept.refl _))).trans rfl

@[simp] theorem deliverAgain_units (n : Nat) (bs : List Byte) (t : State) :
    unitsView (deliverAgain n bs t) = unitsView t := by
  unfold deliverAgain
  split <;> rfl

@[simp] theorem reissue_units (log : Bool) (n : Nat) (t : State) : unitsView (reissue log n t) = unitsView t := by
  have hcount (u : State) : unitsView (bump R.LDG_REPLAYED 1 u) = unitsView u := bump_units 1 u (by decide)
  have hread (m off len : Nat) (job : Job) (u : State) : unitsView (readLog m off len job u) = unitsView u :=
    startAccess_units ..
  have hitem (k : Nat) (f : Item → Item) (u : State) : unitsView (onItem k f u) = unitsView u := rfl
  unfold reissue
  dsimp only
  repeat' split
  all_goals simp [hcount, hread, hitem]

@[simp] theorem replayStream_units (n : Nat) (t : State) : unitsView (replayStream n t) = unitsView t := by
  have hbegin : unitsView (restoreStream n (discardTiles n t)) = unitsView t := rfl
  simp [replayStream, readCkpt, hbegin]

/-! ### A maintenance activity that begins -/

@[simp] theorem wakeSpare_units (t : State) : unitsView (wakeSpare t) = unitsView t := by
  have hclear : unitsView (clearRegBit R.PWR_PDCTRL 1 t) = unitsView t := setReg_units _ t (by decide)
  have hask (d : Nat) (u : State) : unitsView (askPd d u) = unitsView u := rfl
  simp [wakeSpare, hask, hclear]

theorem beginActivity_units (a : Activity) (t : State) : unitsView (beginActivity a t) = unitsView t := by
  have hleave (u : State) : unitsView (leaveBanks a u) = unitsView u := by
    unfold leaveBanks
    repeat' split
    all_goals rfl
  have hfill (u : State) : unitsView (fillFor a u) = unitsView u := by
    unfold fillFor
    split <;> simp [readGolden]
  exact (hfill _).trans (hleave _)

theorem startOrWait_units (a : Activity) (t : State) : unitsView (startOrWait a t) = unitsView t := by
  unfold startOrWait
  split
  · rfl
  · exact beginActivity_units a t

theorem endActivity_units (a : Activity) (t : State) : unitsView (endActivity a t) = unitsView t := by
  unfold endActivity startWaiting
  refine (foldl_units _ _ _ fun u x => ?_).trans rfl
  split
  · rfl
  · exact beginActivity_units x _

/-! ### Units that leave service or come back -/

theorem unitOut_takeOut (cls i : Nat) (s : State) : unitOut (takeOut cls i s) cls i = true := by
  unfold takeOut
  split
  · assumption
  · simp [unitOut]

/-- The ring of pending entries and what bring-up holds are unchanged. -/
structure RingKept (s t : State) : Prop where
  pending : t.reserve.pending = s.reserve.pending
  boot : t.boot = s.boot

theorem RingKept.of_view {s t : State} (h : unitsView t = unitsView s) : RingKept s t :=
  ⟨congrArg UnitsView.pending h, congrArg UnitsView.boot h⟩

theorem RingKept.trans {s t u : State} (h : RingKept s t) (k : RingKept t u) : RingKept s u :=
  ⟨k.pending.trans h.pending, k.boot.trans h.boot⟩

theorem takeOut_ringKept (cls i : Nat) (s : State) : RingKept s (takeOut cls i s) := by
  unfold takeOut
  split <;> exact ⟨rfl, rfl⟩

theorem standIn_ringKept (cls u p : Nat) (s : State) : RingKept s (standIn cls u p s) := ⟨rfl, rfl⟩

theorem spareOut_ringKept (cls i : Nat) (s : State) : RingKept s (spareOut cls i s) := by
  have hevent (status cls idx m row : Nat) (u : State) : unitsView (rsvEvent status cls idx m row u) = unitsView u :=
    logFirst_units _ _ u (by decide) (by decide)
  exact .trans (t := { s with reserve := { s.reserve with
    stand := s.reserve.stand.filter (fun x => !(x.1 == cls && x.2.2 == i)) } }) ⟨rfl, rfl⟩ (.of_view (hevent ..))

/-! ### Poison -/

/-- Steps 3 and 4 of R392 end the poison and count it, and touch no other list. -/
theorem clearPoison_units (b : Nat) (s : State) : unitsView (clearPoison b s) = { unitsView s with
    poisoned := s.reserve.poisoned.filter (· != b), poisons := satAdd 32 (reg s R.AUD_POISON) 1 } := by
  have hcount (u : State) : unitsView (bump R.AUD_POISON 1 u)
      = { unitsView u with poisons := satAdd 32 (unitsView u).poisons 1 } :=
    congrArg (fun p => { unitsView u with poisons := p }) (reg_bump_one R.AUD_POISON u)
  unfold clearPoison
  dsimp only
  rw [hcount, audFault_units, foldl_units _ _ _ fun u n => replayStream_units n u]
  rfl

theorem bankAbsent_ringKept (b : Nat) (s : State) : RingKept s (bankAbsent b s) := by
  have hreload (k : Nat) (u : State) : unitsView (startReload k u) = unitsView u := by
    unfold startReload
    split
    · rfl
    · exact startAccess_units ..
  have hclear (u : State) : RingKept u (if u.reserve.poisoned.contains b then clearPoison b u else u) := by
    split
    · have h := clearPoison_units b u
      exact ⟨congrArg UnitsView.pending h, congrArg UnitsView.boot h⟩
    · exact ⟨rfl, rfl⟩
  unfold bankAbsent
  refine .trans ?_ (.of_view (foldl_units _ _ _ fun u k => hreload k u))
  refine .trans ?_ (hclear _)
  exact ⟨rfl, rfl⟩

theorem retireClerk_units (c : Nat) (s : State) : unitsView (retireClerk c s) = unitsView s := by
  have hcomplete (n status : Nat) (next : After) (u : State) : unitsView (completeItem n status next u) = unitsView u :=
    unitsView_of_swept (completeItem_swept _ _ _ (Swept.refl u))
  unfold retireClerk
  dsimp only
  rw [foldl_units _ _ _ fun u i => hcomplete _ _ _ u, foldl_units _ _ _ fun u n => discardTiles_units n u]
  exact (foldl_units _ _ _ fun u w => by rfl).trans rfl

/-- Whatever becomes of a retired unit's function, the ring of pending entries is that of before (R456). -/
theorem retireUnit_ringKept (cls i : Nat) (s : State) : RingKept s (retireUnit cls i s).1 := by
  have hout (u : State) : RingKept u (takeOut cls i u) := takeOut_ringKept cls i u
  have hbump : RingKept s (bump R.RSV_RETIRED 1 s) := .of_view (bump_units 1 s (by decide))
  unfold retireUnit
  split
  · exact ⟨rfl, rfl⟩
  · refine hbump.trans ?_
    generalize bump R.RSV_RETIRED 1 s = s
    dsimp only
    split
    · exact hout s
    · split
      · split
        · split
          · exact .of_view (startOrWait_units _ s)
          · have hwake : RingKept s (if cls = 0 then wakeSpare s else s) := .of_view (by simp)
            exact (hwake.trans (hout _)).trans (standIn_ringKept ..)
        · have hspare := (hout s).trans (spareOut_ringKept cls i _)
          split
          · dsimp only
            exact hspare.trans (bankAbsent_ringKept _ _)
          · exact hspare
      · split
        · next h6 => exact h6 ▸ (hout s).trans (.of_view (retireClerk_units i _))
        · exact (hout s).trans (.of_view (by simp [moveStreams]))

/-- A retirement of the block joins the ring unless it is full (R456). -/
theorem retireLive_pending {cls i : Nat} {s : State} (h : leaving s cls i = false) :
    (retireLive cls i s).boot = s.boot
      ∧ (s.reserve.pending.length < 16 →
          (retireLive cls i s).reserve.pending = s.reserve.pending ++ [⟨2, cls, i, 0⟩]) := by
  obtain ⟨hpending, hboot⟩ := retireUnit_ringKept cls i s
  rw [retireLive, if_neg (by simp [h]), addPending]
  constructor
  · split
    · exact hboot
    · exact hboot
  · intro hroom
    rw [if_neg (by rw [hpending]; omega)]
    exact congrArg (· ++ _) hpending

end Sys2Proof.Machine
end

section
/-!
PROOFS. Old images, the steps of SORTER's temperature, the end of a SPARE_SWAP and of a VAULT_RELOAD, and UNIT_MISSING in
bring-up and of a domain that is switched on again (R192, R198, R224, R392, R425, R439, R490, R504).
-/

namespace Sys2Proof.Machine

/-! ### Old images (R192, R224) -/

/-- A tenant's record replaced: the others and everything else stay. -/
theorem setTenant_only (k : Nat) (x : Tenant) (s : State) :
    tenant (setTenant k x s) k = x ∧ (∀ m, m ≠ k → tenant (setTenant k x s) m = tenant s m)
      ∧ { setTenant k x s with tenants := s.tenants } = s :=
  ⟨tenant_setTenant_same k x s, fun _ hm => tenant_setTenant_other x s hm, rfl⟩

/-! ### The temperature of SORTER (R198, R425) -/

theorem thermalStep_raised {step n : Nat} {t : Int} (hlt : step < n) (hn : n ≤ 3) (hlo : 90 + 5 * (n : Int) ≤ t)
    (hhi : n = 3 ∨ t < 95 + 5 * (n : Int)) : thermalStep step t = n := by
  simp only [thermalStep]
  split_ifs <;> omega

theorem thermalStep_lowered {step : Nat} {t : Int} (ht : t ≤ 88 + 5 * (step : Int)) :
    thermalStep step t = step - 1 := by
  simp only [thermalStep]
  split_ifs <;> omega

theorem thermalStep_kept {step : Nat} {t : Int} (hlo : step = 0 ∨ 88 + 5 * (step : Int) < t)
    (hhi : 3 ≤ step ∨ t < 95 + 5 * (step : Int)) : thermalStep step t = step := by
  simp only [thermalStep]
  split_ifs <;> omega

/-- A counter that advances by a free amount leaves what SORTER holds of its temperature. -/
theorem bumpFree_sorter (off : Nat) (s : State) : (bumpFree off s).sortTemp = s.sortTemp
    ∧ (bumpFree off s).sortDead = s.sortDead ∧ (bumpFree off s).sortStep = s.sortStep := by
  by_cases hv : Config.freeValue s.free = 0 <;> simp [bumpFree, takeFree, bump, hv]

/-- A sample that is taken sets the temperature, the step and the count of samples without an input (R470). -/
theorem exec_sorterThermalSample {ts : List (BitVec 9)} {s : State} (h : ts ≠ [] ∨ 10 ≤ s.sortDead + 1) :
    let t : Int := if ts.isEmpty then 105 else hottest ts
    Answers (exec (.sorterThermalSample ts) s) (fun u => u.sortTemp = (BitVec.ofInt 9 t).toNat
      ∧ u.sortDead = (if ts.isEmpty then s.sortDead + 1 else 0) ∧ u.sortStep = thermalStep s.sortStep t) := by
  have htaken : ¬ (ts.isEmpty && decide ((if ts.isEmpty then s.sortDead + 1 else 0) < 10)) = true := by
    cases ts with
    | nil => simpa using h
    | cons x xs => simp
  refine ⟨_, if_neg htaken, ?_⟩
  dsimp only
  generalize (if ts.isEmpty then (105 : Int) else hottest ts) = t
  generalize (if ts.isEmpty then s.sortDead + 1 else 0) = dead
  split
  · exact ⟨rfl, rfl, rfl⟩
  · exact bumpFree_sorter ..

/-! ### Banks that have been filled (R392, R439, R450) -/

/-- A bank filled again is absent no longer, and its poison ends and counts. -/
theorem bankFull_poisoned {b : Nat} {s : State} (h : b ∈ s.reserve.poisoned) :
    unitsView (bankFull b s) = { unitsView s with
      absent := s.reserve.absent.filter (· != b), poisoned := s.reserve.poisoned.filter (· != b),
      poisons := satAdd 32 (reg s R.AUD_POISON) 1 } := by
  have hback : (bankBack b s).reserve.poisoned.contains b = true := List.contains_iff_mem.2 h
  rw [bankFull, if_pos hback, clearPoison_units]
  rfl

/-- A bank filled again takes no unit out of service and brings none back. -/
theorem bankFull_units (b : Nat) (s : State) :
    (unitsView (bankFull b s)).out = s.reserve.out ∧ (unitsView (bankFull b s)).stand = s.reserve.stand := by
  unfold bankFull
  extract_lets s1
  split
  · rw [clearPoison_units]
    exact ⟨rfl, rfl⟩
  · exact ⟨rfl, rfl⟩

theorem exec_vaultReloadDone {b : BitVec 4} {a : Activity} {s : State}
    (h : s.reserve.acts.find? (fun a => decide (a.code = 5) && decide (a.res = b.toNat)) = some a) :
    exec (.vaultReloadDone b) s
      = .next (if goldenBusy s b.toNat then s else sweep (endActivity a (bankFull b.toNat s))) := by
  change execVaultReloadDone b s = _
  rw [execVaultReloadDone, h]

theorem exec_tileReloadDone {n : BitVec 7} {a : Activity} {s : State}
    (h : s.reserve.acts.find? (fun a => decide (a.code = 4) && decide (a.res = n.toNat)) = some a) :
    exec (.tileReloadDone n) s = .next (endActivity a s) := by
  change execTileReloadDone n s = _
  rw [execTileReloadDone, h]

/-! ### Swaps that end (R439) -/

theorem exec_spareSwapDone {a : Activity} {s : State}
    (h : s.reserve.acts.find? (fun a => decide (a.code = 3)) = some a) :
    exec .spareSwapDone s = .next (if stillFilling s a then s else sweep (endActivity a (swapDone a s))) := by
  change execSpareSwapDone s = _
  rw [execSpareSwapDone, h]

/-- A swap's last step, which fills a bank and does nothing to other classes, leaves the units as they are. -/
theorem bankFull_if_units (cls b : Nat) (s : State) :
    (unitsView (if cls = 0 then bankFull b s else s)).out = s.reserve.out
      ∧ (unitsView (if cls = 0 then bankFull b s else s)).stand = s.reserve.stand := by
  split
  · exact bankFull_units b s
  · exact ⟨rfl, rfl⟩

theorem unitOut_bringBack {cls : Nat} (h : cls < 4) (i : Nat) (s : State) :
    unitOut (bringBack cls i s) cls i = false := by
  have hmoved : ¬ (cls = 4 ∨ cls = 5) := by omega
  unfold bringBack
  dsimp only
  rw [if_neg hmoved]
  split <;> simp [unitOut, bankBack]

theorem swapDone_back {a : Activity} {s : State} (hcls : a.cls < 4) (hout : unitOut s a.cls a.res = true) :
    unitOut (swapDone a s) a.cls a.res = false := by
  rw [swapDone, if_neg (by omega), if_pos hout]
  exact (unitOut_of_view (bankFull_if_units ..).1 ..).trans (unitOut_bringBack hcls ..)

/-- The first free spare stands in for the function of the unit that leaves service. -/
theorem swapDone_replaced {a : Activity} {s : State} {p : Nat} {rest : List Nat} (hcls : a.cls < 4)
    (hout : unitOut s a.cls a.res = false) (hfree : (freeSpares s a.cls).filter (· != a.res) = p :: rest) :
    unitOut (swapDone a s) a.cls a.res = true
      ∧ (a.cls, functionOf s a.cls a.res, p) ∈ (swapDone a s).reserve.stand := by
  rw [swapDone, if_neg (by omega), if_neg (by simp [hout]), swapIn, hfree]
  dsimp only
  generalize hin : standIn a.cls (functionOf s a.cls a.res) p (takeOut a.cls a.res s) = t
  have hgone : unitOut t a.cls a.res = true := hin ▸ unitOut_takeOut ..
  have hstand : (a.cls, functionOf s a.cls a.res, p) ∈ t.reserve.stand :=
    hin ▸ List.mem_append_right _ (List.mem_singleton.2 rfl)
  obtain ⟨hout, hstays⟩ := bankFull_if_units a.cls (functionOf s a.cls a.res) t
  exact ⟨(unitOut_of_view hout ..).trans hgone, mem_stand_of_view hstays hstand⟩

/-! ### Units that go missing (R490, R504) -/

theorem logFirst_reserve_boot (lo vlo hi vhi : Nat) (s : State) :
    (logFirst lo vlo hi vhi s).reserve = s.reserve ∧ (logFirst lo vlo hi vhi s).boot = s.boot := by
  unfold logFirst
  split
  · exact ⟨rfl, rfl⟩
  · rw [setReg_reserve, setReg_reserve, setReg_boot, setReg_boot]
    exact ⟨rfl, rfl⟩

/-- A unit that is marked missing joins the list, and its RETIRE entry the ring unless that is full. -/
theorem markMissing_spec {x : UnitId} {s : State} (hport : portMissing s x.cls.toNat x.idx.toNat = false)
    (hbuilt : x.idx.toNat < unitsBuilt s.build.size x.cls.toNat)
    (hin : x.cls.toNat < 7 → leaving s x.cls.toNat x.idx.toNat = false) :
    (markMissing x.cls.toNat x.idx.toNat s).boot.missing = s.boot.missing ++ [x]
      ∧ (x.cls.toNat < 7 → s.reserve.pending.length < 16 →
          (⟨2, x.cls.toNat, x.idx.toNat, 0⟩ : Repair) ∈ (markMissing x.cls.toNat x.idx.toNat s).reserve.pending) := by
  have hserves : ¬ (portMissing s x.cls.toNat x.idx.toNat || decide (unitsBuilt s.build.size x.cls.toNat ≤ x.idx.toNat)
      || (decide (x.cls.toNat < 7) && unitOut s x.cls.toNat x.idx.toNat)) = true := by
    simp only [leaving, Bool.or_eq_false_iff] at hin
    simpa [hport, hbuilt] using fun h7 => (hin h7).1
  rw [markMissing, if_neg hserves]
  extract_lets u b s1 s2
  have hfault : s2.reserve = s.reserve ∧ s2.boot = s1.boot := by
    unfold s2
    split
    · exact logFirst_reserve_boot ..
    · exact ⟨rfl, rfl⟩
  obtain ⟨hreserve, hboot⟩ := hfault
  have hmarked : s2.boot.missing = s.boot.missing ++ [x] := by
    rw [hboot]
    simp [s1, u]
  split
  · next h7 =>
    have hstays : leaving s2 x.cls.toNat x.idx.toNat = false := by
      simpa only [leaving, unitOut, swapAsked, hreserve] using hin h7
    obtain ⟨hkept, hring⟩ := retireLive_pending hstays
    rw [hreserve] at hring
    refine ⟨by rw [hkept, hmarked], fun _ hroom => ?_⟩
    rw [hring hroom]
    exact List.mem_append_right _ (List.mem_singleton.2 rfl)
  · next h7 => exact ⟨hmarked, fun h => absurd h h7⟩

/-- In the phases up to roll call, a unit whose domain is not being switched on again is marked missing (R504). -/
theorem exec_unitMissing_marks {x : UnitId} {s : State} (hlo : 1 ≤ s.boot.phase) (hhi : s.boot.phase ≤ 3)
    (hcls : x.cls.toNat < 11) (hdomain : s.boot.phase = 3 →
      Tab.get .off s.power.pds (unitDomain s.build.size x.cls.toNat x.idx.toNat) ≠ .powered) :
    exec (.unitMissing x) s = .next (markMissing x.cls.toNat x.idx.toNat s) := by
  have honce : ¬ (decide (3 ≤ s.boot.phase) &&
      decide (Tab.get .off s.power.pds (unitDomain s.build.size x.cls.toNat x.idx.toNat) = .powered)
      || decide (4 ≤ s.boot.phase)) = true := by
    simp only [Bool.or_eq_true, Bool.and_eq_true, decide_eq_true_eq]
    rintro (⟨h3, hpowered⟩ | h4)
    · exact hdomain (by omega) hpowered
    · omega
  change execUnitMissing x s = _
  rw [execUnitMissing, if_neg honce, if_pos (by simp [hlo, hcls])]

/-- A unit of a domain that is being switched on again is noted as silent (R490). -/
theorem exec_unitMissing_silent {x : UnitId} {s : State} (hphase : 3 ≤ s.boot.phase) (hcls : x.cls.toNat < 11)
    (hbuilt : x.idx.toNat < unitsBuilt s.build.size x.cls.toNat)
    (hdomain : Tab.get .off s.power.pds (unitDomain s.build.size x.cls.toNat x.idx.toNat) = .powered) :
    exec (.unitMissing x) s = .next { s with power := { s.power with silent := s.power.silent.insert x } } := by
  change execUnitMissing x s = _
  rw [execUnitMissing]
  simp [hphase, hdomain, unitSilent, hcls, hbuilt]

/-- Settles O57: each command by the lemmas on its operation. -/
theorem fillsEndAndUnitsGoMissing : Obligations.FillsEndAndUnitsGoMissing := by
  intro s
  refine ⟨fun k => ⟨?_, ?_⟩, fun ts => ?_, fun b a ha => ?_, fun n a ha => ?_, fun a ha hcls => ?_, fun x => ⟨?_, ?_⟩⟩
  · obtain ⟨hsame, hother, hrest⟩ := setTenant_only k.toNat { tenant s k.toNat with
      oldRows := (tenant s k.toNat).oldRows.filter (fun r => rowsInUse s k.toNat r.gen) } s
    exact ⟨_, rfl, rfl, hsame, hother, hrest⟩
  · exact ⟨_, rfl, setTenant_only ..⟩
  · refine ⟨fun hnone hfew => ?_, fun h => ?_⟩
    · subst hnone
      exact if_pos (decide_eq_true hfew)
    · obtain ⟨u, hu, htemp, hdead, hstep⟩ := exec_sorterThermalSample h
      refine ⟨u, hu, htemp, hdead, fun n hlt hn hlo hhi => ?_, fun _ ht => ?_, fun hlo hhi => ?_⟩
      · exact hstep.trans (thermalStep_raised hlt hn hlo hhi)
      · exact hstep.trans (thermalStep_lowered ht)
      · exact hstep.trans (thermalStep_kept hlo hhi)
  · rw [exec_vaultReloadDone ha]
    refine ⟨fun hbusy => by rw [if_pos hbusy], fun hread hpoison => ?_⟩
    rw [if_neg (by simp [hread])]
    have hview := (endActivity_units a _).trans (bankFull_poisoned hpoison)
    generalize endActivity a (bankFull b.toNat s) = u at hview ⊢
    have hpoisoned : u.reserve.poisoned = s.reserve.poisoned.filter (· != b.toNat) := congrArg UnitsView.poisoned hview
    have habsent : u.reserve.absent = s.reserve.absent.filter (· != b.toNat) := congrArg UnitsView.absent hview
    exact ⟨u, rfl, by simp [hpoisoned], by simp [habsent], congrArg UnitsView.poisons hview⟩
  · refine ⟨exec_tileReloadDone ha, fun hnone => ?_⟩
    rw [exec_tileReloadDone ha, endActivity, startWaiting]
    simp [hnone]
  · rw [exec_spareSwapDone ha]
    refine ⟨fun hfilling => by rw [if_pos hfilling], fun hfilled => ?_⟩
    rw [if_neg (by simp [hfilled])]
    have hends := endActivity_units a (swapDone a s)
    have hout := unitOut_of_view (congrArg UnitsView.out hends) a.cls a.res
    refine ⟨fun hwas => ⟨_, rfl, hout.trans (swapDone_back hcls hwas)⟩, fun p rest hwas hfree => ?_⟩
    obtain ⟨hgone, hstand⟩ := swapDone_replaced hcls hwas hfree
    exact ⟨_, rfl, hout.trans hgone, mem_stand_of_view (congrArg UnitsView.stand hends) hstand⟩
  · intro hlo hhi hcls hport hbuilt hin hdomain
    exact ⟨_, exec_unitMissing_marks hlo hhi hcls hdomain, markMissing_spec hport hbuilt hin⟩
  · intro hphase hcls hbuilt hdomain
    exact ⟨_, exec_unitMissing_silent hphase hcls hbuilt hdomain, List.mem_insert_self, rfl⟩

end Sys2Proof.Machine
end

section
/-!
PROOFS. Memory errors and advances of a grammar: they leave the threads, scratch with the stores noted, and the grammars.
-/

namespace Sys2Proof.Machine

/-- What is watched while the lookups of an advance meet memory errors and the advance is made. -/
structure ClerkView where
  threads : Tab Thread
  scratch : List Host.Cell
  stores : List StoreNote
  grammars : Tab (Option GrammarImage)

/-- The watched part of a state. -/
def clerkView (s : State) : ClerkView where
  threads := s.threads
  scratch := s.scratch
  stores := s.stores
  grammars := s.grammars

/-! ### Registers, items, tickets, streams -/

/-- A record update of fields that are not watched. -/
@[simp] theorem put_clerkView (u : State)
    (x_pending x_build x_free x_emitted x_issueNo x_instId x_regs x_latch x_heldLo x_regOut x_prog x_tickets
    x_ticketNext x_lastIssued x_clerkFatal x_streams x_beat x_day x_teller x_hops x_tenants x_genNext x_prefetch
    x_maskSets x_sortStep x_sortTemp x_sortDead x_clear x_egress0 x_egress1 x_accesses x_nextAccess x_ledger x_queue0
    x_queue1 x_queue2 x_queue3 x_kcw x_purse x_reserve x_power x_boot x_trcOut x_testOut) :
    clerkView (State.mk x_pending x_build x_free x_emitted x_issueNo u.stores x_instId x_regs x_latch x_heldLo x_regOut
      u.threads x_prog u.scratch x_tickets x_ticketNext x_lastIssued x_clerkFatal x_streams x_beat x_day x_teller x_hops
      x_tenants x_genNext x_prefetch u.grammars x_maskSets x_sortStep x_sortTemp x_sortDead x_clear x_egress0 x_egress1
      x_accesses x_nextAccess x_ledger x_queue0 x_queue1 x_queue2 x_queue3 x_kcw x_purse x_reserve x_power x_boot
      x_trcOut x_testOut) = clerkView u := rfl

@[simp] theorem ite_clerkView (c : Prop) [Decidable c] (a b : State) :
    clerkView (if c then a else b) = if c then clerkView a else clerkView b := apply_ite ..

@[simp] theorem foldl_clerkView {α : Type} (f : State → α → State) (xs : List α) (t : State)
    (hf : ∀ t x, clerkView (f t x) = clerkView t) : clerkView (xs.foldl f t) = clerkView t := by
  induction xs generalizing t with
  | nil => rfl
  | cons x xs ih => exact (ih _).trans (hf _ _)

@[simp] theorem setReg_clerkView (off v : Nat) (t : State) : clerkView (setReg off v t) = clerkView t := rfl

@[simp] theorem setRegBit_clerkView (off i : Nat) (t : State) : clerkView (setRegBit off i t) = clerkView t := rfl

@[simp] theorem takeFree_clerkView (t : State) : clerkView (takeFree t).2 = clerkView t := rfl

@[simp] theorem onItem_clerkView (n : Nat) (f : Item → Item) (t : State) : clerkView (onItem n f t) = clerkView t := rfl

@[simp] theorem onStream_clerkView (n : Nat) (f : Stream → Stream) (t : State) :
    clerkView (onStream n f t) = clerkView t := rfl

@[simp] theorem reportItem_clerkView (n st fl : Nat) (t : State) : clerkView (reportItem n st fl t) = clerkView t := rfl

@[simp] theorem bump_clerkView (off n : Nat) (t : State) : clerkView (bump off n t) = clerkView t := by
  unfold bump
  split <;> rfl

@[simp] theorem bump64_clerkView (off n : Nat) (t : State) : clerkView (bump64 off n t) = clerkView t := by
  unfold bump64
  split <;> rfl

@[simp] theorem bumpFree_clerkView (off : Nat) (t : State) : clerkView (bumpFree off t) = clerkView t :=
  (bump_clerkView off _ _).trans (takeFree_clerkView t)

@[simp] theorem logFirst_clerkView (lo vlo hi vhi : Nat) (t : State) :
    clerkView (logFirst lo vlo hi vhi t) = clerkView t := by
  unfold logFirst
  split
  · rfl
  · rw [setReg_clerkView, setReg_clerkView]

@[simp] theorem reportTicket_clerkView (c k st fl : Nat) (t : State) :
    clerkView (reportTicket c k st fl t) = clerkView t := by
  unfold reportTicket
  split <;> rfl

/-! ### Accesses and purchases -/

theorem Purchased.clerkView {s t : State} (h : Purchased s t) : clerkView t = clerkView s := by
  rw [h.1]
  rfl

@[simp] theorem startAccess_clerkView (cls : Nat) (bill : List (Nat × Nat)) (kind : ReqKind) (req : Nat)
    (lines : List Line) (job : Job) (t : State) :
    clerkView (startAccess cls bill kind req lines job t) = clerkView t := by
  have hframe := startAccess_frame cls bill kind req lines job t
  have hswept := startAccess_swept cls bill kind req lines job (Swept.refl t)
  unfold clerkView
  rw [hframe.threads, hframe.scratch, hframe.stores, hswept.grammars]

/-! ### Traces, and a tile that goes on -/

@[simp] theorem cutThrough_clerkView (m : Nat) (t : State) : clerkView (cutThrough 3 m t) = clerkView t := by
  unfold cutThrough
  dsimp only
  split <;> rfl

@[simp] theorem noteLoss_clerkView (i : Nat) (t : State) : clerkView (noteLoss i t) = clerkView t := by
  unfold noteLoss
  dsimp only
  split
  · exact bump_clerkView ..
  · exact (setReg_clerkView ..).trans (bump_clerkView ..)

theorem setQueue3_clerkView (es : List (Bool × Nat)) (t : State) : clerkView (setQueueN 3 es t) = clerkView t := rfl

@[simp] theorem writePacket_clerkView (es : List Nat) (t : State) : clerkView (writePacket 3 es t) = clerkView t := by
  unfold writePacket
  dsimp only
  repeat' split
  all_goals simp [setQueue3_clerkView]

@[simp] theorem writeTrace_clerkView (es : List Nat) (t : State) : clerkView (writeTrace es t) = clerkView t := by
  unfold writeTrace
  split
  · simp
  · dsimp only [takeFree]
    split
    · exact (writePacket_clerkView ..).trans rfl
    · simp only [noteLoss_clerkView, bump_clerkView, setRegBit_clerkView]
      rfl

@[simp] theorem traceTile_clerkView (hop : Nat) (z : Tile) (t : State) : clerkView (traceTile hop z t) = clerkView t := by
  have htrace (k n head : Nat) (es : List Nat) (u : State) : clerkView (trace k n head es u) = clerkView u := by
    unfold trace
    dsimp only
    split <;> simp
  unfold traceTile
  dsimp only
  split <;> split <;> simp [htrace]

@[simp] theorem passOn_clerkView (hop : Nat) (z : Tile) (t : State) : clerkView (passOn hop z t) = clerkView t :=
  (traceTile_clerkView hop z.advance t)

@[simp] theorem feedCuts_clerkView (fuel : Nat) (t : State) : clerkView (feedCuts fuel t) = clerkView t := by
  have hemit (z : Tile) (data : List Byte) (u : State) : clerkView (tellerEmit z data u) = clerkView u :=
    passOn_clerkView ..
  have hcut (log : Bool) (i : Item) (z : Tile) (k : Nat) (u : State) : clerkView (cutOne log i z k u) = clerkView u := by
    unfold cutOne
    split <;> simp [hemit, readLog]
  induction fuel generalizing t with
  | zero => rfl
  | succ fuel ih =>
    unfold feedCuts
    split
    · rfl
    · split
      · rfl
      · dsimp only
        rw [ih]
        split
        · exact (hcut ..).trans rfl
        · rfl

/-! ### A stream replayed -/

@[simp] theorem reissue_clerkView (log : Bool) (n : Nat) (t : State) : clerkView (reissue log n t) = clerkView t := by
  have hagain (bs : List Byte) (u : State) : clerkView (deliverAgain n bs u) = clerkView u := by
    unfold deliverAgain
    split <;> rfl
  have hcut (i : Item) (c k : Nat) (u : State) : clerkView (cutItem log i c k u) = clerkView u := by
    simp [cutItem, feedAll]
  unfold reissue
  dsimp only
  repeat' split
  all_goals simp [hagain, hcut, readLog]

@[simp] theorem replayStream_clerkView (n : Nat) (t : State) : clerkView (replayStream n t) = clerkView t := by
  simp [replayStream, readCkpt, restoreStream, discardTiles, dropAccesses]

/-! ### Banks of VAULT that meet an error -/

@[simp] theorem wakeSpare_clerkView (t : State) : clerkView (wakeSpare t) = clerkView t := by
  unfold wakeSpare
  dsimp only
  repeat' split
  all_goals rfl

@[simp] theorem startOrWait_clerkView (a : Activity) (t : State) : clerkView (startOrWait a t) = clerkView t := by
  have hleave (u : State) : clerkView (leaveBanks a u) = clerkView u := by
    unfold leaveBanks
    repeat' split
    all_goals rfl
  have hfill (u : State) : clerkView (fillFor a u) = clerkView u := by
    unfold fillFor
    split <;> simp [readGolden]
  unfold startOrWait
  split
  · rfl
  · exact (hfill _).trans (hleave _)

@[simp] theorem addPending_clerkView (r : Repair) (t : State) : clerkView (addPending r t) = clerkView t := by
  simp [addPending]

@[simp] theorem takeOut_clerkView (cls i : Nat) (t : State) : clerkView (takeOut cls i t) = clerkView t := by
  simp [takeOut]

@[simp] theorem spareOut_clerkView (cls i : Nat) (t : State) : clerkView (spareOut cls i t) = clerkView t :=
  (logFirst_clerkView ..).trans rfl

@[simp] theorem clearPoison_clerkView (b : Nat) (t : State) : clerkView (clearPoison b t) = clerkView t := by
  simp [clearPoison, audFault, cleanCheck]

@[simp] theorem bankAbsent_clerkView (b : Nat) (t : State) : clerkView (bankAbsent b t) = clerkView t := by
  have hreload (k : Nat) (u : State) : clerkView (startReload k u) = clerkView u := by
    unfold startReload
    split <;> simp
  simp [bankAbsent, hreload]

@[simp] theorem poisonBank_clerkView (b : Nat) (t : State) : clerkView (poisonBank b t) = clerkView t := by
  simp [poisonBank]

/-- A bank of VAULT taken out of service. -/
@[simp] theorem retireUnit_bank_clerkView (i : Nat) (t : State) : clerkView (retireUnit 0 i t).1 = clerkView t := by
  have hstand (u p : Nat) (v : State) : clerkView (standIn 0 u p v) = clerkView v := rfl
  unfold retireUnit
  dsimp only
  repeat' split
  all_goals simp_all

@[simp] theorem remapRow_vault_clerkView (m row : Nat) (live : Bool) (t : State) :
    clerkView (remapRow 0 m row live t).1 = clerkView t := by
  have hlive (i : Nat) (u : State) : clerkView (retireLive 0 i u) = clerkView u := by
    unfold retireLive
    split <;> simp
  have hspent (u : State) : clerkView (spentMacro 0 m row live u).1 = clerkView u := by
    unfold spentMacro
    simp only [if_true]
    split <;> simp [hlive]
  have hmap (r p : Nat) (u : State) : clerkView (mapRow 0 m r p u) = clerkView u := rfl
  unfold remapRow
  dsimp only
  repeat' split
  all_goals simp [hspent, hmap]

@[simp] theorem lookupError_clerkView (n ledger : Nat) (ts : List Nat) (t : State) :
    clerkView (lookupError n ledger ts t) = clerkView t := by
  have hvault (hw : HwEvent) (u : State) : clerkView (vaultError hw ledger u) = clerkView u := by
    unfold vaultError
    split <;> simp
  unfold lookupError readError
  dsimp only
  split
  · rfl
  · repeat' split
    all_goals simp [hvault]

/-! ### An advance -/

@[simp] theorem countReads_clerkView (ledger : Nat) (r : Reads) (t : State) :
    clerkView (countReads ledger r t) = clerkView t := by
  have hnote (u : State) : clerkView (noteBanks ledger r u) = clerkView u := rfl
  simp [countReads, hnote]

@[simp] theorem countAdvance_clerkView (a : Adv) (t : State) : clerkView (countAdvance a t) = clerkView t := by
  simp [countAdvance]

@[simp] theorem moveChip_clerkView (n ledger pop push : Nat) (before after : List Nat) (t : State) :
    clerkView (moveChip n ledger pop push before after t).1 = clerkView t := by
  unfold moveChip
  dsimp only
  split <;> simp

@[simp] theorem readTransition_clerkView (cls : Nat) (c : Cfg) (k : Nat) (job : Job) (t : State) :
    clerkView (readTransition cls c k job t) = clerkView t := by
  unfold readTransition
  split <;> simp

@[simp] theorem makeAdvance_clerkView (n ledger k : Nat) (t : State) :
    clerkView (makeAdvance n ledger k t) = clerkView t := by
  have hpatch (slot : Nat) (patch : List Nat) (u : State) :
      clerkView (writePatch n ledger slot patch u) = clerkView u := by
    simp [writePatch]
  have hckpt (slot no : Nat) (c : Cfg) (u : State) : clerkView (writeCheckpoint n slot ledger no c u) = clerkView u := by
    simp [writeCheckpoint]
  have hovf (x : Nat) (r : Reads) (job : Job) (u : State) : clerkView (notaryOverflow x r job u) = clerkView u := by
    simp [notaryOverflow]
  have hdead (u : State) : clerkView (markDead n u) = clerkView u := rfl
  unfold makeAdvance
  dsimp only
  repeat' split
  all_goals simp [hpatch, hckpt, hovf, hdead]

end Sys2Proof.Machine
end

section
/-!
PROOFS. Advances of a stream's grammar: what an advance gives depends on the grammar images alone, and making one changes
nothing of what stations work on but the stream's NOTARY context and state.
-/

namespace Sys2Proof.Machine

/-! ### What an advance depends on -/

theorem grammar_congr {s t : State} (h : t.grammars = s.grammars) (g : Nat) : grammar t g = grammar s g := by
  unfold grammar
  rw [h]

theorem advance_congr {s t : State} (h : t.grammars = s.grammars) (im : TokImage) (allow : Bool) (c : Cfg) (k : Nat) :
    advance t im allow c k = advance s im allow c k := by
  simp only [advance, settleCfg, grammar_congr h]

theorem tokensLegal_congr {s t : State} (h : t.grammars = s.grammars) (im : TokImage) (allow : Bool) (c : Cfg)
    (ks : List Nat) : tokensLegal t im allow c ks = tokensLegal s im allow c ks := by
  induction ks generalizing c with
  | nil => rfl
  | cons k ks ih => simp only [tokensLegal, grammar_congr h, advance_congr h, ih]

theorem clenUse_congr {s t : State} (hb : t.build = s.build) (ht : t.tenants = s.tenants) (k : Nat) (ks : List Nat) :
    clenUse t k ks = clenUse s k ks := by
  unfold clenUse tenant
  rw [ht, hb]

theorem advancesBill_congr {s t : State} (hg : t.grammars = s.grammars) (hb : t.build = s.build)
    (ht : t.tenants = s.tenants) (im : TokImage) (k : Nat) (allow own : Bool) (c : Cfg) (ks : List Nat) :
    advancesBill t im k allow own c ks = advancesBill s im k allow own c ks := by
  induction ks generalizing c with
  | nil => rfl
  | cons t ts ih => simp only [advancesBill, advanceBill, clenUse_congr hb ht, advance_congr hg, ih]

/-- The lookups of advances depend on the images and on the stream's configuration. -/
theorem advanceReads_congr {s t : State} {n : Nat} (hg : t.grammars = s.grammars) (hb : t.build = s.build)
    (ht : t.tenants = s.tenants) (htenant : (stream t n).tenant = (stream s n).tenant)
    (hallow : (stream t n).notary.allow = (stream s n).notary.allow)
    (hcfg : (stream t n).notary.cfg = (stream s n).notary.cfg) (ks : List Nat) :
    advanceReads t n ks = advanceReads s n ks := by
  have himage (k : Nat) : imageOf t k = imageOf s k := by
    unfold imageOf tenant
    rw [ht]
  have hreads (im : TokImage) (allow : Bool) (c : Cfg) :
      advanceReads.reads t im allow c ks = advanceReads.reads s im allow c ks := by
    induction ks generalizing c with
    | nil => rfl
    | cons k ks ih => simp only [advanceReads.reads, advance_congr hg, ih]
  unfold advanceReads
  dsimp only
  simp only [htenant, hallow, hcfg, himage, hreads, clenUse_congr hb ht]

theorem grammars_of_clerkView {s t : State} (h : clerkView t = clerkView s) : t.grammars = s.grammars :=
  congrArg ClerkView.grammars h

theorem threads_of_clerkView {s t : State} (h : clerkView t = clerkView s) : t.threads = s.threads :=
  congrArg ClerkView.threads h

theorem scratch_of_clerkView {s t : State} (h : clerkView t = clerkView s) : t.scratch = s.scratch :=
  congrArg ClerkView.scratch h

theorem stores_of_clerkView {s t : State} (h : clerkView t = clerkView s) : t.stores = s.stores :=
  congrArg ClerkView.stores h

/-- One advance reports its own status. -/
theorem commitStatus_one {s : State} {n : Nat} {im : TokImage} (him : imageOf s (stream s n).tenant = some im) (k : Nat) :
    commitStatus s n [k] = (advance s im (stream s n).notary.allow (stream s n).notary.cfg k).status := by
  unfold commitStatus
  dsimp only
  rw [him]
  rfl

/-! ### The frame of an advance -/

/-- Of what stations work on, nothing is different but one stream, whose commits stand. -/
structure OnlyNotary (n : Nat) (s t : State) : Prop where
  hops : t.hops = s.hops
  others : ∀ m, m ≠ n → stream t m = stream s m
  commits : (stream t n).notary.commits = (stream s n).notary.commits

theorem OnlyNotary.refl (n : Nat) (s : State) : OnlyNotary n s s := ⟨rfl, fun _ _ => rfl, rfl⟩

theorem OnlyNotary.of_stations {n : Nat} {s t u : State} (h : OnlyNotary n s t) (e : stationView u = stationView t) :
    OnlyNotary n s u := by
  refine ⟨(congrArg StationView.hops e).trans h.hops, fun m hm => ?_, ?_⟩
  · rw [stream_of_stations e, h.others m hm]
  · rw [stream_of_stations e, h.commits]

theorem OnlyNotary.onStream {n : Nat} {s t : State} (h : OnlyNotary n s t) {f : Stream → Stream}
    (hf : ∀ x, (f x).notary.commits = x.notary.commits) : OnlyNotary n s (onStream n f t) := by
  refine ⟨h.hops, fun m hm => ?_, ?_⟩
  · rw [stream_onStream_other _ _ hm, h.others m hm]
  · rw [stream_onStream_same, hf, h.commits]

/-- An advance that leaves a configuration. -/
structure AdvanceMade (n : Nat) (c : Cfg) (s t : State) : Prop extends OnlyNotary n s t where
  cfg : (stream t n).notary.cfg = c

theorem AdvanceMade.of_stations {n : Nat} {c : Cfg} {s t u : State} (h : AdvanceMade n c s t)
    (e : stationView u = stationView t) : AdvanceMade n c s u :=
  ⟨h.toOnlyNotary.of_stations e, by rw [stream_of_stations e, h.cfg]⟩

/-- A change of the stream that leaves the configuration and the commits. -/
theorem AdvanceMade.onStream {n : Nat} {c : Cfg} {s t : State} (h : AdvanceMade n c s t) {f : Stream → Stream}
    (hcommits : ∀ x, (f x).notary.commits = x.notary.commits) (hcfg : ∀ x, (f x).notary.cfg = x.notary.cfg) :
    AdvanceMade n c s (onStream n f t) :=
  ⟨h.toOnlyNotary.onStream hcommits, by rw [stream_onStream_same, hcfg, h.cfg]⟩

/-- The new configuration joins the stream. -/
theorem OnlyNotary.advanced {n : Nat} {c : Cfg} {s t : State} (h : OnlyNotary n s t) {f : Stream → Stream}
    (hcommits : ∀ x, (f x).notary.commits = x.notary.commits) (hcfg : ∀ x, (f x).notary.cfg = c) :
    AdvanceMade n c s (Machine.onStream n f t) := ⟨h.onStream hcommits, by rw [stream_onStream_same, hcfg]⟩

/-- Spills and refills change only what the stream has on chip. -/
theorem OnlyNotary.moveChip {n : Nat} {s t : State} (h : OnlyNotary n s t) (ledger pop push : Nat)
    (before after : List Nat) : OnlyNotary n s (moveChip n ledger pop push before after t).1 := by
  have hchip (c k : Nat) : OnlyNotary n s (bump R.NOT_SPILL k
      (Machine.onStream n (fun x => { x with notary := { x.notary with onChip := c } }) t)) := by
    refine .of_stations ?_ (bump_stations ..)
    exact h.onStream fun _ => rfl
  unfold Machine.moveChip
  dsimp only
  split
  · exact hchip ..
  · exact .of_stations (hchip ..) (startAccess_stations ..)

theorem readTransition_stations (cls : Nat) (c : Cfg) (k : Nat) (job : Job) (t : State) :
    stationView (readTransition cls c k job t) = stationView t := by
  unfold readTransition
  split
  · rfl
  · dsimp only
    split
    · rfl
    · rw [startAccess_stations, bump_stations, takeFree_stations]

theorem writePatch_stations (n ledger slot : Nat) (patch : List Nat) (t : State) :
    stationView (writePatch n ledger slot patch t) = stationView t := by
  unfold writePatch
  split
  · rfl
  · exact startAccess_stations ..

theorem notaryOverflow_stations (k : Nat) (r : Reads) (job : Job) (t : State) :
    stationView (notaryOverflow k r job t) = stationView t := by
  unfold notaryOverflow
  dsimp only
  split
  · rfl
  · exact startAccess_stations ..

/-- The stream of an over grammar ends, with its configuration and its commits as they are. -/
theorem AdvanceMade.markDead {n : Nat} {c : Cfg} {s t : State} (h : AdvanceMade n c s t) :
    AdvanceMade n c s (markDead n t) := by
  refine h.onStream (fun x => ?_) (fun x => ?_) <;> split <;> rfl

/-- An advance leaves the configuration that it gives (R250). -/
theorem makeAdvance_spec {n : Nat} {s : State} {im : TokImage} (him : imageOf s (stream s n).tenant = some im)
    (ledger k : Nat) : AdvanceMade n (advance s im (stream s n).notary.allow (stream s n).notary.cfg k).cfg s
      (makeAdvance n ledger k s) := by
  have hcounts (a : Adv) (r : Reads) :
      stationView (bump R.NOT_STEPS 1 (countAdvance a (countReads ledger r s))) = stationView s := by
    simp [countAdvance]
  have hread (hit : Bool) (c : Cfg) (u : State) :
      stationView (if hit then u else readTransition 0 c k (.advanceRead n ledger) u) = stationView u := by
    split
    · rfl
    · exact readTransition_stations ..
  have hback (back : List Line) (job : Job) (slot : Nat) (patch : List Nat) (u : State) :
      stationView (if back.isEmpty then writePatch n ledger slot patch u
        else startAccess 0 (lineBill back.length) .read 4 back job u) = stationView u := by
    split
    · exact writePatch_stations ..
    · exact startAccess_stations ..
  have hchip (deep : Bool) (pop push : Nat) (before after : List Nat) {u : State} (hu : stationView u = stationView s) :
      OnlyNotary n s (if deep then (u, []) else moveChip n ledger pop push before after u).1 := by
    have h := (OnlyNotary.refl n s).of_stations hu
    split
    · exact h
    · exact h.moveChip ..
  unfold makeAdvance
  dsimp only
  rw [him]
  dsimp only
  refine .markDead (.of_stations ?_ (onItem_stations ..))
  refine .of_stations ?_ (onItem_stations ..)
  refine .of_stations ?_ (startAccess_stations ..)
  refine .of_stations ?_ (hback ..)
  refine .of_stations ?_ (notaryOverflow_stations ..)
  exact (hchip _ _ _ _ _ ((hread ..).trans (hcounts ..))).advanced (fun _ => rfl) (fun _ => rfl)

theorem makeAdvances_hops (n ledger : Nat) (ks : List Nat) (s : State) : (makeAdvances n ledger ks s).hops = s.hops := by
  have hone (k : Nat) (t : State) : (makeAdvance n ledger k t).hops = t.hops := by
    cases him : imageOf t (stream t n).tenant with
    | none =>
      unfold makeAdvance
      dsimp only
      rw [him]
    | some im => exact (makeAdvance_spec him ledger k).hops
  unfold makeAdvances
  induction ks generalizing s with
  | nil => rfl
  | cons k ks ih => exact (ih _).trans (hone k s)

/-! ### Lookups that meet no error -/

/-- Lookups that read no bank, or whose free value names no error, use up free values alone. -/
theorem lookupError_clean {s : State} {n : Nat} {ks : List Nat} (ledger : Nat)
    (h : (advanceReads s n ks).banks = [] ∨ Config.freeValue s.free % 4 ∉ [1, 2]) :
    ∃ m, lookupError n ledger ks s = { s with free := m } := by
  unfold lookupError readError takeFree
  dsimp only
  split
  · exact ⟨_, rfl⟩
  next b hb =>
    rcases h with h | h
    · simp [h] at hb
    · simp only [List.mem_cons, List.not_mem_nil, or_false, not_or] at h
      rw [if_neg h.1, if_neg h.2]
      exact ⟨_, rfl⟩

end Sys2Proof.Machine
end

section
/-!
PROOFS. MASK, NEXT and DRAFT: what the two purchases leave of what they ask, the words that DRAFT stores, and the
obligation.
-/

namespace Sys2Proof.Machine

/-! ### What purchases leave -/

/-- Nothing is different but the threads, the turns of the CLERKS and what purchases change. -/
def PaidFor (s t : State) : Prop :=
  t = { s with
    threads := t.threads, lastIssued := t.lastIssued, issueNo := t.issueNo, purse := t.purse, regs := t.regs }

theorem bought_paidFor (w : Who) (c : Nat) (s : State) : PaidFor s (bought w c s) := by
  unfold PaidFor bought spend bump64
  split <;> rfl

theorem PaidFor.purchased {s t u : State} (h : PaidFor s t) (k : Purchased t u) : PaidFor s u := by
  obtain ⟨hu, _⟩ := k
  have hthreads : u.threads = t.threads := (congrArg State.threads hu).trans rfl
  have hlast : u.lastIssued = t.lastIssued := (congrArg State.lastIssued hu).trans rfl
  have hno : u.issueNo = t.issueNo := (congrArg State.issueNo hu).trans rfl
  rw [h] at hu
  unfold PaidFor
  rw [hthreads, hlast, hno]
  exact hu

/-- What reads none of the fields that a purchase changes is the same after it. -/
theorem PaidFor.same {α : Type} {s t : State} (h : PaidFor s t) (g : State → α)
    (hg : ∀ threads lastIssued issueNo purse regs, g { s with
      threads := threads, lastIssued := lastIssued, issueNo := issueNo, purse := purse, regs := regs } = g s) :
    g t = g s := by
  rw [h]
  exact hg ..

theorem PaidFor.stream {s t : State} (h : PaidFor s t) (n : Nat) : stream t n = stream s n :=
  h.same (Machine.stream · n) fun _ _ _ _ _ => rfl

theorem PaidFor.inForce {s t : State} (h : PaidFor s t) (n k : Nat) : inForce t n k = inForce s n k :=
  h.same (Machine.inForce · n k) fun _ _ _ _ _ => rfl

theorem PaidFor.imageOf {s t : State} (h : PaidFor s t) (k : Nat) : imageOf t k = imageOf s k :=
  h.same (Machine.imageOf · k) fun _ _ _ _ _ => rfl

theorem PaidFor.build {s t : State} (h : PaidFor s t) : t.build = s.build := h.same State.build fun _ _ _ _ _ => rfl

theorem PaidFor.tenants {s t : State} (h : PaidFor s t) : t.tenants = s.tenants :=
  h.same State.tenants fun _ _ _ _ _ => rfl

theorem PaidFor.grammars {s t : State} (h : PaidFor s t) : t.grammars = s.grammars :=
  h.same State.grammars fun _ _ _ _ _ => rfl

theorem PaidFor.free {s t : State} (h : PaidFor s t) : t.free = s.free := h.same State.free fun _ _ _ _ _ => rfl

theorem PaidFor.scratch {s t : State} (h : PaidFor s t) : t.scratch = s.scratch :=
  h.same State.scratch fun _ _ _ _ _ => rfl

theorem PaidFor.advanceReads {s t : State} (h : PaidFor s t) (n : Nat) (ks : List Nat) :
    advanceReads t n ks = advanceReads s n ks := by
  have hx := h.stream n
  exact advanceReads_congr h.grammars h.build h.tenants (by rw [hx]) (by rw [hx]) (by rw [hx]) ks

theorem PaidFor.extraBill {s t : State} (h : PaidFor s t) (n : Nat) (ks : List Nat) :
    extraBill t n ks = extraBill s n ks := by
  unfold Machine.extraBill
  dsimp only
  simp only [h.stream, h.imageOf, advancesBill_congr h.grammars h.build h.tenants]

theorem PaidFor.advanceWaits {s t : State} (h : PaidFor s t) (n ledger : Nat) :
    advanceWaits t n ledger = advanceWaits s n ledger := h.same (Machine.advanceWaits · n ledger) fun _ _ _ _ _ => rfl

theorem PaidFor.advanceStalls {s t : State} (h : PaidFor s t) (n : Nat) (ks : List Nat) :
    advanceStalls t n ks = advanceStalls s n ks := by
  unfold Machine.advanceStalls
  rw [h.advanceReads]
  exact h.same (readsStall · (Machine.advanceReads s n ks)) fun _ _ _ _ _ => rfl

theorem PaidFor.scanDraft {s t : State} (h : PaidFor s t) (n : Nat) (ks : List Nat) :
    scanDraft t n ks = scanDraft s n ks :=
  h.same (Machine.scanDraft · n ks) fun _ _ _ _ _ => rfl

theorem PaidFor.draftUsed {s t : State} (h : PaidFor s t) (n : Nat) : draftUsed t n = draftUsed s n :=
  h.same (Machine.draftUsed · n) fun _ _ _ _ _ => rfl

theorem PaidFor.draftTokens {s t : State} (h : PaidFor s t) (c x n : Nat) :
    draftTokens t c x n = draftTokens s c x n := by
  unfold Machine.draftTokens
  rw [scratchRead_congr h.scratch]

/-- The coins of a bill that follows the purchase of the instruction. -/
theorem coinsThere_bought {s : State} {w : Who} {f : Fields} {op c : Nat} (h : Issues s w f op c)
    {bill : List (Nat × Nat)} (hbill : priceNow s c + billCost s bill ≤ s.purse.balance) :
    CoinsThere (bought w c s) bill := by
  obtain ⟨_, _, _, _, _, _, _, _, hqueue, hclk, _⟩ := h
  have hpower := (bought_paidFor w c s).same State.power fun _ _ _ _ _ => rfl
  have hprice (b : Nat) : unitPrice (bought w c s) b = unitPrice s b := unitPrice_spend ..
  refine ⟨?_, ?_, ?_⟩
  · unfold bought spend bump64
    split <;> exact hqueue
  · unfold clkUp
    rw [hpower]
    exact hclk
  · rw [spend_balance, noteIssue_purse]
    simp only [hprice]
    unfold billCost at hbill
    omega

/-! ### The checks of MASK, NEXT and DRAFT -/

/-- MASK, NEXT and DRAFT of a stream find it live, with a grammar that NOTARY does not hold. -/
structure GrammarReady (s : State) (n : Nat) : Prop where
  known : streamsUnknown s = false
  built : n < s.build.size.contexts
  gen : (stream s n).notary.gen = true
  live : (stream s n).st = .opened ∨ (stream s n).st = .held
  idle : notaryBusy s n = false

theorem GrammarReady.refusal {s : State} {n : Nat} (h : GrammarReady s n) (w : Who) (c : Nat) :
    grammarRefusal (bought w c s) n = none := by
  have hpaid := bought_paidFor w c s
  rw [hpaid.same (Machine.grammarRefusal · n) fun _ _ _ _ _ => rfl]
  unfold grammarRefusal liveRefusal
  dsimp only
  rw [if_neg (Nat.not_le.2 h.built), h.gen, Bool.not_true, if_neg Bool.false_ne_true]
  rcases h.live with e | e <;> rw [e]

/-- The purchase of the instruction itself is no advance that waits for its coins. -/
theorem GrammarReady.notBusy {s : State} {n : Nat} (h : GrammarReady s n) {w : Who} {f : Fields} {op c : Nat}
    (hi : Issues s w f op c) : notaryBusy (bought w c s) n = false := by
  obtain ⟨hqueue, _⟩ := coinsThere_bought (bill := []) hi hi.balance
  have hsame := (bought_paidFor w c s).same (fun u => (stream u n).notary.pending.isSome
    || !(stream u n).notary.commits.isEmpty || resolving u n) fun _ _ _ _ _ => rfl
  have hidle := h.idle
  unfold notaryBusy at hidle ⊢
  rw [Bool.or_eq_false_iff] at hidle ⊢
  obtain ⟨hheld, _⟩ := hidle
  refine ⟨hsame.trans hheld, ?_⟩
  unfold advanceBought
  rw [hqueue]
  rfl

/-! ### MASK -/

/-- MASK of a stream that NOTARY does not hold, for an item that need not wait. -/
theorem exec_mask {s : State} {w : Who} {f : Fields} (hi : Issues s w f 0x60 5)
    (hr : GrammarReady s (issuedThread s w).stream)
    (hwaits : advanceWaits s (issuedThread s w).stream (issuedThread s w).ledger = false) :
    let m := (stream s (issuedThread s w).stream).notary.cfg.fields
    exec (.mask w f) s = .next (putG w f.d (resultWord 0 0 (m.maskIndex % 2 ^ 20 + m.remain % 2 ^ 16 * 2 ^ 20))
      (bought w 5 s)) := by
  have hx : exec (.mask w f) s = .next (actMask w f (bought w 5 s)) :=
    exec_pays (op := opMask w f) hi rfl (by omega) rfl
  rw [hx]
  simp only [actMask, thread_bought, awaitsStream_known hr.known, hr.refusal, hr.notBusy hi,
    (bought_paidFor w 5 s).advanceWaits, hwaits, stream_bought, Bool.or_self, Bool.false_eq_true, if_false]

/-! ### NEXT -/

/-- NEXT of a stream that NOTARY does not hold, for an item that need not wait: its token's check, and the purchase of its
advance. -/
theorem exec_next {s : State} {w : Who} {f : Fields} (hi : Issues s w f 0x61 24)
    (hr : GrammarReady s (issuedThread s w).stream) (hledger : (issuedThread s w).ledger ≠ 0)
    (hwaits : advanceWaits s (issuedThread s w).stream (issuedThread s w).ledger = false)
    (hstalls : advanceStalls s (issuedThread s w).stream [((issuedThread s w).reg f.a).toNat % 2 ^ 20] = false) :
    let n := (issuedThread s w).stream
    let k := ((issuedThread s w).reg f.a).toNat % 2 ^ 20
    exec (.next w f) s = .next (
      if !inForce s n k then putStatus w f.d St.BAD_OP (bought w 24 s)
      else buy 0 (extraBill s n [k]) (.next w f) (waitRetry w (.next w f)) (nextBody w f) (bought w 24 s)) := by
  have hpaid := bought_paidFor w 24 s
  have hx : exec (.next w f) s = .next (actNext w f (bought w 24 s)) :=
    exec_pays (op := opNext w f) hi rfl (by omega) rfl
  rw [hx]
  simp only [actNext, thread_bought, awaitsStream_known hr.known, hr.refusal, hr.notBusy hi, hpaid.advanceWaits, hwaits,
    hpaid.advanceStalls, hstalls, hpaid.inForce, hpaid.extraBill, if_neg hledger, Bool.or_self,
    Bool.false_eq_true, if_false]

/-- The state in which NEXT has made its advance. -/
def nextAdvanced (n ledger k : Nat) (s : State) : State :=
  dropCands n (makeAdvance n ledger k (lookupError n ledger [k] s))

theorem nextAdvanced_clerkView (n ledger k : Nat) (s : State) : clerkView (nextAdvanced n ledger k s) = clerkView s := by
  unfold nextAdvanced dropCands
  rw [onStream_clerkView, makeAdvance_clerkView, lookupError_clerkView]

/-- Where no lookup meets an error, NEXT leaves the configuration that the advance over its token gives. -/
theorem nextAdvanced_clean {n k : Nat} {s : State} {im : TokImage} (him : imageOf s (stream s n).tenant = some im)
    (hclean : (advanceReads s n [k]).banks = [] ∨ Config.freeValue s.free % 4 ∉ [1, 2]) (ledger : Nat) :
    AdvanceMade n (advance s im (stream s n).notary.allow (stream s n).notary.cfg k).cfg s
      (nextAdvanced n ledger k s) := by
  obtain ⟨m, hm⟩ := lookupError_clean ledger hclean
  have hmade := makeAdvance_spec (s := { s with free := m }) (n := n) him ledger k
  rw [advance_congr (s := s) (t := { s with free := m }) rfl] at hmade
  unfold nextAdvanced dropCands
  rw [hm]
  refine .onStream ?_ (fun _ => rfl) (fun _ => rfl)
  exact ⟨⟨hmade.hops, hmade.others, hmade.commits⟩, hmade.cfg⟩

/-- The end of NEXT over a token in force: the advance, and its status and the new mask index in the result word. -/
theorem nextBody_eq {s : State} {w : Who} {f : Fields} {im : TokImage} :
    let n := (thread s w).stream
    let k := ((thread s w).reg f.a).toNat % 2 ^ 20
    let u := nextAdvanced n (thread s w).ledger k s
    imageOf s (stream s n).tenant = some im → inForce s n k = true →
    nextBody w f s = putG w f.d (resultWord (advance s im (stream s n).notary.allow (stream s n).notary.cfg k).status 0
      ((stream u n).notary.cfg.fields.maskIndex % 2 ^ 20)) u := by
  intro n k u him hforce
  unfold nextBody
  dsimp only
  rw [hforce, Bool.not_true, if_neg Bool.false_ne_true, commitStatus_one him]
  rfl

end Sys2Proof.Machine
end

section
/-!
PROOFS. DRAFT: the words that its scan gives, how they stand in scratch, and the obligation on the instructions over a
stream's grammar.
-/

namespace Sys2Proof.Machine

/-! ### The scan -/

theorem flag_le_one (b : Bool) : flag b ≤ 1 := by cases b <;> decide

/-- A draft position word fits its 32 bits. -/
theorem draftWord_lt (g : GrammarImage) (c : Cfg) : draftWord g c < 2 ^ 32 := by
  have hlchk := flag_le_one c.fields.lchk
  have hpatch := flag_le_one (decide (0 < c.fields.adds) || decide (0 < c.fields.removes))
  have hempty := flag_le_one (maskEmpty g c)
  unfold draftWord
  omega

/-- A scan takes at most the tokens it is given, and its words fit 32 bits. -/
theorem draftScan_spec (im : TokImage) (g : GrammarImage) (allow : Bool) (c : Cfg) (ts : List Nat) :
    (draftScan im g allow c ts).1.length ≤ ts.length ∧ ∀ v ∈ (draftScan im g allow c ts).1, v < 2 ^ 32 := by
  induction ts generalizing c with
  | nil => simp [draftScan]
  | cons t ts ih =>
    obtain ⟨hlen, hword⟩ := ih (draftStep im g allow c t)
    unfold draftScan
    dsimp only
    split
    · simp
    · split
      · refine ⟨by simp, fun v hv => ?_⟩
        rw [List.mem_singleton.1 hv]
        exact draftWord_lt ..
      · refine ⟨Nat.succ_le_succ hlen, fun v hv => ?_⟩
        rcases List.mem_cons.1 hv with rfl | hv
        · exact draftWord_lt ..
        · exact hword v hv

theorem scanDraft_spec (s : State) (n : Nat) (ts : List Nat) :
    (scanDraft s n ts).1.length ≤ ts.length ∧ ∀ v ∈ (scanDraft s n ts).1, v < 2 ^ 32 := by
  unfold scanDraft
  dsimp only
  split
  · exact draftScan_spec ..
  · simp

theorem draftTokens_length (s : State) (c x m : Nat) : (draftTokens s c x m).length ≤ m := by
  have h := chunksOf_length (n := 4) (by omega) (4 * m + 1) (scratchRead s c x (4 * m))
  rw [scratchRead_length] at h
  unfold draftTokens words32
  rw [List.length_map, List.length_map, scratchRead_length]
  omega

/-! ### Words in scratch -/

theorem chunksOf_words (ws : List Nat) (fuel : Nat) (h : ws.length < fuel) :
    chunksOf fuel 4 ((ws.map (toLE 4)).flatten) = ws.map (toLE 4) := by
  induction ws generalizing fuel with
  | nil =>
    cases fuel with
    | zero => exact absurd h (by omega)
    | succ f => rfl
  | cons w ws ih =>
    cases fuel with
    | zero => exact absurd h (by omega)
    | succ f =>
      have hw : (toLE 4 w).length = 4 := toLE_length 4 w
      rw [List.map_cons, List.flatten_cons, chunksOf, List.take_left' hw, List.drop_left' hw,
        ih f (by simpa using h), if_neg (by simp [toLE])]

/-- Words of 32 bits written lowest byte first are read back. -/
theorem words32_toLE {ws : List Nat} (h : ∀ v ∈ ws, v < 2 ^ 32) : words32 ((ws.map (toLE 4)).flatten) = ws := by
  have hlen : ((ws.map (toLE 4)).flatten).length = 4 * ws.length := wordBytes_length ws
  unfold words32
  rw [hlen, chunksOf_words ws _ (by omega), List.map_map]
  refine (List.map_congr_left fun v hv => ?_).trans (List.map_id ws)
  exact (ofLE_toLE 4 v).trans (Nat.mod_eq_of_lt (h v hv))

/-! ### DRAFT -/

/-- What DRAFT stores: its position words, then words of all ones. -/
def draftWords (m : Nat) (ws : List Nat) : List Nat := ws ++ List.replicate (m - ws.length) 0xFFFFFFFF

theorem draftWords_length {m : Nat} {ws : List Nat} (h : ws.length ≤ m) : (draftWords m ws).length = m := by
  rw [draftWords, List.length_append, List.length_replicate]
  omega

theorem draftWords_lt {m : Nat} {ws : List Nat} (h : ∀ v ∈ ws, v < 2 ^ 32) : ∀ v ∈ draftWords m ws, v < 2 ^ 32 := by
  intro v hv
  rcases List.mem_append.1 hv with hv | hv
  · exact h v hv
  · rw [List.eq_of_mem_replicate hv]
    decide

/-- The state in which DRAFT has stored its words and counted its tokens. -/
def draftStored (no c n x m taken looked : Nat) (words : List Nat) (s : State) : State :=
  let v := bump R.NOT_DRAFT_ACC taken (bump R.NOT_DRAFT_TOK looked
    (storeScratch no c x ((words.map (toLE 4)).flatten) s))
  onStream n (fun y => { y with notary := { y.notary with draftAt := v.beat.pos, draftCnt := draftUsed s n + m } }) v

theorem bit_zero_clear {v : Nat} (h : v % 2 = 0) : bit v 0 = false := by
  unfold bit
  rw [Nat.testBit_zero, h]
  rfl

/-- DRAFT of a stream that NOTARY does not hold, with 1 to 16 tokens for which its position has room, and no advances to
make: the purchase of its lookups. -/
theorem exec_draft {s : State} {w : Who} {f : Fields} {m : Nat}
    (hm : ((issuedThread s w).reg f.b).toNat = m) (hi : Issues s w f 0x62 (24 * m))
    (hr : GrammarReady s (issuedThread s w).stream) (h1 : 1 ≤ m) (h16 : m ≤ 16) (himm : f.imm.toNat % 2 = 0)
    (hx : ((issuedThread s w).reg f.a).toNat + 64 + 4 * m ≤ 0x40000)
    (hused : draftUsed s (issuedThread s w).stream + m ≤ 16) :
    let n := (issuedThread s w).stream
    let ts := draftTokens s w.clerk.toNat ((issuedThread s w).reg f.a).toNat m
    let ks := ts.take (scanDraft s n ts).1.length
    advanceStalls s n ks = false →
    exec (.draft w f) s = .next (buy 0 (extraBill s n ks) (.draft w f) (waitRetry w (.draft w f)) (draftBody w f)
      (bought w (24 * m) s)) := by
  intro n ts ks hstalls
  have hpaid := bought_paidFor w (24 * m) s
  have hbill : (opDraft w f s).bill = [(24 * m, 1)] := by
    have hreg : ((thread s w).reg f.b).toNat = m := hm
    simp only [opDraft, pricedOp, hreg, Nat.min_eq_right h16]
  have hadv := bit_zero_clear himm
  have hexec : exec (.draft w f) s = .next (actDraft w f (bought w (24 * m) s)) :=
    exec_pays (op := opDraft w f s) hi hbill (by omega) rfl (by omega)
  rw [hexec]
  simp only [actDraft, thread_bought, hm, awaitsStream_known hr.known, hr.refusal, hadv, hpaid.draftUsed,
    hpaid.draftTokens, hpaid.scanDraft, hr.notBusy hi, hpaid.advanceStalls, hpaid.extraBill]
  rw [if_neg Bool.false_ne_true, if_neg (by omega), if_neg (fun h => Bool.false_ne_true h.1),
    if_neg (show ¬ 0x40000 < _ by omega), if_neg (by omega), if_neg]
  simpa using hstalls

/-- The end of DRAFT without advances. -/
theorem draftBody_eq {s t : State} {w : Who} {f : Fields} {m : Nat} (hp : PaidFor s t)
    (hth : thread t w = issuedThread s w) (hm : ((issuedThread s w).reg f.b).toNat = m) (himm : f.imm.toNat % 2 = 0) :
    let n := (issuedThread s w).stream
    let x := ((issuedThread s w).reg f.a).toNat
    let ts := draftTokens s w.clerk.toNat x m
    let r := scanDraft s n ts
    draftBody w f t = putG w f.d (resultWord 0 0 r.1.length)
      (lookupError n (issuedThread s w).ledger (ts.take r.1.length)
        (draftStored (issuedThread s w).no w.clerk.toNat n (x + 64) m r.1.length r.2 (draftWords m r.1) t)) := by
  have hadv := bit_zero_clear himm
  intro n x ts r
  unfold draftBody
  simp only [hth, hm, hp.draftTokens, hp.scanDraft, hadv, Bool.false_eq_true, false_and, if_false]
  rfl

/-- Storing and counting leave everything else that stations work on, the grammars and the free values. -/
theorem draftStored_spec (no c n x m taken looked : Nat) (words : List Nat) (s : State) :
    let u := draftStored no c n x m taken looked words s
    (∀ j, j ≠ n → stream u j = stream s j) ∧ (stream u n).notary.cfg = (stream s n).notary.cfg
      ∧ (∀ ks, advanceReads u n ks = advanceReads s n ks) ∧ u.free = s.free
      ∧ clerkView u = clerkView (storeScratch no c x ((words.map (toLE 4)).flatten) s) := by
  let v := bump R.NOT_DRAFT_ACC taken (bump R.NOT_DRAFT_TOK looked
    (storeScratch no c x ((words.map (toLE 4)).flatten) s))
  have hstations : stationView v = stationView s := by
    unfold v
    rw [bump_stations, bump_stations]
    rfl
  have hclerk : clerkView v = clerkView (storeScratch no c x ((words.map (toLE 4)).flatten) s) := by
    unfold v
    rw [bump_clerkView, bump_clerkView]
  have hfree (off k : Nat) (t : State) : (bump off k t).free = t.free := by
    unfold bump
    split <;> rfl
  have hsame (j : Nat) : stream v j = stream s j := stream_of_stations hstations j
  intro u
  have hx : stream u n = { stream s n with notary :=
      { (stream s n).notary with draftAt := v.beat.pos, draftCnt := draftUsed s n + m } } := by
    rw [← hsame]
    exact stream_onStream_same n _ v
  have hgrammars : u.grammars = s.grammars := (grammars_of_clerkView hclerk).trans rfl
  refine ⟨fun j hj => ?_, by rw [hx], fun ks => ?_, ?_, hclerk⟩
  · exact (stream_onStream_other _ v hj).trans (hsame j)
  · exact advanceReads_congr hgrammars (congrArg StationView.build hstations) (congrArg StationView.tenants hstations)
      (by rw [hx]) (by rw [hx]) (by rw [hx]) ks
  · exact ((hfree ..).trans (hfree ..)).trans rfl

/-! ### The obligation -/

/-- The threads after the result word of an instruction whose work leaves them as its purchase did. -/
theorem putG_threads {s v : State} {w : Who} {f : Fields} {op c : Nat} (hi : Issues s w f op c)
    (hv : v.threads = (bought w c s).threads) (x : Word) :
    thread (putG w f.d x v) w = { (issuedThread s w).setG f.d x with pc := (issuedThread s w).pc + 1 }
      ∧ ∀ z, Who.key z ≠ Who.key w → thread (putG w f.d x v) z = thread s z := by
  refine ⟨thread_putG_of_issues hi ((thread_of_threads hv w).trans (thread_bought s w c)) f.d x, fun z hz => ?_⟩
  rw [putG, thread_onThread_other _ _ hz, thread_of_threads hv, thread_bought_other s c hz]

/-- NEXT over a token in force, with its coins and those of its advance. -/
theorem next_inForce {s : State} {w : Who} {f : Fields} {im : TokImage} (hi : Issues s w f 0x61 24) :
    let t := issuedThread s w
    let n := t.stream
    let y := (stream s n).notary
    let k := (t.reg f.a).toNat % 2 ^ 20
    let a := advance s im y.allow y.cfg k
    let clean : Prop := (advanceReads s n [k]).banks = [] ∨ Config.freeValue s.free % 4 ∉ [1, 2]
    GrammarReady s n → imageOf s (stream s n).tenant = some im → t.ledger ≠ 0 → advanceWaits s n t.ledger = false →
    advanceStalls s n [k] = false → inForce s n k = true →
    priceNow s 24 + billCost s (extraBill s n [k]) ≤ s.purse.balance →
    Answers (exec (.next w f) s) (fun u =>
      (∃ v, thread u w = { t.setG f.d (resultWord a.status 0 v) with pc := t.pc + 1 }
        ∧ (clean → v = a.cfg.fields.maskIndex % 2 ^ 20))
      ∧ (∀ v, Who.key v ≠ Who.key w → thread u v = thread s v) ∧ ScratchKept s u
      ∧ (clean → (stream u n).notary.cfg = a.cfg ∧ ∀ j, j ≠ n → stream u j = stream s j)) := by
  intro t n y k a clean hr him hledger hwaits hstalls hforce hcoins
  obtain ⟨b, hbuy, hb⟩ := buy_covered (coinsThere_bought hi hcoins) 0 (.next w f) (waitRetry w (.next w f)) (nextBody w f)
  have hpaid := (bought_paidFor w 24 s).purchased hb
  have hthread : thread b w = t := (thread_of_threads (threads_of_clerkView hb.clerkView) w).trans (thread_bought s w 24)
  have hbody := nextBody_eq (s := b) (w := w) (f := f) (im := im)
  simp only [hthread, hpaid.stream, hpaid.imageOf, hpaid.inForce, advance_congr hpaid.grammars] at hbody
  have hx := exec_next hi hr hledger hwaits hstalls
  dsimp only at hx
  rw [hforce, Bool.not_true, if_neg Bool.false_ne_true, hbuy, hbody him hforce] at hx
  obtain ⟨v, hv⟩ : ∃ v, nextAdvanced n t.ledger k b = v := ⟨_, rfl⟩
  rw [hv] at hx
  have hclerk : clerkView v = clerkView (bought w 24 s) := by
    rw [← hv, nextAdvanced_clerkView, hb.clerkView]
  have hclean (h : clean) : AdvanceMade n a.cfg b v := by
    have hmade := nextAdvanced_clean (s := b) (n := n) (k := k) (im := im) (by rwa [hpaid.stream, hpaid.imageOf])
      (by rwa [hpaid.advanceReads, hpaid.free]) t.ledger
    rwa [hpaid.stream, advance_congr hpaid.grammars, hv] at hmade
  obtain ⟨hmine, hothers⟩ := putG_threads hi (threads_of_clerkView hclerk)
    (resultWord a.status 0 ((stream v n).notary.cfg.fields.maskIndex % 2 ^ 20))
  refine ⟨_, hx, ⟨_, hmine, fun h => ?_⟩, hothers, scratchKept_of ?_ ?_, fun h => ⟨(hclean h).cfg, fun j hj => ?_⟩⟩
  · rw [(hclean h).cfg]
  · exact (scratch_of_clerkView hclerk).trans (by rw [spend_scratch, noteIssue_scratch])
  · exact (stores_of_clerkView hclerk).trans (by rw [spend_stores, noteIssue_stores])
  · exact ((hclean h).others j hj).trans (hpaid.stream j)

/-- DRAFT without advances, with its coins and those of the lookups of the tokens that it takes. -/
theorem draft_scans {s : State} {w : Who} {f : Fields} (hstores : storesIssued s = true) :
    let t := issuedThread s w
    let c := w.clerk.toNat
    let n := t.stream
    let x := (t.reg f.a).toNat
    let m := (t.reg f.b).toNat
    let ts := draftTokens s c x m
    let ws := (scanDraft s n ts).1
    let ks := ts.take ws.length
    Issues s w f 0x62 (24 * m) → GrammarReady s n → 1 ≤ m → m ≤ 16 → f.imm.toNat % 2 = 0 → x + 64 + 4 * m ≤ 0x40000 →
    draftUsed s n + m ≤ 16 → advanceStalls s n ks = false →
    priceNow s (24 * m) + billCost s (extraBill s n ks) ≤ s.purse.balance →
    Answers (exec (.draft w f) s) (fun u =>
      thread u w = { t.setG f.d (resultWord 0 0 ws.length) with pc := t.pc + 1 }
      ∧ ws.length ≤ m
      ∧ words32 (scratchRead u c (x + 64) (4 * m)) = ws ++ List.replicate (m - ws.length) 0xFFFFFFFF
      ∧ (∀ v, Who.key v ≠ Who.key w → thread u v = thread s v)
      ∧ ((advanceReads s n ks).banks = [] ∨ Config.freeValue s.free % 4 ∉ [1, 2] →
          (stream u n).notary.cfg = (stream s n).notary.cfg ∧ ∀ j, j ≠ n → stream u j = stream s j)
      ∧ ∀ d z, z < 0x40000 → (d ≠ c ∨ z < x + 64 ∨ x + 64 + 4 * m ≤ z) → scratchByte u d z = scratchByte s d z) := by
  intro t c n x m ts ws ks hi hr h1 h16 himm hx hused hstalls hcoins
  obtain ⟨b, hbuy, hb⟩ := buy_covered (coinsThere_bought hi hcoins) 0 (.draft w f) (waitRetry w (.draft w f))
    (draftBody w f)
  have hpaid := (bought_paidFor w (24 * m) s).purchased hb
  have hthread : thread b w = t :=
    (thread_of_threads (threads_of_clerkView hb.clerkView) w).trans (thread_bought s w (24 * m))
  have hexec := exec_draft rfl hi hr h1 h16 himm hx hused hstalls
  rw [hbuy, draftBody_eq hpaid hthread rfl himm] at hexec
  obtain ⟨htaken, hword⟩ := scanDraft_spec s n ts
  have hlen : ws.length ≤ m := htaken.trans (draftTokens_length ..)
  let words := draftWords m ws
  have hbytes : ((words.map (toLE 4)).flatten).length = 4 * m := by
    rw [← draftWords_length hlen]
    exact wordBytes_length words
  let q := draftStored t.no c n (x + 64) m ws.length (scanDraft s n ts).2 words b
  obtain ⟨v, hlookups⟩ : ∃ v, lookupError n t.ledger ks q = v := ⟨_, rfl⟩
  obtain ⟨hothers, hcfg, hreads, hfree, hclerk⟩ :=
    draftStored_spec t.no c n (x + 64) m ws.length (scanDraft s n ts).2 words b
  have hv : clerkView v = clerkView (storeScratch t.no c (x + 64) ((words.map (toLE 4)).flatten) b) := by
    rw [← hlookups, lookupError_clerkView]
    exact hclerk
  have hthreads : v.threads = b.threads := (threads_of_clerkView hv).trans rfl
  obtain ⟨hmine, hrest⟩ := putG_threads hi (hthreads.trans (threads_of_clerkView hb.clerkView)) (resultWord 0 0 ws.length)
  obtain ⟨hread, hkept⟩ := scratch_stored (s := s) (b := b) (c := c) (x := x + 64) (no := t.no)
    (bs := (words.map (toLE 4)).flatten) (by rwa [hbytes])
    (by rw [stores_of_clerkView hb.clerkView]; exact stores_bought_le hstores w (24 * m)) hpaid.scratch
  rw [hbytes] at hread hkept
  refine ⟨putG w f.d (resultWord 0 0 ws.length) v, by rw [hexec, ← hlookups], hmine, hlen, ?_, hrest,
    fun h => ?_, fun d z hz hd => ?_⟩
  · rw [scratchRead_putG, scratchRead_congr (scratch_of_clerkView hv), hread]
    exact words32_toLE (draftWords_lt hword)
  · obtain ⟨k, hk⟩ := lookupError_clean (s := q) (n := n) (ks := ks) t.ledger
      (by rwa [hreads, hpaid.advanceReads, hfree, hpaid.free])
    have hstream (j : Nat) : stream v j = stream q j := by
      rw [← hlookups, hk]
      rfl
    exact ⟨(congrArg (·.notary.cfg) (hstream n)).trans (hcfg.trans (by rw [hpaid.stream])),
      fun j hj => (hstream j).trans ((hothers j hj).trans (hpaid.stream j))⟩
  · rw [scratchByte_putG, ← hkept d z hz hd, scratchByte, scratch_of_clerkView hv, scratchByte]

/-- Settles O39: MASK changes its thread alone; NEXT and DRAFT by what they do once their lookups are paid for. -/
theorem grammarInstructions : Obligations.GrammarInstructions := by
  intro s w f im t c n y k a x m ts ws clean coins hknown hbuilt hgen hlive him hidle
  have hr : GrammarReady s n := ⟨hknown, hbuilt, hgen, hlive, hidle⟩
  refine ⟨fun hi hwaits => ?_, fun hi hledger hwaits hstalls hforce hcoins => ?_,
    fun hi hledger hwaits hstalls hforce => ?_, fun hi h1 h16 himm hx hused hstalls hcoins hstores => ?_⟩
  · exact writes_putG hi _ (exec_mask hi hr hwaits)
  · exact next_inForce hi hr him hledger hwaits hstalls hforce hcoins
  · have hx := exec_next hi hr hledger hwaits hstalls
    dsimp only at hx
    rw [hforce] at hx
    exact writes_putG hi _ hx
  · exact draft_scans hstores hi hr h1 h16 himm hx hused hstalls hcoins

end Sys2Proof.Machine
end

section
/-!
PROOFS. NOTARY: the tiles that leave it and those that it refuses, the advance over the oldest commit, and candidates
resolved ahead.
-/

namespace Sys2Proof.Machine

/-! ### Tiles that leave a hop, and tiles that are refused -/

/-- A tile taken from a queue, and one of the same route sent on in its place. -/
theorem queues_of_sendsOn {s v u : State} {hop : Nat} {t z : Tile} (hv : v.hops = (unqueue hop t s).hops)
    (hu : SendsOn z v u) (hz : z.route = t.route) (hne : t.advance.nextHop ≠ hop) :
    queueAt u hop = removeTile t (queueAt s hop)
      ∧ ∃ y, Advanced z y ∧ queueAt u t.advance.nextHop = queueAt s t.advance.nextHop ++ [y] := by
  obtain ⟨⟨y, hy, hqueue⟩, hothers, _⟩ := hu
  rw [nextHop_congr (route_advance_congr hz)] at hqueue hothers
  have hv' (k : Nat) : queueAt v k = queueAt (unqueue hop t s) k := by
    unfold queueAt
    rw [hv]
  refine ⟨?_, y, hy, hqueue.trans (congrArg (· ++ [y]) ?_)⟩
  · rw [hothers hop (Ne.symm hne), hv', queueAt_unqueue_same]
  · rw [hv', queueAt_unqueue_other _ _ hne]

/-- A tile that a hop refuses has left its queue, and its OPEN stream is HELD (R32). -/
theorem refuseTile_spec (h : Nat) (t : Tile) (st : Nat) (s : State) :
    let u := refuseTile h t st (unqueue h t s)
    queueAt u h = removeTile t (queueAt s h)
      ∧ ((stream s t.stream).st = .opened → (stream u t.stream).st = .held) := by
  have hreport : stationView (report t st 0 (unqueue h t s)) = stationView (unqueue h t s) := report_stations ..
  refine ⟨?_, fun hopen => ?_⟩
  · exact (queueAt_of_stations hreport h).trans (queueAt_unqueue_same h t s)
  · have hst : (stream (report t st 0 (unqueue h t s)) t.stream).st = .opened :=
      (congrArg Stream.st (stream_of_stations hreport t.stream)).trans hopen
    unfold refuseTile holdStream
    rw [stream_onStream_same, if_pos hst]

/-! ### Decision tiles (R248) -/

theorem exec_decision_over {s : State} {n : BitVec 12} {t : Tile} (ht : takeable s 5 n.toNat = some t)
    (hkind : t.kind = .decision) (hgen : (stream s n.toNat).notary.gen = true)
    (hover : (stream s n.toNat).notary.cfg.over = true) :
    exec (.notaryDecisionTile n .none) s = .next (sweep (refuseTile 5 t St.DEAD (unqueue 5 t s))) := by
  show execNotaryDecisionTile n .none s = _
  simp [execNotaryDecisionTile, ht, hkind, hgen, hover]

theorem exec_decision_passes {s : State} {n : BitVec 12} {t : Tile} (ht : takeable s 5 n.toNat = some t)
    (hkind : t.kind = .decision)
    (hover : (stream s n.toNat).notary.gen = true → (stream s n.toNat).notary.cfg.over = false)
    (hbusy : notaryBusy s n.toNat = false) (hwaits : commitWaits s n.toNat t = false) :
    exec (.notaryDecisionTile n .none) s = .next (sweep (passDecision n.toNat t (unqueue 5 t s))) := by
  have hgoes : ((stream s n.toNat).notary.gen && (stream s n.toNat).notary.cfg.over) = false := by
    cases hgen : (stream s n.toNat).notary.gen
    · rfl
    · rw [hover hgen]
      rfl
  show execNotaryDecisionTile n .none s = _
  simp [execNotaryDecisionTile, ht, hkind, hgoes, hbusy, hwaits]

/-- A decision tile leaves with the mask fields of its stream, and NOTARY awaits its commit when it passes CLEARING. -/
theorem passDecision_spec {s : State} {n : Nat} {t : Tile} (hne : t.advance.nextHop ≠ 5) :
    let u := passDecision n t (unqueue 5 t s)
    queueAt u 5 = removeTile t (queueAt s 5)
      ∧ (∃ z, queueAt u t.advance.nextHop = queueAt s t.advance.nextHop ++ [z] ∧ z.kind = t.kind ∧ z.ledger = t.ledger
        ∧ z.payload = t.payload.take 48 ++ maskWords (fieldsOf (stream s n).notary) ∧ z.check = crc32c z.payload)
      ∧ (visits t 6 = true → (stream u n).notary.pending = some t.ledger) := by
  let d := t.payload.take 48 ++ maskWords (fieldsOf (stream s n).notary)
  let q := if visits t 6 = true then
      onStream n (fun x => { x with notary := { x.notary with
        pending := some t.ledger, offered := [], cands := [] } }) (unqueue 5 t s)
    else unqueue 5 t s
  have hhops : q.hops = (unqueue 5 t s).hops := by
    unfold q
    split <;> rfl
  have hnote := noteEmission_stations 2 t.ledger ((d.drop 48).take 4) q
  have hsent := emitTile_sendsOn Hop.NOTARY { t with payload := d, check := crc32c d }
    (noteEmission 2 t.ledger ((d.drop 48).take 4) q)
  obtain ⟨hleft, z, hz, hqueue⟩ :=
    queues_of_sendsOn (t := t) ((congrArg StationView.hops hnote).trans hhops) hsent rfl hne
  obtain ⟨_, _, hstreams⟩ := hsent
  refine ⟨hleft, ⟨z, hqueue, hz.kind, hz.ledger, hz.payload, ?_⟩, fun hvisits => ?_⟩
  · rw [hz.check, hz.payload]
  · have hq : stream q n = { stream s n with notary := { (stream s n).notary with
        pending := some t.ledger, offered := [], cands := [] } } := by
      unfold q
      rw [if_pos hvisits]
      exact stream_onStream_same ..
    refine (congrArg (·.notary.pending) (hstreams n)).trans ?_
    rw [stream_of_stations hnote, hq]

/-! ### Token tiles (R260, R261) -/

theorem tokenTileRefusal_congr {s u : State} (hstreams : u.streams = s.streams) (htenants : u.tenants = s.tenants)
    (hgrammars : u.grammars = s.grammars) (n : Nat) (t : Tile) : tokenTileRefusal u n t = tokenTileRefusal s n t := by
  unfold tokenTileRefusal imageOf tenant
  simp only [stream_of_streams hstreams, htenants, tokensLegal_congr hgrammars]

/-- A purchase, and the tile's leaving its queue, change nothing of what NOTARY checks. -/
theorem tokenTileRefusal_of_purchased {s b : State} (hb : Purchased s b) (n : Nat) (t : Tile) :
    tokenTileRefusal (unqueue 5 t b) n t = tokenTileRefusal s n t :=
  tokenTileRefusal_congr (u := unqueue 5 t b) (congrArg StationView.streams hb.stations)
    (congrArg StationView.tenants hb.stations) (grammars_of_clerkView hb.clerkView) n t

/-- NOTARY's work on a token tile that need not wait, with its coins, on the state after their purchase. -/
theorem exec_tokenTile {s : State} {n : BitVec 12} {t : Tile} (ht : takeable s 5 n.toNat = some t)
    (hkind : t.kind = .token) (hwaits : tokenTileWaits s n.toNat t = false)
    (hcoins : CoinsThere s (tokenTileBill s n.toNat t)) :
    ∃ b, Purchased s b ∧ exec (.notaryTokenTile n .none) s = .next (sweep (tokenTileBody n.toNat .none b)) := by
  obtain ⟨b, hbuy, hb⟩ := buy_covered hcoins 0 (.notaryTokenTile n .none) id (tokenTileBody n.toNat .none)
  refine ⟨b, hb, ?_⟩
  show execNotaryTokenTile n .none s = _
  simp [execNotaryTokenTile, ht, hkind, hwaits, hbuy]

/-- A token tile that NOTARY refuses. -/
theorem tokenTileBody_refused {s b : State} {n st : Nat} {t : Tile} (hb : Purchased s b)
    (ht : takeable s 5 n = some t) (hkind : t.kind = .token) (hrefused : tokenTileRefusal s n t = some st) :
    tokenTileBody n .none b = refuseTile 5 t st (unqueue 5 t b) := by
  have hrefusal : tokenTileRefusal (unqueue 5 t b) n t = some st := (tokenTileRefusal_of_purchased hb n t).trans hrefused
  unfold tokenTileBody
  rw [takeable_of_purchased hb, ht]
  dsimp only
  rw [if_neg (not_not.2 hkind), if_neg (by decide), hrefusal]

/-- A token tile that NOTARY accepts leaves as a decision tile whose first 48 bytes are 0. -/
theorem tokenTileBody_accepted {s b : State} {n : Nat} {t : Tile} (hb : Purchased s b) (ht : takeable s 5 n = some t)
    (hkind : t.kind = .token) (hok : tokenTileRefusal s n t = none) (hne : t.advance.nextHop ≠ 5) :
    let u := tokenTileBody n .none b
    queueAt u 5 = removeTile t (queueAt s 5) ∧ ∃ z, queueAt u t.advance.nextHop = queueAt s t.advance.nextHop ++ [z]
      ∧ z.kind = .decision ∧ z.ledger = t.ledger ∧ z.payload.take 48 = List.replicate 48 0
      ∧ z.check = crc32c z.payload := by
  have hrefusal : tokenTileRefusal (unqueue 5 t b) n t = none := (tokenTileRefusal_of_purchased hb n t).trans hok
  let q := unqueue 5 t b
  let r := if (stream q n).notary.gen = true then
      reportTicket t.origin t.ticket (commitStatus q n (tileTokens t)) 0 (makeAdvances n t.ledger (tileTokens t) q)
    else q
  let d := forcedDecision n t r
  have hbody : tokenTileBody n .none b
      = emitTile 5 d (noteEmission 2 d.ledger ((d.payload.drop 48).take 4) r) := by
    unfold tokenTileBody
    rw [takeable_of_purchased hb, ht]
    dsimp only
    rw [if_neg (not_not.2 hkind), if_neg (by decide), hrefusal]
    rfl
  have hhops : r.hops = q.hops := by
    unfold r
    split
    · exact (congrArg StationView.hops (reportTicket_stations ..)).trans (makeAdvances_hops ..)
    · rfl
  have hnote := noteEmission_stations 2 d.ledger ((d.payload.drop 48).take 4) r
  have hsent := emitTile_sendsOn 5 d (noteEmission 2 d.ledger ((d.payload.drop 48).take 4) r)
  obtain ⟨hleft, z, hz, hqueue⟩ :=
    queues_of_sendsOn (t := t) ((congrArg StationView.hops hnote).trans hhops) hsent rfl hne
  rw [queueAt_of_stations hb.stations] at hleft hqueue
  intro u
  refine ⟨(congrArg (queueAt · 5) hbody).trans hleft, z, (congrArg (queueAt · _) hbody).trans hqueue, hz.kind, hz.ledger,
    ?_, ?_⟩
  · rw [hz.payload]
    exact List.take_left' List.length_replicate
  · rw [hz.check, hz.payload]
    rfl

/-! ### The oldest commit (R250) -/

/-- The advance over the oldest commit of a stream, once it is paid for. -/
theorem advanceBody_spec {n : Nat} {b : State} {c : Commit} {rest : List Commit} {im : TokImage}
    (hcommits : (stream b n).notary.commits = c :: rest) (him : imageOf b (stream b n).tenant = some im) :
    let u := advanceBody n .none b
    (stream u n).notary.commits = rest
      ∧ (stream u n).notary.cfg = (advance b im (stream b n).notary.allow (stream b n).notary.cfg c.token).cfg
      ∧ (∀ m, m ≠ n → stream u m = stream b m) ∧ u.threads = b.threads := by
  let q := onStream n (fun x => { x with notary := { x.notary with commits := rest } }) b
  have hq : stream q n = { stream b n with notary := { (stream b n).notary with commits := rest } } :=
    stream_onStream_same ..
  let r (ends hit : Bool) : State := if ends then q
    else if hit then bump R.NOT_RA_HIT 1 q
    else bump R.NOT_RA_MISS 1 (reportItem c.ledger St.OK 16 (reportTicket c.origin c.ticket St.OK 16 q))
  have hstations (ends hit : Bool) : stationView (r ends hit) = stationView q := by
    unfold r
    split
    · rfl
    · split
      · exact bump_stations ..
      · exact (bump_stations ..).trans ((onItem_stations ..).trans (reportTicket_stations ..))
  have hclerk (ends hit : Bool) : clerkView (r ends hit) = clerkView q := by
    unfold r
    split
    · rfl
    · split
      · exact bump_clerkView ..
      · rw [bump_clerkView, reportItem_clerkView, reportTicket_clerkView]
  have hmade (ends hit : Bool) :
      AdvanceMade n (advance b im (stream b n).notary.allow (stream b n).notary.cfg c.token).cfg q
        (makeAdvance n c.ledger c.token (r ends hit)) := by
    have hx : stream (r ends hit) n = stream q n := stream_of_stations (hstations ends hit) n
    have himage : imageOf (r ends hit) (stream (r ends hit) n).tenant = some im := by
      rw [imageOf_of_stations (hstations ends hit), hx, hq]
      exact him
    have h := makeAdvance_spec himage c.ledger c.token
    rw [hx, hq, advance_congr (s := b) (grammars_of_clerkView ((hclerk ends hit).trans rfl))] at h
    have hbase := (OnlyNotary.refl n q).of_stations (hstations ends hit)
    exact ⟨⟨h.hops.trans hbase.hops, fun m hm => (h.others m hm).trans (hbase.others m hm),
      h.commits.trans hbase.commits⟩, h.cfg⟩
  intro u
  obtain ⟨ends, hit, st, hu⟩ : ∃ ends hit st, u = onStream n
      (fun x => if x.notary.cfg.over then { x with notary := { x.notary with ended := some c.ledger } } else x)
      (reportTicket c.origin c.ticket st 0 (makeAdvance n c.ledger c.token (r ends hit))) := by
    unfold u advanceBody
    rw [hcommits]
    exact ⟨_, _, _, rfl⟩
  have hend : AdvanceMade n (advance b im (stream b n).notary.allow (stream b n).notary.cfg c.token).cfg q u := by
    rw [hu]
    refine .onStream (.of_stations (hmade ends hit) (reportTicket_stations ..)) (fun x => ?_) (fun x => ?_) <;>
      split <;> rfl
  have hview : clerkView u = clerkView b := by
    rw [hu, onStream_clerkView, reportTicket_clerkView, makeAdvance_clerkView, hclerk]
    rfl
  refine ⟨?_, hend.cfg, fun m hm => ?_, threads_of_clerkView hview⟩
  · rw [hend.commits, hq]
  · exact (hend.others m hm).trans (stream_onStream_other _ _ hm)

/-- NOTARY_ADVANCE over the oldest commit, when nothing holds it back and its coins are there. -/
theorem exec_notaryAdvance {s : State} {n : BitVec 12} {c : Commit} {rest : List Commit}
    (hcommits : (stream s n.toNat).notary.commits = c :: rest) (hup : stationUp s 5 = true)
    (hwaits : advanceWaits s n.toNat c.ledger = false) (hresolving : resolving s n.toNat = false)
    (hstalls : advanceStalls s n.toNat [c.token] = false) (hcoins : CoinsThere s (commitBill s n.toNat c)) :
    ∃ b, Purchased s b ∧ exec (.notaryAdvance ⟨n, .none⟩) s = .next (sweep (advanceBody n.toNat .none b)) := by
  obtain ⟨b, hbuy, hb⟩ := buy_covered hcoins 0 (.notaryAdvance ⟨n, .none⟩) id (advanceBody n.toNat .none)
  refine ⟨b, hb, ?_⟩
  show execNotaryAdvance ⟨n, .none⟩ s = _
  simp [execNotaryAdvance, hcommits, hup, hwaits, hresolving, hstalls, hbuy]

/-! ### Candidates resolved ahead (R262) -/

theorem resolved_cands {s : State} {n t : Nat} (h : canResolve s n t = true) :
    (stream (resolved n t s) n).notary.cands = (stream s n).notary.cands ++ [t] := by
  unfold resolved
  rw [if_pos h, stream_onStream_same]

/-- A candidate that is paid for becomes known, or its record begins to be read, or it is counted as skipped. -/
theorem aheadBody_spec {s : State} {n t : Nat} (h : canResolve s n t = true) :
    let u := aheadBody n t s
    (stream u n).notary.cands = (stream s n).notary.cands ++ [t]
      ∨ (∃ a ∈ u.accesses, a.ident = s.nextAccess ∧ a.job = .ahead n t)
      ∨ reg u R.PUR_RA_SKIP = satAdd 32 (reg s R.PUR_RA_SKIP) 1 := by
  have hskip : reg (bump R.PUR_RA_SKIP 1 (bump R.NOT_TC_MISS 1 (takeFree s).2)) R.PUR_RA_SKIP
      = satAdd 32 (reg s R.PUR_RA_SKIP) 1 := by
    rw [reg_bump_one, reg_bump_other _ _ (by decide)]
    rfl
  have hnext : (bump R.NOT_TC_MISS 1 (takeFree s).2).nextAccess = s.nextAccess := by
    unfold bump
    split <;> rfl
  unfold aheadBody
  dsimp only
  split
  · exact Or.inl (resolved_cands h)
  next g _ =>
    split
    · exact Or.inl (resolved_cands (s := (takeFree s).2) h)
    · split
      · exact Or.inr (Or.inr hskip)
      · split
        next s' hpay =>
          obtain ⟨_, _, hident⟩ := payBill_frame (lineBill
            (transLines (takeFree s).2 (stream s n).notary.cfg.grammar g (stream s n).notary.cfg t).length)
            (bump R.NOT_TC_MISS 1 (takeFree s).2)
          rw [hpay, hnext] at hident
          obtain ⟨a, ha, hnumber, _, hjob⟩ := startAccess_mem 2 [] .read 4
            (transLines (takeFree s).2 (stream s n).notary.cfg.grammar g (stream s n).notary.cfg t) (.ahead n t) s'
          exact Or.inr (Or.inl ⟨a, ha, hnumber.trans hident, hjob⟩)
        · exact Or.inr (Or.inr hskip)

theorem canResolve_of_purchased {s b : State} (h : Purchased s b) (n t : Nat) : canResolve b n t = canResolve s n t := by
  have hctrl : reg b R.NOT_CTRL = reg s R.NOT_CTRL := h.2 _ (by decide)
  unfold canResolve
  rw [hctrl, stream_of_stations h.stations]

/-- RUNAHEAD_RESOLVE of a candidate that can be resolved, with its 3 cents there. -/
theorem exec_runaheadResolve {s : State} {n : BitVec 12} {t : BitVec 20} (h : canResolve s n.toNat t.toNat = true)
    (hreading : readingAhead s n.toNat t.toNat = false) (hcoins : CoinsThere s [(3, 1)]) :
    ∃ b, Purchased s b ∧ exec (.runaheadResolve n t) s = .next (aheadBody n.toNat t.toNat b) := by
  obtain ⟨b, hbuy, hb⟩ := buy_covered hcoins 2 (.runaheadResolve n t) id (aheadBody n.toNat t.toNat)
  refine ⟨b, hb, ?_⟩
  show execRunaheadResolve n t s = _
  simp [execRunaheadResolve, h, hreading, hbuy]

/-! ### The obligation -/

/-- Settles O47: the two kinds of tiles by whether NOTARY refuses them, the oldest commit, and a candidate. -/
theorem notaryFillsAndAdvances : Obligations.NotaryFillsAndAdvances := by
  intro s n k y
  refine ⟨?_, fun c rest im hcommits hup hwaits hresolving hstalls him hcoins => ?_, fun t hcan hreading hcoins => ?_⟩
  · intro t ht hk h
    refine ⟨fun hkind hover hbusy hwaits hne => ?_, fun hkind hgen hover => ?_, fun hkind hwaits hcoins => ?_⟩
    · obtain ⟨hleft, ⟨z, hqueue, hzkind, hledger, hpayload, hcheck⟩, hpending⟩ := passDecision_spec (s := s) (n := k) hne
      exact ⟨_, exec_decision_passes ht hkind hover hbusy hwaits, hleft, z, hqueue, hzkind.trans hkind, hledger, hpayload,
        hcheck, hpending⟩
    · have hrefused := refuseTile_spec 5 t St.DEAD s
      rw [hk] at hrefused
      exact ⟨_, exec_decision_over ht hkind hgen hover, hrefused⟩
    · obtain ⟨b, hb, hexec⟩ := exec_tokenTile ht hkind hwaits hcoins
      refine ⟨fun st hst => ?_, fun hok hne => ⟨_, hexec, tokenTileBody_accepted hb ht hkind hok hne⟩⟩
      have hrefused := refuseTile_spec 5 t st b
      rw [hk, queueAt_of_stations hb.stations, stream_of_stations hb.stations] at hrefused
      rw [tokenTileBody_refused hb ht hkind hst] at hexec
      exact ⟨_, hexec, hrefused⟩
  · obtain ⟨b, hb, hexec⟩ := exec_notaryAdvance hcommits hup hwaits hresolving hstalls hcoins
    have hx := stream_of_stations hb.stations
    obtain ⟨hrest, hcfg, hothers, hthreads⟩ := advanceBody_spec (n := k) (b := b) (c := c) (rest := rest) (im := im)
      (by rw [hx]; exact hcommits) (by rw [imageOf_of_stations hb.stations, hx]; exact him)
    rw [hx, advance_congr (grammars_of_clerkView hb.clerkView)] at hcfg
    exact ⟨_, hexec, hrest, hcfg, fun m hm => (hothers m hm).trans (hx m),
      hthreads.trans (threads_of_clerkView hb.clerkView)⟩
  · obtain ⟨b, hb, hexec⟩ := exec_runaheadResolve hcan hreading hcoins
    have hahead := aheadBody_spec ((canResolve_of_purchased hb n.toNat t.toNat).trans hcan)
    have hskip : reg b R.PUR_RA_SKIP = reg s R.PUR_RA_SKIP := hb.2 _ (by decide)
    have hnumber : b.nextAccess = s.nextAccess := by
      rw [hb.1]
    dsimp only at hahead
    rw [stream_of_stations hb.stations, hskip, hnumber] at hahead
    exact ⟨_, hexec, hahead⟩

end Sys2Proof.Machine
end

section
/-!
PROOFS. Output that leaves the block: the LEDGER hop, the egress ports, and the last tile that ESCROW keeps back.
-/

namespace Sys2Proof.Machine

/-! ### What a journal entry leaves of stations and items -/

/-- What stations work on is the same, and so are the items of the LEDGER. -/
structure KeepsItems (s t : State) : Prop where
  stations : stationView t = stationView s
  items : t.ledger.items = s.ledger.items

theorem KeepsItems.trans {s t u : State} (h : KeepsItems s t) (k : KeepsItems t u) : KeepsItems s u :=
  ⟨k.stations.trans h.stations, k.items.trans h.items⟩

/-- A change of the LEDGER that leaves its items, and what keeps them after it. -/
theorem KeepsItems.of_ledger {s t : State} {l : LedgerState} (h : KeepsItems { s with ledger := l } t)
    (hl : l.items = s.ledger.items) : KeepsItems s t := ⟨h.stations, h.items.trans hl⟩

theorem placeEntry_keepsItems (e : JEntry) (s : State) : KeepsItems s (placeEntry e s).2 := by
  unfold placeEntry
  split <;> exact ⟨rfl, rfl⟩

theorem startAccess_keepsItems (cls : Nat) (bill : List (Nat × Nat)) (kind : ReqKind) (req : Nat) (lines : List Line)
    (job : Job) (s : State) : KeepsItems s (startAccess cls bill kind req lines job s) :=
  ⟨startAccess_stations .., congrArg LedgerState.items (startAccess_frame ..).ledger⟩

theorem writeEntry_keepsItems (e : JEntry) (next : After) (s : State) : KeepsItems s (writeEntry e next s) := by
  unfold writeEntry
  dsimp only
  refine KeepsItems.trans ?_ (startAccess_keepsItems ..)
  exact (placeEntry_keepsItems ..).of_ledger rfl

theorem writeRecord_keepsItems (e : JEntry) (log : List Byte) (next : After) (s : State) :
    KeepsItems s (writeRecord e log next s) := by
  unfold writeRecord
  dsimp only
  refine KeepsItems.trans ?_ (startAccess_keepsItems ..)
  split
  · exact (placeEntry_keepsItems ..).of_ledger rfl
  · exact ⟨rfl, rfl⟩

/-- A journal entry leaves the stations and the items. -/
theorem journal_keepsItems (e : JEntry) (log : List Byte) (next : After) (s : State) :
    KeepsItems s (journal e log next s) := by
  unfold journal writeNow
  split
  · split
    · exact writeEntry_keepsItems ..
    · exact writeRecord_keepsItems ..
  · exact ⟨rfl, rfl⟩

/-- A new entry that accepts nothing is written with the ledger number it has. -/
theorem writeEntry_ring_kept {e : JEntry} (next : After) (s : State) (hnew : e.jseq = 0) (htype : e.etype ≠ 1) :
    ∃ j, { e with jseq := j } ∈ (writeEntry e next s).ledger.ring := by
  have htakes : (decide (e.etype = 1) && decide (e.ledger = 0)) = false := by
    rw [decide_eq_false htype, Bool.false_and]
  unfold writeEntry
  rw [(startAccess_frame ..).ledger]
  unfold placeEntry
  rw [htakes, if_neg (not_not.2 hnew)]
  exact ⟨_, List.mem_append_right _ (List.mem_singleton.2 rfl)⟩

/-- A new entry that accepts nothing, without a text log record, is made with the ledger number it has. -/
theorem journal_keptMade {e : JEntry} (next : After) (s : State) (hnew : e.jseq = 0) (htype : e.etype ≠ 1)
    {p : JEntry → Prop} (hp : ∀ j, p { e with jseq := j }) : EntryMade (journal e [] next s) p := by
  unfold journal writeNow
  split
  · obtain ⟨j, hmem⟩ := writeEntry_ring_kept next s hnew htype
    exact Or.inl ⟨_, hmem, hp j⟩
  · exact Or.inr (Or.inl ⟨(e, [], next), List.mem_append_right _ (List.mem_singleton.2 rfl), hp e.jseq⟩)

/-! ### Reads of an item -/

theorem item?_of_items {s t : State} (h : t.ledger.items = s.ledger.items) (n : Nat) : item? t n = item? s n := by
  unfold item?
  rw [h]

/-- A change that keeps ledger numbers is read on its own item. -/
theorem item?_onItem_same (n : Nat) (f : Item → Item) (s : State) (hf : ∀ i, (f i).ledger = i.ledger) :
    item? (onItem n f s) n = (item? s n).map f := by
  unfold item? onItem
  dsimp only
  rw [List.find?_map]
  have hkeep : ((fun i : Item => i.ledger == n) ∘ fun i => if i.ledger = n then f i else i) = fun i => i.ledger == n := by
    funext i
    dsimp only [Function.comp]
    split
    · rw [hf]
    · rfl
  rw [hkeep]
  cases h : s.ledger.items.find? (fun i => i.ledger == n) with
  | none => rfl
  | some i => exact congrArg some (if_pos (by simpa using List.find?_some h))

theorem reportTicket_items (c k st fl : Nat) (s : State) : (reportTicket c k st fl s).ledger.items = s.ledger.items := by
  unfold reportTicket
  split <;> rfl

/-- A report changes the item's status and flags alone. -/
theorem item?_report {t : Tile} {i : Item} {s : State} (h : item? s t.ledger = some i) (st fl : Nat) :
    ∃ j, item? (report t st fl s) t.ledger = some j ∧ j.dropped = i.dropped := by
  have hitem : item? (report t st fl s) t.ledger = (item? s t.ledger).map _ :=
    (item?_of_items (reportTicket_items ..) t.ledger).trans
      (item?_onItem_same t.ledger _ s fun i => by split <;> rfl)
  rw [h] at hitem
  refine ⟨_, hitem, ?_⟩
  dsimp only
  split <;> rfl

/-- An item of which a hop has emitted tile number `k`. -/
def emittedAt (hop k : Nat) (i : Item) : Item := { i with emitted := Tab.set 0 i.emitted hop (k + 1) }

/-- A tile of an item of the LEDGER gets the item's next number at a hop (R43). -/
theorem numberTile_item {t : Tile} {i : Item} {s : State} (hop : Nat) (h : item? s t.ledger = some i) :
    numberTile hop t s = ({ t with tseq := Tab.get 0 i.emitted hop },
      onItem t.ledger (emittedAt hop (Tab.get 0 i.emitted hop)) s) := by
  unfold numberTile
  rw [h]
  rfl

/-! ### The LEDGER hop (R368) -/

/-- An item that keeps the record of a tile (R368). -/
def keepsRecord (t : Tile) (i : Item) : Item :=
  { i with outs := i.outs.filter (fun o => o.rseq != t.tseq) ++ [outRec t 0] }

theorem journalOutput_egress {t : Tile} (hsink : t.hopAfter ≠ Hop.STACK) (s : State) :
    journalOutput t 0 s = journal (outputEntry t 0) [] (.output t) (onItem t.ledger (keepsRecord t) s) := by
  unfold journalOutput
  dsimp only
  rw [if_neg hsink]
  rfl

/-- RSEQ and COUNT of an OUTPUT entry (Table 11.2). -/
theorem outputEntry_fields (t : Tile) (addr : Nat) : (outputEntry t addr).a % 2 ^ 24 = t.tseq % 2 ^ 24
    ∧ (outputEntry t addr).a / 2 ^ 24 % 2 ^ 13 = t.count % 8192 := by
  dsimp only [outputEntry, entry]
  omega

/-- A record for an egress sink is journalled: its OUTPUT entry is made, and its item keeps it as not delivered. -/
theorem journalOutput_spec {t : Tile} {i : Item} {s : State} (hsink : t.hopAfter ≠ Hop.STACK)
    (hi : item? s t.ledger = some i) :
    let u := journalOutput t 0 s
    stationView u = stationView s
      ∧ EntryMade u (fun e => e.etype = 2 ∧ e.stream = t.stream ∧ e.ledger = t.ledger ∧ e.c = t.check
          ∧ e.a % 2 ^ 24 = t.tseq % 2 ^ 24 ∧ e.a / 2 ^ 24 % 2 ^ 13 = t.count % 8192)
      ∧ ∃ j, item? u t.ledger = some j ∧ ∃ r ∈ j.outs, r.rseq = t.tseq ∧ r.check = t.check ∧ r.delivered = false := by
  dsimp only
  rw [journalOutput_egress hsink]
  obtain ⟨hstations, hitems⟩ := journal_keepsItems (outputEntry t 0) [] (.output t) (onItem t.ledger (keepsRecord t) s)
  refine ⟨hstations, ?_, ?_⟩
  · exact journal_keptMade (.output t) _ rfl (show 2 ≠ 1 by decide) fun _ => ⟨rfl, rfl, rfl, rfl, outputEntry_fields t 0⟩
  · have hkept : item? (onItem t.ledger (keepsRecord t) s) t.ledger = some (keepsRecord t i) := by
      rw [item?_onItem_same t.ledger (keepsRecord t) s (fun _ => rfl), hi]
      rfl
    exact ⟨_, (item?_of_items hitems t.ledger).trans hkept, outRec t 0,
      List.mem_append_right _ (List.mem_singleton.2 rfl), rfl, rfl, rfl⟩

/-- What the LEDGER hop does with a tile of an item that is not dropped, on its way to an egress port, that is no replay, of
a stream not muted: the tile gets its number, and its record is journalled. -/
theorem hopWork_egress {t : Tile} {i : Item} {s : State} (hsink : t.hopAfter = 9 ∨ t.hopAfter = 10)
    (hreplay : t.replay = false) (hi : item? s t.ledger = some i) (hdropped : i.dropped = false)
    (hmuted : (stream s t.stream).muted = false) :
    ∃ v j, hopWork t s = journalOutput { t with tseq := Tab.get 0 i.emitted 8 } 0 v
      ∧ stationView v = stationView (unqueue 8 t s) ∧ item? v t.ledger = some j := by
  let z := { t with tseq := Tab.get 0 i.emitted 8 }
  let q := onItem t.ledger (emittedAt 8 (Tab.get 0 i.emitted 8)) (unqueue 8 t s)
  let v := report z St.OK (lastFlag z) q
  have hnumber : numberTile 8 t (unqueue 8 t s) = (z, q) := numberTile_item 8 hi
  have hq : item? q t.ledger = some (emittedAt 8 (Tab.get 0 i.emitted 8) i) :=
    (item?_onItem_same t.ledger (emittedAt 8 _) _ fun _ => rfl).trans (congrArg (Option.map _) hi)
  obtain ⟨j, hj, hkept⟩ := item?_report (t := z) hq St.OK (lastFlag z)
  have hv : stationView v = stationView (unqueue 8 t s) := report_stations ..
  have hloud : (stream v z.stream).muted = false := by
    rw [stream_of_stations hv]
    exact hmuted
  have hdrop : ((item? v z.ledger).map Item.dropped).getD false = false := by
    rw [hj]
    exact hkept.trans hdropped
  have hmatches : mismatch v z = false := by
    unfold mismatch
    rw [show z.replay = false from hreplay, Bool.false_and]
  have hunpaid : paidOut v z = false := by
    unfold paidOut
    rw [show z.replay = false from hreplay, Bool.false_and]
  have hclerk : t.hopAfter ≠ Hop.CLERK := by
    show t.hopAfter ≠ 12
    omega
  have hstack : z.hopAfter ≠ Hop.STACK := by
    show t.hopAfter ≠ 11
    omega
  refine ⟨v, j, ?_, hv, hj⟩
  unfold hopWork
  dsimp only
  rw [if_neg hclerk, hnumber]
  dsimp only
  rw [hdrop, hloud, hmatches, hunpaid, if_neg hstack]
  rfl

/-! ### Records delivered (R369) -/

theorem countLate_stations (t : Tile) (s : State) : stationView (countLate t s) = stationView s := by
  unfold countLate
  split
  · exact bump_stations ..
  · rfl

theorem countTile_stations (t : Tile) (s : State) : stationView (countTile t s) = stationView s := by
  unfold countTile
  split <;> rfl

theorem writePaid_hops (n : Nat) (s : State) : (writePaid n s).hops = s.hops := by
  unfold writePaid
  dsimp only
  split
  · rfl
  · exact congrArg StationView.hops (journal_keepsItems ..).stations

theorem advanceMark_hops (n : Nat) (s : State) : (advanceMark n s).hops = s.hops := by
  unfold advanceMark
  dsimp only
  split
  · exact writePaid_hops ..
  · rfl

/-- A delivery leaves every queue of tiles. -/
theorem deliverRecord_hops (t : Tile) (s : State) : (deliverRecord t s).hops = s.hops :=
  (advanceMark_hops ..).trans
    (congrArg StationView.hops ((countTile_stations ..).trans ((countLate_stations ..).trans (onItem_stations ..))))

theorem countTile_swept {s0 t : State} (z : Tile) (h : Swept s0 t) : Swept s0 (countTile z t) := by
  unfold countTile
  exact .ite h (onTicket_swept _ _ _ h)

theorem writePaid_swept {s0 t : State} (n : Nat) (h : Swept s0 t) : Swept s0 (writePaid n t) := by
  unfold writePaid
  exact .ite (onStream_swept _ _ h) (journal_swept _ _ _ (onStream_swept _ _ h))

theorem advanceMark_swept {s0 t : State} (n : Nat) (h : Swept s0 t) : Swept s0 (advanceMark n t) := by
  unfold advanceMark
  exact .ite (writePaid_swept _ (onStream_swept _ _ h)) h

/-- A delivery changes no more than what follows from a command by itself does: no egress port and no count of records. -/
theorem deliverRecord_swept {s0 t : State} (z : Tile) (h : Swept s0 t) : Swept s0 (deliverRecord z t) :=
  advanceMark_swept _ (countTile_swept _ (countLate_swept _ (onItem_swept _ _ h)))

/-! ### The egress ports (R324 to R326) -/

/-- The count of records that a port has delivered. -/
def recordCount (p : Nat) : Nat := if p = 0 then R.EXC_REC0 else R.EXC_REC1

theorem recordCount_not_swept (p : Nat) : recordCount p ∉ sweptRegs := by
  unfold recordCount
  split <;> decide

theorem egress_setEgress (p : Nat) (e : EgressState) (s : State) : egress (setEgress p e s) p = e := by
  unfold egress setEgress
  split <;> rfl

theorem setEgress_stations (p : Nat) (e : EgressState) (s : State) : stationView (setEgress p e s) = stationView s := by
  unfold setEgress
  split <;> rfl

theorem reg_setEgress (p : Nat) (e : EgressState) (s : State) (off : Nat) : reg (setEgress p e s) off = reg s off := by
  unfold setEgress
  split <;> rfl

theorem egress_of_swept {s t : State} (h : Swept s t) (p : Nat) : egress t p = egress s p := by
  unfold egress
  rw [h.egress0, h.egress1]

theorem egress_bump (off n p : Nat) (s : State) : egress (bump off n s) p = egress s p := by
  unfold bump
  split <;> rfl

/-- A record whose last beat has passed has left whole, and counts as delivered. -/
theorem finishRecord_spec (p : Nat) (t : Tile) (s : State) :
    let u := finishRecord p t s
    egress u p = { egress s p with cur := none, last := recordHeader t ++ padUp 32 t.payload }
      ∧ reg u (recordCount p) = satAdd 32 (reg s (recordCount p)) 1 ∧ ∀ h, queueAt u h = queueAt s h := by
  intro u
  let v := setEgress p { egress s p with cur := none, last := recordOut t } s
  have hu : u = deliverRecord t (bump (recordCount p) 1 v) := rfl
  have hswept : Swept (bump (recordCount p) 1 v) u := deliverRecord_swept t (.refl _)
  refine ⟨?_, ?_, fun h => ?_⟩
  · rw [egress_of_swept hswept, egress_bump]
    exact egress_setEgress ..
  · rw [hswept.regs _ (recordCount_not_swept p), reg_bump_one, reg_setEgress]
  · have hhops : u.hops = s.hops := (congrArg State.hops hu).trans ((deliverRecord_hops ..).trans
      (congrArg StationView.hops ((bump_stations (recordCount p) 1 v).trans (setEgress_stations ..))))
    unfold queueAt
    rw [hhops]

/-- A port can start the record in front of its sink: it is up and enabled, its receiver is ready, and it sends nothing. -/
structure CanStart (s : State) (p : Nat) (t : Tile) (rest : List Tile) : Prop where
  queue : queueAt s (9 + p) = t :: rest
  up : egressUp s p = true
  enabled : (reg s R.EXC_CTRL).testBit p = true
  ready : (egress s p).ready = true
  idle : (egress s p).cur = none

/-- EGRESS_RECORD on a port that can start a record: it is finished, or stands paused after the beats that passed. -/
theorem exec_egressRecord {s : State} {p : BitVec 1} {t : Tile} {rest : List Tile} (h : CanStart s p.toNat t rest)
    (b : BitVec 10) :
    let z := { t with status := workStatus s t }
    let v := unqueue (9 + p.toNat) t s
    let n := (z.payload.length + 31) / 32
    exec (.egressRecord p b) s = if n ≤ b.toNat then .next (sweep (finishRecord p.toNat z v))
      else .next (setEgress p.toNat
        { egress s p.toNat with ready := false, cur := some { tile := z, beats := n, passed := b.toNat } } v) := by
  show execEgressRecord p b s = _
  unfold execEgressRecord
  dsimp only
  rw [h.queue]
  dsimp only
  rw [h.up, h.ready, h.idle, show bit (reg s R.EXC_CTRL) p.toNat = true from h.enabled]
  rfl

theorem queueAt_unqueue_front {h : Nat} {t : Tile} {rest : List Tile} {s : State} (hqueue : queueAt s h = t :: rest) :
    queueAt (unqueue h t s) h = rest := by
  rw [queueAt_unqueue_same, hqueue]
  exact if_pos rfl

/-- The record that starts leaves whole, or its port pauses and holds the rest. -/
theorem egressRecord_starts {s : State} {p : BitVec 1} {t : Tile} {rest : List Tile} (h : CanStart s p.toNat t rest)
    (b : BitVec 10) :
    let z := { t with status := workStatus s t }
    ((z.payload.length + 31) / 32 ≤ b.toNat → EndsIn (exec (.egressRecord p b) s) (fun u =>
        (egress u p.toNat).last = recordHeader z ++ padUp 32 z.payload ∧ (egress u p.toNat).cur = none
        ∧ reg u (recordCount p.toNat) = satAdd 32 (reg s (recordCount p.toNat)) 1 ∧ queueAt u (9 + p.toNat) = rest))
    ∧ (b.toNat < (z.payload.length + 31) / 32 → Answers (exec (.egressRecord p b) s) (fun u =>
        egress u p.toNat = { egress s p.toNat with ready := false,
                                                   cur := some ⟨z, (z.payload.length + 31) / 32, b.toNat⟩ }
        ∧ queueAt u (9 + p.toNat) = rest)) := by
  intro z
  have hexec := exec_egressRecord h b
  have hleft := queueAt_unqueue_front h.queue
  refine ⟨fun hfits => ?_, fun hlong => ?_⟩
  · obtain ⟨hport, hcount, hqueues⟩ := finishRecord_spec p.toNat z (unqueue (9 + p.toNat) t s)
    exact ⟨_, hexec.trans (if_pos hfits), congrArg EgressState.last hport, congrArg EgressState.cur hport, hcount,
      (hqueues _).trans hleft⟩
  · exact ⟨_, hexec.trans (if_neg (Nat.not_le.2 hlong)), egress_setEgress ..,
      (queueAt_of_stations (setEgress_stations ..) _).trans hleft⟩

/-- EGRESS_READY on a port that has paused: the rest of the record leaves, or its next beats. -/
theorem egressReady_resumes {s : State} {p : BitVec 1} {r : Record} (hcur : (egress s p.toNat).cur = some r)
    (hup : egressUp s p.toNat = true) (b : BitVec 10) :
    let e := egress s p.toNat
    (r.beats ≤ r.passed + b.toNat → EndsIn (exec (.egressReady ⟨p, b⟩) s) (fun u =>
        (egress u p.toNat).last = recordHeader r.tile ++ padUp 32 r.tile.payload ∧ (egress u p.toNat).cur = none
        ∧ (egress u p.toNat).ready = true))
    ∧ (r.passed + b.toNat < r.beats → exec (.egressReady ⟨p, b⟩) s = .next (setEgress p.toNat
        { e with ready := false, cur := some { r with passed := r.passed + b.toNat } } s)) := by
  intro e
  have hexec : exec (.egressReady ⟨p, b⟩) s = if r.beats ≤ r.passed + b.toNat then
      .next (sweep (finishRecord p.toNat r.tile (setEgress p.toNat { e with ready := true } s)))
      else .next (setEgress p.toNat { e with ready := false, cur := some { r with passed := r.passed + b.toNat } } s) := by
    show execEgressReady ⟨p, b⟩ s = _
    unfold execEgressReady
    dsimp only
    rw [hcur, hup]
    rfl
  refine ⟨fun hfits => ?_, fun hlong => hexec.trans (if_neg (Nat.not_le.2 hlong))⟩
  obtain ⟨hport, _, _⟩ := finishRecord_spec p.toNat r.tile (setEgress p.toNat { e with ready := true } s)
  rw [egress_setEgress] at hport
  exact ⟨_, hexec.trans (if_pos hfits), congrArg EgressState.last hport, congrArg EgressState.cur hport,
    congrArg EgressState.ready hport⟩

theorem egressReady_idle {s : State} {p : BitVec 1} (hidle : (egress s p.toNat).cur = none) (b : BitVec 10) :
    exec (.egressReady ⟨p, b⟩) s = .next (setEgress p.toNat { egress s p.toNat with ready := true } s) := by
  show execEgressReady ⟨p, b⟩ s = _
  unfold execEgressReady
  dsimp only
  rw [hidle]

/-! ### The last tile that ESCROW keeps back (R318) -/

/-- What ESCROW releases for a tile once NOTARY has reported: the hold when the grammar ended, otherwise nothing. -/
def releasedRun (im : TokImage) (fin : Bool) (ctx : EscrowCtx) : ExcRun :=
  if fin then resolveHold im (ExcRun.start ctx) else ExcRun.start ctx

/-- The last tile of an item as ESCROW lets it go. -/
def resolvedTile (t : Tile) (fin : Bool) (out : List Byte) : Tile :=
  let bytes := t.payload ++ out
  { t with kind := .text, payload := bytes, textEnd := t.textEnd || fin, check := crc32c bytes, last := true }

/-- ESCROW_HOLD_RESOLVE of the last tile of an item, in which no stop string completes: nothing waits any more, and the
tile is sent. -/
theorem exec_escrowHoldResolve {s : State} {n : BitVec 12} {t : Tile} {rest : List Tile} {im : TokImage}
    (hawait : (stream s n.toNat).escrow.await = t :: rest) (hreported : reportPending s t = false)
    (hup : stationUp s 7 = true) (him : imageOf s t.tenant = some im) (hlast : t.last = true) :
    let fin := decide ((stream s n.toNat).notary.ended = some t.ledger)
    let r := releasedRun im fin (stream s n.toNat).escrow
    r.hit = none → (t.payload ++ r.out).length ≤ 4096 → t.payload ++ r.out ≠ [] →
    ∃ v, exec (.escrowHoldResolve n) s = .next (sweep (sendText (resolvedTile t fin r.out) v))
      ∧ v.hops = s.hops ∧ (stream v n.toNat).escrow.await = [] := by
  intro fin r hhit hlen hout
  let v := noteCarry t.ledger (fun x c => { c with escrow := x.escrow })
    (onStream n.toNat (fun x => { x with escrow := { r.ctx with await := [] } }) (countExc r s))
  have hv : stationView v = stationView
      (onStream n.toNat (fun x => { x with escrow := { r.ctx with await := [] } }) (countExc r s)) :=
    noteCarry_stations ..
  refine ⟨v, ?_, ?_, ?_⟩
  · let z : Tile := { t with kind := .text, payload := t.payload ++ r.out, textEnd := t.textEnd || fin || false,
                             eos := t.eos || false }
    have hexec : exec (.escrowHoldResolve n) s = .next (sweep (emitLast z v)) := by
      show execEscrowHoldResolve n s = _
      unfold execEscrowHoldResolve
      dsimp only
      rw [hawait]
      dsimp only
      have hrun : (if fin = true then resolveHold im (ExcRun.start (stream s n.toNat).escrow)
          else ExcRun.start (stream s n.toNat).escrow) = r := rfl
      rw [hreported, hup, if_neg (by decide), him]
      dsimp only
      rw [hrun, hhit, cutOutput_short hlen, hlast]
      rfl
    rw [hexec, emitLast_some v (Or.inl hout)]
    simp only [z, Bool.or_false]
    rfl
  · exact (congrArg StationView.hops hv).trans (congrArg StationView.hops (countExc_stations ..))
  · rw [stream_of_stations hv, stream_onStream_same]

/-! ### The obligation -/

/-- Settles O49: the hop's work on a numbered tile, the two commands of an egress port, and the tile that ESCROW lets go. -/
theorem outputLeaves : Obligations.OutputLeaves := by
  intro s
  refine ⟨fun n t i htake hwaits hreplay hsink hi hdropped hmuted => ?_, fun p b => ⟨?_, ?_, ?_⟩, ?_⟩
  · obtain ⟨v, j, hwork, hv, hj⟩ := hopWork_egress hsink hreplay hi hdropped hmuted
    have hnot : t.hopAfter ≠ Hop.STACK := by
      show t.hopAfter ≠ 11
      omega
    obtain ⟨hu, hentry, hitem⟩ := journalOutput_spec (t := { t with tseq := Tab.get 0 i.emitted 8 }) hnot hj
    have hexec : exec (.ledgerHop n .none) s = .next (sweep (hopWork t s)) := by
      show execLedgerHop n .none s = _
      simp [execLedgerHop, htake, hwaits]
    rw [hwork] at hexec
    exact ⟨_, hexec, (queueAt_of_stations (hu.trans hv) 8).trans (queueAt_unqueue_same ..), hentry, hitem⟩
  · exact fun t rest hqueue hup henabled hready hidle => egressRecord_starts ⟨hqueue, hup, henabled, hready, hidle⟩ b
  · exact fun hidle => egressReady_idle hidle b
  · exact fun r hcur hup => egressReady_resumes hcur hup b
  · intro n t rest im hawait _ hreported hup him hlast fin r hhit hlen hout
    obtain ⟨v, hexec, hhops, hempty⟩ := exec_escrowHoldResolve hawait hreported hup him hlast hhit hlen hout
    obtain ⟨⟨y, hy, hqueue⟩, _, hstreams⟩ := sendText_sendsOn (resolvedTile t fin r.out) v
    have hnext : queueAt v t.advance.nextHop = queueAt s t.advance.nextHop := by
      unfold queueAt
      rw [hhops]
    refine ⟨_, hexec, ?_, y, hqueue.trans (congrArg (· ++ [y]) hnext), hy.kind, hy.ledger, hy.payload, hy.last, hy.textEnd⟩
    exact (congrArg (·.escrow.await) (hstreams n.toNat)).trans hempty

end Sys2Proof.Machine
end

section
/-!
PROOFS. The stack interface: responses of the memory ports, and a link that fails.
-/

namespace Sys2Proof.Machine

/-! ### Lines that are sent -/

/-- A line as it is on its way at a port under a tag. -/
def Line.sentAt (l : Line) (port tag : Nat) : Line := { l with port := port, tag := tag, st := .out }

/-- A line that nothing holds goes out under the lowest free tag. -/
theorem sendLines_out {s : State} {before after : List Access} {a : Access} {l : Line} {used : List (Nat × Nat)} {t : Nat}
    (hunsent : l.st = .unsent) (hfree : lineHeld s before after a l = false)
    (htag : freeTag used (portFor s l.loc) = some t) (ls : List Line) :
    sendLines s before after a (l :: ls) used
      = (l.sentAt (portFor s l.loc) t :: (sendLines s before after a ls ((portFor s l.loc, t) :: used)).1,
        (sendLines s before after a ls ((portFor s l.loc, t) :: used)).2) := by
  refine (if_neg (not_not.2 hunsent) : ite _ _ _ = _).trans ((if_neg (ne_true_of_eq_false hfree)).trans ?_)
  rw [htag]
  rfl

/-- A line is left, or goes out at the port of its location when nothing holds it; then come the lines behind it. -/
theorem sendLines_cons_cases (s : State) (before after : List Access) (a : Access) (l : Line) (ls : List Line)
    (used : List (Nat × Nat)) : ∃ m u, (sendLines s before after a (l :: ls) used).1
        = m :: (sendLines s before after a ls u).1
      ∧ (m = l ∨ lineHeld s before after a l = false ∧ ∃ t, m = l.sentAt (portFor s l.loc) t) := by
  by_cases hsent : l.st ≠ .unsent
  · exact ⟨l, used, congrArg Prod.fst (if_pos hsent : ite _ _ _ = _), Or.inl rfl⟩
  by_cases hheld : lineHeld s before after a l = true
  · exact ⟨l, used, congrArg Prod.fst ((if_neg hsent : ite _ _ _ = _).trans (if_pos hheld)), Or.inl rfl⟩
  generalize htag : freeTag used (portFor s l.loc) = tag
  cases tag with
  | none =>
    have hleft : sendLines s before after a (l :: ls) used
        = (l :: (sendLines s before after a ls used).1, (sendLines s before after a ls used).2) := by
      refine (if_neg hsent : ite _ _ _ = _).trans ((if_neg hheld).trans ?_)
      rw [htag]
    exact ⟨l, used, congrArg Prod.fst hleft, Or.inl rfl⟩
  | some t =>
    have hfree := Bool.eq_false_of_not_eq_true hheld
    exact ⟨_, _, congrArg Prod.fst (sendLines_out (not_not.1 hsent) hfree htag ls), Or.inr ⟨hfree, t, rfl⟩⟩

/-- A line that nothing holds has a port in service. -/
theorem portUp_of_not_held {s : State} {before after : List Access} {a : Access} {l : Line}
    (h : lineHeld s before after a l = false) : portUp s (portFor s l.loc) = true := by
  simp only [lineHeld, Bool.or_eq_false_iff, Bool.not_eq_false'] at h
  exact h.1.1.1.1

theorem sendPart_accesses (ahead : Bool) (s : State) :
    (sendPart ahead s).accesses = sendFrom s ahead [] s.accesses (tagsUsed s) := rfl

/-- Whether a line is held does not depend on the accesses of the state. -/
theorem lineHeld_accesses (s : State) (xs before after : List Access) (a : Access) (l : Line) :
    lineHeld { s with accesses := xs } before after a l = lineHeld s before after a l := rfl

section

variable {P : Line → Prop} {s : State}

/-- What holds of the lines of every access. -/
def EveryLine (P : Line → Prop) (xs : List Access) : Prop := ∀ a ∈ xs, ∀ l ∈ a.lines, P l

/-- What every line that is sent at a port in service has. -/
def SentHave (P : Line → Prop) (s : State) : Prop := ∀ (l : Line) (p t : Nat), portUp s p = true → P (l.sentAt p t)

theorem sendLines_forall (hsent : SentHave P s) (before after : List Access) (a : Access) {ls : List Line}
    (used : List (Nat × Nat)) (h : ∀ l ∈ ls, P l) : ∀ l ∈ (sendLines s before after a ls used).1, P l := by
  induction ls generalizing used with
  | nil => exact h
  | cons l ls ih =>
    obtain ⟨m, u, hsend, hm⟩ := sendLines_cons_cases s before after a l ls used
    obtain ⟨hl, hls⟩ := List.forall_mem_cons.1 h
    rw [hsend]
    refine List.forall_mem_cons.2 ⟨?_, ih u hls⟩
    rcases hm with rfl | ⟨hheld, t, rfl⟩
    · exact hl
    · exact hsent l _ t (portUp_of_not_held hheld)

theorem sendFrom_forall (hsent : SentHave P s) (ahead : Bool) {done as : List Access} (used : List (Nat × Nat))
    (hdone : EveryLine P done) (has : EveryLine P as) : EveryLine P (sendFrom s ahead done as used) := by
  induction as generalizing done used with
  | nil => exact hdone
  | cons a as ih =>
    obtain ⟨ha, hrest⟩ := List.forall_mem_cons.1 has
    have hsnoc (b : Access) (hb : ∀ l ∈ b.lines, P l) : EveryLine P (done ++ [b]) :=
      List.forall_mem_append.2 ⟨hdone, List.forall_mem_singleton.2 hb⟩
    rw [sendFrom]
    split
    · exact ih _ (hsnoc _ (sendLines_forall hsent _ _ _ _ ha)) hrest
    · exact ih _ (hsnoc a ha) hrest

theorem sendPart_forall (hsent : SentHave P s) (ahead : Bool) (h : EveryLine P s.accesses) :
    EveryLine P (sendPart ahead s).accesses := by
  rw [sendPart_accesses]
  exact sendFrom_forall hsent ahead _ (List.forall_mem_nil _) h

/-- Sending keeps what holds of every line, and of every line that is sent. -/
theorem sendAll_forall (hsent : SentHave P s) (h : EveryLine P s.accesses) : EveryLine P (sendAll s).accesses :=
  sendPart_forall (s := sendPart false s) (fun l p t hup => hsent l p t hup) true (sendPart_forall hsent false h)

end

/-- What holds of every line after a change of some of them. -/
theorem onLine_forall {P : Line → Prop} {p : Line → Bool} {f : Access → Line → Line} {s : State}
    (hthose : ∀ a l, p l = true → P (f a l)) (hothers : ∀ l, p l = false → P l) :
    EveryLine P (onLine p f s).accesses := by
  intro b hb l hl
  obtain ⟨a, _, rfl⟩ := List.mem_map.1 hb
  obtain ⟨m, _, rfl⟩ := List.mem_map.1 hl
  split
  · exact hthose a m ‹_›
  · exact hothers m (Bool.eq_false_of_not_eq_true ‹_›)

theorem sendAll_rest (s : State) (xs : List Access) : { sendAll s with accesses := xs } = { s with accesses := xs } := rfl

theorem onLine_rest (p : Line → Bool) (f : Access → Line → Line) (s : State) (xs : List Access) :
    { onLine p f s with accesses := xs } = { s with accesses := xs } := rfl

/-! ### One line that stands alone -/

/-- An access with one line in place of its lines. -/
def Access.ofLine (a : Access) (l : Line) : Access := { a with lines := [l] }

theorem freeTag_nil (p : Nat) : freeTag [] p = some 0 :=
  List.find?_range_eq_some.2 ⟨rfl, List.mem_range.2 (Nat.zero_lt_succ 1023), fun _ h => absurd h (Nat.not_lt_zero _)⟩

theorem sendLines_single {s : State} {a : Access} {l : Line} (hunsent : l.st = .unsent)
    (hheld : lineHeld s [] [] a l = false) :
    (sendLines s [] [] a [l] []).1 = [l.sentAt (portFor s l.loc) 0] :=
  congrArg Prod.fst (sendLines_out hunsent hheld (freeTag_nil _) [])

/-- The lines of demand work, or of run-ahead work, when one access of one line that can be sent is all there is. -/
theorem sendPart_single {s : State} {a : Access} {l : Line} {ahead : Bool} (hs : s.accesses = [a.ofLine l])
    (hpaid : a.paid = true) (hunsent : l.st = .unsent) (hheld : lineHeld s [] [] a l = false)
    (hpart : a.job.runAhead = ahead) : (sendPart ahead s).accesses = [a.ofLine (l.sentAt (portFor s l.loc) 0)] := by
  have htags : tagsUsed s = [] := by
    rw [tagsUsed, hs]
    simp [Access.ofLine, hunsent]
  have hdue : ((a.ofLine l).paid && ((a.ofLine l).job.runAhead == ahead)) = true :=
    Bool.and_eq_true_iff.2 ⟨hpaid, beq_iff_eq.2 hpart⟩
  have hsend : (sendLines s [] [] (a.ofLine l) (a.ofLine l).lines []).1 = [l.sentAt (portFor s l.loc) 0] :=
    sendLines_single hunsent hheld
  rw [sendPart_accesses, htags, hs, sendFrom, if_pos hdue]
  dsimp only
  rw [hsend]
  rfl

/-- A part of the work that has no line to send. -/
theorem sendPart_other {s : State} {a : Access} {ahead : Bool} (hs : s.accesses = [a]) (h : a.job.runAhead ≠ ahead) :
    (sendPart ahead s).accesses = [a] := by
  show sendFrom s ahead [] s.accesses (tagsUsed s) = _
  rw [hs, sendFrom, if_neg fun e => h (beq_iff_eq.1 (Bool.and_eq_true_iff.1 e).2)]
  rfl

/-- A line that stands alone, of an access that is paid, goes out under tag 0 when nothing holds it (R468). -/
theorem sendAll_single {s : State} {a : Access} {l : Line} (hs : s.accesses = [a.ofLine l]) (hpaid : a.paid = true)
    (hunsent : l.st = .unsent) (hheld : lineHeld s [] [] a l = false) :
    (sendAll s).accesses = [a.ofLine (l.sentAt (portFor s l.loc) 0)] := by
  cases hjob : a.job.runAhead with
  | false =>
    exact sendPart_other (sendPart_single hs hpaid hunsent hheld hjob) fun e => Bool.false_ne_true (hjob.symm.trans e)
  | true =>
    have hskip : (sendPart false s).accesses = [a.ofLine l] :=
      sendPart_other hs fun e => Bool.false_ne_true (e.symm.trans hjob)
    exact sendPart_single (s := sendPart false s) hskip hpaid hunsent hheld hjob

/-! ### Responses (R349, R350, R468) -/

theorem reg_lt (s : State) (off : Nat) : reg s off < 2 ^ 32 := (Tab.get (regReset s.build off) s.regs off).isLt

/-- A counter to which nothing is added. -/
theorem satAdd_reg_zero (s : State) (off : Nat) : satAdd 32 (reg s off) 0 = reg s off := by
  have h := reg_lt s off
  unfold satAdd
  omega

theorem loseFailed_of_no_mirrors {s : State} (h : ∀ a ∈ s.accesses, a.job.toMirrors = false) : loseFailed s = s := by
  have hnone : s.accesses.filter (fun a => a.job.toMirrors) = [] :=
    List.filter_eq_nil_iff.2 fun a ha => by rw [h a ha]; exact Bool.false_ne_true
  rw [loseFailed, hnone]
  rfl

theorem endAccesses_of_none {s : State} (h : firstEnded s = none) (fuel : Nat) : endAccesses fuel s = s := by
  cases fuel with
  | zero => rfl
  | succ n => rw [endAccesses, h]

/-- The line that is on its way at a port under a tag. -/
abbrev outAt (p : BitVec 3) (t : BitVec 10) : Line → Bool := Line.at_ p.toNat t.toNat .out

/-- What a response leaves: lines changed, STK_DEFER advanced, and then what follows when lines have ended. -/
def Responded (s : State) (p : BitVec 3) (t : BitVec 10) (defers : Nat) (f : Access → Line → Line)
    (o : Host.Outcome State Fault Refusal) : Prop :=
  EndsIn o (fun u => ∃ v,
    (let z := loseFailed v
     u = endAccesses (z.accesses.length + 16) z ∧ (firstEnded z = none → u = z)
     ∧ ((∀ a ∈ v.accesses, a.job.toMirrors = false) → z = v))
    ∧ v.accesses = (onLine (outAt p t) f s).accesses ∧ reg v R.STK_DEFER = satAdd 32 (reg s R.STK_DEFER) defers
    ∧ RegsKept [R.STK_DEFER] s v ∧ { v with accesses := s.accesses, regs := s.regs } = s)

theorem settleAccesses_responded {s : State} {p : BitVec 3} {t : BitVec 10} {defers : Nat} {f : Access → Line → Line}
    {v : State} (hlines : v.accesses = (onLine (outAt p t) f s).accesses)
    (hdefer : reg v R.STK_DEFER = satAdd 32 (reg s R.STK_DEFER) defers) (hregs : RegsKept [R.STK_DEFER] s v)
    (hrest : { v with accesses := s.accesses, regs := s.regs } = s) :
    Responded s p t defers f (.next (settleAccesses v)) :=
  ⟨_, rfl, v, ⟨rfl, fun h => endAccesses_of_none h _, loseFailed_of_no_mirrors⟩, hlines, hdefer, hregs, hrest⟩

/-- A response that counts no deferral. -/
theorem onLine_responded (s : State) (p : BitVec 3) (t : BitVec 10) (f : Access → Line → Line) :
    Responded s p t 0 f (.next (settleAccesses (onLine (outAt p t) f s))) :=
  settleAccesses_responded rfl (satAdd_reg_zero s _).symm (fun _ _ => rfl) rfl

/-- A response that counts one. -/
theorem onLine_bump_responded (s : State) (p : BitVec 3) (t : BitVec 10) (f : Access → Line → Line) :
    Responded s p t 1 f (.next (settleAccesses (onLine (outAt p t) f (bump R.STK_DEFER 1 s)))) :=
  settleAccesses_responded rfl (reg_bump_one _ s) (fun _ hk => reg_bump_other 1 s (by simpa using hk)) rfl

section

variable {s : State} {p : BitVec 3} {t : BitVec 10}

/-- The port takes responses. -/
theorem portTakes_of_up (hport : portUp s p.toNat = true) (hclk : clkUp s (5 + p.toNat) = true) :
    portTakes s p.toNat = true := Bool.and_eq_true_iff.2 ⟨hport, hclk⟩

theorem portTakes_of_down (h : portUp s p.toNat = false) : portTakes s p.toNat = false := by
  rw [portTakes, h, Bool.false_and]

theorem exec_memoryResponse_down (h : portTakes s p.toNat = false) (k : Answer) (data : List Byte) :
    exec (.memoryResponse p t k data) s = .next s := by
  show execMemoryResponse p t k data s = _
  rw [execMemoryResponse, h]
  rfl

theorem exec_deferredRetry_down (h : portTakes s p.toNat = false) : exec (.deferredRetry p t) s = .next s := by
  show execDeferredRetry p t s = _
  rw [execDeferredRetry, h]
  rfl

theorem exec_memoryResponse_up (h : portTakes s p.toNat = true) (k : Answer) (data : List Byte) :
    exec (.memoryResponse p t k data) s = .next (takeResponse p.toNat t.toNat k data s) := by
  show execMemoryResponse p t k data s = _
  rw [execMemoryResponse, if_pos h]

theorem exec_deferredRetry_up (h : portTakes s p.toNat = true) : exec (.deferredRetry p t) s
    = .next (sendAll (onLine (Line.at_ p.toNat t.toNat .backoff) (fun _ l => { l with st := .unsent }) s)) := by
  show execDeferredRetry p t s = _
  rw [execDeferredRetry, if_pos h]

/-- A response under a tag that no line stands under changes nothing. -/
theorem takeResponse_unknown (h : ∀ a ∈ s.accesses, ∀ l ∈ a.lines, outAt p t l = false) (k : Answer) (data : List Byte) :
    takeResponse p.toNat t.toNat k data s = s := by
  have hnone : (s.accesses.any fun a => a.lines.any (outAt p t)) = false :=
    List.any_eq_false.2 fun a ha => ne_true_of_eq_false <|
      List.any_eq_false.2 fun l hl => ne_true_of_eq_false (h a ha l hl)
  unfold takeResponse
  dsimp only
  rw [hnone]
  rfl

/-- A response to a line, by its kind. -/
theorem takeResponse_known (h : ∃ a ∈ s.accesses, ∃ l ∈ a.lines, outAt p t l = true) (k : Answer) (data : List Byte) :
    takeResponse p.toNat t.toNat k data s = match k with
      | .done => settleAccesses (onLine (outAt p t) (fun a l => answerLine a data l) s)
      | .deferred => settleAccesses (onLine (outAt p t) (fun _ l => deferLine s l) (bump R.STK_DEFER 1 s))
      | .error => settleAccesses (onLine (outAt p t) (fun _ l => { l with st := .gone St.STACK_ERR }) s) := by
  obtain ⟨a, ha, l, hl, hout⟩ := h
  have hsome : (s.accesses.any fun a => a.lines.any (outAt p t)) = true :=
    List.any_eq_true.2 ⟨a, ha, List.any_eq_true.2 ⟨l, hl, hout⟩⟩
  unfold takeResponse
  dsimp only
  rw [hsome]
  cases k <;> rfl

/-- A deferred line, MAX read as the low bits of STK_RETRY. -/
theorem deferLine_eq (s : State) (l : Line) : deferLine s l =
    if quiescing s l.loc then { l with st := .unsent, retries := 0 }
    else if reg s R.STK_RETRY % 32 ≤ l.retries then { l with st := .gone St.STACK_BUSY }
    else { l with st := .backoff, retries := l.retries + 1 } := by
  rw [deferLine, show regField s R.STK_RETRY 0 5 = reg s R.STK_RETRY % 32 by simp [regField, bits]]

/-- The answers of a port to a line that is on its way at it. -/
theorem memoryResponse_responded (htakes : portTakes s p.toNat = true)
    (h : ∃ a ∈ s.accesses, ∃ l ∈ a.lines, outAt p t l = true) (data : List Byte) :
    Responded s p t 0 (fun a l => answerLine a data l) (exec (.memoryResponse p t .done data) s)
    ∧ Responded s p t 0 (fun _ l => { l with st := .gone St.STACK_ERR }) (exec (.memoryResponse p t .error data) s)
    ∧ Responded s p t 1 (fun _ l =>
        if quiescing s l.loc then { l with st := .unsent, retries := 0 }
        else if reg s R.STK_RETRY % 32 ≤ l.retries then { l with st := .gone St.STACK_BUSY }
        else { l with st := .backoff, retries := l.retries + 1 }) (exec (.memoryResponse p t .deferred data) s) := by
  simp only [exec_memoryResponse_up htakes, takeResponse_known h, ← deferLine_eq]
  exact ⟨onLine_responded .., onLine_responded .., onLine_bump_responded ..⟩

/-- The back-off of a line that stands alone ends, and it is out under tag 0 of its port. -/
theorem deferredRetry_single (htakes : portTakes s p.toNat = true) {a : Access} {l : Line} (hs : s.accesses = [a])
    (hpaid : a.paid = true) (hlines : a.lines = [l]) (hbackoff : Line.at_ p.toNat t.toNat .backoff l = true)
    (hheld : lineHeld s [] [] a l = false) :
    Answers (exec (.deferredRetry p t) s) (fun u =>
      u.accesses = [a.ofLine (l.sentAt (portFor s l.loc) 0)] ∧ { u with accesses := s.accesses } = s) := by
  refine ⟨_, exec_deferredRetry_up htakes, ?_, (sendAll_rest ..).trans (onLine_rest ..)⟩
  have hready : (onLine (Line.at_ p.toNat t.toNat .backoff) (fun _ l => { l with st := .unsent }) s).accesses
      = [a.ofLine { l with st := .unsent }] := by
    simp [onLine, hs, hlines, hbackoff, Access.ofLine]
  exact sendAll_single (l := { l with st := .unsent }) hready hpaid rfl ((lineHeld_accesses ..).trans hheld)

end

/-! ### A memory link that fails (R394, Table 11.10) -/

theorem setReg_rest (off v : Nat) (s : State) (r : Tab Word32) :
    { setReg off v s with regs := r } = { s with regs := r } := rfl

theorem logFirst_rest (lo vlo hi vhi : Nat) (s : State) (r : Tab Word32) :
    { logFirst lo vlo hi vhi s with regs := r } = { s with regs := r } := by
  unfold logFirst
  split
  · rfl
  · exact (setReg_rest ..).trans (setReg_rest ..)

/-- The state in which a link has failed and its fault is noted, before lines move. -/
def linkFailed (p : Nat) (s : State) : State :=
  audFault 4 p 0 0 { s with power := { s.power with linkDown := s.power.linkDown ++ [p] } }

/-- Noting the fault changes registers alone. -/
theorem linkFailed_rest (p : Nat) (s : State) (r : Tab Word32) : { linkFailed p s with regs := r }
    = { s with power := { s.power with linkDown := s.power.linkDown ++ [p] }, regs := r } := logFirst_rest ..

theorem linkFailed_linkDown (p : Nat) (s : State) : (linkFailed p s).power.linkDown = s.power.linkDown ++ [p] := by
  have h := congrArg (fun u : State => u.power.linkDown) (linkFailed_rest p s s.regs)
  exact h

theorem linkFailed_build (p : Nat) (s : State) : (linkFailed p s).build = s.build := by
  have h := congrArg State.build (linkFailed_rest p s s.regs)
  exact h

theorem linkFailed_regs (p : Nat) (s : State) : RegsKept [R.AUD_FAULT_LO, R.AUD_FAULT_HI] s (linkFailed p s) := by
  intro k hk
  obtain ⟨hlo, hhi⟩ : k ≠ R.AUD_FAULT_LO ∧ k ≠ R.AUD_FAULT_HI := by simpa using hk
  rw [linkFailed, audFault, reg_logFirst_other _ _ _ hlo hhi]
  rfl

theorem linkFailed_onlyAccesses (p : Nat) (s : State) : OnlyAccesses s (linkFailed p s) := by
  have h := linkFailed_rest p s s.regs
  simp only [State.mk.injEq] at h
  constructor <;> simp only [h]

theorem portUp_linkFailed (p : Nat) (s : State) : portUp (linkFailed p s) p = false := by
  simp [portUp, linkFailed_linkDown]

theorem exec_memoryLinkError {s : State} {p : BitVec 3} (hpd : pdUp s 0 = true) (hlink : p.toNat ∉ s.power.linkDown)
    (hbuilt : p.toNat < memPorts s.build.size) :
    exec (.memoryLinkError p) s = .next (moveLines p.toNat (linkFailed p.toNat s)) := by
  have hgood : ¬ (!pdUp s 0 || s.power.linkDown.contains p.toNat || decide (memPorts s.build.size ≤ p.toNat)) = true := by
    simp [hpd, hlink, hbuilt]
  show execMemoryLinkError p s = _
  rw [execMemoryLinkError]
  exact if_neg hgood

theorem moveLines_onlyAccesses (p : Nat) (s : State) : OnlyAccesses s (moveLines p s) :=
  (OnlyAccesses.refl s).upd.trans (sendAll_onlyAccesses _)

theorem portUp_moveLines (p q : Nat) (s : State) : portUp (moveLines p s) q = portUp s q := rfl

theorem reg_moveLines (p off : Nat) (s : State) : reg (moveLines p s) off = reg s off := rfl

theorem portFor_moveLines (p loc : Nat) (s : State) : portFor (moveLines p s) loc = portFor s loc := rfl

/-- No line is on its way at a port out of service once its lines have moved. -/
theorem moveLines_leaves {s : State} {p : Nat} (h : portUp s p = false) :
    EveryLine (fun l => l.st = .out ∨ l.st = .backoff → l.port ≠ p) (moveLines p s).accesses := by
  refine sendAll_forall (fun l q t hup _ hq => ?_) (onLine_forall (fun a l _ hst => ?_) (fun l hl hst hp => ?_))
  · rw [show q = p from hq] at hup
    exact Bool.false_ne_true (h.symm.trans hup)
  · rcases hst with hst | hst <;> cases hst
  · simp [hp] at hl
    rcases hst with hst | hst
    · exact hl.1 hst
    · exact hl.2 hst

theorem portFor_partner {s : State} {p loc : Nat} (hdown : portUp s p = false)
    (hloc : loc % 16 % memPorts s.build.size = p) : portFor s loc = p ^^^ 1 := by
  have hown : bits loc 0 4 % memPorts s.build.size = p := by
    rw [show bits loc 0 4 = loc % 16 by simp [bits], hloc]
  rw [portFor, hown]
  exact if_neg (ne_true_of_eq_false hdown)

/-- A link that fails: what its port carried is its partner's. -/
theorem memoryLinkError_spec {s : State} {p : BitVec 3} (hpd : pdUp s 0 = true) (hlink : p.toNat ∉ s.power.linkDown)
    (hbuilt : p.toNat < memPorts s.build.size) :
    Answers (exec (.memoryLinkError p) s) (fun u => portUp u p.toNat = false
      ∧ (∀ loc, loc % 16 % memPorts s.build.size = p.toNat → portFor u loc = p.toNat ^^^ 1)
      ∧ EveryLine (fun l => l.st = .out ∨ l.st = .backoff → l.port ≠ p.toNat) u.accesses
      ∧ u.threads = s.threads ∧ u.streams = s.streams ∧ u.ledger = s.ledger
      ∧ RegsKept [R.AUD_FAULT_LO, R.AUD_FAULT_HI] s u) := by
  have hdown := portUp_linkFailed p.toNat s
  have hkept := (linkFailed_onlyAccesses p.toNat s).trans (moveLines_onlyAccesses p.toNat _)
  refine ⟨_, exec_memoryLinkError hpd hlink hbuilt, (portUp_moveLines ..).trans hdown, fun loc hloc => ?_,
    moveLines_leaves hdown, hkept.threads, hkept.streams, hkept.ledger, fun k hk => ?_⟩
  · rw [portFor_moveLines]
    exact portFor_partner hdown (by rw [linkFailed_build, hloc])
  · exact (reg_moveLines ..).trans (linkFailed_regs p.toNat s k hk)

/-! ### The obligation -/

/-- Settles O50: the answers to a line on its way, the end of a back-off (`sendAll_single`), and a link's failure, after
which no line is on its way at the port (`moveLines_leaves`). -/
theorem stackResponses : Obligations.StackResponses := by
  intro s p t
  dsimp only
  refine ⟨fun hport hclk => ?_, fun hdown => ?_, fun hpd hlink hbuilt => ?_⟩
  · have htakes := portTakes_of_up hport hclk
    refine ⟨fun h data => ?_, fun h k data => ?_, exec_deferredRetry_up htakes, fun a l hs hpaid hlines hbackoff hheld =>
      deferredRetry_single htakes hs hpaid hlines hbackoff hheld⟩
    · exact memoryResponse_responded htakes h data
    · rw [exec_memoryResponse_up htakes, takeResponse_unknown h]
  · have hoff := portTakes_of_down hdown
    exact ⟨exec_memoryResponse_down hoff, exec_deferredRetry_down hoff⟩
  · exact memoryLinkError_spec hpd hlink hbuilt

end Sys2Proof.Machine
end

section
/-!
PROOFS. The stack interface: quiescing a channel, and the settings of the interface.
-/

namespace Sys2Proof.Machine

/-! ### The channel (R355) -/

/-- A location lies on the channel that STK_QCHAN names. -/
def OnNamedChannel (s : State) (loc : Nat) : Prop :=
  loc % 16 = reg s R.STK_QCHAN % 16 ∧ loc / 2 ^ 9 % 16 = reg s R.STK_QCHAN / 2 ^ 4 % 16

theorem quiescing_iff (s : State) (loc : Nat) :
    quiescing s loc = true ↔ s.reserve.quiesce ≠ 0 ∧ OnNamedChannel s loc := by
  rw [quiescing, Bool.and_eq_true, Bool.and_eq_true, decide_eq_true_iff, decide_eq_true_iff, decide_eq_true_iff,
    and_assoc]
  simp only [OnNamedChannel, regField, bits, Nat.pow_zero, Nat.div_one, Nat.reducePow]

theorem quiescing_idle {s : State} (h : s.reserve.quiesce = 0) (loc : Nat) : quiescing s loc = false := by
  simp [quiescing, h]

/-- Every line to a quiesced channel is held. -/
theorem lineHeld_of_quiescing {s : State} {l : Line} (h : quiescing s l.loc = true) (before after : List Access)
    (a : Access) : lineHeld s before after a l = true := by
  simp [lineHeld, h]

/-! ### The start and its status -/

/-- STATUS of RSV_MSTAT. -/
theorem reg_startStatus {st : Nat} (hst : st < 256) (s : State) :
    reg (startStatus st s) R.RSV_MSTAT / 2 ^ 16 % 2 ^ 8 = st := by
  rw [startStatus, reg_setReg_same, setBits, bits]
  have h := reg_lt s R.RSV_MSTAT
  generalize reg s R.RSV_MSTAT = v at h
  omega

theorem reg_startStatus_other (st : Nat) (s : State) {off : Nat} (h : off ≠ R.RSV_MSTAT) :
    reg (startStatus st s) off = reg s off := reg_setReg_other _ _ h

/-- The activity of a quiesce fills nothing and leaves the scrub alone. -/
theorem beginActivity_quiesce {a : Activity} (h : a.code = Act.quiesce) (s : State) :
    beginActivity a s = { s with reserve := { s.reserve with acts := s.reserve.acts ++ [a] } } := by
  simp [beginActivity, fillFor, bankFilled, leaveBanks, h]

theorem exec_channelQuiesce {s : State} (hport : clkUp s 20 = true) : exec .channelQuiesce s
    = .next (driverStart (quiesceAct s) startDraining { s with regOut := 0 }) := by
  show execChannelQuiesce s = _
  rw [execChannelQuiesce, viaPort_up hport]
  rfl

theorem holder_regOut (s : State) (a : Activity) (x : Word32) : holder { s with regOut := x } a = holder s a := rfl

/-- A quiesce that nothing conflicts with has begun. -/
def quiesceBegun (s : State) : State :=
  startDraining { s with regOut := 0, reserve := { s.reserve with acts := s.reserve.acts ++ [quiesceAct s] } }

theorem exec_channelQuiesce_free {s : State} (hport : clkUp s 20 = true) (h : holder s (quiesceAct s) = none) :
    exec .channelQuiesce s = .next (startStatus St.OK (quiesceBegun s)) := by
  rw [exec_channelQuiesce hport, driverStart, holder_regOut, h]
  dsimp only
  rw [beginActivity_quiesce rfl]
  rfl

theorem exec_channelQuiesce_refused {s : State} {h : Activity} (hport : clkUp s 20 = true)
    (hh : holder s (quiesceAct s) = some h) : exec .channelQuiesce s
      = .next (startStatus St.BUSY_MAINT (refuseStart h Act.quiesce { s with regOut := 0 })) := by
  rw [exec_channelQuiesce hport, driverStart, holder_regOut, hh]
  rfl

theorem onLine_lengths (p : Line → Bool) (f : Access → Line → Line) (s : State) :
    (onLine p f s).accesses.map (fun a => a.lines.length) = s.accesses.map (fun a => a.lines.length) := by
  simp [onLine, Function.comp_def]

/-- What draining begins with, and the status of its start. -/
theorem channelQuiesce_free_spec {s : State} (hport : clkUp s 20 = true) (h : holder s (quiesceAct s) = none) :
    Answers (exec .channelQuiesce s) (fun u =>
      u.reserve.quiesce = 1 ∧ u.reserve.acts = s.reserve.acts ++ [quiesceAct s]
      ∧ reg u R.RSV_MSTAT / 2 ^ 16 % 2 ^ 8 = St.OK
      ∧ EveryLine (fun l => OnNamedChannel s l.loc → l.st ≠ .backoff) u.accesses
      ∧ u.accesses.map (fun a => a.lines.length) = s.accesses.map (fun a => a.lines.length)
      ∧ (∀ before after a l, OnNamedChannel s l.loc → lineHeld u before after a l = true)
      ∧ u.ledger = s.ledger ∧ u.streams = s.streams ∧ u.threads = s.threads) := by
  have hchan (loc : Nat) (hloc : OnNamedChannel s loc) : quiescing (quiesceBegun s) loc = true :=
    (quiescing_iff _ loc).2 ⟨Nat.one_ne_zero, hloc⟩
  refine ⟨_, exec_channelQuiesce_free hport h, rfl, rfl, reg_startStatus (by decide) _, ?_, onLine_lengths .., ?_,
    rfl, rfl, rfl⟩
  · refine onLine_forall (fun a l _ _ => nofun) (fun l hl hloc hst => ?_)
    have hq := hchan l.loc hloc
    simp only [hst, decide_true, Bool.true_and] at hl
    exact Bool.false_ne_true (hl.symm.trans hq)
  · intro before after a l hloc
    refine lineHeld_of_quiescing ((quiescing_iff _ _).2 ⟨Nat.one_ne_zero, ?_⟩) before after a
    rw [OnNamedChannel, reg_startStatus_other _ _ (by decide)]
    exact hloc

theorem refuseStart_rest (h : Activity) (req : Nat) (s : State) (r : Tab Word32) :
    { refuseStart h req s with regs := r } = { s with regs := r } := by
  have hcount : { bump R.RSV_REFUSED 1 s with regs := r } = { s with regs := r } := setReg_rest ..
  unfold refuseStart
  dsimp only
  split
  · exact hcount
  · exact (setReg_rest ..).trans hcount

theorem reg_refuseStart_refused (h : Activity) (req : Nat) (s : State) :
    reg (refuseStart h req s) R.RSV_REFUSED = satAdd 32 (reg s R.RSV_REFUSED) 1 := by
  unfold refuseStart
  dsimp only
  split
  · exact reg_bump_one ..
  · rw [reg_setReg_other _ _ (by decide), reg_bump_one]

theorem channelQuiesce_refused_spec {s : State} {h : Activity} (hport : clkUp s 20 = true)
    (hh : holder s (quiesceAct s) = some h) : Answers (exec .channelQuiesce s) (fun u =>
      u.reserve = s.reserve ∧ reg u R.RSV_MSTAT / 2 ^ 16 % 2 ^ 8 = St.BUSY_MAINT
      ∧ reg u R.RSV_REFUSED = satAdd 32 (reg s R.RSV_REFUSED) 1 ∧ u.accesses = s.accesses) := by
  have hrest := refuseStart_rest h Act.quiesce { s with regOut := 0 } s.regs
  have hreserve := congrArg State.reserve hrest
  have haccesses := congrArg State.accesses hrest
  refine ⟨_, exec_channelQuiesce_refused hport hh, hreserve, reg_startStatus (by decide) _, ?_, haccesses⟩
  rw [reg_startStatus_other _ _ (by decide), reg_refuseStart_refused]
  rfl

/-! ### Its drain and its end -/

theorem channelBusy_iff {s : State} (h : s.reserve.quiesce = 1) :
    channelBusy s = true ↔ ∃ a ∈ s.accesses, ∃ l ∈ a.lines, OnNamedChannel s l.loc ∧ l.st = .out := by
  simp only [channelBusy, List.any_eq_true, Bool.and_eq_true, decide_eq_true_eq, quiescing_iff, h, ne_eq, Nat.one_ne_zero,
    not_false_eq_true, true_and]
  simp only [and_comm]

theorem exec_channelQuiesceDrained {s : State} (h : s.reserve.quiesce = 1) : exec .channelQuiesceDrained s
    = .next (if channelBusy s then s else { s with reserve := { s.reserve with quiesce := 2 } }) := by
  show execChannelQuiesceDrained s = _
  rw [execChannelQuiesceDrained]
  cases hbusy : channelBusy s <;> simp [h]

theorem startAccess_reserve (cls : Nat) (bill : List (Nat × Nat)) (kind : ReqKind) (req : Nat) (lines : List Line)
    (job : Job) (s : State) : (startAccess cls bill kind req lines job s).reserve = s.reserve :=
  (startAccess_swept cls bill kind req lines job (Swept.refl s)).reserve

theorem wakeSpare_reserve (s : State) : (wakeSpare s).reserve = s.reserve := by
  unfold wakeSpare
  dsimp only
  split
  · split <;> rfl
  · rfl

theorem readGolden_reserve (bank : Nat) (s : State) : (readGolden bank s).reserve = s.reserve := by
  unfold readGolden
  extract_lets copy lines
  split
  · rfl
  · exact startAccess_reserve ..

/-- What an activity fills is no part of RESERVE's own state. -/
theorem fillFor_reserve (a : Activity) (s : State) : (fillFor a s).reserve = s.reserve := by
  unfold fillFor
  split
  · split
    · exact wakeSpare_reserve s
    · exact readGolden_reserve ..
  · rfl

theorem beginActivity_quiesceState (a : Activity) (s : State) :
    (beginActivity a s).reserve.quiesce = s.reserve.quiesce := by
  rw [beginActivity, fillFor_reserve, leaveBanks]
  split
  · rfl
  · split <;> rfl

/-- No activity that waited changes the state of the quiesce as it begins. -/
theorem endActivity_quiesceState (a : Activity) (s : State) :
    (endActivity a s).reserve.quiesce = s.reserve.quiesce := by
  have hwaits (xs : List Activity) (t : State) : (xs.foldl (fun s a => if (holder s a).isSome then s
      else beginActivity a { s with reserve := { s.reserve with waits := s.reserve.waits.erase a } }) t).reserve.quiesce
      = t.reserve.quiesce := by
    induction xs generalizing t with
    | nil => rfl
    | cons x xs ih =>
      rw [List.foldl_cons, ih]
      split
      · rfl
      · exact beginActivity_quiesceState ..
  exact hwaits _ _

theorem endActivity_none_waits {s : State} (h : s.reserve.waits = []) (a : Activity) :
    endActivity a s = { s with reserve := { s.reserve with acts := s.reserve.acts.erase a } } := by
  rw [endActivity, startWaiting]
  dsimp only
  rw [h]
  rfl

theorem exec_quiesceEnd {s : State} {a : Activity} (hport : clkUp s 20 = true)
    (ha : s.reserve.acts.find? (fun a => decide (a.code = Act.quiesce)) = some a) : exec .quiesceEnd s
      = .next (sendAll (endActivity a { s with regOut := 0, reserve := { s.reserve with quiesce := 0 } })) := by
  show execQuiesceEnd s = _
  rw [execQuiesceEnd, viaPort_up hport, endQuiesce]
  dsimp only
  rw [ha]

/-! ### The settings (R335) -/

/-- A register of the stack interface holds a value it was given, and nothing else is different but the read data. -/
def Stored (key val : Nat) (s t : State) : Prop :=
  reg t key = val ∧ RegsKept [key] s t ∧ { t with regs := s.regs } = { s with regOut := 0 }

theorem setReg_stored {key val : Nat} (h : val < 2 ^ 32) (s : State) :
    Stored key val s (setReg key val { s with regOut := 0 }) := by
  refine ⟨?_, fun k hk => ?_, rfl⟩
  · rw [reg_setReg_same, Nat.mod_eq_of_lt h]
  · exact reg_setReg_other _ _ (by simpa using hk)

theorem exec_stkConfigWrite {s : State} (hport : clkUp s 20 = true) (off : BitVec 16) (v : Word32) :
    exec (.stkConfigWrite off v) s = .next (if isStkConfig off.toNat
      then writeStk off.toNat v.toNat { s with regOut := 0 } else { s with regOut := 0 }) := by
  show execStkConfigWrite off v s = _
  rw [execStkConfigWrite, viaPort_up hport]

section

variable {s : State} {v : Nat}

theorem writeStk_refused (h : stackSettable s = false) (off : Nat) : writeStk off v s = stkError s := by
  simp [writeStk, h]

theorem writeStk_geom (h : stackSettable s = true) :
    writeStk R.STK_GEOM v s = if geomGood v then storeReg R.STK_GEOM v s else stkError s := by
  simp [writeStk, h]

theorem writeStk_hashLo (h : stackSettable s = true) : writeStk R.STK_HASH_LO v s = writeHash 0 v s := by
  simp [writeStk, h]

theorem writeStk_hashHi (h : stackSettable s = true) : writeStk R.STK_HASH_HI v s = writeHash 1 (v % 2 ^ 10) s := by
  simp [writeStk, h]

theorem writeStk_rbaseLo (h : stackSettable s = true) :
    writeStk R.STK_RBASE_LO v s = setReg (regionKey (regionSel s)) (v / 65536 * 65536) s := by
  simp [writeStk, h]

theorem writeStk_rbaseHi (h : stackSettable s = true) :
    writeStk R.STK_RBASE_HI v s = setReg (regionKey (regionSel s) + 1) (v % 65536) s := by
  simp [writeStk, h]

theorem writeStk_rsize (h : stackSettable s = true) : writeStk R.STK_RSIZE v s
    = if v ≠ 0 ∧ v < regionMin s (regionSel s) then stkError s else setReg (regionKey (regionSel s) + 2) v s := by
  simp [writeStk, h]

theorem geomGood_iff (v : Nat) :
    geomGood v = true ↔ 33 ≤ v % 64 ∧ v % 64 ≤ 44 ∧ 12 ≤ v / 64 % 32 ∧ v / 64 % 32 ≤ 22 := by
  simp only [geomGood, Bool.and_eq_true, decide_eq_true_eq, and_assoc]
  simp only [bits, Nat.pow_zero, Nat.div_one, Nat.reducePow]

theorem hashSel_eq (s : State) : hashSel s = reg s R.STK_HSEL % 16 := by
  simp [hashSel, regField, bits]

theorem regionSel_eq (s : State) : regionSel s = reg s R.STK_RSEL % 8 := by
  simp [regionSel, regField, bits]

theorem writeHash_taken (h : Nat) (hlock : s.kcw.hashLock = false) (hrow : hashSel s ≤ 8) :
    writeHash h v s = setReg (hashKey (hashSel s) + h) v s := by
  simp [writeHash, hlock, hrow]

theorem writeHash_refused (h : Nat) (hno : s.kcw.hashLock = true ∨ 8 < hashSel s) : writeHash h v s = stkError s :=
  if_pos (by simpa using hno)

end

/-- The fields of STK_GEOM that a write stores are those of the value. -/
theorem geom_stored_fields (r : Nat) {v : Nat} (hv : v < 2 ^ 32) :
    let y := (r &&& 0xF800) ||| (v &&& 0xFFFF07FF)
    y % 2 ^ 11 = v % 2 ^ 11 ∧ y / 2 ^ 16 = v / 2 ^ 16 := by
  have hlow : v % 2 ^ 11 &&& 2 ^ 11 - 1 = v % 2 ^ 11 := Nat.and_two_pow_sub_one_of_lt_two_pow (Nat.mod_lt _ (by decide))
  have hhigh : v / 2 ^ 16 &&& 2 ^ 16 - 1 = v / 2 ^ 16 := Nat.and_two_pow_sub_one_of_lt_two_pow (by omega)
  constructor
  · rw [Nat.or_mod_two_pow, Nat.and_mod_two_pow, Nat.and_mod_two_pow (a := v)]
    simpa using hlow
  · rw [Nat.or_div_two_pow, Nat.and_div_two_pow, Nat.and_div_two_pow (a := v)]
    simpa using hhigh

theorem storeReg_geom (v : Nat) (s : State) : storeReg R.STK_GEOM v s = setReg R.STK_GEOM
    (((reg s R.STK_GEOM &&& 0xF800) ||| (v &&& 0xFFFF07FF)) &&& (0xFFFFFFFF - (v &&& 0))) s := rfl

theorem reg_storeReg_geom {v : Nat} (hv : v < 2 ^ 32) (s : State) :
    let u := storeReg R.STK_GEOM v s
    reg u R.STK_GEOM % 2 ^ 11 = v % 2 ^ 11 ∧ reg u R.STK_GEOM / 2 ^ 16 = v / 2 ^ 16 := by
  obtain ⟨hlow, hhigh⟩ := geom_stored_fields (reg s R.STK_GEOM) hv
  dsimp only at hlow hhigh ⊢
  rw [storeReg_geom, reg_setReg_same, Nat.and_zero, Nat.sub_zero, show 0xFFFFFFFF = 2 ^ 32 - 1 by rfl,
    Nat.and_two_pow_sub_one_eq_mod, Nat.mod_mod]
  generalize (reg s R.STK_GEOM &&& 0xF800) ||| (v &&& 0xFFFF07FF) = y at hlow hhigh
  omega

/-- A write that sets STK_STAT.CFG_ERR and is ignored but for the read data. -/
def Ignored (s : State) (o : Host.Outcome State Fault Refusal) : Prop :=
  o = .next (setReg R.STK_STAT (reg s R.STK_STAT ||| 1) { s with regOut := 0 })

/-- A write of a half of the hash row that STK_HSEL names. -/
theorem writeHash_spec (s : State) (half : Nat) {x : Nat} (hx : x < 2 ^ 32) :
    let o : Host.Outcome State Fault Refusal := .next (writeHash half x { s with regOut := 0 })
    let j := reg s R.STK_HSEL % 16
    (s.kcw.hashLock = false → j ≤ 8 → Answers o (Stored (hashKey j + half) x s))
    ∧ (s.kcw.hashLock = true ∨ 8 < j → Ignored s o) := by
  have hrow : hashSel { s with regOut := 0 } = reg s R.STK_HSEL % 16 := hashSel_eq _
  refine ⟨fun hlock hj => ?_, fun hno => ?_⟩
  · rw [writeHash_taken (s := { s with regOut := 0 }) half hlock (hrow.le.trans hj), hrow]
    exact ⟨_, rfl, setReg_stored hx s⟩
  · rw [writeHash_refused (s := { s with regOut := 0 }) half (by rwa [hrow])]
    rfl

section

variable {s : State} {off : BitVec 16} {v : Word32}

/-- A write of a register of R335. -/
theorem exec_stkConfigWrite_at (hport : clkUp s 20 = true) {k : Nat} (hk : isStkConfig k = true) (hoff : off.toNat = k) :
    exec (.stkConfigWrite off v) s = .next (writeStk k v.toNat { s with regOut := 0 }) := by
  rw [exec_stkConfigWrite hport, hoff, if_pos hk]

theorem stkConfigWrite_unsettable (hport : clkUp s 20 = true) (hoff : isStkConfig off.toNat = true)
    (h : stackSettable s = false) : Ignored s (exec (.stkConfigWrite off v) s) := by
  rw [exec_stkConfigWrite_at hport hoff rfl, writeStk_refused (s := { s with regOut := 0 }) h]
  rfl

variable (hport : clkUp s 20 = true) (h : stackSettable s = true)
include hport h

/-- STK_GEOM takes a value in range. -/
theorem stkConfigWrite_geom (hoff : off.toNat = R.STK_GEOM) :
    (geomGood v.toNat = true → Answers (exec (.stkConfigWrite off v) s) (fun u =>
        reg u R.STK_GEOM % 2 ^ 11 = v.toNat % 2 ^ 11 ∧ reg u R.STK_GEOM / 2 ^ 16 = v.toNat / 2 ^ 16
        ∧ RegsKept [R.STK_GEOM] s u ∧ { u with regs := s.regs } = { s with regOut := 0 }))
    ∧ (geomGood v.toNat = false → Ignored s (exec (.stkConfigWrite off v) s)) := by
  rw [exec_stkConfigWrite_at hport (by decide) hoff, writeStk_geom (s := { s with regOut := 0 }) h]
  refine ⟨fun hgood => ?_, fun hbad => ?_⟩
  · obtain ⟨hlow, hhigh⟩ := reg_storeReg_geom v.isLt { s with regOut := 0 }
    rw [if_pos hgood]
    exact ⟨_, rfl, hlow, hhigh, storeReg_regs _ _ { s with regOut := 0 }, storeReg_rest _ _ { s with regOut := 0 }⟩
  · rw [hbad]
    rfl

theorem stkConfigWrite_hashLo (hoff : off.toNat = R.STK_HASH_LO) :
    exec (.stkConfigWrite off v) s = .next (writeHash 0 v.toNat { s with regOut := 0 }) := by
  rw [exec_stkConfigWrite_at hport (by decide) hoff, writeStk_hashLo (s := { s with regOut := 0 }) h]

theorem stkConfigWrite_hashHi (hoff : off.toNat = R.STK_HASH_HI) :
    exec (.stkConfigWrite off v) s = .next (writeHash 1 (v.toNat % 2 ^ 10) { s with regOut := 0 }) := by
  rw [exec_stkConfigWrite_at hport (by decide) hoff, writeStk_hashHi (s := { s with regOut := 0 }) h]

/-- The low half of the base of the region that STK_RSEL names. -/
theorem stkConfigWrite_rbaseLo (hoff : off.toNat = R.STK_RBASE_LO) : Answers (exec (.stkConfigWrite off v) s)
    (Stored (regionKey (reg s R.STK_RSEL % 8)) (v.toNat / 65536 * 65536) s) := by
  rw [exec_stkConfigWrite_at hport (by decide) hoff, writeStk_rbaseLo (s := { s with regOut := 0 }) h, regionSel_eq]
  exact ⟨_, rfl, setReg_stored ((Nat.div_mul_le_self ..).trans_lt v.isLt) s⟩

/-- The high half of its base. -/
theorem stkConfigWrite_rbaseHi (hoff : off.toNat = R.STK_RBASE_HI) : Answers (exec (.stkConfigWrite off v) s)
    (Stored (regionKey (reg s R.STK_RSEL % 8) + 1) (v.toNat % 65536) s) := by
  rw [exec_stkConfigWrite_at hport (by decide) hoff, writeStk_rbaseHi (s := { s with regOut := 0 }) h, regionSel_eq]
  exact ⟨_, rfl, setReg_stored ((Nat.mod_le ..).trans_lt v.isLt) s⟩

/-- Its size: 0, or at least the least size of the region. -/
theorem stkConfigWrite_rsize (hoff : off.toNat = R.STK_RSIZE) :
    (v.toNat = 0 ∨ regionMin s (reg s R.STK_RSEL % 8) ≤ v.toNat → Answers (exec (.stkConfigWrite off v) s)
      (Stored (regionKey (reg s R.STK_RSEL % 8) + 2) v.toNat s))
    ∧ (v.toNat ≠ 0 ∧ v.toNat < regionMin s (reg s R.STK_RSEL % 8) → Ignored s (exec (.stkConfigWrite off v) s)) := by
  rw [exec_stkConfigWrite_at hport (by decide) hoff, writeStk_rsize (s := { s with regOut := 0 }) h, regionSel_eq]
  refine ⟨fun hgood => ?_, fun hbad => ?_⟩
  · have htaken : ¬ (v.toNat ≠ 0 ∧ v.toNat < regionMin s (reg s R.STK_RSEL % 8)) := by omega
    exact ⟨_, congrArg _ (if_neg htaken), setReg_stored v.isLt s⟩
  · exact congrArg _ (if_pos hbad)

end

/-- Settles O51: the start, the drain and the end of a quiesce, and each register that STK_CONFIG_WRITE writes. -/
theorem quiesceAndStackConfig : Obligations.QuiesceAndStackConfig := by
  intro s hport
  dsimp only
  refine ⟨channelQuiesce_free_spec hport, fun h hh => channelQuiesce_refused_spec hport hh, fun hq => ⟨fun hidle => ?_,
    fun hbusy => ?_⟩, fun a ha => ⟨⟨_, exec_quiesceEnd hport ha, ?_, fun loc => ?_⟩, fun hwaits => ?_⟩,
    fun off v => ⟨fun hoff => ?_, stkConfigWrite_unsettable hport, fun h => ⟨fun hoff => ?_, fun hoff => ?_,
      fun hoff => ?_, stkConfigWrite_rbaseLo hport h, stkConfigWrite_rbaseHi hport h, stkConfigWrite_rsize hport h⟩⟩⟩
  · have hfree : channelBusy s = false := by
      rw [← Bool.not_eq_true, channelBusy_iff hq]
      exact fun ⟨a, ha, l, hl, hchan, hout⟩ => hidle a ha l hl hchan hout
    rw [exec_channelQuiesceDrained hq, hfree]
    rfl
  · rw [exec_channelQuiesceDrained hq, (channelBusy_iff hq).2 hbusy]
    rfl
  · exact endActivity_quiesceState ..
  · exact quiescing_idle (endActivity_quiesceState ..) loc
  · rw [exec_quiesceEnd hport ha]
    exact congrArg (fun u => Host.Outcome.next (sendAll u)) (endActivity_none_waits (by exact hwaits) a)
  · rw [exec_stkConfigWrite hport, hoff]
    rfl
  · obtain ⟨htaken, hignored⟩ := stkConfigWrite_geom (v := v) hport h hoff
    refine ⟨fun hgood => htaken ((geomGood_iff _).2 ?_), fun hbad => hignored ?_⟩
    · exact ⟨hgood.1, hgood.2⟩
    · rw [← Bool.not_eq_true, geomGood_iff]
      omega
  · rw [stkConfigWrite_hashLo hport h hoff]
    exact writeHash_spec s 0 v.isLt
  · rw [stkConfigWrite_hashHi hport h hoff]
    exact writeHash_spec s 1 ((Nat.mod_le ..).trans_lt v.isLt)

end Sys2Proof.Machine
end

section
/-!
PROOFS. The queues of the LEDGER: what a write to one queue leaves of the others, the log of refused settlements, what
joins queues 0 and 1, what QUEUE_POP, QUEUE_FLUSH and the trace port take out, and the age of queue 0.
-/

namespace Sys2Proof.Machine

/-! ### The four queues -/

/-- A write to one of the four queues is read from that queue alone. -/
theorem queueN_setQueueN {q k : Nat} (hq : q < 4) (hk : k < 4) (es : List (Bool × Nat)) (s : State) :
    queueN (setQueueN q es s) k = if k = q then es else queueN s k := by
  interval_cases q <;> interval_cases k <;> rfl

theorem queueN_setUnwritten (q n k : Nat) (s : State) : queueN (setUnwritten q n s) k = queueN s k := by
  unfold setUnwritten
  split <;> rfl

theorem queueN_setReg (off v k : Nat) (s : State) : queueN (setReg off v s) k = queueN s k := rfl

theorem reg_setQueueN (q : Nat) (es : List (Bool × Nat)) (s : State) (off : Nat) :
    reg (setQueueN q es s) off = reg s off := by
  unfold setQueueN
  split <;> rfl

theorem reg_setUnwritten (q n : Nat) (s : State) (off : Nat) : reg (setUnwritten q n s) off = reg s off := by
  unfold setUnwritten
  split <;> rfl

theorem frontUnwritten_of_empty {s : State} {q : Nat} (h : queueN s q = []) : frontUnwritten s q = false := by
  rw [frontUnwritten, h]
  rfl

theorem queueSel_eq (s : State) : queueSel s = reg s R.LDG_QSEL % 4 := by
  simp [queueSel, regField, bits]

theorem queueSel_lt (s : State) : queueSel s < 4 := Nat.mod_lt _ (by decide)

/-! ### An entry as it is read (R385) -/

theorem queueWord_eq (e : Bool × Nat) : queueWord e = e.2 % 2 ^ 62 + (if e.1 then 2 ^ 62 else 0) := by
  rw [queueWord, flag, ite_mul, one_mul, zero_mul]

theorem queueWord_lt (e : Bool × Nat) : queueWord e < 2 ^ 63 := by
  rw [queueWord_eq]
  split <;> omega

/-! ### The log of refused settlements (Table 11.20) -/

theorem ldgErr_rest (st queue n : Nat) (s : State) (r : Tab Word32) :
    { ldgErr st queue n s with regs := r } = { s with regs := r } := logFirst_rest ..

/-- A refusal that finds the log empty is recorded there. -/
theorem reg_ldgErr {s : State} {st queue : Nat} (hst : st < 2 ^ 8) (hqueue : queue < 4)
    (hempty : (reg s R.LDG_ERR_LO).testBit 31 = false) (n : Nat) :
    reg (ldgErr st queue n s) R.LDG_ERR_LO = st + queue * 2 ^ 8 + 2 ^ 31
      ∧ reg (ldgErr st queue n s) R.LDG_ERR_HI = n % 2 ^ 32 := by
  rw [ldgErr, logFirst, show bit (reg s R.LDG_ERR_LO) 31 = false from hempty, if_neg Bool.false_ne_true]
  constructor
  · rw [reg_setReg_other _ _ (by decide), reg_setReg_same]
    omega
  · rw [reg_setReg_same, Nat.mod_mod]

theorem reg_ldgErr_other {off : Nat} (st queue n : Nat) (s : State) (hlo : off ≠ R.LDG_ERR_LO)
    (hhi : off ≠ R.LDG_ERR_HI) : reg (ldgErr st queue n s) off = reg s off := reg_logFirst_other _ _ s hlo hhi

/-! ### What joins a queue (R371, R372) -/

/-- Of a packet that joins queue 0, only how much of it is written depends on CUT (R388). -/
theorem cutThrough_queue0 (m : Nat) (s : State) : ∃ k f,
    cutThrough 0 m s = { s with queue0 := { s.queue0 with unwritten := k }, free := f } := by
  unfold cutThrough
  dsimp only
  split
  · exact ⟨0, s.free, rfl⟩
  · exact ⟨_, _, rfl⟩

theorem completionPacket_spec {s : State} {h n : Nat} {rest : List (Nat × Nat)}
    (hwait : s.ledger.packets = (h, n) :: rest) (hup : ledgerUp s = true) (hroom : s.queue0.entries.length + 2 ≤ 8192) :
    Answers (exec .completionPacket s) (fun u =>
      u.queue0.entries = s.queue0.entries ++ [(true, h), (false, n % 2 ^ 62)]
      ∧ u.ledger = { s.ledger with packets := rest }
      ∧ { u with queue0 := s.queue0, free := s.free, ledger := s.ledger } = s) := by
  have hfits : ¬ queueCap 0 < s.queue0.entries.length + 2 := Nat.not_lt.2 hroom
  obtain ⟨k, f, hcut⟩ := cutThrough_queue0 2 (setQueueN 0 (s.queue0.entries ++ [(true, h), (false, n % 2 ^ 62)])
    { s with ledger := { s.ledger with packets := rest } })
  have hexec : exec .completionPacket s = .next (cutThrough 0 2
      (setQueueN 0 (s.queue0.entries ++ [(true, h), (false, n % 2 ^ 62)])
        { s with ledger := { s.ledger with packets := rest } })) := by
    show execCompletionPacket s = _
    rw [execCompletionPacket, hwait]
    dsimp only
    rw [hup, decide_eq_false hfits]
    rfl
  rw [hcut] at hexec
  exact ⟨_, hexec, rfl, rfl, rfl⟩

/-- The number that a write of LDG_SETTLED_HI puts at the end of queue 1 (Table 11.8). -/
def pushedNumber (hi : Word32) (s : State) : Nat := reg s R.LDG_SETTLED_LO + 2 ^ 32 * (hi.toNat % 2 ^ 30)

section

variable {s : State} {hi : Word32} (hport : clkUp s 20 = true) (hup : ledgerUp s = true)
include hport hup

theorem exec_settlePush : exec (.settlePush hi) s = .next
    (if 1024 ≤ s.queue1.entries.length
      then ldgErr St.OVERRUN 1 (pushedNumber hi s) (setReg (qovrKey 1) 1 { s with regOut := 0 })
      else setQueueN 1 (s.queue1.entries ++ [(false, pushedNumber hi s)]) { s with regOut := 0 }) := by
  show execSettlePush hi s = _
  rw [execSettlePush, viaPort_up hport]
  dsimp only
  rw [show ledgerUp { s with regOut := 0 } = true from hup]
  exact (apply_ite Host.Outcome.next _ _ _).symm

theorem settlePush_taken (hroom : s.queue1.entries.length < 1024) : Answers (exec (.settlePush hi) s) (fun u =>
    u.queue1.entries = s.queue1.entries ++ [(false, pushedNumber hi s)]
    ∧ { u with queue1 := s.queue1 } = { s with regOut := 0 }) := by
  rw [exec_settlePush hport hup, if_neg (Nat.not_le.2 hroom)]
  exact ⟨_, rfl, rfl, rfl⟩

theorem settlePush_full (hfull : 1024 ≤ s.queue1.entries.length) : Answers (exec (.settlePush hi) s) (fun u =>
    reg u (qovrKey 1) = 1
    ∧ ((reg s R.LDG_ERR_LO).testBit 31 = false → reg u R.LDG_ERR_LO = 0x23 + 1 * 2 ^ 8 + 2 ^ 31
      ∧ reg u R.LDG_ERR_HI = pushedNumber hi s % 2 ^ 32)
    ∧ { u with regs := s.regs } = { s with regOut := 0 }) := by
  rw [exec_settlePush hport hup, if_pos hfull]
  refine ⟨_, rfl, ?_, fun hempty => reg_ldgErr (by decide) (by decide) ?_ _, ldgErr_rest ..⟩
  · exact (reg_ldgErr_other _ _ _ _ (by decide) (by decide)).trans (reg_setReg_same ..)
  · rw [reg_setReg_other _ _ (by decide)]
    exact hempty

end

/-! ### QUEUE_POP (R389) -/

/-- The front of queue 0 counts no longer among the entries that have stood there for 10 microseconds. -/
def ageTaken (s : State) : State :=
  if queueSel s = 0 then { s with ledger := { s.ledger with aged := s.ledger.aged - 1 } } else s

theorem queueN_ageTaken (s : State) (k : Nat) : queueN (ageTaken s) k = queueN s k := by
  unfold ageTaken
  split <;> rfl

theorem queueSel_ageTaken (s : State) : queueSel (ageTaken s) = queueSel s := by
  unfold ageTaken
  split <;> rfl

theorem popQueue_empty {s : State} (hup : queueUp s (queueSel s) = true) (hq : queueN s (queueSel s) = []) :
    popQueue s = { setReg R.LDG_QPOP_HI 0x80000000 s with regOut := 0 } := by
  rw [popQueue, hup, frontUnwritten_of_empty hq, hq, ite_self]
  rfl

section

variable {t u : State} {x : Word32} (h : u = { t with regOut := x })
include h

theorem reg_of_readData (off : Nat) : reg u off = reg t off := by
  rw [h]
  rfl

theorem queueN_of_readData (k : Nat) : queueN u k = queueN t k := by
  rw [h]
  rfl

end

theorem reg_latchHi (off v k : Nat) (s : State) : reg (latchHi off v s) k = reg s k := rfl

theorem queueN_latchHi (off v k : Nat) (s : State) : queueN (latchHi off v s) k = queueN s k := rfl

/-- The latch of the pair is all that a read of LDG_QPOP_LO changes besides what the pop changes. -/
theorem readPop_shows (s : State) : (readPop s).regOut = (popQueue s).regOut
    ∧ (∀ off, reg (readPop s) off = reg (popQueue s) off) ∧ ∀ k, queueN (readPop s) k = queueN (popQueue s) k := by
  unfold readPop
  dsimp only
  generalize popQueue s = t
  exact ⟨rfl, fun _ => reg_latchHi .., fun _ => queueN_latchHi ..⟩

theorem exec_queuePop {s : State} (hport : clkUp s 20 = true) : exec .queuePop s = .next (readPop s) := if_pos hport

section

variable {s : State} {e : Bool × Nat} {rest : List (Bool × Nat)} (hup : queueUp s (queueSel s) = true)
  (hwritten : frontUnwritten s (queueSel s) = false) (hq : queueN s (queueSel s) = e :: rest)
  (htrace : queueSel s = 3 → (reg s R.DBG_CTRL).testBit 1 = false)
include hup hwritten hq htrace

theorem popQueue_entry : popQueue s = { setReg R.LDG_QPOP_HI (queueWord e / 2 ^ 32)
    (setQueueN (queueSel (ageTaken s)) rest (ageTaken s)) with regOut := BitVec.ofNat 32 (queueWord e) } := by
  have hhere : ¬ (queueSel s = 3 ∧ bit (reg s R.DBG_CTRL) 1 = true) :=
    fun ⟨h3, hbit⟩ => Bool.false_ne_true ((htrace h3).symm.trans hbit)
  rw [popQueue, hup, hwritten, if_neg hhere, hq]
  rfl

theorem readPop_regs : (readPop s).regOut = BitVec.ofNat 32 (queueWord e)
    ∧ reg (readPop s) R.LDG_QPOP_HI = queueWord e / 2 ^ 32 % 2 ^ 32 := by
  have hpop := popQueue_entry hup hwritten hq htrace
  obtain ⟨hout, hreg, -⟩ := readPop_shows s
  constructor
  · rw [hout, hpop]
  · rw [hreg, reg_of_readData hpop, reg_setReg_same]

theorem queueN_readPop {k : Nat} (hk : k < 4) :
    queueN (readPop s) k = if k = queueSel s then rest else queueN s k := by
  have hpop := popQueue_entry hup hwritten hq htrace
  rw [(readPop_shows s).2.2, queueN_of_readData hpop, queueN_setReg, queueSel_ageTaken,
    queueN_setQueueN (queueSel_lt s) hk, queueN_ageTaken]

/-- The value read and LDG_QPOP_HI together are the entry. -/
theorem readPop_word : (readPop s).regOut.toNat + 2 ^ 32 * reg (readPop s) R.LDG_QPOP_HI = queueWord e := by
  obtain ⟨hlo, hhi⟩ := readPop_regs hup hwritten hq htrace
  have hlt := queueWord_lt e
  rw [hlo, hhi, BitVec.toNat_ofNat]
  omega

theorem queuePop_entry (hport : clkUp s 20 = true) : Answers (exec .queuePop s) (fun u =>
    u.regOut.toNat + 2 ^ 32 * reg u R.LDG_QPOP_HI = queueWord e
    ∧ queueN u (queueSel s) = rest ∧ ∀ k, k < 4 → k ≠ queueSel s → queueN u k = queueN s k) :=
  ⟨_, exec_queuePop hport, readPop_word hup hwritten hq htrace,
    (queueN_readPop hup hwritten hq htrace (queueSel_lt s)).trans (if_pos rfl),
    fun _ hk hne => (queueN_readPop hup hwritten hq htrace hk).trans (if_neg hne)⟩

end

theorem queuePop_empty {s : State} (hport : clkUp s 20 = true) (hup : queueUp s (queueSel s) = true)
    (hq : queueN s (queueSel s) = []) : Answers (exec .queuePop s) (fun u =>
      u.regOut = 0 ∧ reg u R.LDG_QPOP_HI = 2 ^ 31 ∧ ∀ k, k < 4 → queueN u k = queueN s k) := by
  have hpop := popQueue_empty hup hq
  obtain ⟨hout, hreg, hqueues⟩ := readPop_shows s
  refine ⟨_, exec_queuePop hport, ?_, ?_, fun k _ => ?_⟩
  · rw [hout, hpop]
  · rw [hreg, reg_of_readData hpop]
    exact reg_setReg_same ..
  · rw [hqueues, queueN_of_readData hpop, queueN_setReg]

/-! ### QUEUE_FLUSH (R386, R387) -/

/-- Queue `q` emptied; of queue 0 the complete unsettled items are announced again. -/
def queueFlushed (q : Nat) (s : State) : State :=
  let t := setUnwritten q 0 (setQueueN q [] s)
  if q = 0 then { t with ledger := { t.ledger with packets := announced t, aged := 0 } } else t

theorem queueN_queueFlushed {q k : Nat} (hq : q < 4) (hk : k < 4) (s : State) :
    queueN (queueFlushed q s) k = if k = q then [] else queueN s k := by
  have hempty : queueN (queueFlushed q s) k = queueN (setUnwritten q 0 (setQueueN q [] s)) k := by
    unfold queueFlushed
    dsimp only
    split <;> rfl
  rw [hempty, queueN_setUnwritten, queueN_setQueueN hq hk]

theorem reg_queueFlushed (q : Nat) (s : State) (off : Nat) : reg (queueFlushed q s) off = reg s off := by
  have hempty : reg (queueFlushed q s) off = reg (setUnwritten q 0 (setQueueN q [] s)) off := by
    unfold queueFlushed
    dsimp only
    split <;> rfl
  rw [hempty, reg_setUnwritten, reg_setQueueN]

section

variable {s : State} (hport : clkUp s 20 = true) (v : Word32)
include hport

theorem exec_queueFlush_refused (hover : v.toNat.testBit 0 = true) (hq : queueSel s < 2) : exec (.queueFlush v) s
    = .next (setReg R.LDG_STAT (reg s R.LDG_STAT ||| 1) { s with regOut := 0 }) := by
  show execQueueFlush v s = _
  rw [execQueueFlush, viaPort_up hport]
  dsimp only
  rw [show bit v.toNat 0 = true from hover, show queueSel { s with regOut := 0 } = queueSel s from rfl,
    decide_eq_true hq]
  rfl

theorem exec_queueFlush (hok : v.toNat.testBit 0 = false ∨ 2 ≤ queueSel s) :
    let t := setReg (qcfgKey (queueSel s)) (v.toNat % 128) { s with regOut := 0 }
    exec (.queueFlush v) s
      = .next (if v.toNat.testBit 7 && queueUp s (queueSel s) then queueFlushed (queueSel s) t else t) := by
  have htaken : (bit v.toNat 0 && decide (queueSel s < 2)) = false := by
    rcases hok with hoff | hq
    · rw [show bit v.toNat 0 = false from hoff, Bool.false_and]
    · rw [decide_eq_false (Nat.not_lt.2 hq), Bool.and_false]
  show execQueueFlush v s = _
  rw [execQueueFlush, viaPort_up hport]
  dsimp only
  rw [show queueSel { s with regOut := 0 } = queueSel s from rfl, htaken, if_neg Bool.false_ne_true]
  exact (apply_ite Host.Outcome.next _ _ _).symm

/-- The settings that a write of LDG_QCFG stores, and what FLUSH does to each queue. -/
theorem queueFlush_spec (hok : v.toNat.testBit 0 = false ∨ 2 ≤ queueSel s) :
    Answers (exec (.queueFlush v) s) (fun u =>
    reg u (qcfgKey (queueSel s)) = v.toNat % 128 ∧ RegsKept [qcfgKey (queueSel s)] s u
    ∧ (v.toNat.testBit 7 = true → queueUp s (queueSel s) = true → queueN u (queueSel s) = []
        ∧ (queueSel s = 0 → u.ledger.packets = announced s))
    ∧ (v.toNat.testBit 7 = false ∨ queueUp s (queueSel s) = false →
        { u with regs := s.regs } = { s with regOut := 0 })
    ∧ ∀ k, k < 4 → k ≠ queueSel s → queueN u k = queueN s k) := by
  have hsame : reg (setReg (qcfgKey (queueSel s)) (v.toNat % 128) { s with regOut := 0 }) (qcfgKey (queueSel s))
      = v.toNat % 128 := by
    rw [reg_setReg_same]
    omega
  have hkept : RegsKept [qcfgKey (queueSel s)] s
      (setReg (qcfgKey (queueSel s)) (v.toNat % 128) { s with regOut := 0 }) :=
    fun off hoff => reg_setReg_other _ _ (by simpa using hoff)
  rw [exec_queueFlush hport v hok]
  cases hflush : v.toNat.testBit 7 && queueUp s (queueSel s) with
  | false =>
    rw [Bool.and_eq_false_iff] at hflush
    refine ⟨_, rfl, hsame, hkept, fun h7 hup => ?_, fun _ => rfl, fun _ _ _ => rfl⟩
    simp [h7, hup] at hflush
  | true =>
    rw [Bool.and_eq_true] at hflush
    obtain ⟨h7, hup⟩ := hflush
    refine ⟨_, rfl, (reg_queueFlushed ..).trans hsame, fun off hoff => (reg_queueFlushed ..).trans (hkept off hoff),
      fun _ _ => ⟨?_, fun h0 => ?_⟩, fun hno => ?_, fun k hk hne => ?_⟩
    · exact (queueN_queueFlushed (queueSel_lt s) (queueSel_lt s) _).trans (if_pos rfl)
    · rw [h0]
      rfl
    · simp [h7, hup] at hno
    · exact (queueN_queueFlushed (queueSel_lt s) hk _).trans (if_neg hne)

end

/-! ### TRACE_PORT_DRAIN and SRQ_QUEUE_AGE (R512, R514) -/

theorem tracePortDrain_spec {s : State} {e : Bool × Nat} {rest : List (Bool × Nat)}
    (hq : s.queue3.entries = e :: rest) (hup : dbgUp s = true) (hport : (reg s R.DBG_CTRL).testBit 1 = true)
    (hwritten : frontUnwritten s 3 = false) :
    Answers (exec .tracePortDrain s) (fun u => u.trcOut.toNat = queueWord e ∧ u.queue3.entries = rest
      ∧ { u with queue3 := s.queue3, trcOut := s.trcOut } = s) := by
  have hexec : exec .tracePortDrain s = .next { setQueueN 3 rest s with trcOut := BitVec.ofNat 64 (queueWord e) } := by
    show execTracePortDrain s = _
    rw [execTracePortDrain, hq]
    dsimp only
    rw [hup, show bit (reg s R.DBG_CTRL) 1 = true from hport, hwritten]
    rfl
  refine ⟨_, hexec, ?_, rfl, rfl⟩
  have hlt := queueWord_lt e
  rw [BitVec.toNat_ofNat]
  omega

/-- The oldest packet among some entries has an entry. -/
theorem frontPacket_pos {es : List (Bool × Nat)} (h : es ≠ []) : 0 < frontPacket es := by
  cases es with
  | nil => exact absurd rfl h
  | cons e es =>
    rw [frontPacket]
    omega

/-- Once its oldest packet has stood there for 10 microseconds, service request 9 is high. -/
theorem srqLevel_aged {s : State} (haged : s.ledger.aged ≠ 0) (hq : s.queue0.entries ≠ []) :
    srqLevel s 9 = true := by
  simp [srqLevel, haged, hq]

theorem srqQueueAge_level {s : State} (hq : s.queue0.entries ≠ []) :
    srqLevel { s with ledger := { s.ledger with
      aged := s.ledger.aged + frontPacket (s.queue0.entries.drop s.ledger.aged) } } 9 = true := by
  refine srqLevel_aged ?_ hq
  show s.ledger.aged + frontPacket (s.queue0.entries.drop s.ledger.aged) ≠ 0
  by_cases h : s.ledger.aged = 0
  · rw [h]
    exact (Nat.add_pos_right 0 (frontPacket_pos hq)).ne'
  · omega

end Sys2Proof.Machine
end

section
/-!
PROOFS. Settlements: the items that one settles, their count and their SETTLED entries (R372, R373), and the obligation
on the queues of the LEDGER.
-/

namespace Sys2Proof.Machine

/-! ### Entries made earlier -/

/-- Every journal entry made still stands: in the ring, waiting for room, or behind its text log record. -/
structure EntriesStand (s t : State) : Prop where
  ring : s.ledger.ring ⊆ t.ledger.ring
  waiting : s.ledger.waiting ⊆ t.ledger.waiting
  jobs : s.accesses.map Access.job ⊆ t.accesses.map Access.job

theorem EntriesStand.refl (s : State) : EntriesStand s s := ⟨List.Subset.refl _, List.Subset.refl _, List.Subset.refl _⟩

theorem EntriesStand.trans {s t u : State} (h : EntriesStand s t) (k : EntriesStand t u) : EntriesStand s u :=
  ⟨List.Subset.trans h.ring k.ring, List.Subset.trans h.waiting k.waiting, List.Subset.trans h.jobs k.jobs⟩

theorem EntryMade.stand {s t : State} {p : JEntry → Prop} (hmade : EntryMade s p) (h : EntriesStand s t) :
    EntryMade t p := by
  rcases hmade with ⟨e, he, hp⟩ | ⟨x, hx, hp⟩ | ⟨a, ha, e, next, hjob, hp⟩
  · exact Or.inl ⟨e, h.ring he, hp⟩
  · exact Or.inr (Or.inl ⟨x, h.waiting hx, hp⟩)
  · obtain ⟨b, hb, hsame⟩ := List.mem_map.1 (h.jobs (List.mem_map_of_mem ha))
    exact Or.inr (Or.inr ⟨b, hb, e, next, hsame.trans hjob, hp⟩)

theorem startAccess_jobs (cls : Nat) (bill : List (Nat × Nat)) (kind : ReqKind) (req : Nat) (lines : List Line)
    (job : Job) (s : State) :
    s.accesses.map Access.job ⊆ (startAccess cls bill kind req lines job s).accesses.map Access.job := by
  have hold : s.accesses.map Access.purpose
      ⊆ (startAccess cls bill kind req lines job s).accesses.map Access.purpose := by
    rw [startAccess_eq, sendAll_purpose]
    dsimp only
    rw [(buyAccess_frame ..).2, (issuedLines_frame ..).2.1, List.map_append]
    exact List.subset_append_left _ _
  simpa [Access.purpose, Function.comp_def] using List.map_subset (fun x : Nat × ReqKind × Job => x.2.2) hold

theorem startAccess_stands (cls : Nat) (bill : List (Nat × Nat)) (kind : ReqKind) (req : Nat) (lines : List Line)
    (job : Job) (s : State) : EntriesStand s (startAccess cls bill kind req lines job s) := by
  refine ⟨?_, ?_, startAccess_jobs ..⟩ <;> rw [(startAccess_frame ..).ledger] <;> exact List.Subset.refl _

theorem placeEntry_stands (e : JEntry) (s : State) : EntriesStand s (placeEntry e s).2 := by
  unfold placeEntry
  split
  · exact .refl s
  · exact ⟨List.subset_append_left _ _, List.Subset.refl _, List.Subset.refl _⟩

theorem writeEntry_stands (e : JEntry) (next : After) (s : State) : EntriesStand s (writeEntry e next s) := by
  unfold writeEntry
  dsimp only
  refine EntriesStand.trans ?_ (startAccess_stands ..)
  obtain ⟨hring, hwaiting, hjobs⟩ := placeEntry_stands { e with
      ledger := if decide (e.etype = 1) && decide (e.ledger = 0) then s.ledger.next else e.ledger }
    { s with ledger := { s.ledger with
      next := if decide (e.etype = 1) && decide (e.ledger = 0) then s.ledger.next + 1 else s.ledger.next } }
  exact ⟨hring, hwaiting, hjobs⟩

/-- An entry without a text log record leaves every entry made before it. -/
theorem journal_stands (e : JEntry) (next : After) (s : State) : EntriesStand s (journal e [] next s) := by
  unfold journal writeNow
  split
  · exact writeEntry_stands e next s
  · exact ⟨List.Subset.refl _, List.subset_append_left _ _, List.Subset.refl _⟩

/-! ### One item settled (R373) -/

/-- An item whose ledger number stands among some is settled. -/
def withSettled (ns : List Nat) (i : Item) : Item := if i.ledger ∈ ns then { i with settled := true } else i

theorem withSettled_stream (ns : List Nat) (i : Item) : (withSettled ns i).stream = i.stream := by
  unfold withSettled
  split <;> rfl

theorem withSettled_ledger (ns : List Nat) (i : Item) : (withSettled ns i).ledger = i.ledger := by
  unfold withSettled
  split <;> rfl

theorem withSettled_nil (i : Item) : withSettled [] i = i := if_neg List.not_mem_nil

theorem withSettled_cons (n : Nat) (ns : List Nat) (i : Item) :
    withSettled ns (withSettled [n] i) = withSettled (n :: ns) i := by
  unfold withSettled
  by_cases hn : i.ledger = n <;> by_cases hns : i.ledger ∈ ns <;> simp [hn, hns]

theorem settleItem_items (s : State) (i : Item) :
    (settleItem s i).ledger.items = s.ledger.items.map (withSettled [i.ledger]) := by
  have hone : withSettled [i.ledger] = fun x => if x.ledger = i.ledger then { x with settled := true } else x := by
    funext x
    simp [withSettled]
  rw [hone]
  exact (journal_keepsItems ..).items

theorem settleItem_queue1 (s : State) (i : Item) : (settleItem s i).queue1 = s.queue1 :=
  (journal_swept _ _ _ (Swept.refl _)).queue1

theorem reg_settleItem_settles (s : State) (i : Item) :
    reg (settleItem s i) R.LDG_SETTLES = satAdd 32 (reg s R.LDG_SETTLES) 1 :=
  ((journal_swept _ _ _ (Swept.refl _)).regs _ (by decide)).trans
    (reg_bump_one R.LDG_SETTLES (onItem i.ledger (fun i => { i with settled := true }) s))

theorem settleItem_made (s : State) (i : Item) :
    EntryMade (settleItem s i) (fun e => e.etype = 5 ∧ e.stream = i.stream ∧ e.ledger = i.ledger) :=
  journal_keptMade .nothing _ rfl (show 5 ≠ 1 by decide) fun _ => ⟨rfl, rfl, rfl⟩

theorem settleItem_stands (s : State) (i : Item) : EntriesStand s (settleItem s i) := by
  unfold settleItem
  dsimp only
  refine EntriesStand.trans ?_ (journal_stands ..)
  exact ⟨List.Subset.refl _, List.Subset.refl _, List.Subset.refl _⟩

/-! ### Items settled one after the other -/

theorem settleItems_items (is : List Item) (s : State) :
    (is.foldl settleItem s).ledger.items = s.ledger.items.map (withSettled (is.map Item.ledger)) := by
  induction is generalizing s with
  | nil => exact (List.map_id'' withSettled_nil _).symm
  | cons i is ih =>
    rw [List.foldl_cons, ih, settleItem_items, List.map_map, List.map_cons]
    exact List.map_congr_left fun x _ => withSettled_cons i.ledger (is.map Item.ledger) x

theorem settleItems_queue1 (is : List Item) (s : State) : (is.foldl settleItem s).queue1 = s.queue1 := by
  induction is generalizing s with
  | nil => rfl
  | cons i is ih => rw [List.foldl_cons, ih, settleItem_queue1]

theorem reg_settleItems_settles (is : List Item) (s : State) :
    reg (is.foldl settleItem s) R.LDG_SETTLES = satAdd 32 (reg s R.LDG_SETTLES) is.length := by
  induction is generalizing s with
  | nil => exact (satAdd_reg_zero ..).symm
  | cons i is ih =>
    rw [List.foldl_cons, ih, reg_settleItem_settles, List.length_cons]
    unfold satAdd
    omega

theorem settleItems_stands (is : List Item) (s : State) : EntriesStand s (is.foldl settleItem s) := by
  induction is generalizing s with
  | nil => exact .refl s
  | cons i is ih => exact (settleItem_stands s i).trans (ih _)

theorem settleItems_made {is : List Item} {j : Item} (hj : j ∈ is) (s : State) : EntryMade (is.foldl settleItem s)
    (fun e => e.etype = 5 ∧ e.stream = j.stream ∧ e.ledger = j.ledger) := by
  induction is generalizing s with
  | nil => exact absurd hj List.not_mem_nil
  | cons i is ih =>
    rcases List.mem_cons.1 hj with rfl | hmem
    · exact (settleItem_made s j).stand (settleItems_stands is _)
    · exact ih hmem _

theorem mem_settledBy {s : State} {n m : Nat} {j : Item} :
    j ∈ settledBy s n m ↔ j ∈ s.ledger.items ∧ j.stream = n ∧ j.settled = false ∧ j.ledger ≤ m := by
  simp [settledBy, and_assoc]

/-- Once the unsettled items of a stream up to a number are settled, none of that stream up to it is unsettled. -/
theorem settled_of_settleItems {s u : State} {n m : Nat}
    (hitems : u.ledger.items = s.ledger.items.map (withSettled ((settledBy s n m).map Item.ledger))) {j : Item}
    (hj : j ∈ u.ledger.items) (hstream : j.stream = n) (hledger : j.ledger ≤ m) : j.settled = true := by
  rw [hitems] at hj
  obtain ⟨x, hx, rfl⟩ := List.mem_map.1 hj
  rw [withSettled_stream] at hstream
  rw [withSettled_ledger] at hledger
  by_cases hmem : x.ledger ∈ (settledBy s n m).map Item.ledger
  · rw [withSettled, if_pos hmem]
  · rw [withSettled, if_neg hmem]
    by_contra hopen
    rw [Bool.not_eq_true] at hopen
    exact hmem (List.mem_map_of_mem (mem_settledBy.2 ⟨hx, hstream, hopen, hledger⟩))

/-! ### SETTLEMENT_TAKEN (R372) -/

theorem takeSettlement_unknown {s : State} {n : Nat} (h : n = 0 ∨ s.ledger.next ≤ n) :
    takeSettlement n s = ldgErr St.BOUNDS 1 n s := if_pos h

section

variable {s : State} {n : Nat} (hgiven : ¬ (n = 0 ∨ s.ledger.next ≤ n))
include hgiven

theorem takeSettlement_settled (h : s.ledger.items.find? (fun i => i.ledger == n && !i.settled) = none) :
    takeSettlement n s = s := by
  rw [takeSettlement, if_neg hgiven, h]

theorem takeSettlement_open {i : Item} (h : s.ledger.items.find? (fun i => i.ledger == n && !i.settled) = some i) :
    takeSettlement n s = if (settledBy s i.stream n).all (fun i => i.complete)
      then (settledBy s i.stream n).foldl settleItem s else ldgErr St.BAD_OP 1 n s := by
  rw [takeSettlement, if_neg hgiven, h]

end

section

variable {s : State} {b : Bool} {n : Nat} {rest : List (Bool × Nat)} (hq : s.queue1.entries = (b, n) :: rest)
  (hup : ledgerUp s = true) (hready : s.ledger.ready = true)
include hq hup hready

theorem exec_settlementTaken : exec .settlementTaken s
    = .next (if settlementWaits s n then s else sweep (takeSettlement n (setQueueN 1 rest s))) := by
  show execSettlementTaken s = _
  rw [execSettlementTaken, hq]
  dsimp only
  rw [hup, hready]
  exact (apply_ite Host.Outcome.next _ _ _).symm

theorem settlementTaken_waits (h : settlementWaits s n = true) : exec .settlementTaken s = .next s := by
  rw [exec_settlementTaken hq hup hready, if_pos h]

variable (hgo : settlementWaits s n = false)
include hgo

theorem settlementTaken_takes : exec .settlementTaken s = .next (sweep (takeSettlement n (setQueueN 1 rest s))) := by
  rw [exec_settlementTaken hq hup hready, hgo]
  rfl

/-- A settlement that is refused is taken and logged, and leaves the LEDGER. -/
theorem settlementTaken_logged {st : Nat} (hst : st < 2 ^ 8)
    (h : takeSettlement n (setQueueN 1 rest s) = ldgErr st 1 n (setQueueN 1 rest s)) :
    EndsIn (exec .settlementTaken s) (fun u => u.queue1.entries = rest
      ∧ ((reg s R.LDG_ERR_LO).testBit 31 = false → reg u R.LDG_ERR_LO = st + 1 * 2 ^ 8 + 2 ^ 31
        ∧ reg u R.LDG_ERR_HI = n % 2 ^ 32)
      ∧ u.ledger = s.ledger) := by
  have hrest := ldgErr_rest st 1 n (setQueueN 1 rest s) s.regs
  have hqueue := congrArg (fun u : State => u.queue1.entries) hrest
  have hledger := congrArg State.ledger hrest
  refine ⟨_, settlementTaken_takes hq hup hready hgo, ?_⟩
  rw [h]
  refine ⟨hqueue, fun hempty => ?_, hledger⟩
  rw [← reg_setQueueN 1 rest s] at hempty
  exact reg_ldgErr (queue := 1) hst (by decide) hempty n

/-- A settlement of an item up to which every unsettled item of its stream is complete settles each of these. -/
theorem settlementTaken_settles {i : Item} (hgiven : ¬ (n = 0 ∨ s.ledger.next ≤ n))
    (hitem : s.ledger.items.find? (fun i => i.ledger == n && !i.settled) = some i)
    (hcomplete : ∀ j ∈ settledBy s i.stream n, j.complete = true) :
    EndsIn (exec .settlementTaken s) (fun u => u.queue1.entries = rest
      ∧ (∀ j ∈ u.ledger.items, j.stream = i.stream → j.ledger ≤ n → j.settled = true)
      ∧ reg u R.LDG_SETTLES = satAdd 32 (reg s R.LDG_SETTLES) (settledBy s i.stream n).length
      ∧ ∀ j ∈ settledBy s i.stream n, EntryMade u (fun e => e.etype = 5 ∧ e.stream = i.stream ∧ e.ledger = j.ledger)) := by
  have htake : takeSettlement n (setQueueN 1 rest s) = (settledBy s i.stream n).foldl settleItem (setQueueN 1 rest s) :=
    (takeSettlement_open (s := setQueueN 1 rest s) hgiven hitem).trans (if_pos (List.all_eq_true.2 hcomplete))
  refine ⟨_, settlementTaken_takes hq hup hready hgo, ?_⟩
  rw [htake]
  refine ⟨?_, fun j hj hstream hledger => settled_of_settleItems (settleItems_items ..) hj hstream hledger,
    reg_settleItems_settles .., fun j hj => ?_⟩
  · rw [settleItems_queue1]
    rfl
  · have hmade := settleItems_made hj (setQueueN 1 rest s)
    rwa [(mem_settledBy.1 hj).2.1] at hmade

end

/-- Settles O52: each command on the queues of the LEDGER in turn, and SETTLEMENT_TAKEN by what the number taken names. -/
theorem queuesAndSettlement : Obligations.QueuesAndSettlement := by
  intro s
  dsimp only
  rw [← queueSel_eq s]
  refine ⟨fun h n rest => completionPacket_spec,
    fun hport hup hi => ⟨settlePush_taken hport hup, settlePush_full hport hup⟩,
    fun b n rest hq hup hready => ⟨settlementTaken_waits hq hup hready, fun hgo => ⟨fun hunknown => ?_,
      fun hpos hgiven hnone => ?_, fun i hpos hgiven hitem => ⟨?_, fun ⟨j, hj, hopen⟩ => ?_⟩⟩⟩,
    fun hport => ⟨fun e rest hup hwritten hq htrace => ?_, queuePop_empty hport,
      fun v => ⟨exec_queueFlush_refused hport v, queueFlush_spec hport v⟩⟩,
    fun e rest hq hup hport hwritten => ?_, fun hq => ⟨_, rfl, rfl, srqQueueAge_level hq⟩⟩
  · exact settlementTaken_logged hq hup hready hgo (by decide) (takeSettlement_unknown hunknown)
  · refine ⟨_, settlementTaken_takes hq hup hready hgo, ?_⟩
    exact takeSettlement_settled (s := setQueueN 1 rest s) (show ¬ (n = 0 ∨ s.ledger.next ≤ n) by omega) hnone
  · exact settlementTaken_settles hq hup hready hgo (by omega) hitem
  · refine settlementTaken_logged hq hup hready hgo (by decide) ?_
    have hvalid : ¬ (n = 0 ∨ s.ledger.next ≤ n) := by omega
    refine (takeSettlement_open (s := setQueueN 1 rest s) hvalid hitem).trans (if_neg fun hall => ?_)
    exact Bool.false_ne_true (hopen.symm.trans (List.all_eq_true.1 hall j hj))
  · rw [← queueWord_eq]
    exact queuePop_entry hup hwritten hq htrace hport
  · rw [← queueWord_eq]
    exact tracePortDrain_spec hq hup hport hwritten

end Sys2Proof.Machine
end

section
/-!
PROOFS. What keyed commands count, and the repair map: what the retirements, the remaps and the resets that they set
off leave of both.
-/

namespace Sys2Proof.Machine

/-! ### The counts of keyed commands and of retirements, and the repair map -/

/-- What is watched while a keyed command takes its effect: the window, how many commands were carried out, how many units
have retired, and the repair map in force. -/
structure CommandView where
  kcw : KcwState
  done : Nat
  retired : Nat
  map : List Repair

/-- The watched part of a state. -/
def commandView (s : State) : CommandView where
  kcw := s.kcw
  done := reg s R.KCW_DONE
  retired := reg s R.RSV_RETIRED
  map := s.reserve.map

/-- The registers that are watched. -/
abbrev commandRegs : List Nat := [R.KCW_DONE, R.RSV_RETIRED]

theorem kcw_of_command {s t : State} (h : commandView t = commandView s) : t.kcw = s.kcw := congrArg CommandView.kcw h

theorem commandView_of_swept {s t : State} (h : Swept s t) : commandView t = commandView s := by
  unfold commandView
  rw [h.regs R.KCW_DONE (by decide), h.regs R.RSV_RETIRED (by decide), h.reserve, h.kcw]

/-- A record update of fields that are not watched, and of RESERVE with its map kept. -/
@[simp] theorem put_command (u : State)
    (x_pending x_free x_emitted x_issueNo x_stores x_instId x_latch x_heldLo x_regOut x_threads x_prog x_scratch x_tickets
    x_ticketNext x_lastIssued x_clerkFatal x_streams x_beat x_day x_teller x_hops x_tenants x_genNext x_prefetch x_grammars
    x_maskSets x_sortStep x_sortTemp x_sortDead x_clear x_egress0 x_egress1 x_accesses x_nextAccess x_ledger x_queue0
    x_queue1 x_queue2 x_queue3 x_purse) (x_reserve : ReserveState) (x_power x_boot x_trcOut x_testOut)
    (hmap : x_reserve.map = u.reserve.map) :
    commandView (State.mk x_pending u.build x_free x_emitted x_issueNo x_stores x_instId u.regs x_latch x_heldLo x_regOut
      x_threads x_prog x_scratch x_tickets x_ticketNext x_lastIssued x_clerkFatal x_streams x_beat x_day x_teller x_hops
      x_tenants x_genNext x_prefetch x_grammars x_maskSets x_sortStep x_sortTemp x_sortDead x_clear x_egress0 x_egress1
      x_accesses x_nextAccess x_ledger x_queue0 x_queue1 x_queue2 x_queue3 u.kcw x_purse x_reserve x_power x_boot
      x_trcOut x_testOut) = commandView u :=
  congrArg (fun m => { commandView u with map := m }) hmap

@[simp] theorem ite_command (c : Prop) [Decidable c] (a b : State) :
    commandView (if c then a else b) = if c then commandView a else commandView b := apply_ite ..

@[simp] theorem foldl_command {α : Type} (f : State → α → State) (xs : List α) (t : State)
    (hf : ∀ t x, commandView (f t x) = commandView t) : commandView (xs.foldl f t) = commandView t := by
  induction xs generalizing t with
  | nil => rfl
  | cons x xs ih => exact (ih _).trans (hf _ _)

@[simp] theorem setReg_command {off : Nat} (v : Nat) (t : State) (hoff : off ∉ commandRegs) :
    commandView (setReg off v t) = commandView t := by
  have hreg (k : Nat) (hk : k ∈ commandRegs) : reg (setReg off v t) k = reg t k :=
    reg_setReg_other v t fun e => hoff (e ▸ hk)
  unfold commandView
  rw [hreg R.KCW_DONE (by decide), hreg R.RSV_RETIRED (by decide)]
  rfl

@[simp] theorem setRegBit_command {off : Nat} (i : Nat) (t : State) (hoff : off ∉ commandRegs) :
    commandView (setRegBit off i t) = commandView t := setReg_command _ t hoff

@[simp] theorem clearRegBit_command {off : Nat} (i : Nat) (t : State) (hoff : off ∉ commandRegs) :
    commandView (clearRegBit off i t) = commandView t := setReg_command _ t hoff

@[simp] theorem bump_command {off : Nat} (n : Nat) (t : State) (hoff : off ∉ commandRegs) :
    commandView (bump off n t) = commandView t := by
  simp [bump, -List.mem_cons, hoff]

@[simp] theorem logFirst_command {lo hi : Nat} (vlo vhi : Nat) (t : State) (hlo : lo ∉ commandRegs)
    (hhi : hi ∉ commandRegs) : commandView (logFirst lo vlo hi vhi t) = commandView t := by
  simp [logFirst, -List.mem_cons, hlo, hhi]

@[simp] theorem startAccess_command (cls : Nat) (bill : List (Nat × Nat)) (kind : ReqKind) (req : Nat) (lines : List Line)
    (job : Job) (t : State) : commandView (startAccess cls bill kind req lines job t) = commandView t :=
  commandView_of_swept (startAccess_swept _ _ _ _ _ _ (Swept.refl t))

@[simp] theorem feedAll_command (t : State) : commandView (feedAll t) = commandView t :=
  commandView_of_swept (feedAll_swept (Swept.refl t))

@[simp] theorem onItem_command (n : Nat) (f : Item → Item) (t : State) : commandView (onItem n f t) = commandView t := rfl

@[simp] theorem onStream_command (n : Nat) (f : Stream → Stream) (t : State) :
    commandView (onStream n f t) = commandView t := rfl

@[simp] theorem dropAccesses_command (p : Access → Bool) (t : State) :
    commandView (dropAccesses p t) = commandView t := rfl

/-! ### A stream replayed -/

@[simp] theorem discardTiles_command (n : Nat) (t : State) : commandView (discardTiles n t) = commandView t := by
  simp [discardTiles]

@[simp] theorem reissue_command (log : Bool) (n : Nat) (t : State) : commandView (reissue log n t) = commandView t := by
  have hagain (bs : List Byte) (u : State) : commandView (deliverAgain n bs u) = commandView u := by
    unfold deliverAgain
    split <;> rfl
  unfold reissue
  dsimp only
  repeat' split
  all_goals simp [hagain, cutItem, readLog]

@[simp] theorem replayStream_command (n : Nat) (t : State) : commandView (replayStream n t) = commandView t := by
  simp [replayStream, readCkpt, restoreStream]

/-! ### A maintenance activity that begins -/

@[simp] theorem wakeSpare_command (t : State) : commandView (wakeSpare t) = commandView t := by
  have hask (u : State) : commandView (askPd 19 u) = commandView u := rfl
  simp [wakeSpare, hask]

@[simp] theorem beginActivity_command (a : Activity) (t : State) : commandView (beginActivity a t) = commandView t := by
  have hfill (u : State) : commandView (fillFor a u) = commandView u := by
    unfold fillFor
    split <;> simp [readGolden]
  simp [beginActivity, hfill, leaveBanks]

@[simp] theorem startOrWait_command (a : Activity) (t : State) : commandView (startOrWait a t) = commandView t := by
  simp [startOrWait]

@[simp] theorem startWaiting_command (t : State) : commandView (startWaiting t) = commandView t := by
  simp [startWaiting]

/-! ### Units that leave service or come back -/

@[simp] theorem takeOut_command (cls i : Nat) (t : State) : commandView (takeOut cls i t) = commandView t := by
  simp [takeOut]

@[simp] theorem standIn_command (cls u p : Nat) (t : State) : commandView (standIn cls u p t) = commandView t := rfl

@[simp] theorem spareOut_command (cls i : Nat) (t : State) : commandView (spareOut cls i t) = commandView t := by
  simp [spareOut, rsvEvent]

@[simp] theorem clearPoison_command (b : Nat) (t : State) : commandView (clearPoison b t) = commandView t := by
  simp [clearPoison, audFault, cleanCheck]

@[simp] theorem bankAbsent_command (b : Nat) (t : State) : commandView (bankAbsent b t) = commandView t := by
  have hreload (k : Nat) (u : State) : commandView (startReload k u) = commandView u := by
    unfold startReload
    split <;> simp
  simp [bankAbsent, hreload]

@[simp] theorem retireClerk_command (c : Nat) (t : State) : commandView (retireClerk c t) = commandView t := by
  have hcomplete (n st : Nat) (u : State) : commandView (completeItem n st .nothing u) = commandView u :=
    commandView_of_swept (completeItem_swept _ _ _ (Swept.refl u))
  have hthread (w : Who) (f : Thread → Thread) (u : State) : commandView (onThread w f u) = commandView u := rfl
  simp [retireClerk, hthread, hcomplete]

@[simp] theorem moveStreams_command (cls : Nat) (old t : State) : commandView (moveStreams cls old t) = commandView t := by
  simp [moveStreams]

/-- A retirement that is not under way already is counted, and changes nothing else that is watched. -/
theorem retireUnit_command {cls i : Nat} {t : State} (h : leaving t cls i = false) :
    commandView (retireUnit cls i t).1 = commandView (bump R.RSV_RETIRED 1 t) := by
  unfold retireUnit
  rw [h, if_neg Bool.false_ne_true]
  dsimp only
  repeat' split
  all_goals simp

/-- The window, the count of keyed commands and the repair map are as they were. -/
structure DoneKept (s t : State) : Prop where
  kcw : t.kcw = s.kcw
  done : reg t R.KCW_DONE = reg s R.KCW_DONE
  map : t.reserve.map = s.reserve.map

theorem DoneKept.of_view {s t : State} (h : commandView t = commandView s) : DoneKept s t :=
  ⟨congrArg CommandView.kcw h, congrArg CommandView.done h, congrArg CommandView.map h⟩

theorem DoneKept.trans {s t u : State} (h : DoneKept s t) (k : DoneKept t u) : DoneKept s u :=
  ⟨k.kcw.trans h.kcw, k.done.trans h.done, k.map.trans h.map⟩

theorem bump_doneKept {off : Nat} (n : Nat) (s : State) (hoff : R.KCW_DONE ≠ off) : DoneKept s (bump off n s) := by
  refine ⟨bump_kcw off n s, reg_bump_other n s hoff, ?_⟩
  unfold bump
  split <;> rfl

theorem retireUnit_doneKept (cls i : Nat) (s : State) : DoneKept s (retireUnit cls i s).1 := by
  cases h : leaving s cls i with
  | true => exact .of_view (by rw [retireUnit, h, if_pos rfl])
  | false => exact (bump_doneKept 1 s (by decide)).trans (.of_view (retireUnit_command h))

/-- A macro whose spare rows are spent leaves use, with its unit or its twin where it has one (Table 14.2). -/
theorem spentMacro_doneKept (f m row : Nat) (s : State) : DoneKept s (spentMacro f m row false s).1 := by
  have hretired : DoneKept s (bump R.RSV_RETIRED 1 s) := bump_doneKept 1 s (by decide)
  unfold spentMacro
  simp only [Bool.false_eq_true, if_false]
  split
  · exact retireUnit_doneKept ..
  split
  · exact retireUnit_doneKept ..
  split
  · exact retireUnit_doneKept ..
  split
  · split
    · exact .of_view rfl
    split
    · exact .of_view (by simp [rsvEvent])
    · exact hretired.trans (.of_view (by simp))
  · exact .of_view (by simp)

/-- A row that becomes weak is counted, and mapped or lost; a spare row that was in use is replaced. -/
theorem remapRow_doneKept (f m row : Nat) (s : State) : DoneKept s (remapRow f m row false s).1 := by
  unfold remapRow
  simp only [Bool.false_eq_true, if_false]
  split
  · exact .of_view rfl
  split
  · split
    · exact .of_view rfl
    split
    · exact .of_view (by simp [mapRow])
    · exact .trans (.of_view (by simp)) (spentMacro_doneKept ..)
  · split
    · exact .of_view (by simp)
    split
    · exact .of_view (by simp [mapRow])
    · exact spentMacro_doneKept ..

/-- Whatever a repair changes, it leaves the map to be written and the count of commands. -/
theorem applyRepair_doneKept (r : Repair) (s : State) : DoneKept s (applyRepair r s).1 := by
  have hback (cls i : Nat) (u : State) : commandView (bringBack cls i u) = commandView u := by
    simp [bringBack, bankBack]
  unfold applyRepair
  split
  · exact remapRow_doneKept ..
  split
  · exact retireUnit_doneKept ..
  split
  · exact .of_view (by simp [restoreUnit, hback])
  · exact .of_view (by simp [setMargin, askRail])

end Sys2Proof.Machine
end

section
/-!
PROOFS. ZEROISE: what the resets that it acts as leave of the threads and of what is counted (R416, R436).
-/

namespace Sys2Proof.Machine

/-! ### The resets that ZEROISE acts as -/

/-- What is watched while ZEROISE resets the domains one after the other. -/
def zeroView (s : State) : ClerkView × CommandView := (clerkView s, commandView s)

theorem threads_of_zero {s t : State} (h : zeroView t = zeroView s) : t.threads = s.threads :=
  congrArg (fun v => v.1.threads) h

theorem command_of_zero {s t : State} (h : zeroView t = zeroView s) : commandView t = commandView s := congrArg Prod.snd h

theorem foldl_zero {α : Type} (f : State → α → State) (xs : List α) (t : State)
    (hf : ∀ t x, zeroView (f t x) = zeroView t) : zeroView (xs.foldl f t) = zeroView t := by
  induction xs generalizing t with
  | nil => rfl
  | cons x xs ih => exact (ih _).trans (hf _ _)

theorem beginActivity_clerkView (a : Activity) (t : State) : clerkView (beginActivity a t) = clerkView t := by
  have hfill (u : State) : clerkView (fillFor a u) = clerkView u := by
    unfold fillFor
    split <;> simp [readGolden]
  simp [beginActivity, hfill, leaveBanks]

theorem startWaiting_zero (t : State) : zeroView (startWaiting t) = zeroView t := by
  simp [zeroView, startWaiting, beginActivity_clerkView]

theorem replayStreams_zero (ns : List Nat) (t : State) : zeroView (replayStreams ns t) = zeroView t := by
  simp [zeroView, replayStreams]

theorem resetMatch_zero (t : State) : zeroView (resetMatch t) = zeroView t :=
  (replayStreams_zero _ _).trans rfl

theorem resetVault_zero (t : State) : zeroView (resetVault t) = zeroView t := by
  have hscrub (u : State) : zeroView (dropVisits (restartScrub u)) = zeroView u := rfl
  rw [resetVault, startWaiting_zero, hscrub, replayStreams_zero]
  rfl

theorem stepLost_zero (n step : Nat) (t : State) : zeroView (stepLost n step t) = zeroView t := by
  simp [zeroView, stepLost, markStep]

theorem resetClear_zero (t : State) : zeroView (resetClear t) = zeroView t := by
  have hrow (u : State) (r : Row) : zeroView (resetRow u r) = zeroView u := by
    unfold resetRow
    split
    · rfl
    · exact stepLost_zero ..
  exact (foldl_zero _ _ _ hrow).trans ((replayStreams_zero _ _).trans rfl)

theorem resetLogit_zero (t : State) : zeroView (resetLogit t) = zeroView t := by
  refine (foldl_zero _ _ _ fun u r => ?_).trans rfl
  split
  · simp [zeroView]
  · exact stepLost_zero ..

theorem resetMemPort_zero (p : Nat) (t : State) : zeroView (resetMemPort p t) = zeroView t := by
  simp [zeroView, resetMemPort]

theorem cutLane_zero (t : State) (l : Nat) : zeroView (cutLane t l) = zeroView t := by
  simp [zeroView, cutLane, cutChunk, setLane]

theorem resetIngress_zero (p : Nat) (t : State) : zeroView (resetIngress p t) = zeroView t :=
  (cutLane_zero _ _).trans (cutLane_zero _ _)

theorem resetEgress_zero (p : Nat) (t : State) : zeroView (resetEgress p t) = zeroView t := by
  unfold resetEgress
  dsimp only
  split
  · rfl
  · simp [zeroView, setEgress, setQueueAt]

theorem resetMon_zero (t : State) : zeroView (resetMon t) = zeroView t :=
  foldl_zero _ _ _ fun _ _ => startWaiting_zero _

/-- With every thread reset, no WAITB ends as the beat port freezes. -/
theorem freeze_zero {t : State} (h : t.threads = []) (cause : Nat) : zeroView (freeze cause t) = zeroView t := by
  have hidle (v : Who) (i : Instr) : (thread { t with beat := { t.beat with frozen := true, cause := cause } } v).wait
      ≠ .retry i := by
    simp [thread, h, Tab.get, Thread.initial]
  rw [freeze, wakeAll_none _ hidle]
  rfl

theorem resetEffect_zero (d : Nat) {t : State} (hd : d ≠ 1) (h : t.threads = []) :
    zeroView (resetEffect d t) = zeroView t := by
  rw [resetEffect, if_neg hd]
  split
  · exact resetMatch_zero t
  split
  · exact resetVault_zero t
  split
  · exact resetClear_zero t
  split
  · exact resetMemPort_zero _ t
  split
  · exact resetIngress_zero _ t
  split
  · exact resetEgress_zero _ t
  split
  · exact resetLogit_zero t
  split
  · rfl
  split
  · exact freeze_zero h 0
  split
  · rfl
  split
  · exact resetMon_zero t
  · rfl

theorem resetCore_threads (t : State) : (resetCore t).threads = [] := rfl

theorem resetCore_command (t : State) : commandView (resetCore t) = commandView t := by
  have htags (u : State) (l : Nat) : commandView (keepTags u l) = commandView u := rfl
  have hlane (u : State) (l : Nat) : commandView (cutLane u l) = commandView u := command_of_zero (cutLane_zero u l)
  simp [resetCore, htags, hlane]

/-- The resets of any domains but CORE, once CORE has been reset. -/
theorem resets_zero (ds : List Nat) (hds : 1 ∉ ds) {t : State} (h : t.threads = []) :
    zeroView (ds.foldl (fun s d => resetEffect d s) t) = zeroView t := by
  induction ds generalizing t with
  | nil => rfl
  | cons d ds ih =>
    obtain ⟨hd, hrest⟩ := List.ne_and_not_mem_of_not_mem_cons hds
    have hone : zeroView (resetEffect d t) = zeroView t := resetEffect_zero d (Ne.symm hd) h
    have hthreads : (resetEffect d t).threads = [] := (threads_of_zero hone).trans h
    exact (ih hrest hthreads).trans hone

theorem answerCut_zero (t : State) (l : Nat) : zeroView (answerCut t l) = zeroView t := by
  have hlane (c : Chunk) (u : State) : zeroView (answerLane c St.PEER_RESET 0 u) = zeroView u := rfl
  have hcut (x : TellerState) (u : State) : zeroView { u with teller := x } = zeroView u := rfl
  exact (hcut _ _).trans (foldl_zero _ _ _ fun u x => hlane _ u)

/-- The block as ZEROISE has reset it, with its accesses and activities ended. -/
def zeroReset (s : State) : State :=
  endActivities (dropAccesses (fun _ => true)
    ((List.range 8).foldl answerCut (zeroDomains.foldl (fun s d => resetEffect d s) s)))

theorem zeroReset_threads_command (s : State) :
    (zeroReset s).threads = [] ∧ commandView (zeroReset s) = commandView s := by
  have hdomains : zeroDomains = 1 :: zeroDomains.drop 1 := by decide
  have hcore : resetEffect 1 s = resetCore s := if_pos rfl
  have hrest := resets_zero (zeroDomains.drop 1) (by decide) (resetCore_threads s)
  have hresets : zeroView (zeroDomains.foldl (fun s d => resetEffect d s) s) = zeroView (resetCore s) := by
    rw [← hrest, ← hcore, ← List.foldl_cons, ← hdomains]
  have hcuts := foldl_zero answerCut (List.range 8) (zeroDomains.foldl (fun s d => resetEffect d s) s) answerCut_zero
  have hend (u : State) : zeroView (endActivities (dropAccesses (fun _ => true) u)) = zeroView u := rfl
  have hview : zeroView (zeroReset s) = zeroView (resetCore s) := (hend _).trans (hcuts.trans hresets)
  exact ⟨(threads_of_zero hview).trans (resetCore_threads s), (command_of_zero hview).trans (resetCore_command s)⟩

theorem zeroReset_acts (s : State) : (zeroReset s).reserve.acts = [] := by
  have hend (u : State) : (endActivities u).reserve.acts = [] := rfl
  exact hend _

end Sys2Proof.Machine
end

section
/-!
PROOFS. A keyed command that is taken (R407), and the effects that end at once: SET_CEILING, SET_HASH and DEBUG_UNLOCK
(R412, R414, R417).
-/

namespace Sys2Proof.Machine

/-! ### A command that is taken -/

/-- The command has been taken: its mark is its counter, the mark is pending, and KCW_DONE has counted it. -/
def Taken (s : State) (r : KcwRun) (u : State) : Prop :=
  slotMark u r.slot = r.counter ∧ u.kcw.hwmPend = true ∧ reg u R.KCW_DONE = satAdd 32 (reg s R.KCW_DONE) 1

theorem Taken.of_kept {s t u : State} {r : KcwRun} (h : Taken s r t) (hmarks : u.kcw.marks = t.kcw.marks)
    (hpend : u.kcw.hwmPend = t.kcw.hwmPend) (hdone : reg u R.KCW_DONE = reg t R.KCW_DONE) : Taken s r u := by
  obtain ⟨hmark, hp, hd⟩ := h
  exact ⟨(congrArg (fun m => Tab.get 0 m r.slot) hmarks).trans hmark, hpend.trans hp, hdone.trans hd⟩

theorem Taken.of_view {s t u : State} {r : KcwRun} (h : Taken s r t) (hview : commandView u = commandView t) :
    Taken s r u :=
  have hkcw : u.kcw = t.kcw := congrArg CommandView.kcw hview
  h.of_kept (congrArg KcwState.marks hkcw) (congrArg KcwState.hwmPend hkcw) (congrArg CommandView.done hview)

/-- What else the window holds does not matter. -/
theorem Taken.put_kcw {s t : State} {r : KcwRun} (h : Taken s r t) {w : KcwState} (hmarks : w.marks = t.kcw.marks)
    (hpend : w.hwmPend = t.kcw.hwmPend) : Taken s r { t with kcw := w } := h.of_kept hmarks hpend rfl

theorem endKeyed_taken {s t : State} {r : KcwRun} (h : Taken s r t) (st : Nat) : Taken s r (endKeyed st t) :=
  h.of_kept rfl rfl (reg_endKeyed_other st t (by decide))

/-- The state in which the command of the window takes its effect while the journal is not ready. -/
def begun (s : State) (key : BitVec 128) : State :=
  let t := markRaised (windowRun s) key (submitted s)
  { t with kcw := { t.kcw with hwmPend := true } }

theorem reg_begun (s : State) (key : BitVec 128) (k : Nat) : reg (begun s key) k
    = if k = R.KCW_DONE then satAdd 32 (reg s R.KCW_DONE) 1 else reg s k := by
  have hset : reg (begun s key) k = reg (setReg R.KCW_DONE (satAdd 32 (reg s R.KCW_DONE) 1) s) k := rfl
  rw [hset, reg_setReg, Nat.mod_eq_of_lt (satAdd_lt ..)]

theorem reg_begun_other {s : State} (key : BitVec 128) {k : Nat} (hk : k ≠ R.KCW_DONE) : reg (begun s key) k = reg s k :=
  (reg_begun ..).trans (if_neg hk)

theorem begun_taken (s : State) (key : BitVec 128) : Taken s (windowRun s) (begun s key) :=
  ⟨Tab.get_set_same 0 s.kcw.marks _ _, rfl, (reg_begun ..).trans (if_pos rfl)⟩

/-- The command that runs once it is taken. -/
def takenRun (s : State) (key : BitVec 128) : KcwRun := { windowRun s with key := key }

theorem begun_run (s : State) (key : BitVec 128) : (begun s key).kcw.run = some (takenRun s key) := rfl

theorem begun_reserve (s : State) (key : BitVec 128) : (begun s key).reserve = s.reserve := rfl

/-! ### SET_CEILING (R412) -/

theorem setCeiling_sets {t : State} {r : KcwRun} (hfloor : t.build.size.floor ≤ operandWord r 0)
    (hmax : operandWord r 0 ≤ t.build.size.ceilMax) (hword : operandWord r 0 < 2 ^ 16) : setCeiling r t
      = endKeyed St.OK (setReg R.PUR_ALLOW (min (operandWord r 0) (reg t R.PUR_ALLOW)) (setReg R.PUR_CEIL (operandWord r 0) t)) :=
  if_neg (by omega)

theorem setCeiling_refuses {t : State} {r : KcwRun} (h : operandWord r 0 < t.build.size.floor
    ∨ t.build.size.ceilMax < operandWord r 0 ∨ 2 ^ 16 ≤ operandWord r 0) : setCeiling r t = endKeyed St.BAD_OP t :=
  if_pos (by omega)

/-! ### SET_HASH (R414, R415) -/

theorem hashRow_of_regs {s t : State} (h : ∀ k, 0x10000 ≤ k → reg t k = reg s k) (j : Nat) : hashRow t j = hashRow s j := by
  unfold hashRow hashKey
  rw [h _ (by omega), h _ (by omega)]

theorem hashRow_endKeyed (st : Nat) (t : State) (j : Nat) : hashRow (endKeyed st t) j = hashRow t j := by
  refine hashRow_of_regs (fun k hk => reg_endKeyed_other st t fun hmem => ?_) j
  have hlow : ∀ x ∈ [R.KCW_STAT, R.KCW_TAG_LO, R.KCW_TAG_HI], x < 0x10000 := by decide
  exact absurd (hlow k hmem) (by omega)

theorem hashRow_begun (s : State) (key : BitVec 128) (j : Nat) : hashRow (begun s key) j = hashRow s j :=
  hashRow_of_regs (fun k hk => reg_begun_other key fun e => absurd (e ▸ hk) (by decide)) j

theorem hashRow_setHashRow {v : Nat} (hv : v < 2 ^ 42) (i j : Nat) (t : State) :
    hashRow (setHashRow i v t) j = if j = i then v else hashRow t j := by
  unfold hashRow setHashRow
  simp only [reg_setReg, hashKey]
  split
  · next h =>
    rw [if_neg (by omega), if_pos (by omega), if_pos (by omega)]
    omega
  · next h =>
    rw [if_neg (by omega), if_neg (by omega), if_neg (by omega), if_neg (by omega)]

/-- The hash rows below a number set to their parts of a value. -/
def setHashRows (v n : Nat) (t : State) : State :=
  (List.range n).foldl (fun s j => setHashRow j (bits v (42 * j) 42) s) t

theorem setHashRows_succ (v n : Nat) (t : State) :
    setHashRows v (n + 1) t = setHashRow n (bits v (42 * n) 42) (setHashRows v n t) := by
  rw [setHashRows, List.range_succ, List.foldl_append]
  rfl

theorem hashRow_setHashRows (v n : Nat) (t : State) (j : Nat) :
    hashRow (setHashRows v n t) j = if j < n then v / 2 ^ (42 * j) % 2 ^ 42 else hashRow t j := by
  induction n with
  | zero => rfl
  | succ n ih =>
    have hpart : bits v (42 * n) 42 < 2 ^ 42 := Nat.mod_lt _ (by decide)
    rw [setHashRows_succ, hashRow_setHashRow hpart, ih]
    by_cases h : j = n
    · rw [if_pos h, if_pos (by omega), h]
      rfl
    · rw [if_neg h]
      exact if_congr (by omega) rfl rfl

theorem setHashRows_command (v n : Nat) (t : State) : commandView (setHashRows v n t) = commandView t := by
  have hlow : ∀ x ∈ commandRegs, x < 0x10000 := by decide
  have hrow (j x : Nat) (u : State) : commandView (setHashRow j x u) = commandView u :=
    (setReg_command _ _ fun h => absurd (hlow _ h) (by unfold hashKey; omega)).trans
      (setReg_command _ _ fun h => absurd (hlow _ h) (by unfold hashKey; omega))
  exact foldl_command _ _ _ fun u j => hrow _ _ u

theorem setHash_sets {t : State} {r : KcwRun} (hv : ofLE (r.ops.take 48) < 2 ^ 378) (hidle : stackSettable t = true) :
    let u := setHashRows (ofLE (r.ops.take 48)) 9 t
    setHash r t = endKeyed St.OK { u with kcw := { u.kcw with hashLock := true } } := by
  have hgood : ¬(ofLE (r.ops.take 48) / 2 ^ 378 ≠ 0 ∨ (!stackSettable t) = true) := by
    rw [Nat.div_eq_of_lt hv, hidle]
    decide
  exact if_neg hgood

theorem setHash_refuses {t : State} {r : KcwRun} (h : 2 ^ 378 ≤ ofLE (r.ops.take 48) ∨ stackSettable t = false) :
    setHash r t = endKeyed St.BAD_OP t := by
  refine if_pos (h.imp (fun hv => ?_) fun hbusy => by rw [hbusy]; rfl)
  exact (Nat.div_pos hv (by positivity)).ne'

/-! ### DEBUG_UNLOCK (R417) -/

theorem debugUnlock_opens {t : State} {r : KcwRun} (hne : operandWord r 0 ≠ 0) (hlt : operandWord r 0 < 8) : debugUnlock r t
    = endKeyed St.OK { t with kcw := { t.kcw with scopes := t.kcw.scopes ||| operandWord r 0 } } :=
  if_neg (by omega)

theorem debugUnlock_refuses {t : State} {r : KcwRun} (h : operandWord r 0 = 0 ∨ 8 ≤ operandWord r 0) :
    debugUnlock r t = endKeyed St.BAD_OP t :=
  if_pos (by omega)

end Sys2Proof.Machine
end

section
/-!
PROOFS. The effects that go on: LOAD_IMAGE reads its image (R409 to R411), ZEROISE empties the block and zeroes on
(R416, R436).
-/

namespace Sys2Proof.Machine

/-! ### LOAD_IMAGE (R409 to R411) -/

theorem onLedgerOrDay_begun (s : State) (key : BitVec 128) (a n : Nat) :
    onLedgerOrDay (begun s key) a n = onLedgerOrDay s a n := by
  have hreg {k : Nat} (hk : k ≠ R.KCW_DONE) : reg (begun s key) k = reg s k := reg_begun_other key hk
  have hlen : mirrorLen (begun s key) = mirrorLen s := by
    rw [mirrorLen, mirrorLen, jlog2, jlog2, tlog2, tlog2, regField, regField, regField, regField, hreg (by decide)]
  have hbase (m : Nat) : mirrorBase (begun s key) m = mirrorBase s m := by
    rw [mirrorBase, mirrorBase, hreg (by decide), hreg (by decide), hreg (by decide), hreg (by decide)]
  have hday : regField (begun s key) R.DAY_CFG 8 4 = regField s R.DAY_CFG 8 4 := congrArg (bits · 8 4) (hreg (by decide))
  rw [onLedgerOrDay, onLedgerOrDay, hlen, hbase, hbase, hreg (by decide), hreg (by decide), hday]
  rfl

theorem loadRefusal_begun (s : State) (key : BitVec 128) (o : LoadOps) :
    loadRefusal (begun s key) o = loadRefusal s o := by
  unfold loadRefusal
  rw [onLedgerOrDay_begun]
  rfl

theorem loadRefusal_lt {s : State} {o : LoadOps} {st : Nat} (h : loadRefusal s o = some st) : st < 256 := by
  have hite {p : Prop} [Decidable p] {n : Nat} {x : Option Nat} (hn : n < 256) (hx : ∀ c, x = some c → c < 256) (c : Nat)
      (hc : (if p then some n else x) = some c) : c < 256 := by
    split at hc
    · cases hc
      exact hn
    · exact hx c hc
  refine hite (by decide) ?_ st h
  iterate 6 refine hite (by decide) ?_
  exact fun c hc => nomatch hc

theorem startLoad_refuses {t : State} {r : KcwRun} {st : Nat} (h : loadRefusal t (readLoad r) = some st) :
    startLoad r t = endKeyed st t := by
  simp only [startLoad, h]

/-- A bill of one item that the balance covers is bought whole. -/
theorem buy_one {t : State} {b n : Nat} (hb : b ≠ 0) (h : CoinsThere t [(b, n)]) {cls : Nat} (hcls : cls ≠ 2)
    (cmd : Instr) (onWait body : State → State) : buy cls [(b, n)] cmd onWait body t = body (spend (n * unitPrice t b) t) := by
  obtain ⟨hqueue, hclk, hcost⟩ := h
  have hcovered : unitPrice t b * n ≤ t.purse.balance := by simpa using hcost
  have hunits : (if unitPrice t b = 0 then n
      else if clkUp t 22 then min n (t.purse.balance / unitPrice t b) else 0) = n := by
    rw [if_pos hclk]
    split
    · rfl
    · next hp =>
      refine Nat.min_eq_left ((Nat.le_div_iff_mul_le (Nat.pos_of_ne_zero hp)).2 ?_)
      rwa [Nat.mul_comm]
  have hpay : payBill [(b, n)] t = (spend (n * unitPrice t b) t, []) := by
    simp only [payBill, hunits, if_true]
  have hwait : mustWait t cls = false := by
    unfold mustWait
    rw [hqueue]
    rfl
  unfold buy
  rw [hqueue, hwait, hpay]
  simp only [List.any_nil, Bool.false_eq_true, if_false, if_neg hcls]
  split
  · next hzero =>
    have hn : n = 0 := by simpa [hb] using hzero
    rw [hn, Nat.zero_mul, spend_zero]
  · rfl

/-- The state in which a load buys the lines of its image. -/
def loadBegun (r : KcwRun) (t : State) : State :=
  beginActivity (loadActivity (readLoad r)) (onRun (fun x => { x with bound := loadBound t (readLoad r) }) t)

/-- A load that nothing refuses, with its coins there, reads its image. -/
theorem startLoad_reads {t : State} {r : KcwRun} (hnone : loadRefusal t (readLoad r) = none)
    (hfree : holder t (loadActivity (readLoad r)) = none) (hcoins : CoinsThere t [(10, ((readLoad r).len + 63) / 64)]) :
    startLoad r t = setStage .image (spend (((readLoad r).len + 63) / 64 * unitPrice t 10) (loadBegun r t)) := by
  have hthere : CoinsThere (loadBegun r t) [(10, ((readLoad r).len + 63) / 64)] := hcoins
  simp only [startLoad, hnone, hfree]
  exact buy_one (by decide) hthere (by decide : (1 : Nat) ≠ 2) .loadImage (setStage .coins) (setStage .image)

theorem spend_reserve (c : Nat) (t : State) : (spend c t).reserve = t.reserve := by
  unfold spend bump64
  split <;> rfl

/-- What the start of the reading leaves: the command at its stage, the activity, and what was paid. -/
theorem loadBegun_paid {t : State} {r : KcwRun} (hrun : t.kcw.run = some r) {cost : Nat} (hcost : cost ≤ t.purse.balance) :
    let u := setStage .image (spend cost (loadBegun r t))
    u.kcw = { t.kcw with run := some { r with bound := loadBound t (readLoad r), stage := .image } }
      ∧ reg u R.KCW_DONE = reg t R.KCW_DONE ∧ u.reserve.acts = t.reserve.acts ++ [loadActivity (readLoad r)]
      ∧ u.purse.balance + cost = t.purse.balance := by
  have hbound : (loadBegun r t).kcw
      = { t.kcw with run := t.kcw.run.map (fun x => { x with bound := loadBound t (readLoad r) }) } := rfl
  intro u
  refine ⟨?_, spend_regs cost (loadBegun r t) _ (by decide), ?_, ?_⟩
  · have hstage : u.kcw = { (spend cost (loadBegun r t)).kcw with
        run := (spend cost (loadBegun r t)).kcw.run.map (fun x => { x with stage := .image }) } := rfl
    rw [hstage, spend_kcw, hbound, hrun]
    rfl
  · exact congrArg ReserveState.acts (spend_reserve cost (loadBegun r t))
  · have hbalance : u.purse.balance = t.purse.balance - cost := spend_balance cost (loadBegun r t)
    rw [hbalance, Nat.sub_add_cancel hcost]

/-! ### ZEROISE (R416, R436) -/

/-- What ZEROISE empties once the resets are over. -/
def contentsEmptied (t : State) : State := zeroContents { t with
  purse := { t.purse with queue := [], balance := 0 },
  kcw := { t.kcw with keys := [], scopes := 0, hashLock := false } }

/-- The journal closes with it, and the zeroing goes on. -/
def emptied (t : State) : State := setStage .zeroing (clearRegBit R.LDG_CTRL 0 (contentsEmptied t))

theorem startZeroise_eq (s : State) : startZeroise s = emptied (zeroReset s) := rfl

theorem emptied_run {t : State} {r : KcwRun} (h : t.kcw.run = some r) :
    (emptied t).kcw.run = some { r with stage := .zeroing } := by
  have hmap : (emptied t).kcw.run = t.kcw.run.map (fun x => { x with stage := .zeroing }) := rfl
  rw [hmap, h]
  rfl

theorem reg_emptied (t : State) {k : Nat} (hk : k ≠ R.LDG_CTRL) : reg (emptied t) k = reg t k :=
  reg_setReg_other (setBits (reg t R.LDG_CTRL) 0 1 0) t hk

theorem emptied_journal (t : State) : (reg (emptied t) R.LDG_CTRL).testBit 0 = false :=
  testBit_reg_clearRegBit R.LDG_CTRL 0 t

/-- Every thread is as before its first start. -/
theorem emptied_thread {t : State} (h : t.threads = []) (x : Who) : thread (emptied t) x = Thread.initial :=
  congrArg (fun ts => Tab.get Thread.initial ts (Who.key x)) h

end Sys2Proof.Machine
end

section
/-!
PROOFS. REPAIR: what Table 14.6 admits, its first map copy, and what each action of Table 14.5 changes (R413, R456 to
R458).
-/

namespace Sys2Proof.Machine

/-! ### REPAIR (R413, R456 to R458) -/

theorem repairRange_begun (s : State) (key : BitVec 128) (p : Repair) :
    repairRange (begun s key) p = repairRange s p := by
  have hvmax : vmax (begun s key) = vmax s := congrArg (bits · 16 10) (reg_begun_other key (by decide))
  unfold repairRange
  rw [hvmax]
  rfl

/-- A REPAIR that Table 14.6 admits. -/
structure Admitted (s : State) (w : Nat) : Prop where
  form : repairForm w = true
  range : repairRange s (readRepair w) = true
  free : repairHolder s (readRepair w) = none
  allowed : repairBarred s (readRepair w) = false
  room : s.reserve.map.length < 4088

theorem Admitted.begun {s : State} {w : Nat} (h : Admitted s w) (key : BitVec 128) : Admitted (begun s key) w :=
  ⟨h.form, (repairRange_begun ..).trans h.range, h.free, h.allowed, h.room⟩

/-- A map copy has at least its header. -/
theorem mapLines_ne_nil (s t : State) (a : Nat) (rs : List Repair) (gen : Nat) : writeSpan s a (mapBytes t rs gen) ≠ [] := by
  have hbytes (bs : List Byte) (hne : bs ≠ []) : writeSpan s a bs ≠ [] := by
    simp [writeSpan, chunksOf, hne]
  refine hbytes _ ?_
  simp [mapBytes, mapHeader, toLE]

/-- The bytes that a copy is written with stand in an access of lines. -/
theorem startAccess_lines {job : Job} (h : job.regions = []) (cls : Nat) (bill : List (Nat × Nat)) (kind : ReqKind)
    (req : Nat) {lines : List Line} (hne : lines ≠ []) (s : State) :
    ∃ a ∈ (startAccess cls bill kind req lines job s).accesses, a.kind = kind ∧ a.job = job ∧ a.lines ≠ [] := by
  have hissued : issuedLines job lines s = (lines, s) := by
    have hinside : lines.any (outsideLine s job) = false := by simp [outsideLine, h]
    rw [issuedLines, hinside, if_neg Bool.false_ne_true]
  have hmem : ((s.nextAccess, kind, job), (buyAccess cls bill s.nextAccess s).2, lines.map Line.addr, lines.map Line.data)
      ∈ (startAccess cls bill kind req lines job s).accesses.map Access.content := by
    rw [startAccess_eq, hissued, sendAll_content, List.map_append]
    exact List.mem_append_right _ (List.mem_singleton.2 rfl)
  obtain ⟨a, ha, he⟩ := List.mem_map.1 hmem
  simp only [Access.content, Access.purpose, Prod.mk.injEq] at he
  obtain ⟨⟨_, hkind, hjob⟩, _, haddr, _⟩ := he
  exact ⟨a, ha, hkind, hjob, fun hnil => hne (List.map_eq_nil_iff.1 (haddr.symm.trans (congrArg (List.map Line.addr) hnil)))⟩

/-- The command goes on to the map copies, with the status that its repair gave. -/
def goesOnToMap (v : State × Nat) : State := setStage .mapping (onRun (fun x => { x with status := v.2 }) v.1)

theorem startRepair_admitted {t : State} {r : KcwRun} (h : Admitted t (operandWord r 0)) :
    let p := readRepair (operandWord r 0)
    startRepair r t = writeCopy 0 false p (goesOnToMap (applyRepair p t)) := by
  obtain ⟨hform, hrange, hfree, hallowed, hroom⟩ := h
  have hmap := (applyRepair_doneKept (readRepair (operandWord r 0)) t).map
  have hfits : ¬ 4088 ≤ (applyRepair (readRepair (operandWord r 0)) t).1.reserve.map.length := by
    rw [hmap]
    omega
  unfold startRepair
  simp only [hform, hrange, hfree, hallowed, Bool.not_true, Bool.false_eq_true, if_false]
  exact if_neg hfits

/-- While the first copy is being written the command is at its stage, and nothing else is different. -/
theorem writeCopy_goesOnToMap {v : State × Nat} {r : KcwRun} (hrun : v.1.kcw.run = some r) (p : Repair) :
    let u := writeCopy 0 false p (goesOnToMap v)
    u.kcw = { v.1.kcw with run := some { r with status := v.2, stage := .mapping } } ∧ u.reserve = v.1.reserve
      ∧ reg u R.KCW_DONE = reg v.1 R.KCW_DONE ∧ reg u R.RSV_RETIRED = reg v.1 R.RSV_RETIRED
      ∧ ∃ a ∈ u.accesses, a.kind = .write ∧ a.job = .mapWrite 0 false ∧ a.lines ≠ [] := by
  have hwritten : Swept (goesOnToMap v) (writeCopy 0 false p (goesOnToMap v)) :=
    startAccess_swept _ _ _ _ _ _ (Swept.refl _)
  have hstage : (goesOnToMap v).kcw = { v.1.kcw with
      run := (v.1.kcw.run.map (fun x => { x with status := v.2 })).map (fun x => { x with stage := .mapping }) } := rfl
  refine ⟨?_, hwritten.reserve, hwritten.regs _ (by decide), hwritten.regs _ (by decide),
    startAccess_lines rfl _ _ _ _ (mapLines_ne_nil _ _ _ _ _) _⟩
  rw [hwritten.kcw, hstage, hrun]
  rfl

/-! ### What the actions of Table 14.5 change -/

theorem applyRepair_remap {p : Repair} (h : p.action = 1) (t : State) :
    (applyRepair p t).1 = (remapRow p.cls p.idx p.row false t).1 := by simp [applyRepair, h]

theorem applyRepair_retire {p : Repair} (h : p.action = 2) (t : State) :
    (applyRepair p t).1 = (retireUnit p.cls p.idx t).1 := by simp [applyRepair, h]

theorem applyRepair_restore {p : Repair} (h : p.action = 3) (t : State) :
    (applyRepair p t).1 = restoreUnit p.cls p.idx t := by simp [applyRepair, h]

theorem applyRepair_margin {p : Repair} (h : p.action = 4) (t : State) :
    (applyRepair p t).1 = setMargin p.cls p.idx p.row t := by simp [applyRepair, h]

theorem remapRow_maps {t : State} {f m row x : Nat} (hin : unitOut t (macroClass f) m = false)
    (hdead : (f, m, row) ∉ t.reserve.dead) (hrow : row < 512)
    (hnew : ∀ e ∈ t.reserve.rowmap, ¬(e.1 = f ∧ e.2.1 = m ∧ (e.2.2.1 = row ∨ e.2.2.2 = row)))
    (hspare : spareRow t f m = some x) :
    (remapRow f m row false t).1.reserve.rowmap = t.reserve.rowmap ++ [(f, m, row, x)] := by
  have hnone : t.reserve.rowmap.find? (fun e => e.1 == f && e.2.1 == m && (e.2.2.2 == row || e.2.2.1 == row)) = none := by
    refine List.find?_eq_none.2 fun e he hmatch => hnew e he ?_
    simp only [Bool.and_eq_true, Bool.or_eq_true, beq_iff_eq] at hmatch
    obtain ⟨⟨hf, hm⟩, hr⟩ := hmatch
    exact ⟨hf, hm, hr.symm⟩
  have hlive : (unitOut t (macroClass f) m || t.reserve.dead.contains (f, m, row)) = false := by
    simp [hin, hdead]
  have hmapped : remapRow f m row false t = (bump R.RSV_ROWMAP 1 (mapRow f m row x t), St.OK) := by
    unfold remapRow
    simp only [hlive, hnone, hspare, Nat.not_le.2 hrow, Bool.false_eq_true, if_false]
  rw [hmapped]
  rfl

theorem bankAbsent_out (b : Nat) (t : State) : (unitsView (bankAbsent b t)).out = t.reserve.out := by
  have hreload (k : Nat) (u : State) : unitsView (startReload k u) = unitsView u := by
    unfold startReload
    split
    · rfl
    · exact startAccess_units ..
  unfold bankAbsent
  dsimp only
  rw [foldl_units _ _ _ fun u k => hreload k u]
  split
  · rw [clearPoison_units]
    rfl
  · rfl

theorem spareOut_out (cls i : Nat) (t : State) : (unitsView (spareOut cls i t)).out = t.reserve.out :=
  congrArg UnitsView.out (logFirst_units _ _ _ (by decide) (by decide))

theorem moveStreams_units (cls : Nat) (old t : State) : unitsView (moveStreams cls old t) = unitsView t := by
  simp [moveStreams]

/-- A swap that no running activity keeps waiting begins. -/
theorem startOrWait_begins {a : Activity} {t : State} (h : holder t a = none) : a ∈ (startOrWait a t).reserve.acts := by
  have hleave (u : State) : (leaveBanks a u).reserve.acts = u.reserve.acts := by
    unfold leaveBanks
    repeat' split
    all_goals rfl
  rw [startOrWait, h, if_neg (by simp), beginActivity, fillFor_reserve, hleave]
  exact List.mem_append_right _ (List.mem_singleton.2 rfl)

/-- What holds the unit of a RETIRE or a RESTORE that fills a unit under SPARE_SWAP. -/
theorem holder_of_swapsFor {t : State} {p : Repair} (h : repairHolder t p = none) (hone : p.action ≠ 1) (hfour : p.action ≠ 4)
    (hswap : swapsFor t p = true) : holder t ⟨3, p.idx, p.cls⟩ = none := by
  rw [repairHolder, if_neg hone, if_neg hfour, if_pos hswap] at h
  exact h

/-- The unit goes out of service at once, or a SPARE_SWAP for it begins (R439, Table 14.1). -/
theorem retireUnit_leaves {t : State} {p : Repair} (hboot : t.boot.phase = 6) (haction : p.action = 2)
    (hfree : repairHolder t p = none) (hin : unitOut t p.cls p.idx = false) (hleaving : leaving t p.cls p.idx = false) :
    let u := (retireUnit p.cls p.idx t).1
    unitOut u p.cls p.idx = true ∨ (⟨3, p.idx, p.cls⟩ : Activity) ∈ u.reserve.acts := by
  have hout {u v : State} (h : (unitsView u).out = (unitsView (takeOut p.cls p.idx v)).out) :
      unitOut u p.cls p.idx = true := (unitOut_of_view h p.cls p.idx).trans (unitOut_takeOut ..)
  intro u
  have hu : u = (retireUnit p.cls p.idx t).1 := rfl
  unfold retireUnit at hu
  rw [hleaving, if_neg Bool.false_ne_true] at hu
  dsimp only at hu
  split at hu
  · exact Or.inl (hout (v := bump R.RSV_RETIRED 1 t) (by rw [hu]))
  split at hu
  · next hidle hlow =>
    split at hu
    · next x xs hspares =>
      have hnotIdle : ¬(builtUnits t.build.size p.cls ≤ p.idx ∧ functionOf t p.cls p.idx = p.idx) := fun h =>
        hidle ⟨hlow, Bool.and_eq_true_iff.2 ⟨decide_eq_true h.1, decide_eq_true h.2⟩⟩
      have hleft : (sparesLeft t p.cls p.idx).isEmpty = false := congrArg List.isEmpty hspares
      have hfills : fills t p.cls = true := by simp [fills, hboot, hlow]
      have hswaps : swapsFor t p = true := by
        simp only [swapsFor, hfills, haction, hin, hleft, Bool.true_and, if_true, Bool.not_false, Bool.and_true,
          Bool.or_eq_true, decide_eq_true_eq]
        omega
      rw [if_pos (show fills (bump R.RSV_RETIRED 1 t) p.cls = true from hfills)] at hu
      have hholder : holder (bump R.RSV_RETIRED 1 t) ⟨3, p.idx, p.cls⟩ = none :=
        holder_of_swapsFor hfree (by omega) (by omega) hswaps
      exact Or.inr (hu ▸ startOrWait_begins hholder)
    · refine Or.inl (hout (v := bump R.RSV_RETIRED 1 t) ?_)
      rw [hu]
      dsimp only
      split
      · rw [bankAbsent_out]
        exact spareOut_out ..
      · exact spareOut_out ..
  split at hu
  · next hclerk =>
    refine Or.inl (hout (v := bump R.RSV_RETIRED 1 t) ?_)
    rw [hu, hclerk, retireClerk_units]
  · refine Or.inl (hout (v := bump R.RSV_RETIRED 1 t) ?_)
    rw [hu, moveStreams_units]

/-- RETIRE of a unit that is in service and of which no SPARE_SWAP runs or waits counts, and the unit leaves. -/
theorem retireUnit_retires {t : State} {p : Repair} (hboot : t.boot.phase = 6) (haction : p.action = 2)
    (hfree : repairHolder t p = none) (hin : unitOut t p.cls p.idx = false)
    (hswap : ∀ a ∈ t.reserve.acts ++ t.reserve.waits, ¬(a.code = 3 ∧ a.cls = p.cls ∧ a.res = p.idx)) :
    let u := (retireUnit p.cls p.idx t).1
    reg u R.RSV_RETIRED = satAdd 32 (reg t R.RSV_RETIRED) 1
      ∧ (unitOut u p.cls p.idx = true ∨ (⟨3, p.idx, p.cls⟩ : Activity) ∈ u.reserve.acts) := by
  have hasked : swapAsked t p.cls p.idx = false := by
    refine List.any_eq_false.2 fun a ha h => hswap a ha ?_
    simp only [Bool.and_eq_true, decide_eq_true_eq] at h
    obtain ⟨⟨hcode, hcls⟩, hres⟩ := h
    exact ⟨hcode, hcls, hres⟩
  have hleaving : leaving t p.cls p.idx = false := by rw [leaving, hin, hasked]; rfl
  exact ⟨(congrArg CommandView.retired (retireUnit_command hleaving)).trans (reg_bump_one ..),
    retireUnit_leaves hboot haction hfree hin hleaving⟩

theorem bringBack_in (cls i : Nat) (t : State) : unitOut (bringBack cls i t) cls i = false := by
  have hmoved (old u : State) : unitOut (moveStreams cls old u) cls i = unitOut u cls i :=
    unitOut_of_view (congrArg UnitsView.out (moveStreams_units ..)) cls i
  unfold bringBack
  dsimp only
  split
  · rw [hmoved]
    split <;> simp [unitOut, bankBack]
  · split <;> simp [unitOut, bankBack]

/-- A unit that RESTORE names comes back at once, or a SPARE_SWAP that fills it begins. -/
theorem restoreUnit_restores {t : State} {p : Repair} (hcls : p.cls ≤ 6) (haction : p.action = 3)
    (hfree : repairHolder t p = none) (hallowed : repairBarred t p = false) :
    let u := restoreUnit p.cls p.idx t
    unitOut u p.cls p.idx = false ∨ (p.cls < 4 ∧ (⟨3, p.idx, p.cls⟩ : Activity) ∈ u.reserve.acts) := by
  have hout : unitOut t p.cls p.idx = true := by simpa [repairBarred, haction] using hallowed
  intro u
  by_cases hswap : fills t p.cls ∧ p.idx < builtUnits t.build.size p.cls
  · have hu : u = startOrWait ⟨3, p.idx, p.cls⟩ t := if_pos hswap
    obtain ⟨hfills, hbuilt⟩ := hswap
    have hswaps : swapsFor t p = true := by simp [swapsFor, hfills, hbuilt, haction, hout]
    have hlow : p.cls < 4 := by
      have hkind : p.cls < 4 ∨ p.cls = 7 := by simpa using (Bool.and_eq_true_iff.1 hfills).2
      omega
    exact Or.inr ⟨hlow, hu ▸ startOrWait_begins (holder_of_swapsFor hfree (by omega) (by omega) hswaps)⟩
  · have hu : u = bringBack p.cls p.idx t := if_neg hswap
    exact Or.inl (hu ▸ bringBack_in ..)

theorem setMargin_sets (d step mv : Nat) (t : State) : let u := setMargin d step mv t
    stepOfDomain u d = step
      ∧ u.reserve.vask = (if t.reserve.vreq = mv ∧ t.reserve.vask = [] then [] else t.reserve.vask ++ [(mv, 4)]) := by
  unfold setMargin
  dsimp only
  split
  · next h => exact ⟨Tab.get_set_same 0 t.reserve.steps d step, h.2⟩
  · exact ⟨Tab.get_set_same 0 t.reserve.steps d step, rfl⟩

/-- The classes of RETIRE and RESTORE (Table 14.6). -/
theorem repairForm_cls {w : Nat} (h : repairForm w = true) (haction : (readRepair w).action = 2 ∨ (readRepair w).action = 3) :
    (readRepair w).cls ≤ 6 := by
  have hone : (readRepair w).action ≠ 1 := by omega
  simpa [repairForm, hone, haction] using (Bool.and_eq_true_iff.1 h).2

/-- An action that Table 14.5 does not have. -/
theorem repairForm_unknown {w : Nat} (h : (readRepair w).action = 0 ∨ 4 < (readRepair w).action) : repairForm w = false := by
  have hone : (readRepair w).action ≠ 1 := by omega
  have htwo : ¬((readRepair w).action = 2 ∨ (readRepair w).action = 3) := by omega
  have hfour : (readRepair w).action ≠ 4 := by omega
  simp [repairForm, hone, htwo, hfour]

end Sys2Proof.Machine
end

section
/-!
PROOFS. A keyed command that passes every check takes effect, opcode by opcode and action by action (R404, R407, R408),
and the obligation of it.
-/

namespace Sys2Proof.Machine

/-! ### A command that passes every check -/

/-- The command of the window passes the checks of R404 and R405, under a key and an epoch. -/
structure PassesChecks (s : State) (k : BitVec 128) (e : Word) : Prop where
  port : clkUp s 20 = true
  clock : clkUp s 24 = true
  booted : s.boot.phase = 6
  idle : s.kcw.run = none
  form : formGood (windowRun s) = true
  quiet : Tab.get false s.kcw.backoff (windowRun s).slot = false
  epoch : s.kcw.epoch = some e
  key : slotKey s (windowRun s).slot = some k
  tag : cmacTag (keyBytes k) (keyedMessage s (windowRun s) e) = (windowRun s).tag
  counter : slotMark s (windowRun s).slot < (windowRun s).counter

theorem readLoad_takenRun (s : State) (key : BitVec 128) : readLoad (takenRun s key) = readLoad (windowRun s) := by
  have hkey (r : KcwRun) : readLoad { r with key := key } = readLoad r := rfl
  exact hkey (windowRun s)

theorem operandWord_takenRun (s : State) (key : BitVec 128) (i : Nat) :
    operandWord (takenRun s key) i = operandWord (windowRun s) i := rfl

/-- A keyed command runs at a stage. -/
def RunsAt (u : State) (r : KcwRun) (st : KcwStage) : Prop :=
  ∃ x, u.kcw.run = some x ∧ x.stage = st ∧ x.opcode = r.opcode ∧ x.ops = r.ops

/-- The command is submitted with what the window holds. -/
def Submits (c : Instr) (s : State) : Prop := ∃ p : KcwRun → Bool, exec c s = goWith p s ∧ p (windowRun s) = true

section
variable {s : State} (k : BitVec 128)

/-- The command of the window carried out. -/
theorem carryOut_begun : carryOut (begun s k)
    = if (windowRun s).opcode = 1 then startLoad (takenRun s k) (begun s k)
      else if (windowRun s).opcode = 2 then setCeiling (takenRun s k) (begun s k)
      else if (windowRun s).opcode = 3 then startRepair (takenRun s k) (begun s k)
      else if (windowRun s).opcode = 4 then setHash (takenRun s k) (begun s k)
      else if (windowRun s).opcode = 5 then startZeroise (begun s k)
      else debugUnlock (takenRun s k) (begun s k) := rfl

theorem carryOut_load (h : (windowRun s).opcode = 1) : carryOut (begun s k) = startLoad (takenRun s k) (begun s k) := by
  simp [carryOut_begun, h]

theorem carryOut_ceiling (h : (windowRun s).opcode = 2) :
    carryOut (begun s k) = setCeiling (takenRun s k) (begun s k) := by
  simp [carryOut_begun, h]

theorem carryOut_repair (h : (windowRun s).opcode = 3) :
    carryOut (begun s k) = startRepair (takenRun s k) (begun s k) := by
  simp [carryOut_begun, h]

theorem carryOut_hash (h : (windowRun s).opcode = 4) : carryOut (begun s k) = setHash (takenRun s k) (begun s k) := by
  simp [carryOut_begun, h]

theorem carryOut_zeroise (h : (windowRun s).opcode = 5) : carryOut (begun s k) = startZeroise (begun s k) := by
  simp [carryOut_begun, h]

theorem carryOut_unlock (h : (windowRun s).opcode = 6) :
    carryOut (begun s k) = debugUnlock (takenRun s k) (begun s k) := by
  simp [carryOut_begun, h]

end

section
variable {s : State} {k : BitVec 128} {e : Word}

/-- While the journal is not ready the command takes its effect at once (R408). -/
theorem PassesChecks.exec_begins (h : PassesChecks s k e) {c : Instr} (hc : Submits c s) (hready : s.ledger.ready = false)
    {u : State} (hu : carryOut (begun s k) = u) : exec c s = .next (sweep u) := by
  obtain ⟨p, hexec, hp⟩ := hc
  have htaken := exec_taken hexec hp h.port h.clock h.booted h.idle h.form h.quiet h.epoch h.key h.tag h.counter
  have htake := takeKeyed_eq (s := submitted s) (r := windowRun s) rfl k
  have hclosed : (submitted s).ledger.ready = false := hready
  have hbegun : { markRaised (windowRun s) k (submitted s) with
      kcw := { (markRaised (windowRun s) k (submitted s)).kcw with hwmPend := true } } = begun s k := rfl
  rw [hclosed, if_neg Bool.false_ne_true, hbegun, hu] at htake
  rw [htaken, htake]

/-- A command that ends at once with a status, and changes nothing else, was taken all the same (R407). -/
theorem PassesChecks.ends (h : PassesChecks s k e) {c : Instr} (hc : Submits c s) (hready : s.ledger.ready = false)
    {st : Nat} (hst : st < 256) (hu : carryOut (begun s k) = endKeyed st (begun s k)) :
    exec c s = .next (sweep (endKeyed st (begun s k))) ∧ Taken s (windowRun s) (endKeyed st (begun s k))
      ∧ KeyedDone (endKeyed st (begun s k)) st :=
  ⟨h.exec_begins hc hready hu, endKeyed_taken (begun_taken s k) _, endKeyed_done hst _⟩

end

section
variable {s : State} {k : BitVec 128} {e : Word} (h : PassesChecks s k e) (hready : s.ledger.ready = false)
include h hready

/-! ### The effects that end at once -/

theorem ceiling_set (hop : (windowRun s).opcode = 2)
    (hfloor : s.build.size.floor ≤ operandWord (windowRun s) 0) (hmax : operandWord (windowRun s) 0 ≤ s.build.size.ceilMax)
    (hword : operandWord (windowRun s) 0 < 2 ^ 16) : EndsIn (exec .setCeiling s) (fun u =>
      Taken s (windowRun s) u ∧ KeyedDone u 0x00 ∧ reg u R.PUR_CEIL = operandWord (windowRun s) 0
        ∧ reg u R.PUR_ALLOW = min (operandWord (windowRun s) 0) (reg s R.PUR_ALLOW)) := by
  have heffect := (carryOut_ceiling k hop).trans (setCeiling_sets (r := takenRun s k) hfloor hmax hword)
  refine ⟨_, h.exec_begins (exec_submits (by simp [hop])) hready heffect, endKeyed_taken ?_ _,
    endKeyed_done (by decide) _, ?_, ?_⟩
  · exact (begun_taken s k).of_kept rfl rfl ((reg_setReg_other _ _ (by decide)).trans (reg_setReg_other _ _ (by decide)))
  · rw [reg_endKeyed_other _ _ (by decide), reg_setReg_other _ _ (by decide), reg_setReg_same]
    exact Nat.mod_eq_of_lt (hword.trans (by decide))
  · rw [reg_endKeyed_other _ _ (by decide), reg_setReg_same, reg_begun_other k (by decide)]
    exact Nat.mod_eq_of_lt ((Nat.min_le_left ..).trans_lt (hword.trans (by decide)))

theorem ceiling_refused (hop : (windowRun s).opcode = 2)
    (hbad : operandWord (windowRun s) 0 < s.build.size.floor ∨ s.build.size.ceilMax < operandWord (windowRun s) 0
      ∨ 2 ^ 16 ≤ operandWord (windowRun s) 0) : EndsIn (exec .setCeiling s) (fun u => Taken s (windowRun s) u
      ∧ KeyedDone u 0x70 ∧ reg u R.PUR_CEIL = reg s R.PUR_CEIL ∧ reg u R.PUR_ALLOW = reg s R.PUR_ALLOW) := by
  obtain ⟨hexec, htaken, hdone⟩ := h.ends (c := .setCeiling) (st := St.BAD_OP) (exec_submits (by simp [hop])) hready
    (by decide) ((carryOut_ceiling k hop).trans (setCeiling_refuses (r := takenRun s k) hbad))
  exact ⟨_, hexec, htaken, hdone, (reg_endKeyed_other _ _ (by decide)).trans (reg_begun_other k (by decide)),
    (reg_endKeyed_other _ _ (by decide)).trans (reg_begun_other k (by decide))⟩

theorem hash_set (hop : (windowRun s).opcode = 4)
    (hv : ofLE ((windowRun s).ops.take 48) < 2 ^ 378) (hidle : stackSettable s = true) :
    EndsIn (exec .setHash s) (fun u => Taken s (windowRun s) u ∧ KeyedDone u 0x00 ∧ u.kcw.hashLock = true
      ∧ ∀ j, j < 9 → hashRow u j = ofLE ((windowRun s).ops.take 48) / 2 ^ (42 * j) % 2 ^ 42) := by
  have heffect := (carryOut_hash k hop).trans (setHash_sets (t := begun s k) (r := takenRun s k) hv hidle)
  have htaken := (begun_taken s k).of_view (setHashRows_command (ofLE ((windowRun s).ops.take 48)) 9 (begun s k))
  refine ⟨_, h.exec_begins (exec_submits (by simp [hop])) hready heffect, endKeyed_taken (htaken.put_kcw rfl rfl) _,
    endKeyed_done (by decide) _, rfl, fun j hj => ?_⟩
  rw [hashRow_endKeyed]
  exact (hashRow_setHashRows ..).trans (if_pos hj)

theorem hash_refused (hop : (windowRun s).opcode = 4)
    (hbad : 2 ^ 378 ≤ ofLE ((windowRun s).ops.take 48) ∨ stackSettable s = false) :
    EndsIn (exec .setHash s) (fun u => Taken s (windowRun s) u ∧ KeyedDone u 0x70 ∧ u.kcw.hashLock = s.kcw.hashLock
      ∧ ∀ j, j < 9 → hashRow u j = hashRow s j) := by
  obtain ⟨hexec, htaken, hdone⟩ := h.ends (c := .setHash) (st := St.BAD_OP) (exec_submits (by simp [hop])) hready
    (by decide) ((carryOut_hash k hop).trans (setHash_refuses (t := begun s k) (r := takenRun s k) hbad))
  exact ⟨_, hexec, htaken, hdone, rfl, fun j _ => (hashRow_endKeyed ..).trans (hashRow_begun ..)⟩

theorem scopes_opened (hop : (windowRun s).opcode = 6)
    (hne : operandWord (windowRun s) 0 ≠ 0) (hlt : operandWord (windowRun s) 0 < 8) : EndsIn (exec .debugUnlock s) (fun u =>
      Taken s (windowRun s) u ∧ KeyedDone u 0x00 ∧ u.kcw.scopes = s.kcw.scopes ||| operandWord (windowRun s) 0) := by
  have heffect := (carryOut_unlock k hop).trans (debugUnlock_opens (t := begun s k) (r := takenRun s k) hne hlt)
  refine ⟨_, h.exec_begins (exec_submits (by simp [hop])) hready heffect, endKeyed_taken ?_ _,
    endKeyed_done (by decide) _, rfl⟩
  exact (begun_taken s k).put_kcw rfl rfl

theorem scopes_refused (hop : (windowRun s).opcode = 6)
    (hbad : operandWord (windowRun s) 0 = 0 ∨ 8 ≤ operandWord (windowRun s) 0) : EndsIn (exec .debugUnlock s) (fun u =>
      Taken s (windowRun s) u ∧ KeyedDone u 0x70 ∧ u.kcw.scopes = s.kcw.scopes) := by
  obtain ⟨hexec, htaken, hdone⟩ := h.ends (c := .debugUnlock) (st := St.BAD_OP) (exec_submits (by simp [hop])) hready
    (by decide) ((carryOut_unlock k hop).trans (debugUnlock_refuses (r := takenRun s k) hbad))
  exact ⟨_, hexec, htaken, hdone, rfl⟩

/-! ### LOAD_IMAGE and ZEROISE -/

theorem load_refused (hop : (windowRun s).opcode = 1) {st : Nat}
    (hbad : loadRefusal s (readLoad (windowRun s)) = some st) : EndsIn (exec .loadImage s) (fun u =>
      Taken s (windowRun s) u ∧ KeyedDone u st ∧ u.reserve = s.reserve) := by
  have hrefusal : loadRefusal (begun s k) (readLoad (takenRun s k)) = some st := by
    rw [loadRefusal_begun, readLoad_takenRun, hbad]
  obtain ⟨hexec, htaken, hdone⟩ := h.ends (c := .loadImage) (exec_submits (by simp [hop])) hready (loadRefusal_lt hbad)
    ((carryOut_load k hop).trans (startLoad_refuses hrefusal))
  have hkept := (endKeyed_reserve st (begun s k)).trans (begun_reserve s k)
  exact ⟨_, hexec, htaken, hdone, hkept⟩

theorem load_reads (hop : (windowRun s).opcode = 1)
    (hgood : loadRefusal s (readLoad (windowRun s)) = none) (hfree : holder s (loadActivity (readLoad (windowRun s))) = none)
    (hcoins : CoinsThere s [(10, ((readLoad (windowRun s)).len + 63) / 64)]) : EndsIn (exec .loadImage s) (fun u =>
      Taken s (windowRun s) u ∧ RunsAt u (windowRun s) .image
        ∧ u.reserve.acts = s.reserve.acts ++ [loadActivity (readLoad (windowRun s))]
        ∧ u.purse.balance + unitPrice s 10 * (((readLoad (windowRun s)).len + 63) / 64) = s.purse.balance) := by
  have hrefusal : loadRefusal (begun s k) (readLoad (takenRun s k)) = none := by
    rw [loadRefusal_begun, readLoad_takenRun, hgood]
  have heffect := (carryOut_load k hop).trans (startLoad_reads hrefusal (by rw [readLoad_takenRun]; exact hfree)
    (by rw [readLoad_takenRun]; exact hcoins))
  obtain ⟨_, _, hcost⟩ := hcoins
  have hcovered : unitPrice s 10 * (((readLoad (windowRun s)).len + 63) / 64) ≤ s.purse.balance := by simpa using hcost
  have hprice : unitPrice (begun s k) 10 = unitPrice s 10 := rfl
  rw [readLoad_takenRun, hprice, Nat.mul_comm] at heffect
  obtain ⟨hkcw, hdone, hacts, hbalance⟩ := loadBegun_paid (t := begun s k) (begun_run s k) hcovered
  rw [readLoad_takenRun] at hacts
  refine ⟨_, h.exec_begins (exec_submits (by simp [hop])) hready heffect, ?_,
    ⟨_, congrArg KcwState.run hkcw, rfl, rfl, rfl⟩, hacts, hbalance⟩
  exact (begun_taken s k).of_kept ((congrArg KcwState.marks hkcw).trans rfl) ((congrArg KcwState.hwmPend hkcw).trans rfl) hdone

theorem zeroise_empties (hop : (windowRun s).opcode = 5) :
    EndsIn (exec .zeroise s) (fun u => Taken s (windowRun s) u ∧ RunsAt u (windowRun s) .zeroing
      ∧ u.kcw.keys = [] ∧ u.kcw.scopes = 0 ∧ u.kcw.hashLock = false ∧ u.prog = [] ∧ u.scratch = [] ∧ u.streams = []
      ∧ u.hops = [] ∧ u.tenants = [] ∧ u.grammars = [] ∧ u.maskSets = [] ∧ u.clear.tiles = [] ∧ u.clear.rows = []
      ∧ u.reserve.acts = [] ∧ u.purse.balance = 0 ∧ u.purse.queue = [] ∧ (reg u R.LDG_CTRL).testBit 0 = false
      ∧ ∀ x : Who, (thread u x).st ≠ .running) := by
  have heffect := (carryOut_zeroise k hop).trans (startZeroise_eq (begun s k))
  obtain ⟨hthreads, hview⟩ := zeroReset_threads_command (begun s k)
  have hrun := (congrArg KcwState.run (kcw_of_command hview)).trans (begun_run s k)
  have hacts := zeroReset_acts (begun s k)
  have htaken := (begun_taken s k).of_view hview
  generalize zeroReset (begun s k) = t at *
  refine ⟨_, h.exec_begins (exec_submits (by simp [hop])) hready heffect, ?_, ?_, rfl, rfl, rfl, rfl, rfl, rfl,
    rfl, rfl, rfl, rfl, rfl, rfl, hacts, rfl, rfl, emptied_journal t, fun x => ?_⟩
  · exact htaken.of_kept rfl rfl (reg_emptied t (by decide))
  · exact ⟨_, emptied_run hrun, rfl, rfl, rfl⟩
  · rw [emptied_thread hthreads]
    decide

/-! ### REPAIR -/

/-- A REPAIR is taken, its first map copy is being written, and what it changes is live. -/
def Repairs (c : Instr) (s : State) (P : State → Prop) : Prop :=
  EndsIn (exec c s) (fun u => Taken s (windowRun s) u ∧ RunsAt u (windowRun s) .mapping
    ∧ (∃ a ∈ u.accesses, a.kind = .write ∧ a.job = .mapWrite 0 false ∧ a.lines ≠ []) ∧ P u)

theorem repair_mapped (hop : (windowRun s).opcode = 3) {c : Instr}
    (hc : Submits c s) (hadmitted : Admitted s (operandWord (windowRun s) 0))
    {P : State → Prop} (hP : let v := (applyRepair (readRepair (operandWord (windowRun s) 0)) (begun s k)).1
      ∀ u : State, u.reserve = v.reserve → reg u R.RSV_RETIRED = reg v R.RSV_RETIRED → P u) : Repairs c s P := by
  have heffect := (carryOut_repair k hop).trans (startRepair_admitted (r := takenRun s k) (hadmitted.begun k))
  rw [operandWord_takenRun] at heffect
  have hkept := applyRepair_doneKept (readRepair (operandWord (windowRun s) 0)) (begun s k)
  generalize applyRepair (readRepair (operandWord (windowRun s) 0)) (begun s k) = v at *
  obtain ⟨hkcw, hreserve, hdone, hretired, hwrite⟩ := writeCopy_goesOnToMap
    ((congrArg KcwState.run hkept.kcw).trans (begun_run s k)) (readRepair (operandWord (windowRun s) 0))
  have htaken := (begun_taken s k).of_kept (congrArg KcwState.marks hkept.kcw) (congrArg KcwState.hwmPend hkept.kcw)
    hkept.done
  refine ⟨_, h.exec_begins hc hready heffect, ?_, ⟨_, congrArg KcwState.run hkcw, rfl, rfl, rfl⟩, hwrite,
    hP _ hreserve hretired⟩
  exact htaken.of_kept ((congrArg KcwState.marks hkcw).trans rfl) ((congrArg KcwState.hwmPend hkcw).trans rfl) hdone

/-- A REPAIR of an action that Table 14.5 does not have. -/
theorem repair_refused (hop : (windowRun s).opcode = 3)
    (hbad : let p := readRepair (operandWord (windowRun s) 0); p.action = 0 ∨ 4 < p.action) :
    EndsIn (exec .malformedKeyedCommand s) (fun u =>
      Taken s (windowRun s) u ∧ KeyedDone u 0x70 ∧ u.reserve = s.reserve) := by
  have hnone : ((List.range 4).any fun a => isRepair (a + 1) (windowRun s)) = false := by
    refine List.any_eq_false.2 fun a ha h => ?_
    have haction := of_decide_eq_true (Bool.and_eq_true_iff.1 h).2
    have hlt := List.mem_range.1 ha
    omega
  have hc : Submits .malformedKeyedCommand s := by
    refine ⟨fun r => (keyedForm r.opcode).isNone
      || (decide (r.opcode = 3) && !((List.range 4).any fun a => isRepair (a + 1) r)), rfl, ?_⟩
    simp [hop, hnone]
  have heffect : carryOut (begun s k) = endKeyed St.BAD_OP (begun s k) := by
    rw [carryOut_repair k hop, startRepair, operandWord_takenRun, repairForm_unknown hbad]
    rfl
  obtain ⟨hexec, htaken, hdone⟩ := h.ends hc hready (by decide) heffect
  have hkept := (endKeyed_reserve St.BAD_OP (begun s k)).trans (begun_reserve s k)
  exact ⟨_, hexec, htaken, hdone, hkept⟩

theorem row_remapped (hop : (windowRun s).opcode = 3)
    (hadmitted : Admitted s (operandWord (windowRun s) 0)) :
    let p := readRepair (operandWord (windowRun s) 0)
    p.action = 1 → Repairs .remapRow s (fun u => ∀ x, unitOut s (macroClass p.cls) p.idx = false →
      (p.cls, p.idx, p.row) ∉ s.reserve.dead → p.row < 512 →
      (∀ m ∈ s.reserve.rowmap, ¬(m.1 = p.cls ∧ m.2.1 = p.idx ∧ (m.2.2.1 = p.row ∨ m.2.2.2 = p.row))) →
      spareRow s p.cls p.idx = some x → u.reserve.rowmap = s.reserve.rowmap ++ [(p.cls, p.idx, p.row, x)]) := by
  intro p haction
  refine repair_mapped h hready hop (exec_submits (by simp [hop, show (readRepair _).action = 1 from haction])) hadmitted ?_
  intro v u hreserve _ x hin hdead hrow hnew hspare
  rw [hreserve, show v = _ from applyRepair_remap haction (begun s k)]
  exact remapRow_maps (t := begun s k) hin hdead hrow hnew hspare

theorem unit_retired (hop : (windowRun s).opcode = 3)
    (hadmitted : Admitted s (operandWord (windowRun s) 0)) :
    let p := readRepair (operandWord (windowRun s) 0)
    p.action = 2 → Repairs .retire s (fun u => unitOut s p.cls p.idx = false →
      (∀ a ∈ s.reserve.acts ++ s.reserve.waits, ¬(a.code = 3 ∧ a.cls = p.cls ∧ a.res = p.idx)) →
      reg u R.RSV_RETIRED = satAdd 32 (reg s R.RSV_RETIRED) 1
        ∧ (unitOut u p.cls p.idx = true ∨ (⟨3, p.idx, p.cls⟩ : Activity) ∈ u.reserve.acts)) := by
  intro p haction
  refine repair_mapped h hready hop (exec_submits (by simp [hop, show (readRepair _).action = 2 from haction])) hadmitted ?_
  intro v u hreserve hretired hin hswap
  have hv : v = (retireUnit p.cls p.idx (begun s k)).1 := applyRepair_retire haction (begun s k)
  obtain ⟨hcount, hleft⟩ := retireUnit_retires (t := begun s k) h.booted haction (hadmitted.begun k).free hin hswap
  rw [← hv] at hcount hleft
  rw [hretired, hcount, reg_begun_other k (by decide), hreserve, unitOut_of_view (congrArg ReserveState.out hreserve)]
  exact ⟨rfl, hleft⟩

theorem unit_restored (hop : (windowRun s).opcode = 3)
    (hadmitted : Admitted s (operandWord (windowRun s) 0)) :
    let p := readRepair (operandWord (windowRun s) 0)
    p.action = 3 → Repairs .restore s (fun u => unitOut u p.cls p.idx = false
      ∨ (p.cls < 4 ∧ (⟨3, p.idx, p.cls⟩ : Activity) ∈ u.reserve.acts)) := by
  intro p haction
  refine repair_mapped h hready hop (exec_submits (by simp [hop, show (readRepair _).action = 3 from haction])) hadmitted ?_
  intro v u hreserve _
  have hv : v = restoreUnit p.cls p.idx (begun s k) := applyRepair_restore haction (begun s k)
  obtain ⟨hform, _, hfree, hallowed, _⟩ := hadmitted.begun k
  have hback := restoreUnit_restores (repairForm_cls hform (Or.inr haction)) haction hfree hallowed
  rw [hreserve, unitOut_of_view (congrArg ReserveState.out hreserve), hv]
  exact hback

theorem margin_set (hop : (windowRun s).opcode = 3)
    (hadmitted : Admitted s (operandWord (windowRun s) 0)) :
    let p := readRepair (operandWord (windowRun s) 0)
    p.action = 4 → Repairs .margin s (fun u => stepOfDomain u p.cls = p.idx
      ∧ u.reserve.vask = (if s.reserve.vreq = p.row ∧ s.reserve.vask = [] then [] else s.reserve.vask ++ [(p.row, 4)])) := by
  intro p haction
  refine repair_mapped h hready hop (exec_submits (by simp [hop, show (readRepair _).action = 4 from haction])) hadmitted ?_
  intro v u hreserve _
  have hv : v = setMargin p.cls p.idx p.row (begun s k) := applyRepair_margin haction (begun s k)
  obtain ⟨hstep, hask⟩ := setMargin_sets p.cls p.idx p.row (begun s k)
  have hsteps : stepOfDomain u p.cls = stepOfDomain v p.cls :=
    congrArg (fun x : ReserveState => Tab.get 0 x.steps p.cls) hreserve
  rw [hsteps, hreserve, hv]
  exact ⟨hstep, hask⟩

end

/-! ### A command that waits for its entry -/

/-- While the journal is ready the command waits, its mark raised already. -/
theorem command_journalled {s : State} {k : BitVec 128} {e : Word} (h : PassesChecks s k e)
    (hready : s.ledger.ready = true) {c : Instr}
    (hc : c = .setCeiling ∧ (windowRun s).opcode = 2 ∨ c = .debugUnlock ∧ (windowRun s).opcode = 6) :
    EndsIn (exec c s) (fun u => RunsAt u (windowRun s) .journal ∧ slotMark u (windowRun s).slot = (windowRun s).counter
      ∧ EntryMade u (fun x => x.etype = 9 ∧ x.param = (windowRun s).slot + 4 * (windowRun s).opcode
        ∧ x.a = (windowRun s).counter ∧ x.b = e.toNat)) := by
  obtain ⟨hport, hclock, hbooted, hidle, hform, hquiet, hepoch, hkey, htag, hcounter⟩ := h
  obtain ⟨-, -, -, -, -, -, -, htaken⟩ := keysAndKeyedEnds s
  obtain ⟨-, hwaits, -⟩ := htaken c k e (by rcases hc with h | h <;> simp [h]) hport hclock hbooted hidle hform hquiet
    hepoch hkey htag hcounter
  obtain ⟨u, hexec, hrun, hmarks, hentry⟩ := hwaits hready
  refine ⟨u, hexec, ⟨_, hrun, rfl, rfl, rfl⟩, ?_, hentry⟩
  exact (congrArg (fun m => Tab.get 0 m (windowRun s).slot) hmarks).trans (Tab.get_set_same ..)

/-- Settles O54: every command that passes the checks is taken, and then each opcode has its own effect; that a command
waits for its entry is the last clause of O55. -/
theorem keyedCommandsTakeEffect : Obligations.KeyedCommandsTakeEffect := by
  intro s k e r w p taken done at_ repairs hport hclock hbooted hidle hform hquiet hepoch hkey htag hcounter
  have h : PassesChecks s k e := ⟨hport, hclock, hbooted, hidle, hform, hquiet, hepoch, hkey, htag, hcounter⟩
  refine ⟨fun hready c hc => command_journalled h hready hc, fun hready =>
    ⟨fun hop => ⟨ceiling_set h hready hop, ceiling_refused h hready hop⟩,
      fun hop => ⟨hash_set h hready hop, hash_refused h hready hop⟩,
      fun hop => ⟨scopes_opened h hready hop, scopes_refused h hready hop⟩,
      fun hop => ⟨fun st => load_refused h hready hop, load_reads h hready hop⟩,
      fun hop => zeroise_empties h hready hop, fun hop => repair_refused h hready hop,
      fun hop hgood hrange hfree hallowed hroom => ?_⟩⟩
  have hadmitted : Admitted s w := ⟨hgood, hrange, hfree, hallowed, hroom⟩
  exact ⟨row_remapped h hready hop hadmitted, unit_retired h hready hop hadmitted, unit_restored h hready hop hadmitted,
    margin_set h hready hop hadmitted⟩

end Sys2Proof.Machine
end
